-- ==== Sys2Proof/Word.lean ====
section
/-! DEFINITION. The words of the SG7: registers are 64-bit words, memory is bytes, addresses are
fabric addresses of 64 bits (spec/20_registers.md R493, spec/05_bays_addressing.md Table 5.5). -/

namespace Sys2Proof

/-- A register, a fabric address, a counter: 64 bits (R493). -/
abbrev Word := BitVec 64

/-- A byte of memory or of a payload. -/
abbrev Byte := BitVec 8

end Sys2Proof
end

