-- ==== Sys2Proof/Syntax.lean ====
section
/-! DEFINITION. The commands of the SG7: one constructor of `Instr` for every row of the table of
operations and events (spec/opcode_table.json), in the table's order, with the row's operands.
The operand types come first. Fields that arrive from outside as bits are bit vectors of exactly
the width the spec gives them, so that an operand out of its range cannot be written. -/

namespace Sys2Proof

/-- A Tenon frame as carried between the MAC addresses and the link trailer: the 32-byte header of
Table 3.6 and the payload (R74). `rsv` holds the reserved header bits (bits 15:12 of bytes 2-3 and
bits 15:13 of bytes 14-15), which R76 requires to be zero. -/
structure Frame where
  kind : BitVec 8
  tc : BitVec 3
  ver : BitVec 4
  enc : Bool
  bay : BitVec 12
  src : BitVec 12
  dst : BitVec 12
  inc : BitVec 8
  gen : BitVec 16
  seq : BitVec 24
  status : BitVec 8
  len : BitVec 13
  tag : BitVec 16
  flags : BitVec 16
  addr : BitVec 64
  ackseq : BitVec 24
  detail : BitVec 8
  rsv : BitVec 7
  payload : List Byte
  deriving DecidableEq, Repr

/-- The link trailer of a frame (Table 3.9). -/
structure Trailer where
  lseq : BitVec 16
  lack : BitVec 16
  cr0tc : BitVec 3
  cr0cnt : BitVec 13
  cr1tc : BitVec 3
  cr1cnt : BitVec 13
  deriving DecidableEq, Repr

/-- A frame as a sub-port receives it: what the FCS and GCM checks found (their codes are below the
model), the EtherType, the length on the wire and whether it was encrypted (R74-R76, R83, R93). -/
structure RxFrame where
  fcsOk : Bool
  tagOk : Bool
  etype : BitVec 16
  wireBytes : Nat
  encrypted : Bool
  trailer : Trailer
  frame : Frame
  deriving DecidableEq, Repr

/-- A unit that holds memory: an HBM stack or a DDR5 channel. -/
inductive MemUnit where
  | hbm (s : Fin 8)
  | ddr (c : Fin 12)
  deriving DecidableEq, Repr

/-- A failure unit of spec/08 Table 8.1. -/
inductive FailUnit where
  | hbm (s : Fin 8)
  | ddr (c : Fin 12)
  | tray (ep : Fin 4095)
  deriving DecidableEq, Repr

/-- The units that compute (spec/18 Table 18.7). -/
inductive UnitKind where
  | tile | crucible | cupola | runner | riddle
  deriving DecidableEq, Repr

/-- What the quick boot check found (R43, R488). -/
inductive BootFault where
  | sramRepaired (count : Nat)
  | unitFailed (k : UnitKind) (n : Nat)
  | flaskCells (count : Nat)
  | cacheLines (count : Nat)
  | moduleFault
  deriving DecidableEq, Repr

/-- One item of a new repair map (R488). -/
inductive RepairItem where
  | sram (count : Nat)
  | exhausted (count : Nat)
  | unitFailed (k : UnitKind) (n : Nat)
  | flaskCells (count : Nat)
  | cacheLines (count : Nat)
  | moduleFault
  deriving DecidableEq, Repr

/-- The two reference clocks (R46). -/
inductive RefClk where
  | core | fab
  deriving DecidableEq, Repr

/-- A frame held for admission: in the ingress buffer of a class and sub-port, or inside (R104, R106). -/
inductive HeldSel where
  | ingress (port : Fin 128) (sub : Fin 4) (cls : Fin 3)
  | inner (index : Nat)
  deriving DecidableEq, Repr

/-- A scheduler: of a sub-port of a fabric port, or of an internal port (R109). -/
inductive SchedSel where
  | port (port : Fin 128) (sub : Fin 4)
  | inner (i : Fin 16)
  deriving DecidableEq, Repr

/-- A page: of a bay's flat range, by its number there, or of the KV space, by its record (R200, R355). -/
inductive PageRef where
  | flat (bay : Fin 4096) (page : BitVec 36)
  | kv (record : Nat)
  deriving DecidableEq, Repr

/-- What Ladle has zeroed: the next pages of a memory unit after a start of MAIN (R429), or one freed page, named by its physical page key, or the next
pages of a backing extent after its installation (R205). -/
inductive ZeroSel where
  | sweep (u : MemUnit) (count : Nat)
  | backing (index : Fin 65536) (count : Nat)
  | page (key : Nat)
  deriving DecidableEq, Repr

/-- A finding of the patrol scrub: the physical 64-byte block key (R223). -/
inductive ScrubFinding where
  | corr (block : Nat)
  | uncorr (block : Nat)
  deriving DecidableEq, Repr

/-- A Runner or a Riddle (R315). -/
inductive RunUnit where
  | runner (n : Fin 64)
  | riddle (n : Fin 32)
  deriving DecidableEq, Repr

/-- What SECDED finds in Flask while a frame is dequeued (R114). -/
inductive FlaskErr where
  | clean | corrected | cell | pointer
  deriving DecidableEq, Repr

/-- What the checking sites of Table 18.1 find while a request is served: nothing; a corrected word, with its
block, class and unit; an uncorrectable memory block; an extent or composition map lost in both copies; the
tier map lost in both copies; a tracker or Peg entry lost; a bus word lost; a directory entry lost, its CDOM
field corrupted or not. -/
inductive SiteErr where
  | clean
  | corrected (block cls : Fin 32) (unit : Nat)
  | memBlock
  | tableLost
  | mapLost
  | entryLost
  | busWord
  | dirEntry (cdomLost : Bool)
  deriving DecidableEq, Repr

/-- Why an engine of Ladle took a bus error (R408). -/
inductive BusCause where
  | fetch (ch : Fin 32) (status : Byte)
  | inner
  deriving DecidableEq, Repr

/-- Who acknowledges a mailbox post (R414, R417). -/
inductive Acker where
  | jorren (ep : Fin 4095)
  | tile (t : Fin 272) (ep : BitVec 12)
  deriving DecidableEq, Repr

/-- The context of a log entry that sensors supply (Table 18.4 bytes 48-56). -/
structure LogContext where
  t1 : BitVec 16
  t2 : BitVec 16
  vlogic : BitVec 16
  vsram : BitVec 16
  util : Byte
  deriving DecidableEq, Repr

/-- A management-plane beat datagram (R456). -/
structure MgmtBeat where
  srcAddr : BitVec 128
  udpPort : BitVec 16
  ep : BitVec 16
  inc : Byte
  kind : Byte
  restZero : Bool
  deriving DecidableEq, Repr

/-- The kinds of work item of the test bar (R466). -/
inductive ItemKind where
  | chunk | combinePiece | cupolaPass | patternBlock
  deriving DecidableEq, Repr

/-- What a recheck found (R467): the results agree; they differ and a third computation leaves one
dissenter (0 the first unit, 1 the second, 2 the third); or all three differ. -/
inductive RecheckOutcome where
  | agree
  | dissent (which : Fin 3)
  | allDiffer
  deriving DecidableEq, Repr

/-- A resource named by JMP SELFTEST (R490). -/
inductive TestRes where
  | tile (die : Fin 2) (logical : Fin 128)
  | crucible (n : Fin 136)
  | cupola (n : Fin 34)
  deriving DecidableEq, Repr

/-- The settings of JMP NETCFG (Table 19.2, Table 19.11, R484). -/
structure NetCfg where
  port : Fin 2
  vid : BitVec 12
  pcp : BitVec 3
  ip4 : BitVec 32
  ip6 : BitVec 128
  jmpPort : BitVec 16
  server4 : BitVec 32
  server6 : BitVec 128
  deriving DecidableEq, Repr

/-- A sensor (Table 19.5, Table 2.12). -/
inductive SensorSel where
  | temp (i : Fin 104)
  | rail (r : Fin 13)
  | conv (c : Fin 9)
  | optTx (l : Fin 520)
  | optRx (l : Fin 520)
  | coolant
  | coolantMiss
  | inputPower
  | mainCurrent
  deriving DecidableEq, Repr

/-- A JTAG scan: the identity register, boundary scan, or anything that needs a debug session (R29). -/
inductive JtagScan where
  | idcode
  | boundary (bits : List Bool)
  | debug (bits : List Bool)
  deriving DecidableEq, Repr

/-- What a frame on a control port carries (Table 3.10). -/
inductive CtlProto where
  | pause
  | arp (target : BitVec 32)
  | neighbour (target : BitVec 128)
  | echo4 (data : List Byte)
  | echo6 (data : List Byte)
  | udp (dstPort : BitVec 16) (data : List Byte)
  | tcp
  | fragment
  | other
  deriving DecidableEq, Repr

/-- A frame received on a control port: its size, VLAN tags and content (R94, Table 3.10). -/
structure CtlFrame where
  bytes : Nat
  tags : List (BitVec 12)
  proto : CtlProto
  deriving DecidableEq, Repr

/-- The operand fields of a 64-bit Truss instruction word (spec/15 Table 15.5). -/
structure TileFields where
  d : BitVec 6
  a : BitVec 6
  b : BitVec 6
  sz : BitVec 2
  useImm : Bool
  imm : BitVec 32
  deriving DecidableEq, Repr

/-- The commands of the SG7, one constructor per row of spec/opcode_table.json. -/
inductive Instr where
  /-- FEED_GOOD (R35): A 54 V feed has stayed at or above 46 V for the 1 ms debounce time and becomes good. -/
  | feedGood (feed : Fin 4)
  /-- FEED_LOST (R39): A feed has stayed below 44 V for 1 ms; the SG7 continues on the other feed, logs FEED_LOST and asserts ALERT_N. -/
  | feedLost (feed : Fin 4)
  /-- COLD_RESET (R56): AUX becomes good; everything except flash and fuses is reset, and power-up starts at step 1 of Table 2.5. -/
  | coldReset
  /-- BOOT_VERIFY (R431): The boot ROM locks the root PLL and checks the flash firmware image, then starts it or takes the recovery path. -/
  | bootVerify
  /-- PWR_EN_ASSERT (R38): After step 2, PWR_EN is asserted because AUTO_ON = 1 or a POWER_ON command arrived. -/
  | pwrEnAssert
  /-- RAIL_SEQUENCE (R40): When a MAIN feed is good, the MAIN rails sequence in order and MAIN_GOOD is released. -/
  | railSequence
  /-- RAIL_FAIL (R42): A rail has not reached regulation within 10 ms; the rails already up switch off, PWR_EN drops, and RAIL_FAIL is logged. -/
  | railFail (rail : Fin 13)
  /-- RAIL_OUT_OF_REGULATION (R40): A rail has left regulation for 10 µs, and MAIN_GOOD or AUX_GOOD is asserted. -/
  | railOutOfRegulation (rail : Fin 13)
  /-- SOFT_REPAIR (R488): The repair map from flash is applied as soft repair at step 6 of power-up. -/
  | softRepair
  /-- QUICK_BOOT_CHECK (R43): The checkerboard pass over all SRAM ends; failures are repaired, spared or taken out of service. -/
  | quickBootCheck (found : List BootFault)
  /-- MEMORY_TRAINED (R429): An HBM stack or DDR5 channel finishes training and starts zeroing its memory, or is taken out of service. -/
  | memoryTrained (unit : MemUnit) (ok : Bool) (slots : Nat)
  /-- DATA_READY (R43): Power-up reaches step 10; PWR_STATUS.DATA_READY is set and the DATA_READY event lists any reduced resources. -/
  | dataReady
  /-- POWER_CAP_EXCEEDED (R41): The 1 ms average input power exceeds PWR_CTL.CAP_W, and the A-clock takes the next throttle step. -/
  | powerCapExceeded (watts : BitVec 16)
  /-- OVER_CURRENT (R37): MAIN input current has stayed above 80 A for 1 ms; the module switches off MAIN and treats it as a MAIN loss. -/
  | overCurrent (current : BitVec 16)
  /-- MAIN_LOST (R44): V6_INT falls below 5.4 V or both MAIN feeds are lost; the MAIN rails switch off at once and MAIN_LOST is logged with a sensor snapshot. -/
  | mainLost
  /-- AUX_LOST (R45): Both AUX feeds are lost; the root PLL and Jorren stop and MAIN is switched off. -/
  | auxLost
  /-- CLOCK_FREQUENCY_EVENT (R47): A reference clock has been outside twice its tolerance for 100 µs, and a frequency event is logged. -/
  | clockFrequencyEvent (clk : RefClk)
  /-- FAB_REF_LOST (R48): REFCLK_FAB has had no edge for 1 µs; every fabric port goes DOWN. -/
  | fabRefLost
  /-- CORE_REF_LOST (R49): REFCLK_CORE has had no edge for 1 µs; the data plane stops, MAIN switches off, and Jorren logs CORE_REF_LOST. -/
  | coreRefLost
  /-- CORE_REF_RESTORED (R49): REFCLK_CORE has been present and in tolerance for 10 ms, and Jorren restarts from step 2 of Table 2.5. -/
  | coreRefRestored
  /-- THROTTLE_STEP_DOWN (R50): A site reaches 101 °C or 104 °C, or the cap applies, and every A-clock block moves together to a slower divider. -/
  | throttleStepDown
  /-- THROTTLE_STEP_UP (R50): All sites and the power have stayed under the exit limits for 1,000,000 T-ticks, and the A-clock returns one step faster. -/
  | throttleStepUp
  /-- THERMAL_LIMIT (R51): A site exceeds 105 °C at the ÷6 step; Jorren logs THERMAL_LIMIT and asserts ALERT_N. -/
  | thermalLimit
  /-- THERM_TRIP (R52): A site reaches 115 °C; the hardware asserts THERM_TRIP_N and switches MAIN off without firmware. -/
  | thermTrip
  /-- PIN_RESET (R55): RESET_N has been low and stable for 40 ns; Jorren and MAIN are reset, MAIN is switched off, and PWR_EN stays low. -/
  | pinReset
  /-- WATCHDOG_EXPIRY (R53): The firmware has not serviced the Jorren watchdog for 0.5 s, and a management reset takes place. -/
  | watchdogExpiry
  /-- MGMT_RESET_END (R475): A management reset ends; open probe windows restart at full length and pending Jorren mailbox posts are acknowledged RESTARTED. -/
  | mgmtResetEnd
  /-- D2D_FAIL (R445): A die-to-die link still fails after 8 retries or loses lock for 1 µs; MAIN is taken down and a module REPLACE advisory is raised. -/
  | d2dFail (link : Fin 3)
  /-- LASER_FAIL (R33): A laser of an ELM fails; the lanes it feeds are handled as failed lanes while Jorren switches in a spare laser. -/
  | laserFail (elm : Fin 8) (fibre : Fin 16)
  /-- LASER_SWITCH (R33): A spare laser has been switched onto the failed laser's fibre, within 10 ms. -/
  | laserSwitch (elm : Fin 8) (fibre : Fin 16)
  /-- LNK_MODE_CHANGE (R62): A write that changes LNK_CFG.MODE or BREAKOUT takes every sub-port of the port DOWN, discards their replay buffers and retrains them. -/
  | lnkModeChange (port : Fin 128) (v : Word)
  /-- LNK_DISABLE (R72): LNK_CFG.ENABLE is written 0 and every sub-port of the port goes DOWN. -/
  | lnkDisable (port : Fin 128)
  /-- UNQUAR (R72): LNK_CFG.UNQUAR is written 1 and every QUARANTINED sub-port of the port is released to DOWN. -/
  | unquar (port : Fin 128)
  /-- LINK_SIGNAL_DETECT (R72): A DOWN sub-port with ENABLE = 1 and MAIN up sees signal on a lane and enters TRAIN. -/
  | linkSignalDetect (port : Fin 128) (sub : Fin 4)
  /-- TRAIN_COMPLETE (R72): Per-lane equalisation has trained a usable width, and the sub-port enters ALIGN. -/
  | trainComplete (port : Fin 128) (sub : Fin 4) (lanes : BitVec 4)
  /-- TRAIN_TIMEOUT (R72): No usable width has trained within 50 ms, and the sub-port goes DOWN. -/
  | trainTimeout (port : Fin 128) (sub : Fin 4)
  /-- TRAIN_RETRY (R72): 100 ms after a training timeout the sub-port tries training again. -/
  | trainRetry (port : Fin 128) (sub : Fin 4)
  /-- SUBPORT_ALIGNED (R71): All FEC lanes of the sub-port are locked and deskewed, and the LINK_INIT or WIDTH_CHANGE exchange can run. -/
  | subportAligned (port : Fin 128) (sub : Fin 4)
  /-- ALIGN_TIMEOUT (R72): A sub-port has not aligned within 10 ms and returns to TRAIN. -/
  | alignTimeout (port : Fin 128) (sub : Fin 4)
  /-- LINK_INIT (R117): A LINK_INIT frame is received; mode, credits and encryption are checked and each presented endpoint is decided on its own. -/
  | linkInit (port : Fin 128) (sub : Fin 4) (payload : List Byte)
  /-- KEY_ACCEPT (R92): The endpoint's KEY_ACCEPT ciphertext arrives, and both sides derive the AES-256 link key and salt. -/
  | keyAccept (port : Fin 128) (sub : Fin 4) (ciphertext : List Byte)
  /-- REKEY (R92): After 2^40 frames in either direction, or on operator command, the SG7 rekeys the sub-port. -/
  | rekey (port : Fin 128) (sub : Fin 4)
  /-- LANE_FAIL (R64): A lane has lost signal or lock for 256 ns, or had too many uncorrectable codewords in 1 ms; the SG7 stops transmitting on it and narrows or retrains. -/
  | laneFail (port : Fin 128) (lane : Fin 4)
  /-- WIDTH_CHANGE (R65): WIDTH_CHANGE is exchanged in ALIGN and the sub-port continues UP or DEGRADED on the new lane set, without frame loss. -/
  | widthChange (port : Fin 128) (sub : Fin 4) (lanes : BitVec 4)
  /-- LANE_READD (R66): A failed lane has held lock with no uncorrectable codeword for 10 ms and is re-added through ALIGN. -/
  | laneReadd (port : Fin 128) (lane : Fin 4)
  /-- LANE_RECALIBRATION (R67): The SG7 removes a lane for full re-calibration, or defers it. -/
  | laneRecalibration (port : Fin 128) (lane : Fin 4)
  /-- NAK (R83): A NAK is received and the sender replays in order from the named LSEQ. -/
  | nak (port : Fin 128) (sub : Fin 4) (lseq : BitVec 16)
  /-- REPLAY_TIMEOUT (R83): LACK has not advanced for 2 µs and the sender replays from its oldest unacknowledged frame. -/
  | replayTimeout (port : Fin 128) (sub : Fin 4)
  /-- REPLAY_STALL_TIMEOUT (R84): A stalled sub-port has not returned to UP within 1 ms and goes to TRAIN. -/
  | replayStallTimeout (port : Fin 128) (sub : Fin 4)
  /-- CREDIT (R81): A CREDIT frame is received and its credits and LACK are applied. -/
  | credit (port : Fin 128) (sub : Fin 4) (tr : Trailer)
  /-- CREDIT_RETURN_WAIT (R81): A credit return or LACK advance has waited 100 ns for a frame, and the SG7 sends a CREDIT frame. -/
  | creditReturnWait (port : Fin 128) (sub : Fin 4)
  /-- FRAME_RECEIVE (R76): A frame is received on a sub-port and checked for FCS, tag, header ranges, source admission and incarnation before admission. -/
  | frameReceive (port : Fin 128) (sub : Fin 4) (rx : RxFrame)
  /-- HELD_FRAME_RETRY (R104): Cells are freed and a held TC0–TC2 frame, or an internally generated frame, is admitted. -/
  | heldFrameRetry (which : HeldSel)
  /-- HOLD_TIMEOUT (R104): A held frame reaches FLK_CFG.HOLD_TIMEOUT and is discarded and counted. -/
  | holdTimeout (port : Fin 128) (sub : Fin 4) (cls : Fin 3)
  /-- EGRESS_SEND (R109): A scheduler sends the next eligible frame by strict priority and deficit round robin and frees its cells. -/
  | egressSend (sched : SchedSel) (found : FlaskErr)
  /-- FLASK_SWEEP (R114): The background sweep returns cells lost to a pointer error to the shared pool. -/
  | flaskSweep
  /-- FLK_QCFG_WRITE (R107): A write to FLK_QCFG takes effect at the queue's next decision and quantum. -/
  | flkQcfgWrite (queue : Fin 1152) (v : Word)
  /-- CLEAR (R113): FLK_Q_SCTL.CLEAR resets the live sample set of a queue. -/
  | clear (queue : Fin 1152)
  /-- CLR_MIN (R495): FLK_CFG.CLR_MIN sets MIN_FREE to the current free count. -/
  | clrMin
  /-- TACK (R88): A transport acknowledgement arrives; acknowledged SEQs are released, fences counted and Peg entries freed. -/
  | tack (frame : Frame)
  /-- TACK_SEND (R88): A SEQ has been acknowledgeable for 500 ns without a carrying frame and a TACK is sent. -/
  | tackSend (peer : Fin 4096)
  /-- RTX_TIMEOUT (R89): RTX_TIMEOUT expires for an unacknowledged frame, which is retransmitted with RETX = 1 or given up as PATH_LOST or TIMEOUT. -/
  | rtxTimeout (peer : Fin 4096) (seq : BitVec 24)
  /-- SEQFILL_RETRANSMIT (R170): A given-up SEQ is sent again as SEQFILL at each RTX_TIMEOUT until acknowledged or the peer is retired. -/
  | seqfillRetransmit (peer : Fin 4096) (seq : BitVec 24)
  /-- SEQFILL (R78): A SEQFILL frame passes or reaches the SG7, consuming one SEQ and removing any matching tracker entry. -/
  | seqfill (frame : Frame)
  /-- READ (R149): A READ request is checked under Table 5.9 and served, forwarded or passed through. -/
  | read (frame : Frame) (found : SiteErr)
  /-- WRITE (R152): A WRITE request is checked, allocated if needed and applied, forwarded or passed through. -/
  | write (frame : Frame) (found : SiteErr)
  /-- FLAGGED_WRITE (R157): A write or atomic with FLAGS.RELEASE is held at ingress until no earlier tracker entry remains. -/
  | flaggedWrite (frame : Frame) (found : SiteErr)
  /-- RELEASE_PROCEED (R157): The earlier tracker entries of a held release have all been removed and it proceeds. -/
  | releaseProceed (req : Nat)
  /-- RELEASE_TIMEOUT (R157): A held release reaches FENCE_TIMEOUT and is answered PATH_LOST unapplied. -/
  | releaseTimeout (req : Nat)
  /-- WRITE_INV (R189): An invalidating write is executed line by line after home invalidates or recalls each line. -/
  | writeInv (frame : Frame)
  /-- ATOMIC (R167): An ATOMIC request is looked up in the Peg table and replayed, held, or checked and executed in the home cache. -/
  | atomic (frame : Frame) (found : SiteErr)
  /-- QUERY (R168): An ATOMIC with OP QUERY asks for the recorded outcome of one of the source's atomics. -/
  | query (frame : Frame)
  /-- ATOMIC_WRITEBACK (R165): The tray acknowledges an atomic's write-back; the atomic completes and held requests to the line are released. -/
  | atomicWriteback (frame : Frame)
  /-- FENCE (R158): A transport FENCE waits on every tracker entry of its source and bay added before it. -/
  | fence (frame : Frame)
  /-- FENCE_COMPLETE (R158): Every counted operation of a fence is applied or has failed, and FENCE_RSP OK is sent. -/
  | fenceComplete (req : Nat)
  /-- FENCE_TIMEOUT (R159): A fence is not confirmed within FENCE_TIMEOUT and completes PATH_LOST naming an endpoint. -/
  | fenceTimeout (req : Nat)
  /-- CTR (R160): A CTR request reads or saturating-adds an arrival counter of the bay's window. -/
  | ctr (frame : Frame)
  /-- READ_PUB (R218): A published read returns one complete image of a region and its version. -/
  | readPub (frame : Frame)
  /-- PUBLISH (R217): A PUBLISH request advances a region's version if it is exactly one above, else CONFLICT. -/
  | publish (frame : Frame)
  /-- RESPONSE (R148): A response from another endpoint arrives and is forwarded to its requester or completes the SG7's own request. -/
  | response (frame : Frame)
  /-- SYNC_RSP (R131): A tray's SYNC_RSP to EXTSYNC or EXTDROP arrives and the extent entry moves on. -/
  | syncRsp (frame : Frame)
  /-- RDS (R186): A coherent shared read is served by home per Table 7.5. -/
  | rds (frame : Frame) (found : SiteErr)
  /-- RDX (R186): A coherent exclusive read is served by home per Table 7.5. -/
  | rdx (frame : Frame)
  /-- UPG (R186): An upgrade request is served by home per Table 7.5. -/
  | upg (frame : Frame)
  /-- WBM (R187): A modified write-back is written into the home cache and answered Cmp. -/
  | wbm (frame : Frame)
  /-- WBE (R186): An exclusive or shared eviction notice is answered Cmp. -/
  | wbe (frame : Frame)
  /-- INVACK (R186): An invalidation acknowledgement arrives at home. -/
  | invack (frame : Frame)
  /-- FWDACK (R187): An owner's forward acknowledgement arrives, with data if modified. -/
  | fwdack (frame : Frame)
  /-- DATA (R186): An owner's Data answering a Recall arrives at home. -/
  | data (frame : Frame)
  /-- DIR_ACK_TIMEOUT (R195): An agent has not answered Inv, Fwd or Recall within ACK_TIMEOUT and its domain goes down. -/
  | dirAckTimeout (bay : Fin 4096) (line : Word) (slot : Fin 64)
  /-- CREATE (R178): DIR_CMD CREATE takes a FREE domain UP with its valid agent slots. -/
  | create (dom : Fin 64)
  /-- ADD_AGENT (R178): DIR_CMD ADD_AGENT adds one agent slot to an UP domain. -/
  | addAgent (dom : Fin 64) (slot : Fin 64)
  /-- DESTROY (R198): DIR_CMD DESTROY recalls lines of an UP domain or waits for poisoning, and drains it. -/
  | destroy (dom : Fin 64)
  /-- DOMAIN_DRAINED (R198): The recall or poisoning of a destroyed domain ends and it goes from DRAINING to FREE. -/
  | domainDrained (dom : Fin 64)
  /-- EXT_INSTALL (R125): EXT_CMD INSTALL checks and installs a staged extent entry. -/
  | extInstall (index : Fin 65536)
  /-- EXT_REVOKE (R143): EXT_CMD REVOKE makes an ACTIVE extent REVOKING. -/
  | extRevoke (index : Fin 65536)
  /-- REVOKE_DRAINED (R144): A revoking extent's INFLIGHT reaches 0 and EXTDROP is sent or the entry emptied. -/
  | revokeDrained (index : Fin 65536)
  /-- REVOKE_TIMEOUT (R144): EXT_REVOKE_TIMEOUT passes and remaining requests through the extent are aborted. -/
  | revokeTimeout (index : Fin 65536)
  /-- CMP_INSTALL (R140): CMP_CMD INSTALL checks a staged map and installs it beside the current map with the next generation. -/
  | cmpInstall (bay : Fin 4096)
  /-- OLD_MAP_RETIRE (R141): BAY_OLD_INFLIGHT reaches 0 and the old map retires, abandoning unapplied old requests with REMAP. -/
  | oldMapRetire (bay : Fin 4096)
  /-- CMP_GRACE_EXPIRY (R141): CMP_GRACE T-ticks pass since install and the old map retires. -/
  | cmpGraceExpiry (bay : Fin 4096)
  /-- RETIRE_NOW (R141): CMP_CMD RETIRE_NOW retires the old map at once. -/
  | retireNow (bay : Fin 4096)
  /-- BAY_EP_CFG_WRITE (R119): A write to BAY_EP_CFG sets class and enable; writing ENABLE 0 retires the live incarnation. -/
  | bayEpCfgWrite (ep : Fin 4095) (v : Word)
  /-- MEM_CTR_WIN_WRITE (R176): A write to MEM_CTR_WIN is applied or refused for overlap or a bay not FREE. -/
  | memCtrWinWrite (bay : Fin 4096) (v : Word)
  /-- TIR_REGION_WRITE (R229): A write to TIR_REGION defines or enables a publication region, or disables it. -/
  | tirRegionWrite (region : Fin 65536) (word : Fin 3) (v : Word)
  /-- MIGRATION_START (R206): A queued migration gets a reserved channel, allocates its destination and sets MIGRATING. -/
  | migrationStart
  /-- MIGRATION_CHUNK (R206): Ladle completes the copy of one 512-byte chunk of a migrating page. -/
  | migrationChunk (page : PageRef) (destFails : Bool)
  /-- SOURCE_FREE (R206): Every read sent to a migrated page's source completes and the source is freed. -/
  | sourceFree (page : PageRef)
  /-- PAGE_ZEROED (R205): Ladle finishes zeroing a freed page, which becomes allocatable. -/
  | pageZeroed (what : ZeroSel)
  /-- ZEROING_FAIL (R508): Zeroing of a page fails and the page stays out of use until retried. -/
  | zeroingFail (what : ZeroSel)
  /-- FAILURE_UNIT_LOST (R222): An HBM stack, DDR channel or tray is lost; pages continue degraded or are set LOST with poisoned replacements. -/
  | failureUnitLost (unit : FailUnit)
  /-- REBUILD (R222): A queued rebuild of a degraded page into a new unit completes. -/
  | rebuild (page : PageRef)
  /-- RESERVED_AREA_REBUILD (R507): A reserved-area copy on a stack gone OFFLINE is rebuilt from the other copy. -/
  | reservedAreaRebuild (copy : Fin 2)
  /-- PATROL_SCRUB (R223): The patrol scrub reads every block once per period, correcting and poisoning. -/
  | patrolScrub (found : List ScrubFinding)
  /-- ECC_WRITEBACK (R223): A corrected block is written back within 1 µs. -/
  | eccWriteback (block : Nat)
  /-- HBM_EVACUATE (R224): HBM_CMD EVACUATE stops allocation on a stack and migrates its pages off. -/
  | hbmEvacuate (stack : Fin 8)
  /-- HBM_RESTORE (R225): HBM_CMD RESTORE powers, trains, tests and zeroes an OFFLINE stack. -/
  | hbmRestore (stack : Fin 8)
  /-- HBM_RESTORE_DONE (R225): The restore ends and the stack goes ONLINE, or OFFLINE with TRAIN_FAIL. -/
  | hbmRestoreDone (stack : Fin 8) (ok : Bool)
  /-- DDR_EVACUATE (R226): DDR_CMD EVACUATE migrates every frame using a channel and powers it down. -/
  | ddrEvacuate (ch : Fin 12)
  /-- DDR_RESTORE (R226): DDR_CMD RESTORE reads the SPD, trains the channel and sets it ONLINE. -/
  | ddrRestore (ch : Fin 12)
  /-- REBALANCE (R226): DDR_CMD REBALANCE migrates pages into frames of all ONLINE channels. -/
  | rebalance
  /-- KV_DESCRIPTOR_WRITE (R351): A write to a KV region descriptor creates, re-hints or destroys a region, or is refused MALFORMED. -/
  | kvDescriptorWrite (frame : Frame)
  /-- KV_DESTROY_APPLIED (R352): Every instruction naming a region being destroyed completes; its pages are released and the write answered. -/
  | kvDestroyApplied (bay : Fin 4096) (entry : Nat)
  /-- COPY_ON_WRITE (R357): A write to a shared KV page copies it and applies the write to the copy. -/
  | copyOnWrite (bay : Fin 4096) (entry : Nat) (page : Nat)
  /-- KVS_BAY_WRITE (R367): A write to KVS_BAY is applied or refused for overlap or a bay not FREE. -/
  | kvsBayWrite (bay : Fin 4096) (word : Fin 2) (v : Word)
  /-- CRU_BAY_RSA_WRITE (R312): A write to CRU_BAY_RSA is applied only while the bay is FREE. -/
  | cruBayRsaWrite (bay : Fin 4096) (v : Word)
  /-- QUE_CFG_WRITE (R230): A write to a queue's registers enables it if R230 holds, refuses it, or disables it. -/
  | queCfgWrite (queue : Fin 16384) (word : Fin 3) (v : Word)
  /-- DOORBELL (R234): A doorbell write advances a queue's TAIL, clamped to the ring. -/
  | doorbell (frame : Frame)
  /-- RESUME (R244): A doorbell with RESUME restarts a STOPPED queue, setting completed marks. -/
  | resume (frame : Frame)
  /-- FETCH (R243): A ring entry fetch returns; a failed fetch writes a FETCH record and stops the queue. -/
  | fetch (queue : Fin 16384)
  /-- ISSUE (R236): A sequencer issues the next instruction whose index, marks and SERIAL allow it, after clamping. -/
  | issue (queue : Fin 16384)
  /-- COMPLETION (R239): An instruction's effects are applied; the record is written and its mark set, or the queue stops. -/
  | completion (queue : Fin 16384) (index : BitVec 32)
  /-- RECORD_FAIL (R245): A completion record write fails and the queue stops with QUEUE_FAULT. -/
  | recordFail (queue : Fin 16384) (index : BitVec 32)
  /-- REQUEST_STATE_TIMEOUT (R248): A two-phase instruction waits for request-state space past SEQ_CFG.STRAGGLER and completes BUSY. -/
  | requestStateTimeout (queue : Fin 16384) (index : BitVec 32)
  /-- NOP (R255): Voxhal NOP completes at issue, its marks still acting. -/
  | nop (queue : Fin 16384) (index : BitVec 32)
  /-- WAIT (R257): Voxhal WAIT checks its counter and completes at once or waits. -/
  | wait (queue : Fin 16384) (index : BitVec 32)
  /-- WAIT_SATISFIED (R257): A waiting counter reaches the target and the WAIT completes OK. -/
  | waitSatisfied (queue : Fin 16384) (index : BitVec 32)
  /-- WAIT_EXPIRED (R257): A WAIT reaches its limit and completes TIMEOUT. -/
  | waitExpired (queue : Fin 16384) (index : BitVec 32)
  /-- SIGNAL (R258): Voxhal SIGNAL adds to a counter as a CTR ADD. -/
  | signal (queue : Fin 16384) (index : BitVec 32)
  /-- FENCE_INSTR (R259): Voxhal FENCE waits on the operations its queue had made before its issue. -/
  | fenceInstr (queue : Fin 16384) (index : BitVec 32)
  /-- TAP (R260): Voxhal TAP raises one Tap trigger and completes. -/
  | tap (queue : Fin 16384) (index : BitVec 32)
  /-- HALT (R261): Voxhal HALT writes an OK record and stops the queue with PROGRAM_HALT. -/
  | halt (queue : Fin 16384) (index : BitVec 32)
  /-- LOOP (R262): Voxhal LOOP jumps back to its body or completes. -/
  | loop (queue : Fin 16384) (index : BitVec 32)
  /-- POST (R264): Voxhal POST applies a doorbell value to a slot of its bay. -/
  | post (queue : Fin 16384) (index : BitVec 32)
  /-- COPY (R265): Voxhal COPY moves bytes on an INSTR Ladle channel. -/
  | copy (queue : Fin 16384) (index : BitVec 32)
  /-- ZERO (R265): Voxhal ZERO writes zero bytes on an INSTR Ladle channel. -/
  | zero (queue : Fin 16384) (index : BitVec 32)
  /-- STREAM (R266): Voxhal STREAM resets its counters, pins the slots and starts filling layers. -/
  | stream (queue : Fin 16384) (index : BitVec 32)
  /-- STREAM_FILL (R212): A slot's release counter reaches k × C and the fill of the next layer starts. -/
  | streamFill (queue : Fin 16384) (index : BitVec 32)
  /-- STREAM_FILL_TIMEOUT (R266): A fill's release condition is not met within COUNT and STREAM completes TIMEOUT. -/
  | streamFillTimeout (queue : Fin 16384) (index : BitVec 32)
  /-- HINT (R209): Voxhal HINT queues migrations of a range's pages toward a tier. -/
  | hint (queue : Fin 16384) (index : BitVec 32)
  /-- PUBLISH_INSTR (R268): Voxhal PUBLISH publishes a region version on the owner's behalf. -/
  | publishInstr (queue : Fin 16384) (index : BitVec 32)
  /-- ATOMICS (R269): Voxhal ATOMICS executes an array of atomics in the home cache and writes results. -/
  | atomics (queue : Fin 16384) (index : BitVec 32)
  /-- REDUCE (R272): A member posts REDUCE and joins or opens its collective. -/
  | reduce (queue : Fin 16384) (index : BitVec 32)
  /-- ALLREDUCE (R272): A member posts ALLREDUCE and joins or opens its collective. -/
  | allreduce (queue : Fin 16384) (index : BitVec 32)
  /-- REDUCESCATTER (R272): A member posts REDUCESCATTER and joins or opens its collective. -/
  | reducescatter (queue : Fin 16384) (index : BitVec 32)
  /-- ALLGATHER (R272): A member posts ALLGATHER and joins or opens its collective. -/
  | allgather (queue : Fin 16384) (index : BitVec 32)
  /-- BROADCAST (R272): A member posts BROADCAST and joins or opens its collective. -/
  | broadcast (queue : Fin 16384) (index : BitVec 32)
  /-- CHUNK_READOUT (R306): All N contributions of a chunk are in; it is read out once and results written. -/
  | chunkReadout (bay : Fin 4096) (group : Fin 256) (seqno : BitVec 32) (chunk : Nat)
  /-- PHASE_TWO (R308): Phase 1 of a two-phase instruction ends and phase 2 starts from the request-state area. -/
  | phaseTwo (queue : Fin 16384) (index : BitVec 32)
  /-- STRAGGLER (R273): Not every member has posted within SEQ_CFG.STRAGGLER and the posted members get TIMEOUT. -/
  | straggler (bay : Fin 4096) (group : Fin 256) (seqno : BitVec 32)
  /-- GATHER (R316): Voxhal GATHER copies table rows by index into dense rows. -/
  | gather (queue : Fin 16384) (index : BitVec 32)
  /-- SCATTER (R317): Voxhal SCATTER writes dense rows to table rows by index, highest position winning. -/
  | scatter (queue : Fin 16384) (index : BitVec 32)
  /-- DISPATCH (R324): Voxhal DISPATCH decides slots per (token, choice), copies rows and writes the map and overflow record. -/
  | dispatch (queue : Fin 16384) (index : BitVec 32)
  /-- COMBINE (R327): Voxhal COMBINE forms exact weighted sums of expert outputs per token. -/
  | combine (queue : Fin 16384) (index : BitVec 32)
  /-- FILTER (R320): Voxhal FILTER sets a mask bit per row by predicate. -/
  | filter (queue : Fin 16384) (index : BitVec 32)
  /-- TOPK (R322): Voxhal TOPK writes each row's KSEL largest values and indices. -/
  | topk (queue : Fin 16384) (index : BitVec 32)
  /-- COMPACT (R321): Voxhal COMPACT copies masked rows to consecutive destination rows. -/
  | compact (queue : Fin 16384) (index : BitVec 32)
  /-- PIECE_COMPLETE (R314): A Runner, Riddle or Crucible finishes one piece of an instruction. -/
  | pieceComplete (queue : Fin 16384) (index : BitVec 32) (piece : Nat)
  /-- UNIT_OUT_OF_SERVICE (R315): A Runner or Riddle fails its checks and is taken out of service; its pieces restart elsewhere. -/
  | unitOutOfService (unit : RunUnit)
  /-- ATTEND (R278): Voxhal ATTEND is divided into passes over splits of KV regions. -/
  | attend (queue : Fin 16384) (index : BitVec 32)
  /-- PASS_COMPLETE (R338): A Cupola finishes the online softmax of one pass over one split. -/
  | passComplete (queue : Fin 16384) (index : BitVec 32) (pass : Nat)
  /-- SPLIT_MERGE (R340): Every split of an output row is done; the states merge in a fixed tree and the row is written. -/
  | splitMerge (queue : Fin 16384) (index : BitVec 32) (row : Nat)
  /-- CUPOLA_OUT (R348): A Cupola leaves service and its running passes rerun elsewhere. -/
  | cupolaOut (unit : Fin 34)
  /-- KVAPPEND (R359): Voxhal KVAPPEND writes K and V positions into a region. -/
  | kvappend (queue : Fin 16384) (index : BitVec 32)
  /-- PREFIX_LOOKUP (R362): PREFIX LOOKUP maps or copies the longest cached prefix into a region. -/
  | prefixLookup (queue : Fin 16384) (index : BitVec 32)
  /-- PREFIX_INSERT (R361): PREFIX INSERT adds a sequence's full blocks to the prefix tree. -/
  | prefixInsert (queue : Fin 16384) (index : BitVec 32)
  /-- KVFORK (R365): Voxhal KVFORK shares leading positions of one region into another by reference. -/
  | kvfork (queue : Fin 16384) (index : BitVec 32)
  /-- PLACE (R373): Voxhal PLACE clears a rectangle of tiles, loads a kernel image and binds a handle. -/
  | place (queue : Fin 16384) (index : BitVec 32)
  /-- LAUNCH (R282): Voxhal LAUNCH starts every tile of a placement. -/
  | launch (queue : Fin 16384) (index : BitVec 32)
  /-- LAUNCH_COMPLETE (R385): Every tile has halted and every PUT and XSIGNAL applied, and LAUNCH completes. -/
  | launchComplete (queue : Fin 16384) (index : BitVec 32)
  /-- LAUNCH_TIMEOUT (R282): COUNT T-ticks pass and every tile of the LAUNCH is stopped with TIMEOUT. -/
  | launchTimeout (queue : Fin 16384) (index : BitVec 32)
  /-- PACK (R392): Voxhal PACK writes blocks in Pattern or RAW form. -/
  | pack (queue : Fin 16384) (index : BitVec 32)
  /-- UNPACK (R283): Voxhal UNPACK expands a packed stream bit for bit. -/
  | unpack (queue : Fin 16384) (index : BitVec 32)
  /-- SELFTEST (R284): Voxhal SELFTEST records tiles for testing at the bay's next shakeout. -/
  | selftest (queue : Fin 16384) (index : BitVec 32)
  /-- TILE_FAIL (R371): A tile is taken out of service; a LAUNCH using it completes POISONED. -/
  | tileFail (tile : Fin 272) (failed : Bool)
  /-- COLUMN_REMAP (R371): No running placement holds a tile at or above a failed row and the column is remapped. -/
  | columnRemap (die : Fin 2) (column : Fin 8)
  /-- TRS_OWN_WRITE (R372): A write to TRS_OWN unbinds and clears a tile before applying the new owner, or is refused. -/
  | trsOwnWrite (tile : Fin 256) (v : Word)
  /-- TILE_CLEARED (R372): Clearing of a tile finishes within 10 µs and it leaves CLEARING. -/
  | tileCleared (tile : Fin 256)
  /-- ADD (R378): Tile SALU ADD. -/
  | add (tile : Fin 272) (w : TileFields)
  /-- SUB (R378): Tile SALU SUB. -/
  | sub (tile : Fin 272) (w : TileFields)
  /-- MUL (R378): Tile SALU MUL, low 64 bits. -/
  | mul (tile : Fin 272) (w : TileFields)
  /-- AND (R378): Tile SALU AND. -/
  | and (tile : Fin 272) (w : TileFields)
  /-- OR (R378): Tile SALU OR. -/
  | or (tile : Fin 272) (w : TileFields)
  /-- XOR (R378): Tile SALU XOR. -/
  | xor (tile : Fin 272) (w : TileFields)
  /-- SHL (R378): Tile SALU shift left. -/
  | shl (tile : Fin 272) (w : TileFields)
  /-- SHR (R378): Tile SALU logical shift right. -/
  | shr (tile : Fin 272) (w : TileFields)
  /-- SAR (R378): Tile SALU arithmetic shift right. -/
  | sar (tile : Fin 272) (w : TileFields)
  /-- SLT (R378): Tile SALU signed set-less-than. -/
  | slt (tile : Fin 272) (w : TileFields)
  /-- SLTU (R378): Tile SALU unsigned set-less-than. -/
  | sltu (tile : Fin 272) (w : TileFields)
  /-- MIN (R378): Tile SALU minimum. -/
  | min (tile : Fin 272) (w : TileFields)
  /-- MAX (R378): Tile SALU maximum. -/
  | max (tile : Fin 272) (w : TileFields)
  /-- JMP (R378): Tile SCTL jump to IMM modulo IMEM. -/
  | jmp (tile : Fin 272) (w : TileFields)
  /-- BEQ (R378): Tile SCTL branch if equal. -/
  | beq (tile : Fin 272) (w : TileFields)
  /-- BNE (R378): Tile SCTL branch if not equal. -/
  | bne (tile : Fin 272) (w : TileFields)
  /-- BLT (R378): Tile SCTL branch if less than. -/
  | blt (tile : Fin 272) (w : TileFields)
  /-- BGE (R378): Tile SCTL branch if greater or equal. -/
  | bge (tile : Fin 272) (w : TileFields)
  /-- JR (R378): Tile SCTL jump to register. -/
  | jr (tile : Fin 272) (w : TileFields)
  /-- CALL (R378): Tile SCTL call, saving the return PC. -/
  | call (tile : Fin 272) (w : TileFields)
  /-- GETSYS (R380): Tile SCTL GETSYS reads rank, shape, position, die or logical index. -/
  | getsys (tile : Fin 272) (w : TileFields)
  /-- LD (R382): Tile scalar load from scratchpad. -/
  | ld (tile : Fin 272) (w : TileFields)
  /-- ST (R382): Tile scalar store to scratchpad. -/
  | st (tile : Fin 272) (w : TileFields)
  /-- VADD (R379): Tile vector add, rounded once to FP32. -/
  | vadd (tile : Fin 272) (w : TileFields)
  /-- VSUB (R379): Tile vector subtract. -/
  | vsub (tile : Fin 272) (w : TileFields)
  /-- VMUL (R379): Tile vector multiply. -/
  | vmul (tile : Fin 272) (w : TileFields)
  /-- VFMA (R379): Tile vector fused multiply-add, rounded once. -/
  | vfma (tile : Fin 272) (w : TileFields)
  /-- VMAX (R379): Tile vector maximum. -/
  | vmax (tile : Fin 272) (w : TileFields)
  /-- VMIN (R379): Tile vector minimum. -/
  | vmin (tile : Fin 272) (w : TileFields)
  /-- VEXP2 (R298): Tile vector exp2 per the defined function. -/
  | vexp2 (tile : Fin 272) (w : TileFields)
  /-- VLOG2 (R299): Tile vector log2 per the defined function. -/
  | vlog2 (tile : Fin 272) (w : TileFields)
  /-- VRCP (R300): Tile vector correctly rounded reciprocal. -/
  | vrcp (tile : Fin 272) (w : TileFields)
  /-- VRSQ (R300): Tile vector correctly rounded reciprocal square root. -/
  | vrsq (tile : Fin 272) (w : TileFields)
  /-- VCMPLT (R379): Tile vector compare less-than. -/
  | vcmplt (tile : Fin 272) (w : TileFields)
  /-- VSEL (R379): Tile vector select. -/
  | vsel (tile : Fin 272) (w : TileFields)
  /-- VCVT (R380): Tile vector format conversion with the selected rounding. -/
  | vcvt (tile : Fin 272) (w : TileFields)
  /-- VRSUM (R379): Tile vector exact lane sum rounded once into lane 0. -/
  | vrsum (tile : Fin 272) (w : TileFields)
  /-- VIADD (R379): Tile vector INT32 add modulo 2^32. -/
  | viadd (tile : Fin 272) (w : TileFields)
  /-- VBCAST (R379): Tile vector broadcast. -/
  | vbcast (tile : Fin 272) (w : TileFields)
  /-- VLD (R382): Tile vector load of 256 bytes. -/
  | vld (tile : Fin 272) (w : TileFields)
  /-- VST (R382): Tile vector store of 256 bytes. -/
  | vst (tile : Fin 272) (w : TileFields)
  /-- VLDS (R382): Tile strided vector load. -/
  | vlds (tile : Fin 272) (w : TileFields)
  /-- VSTS (R382): Tile strided vector store. -/
  | vsts (tile : Fin 272) (w : TileFields)
  /-- MZERO (R387): Tile matrix accumulator clear. -/
  | mzero (tile : Fin 272) (w : TileFields)
  /-- MLOADW (R386): Tile loads the weight operand buffer from scratchpad. -/
  | mloadw (tile : Fin 272) (w : TileFields)
  /-- MMA (R387): Tile matrix multiply-accumulate in fixed order. -/
  | mma (tile : Fin 272) (w : TileFields)
  /-- MSTORE (R387): Tile stores an accumulator with the selected rounding. -/
  | mstore (tile : Fin 272) (w : TileFields)
  /-- PSEL (R394): Tile starts expanding a Pattern block into a block buffer. -/
  | psel (tile : Fin 272) (w : TileFields)
  /-- PSEL_EXPANDED (R394): The expander finishes a block, after any test-bar check. -/
  | pselExpanded (tile : Fin 272) (buf : Fin 2)
  /-- PTILE (R394): Tile loads an expanded sub-tile into the WOB once it is ready. -/
  | ptile (tile : Fin 272) (w : TileFields)
  /-- SEND (R375): Tile sends a vector register on a stream port. -/
  | send (tile : Fin 272) (w : TileFields)
  /-- RECV (R375): Tile receives a vector register from a stream port. -/
  | recv (tile : Fin 272) (w : TileFields)
  /-- GET (R383): Tile starts an asynchronous read of fabric memory into scratchpad. -/
  | get (tile : Fin 272) (w : TileFields)
  /-- PUT (R383): Tile starts an asynchronous write of scratchpad to fabric memory. -/
  | put (tile : Fin 272) (w : TileFields)
  /-- TRANSFER_DONE (R383): A GET or PUT transfer completes and frees its tag. -/
  | transferDone (tile : Fin 272) (tag : Fin 16) (status : Byte)
  /-- XWAIT (R383): Tile waits for a transfer tag to complete. -/
  | xwait (tile : Fin 272) (w : TileFields)
  /-- XFENCE (R384): Tile waits until every earlier PUT is applied. -/
  | xfence (tile : Fin 272) (w : TileFields)
  /-- XSIGNAL (R384): Tile adds to a counter after its earlier PUTs are applied. -/
  | xsignal (tile : Fin 272) (w : TileFields)
  /-- TILE_HALT (R376): Tile SYS HALT ends the tile with an exit code. -/
  | tileHalt (tile : Fin 272) (w : TileFields)
  /-- BAR (R381): Tile barrier across the placement's non-halted tiles. -/
  | bar (tile : Fin 272) (w : TileFields)
  /-- SLEEP (R381): Tile waits for a mailbox wake event. -/
  | sleep (tile : Fin 272) (w : TileFields)
  /-- TILE_NOP (R378): Tile SYS NOP; also what reserved tile instructions execute as. -/
  | tileNop (tile : Fin 272) (w : TileFields)
  /-- CHAIN_START (R400): KICK exceeds DONE and a CHAIN channel starts a chain at HEAD. -/
  | chainStart (engine : Fin 16) (ch : Fin 32)
  /-- DESCRIPTOR_FETCH (R403): A channel's descriptor fetch returns; the descriptor is clamped and started. -/
  | descriptorFetch (engine : Fin 16) (ch : Fin 32)
  /-- DESCRIPTOR_DONE (R406): Every write of a descriptor is applied; its counter increments and chain end follow. -/
  | descriptorDone (engine : Fin 16) (ch : Fin 32)
  /-- CHANNEL_STOP (R407): A data read or write of a channel fails and only that channel stops. -/
  | channelStop (engine : Fin 16) (ch : Fin 32) (status : Byte) (detail : Byte)
  /-- BUS_ERROR (R408): A descriptor fetch fails or an engine buffer errs and the engine halts all its channels. -/
  | busError (engine : Fin 16) (cause : BusCause)
  /-- RESTART (R409): LDL_ENG_CMD RESTART returns a HALTED engine to running. -/
  | restart (engine : Fin 16)
  /-- LDL_CH_RESUME (R409): LDL_CH_CMD RESUME reruns a stopped or halted channel from CUR. -/
  | ldlChResume (engine : Fin 16) (ch : Fin 32)
  /-- LDL_CH_CFG_WRITE (R421): A write to a channel's configuration or HEAD is applied or refused. -/
  | ldlChCfgWrite (engine : Fin 16) (ch : Fin 32) (head : Bool) (v : Word)
  /-- LDL_ENG_CFG_WRITE (R410): A write to LDL_ENG_CFG sets engine exclusion or is refused. -/
  | ldlEngCfgWrite (engine : Fin 16) (v : Word)
  /-- MAILBOX_POST (R414): An endpoint writes CTL with GO and the SG7 raises a wake event at the receiver. -/
  | mailboxPost (frame : Frame)
  /-- BIND (R415): A tile binds a mailbox to its placement. -/
  | bind (tile : Fin 272) (bay : Fin 4096)
  /-- UNBIND (R415): A tile removes a mailbox binding. -/
  | unbind (tile : Fin 272)
  /-- ACKW (R414): The receiver acknowledges a post; ACK is set and GO clears in one step. -/
  | ackw (who : Acker) (code : BitVec 16)
  /-- MAILBOX_TIMEOUT (R418): A post unacknowledged for ACK_TIMEOUT is acknowledged TIMEOUT. -/
  | mailboxTimeout (ep : Fin 4095)
  /-- ECHO (R419): Jorren returns MSG1–MSG15 unchanged. -/
  | echo (ep : Fin 4095)
  /-- IDENTIFY (R419): Jorren returns GLB_ID, GLB_NUMREV and the firmware security version. -/
  | identify (ep : Fin 4095)
  /-- SPDM_MAILBOX (R437): Jorren takes an SPDM request fragment or returns a response fragment through a mailbox. -/
  | spdmMailbox (ep : Fin 4095)
  /-- RELEASE (R425): CMP_CMD RELEASE puts an ACTIVE bay into SHAKEOUT, discarding both maps and abandoning its work. -/
  | release (bay : Fin 4096)
  /-- SHAKEOUT_QUIESCE (R425): The bay's operations that had begun to apply finish or give up, and its entries are resolved. -/
  | shakeoutQuiesce (bay : Fin 4096)
  /-- SHAKEOUT_CLEAR (R427): On-die state of the bay is cleared and its memory keys destroyed. -/
  | shakeoutClear (bay : Fin 4096)
  /-- SHAKEOUT_REVOKE (R146): Every extent of the bay is revoked and trays remove their entries. -/
  | shakeoutRevoke (bay : Fin 4096)
  /-- SHAKEOUT_DONE (R121): The bay becomes FREE, MEM_HALT clears and SHAKEOUT_DONE is sent. -/
  | shakeoutDone (bay : Fin 4096)
  /-- KEY_ROTATE (R432): JMP KEY_ROTATE burns key slot 1 and revokes slot 0. -/
  | keyRotate (sid : Nat)
  /-- SVN_COMMIT (R433): JMP SVN_COMMIT raises the fused SVN to the running image's SVN, or is refused. -/
  | svnCommit (sid : Nat)
  /-- SPDM (R436): JMP SPDM carries an SPDM request to the responder. -/
  | spdm (sid : Nat) (msg : List Byte)
  /-- COLLECTOR_DRAIN (R448): Every 8 M-cycles the collector moves one queued report into the log ring. -/
  | collectorDrain (ctx : LogContext)
  /-- FLASH_BATCH (R451): 64 entries have gathered or 1 s has passed, and a batch is copied to flash. -/
  | flashBatch
  /-- HEALTH_DECAY (R453): Every 2^24 T-ticks all health scores halve. -/
  | healthDecay
  /-- ERR_FIRST_CLR (R447): The operator clears one or all FIRST records. -/
  | errFirstClr (v : Word)
  /-- BEAT_SEND (R455): Every BEAT interval the SG7 sends a BEAT to each admitted endpoint. -/
  | beatSend
  /-- BEAT (R458): A BEAT or ANSWER from the live incarnation arrives on the fabric and counts as evidence of life. -/
  | beat (frame : Frame)
  /-- MGMT_BEAT (R456): A management-plane UDP beat or answer arrives from a registered address. -/
  | mgmtBeat (dg : MgmtBeat)
  /-- SUSPECT (R457): MISS × BEAT passes without a beat; probes and peer queries go out and a probe window opens. -/
  | suspect (ep : Fin 4095)
  /-- PEER_REPORT (R458): A peer's REPORT_ALIVE or REPORT_NONE for a suspect arrives. -/
  | peerReport (frame : Frame)
  /-- DEAD_VERDICT (R459): The probe window ends without evidence; the incarnation is retired and VERDICT_DEAD and PLUMB_DEAD are sent. -/
  | deadVerdict (ep : Fin 4095)
  /-- EVICT (R464): JMP EVICT retires an endpoint's incarnation with cause EVICT. -/
  | evict (sid : Nat) (ep : BitVec 12)
  /-- RECHECK_RESULT (R467): A sampled item's second or third computation ends and the item is released, decided or poisoned. -/
  | recheckResult (item : Nat) (kind : ItemKind) (found : RecheckOutcome)
  /-- SPARE_IN (R469): A spare unit joins service after a unit leaves. -/
  | spareIn
  /-- SETUP (R477): An operator's first SETUP arrives and the SG7 replies with its chain, ciphertext and signature. -/
  | setup (port : Fin 2) (body : List Byte)
  /-- SETUP_SIGNATURE (R477): The operator's final SETUP signature arrives and the session is established. -/
  | setupSignature (sid : Nat) (body : List Byte)
  /-- REQUEST (R480): A JMP REQUEST is executed, resent from store or dropped by its SEQ. -/
  | request (sid : Nat) (seq : BitVec 64) (op : BitVec 16) (port : Fin 2)
  /-- REG_READ (R492): JMP REG_READ returns consecutive registers. -/
  | regRead (sid : Nat) (addr : BitVec 64) (count : Nat)
  /-- REG_WRITE (R495): JMP REG_WRITE writes registers without behaviour of their own, clamping or refusing. -/
  | regWrite (sid : Nat) (addr : BitVec 64) (values : List Word)
  /-- MEM_READ (R442): JMP MEM_READ reads bay memory in clear and is logged. -/
  | memRead (sid : Nat) (bay : BitVec 12) (addr : Word) (len : Nat)
  /-- MEM_WRITE (R442): JMP MEM_WRITE writes bay memory and is logged. -/
  | memWrite (sid : Nat) (bay : BitVec 12) (addr : Word) (data : List Byte)
  /-- LOG_READ (R451): JMP LOG_READ returns log entries from ring or flash. -/
  | logRead (sid : Nat) (first : BitVec 64) (count : Nat)
  /-- SENSORS (R482): JMP SENSORS returns one sensor snapshot. -/
  | sensors (sid : Nat)
  /-- POWER_ON (R42): JMP POWER_ON asserts PWR_EN. -/
  | powerOn (sid : Nat)
  /-- SHUTDOWN (R480): JMP SHUTDOWN stops fetch and answers new requests BUSY, starting orderly power-down. -/
  | shutdown (sid : Nat) (test : Nat)
  /-- SHUTDOWN_QUIESCE (R89): In-flight requests of the shutdown complete or reach the give-up time. -/
  | shutdownQuiesce
  /-- SHUTDOWN_WRITEBACK (R44): Dirty lines homed on trays are written back. -/
  | shutdownWriteback
  /-- SHUTDOWN_TEST (R487): The shutdown MARCH test runs at three corners and writes a new repair map. -/
  | shutdownTest (map : List RepairItem)
  /-- SHUTDOWN_MAIN_OFF (R451): The log is flushed and the MAIN rails switch off in reverse order. -/
  | shutdownMainOff
  /-- RESET_DATA (R118): JMP RESET_DATA resets the MAIN domain and restarts at step 5. -/
  | resetData (sid : Nat)
  /-- RESET_MGMT (R54): JMP RESET_MGMT resets the Jorren cores and sessions. -/
  | resetMgmt (sid : Nat)
  /-- THERM_CLEAR (R52): JMP THERM_CLEAR releases THERM_TRIP_N once every site is below 100 °C. -/
  | thermClear (sid : Nat)
  /-- ELM_RELEASE (R34): JMP ELM_RELEASE takes the ports of an ELM DOWN for removal. -/
  | elmRelease (sid : Nat) (elm : Nat)
  /-- ELM_RESTORE (R34): JMP ELM_RESTORE lets the ELM's ports train again. -/
  | elmRestore (sid : Nat) (elm : Nat)
  /-- LINK_QUAR (R72): JMP LINK_QUAR puts a sub-port into QUARANTINED. -/
  | linkQuar (sid : Nat) (port : Nat) (sub : Nat)
  /-- FW_BEGIN (R483): JMP FW_BEGIN clears the staging area for a new image. -/
  | fwBegin (sid : Nat) (len : Nat)
  /-- FW_DATA (R483): JMP FW_DATA writes a fragment into the staging area. -/
  | fwData (sid : Nat) (off : Nat) (data : List Byte)
  /-- FW_VERIFY (R431): JMP FW_VERIFY checks the staged image and starts writing it to flash. -/
  | fwVerify (sid : Nat)
  /-- FW_WRITTEN (R483): The flash write of the staged image ends and FW_STATE reports WRITTEN. -/
  | fwWritten
  /-- FW_ACTIVATE (R483): JMP FW_ACTIVATE starts a management reset into the new image. -/
  | fwActivate (sid : Nat)
  /-- ANCHOR_SET (R477): JMP ANCHOR_SET sets or removes an operator trust anchor. -/
  | anchorSet (sid : Nat) (slot : Nat) (hash : List Byte)
  /-- NETCFG (R94): JMP NETCFG stores control-port settings in flash. -/
  | netcfg (sid : Nat) (cfg : NetCfg)
  /-- DEBUG_OPEN (R29): JMP DEBUG_OPEN opens a JTAG debug session, logged. -/
  | debugOpen (sid : Nat)
  /-- DEBUG_CLOSE (R29): JMP DEBUG_CLOSE closes the JTAG debug session. -/
  | debugClose (sid : Nat)
  /-- TAP_TRIGGER (R485): JMP TAP_TRIGGER raises an operator Tap trigger. -/
  | tapTrigger (sid : Nat)
  /-- TAP_IN (R485): A filtered rising edge on TAP_IN raises a pin Tap trigger. -/
  | tapIn
  /-- TAP_ARM (R485): JMP TAP_ARM or TAP_CFG.ARM re-arms the snapshot banks. -/
  | tapArm (sid : Nat)
  /-- TAP_READ (R486): JMP TAP_READ returns the 64 words of a bank. -/
  | tapRead (sid : Nat) (bank : Nat)
  /-- JMP_SELFTEST (R490): JMP SELFTEST tests resources at once, or drains them first with FORCE. -/
  | jmpSelftest (sid : Nat) (block : List Byte) (list : List TestRes)
  /-- SELFTEST_DRAINED (R490): The forced test's drain ends, state is saved and the test starts. -/
  | selftestDrained
  /-- DRAIN_TIMEOUT (R490): DRAIN_MS passes first; the test is not run and the bays resume. -/
  | drainTimeout
  /-- SELFTEST_DONE (R491): A test ends; state is restored and SELFTEST_RESULT sent. -/
  | selftestDone (passed : List Bool)
  /-- FUSE_REPAIR (R489): JMP FUSE_REPAIR burns the current repair map into fuses. -/
  | fuseRepair (sid : Nat)
  /-- SUBSCRIBE (R481): JMP SUBSCRIBE registers a session's addresses for events. -/
  | subscribe (sid : Nat) (addr0 : Word) (addr1 : Word)
  /-- EVENT_ACK (R481): An EVENT_ACK frees events below its EVSEQ. -/
  | eventAck (sid : Nat) (evseq : BitVec 64)
  /-- EVENT_RESEND (R481): Every 10 ms each unacknowledged event is sent again. -/
  | eventResend
  /-- SESSION_IDLE (R479): A session idle for IDLE_S seconds ends. -/
  | sessionIdle (sid : Nat)
  /-- SENSOR_SAMPLE (R482): A sensor is sampled at its interval and SENSOR_LIMIT raised or cleared. -/
  | sensorSample (sensor : SensorSel) (value : BitVec 32)
  /-- RECOVERY_BEACON (R484): On the recovery path a beacon is sent every 1 s. -/
  | recoveryBeacon
  /-- RECOVERY_IMAGE (R484): A pushed recovery image arrives, is checked, written to flash and started. -/
  | recoveryImage (off : Nat) (data : List Byte) (last : Bool)
  /-- GLB_ALERT_PEND_WRITE (R502): A W1C write clears latched alert bits whose causes have ended. -/
  | glbAlertPendWrite (v : Word)
  /-- GLB_ALERT_MASK_WRITE (R502): A write to GLB_ALERT_MASK changes ALERT_N at once. -/
  | glbAlertMaskWrite (v : Word)
  /-- PWR_RESET_CAUSE_WRITE (R56): A W1C write clears reset cause bits. -/
  | pwrResetCauseWrite (v : Word)
  /-- MBX_VIEW_READ (R505): An operator read of MBX_VIEW is logged as DEBUG_ACCESS without changing the mailbox. -/
  | mbxViewRead (sid : Nat) (ep : Fin 4095) (word : Nat)
  /-- RESET_N_HIGH (R55): RESET_N returns high after a pin reset and the SG7 restarts from step 2 of Table 2.5. -/
  | resetNHigh
  /-- FAB_REF_RETURN (R48): REFCLK_FAB returns and the fabric ports may retrain while FAB_REF_OK and the FAB_REF_LOST alert cause change. -/
  | fabRefReturn
  /-- RAIL_REGULATION_RESTORED (R40): A rail that had left regulation is back within ±3 % and MAIN_GOOD or AUX_GOOD is released again. -/
  | railRegulationRestored (rail : Fin 13)
  /-- FORCE_DIV_WRITE (R50): A write to CLK_THROTTLE.FORCE_DIV holds the A-clock at a slower divider, which all A-clock blocks take together at a common root edge. -/
  | forceDivWrite (v : Word)
  /-- DDR_RESTORE_DONE (R226): Training of a restored DDR5 channel ends within 2 s; the channel goes ONLINE or fails with TRAIN_FAIL, and BUSY clears. -/
  | ddrRestoreDone (ch : Fin 12) (ok : Bool) (slots : Nat)
  /-- INTERNAL_RETRY (R248): The sequencer resends an operation that was answered RETRY, or reports the last RETRY once the instruction's limit passes. -/
  | internalRetry (queue : Fin 16384) (index : BitVec 32)
  /-- UNKNOWN (R419): Jorren acknowledges UNKNOWN to a mailbox post whose MSG0[7:0] names no service of Table 16.4. -/
  | unknown (ep : Fin 4095)
  /-- JTAG_SCAN (R29): A JTAG operation clocked by TCK accesses boundary scan or the identity register, or the debug session when one is open. -/
  | jtagScan (dr : JtagScan)
  /-- CONTROL_PORT_FRAME (R94): A non-JMP frame arrives on a control port (ARP, neighbour discovery, ICMP echo or DHCP) and is answered or dropped under Table 3.10. -/
  | controlPortFrame (port : Fin 2) (frame : CtlFrame)
  deriving DecidableEq, Repr

end Sys2Proof
end

