-- ==== Sys2Proof/Decode.lean ====
section
/-! DEFINITION. Words to commands. The table of this block gives no row a bit, so no word spells a command. -/

namespace Sys2Proof

/-- The command that a word of `nbits` bits spells: none, since no row of spec/opcode_table.json has fields. -/
def decodeTableWord (_nbits _w : Nat) : Option Instr := none

end Sys2Proof
end

