-- ==== Sys2Proof/Machine/Bits.lean ====
section
/-! DEFINITION. Bytes, little-endian words and bit fields (§0.3: values are little-endian unless their own
table says otherwise). -/

namespace Sys2Proof.Machine

/-- The number that little-endian bytes spell. -/
def leNat : List Byte → Nat
  | [] => 0
  | b :: t => b.toNat + 256 * leNat t

/-- The n little-endian bytes of a number. -/
def leBytes : Nat → Nat → List Byte
  | 0, _ => []
  | n + 1, v => BitVec.ofNat 8 v :: leBytes n (v / 256)

/-- n zero bytes. -/
def zeros (n : Nat) : List Byte := List.replicate n 0

/-- Bits [lo+w-1 : lo] of a number. -/
def field (x lo w : Nat) : Nat := (x / 2 ^ lo) % 2 ^ w

/-- Bit i of a number. -/
def bitOf (x i : Nat) : Bool := (x / 2 ^ i) % 2 = 1

/-- 1 or 0. -/
def b2n (b : Bool) : Nat := if b then 1 else 0

/-- `n` bytes of `l` from byte `off`, zero-filled. -/
def slice (l : List Byte) (off n : Nat) : List Byte :=
  let t := (l.drop off).take n
  t ++ zeros (n - t.length)

/-- The little-endian number in bytes off .. off+n-1. -/
def leAt (l : List Byte) (off n : Nat) : Nat := leNat (slice l off n)

/-- v limited to lo..hi. -/
def clampNat (lo hi v : Nat) : Nat := max lo (min hi v)

/-- v as a two's complement number of w bits. -/
def signed (w v : Nat) : Int := if v < 2 ^ (w - 1) then (v : Int) else (v : Int) - (2 ^ w : Nat)

/-- The w-bit two's complement code of v. -/
def unsigned (w : Nat) (v : Int) : Nat := (v % (2 ^ w : Nat)).toNat

/-- Cut a list into pieces of n elements (fuel: its length). -/
def chunksOf {α : Type} (n : Nat) : Nat → List α → List (List α)
  | 0, _ => []
  | fuel + 1, l => if l.isEmpty then [] else l.take n :: chunksOf n fuel (l.drop n)

/-- The number of ones among the low w bits. -/
def popCount : Nat → Nat → Nat
  | 0, _ => 0
  | w + 1, x => x % 2 + popCount w (x / 2)

end Sys2Proof.Machine
end

