-- ==== Sys2Proof/Machine/Flags.lean ====
section
/-! DEFINITION. Codes and flags: statuses (Table 9.5), details (Tables 6.3, 9.6), frame kinds (Table 3.8),
header FLAGS (Table 3.7), AFLAGS (R163) and the flags of a completion record (Table 9.4). -/

namespace Sys2Proof.Machine

def stOK : Byte := 0x00
def stRETRY : Byte := 0x01
def stBAYTRANS : Byte := 0x02
def stREMAP : Byte := 0x03
def stCONFLICT : Byte := 0x04
def stACCESS : Byte := 0x05
def stPOISONED : Byte := 0x06
def stPATHLOST : Byte := 0x07
def stUNKNOWN : Byte := 0x08
def stFENCED : Byte := 0x09
def stBUSY : Byte := 0x0A
def stHALTED : Byte := 0x0B
def stHALTEDOTHER : Byte := 0x0C
def stDOMDOWN : Byte := 0x0D
def stTIMEOUT : Byte := 0x0E

def dNONE : Byte := 0x00
def dSETBUSY : Byte := 0x01
def dTRAYSYNC : Byte := 0x02
def dTRACKERFULL : Byte := 0x03
def dLINEHELD : Byte := 0x04
def dMALFORMED : Byte := 0x10
def dNOHOME : Byte := 0x11
def dCTRRANGE : Byte := 0x12
def dFATALHALT : Byte := 0x13
def dFETCH : Byte := 0x20
def dPARAM : Byte := 0x21
def dWAITEXPIRED : Byte := 0x22
def dSTRAGGLER : Byte := 0x23
def dOWNERGONE : Byte := 0x24
def dRECORDFAIL : Byte := 0x25
def dDISABLED : Byte := 0x26

def kLinkCtl : BitVec 8 := 0x00
def kTack : BitVec 8 := 0x01
def kFenced : BitVec 8 := 0x02
def kBeat : BitVec 8 := 0x03
def kSeqfill : BitVec 8 := 0x04
def kRead : BitVec 8 := 0x10
def kWrite : BitVec 8 := 0x11
def kWriteInv : BitVec 8 := 0x12
def kAtomic : BitVec 8 := 0x13
def kFence : BitVec 8 := 0x14
def kCtr : BitVec 8 := 0x15
def kReadPub : BitVec 8 := 0x16
def kPublish : BitVec 8 := 0x17
def kExtSync : BitVec 8 := 0x18
def kExtDrop : BitVec 8 := 0x19
def kReadRsp : BitVec 8 := 0x40
def kSyncRsp : BitVec 8 := 0x47
def kRdS : BitVec 8 := 0x70
def kRdX : BitVec 8 := 0x71
def kUpg : BitVec 8 := 0x72
def kWbM : BitVec 8 := 0x73
def kWbE : BitVec 8 := 0x74
def kInv : BitVec 8 := 0x78
def kInvAck : BitVec 8 := 0x79
def kFwd : BitVec 8 := 0x7A
def kFwdAck : BitVec 8 := 0x7B
def kRecall : BitVec 8 := 0x7C
def kData : BitVec 8 := 0x80
def kCmp : BitVec 8 := 0x81

/-- The response kind of a request kind (Table 6.1). EXTSYNC and EXTDROP share SYNC_RSP. -/
def rspKind (k : BitVec 8) : BitVec 8 :=
  if k = kExtDrop then kSyncRsp
  else if k = 0x70 || k = 0x71 || k = 0x72 then kData
  else if k = 0x73 || k = 0x74 then kCmp
  else if k = kWriteInv then 0x41
  else if k = kRead then 0x40 else if k = kWrite then 0x41 else if k = kAtomic then 0x42
  else if k = kFence then 0x43 else if k = kCtr then 0x44 else if k = kReadPub then 0x45
  else if k = kPublish then 0x46 else 0x47

/-- Header FLAGS bits (Table 3.7). -/
def flACKV : BitVec 16 := 0x1
def flRETX : BitVec 16 := 0x2
def flRELEASE : BitVec 16 := 0x4
def flREPLAYED : BitVec 16 := 0x8
def flLAST : BitVec 16 := 0x10
def flSWRESP : BitVec 16 := 0x20

/-- AFLAGS (R163). -/
def afAPPLIED : Byte := 1
def afNOTRECORDED : Byte := 2

/-- Completion-record flags, byte 8 (Table 9.4). -/
def crREPLAYED : Nat := 1
def crCLAMPED : Nat := 2
def crEMPTY : Nat := 4
def crCHECKED : Nat := 8
def crNANIN : Nat := 16

/-- Frames at the wire (R74): at least 64 bytes; 16 more for the GCM tag. -/
def wireBytes (f : Frame) (enc : Bool) : Nat := if enc then 74 + f.payload.length else max 64 (58 + f.payload.length)

/-- Flask cells of a frame: it is stored without trailer and tag (R98). -/
def cellsOf (f : Frame) : Nat := (wireBytes f false - 8 + 255) / 256

end Sys2Proof.Machine

namespace Sys2Proof

open Sys2Proof.Machine

/-- Whether a frame carries a flag. -/
def Frame.has (f : Frame) (b : BitVec 16) : Bool := (f.flags &&& b) != 0

/-- Whether a kind is a request, a response or a coherence message that Table 3.8 does not reserve (Tables
6.1, 6.2, 7.4). -/
def Frame.isRequest (f : Frame) : Bool := 0x10 ≤ f.kind.toNat && f.kind.toNat ≤ 0x19
def Frame.isResponse (f : Frame) : Bool := 0x40 ≤ f.kind.toNat && f.kind.toNat ≤ 0x47
def Frame.isCoherence (f : Frame) : Bool :=
  [0x70, 0x71, 0x72, 0x73, 0x74, 0x78, 0x79, 0x7A, 0x7B, 0x7C, 0x80, 0x81].contains f.kind.toNat

/-- Frames that carry a SEQ of their pair (R86): requests, responses but SWRESP, coherence, SEQFILL. -/
def Frame.sequenced (f : Frame) : Bool :=
  (f.isRequest || (f.isResponse && !f.has flSWRESP) || f.isCoherence || f.kind = kSeqfill) && !f.has flSWRESP

/-- The requests that the release tracker follows (R155): WRITE, WRITE_INV, ATOMIC, CTR ADD. -/
def Frame.tracked (f : Frame) : Bool :=
  f.kind = kWrite || f.kind = kWriteInv || f.kind = kAtomic
  || (f.kind = kCtr && f.payload.head? = some 1)

/-- Flagged writes and release atomics (§6.1). -/
def Frame.isRelease (f : Frame) : Bool :=
  f.has flRELEASE && (f.kind = kWrite || f.kind = kAtomic || (f.kind = kCtr && f.payload.head? = some 1))

end Sys2Proof
end

