-- ==== Sys2Proof/Machine/Operands.lean ====
section
/-! DEFINITION. Operand forms: fabric addresses (Table 5.5), the payload fields of requests (Tables 6.1, 6.5),
extent entries (Table 5.7) and their packing. -/

namespace Sys2Proof.Machine

/-- Bit 63: node form. -/
def isNode (a : Word) : Bool := bitOf a.toNat 63
/-- The node number, bits 55:44 of a node-form address. -/
def nodeOf (a : Word) : Nat := field a.toNat 44 12
/-- The offset, bits 43:0 of a node-form address. -/
def offsetOf (a : Word) : Nat := field a.toNat 0 44
/-- Reserved bits set: 62:56 in both forms, and 55:52 in the flat form. -/
def reservedBits (a : Word) : Bool :=
  field a.toNat 56 7 != 0 || (!isNode a && field a.toNat 52 4 != 0)
/-- The address with its reserved bits cleared (R123). -/
def clearReserved (a : Word) : Word :=
  BitVec.ofNat 64 (if isNode a then 2 ^ 63 + field a.toNat 0 56 else field a.toNat 0 52)
/-- The node-form address of an offset of a node. -/
def nodeAddr (n off : Nat) : Word := BitVec.ofNat 64 (2 ^ 63 + n * 2 ^ 44 + off % 2 ^ 44)

/-- RLEN of READ and READ_PUB: payload bits 16:0. -/
def rlenOf (f : Frame) : Nat := field (leAt f.payload 0 8) 0 17
/-- REGION of READ_PUB: payload bits 47:32. -/
def pubRegion (f : Frame) : Nat := field (leAt f.payload 0 8) 32 16

/-- The atomic operand block (Table 6.5). -/
structure AtomicOp where
  op : Nat
  ty : Nat
  opnd1 : Nat
  opnd2 : Nat
  zeroOk : Bool
  deriving DecidableEq, Repr

/-- Operand bytes of an atomic TYPE. -/
def atomicSize (ty : Nat) : Nat := if ty = 0 || ty = 1 || ty = 4 then 4 else if ty = 5 then 16 else 8

/-- Whether Table 6.6 lists the type for the operation. -/
def atomicTypeOk (op ty : Nat) : Bool :=
  match op with
  | 0x01 => ty ≤ 4
  | 0x02 | 0x04 | 0x05 | 0x06 | 0x07 | 0x08 => ty ≤ 3
  | 0x03 => ty == 2 || ty == 3 || ty == 5
  | 0x09 => ty == 1 || ty == 3
  | 0x0F => ty == 0
  | _ => false

/-- Decode the operand block of 40 bytes; `zeroOk` says that the bytes Table 6.5 requires to be zero are. -/
def atomicOf (p : List Byte) : AtomicOp :=
  let op := leAt p 0 1
  let ty := leAt p 1 1
  let o1 := leAt p 8 16
  let o2 := leAt p 24 16
  let w := if op = 0x0F then 32 else 8 * atomicSize ty
  { op := op, ty := ty, opnd1 := o1, opnd2 := o2,
    zeroOk := leAt p 2 6 == 0 && o1 < 2 ^ w && o2 < 2 ^ w && (op != 0x0F || field o1 8 8 < 256) }

/-- A payload is zero from byte `off` for n bytes. -/
def zeroBytes (p : List Byte) (off n : Nat) : Bool := leAt p off n == 0

/-- The four words of an extent entry (Table 5.7); word 3 holds STATE and INFLIGHT. -/
def extWord2 (bay : Nat) (rights : BitVec 20) (fatal prot comp : Bool) (redun : BitVec 2) (hint : BitVec 3)
    (cdom : BitVec 6) (coh backing : Bool) : Nat :=
  bay + rights.toNat * 2 ^ 12 + b2n fatal * 2 ^ 32 + b2n prot * 2 ^ 33 + b2n comp * 2 ^ 34
    + redun.toNat * 2 ^ 35 + hint.toNat * 2 ^ 37 + cdom.toNat * 2 ^ 40 + b2n coh * 2 ^ 46 + b2n backing * 2 ^ 47

/-- The rights of a member class: R, W, A, P, X from low to high (Table 5.7). -/
def rightOf (rights : BitVec 20) (cls r : Nat) : Bool := bitOf rights.toNat (5 * cls + r)

def rightR : Nat := 0
def rightW : Nat := 1
def rightA : Nat := 2
def rightP : Nat := 3
def rightX : Nat := 4

end Sys2Proof.Machine
end

