-- ==== Sys2Proof/Config.lean ====
section
/-! DEFINITION. What an implementation fixes and the spec does not: constants without a body, of which
nothing can be proved. The fused identity values (R499), the entropy source (R466, R439), the hashes the
spec names without giving them, the cryptographic functions of the standards the spec refers to, and the
values the spec leaves open. Each is named in a log entry. -/

namespace Sys2Proof.Config

/-- GLB_ID: the fused serial number (R499). -/
opaque glbId : Word

/-- GLB_BASE_MAC.BASE: the fused base address (R499, R500). -/
opaque baseMac : BitVec 48

/-- Draw number n of the on-die entropy source (R439, R466, R476). -/
opaque entropy : Nat → BitVec 256

/-- The hash of R90 that picks an egress sub-port from (SRC, DST, TC). -/
opaque pathHash : Nat → Nat → Nat → Nat

/-- The fixed hash of SRC and TAG that picks one of a consumer's internal ports (§4.1). -/
opaque innerHash : Nat → Nat → Nat

/-- The hash that gives work item n of a kind to one of the units in service (R304, R315, R467). -/
opaque unitHash : Nat → Nat → Nat → Nat

/-- A free value: the n-th value that the spec leaves open, of any width. -/
opaque freeValue : Nat → BitVec 128

/-- A free value of kind k for place i, which stays the same however often it is read: kind 1 is the die of junction site i
(Table 19.12, DESIGN CHOICE, log entry 15). -/
opaque freeOf : Nat → Nat → Nat

/-- ML-KEM-768 decapsulation under the device's key of draw n: the shared secret (R92, R477). -/
opaque kemDecap : Nat → List Byte → BitVec 256

/-- The ML-KEM-768 encapsulation key of draw n (R92). -/
opaque kemKey : Nat → List Byte

/-- ML-KEM-768 encapsulation to a key with the coins of draw n: ciphertext and shared secret (R477). -/
opaque kemEncap : Nat → List Byte → List Byte × BitVec 256

/-- ML-DSA-65 signature by the device's alias key over a message (R92, R477). -/
opaque aliasSign : List Byte → List Byte

/-- ML-DSA-65 verification of a signature over a message by a certificate's key (R477). -/
opaque certVerify : List Byte → List Byte → List Byte → Bool

/-- The key hash of the anchor in which an X.509 chain ends, if the chain is sound (R477). -/
opaque chainAnchor : List Byte → Option (List Byte)

/-- Whether an X.509 chain is one self-signed certificate's (R477). -/
opaque chainSelfSigned : List Byte → Bool

/-- The fields of SETUP bodies: the certificate chain, the KEM key and the nonce (R477). -/
opaque setupFields : List Byte → List Byte × List Byte × List Byte

/-- ML-DSA-65 verification of a signature over a message by a public key (R431, FIPS 204). -/
opaque mldsaVerify : List Byte → List Byte → List Byte → Bool

/-- The fused key hash of a slot, a SHA3-384 value (R431, R432). -/
opaque fusedKeyHash : Nat → BitVec 384

/-- The subject of the leaf certificate of a chain, as DEBUG_ACCESS carries it (R442). -/
opaque subject : List Byte → BitVec 120

/-- A repair map as the bytes that are hashed: (repairs, exhausted macros, Flask cells, home-cache lines, the failed units
as 512 × kind + number) (R488). -/
opaque repairBytes : Nat → Nat → Nat → Nat → List Nat → List Byte

/-- The device's answer to an SPDM message (R436, R437). -/
opaque spdmAnswer : Nat → List Byte → List Byte

/-- The alias certificate chain of the running image (R434). -/
opaque aliasChain : List Byte → List Byte

/-- The type code that SZ and IMM[31:28] of a tile matrix or Pattern instruction give (Table 15.6 names the fields, not
their arrangement). -/
opaque tileType : BitVec 2 → BitVec 4 → Nat

/-- The format (number 0-7 of Table 11.1) and direction (true: to FP32) that IMM gives VCVT; the spec states neither. -/
opaque vcvtForm : BitVec 32 → Nat × Bool

/-- What VCMPLT writes for a comparison that holds and for one that does not. -/
opaque vcmpWord : Bool → BitVec 32

/-- What VSEL gives from the lanes of vD, vA and vB. -/
opaque vsel : BitVec 32 → BitVec 32 → BitVec 32 → BitVec 32

/-- The value that VBCAST gives every lane, from sA, lane 0 of vA and IMM. -/
opaque vbcast : BitVec 64 → BitVec 32 → BitVec 32 → BitVec 32

/-- The bytes in which the link-key hash takes the port and sub-port number (R92 names them, not their form). -/
opaque linkNumber : Nat → Nat → List Byte

/-- The address that a DHCP message to a control port leases, if it leases one: DHCPv4 (false) or DHCPv6 (true) (Table 3.10). -/
opaque dhcpLease : Bool → List Byte → Option (BitVec 128)

/-- The boundary-scan register's answer to a scan (R29). -/
opaque boundaryScan : List Bool → List Bool

/-- The 32-bit JTAG device identity register (R29). -/
opaque jtagId : BitVec 32

end Sys2Proof.Config
end

