-- ==== Sys2Proof/Machine/State.lean ====
section
/-! DEFINITION. The state of the SG7 as plain data: its registers, its memory, the records of every
block, what it has sent, and the queue of waiting commands. Records are grouped by chapter. Sparse
tables are lists of (key, value) in rising key order with no entry equal to the table's default, so
that equal tables are equal data (their operations stand in Machine/Tab.lean). -/

namespace Sys2Proof.Machine

/-- A sparse table: (key, value) pairs in strictly rising key order. -/
abbrev Tab (α : Type) := List (Nat × α)

/-! ### Memory -/

/-- The bytes of every memory and the poisoned 64-byte blocks (R172). `cells` is canonical: addresses
strictly rising, no cell zero; an unlisted byte reads 0 (DESIGN CHOICE, log entry 5). Addresses are the physical keys of
Machine/Mem.lean. `poison` lists block numbers (key / 64), strictly rising. -/
structure Mem where
  cells : List Host.Cell
  poison : List Nat
  deriving DecidableEq, Repr

/-! ### Chapter 2: power, clocks -/

/-- Pins and power control that no register shows (Table 2.2, R39, R41, R42). `lostFeeds` holds the feeds
whose loss was logged and not yet their return. `railDrops` holds the rails out of regulation.
`capSince` is when the power cap last moved the A-clock to ÷5. `shutTest` is TEST of a SHUTDOWN under way
and `shutAt` its start (Table 2.6), `coolMiss` the missed reads of the coolant sensor in a row (R482). `d2dFails` counts
transfers that failed by die-to-die link (Table 19.16). -/
structure Pwr where
  pwrEn : Bool
  auxGood : Bool
  resetLow : Bool
  lostFeeds : BitVec 4
  railDrops : BitVec 13
  railsUp : Bool
  thermStep : Nat
  capSince : Nat
  shutTest : Bool
  shutAt : Nat
  coolMiss : Nat
  trained : List Nat
  reduced : List Nat
  coreLost : Bool
  fabLost : Bool
  freqBad : BitVec 2
  mgmtReset : Bool
  d2dFailed : BitVec 3
  d2dFails : Tab Nat
  deriving DecidableEq, Repr

/-! ### Chapter 3: links and transport -/

/-- Sub-port link states (Table 3.4). -/
inductive LinkState where
  | down | train | align | up | degraded | quarantined
  deriving DecidableEq, Repr

/-- A frame in the replay buffer: its LSEQ, the frame, its bytes on the wire (R82). -/
structure ReplayEnt where
  lseq : BitVec 16
  frame : Frame
  bytes : Nat
  deriving DecidableEq, Repr

/-- A TC0-TC2 frame held in the ingress buffer (R104): its class, destination queue and sub-list. -/
structure HeldFrame where
  cls : Nat
  queue : Nat
  sub : Nat
  frame : Frame
  wireBytes : Nat
  since : Nat
  deriving DecidableEq, Repr

/-- A sub-port (R61, R72-R93). `credits` are those the far end has left for the SG7, `owed` those the SG7 has still to return,
`waitSince` is when a return or an advance of LACK began to wait, `stalledAt` when replay stalled (R84) or, in DOWN, when a
training attempt timed out, `held` the ingress buffer of TC0-TC2 (R104), `trains` and `auths` the times of the last entries to
TRAIN and authentication failures. -/
structure SubPort where
  st : LinkState
  since : Nat
  lanes : BitVec 4
  trained : BitVec 4
  firstAlign : Bool
  aligned : Bool
  accepted : Bool
  enc : Bool
  keyed : Bool
  kem : Option Nat
  key : BitVec 256
  salt : BitVec 32
  txNonce : Nat
  rxCount : Nat
  peerMac : BitVec 48
  share : Nat
  credits : List Nat
  owed : List Nat
  waitSince : Option Nat
  txLseq : BitVec 16
  rxLseq : BitVec 16
  lackSent : BitVec 16
  replay : List ReplayEnt
  progressAt : Nat
  replays : Nat
  stalledAt : Option Nat
  nakAt : Option Nat
  eps : List Nat
  retired : List Nat
  initAt : Option Nat
  held : List HeldFrame
  trains : List Nat
  auths : List Nat
  deriving DecidableEq, Repr

/-- The lanes of a port: failed lanes, lanes whose re-calibration is deferred (R64, R67). -/
structure PortLanes where
  failed : BitVec 4
  deferred : BitVec 4
  recal : BitVec 4
  deriving DecidableEq, Repr

/-- An external laser module: released, fibres whose laser has failed, spare lasers used (R33, R34). -/
structure Elm where
  released : Bool
  failed : List Nat
  spares : Nat
  deriving DecidableEq, Repr

/-- A frame the SG7 sent as transport sender and that is not yet acknowledged (R89, R170). -/
structure TxFrame where
  seq : BitVec 24
  frame : Frame
  sentAt : Nat
  tries : Nat
  filled : Bool
  acked : Bool
  peg : Option (BitVec 16)
  grant : Option Nat
  deriving DecidableEq, Repr

/-- Transport state between the SG7 and one endpoint (R85-R89). `rxSeen` lists received SEQs at or above
`rxAck`; `waiting` holds frames beyond
the window of 4,096 (R87); `ackSince` is when an acknowledgement became due; `pathUp` says that a sub-port towards the
endpoint was UP or DEGRADED at some time in the last interval. -/
structure Pair where
  txSeq : BitVec 24
  unack : List TxFrame
  waiting : List TxFrame
  rxAck : BitVec 24
  rxSeen : List (BitVec 24)
  ackSince : Option Nat
  pathUp : Bool
  deriving DecidableEq, Repr

/-! ### Chapter 4: Flask -/

/-- A frame stored in Flask: its cells, the time of its admission, and the sub-port (4 × port + sub-port) it came from. -/
structure QFrame where
  frame : Frame
  cells : Nat
  stamp : Nat
  via : Option Nat
  deriving DecidableEq, Repr

/-- One Flask queue: a FIFO per sub-port (internal ports use the first), frames dequeued (R99, R111). -/
structure FlaskQ where
  s0 : List QFrame
  s1 : List QFrame
  s2 : List QFrame
  s3 : List QFrame
  deq : Nat
  deriving DecidableEq, Repr

/-- One scheduler: deficits of TC0-TC7, the active list, the class whose visit is under way (R109). -/
structure Sched where
  deficit : List Nat
  active : List Nat
  visit : Option Nat
  deriving DecidableEq, Repr

/-! ### Chapter 5: endpoints, bays, extents -/

/-- Plumb states (PLB_EP.STATE). -/
inductive PlumbState where
  | none | alive | suspect | dead
  deriving DecidableEq, Repr

/-- An endpoint number's record: incarnation (R118), FENCED stamp (R462), Plumb (R455-R460), the extents
whose EXTSYNC it has not answered (R133). -/
structure Endpoint where
  live : Bool
  inc : BitVec 8
  fencedAt : Option Nat
  plumb : PlumbState
  lastBeat : Nat
  winAt : Option Nat
  queried : List Nat
  run : Nat
  judged : BitVec 8
  verdicts : Nat
  cause : Nat
  awaitSync : List Nat
  deriving DecidableEq, Repr

/-- A member of a composition map: class of Table 5.4, DEAD mark (R119). -/
structure Member where
  ep : Nat
  cls : Nat
  dead : Bool
  deriving DecidableEq, Repr

/-- An installed composition map (§5.6). -/
structure CMap where
  gen : BitVec 16
  members : List Member
  groups : List (Nat × List Nat)
  deriving DecidableEq, Repr

/-- Bay states (Table 5.3). -/
inductive BayState where
  | free | active | shakeout
  deriving DecidableEq, Repr

/-- How far the shakeout of a bay has come (Table 17.2). -/
inductive ShakePhase where
  | released | quiesced | cleared | revoked
  deriving DecidableEq, Repr

/-- A bay: state and last generation (R121, R139), its maps (R140), the FATAL halt (R171), its XTS key
(the number of its draw from the entropy source, R439), its shakeout, its pool rotation (R204) and the
tiles that SELFTEST recorded (R284). -/
structure BayRec where
  st : BayState
  gen : BitVec 16
  cur : Option CMap
  old : Option CMap
  oldAt : Nat
  halted : Bool
  key : Option Nat
  shake : Option ShakePhase
  shakeAt : Nat
  rot : Nat
  tests : List (Nat × Nat)
  deriving DecidableEq, Repr

/-- Extent entry states (Table 5.7). -/
inductive ExtState where
  | empty | pending | active | revoking
  deriving DecidableEq, Repr

/-- An extent entry (Table 5.7). INFLIGHT is counted from the open requests. `revAt` is when REVOKE came,
`dropped` that EXTDROP is outstanding, `swept` how many pages of a backing extent have been zeroed since
its installation (R205). -/
structure Extent where
  base : Word
  limit : Word
  bay : Nat
  rights : BitVec 20
  fatal : Bool
  prot : Bool
  comp : Bool
  redun : BitVec 2
  hint : BitVec 3
  cdom : BitVec 6
  coh : Bool
  backing : Bool
  st : ExtState
  revAt : Nat
  dropped : Bool
  swept : Nat
  deriving DecidableEq, Repr

/-! ### Chapter 6: requests -/

/-- What an open request waits for. -/
inductive Phase where
  | passThrough                       -- forwarded to its DST, which has not answered
  | ownTray (left : Nat)              -- the SG7's own requests to trays, `left` unanswered
  | heldRelease (mark : Nat)          -- a release: tracker entries with a serial below mark (R157)
  | heldLine (line : Nat)             -- the line lock of a tray line (R165)
  | heldPub (region : Nat) (img : Nat)-- READ_PUBs of an image (R218)
  | heldPeg (tag : BitVec 16)         -- a reissue of an executing atomic (R167)
  | directory                         -- a home transaction (R186, R189)
  | atomicWb                          -- the write-back of an atomic (R165)
  | kvDestroy                         -- instructions that named the region (R352)
  deriving DecidableEq, Repr

/-- A request received and not yet answered: the frame, the extent that admitted it, whether it passed
step 3 under the old generation (R141), when it came, data gathered, and how many bytes of a coherent access have
been served line by line (R189). -/
structure OpenReq where
  id : Nat
  frame : Frame
  ext : Option Nat
  old : Bool
  since : Nat
  phase : Phase
  parts : List (Nat × List Byte)
  pos : Nat
  deriving DecidableEq, Repr

/-- Why the SG7 sent a request of its own. -/
inductive OwnFor where
  | extSync (index : Nat) (install : Bool)
  | extDrop (index : Nat)
  | read (req : Nat) (off : Nat)
  | write (req : Nat) (key : Nat)
  | writeBack (req : Nat) (key : Nat)
  deriving DecidableEq, Repr

/-- An outstanding request of the SG7 to an endpoint, matched by TAG. -/
structure OwnReq where
  tag : BitVec 16
  ep : Nat
  frame : Frame
  why : OwnFor
  since : Nat
  deriving DecidableEq, Repr

/-- An entry of a release tracker (R155), numbered in the order of arrival. -/
structure TrackEnt where
  serial : Nat
  src : Nat
  bay : Nat
  dst : Nat
  seq : BitVec 24
  ext : Option Nat
  deriving DecidableEq, Repr

/-- A transport FENCE waiting for the entries before `mark` (R158). -/
structure FenceWait where
  id : Nat
  frame : Frame
  mark : Nat
  since : Nat
  deriving DecidableEq, Repr

/-- A Peg table entry (R167). `done` is false while the atomic executes. -/
structure PegEntry where
  src : Nat
  inc : BitVec 8
  tag : BitVec 16
  bay : Nat
  done : Bool
  status : Byte
  old : BitVec 128
  aflags : Byte
  deriving DecidableEq, Repr

/-- A tray line locked by an atomic (R165): the line key (physical key / 128) and the atomic. -/
structure LineLock where
  line : Nat
  req : Nat
  deriving DecidableEq, Repr

/-! ### Chapter 7: coherence -/

/-- Domain states (DIR_DOM_STATUS.STATE). -/
inductive DomState where
  | free | up | failed | draining
  deriving DecidableEq, Repr

/-- A coherent domain: its live agents are (slot, endpoint). -/
structure Domain where
  st : DomState
  bay : Nat
  cause : Nat
  causeEp : Nat
  agents : List (Nat × Nat)
  deriving DecidableEq, Repr

/-- Line states as seen from home (Table 7.3). -/
inductive LineState where
  | I | S | E | M
  deriving DecidableEq, Repr

/-- What a home transaction is for: the request (an open request's id) to grant, serve or apply; a line to
free for a victim's successor; a unit of the SG7; or a removal (R181, R194, R198). -/
inductive TransFor where
  | request (id : Nat)
  | victimFor (id : Nat)
  | unitAccess
  | removal
  deriving DecidableEq, Repr

/-- An open home transaction: the agent slots whose answers are awaited, the WbMs awaited under R187, when
the messages went out, and that only the grant's acknowledgement is still awaited. -/
structure Trans where
  why : TransFor
  await : List Nat
  awaitWb : List Nat
  since : Nat
  wbp : Bool
  granted : Bool
  deriving DecidableEq, Repr

/-- A directory entry (Table 7.2), with its open transaction. `line` is the line key of R182. -/
structure DirEnt where
  line : Nat
  dset : Nat
  way : Nat
  st : LineState
  pres : BitVec 64
  owner : Nat
  dom : Nat
  age : Nat
  trans : Option Trans
  deriving DecidableEq, Repr

/-! ### Chapter 8: tiers -/

/-- A tier (Table 8.2). -/
inductive Tier where
  | none | hbm | ddr | pool
  deriving DecidableEq, Repr

/-- A location: HBM (stack, page), DDR (frame, slot), POOL (backing extent index, page in it). -/
structure Loc where
  tier : Tier
  a : Nat
  b : Nat
  deriving DecidableEq, Repr

/-- A level-3 tier map entry (Table 8.2); `dest` and `copied` follow a migration (R206). -/
structure PageEntry where
  loc : Loc
  alt : Loc
  migrating : Bool
  pin : Bool
  lost : Bool
  hint : BitVec 3
  dest : Loc
  copied : Nat
  deriving DecidableEq, Repr

/-- A waiting migration: the page, its target tier, whether it is an evacuation or rebuild (R210). -/
structure Mig where
  page : PageRef
  target : Tier
  urgent : Bool
  deriving DecidableEq, Repr

/-- The physical pages: page keys in use, freed and not yet zeroed, replacements; how far each HBM stack
and each DDR frame has been zeroed since MAIN started (R429); the MASK of every frame in use (R214); the
stacks that hold the reserved areas (R507) and their sizes in GiB (Tables 8.5, 14.4); the channel being evacuated or restored (R226). -/
structure Phys where
  used : List Nat
  dirty : List Nat
  failedZero : List Nat
  sweptHbm : List Nat
  sweptDdr : List Nat
  frames : Tab (BitVec 12)
  copyA : Option Nat
  copyB : Option Nat
  evac : Option (Fin 12)
  restoring : Option (Fin 12)
  mapGib : Nat
  kvsGib : Nat
  deriving DecidableEq, Repr

/-- A READ_PUB in flight: its open request, region and image (R218). -/
structure PubRead where
  req : Nat
  region : Nat
  img : Nat
  deriving DecidableEq, Repr

/-! ### Chapter 14: KV space -/

/-- A KV region (Table 14.1). `dying` is the open request of its destroy. `pages` maps page number to record. -/
structure KvRegion where
  bay : Nat
  index : Nat
  base : Nat
  page : BitVec 4
  hint : BitVec 3
  redun : Bool
  fatal : Bool
  capb : Nat
  hkv : Nat
  dlog : BitVec 2
  dying : Option Nat
  pages : Tab Nat
  deriving DecidableEq, Repr

/-- A KV page record (§14.3). `keys` are the physical keys of its 64 KiB pieces in order (of its only piece when it
is smaller), `alt` those of the second copy, `dest` those of a migration's destination. `charged` is the bay that
pays for it, `region` the device-wide index of the region that allocated it. -/
structure KvPage where
  tier : Tier
  keys : List Nat
  alt : List Nat
  altTier : Tier
  size : Nat
  count : Nat
  ro : Bool
  lost : Bool
  migrating : Bool
  destTier : Tier
  dest : List Nat
  copied : Nat
  charged : Nat
  region : Nat
  deriving DecidableEq, Repr

/-- A block record of the prefix tree: the pages of one KV block (R360). -/
structure KvBlock where
  pages : List Nat
  region : Nat
  block : Nat
  deriving DecidableEq, Repr

/-- A node of the prefix tree (R360). -/
structure KvNode where
  domain : Nat
  key : BitVec 128
  parent : BitVec 128
  hkv : Nat
  dhead : Nat
  page : BitVec 4
  blockRec : Nat
  group : Nat
  bay : Nat
  use : Nat
  deriving DecidableEq, Repr


/-! ### Chapters 9-13: queues and instructions -/

/-- Where an issued instruction stands: issued and not begun; begun, with effects outstanding; every effect applied, with
its status and detail (R239). -/
inductive QPhase where
  | issued
  | running
  | finished (status detail : Byte)
  deriving DecidableEq, Repr

/-- The state of one output row of a pass (R338): O, m and l as FP32 codes, or a NaN row. -/
structure RowState where
  o : List Nat
  m : Nat
  l : Nat
  nan : Bool
  deriving DecidableEq, Repr

/-- An instruction issued and not completed. `serial` is its own number, `entry` its ring entry, `flags` and `count`, `info`
what its record will carry (Table 9.4), `param` its parameter block, `pos` how far it has come, `todo` the pieces not yet
finished, `held` the sampled items that await their recheck, `step` the phases completed, `data` results kept between
pieces, `retry` a RETRY being repeated with the time of the first (R248), `waitFrom` when what it now waits for began (the next fill of a STREAM). -/
structure QInst where
  serial : Nat
  index : Nat
  entry : List Byte
  phase : QPhase
  since : Nat
  flags : Nat
  count : Nat
  info : Nat
  param : List Byte
  pos : Nat
  todo : List Nat
  held : Nat
  step : Nat
  data : Tab (List Nat)
  rows : Tab RowState
  retry : Option (Byte × Byte × Nat)
  waitFrom : Nat
  deriving DecidableEq, Repr

/-- The state of a queue (Table 9.10); HALTED is read from its bay. -/
inductive QueSt where
  | disabled | running | stopped
  deriving DecidableEq, Repr

/-- A command queue (R230-R245): `namer` pairs a mark with the serial of the latest issued instruction that names it,
`fetched` holds the entries from HEAD on that have been fetched, `loops` the pass counters (R262). -/
structure Que where
  st : QueSt
  stopStatus : Byte
  stopDetail : Byte
  stopIndex : Nat
  head : Nat
  tail : Nat
  marks : BitVec 16
  namer : List (Nat × Nat)
  fetched : List (List Byte)
  insts : List QInst
  loops : List (Nat × Nat)
  deriving DecidableEq, Repr

/-- A member's post to a collective (R272): who, with which instruction, where its data lies. -/
structure CollPost where
  ep : Nat
  queue : Nat
  serial : Nat
  src : Word
  dst : Word
  bad : Option (Byte × Byte)
  deriving DecidableEq, Repr

/-- An open collective (R272, R273, R303). `members` are its ranks in order; `todo` the chunks not yet read out, `held` the
chunks that await their recheck, `out` the rounded results kept in the request-state area (R308). `phase` counts the
phases completed; `failed` the status with which it has failed. -/
structure Coll where
  id : Nat
  bay : Nat
  group : Nat
  seqno : Nat
  gen : BitVec 16
  opcode : Nat
  dtype : Nat
  op : Nat
  round : Nat
  root : Nat
  elems : Nat
  seed : Nat
  members : List Nat
  posts : List CollPost
  openedAt : Nat
  begun : Bool
  todo : List Nat
  held : List Nat
  out : Tab (List Byte)
  phase : Nat
  failed : Option (Byte × Byte)
  deriving DecidableEq, Repr

/-- A bay's request-state area (R309): groups of pages with how many of a group may be lost, and the space in use by
holder. -/
structure Rsa where
  groups : List (Nat × List Loc)
  used : List (Nat × Nat)
  deriving DecidableEq, Repr

/-! ### Chapter 15: tiles -/

/-- A transfer under way on a tag (R383). -/
structure TileTag where
  put : Bool
  pad : Nat
  addr : Word
  len : Nat
  deriving DecidableEq, Repr

/-- An expander block buffer (R394): the elements of the block in row-major order once expanded, its DTYPE, and the block
under expansion. -/
structure BlockBuf where
  elems : List Nat
  dtype : Nat
  src : Option (List Byte)
  ready : Bool
  deriving DecidableEq, Repr

/-- A tile (Table 15.1). `s` holds scalar registers by number, `v` vector lanes by 64 × register + lane, `acc` accumulator
elements by 1,024 × accumulator + 32 × row + column; unlisted ones hold 0. `fin` are the input FIFOs by port. `barCount`
counts the BARs executed; `atBar` and `asleep` say that it waits (R381). -/
structure Tile where
  pc : Nat
  s : Tab Word
  v : Tab (BitVec 32)
  acc : Tab (BitVec 32)
  wob : List Byte
  buf0 : BlockBuf
  buf1 : BlockBuf
  fin : List (List (List (BitVec 32)))
  tags : Tab TileTag
  run : Bool
  exit : BitVec 32
  barCount : Nat
  atBar : Bool
  asleep : Bool
  rank : Nat
  deriving DecidableEq, Repr

/-- A bound placement (R281, R373-R376). `launch` is the LAUNCH that runs it: queue and serial. `tiles` are the physical
tiles in rank order, `logical` their logical tiles (128 × die + index). `latch` holds a wake event (R416). -/
structure Place where
  bay : Nat
  handle : Nat
  w : Nat
  h : Nat
  links : Nat
  entry : Nat
  imem : Nat
  tiles : List Nat
  logical : List Nat
  launch : Option (Nat × Nat)
  latch : Bool
  deriving DecidableEq, Repr

/-- A logical tile being cleared, with the TRS_OWN value to apply then (R372). -/
structure Clearing where
  tile : Nat
  own : Option Word
  deriving DecidableEq, Repr

/-! ### Chapter 16: Ladle, mailboxes -/

/-- Channel states (Table 16.6); UNASSIGNED is read from its configuration. -/
inductive ChanSt where
  | idle | running | stopped | halted | haltedByOther
  deriving DecidableEq, Repr

/-- A Ladle channel: chain pointers and counts (R400), the descriptor under way, and the instruction it serves (queue,
serial). `steps` counts the descriptors of the chain so far. -/
structure Chan where
  head : Word
  cur : Word
  done : Word
  st : ChanSt
  lastStatus : Byte
  lastDetail : Byte
  clamps : Nat
  steps : Nat
  desc : Option (List Byte)
  serve : Option (Nat × Nat)
  deriving DecidableEq, Repr

/-- A Ladle engine (Table 16.7). -/
structure LdlEng where
  halted : Bool
  causeValid : Bool
  causeBay : Nat
  causeCh : Nat
  deriving DecidableEq, Repr

/-- A mailbox (Table 16.2): the messages, the pending post with its bay and time, the acknowledgement, the binding (bay,
handle), and the SPDM request and response of its endpoint (R437). -/
structure Mbx where
  msg : List (BitVec 32)
  go : Bool
  seq : BitVec 16
  ackCode : BitVec 16
  ackSeq : BitVec 16
  bay : Nat
  since : Nat
  bound : Option (Nat × Nat)
  spdmReq : List Byte
  spdmRsp : List Byte
  deriving DecidableEq, Repr

/-! ### Compute units -/

/-- The state of a compute unit (Table 19.16, R468). -/
inductive UnitState where
  | spare | inService | quarantined | failed
  deriving DecidableEq, Repr

/-- A Crucible, Cupola, Runner, Riddle or tile: its state, when it was charged (R468), the bay it last
started work for, the work it has done since MAIN started, the mismatches charged to it. -/
structure UnitRec where
  st : UnitState
  charges : List Nat
  mism : Nat
  bay : Nat
  work : Nat
  deriving DecidableEq, Repr

/-- A write that waits to be released: as which member, where, which bytes. -/
structure OutWrite where
  ep : Nat
  addr : Nat
  data : List Byte
  deriving DecidableEq, Repr

/-- A sampled work item that awaits its recheck (R466, R467): its number and kind, the unit that computed
it first, whom it belongs to (the serial of an instruction, the id of a collective, a tile), the piece that waits to be
released, with its writes, row states and flags. -/
structure Recheck where
  item : Nat
  kind : ItemKind
  first : Nat
  owner : Nat
  queue : Nat
  piece : Nat
  bay : Nat
  flags : Nat
  outs : List OutWrite
  rows : Tab RowState
  nans : Nat
  deriving DecidableEq, Repr

/-! ### Chapter 18: errors -/

/-- A report to the collector (§18.2, §18.3). -/
structure Report where
  block : Nat
  cls : Nat
  unit : Nat
  bay : Option Nat
  ep : Option Nat
  info : BitVec 128
  first : Bool
  deriving DecidableEq, Repr

/-- A log entry or FIRST record (Table 18.4). -/
structure LogEntry where
  lseq : Nat
  stamp : Nat
  rep : Report
  lost : Bool
  nlost : Nat
  ctx : Option LogContext
  free : Nat
  deriving DecidableEq, Repr

/-- The collector, the log ring, FIRST records (key 32·block + class), the flash log (R447-R451), and the sensor
registers at the last loss of MAIN (R44). An entry whose LSEQ is not yet given holds 2^64. -/
structure Err where
  queue : List Report
  wasFull : Bool
  coalesced : Nat
  ring : Tab LogEntry
  next : Nat
  lseq : Nat
  firsts : Tab LogEntry
  flash : List LogEntry
  copied : Nat
  batchAt : Nat
  moduleReplace : Bool
  snapshot : Tab Word
  deriving DecidableEq, Repr

/-! ### Chapter 19: JMP, events, firmware, test -/

/-- An event: its EVSEQ, its code of Table 19.4 and its contents in the order its rule lists them. -/
structure Event where
  evseq : Nat
  code : Nat
  args : List Nat
  deriving DecidableEq, Repr

/-- A JMP response: RESULT of Table 19.3 and the body, as values of the operation. -/
structure Response where
  seq : Nat
  op : Nat
  result : Nat
  words : List Word
  bytes : List Byte
  deriving DecidableEq, Repr

/-- A JMP session (R476-R481). `running` is the operation whose request is executing: (SEQ, OP, port); `chain` is the operator's
certificate chain, whose subject DEBUG_ACCESS entries carry (R442). -/
structure Session where
  sid : Nat
  port : Nat
  secret : BitVec 256
  th : BitVec 384
  anchor : List Byte
  lastSeq : Option Nat
  answer : Option Response
  running : Option (Nat × Nat × Nat)
  idleAt : Nat
  sub : Option (Word × Word)
  events : List Event
  droppedEv : Nat
  sentAt : Nat
  chain : List Byte
  deriving DecidableEq, Repr

/-- A session being set up after the SG7's reply (R477). -/
structure Setup where
  sid : Nat
  port : Nat
  secret : BitVec 256
  th : BitVec 384
  chain : List Byte
  since : Nat
  deriving DecidableEq, Repr

/-- The repair map (R488): rows and columns repaired, macros exhausted, failed units. -/
structure RepairMap where
  repairs : Nat
  exhausted : Nat
  failed : List (UnitKind × Nat)
  flaskCells : Nat
  cacheLines : Nat
  deriving DecidableEq, Repr

/-- What flash holds (R451, R477, R483, R488, R496). -/
structure Flash where
  image : Option (List Byte)
  anchors : List (List Byte)
  net : List NetCfg
  map : RepairMap
  hashes : List (BitVec 384)
  autoOn : Bool
  deriving DecidableEq, Repr

/-- What the fuses hold (R432, R433, R489). -/
structure Fuses where
  svn : Nat
  slot0Revoked : Bool
  repairs : Nat
  deriving DecidableEq, Repr

/-- The firmware staging area (R483), the recovery image being pushed (R484), and whether the ROM is on the recovery path. -/
structure Staging where
  len : Nat
  bytes : Tab Byte
  owner : Nat
  recovery : Tab Byte
  beaconAt : Nat
  recovering : Bool
  deriving DecidableEq, Repr

/-- The running operator test (R490, R491). -/
structure OpTest where
  force : Bool
  kind : Nat
  list : List TestRes
  bays : List Nat
  draining : Bool
  since : Nat
  deriving DecidableEq, Repr

/-! ### What leaves the SG7 -/

/-- Something sent to the outside (R8, R22, R23, Table 2.2). -/
inductive Output where
  | frame (port sub : Nat) (t : Trailer) (f : Frame)
  | linkCtl (port sub : Nat) (subtype : Nat) (addr : Word) (payload : List Byte)
  | credit (port sub : Nat) (t : Trailer)
  | answer (sid : Nat) (port : Nat) (r : Response)
  | setupReply (port : Nat) (result : Nat) (sid : Nat) (body : List Byte)
  | event (sid : Nat) (port : Nat) (e : Event)
  | beat (addr : BitVec 128) (udpPort : Nat) (ep : Nat) (inc : BitVec 8) (kind : Nat)
  | beacon (port : Nat) (server : BitVec 128) (body : List Word)
  | tapOut
  | jtag (bits : List Bool)
  | ctl (port : Nat) (p : CtlProto)
  | slotPower (ch : Nat) (on : Bool)
  deriving DecidableEq, Repr

/-! ### The whole -/

/-- Everything but memory and the queue of commands. `bayTests` are the tile tests that a bay's SELFTESTs left for its shakeout, as
(bay, logical tile, kind) (R284, R428). `tally` holds counts since MAIN started that only a Tap snapshot shows (Table 19.16):
0-63 instructions issued by sequencer, 64-65 blocks expanded by Truss die, 66-68 transfers retried by die-to-die link. `fw` is the firmware
image that the cores run, empty while they do not (R473); `net` the settings in force on the control ports (Table 19.11). `regs` holds every stored register by its operator
address; registers that summarise other records are computed when read (Machine/RegRead.lean). -/
structure Ctl where
  now : Nat
  freeCtr : Nat
  out : List Output
  regs : Tab Word
  pwr : Pwr
  subs : Tab SubPort
  lanes : Tab PortLanes
  elms : Tab Elm
  pairs : Tab Pair
  flask : Tab FlaskQ
  scheds : Tab Sched
  flaskLost : Nat
  intHeld : List (Nat × Nat × Frame)
  eps : Tab Endpoint
  bays : Tab BayRec
  exts : Tab Extent
  opens : List OpenReq
  owns : List OwnReq
  nextId : Nat
  tracker : List TrackEnt
  fences : List FenceWait
  peg : List PegEntry
  locks : List LineLock
  ctrs : Tab Word
  doms : Tab Domain
  dir : List DirEnt
  dirQ : List (Nat × Nat)
  homeDirty : List Nat
  tier : Tab PageEntry
  coded : Tab Loc
  phys : Phys
  migQ : List Mig
  pubReads : List PubRead
  kvRegions : List KvRegion
  kvPages : Tab KvPage
  kvBlocks : Tab KvBlock
  kvNodes : List KvNode
  ques : Tab Que
  colls : List Coll
  rsas : Tab Rsa
  places : List Place
  tiles : Tab Tile
  tileMap : Tab Nat
  clearing : List Clearing
  bayTests : List (Nat × Nat × Nat)
  tally : Tab Nat
  chans : Tab Chan
  engs : Tab LdlEng
  mbxs : Tab Mbx
  seedAt : Nat
  units : Tab UnitRec
  rechecks : List Recheck
  items : List Nat
  err : Err
  evseq : Nat
  sessions : List Session
  setups : List Setup
  setupTimes : List (Nat × Nat)
  nextSid : Nat
  flash : Flash
  fuses : Fuses
  fw : List Byte
  net : List NetCfg
  staging : Staging
  optest : Option OpTest
  deriving DecidableEq, Repr

/-- The state of the SG7: control records, memory, and the commands that wait, first in first out. -/
structure State where
  ctl : Ctl
  mem : Mem
  pending : List Instr
  deriving DecidableEq, Repr

/-! ### Reset values -/

def Pwr.init : Pwr :=
  { pwrEn := false, auxGood := false, resetLow := false, lostFeeds := 0, railDrops := 0, railsUp := false,
    thermStep := 4, capSince := 0, shutTest := false, shutAt := 0, coolMiss := 0, trained := [], reduced := [],
    coreLost := false, fabLost := false, freqBad := 0, mgmtReset := false, d2dFailed := 0, d2dFails := [] }

def Phys.init : Phys :=
  { used := [], dirty := [], failedZero := [], sweptHbm := [], sweptDdr := [], frames := [], copyA := none,
    copyB := none, evac := none, restoring := none, mapGib := 4, kvsGib := 2 }

def Err.init : Err :=
  { queue := [], wasFull := false, coalesced := 0, ring := [], next := 0, lseq := 0, firsts := [], flash := [],
    copied := 0, batchAt := 0, moduleReplace := false, snapshot := [] }

def Staging.init : Staging := { len := 0, bytes := [], owner := 0, recovery := [], beaconAt := 0, recovering := false }

def RepairMap.init : RepairMap := { repairs := 0, exhausted := 0, failed := [], flaskCells := 0, cacheLines := 0 }

def NetCfg.init (p : Fin 2) : NetCfg :=
  { port := p, vid := 0, pcp := 0, ip4 := 0, ip6 := 0, jmpPort := 9170, server4 := 0, server6 := 0 }

/-- Flash before anything was written to it (DESIGN CHOICE, log entry 8). -/
def Flash.init : Flash :=
  { image := none, anchors := [[], [], [], []], net := [NetCfg.init 0, NetCfg.init 1], map := RepairMap.init,
    hashes := [], autoOn := false }

def Fuses.init : Fuses := { svn := 0, slot0Revoked := false, repairs := 0 }

/-- The control records after a cold reset, with flash and fuses as given. -/
def Ctl.reset (fl : Flash) (fu : Fuses) : Ctl :=
  { now := 0, freeCtr := 1, out := [], regs := [], pwr := { Pwr.init with auxGood := true }, subs := [], lanes := [], elms := [], pairs := [],
    flask := [], scheds := [], flaskLost := 0, intHeld := [], eps := [], bays := [], exts := [], opens := [],
    owns := [], nextId := 0, tracker := [], fences := [], peg := [], locks := [], ctrs := [], doms := [], dir := [],
    dirQ := [], homeDirty := [], tier := [], coded := [], phys := Phys.init, migQ := [], pubReads := [],
    kvRegions := [], kvPages := [], kvBlocks := [], kvNodes := [],
    ques := [], colls := [], rsas := [], places := [], tiles := [], tileMap := [], clearing := [], bayTests := [], tally := [],
    chans := [], engs := [], mbxs := [], seedAt := 0,
    units := [], rechecks := [], items := [], err := Err.init, evseq := 0, sessions := [], setups := [],
    setupTimes := [], nextSid := 1, flash := fl, fuses := fu, fw := [], net := [NetCfg.init 0, NetCfg.init 1], staging := Staging.init, optest := none }

/-- The machine right after reset: Table 20.1 and the Reset columns. Registers without a stored entry read their
reset value (RegMap.lean regReset). Nothing is in memory, nothing waits. -/
def State.reset : State :=
  { ctl := Ctl.reset Flash.init Fuses.init, mem := { cells := [], poison := [] }, pending := [] }

/-- Why a step may stop the machine. -/
inductive Fault where
  /-- Raised by `execJtagScan` for a scan that needs the debug session the firmware has opened: the spec gives
  no effect (R29). Safe: the machine stops where the hardware goes on. -/
  | debugScan
  deriving DecidableEq, Repr

/-- Why a command has no meaning. -/
inductive Refusal where
  /-- Raised by the dispatch for a command that this model does not give a meaning. Safe. -/
  | notModelled (mnemonic : String)
  deriving DecidableEq, Repr

end Sys2Proof.Machine
end

