-- ==== Sys2Proof/Machine/Tab.lean ====
section
/-! DEFINITION. Operations of sparse tables. A table keeps its keys strictly rising; setting a key to the
table's default removes it, so that equal tables are equal data. -/

namespace Sys2Proof.Machine

/-- The entry of key `k`, if listed. -/
def Tab.find? {α : Type} : Tab α → Nat → Option α
  | [], _ => none
  | (j, v) :: t, k => if j = k then some v else Tab.find? t k

/-- The entry of key `k`, or the default. -/
def Tab.get {α : Type} (t : Tab α) (k : Nat) (d : α) : α := (Tab.find? t k).getD d

/-- `t` with key `k` holding `v`. -/
def Tab.put {α : Type} : Tab α → Nat → α → Tab α
  | [], k, v => [(k, v)]
  | (j, w) :: t, k, v =>
    if k < j then (k, v) :: (j, w) :: t
    else if k = j then (k, v) :: t
    else (j, w) :: Tab.put t k v

/-- `t` without key `k`. -/
def Tab.del {α : Type} (t : Tab α) (k : Nat) : Tab α := List.filter (fun e => e.1 != k) t

/-- `t` with key `k` holding `v`, where the default is not listed. -/
def Tab.set {α : Type} [DecidableEq α] (t : Tab α) (k : Nat) (d v : α) : Tab α :=
  if v = d then Tab.del t k else Tab.put t k v

/-- Apply `f` to every listed value. -/
def Tab.map {α β : Type} (t : Tab α) (f : Nat → α → β) : Tab β :=
  List.map (fun e => (e.1, f e.1 e.2)) t

/-- The keys whose value satisfies `p`, rising. -/
def Tab.keysWhere {α : Type} (t : Tab α) (p : Nat → α → Bool) : List Nat :=
  List.filterMap (fun e => if p e.1 e.2 then some e.1 else none) t

/-- Keys strictly rising. -/
def Tab.sorted {α : Type} : Tab α → Bool
  | [] => true
  | (k, _) :: t => (match t with | [] => true | (j, _) :: _ => k < j) && Tab.sorted t

/-- Replace element `i` of a list. -/
def setAt {α : Type} : List α → Nat → α → List α
  | [], _, _ => []
  | _ :: t, 0, v => v :: t
  | h :: t, i + 1, v => h :: setAt t i v

/-- Element `i` of a list of numbers, or 0. -/
def natAt (l : List Nat) (i : Nat) : Nat := l.getD i 0

/-- Insert a number into a strictly rising list. -/
def insertNat : List Nat → Nat → List Nat
  | [], k => [k]
  | j :: t, k => if k < j then k :: j :: t else if k = j then j :: t else j :: insertNat t k

/-- Insert every number of the second list. -/
def insertAll (l : List Nat) (ks : List Nat) : List Nat := ks.foldl insertNat l

/-- Remove a number from a list. -/
def removeNat (l : List Nat) (k : Nat) : List Nat := l.filter (fun j => j ≠ k)

end Sys2Proof.Machine
end

