-- ==== Sys2Proof/Machine/RegMap.lean ====
section
/-! DEFINITION. The operator register map (spec/20_registers.md): fields by address and place, the reset
value of every register, and the domain each register belongs to. -/

namespace Sys2Proof.Machine

/-- A field of a register: the register's address, the field's lowest bit, its width. -/
structure Fld where
  addr : Nat
  lo : Nat
  w : Nat
  deriving DecidableEq, Repr

namespace Reg

-- GLB (Tables 20.3-20.7)
def glbState : Fld := ⟨0x28, 0, 3⟩
def glbWaitOn : Fld := ⟨0x28, 3, 1⟩
def glbStep : Fld := ⟨0x28, 4, 4⟩
def glbReduced : Fld := ⟨0x28, 8, 1⟩
def glbOffCause : Fld := ⟨0x28, 12, 4⟩
def alertPendAddr : Nat := 0x100
def alertMaskAddr : Nat := 0x108
def alertPend (i : Nat) : Fld := ⟨0x100, i, 1⟩
def wrRefused : Nat := 0x300
def bayClamp (b : Nat) : Nat := 0x20000 + 8 * b
-- CLK, PWR (Tables 2.10-2.14)
def rootLock : Fld := ⟨0x01000000, 0, 1⟩
def coreRefOk : Fld := ⟨0x01000000, 1, 1⟩
def fabRefOk : Fld := ⟨0x01000000, 2, 1⟩
def oeLock : Fld := ⟨0x01000000, 3, 16⟩
def aDiv : Fld := ⟨0x01000000, 19, 3⟩
def forceDiv : Fld := ⟨0x01000008, 0, 3⟩
def stepEvtEn : Fld := ⟨0x01000008, 3, 1⟩
def stepCnt : Fld := ⟨0x01000008, 16, 32⟩
def feedOk : Fld := ⟨0x01001000, 0, 4⟩
def mainGood : Fld := ⟨0x01001000, 4, 1⟩
def dataReady : Fld := ⟨0x01001000, 5, 1⟩
def thermTrip : Fld := ⟨0x01001000, 6, 1⟩
def capActive : Fld := ⟨0x01001000, 7, 1⟩
def inputW : Fld := ⟨0x01001000, 16, 16⟩
def mainI : Fld := ⟨0x01001000, 32, 16⟩
def autoOn : Fld := ⟨0x01001008, 0, 1⟩
def capW : Fld := ⟨0x01001008, 16, 12⟩
def resetCause (i : Nat) : Fld := ⟨0x01001010, i, 1⟩
def resetCauseAddr : Nat := 0x01001010
-- LNK (Tables 3.12-3.15)
def portBase (p : Nat) : Nat := 0x02000000 + p * 0x10000
def lnkMode (p : Nat) : Fld := ⟨portBase p, 20, 1⟩
def lnkBreakout (p : Nat) : Fld := ⟨portBase p, 21, 2⟩
def retrainCnt (p : Nat) : Fld := ⟨portBase p, 32, 16⟩
def cfgEnable (p : Nat) : Fld := ⟨portBase p + 8, 0, 1⟩
def cfgMode (p : Nat) : Fld := ⟨portBase p + 8, 1, 1⟩
def cfgBreakout (p : Nat) : Fld := ⟨portBase p + 8, 2, 2⟩
def cfgEncReq (p : Nat) : Fld := ⟨portBase p + 8, 4, 1⟩
def cfgDegrade (p : Nat) : Fld := ⟨portBase p + 8, 5, 1⟩
def cfgEtype (p : Nat) : Fld := ⟨portBase p + 8, 16, 16⟩
def rtxTimeout : Fld := ⟨0x02800000, 0, 16⟩
def rtxLimit : Fld := ⟨0x02800000, 16, 5⟩
def lnkCtr (p s off : Nat) : Nat := portBase p + 0x100 * (s + 1) + off
-- CTL (Table 19.11)
def ctlState (p : Nat) : Fld := ⟨0x03000000 + 0x100 * p, 0, 2⟩
def ctlIp4 (p : Nat) : Fld := ⟨0x03000000 + 0x100 * p, 2, 1⟩
def ctlIp6 (p : Nat) : Fld := ⟨0x03000000 + 0x100 * p, 3, 1⟩
def ctlVid (p : Nat) : Fld := ⟨0x03000000 + 0x100 * p, 4, 12⟩
def ctlPcp (p : Nat) : Fld := ⟨0x03000000 + 0x100 * p, 16, 3⟩
def ctlJmpPort (p : Nat) : Fld := ⟨0x03000000 + 0x100 * p, 32, 16⟩
-- FLK (Tables 4.3-4.8)
def freeCells : Fld := ⟨0x04000000, 0, 20⟩
def minFree : Fld := ⟨0x04000000, 20, 20⟩
def sampleN : Fld := ⟨0x04000008, 0, 5⟩
def depthShift : Fld := ⟨0x04000008, 5, 4⟩
def delayShift : Fld := ⟨0x04000008, 9, 4⟩
def holdTimeout : Fld := ⟨0x04000008, 20, 21⟩
def eccDiscard : Nat := 0x04000010
def portOvh (p : Nat) : Fld := ⟨0x04001000 + 8 * p, 0, 8⟩
def queueBase (q : Nat) : Nat := 0x04010000 + q * 0x400
def alphaK (q : Nat) : Fld := ⟨queueBase q, 0, 4⟩
def quantum (q : Nat) : Fld := ⟨queueBase q, 8, 19⟩
-- BAY, EXT, CMP (Tables 5.12-5.18)
def epEnable (e : Nat) : Fld := ⟨0x05040000 + 0x10 * e, 0, 1⟩
def epClass (e : Nat) : Fld := ⟨0x05040000 + 0x10 * e, 1, 2⟩
def extStage (w : Nat) : Nat := 0x05080000 + 8 * w
def extBusy : Fld := ⟨0x05080028, 0, 1⟩
def extClamped : Fld := ⟨0x05080028, 1, 1⟩
def extErr : Fld := ⟨0x05080028, 8, 4⟩
def extIndex : Fld := ⟨0x05080028, 16, 16⟩
def extTrayEp : Fld := ⟨0x05080028, 32, 12⟩
def revokeTimeout : Fld := ⟨0x05080030, 0, 32⟩
def cmpBusy : Fld := ⟨0x05300008, 0, 1⟩
def cmpErr : Fld := ⟨0x05300008, 8, 4⟩
def cmpGen : Fld := ⟨0x05300008, 16, 16⟩
def cmpBay : Fld := ⟨0x05300008, 32, 12⟩
def cmpGrace : Fld := ⟨0x05300010, 0, 32⟩
-- MEM, PEG (Tables 6.8-6.14)
def fenceTimeout : Fld := ⟨0x06000000, 0, 32⟩
def ctrRefused : Fld := ⟨0x06000008, 0, 1⟩
def trackMax : Fld := ⟨0x06000008, 16, 20⟩
def memPoisonRsp : Nat := 0x06000100
def memJobFault : Nat := 0x06000108
def memRelTimeout : Nat := 0x06000110
def memFenceLost : Nat := 0x06000118
def memMalformed : Nat := 0x06000120
def memLineHeld : Nat := 0x06000128
def memPegReplay : Nat := 0x06000130
def winFirst (b : Nat) : Fld := ⟨0x06002000 + 8 * b, 0, 20⟩
def winCount (b : Nat) : Fld := ⟨0x06002000 + 8 * b, 32, 21⟩
-- DIR (Tables 7.6-7.10)
def ackTimeout : Fld := ⟨0x07000000, 0, 32⟩
def openPeak : Fld := ⟨0x07000008, 24, 4⟩
def queuePeak : Fld := ⟨0x07000008, 28, 4⟩
def dirBusy : Fld := ⟨0x07000018, 0, 1⟩
def dirErr : Fld := ⟨0x07000018, 8, 4⟩
def dirDom : Fld := ⟨0x07000018, 16, 6⟩
def domBay (d : Nat) : Fld := ⟨0x07001000 + 0x10 * d, 0, 12⟩
def agentEp (d a : Nat) : Fld := ⟨0x07002000 + 0x200 * d + 8 * a, 0, 12⟩
def agentValid (d a : Nat) : Fld := ⟨0x07002000 + 0x200 * d + 8 * a, 16, 1⟩
def dirSetBusy : Nat := 0x07000100
def dirVictims : Nat := 0x07000108
def dirInvSent : Nat := 0x07000110
def dirRecalls : Nat := 0x07000118
def dirFwds : Nat := 0x07000120
def dirProtocol : Nat := 0x07000128
def dirDomDown : Nat := 0x07000130
-- TIR, HBM, DDR (Tables 8.5-8.11)
def mapGib : Fld := ⟨0x08000000, 0, 8⟩
def rebuildGbs : Fld := ⟨0x08000000, 16, 12⟩
def scrubPasses : Fld := ⟨0x08000010, 32, 32⟩
def tirFull : Nat := 0x08000100
def tirMigDone : Nat := 0x08000108
def tirMigAbort : Nat := 0x08000110
def tirHintSkip : Nat := 0x08000118
def tirEccCorr : Nat := 0x08000120
def tirEccPoison : Nat := 0x08000128
def hbmQuota (b : Nat) : Fld := ⟨0x08010000 + 0x20 * b, 0, 24⟩
def ddrQuota (b : Nat) : Fld := ⟨0x08010000 + 0x20 * b, 24, 25⟩
def hbmUsed (b : Nat) : Fld := ⟨0x08010008 + 0x20 * b, 0, 24⟩
def ddrUsed (b : Nat) : Fld := ⟨0x08010008 + 0x20 * b, 24, 25⟩
def poolUsed (b : Nat) : Fld := ⟨0x08010010 + 0x20 * b, 0, 40⟩
def regionWord (r w : Nat) : Nat := 0x08400000 + 0x20 * r + 8 * w
def regionBay (r : Nat) : Fld := ⟨regionWord r 2, 0, 12⟩
def regionLen (r : Nat) : Fld := ⟨regionWord r 2, 12, 20⟩
def regionValid (r : Nat) : Fld := ⟨regionWord r 2, 63, 1⟩
def regionVersion (r : Nat) : Fld := ⟨regionWord r 3, 0, 32⟩
def regionLastEp (r : Nat) : Fld := ⟨regionWord r 3, 32, 12⟩
def hbmState (s : Nat) : Fld := ⟨0x08800000 + 8 * s, 0, 2⟩
def hbmBusy : Fld := ⟨0x08800108, 0, 1⟩
def hbmErr : Fld := ⟨0x08800108, 1, 3⟩
def hbmLeft : Fld := ⟨0x08800108, 8, 25⟩
def ddrState (c : Nat) : Fld := ⟨0x08900000 + 8 * c, 0, 2⟩
def ddrSlots (c : Nat) : Fld := ⟨0x08900000 + 8 * c, 8, 22⟩
def ddrBusy : Fld := ⟨0x08900108, 0, 1⟩
def ddrErr : Fld := ⟨0x08900108, 1, 3⟩
def ddrLeft : Fld := ⟨0x08900108, 8, 25⟩
-- SEQ, QUE (Tables 9.8-9.13)
def straggler : Fld := ⟨0x09000000, 0, 40⟩
def cfgRefused : Fld := ⟨0x09000008, 0, 1⟩
def bayWait (b : Nat) : Fld := ⟨0x09008000 + 8 * b, 0, 36⟩
def queBase (q : Nat) : Nat := 0x09010000 + 0x40 * q
def queRing (q : Nat) : Nat := queBase q
def queCring (q : Nat) : Nat := queBase q + 8
def queLog (q : Nat) : Fld := ⟨queBase q + 0x10, 0, 5⟩
def queSlot (q : Nat) : Fld := ⟨queBase q + 0x10, 8, 6⟩
def queBay (q : Nat) : Fld := ⟨queBase q + 0x10, 16, 12⟩
def queOwner (q : Nat) : Fld := ⟨queBase q + 0x10, 32, 12⟩
def queEnable (q : Nat) : Fld := ⟨queBase q + 0x10, 63, 1⟩
-- CRU, RUN, RDL, CUP (chapters 11-13)
def rsaPages (b : Nat) : Fld := ⟨0x0A010000 + 8 * b, 0, 24⟩
def rsaPlace (b : Nat) : Fld := ⟨0x0A010000 + 8 * b, 24, 2⟩
def rsaRedun (b : Nat) : Fld := ⟨0x0A010000 + 8 * b, 26, 2⟩
def cruCtr (i : Nat) : Nat := 0x0A000100 + 8 * i
def runCtr (i : Nat) : Nat := 0x0A400100 + 8 * i
def rdlCtr (i : Nat) : Nat := 0x0A800100 + 8 * i
def cupCtr (i : Nat) : Nat := 0x0B000100 + 8 * i
def cupWeight (b : Nat) : Fld := ⟨0x0B010000 + 8 * b, 0, 8⟩
-- KVS (Tables 14.4-14.7)
def kvsMapGib : Fld := ⟨0x0B800000, 0, 8⟩
def kvsWinRefused : Fld := ⟨0x0B800008, 0, 1⟩
def kvsFirst (b : Nat) : Fld := ⟨0x0B810000 + 0x10 * b, 0, 20⟩
def kvsCount (b : Nat) : Fld := ⟨0x0B810000 + 0x10 * b, 32, 21⟩
def kvsSset (b : Nat) : Fld := ⟨0x0B810008 + 0x10 * b, 0, 8⟩
def kvsFork (b : Nat) : Fld := ⟨0x0B810008 + 0x10 * b, 8, 1⟩
def kvsNodeQuota (b : Nat) : Fld := ⟨0x0B810008 + 0x10 * b, 16, 23⟩
def kvsCow : Nat := 0x0B800100
def kvsMapped : Nat := 0x0B800108
def kvsMatched : Nat := 0x0B800110
def kvsEvicted : Nat := 0x0B800118
def kvsRoRefused : Nat := 0x0B800120
def kvsFreed : Nat := 0x0B800128
-- TRS, LDL, MBX (chapters 15, 16)
def trsOwnRefused : Fld := ⟨0x0C000000, 0, 1⟩
def trsOwner (l : Nat) : Fld := ⟨0x0C001000 + 8 * l, 0, 12⟩
def trsAssigned (l : Nat) : Fld := ⟨0x0C001000 + 8 * l, 12, 1⟩
def trsCtr (i : Nat) : Nat := 0x0C000100 + 8 * i
def patCtr (i : Nat) : Nat := 0x0C800100 + 8 * i
def ldlCtr (i : Nat) : Nat := 0x0D000100 + 8 * i
def mbxAckTimeout : Fld := ⟨0x0D800000, 0, 32⟩
def mbxCtr (i : Nat) : Nat := 0x0D800100 + 8 * i
def ldlChBase (e ch : Nat) : Nat := 0x0D010000 + 0x40 * (32 * e + ch)
def ldlChBay (e ch : Nat) : Fld := ⟨ldlChBase e ch, 0, 12⟩
def ldlChAssigned (e ch : Nat) : Fld := ⟨ldlChBase e ch, 12, 1⟩
def ldlChMode (e ch : Nat) : Fld := ⟨ldlChBase e ch, 13, 1⟩
def ldlChEp (e ch : Nat) : Fld := ⟨ldlChBase e ch, 16, 12⟩
def ldlChKick (e ch : Nat) : Fld := ⟨ldlChBase e ch, 32, 20⟩
def ldlEngExcl (e : Nat) : Fld := ⟨0x0D001000 + 0x10 * e, 0, 1⟩
def ldlEngBay (e : Nat) : Fld := ⟨0x0D001000 + 0x10 * e, 16, 12⟩
-- SEC (chapter 17)
def secBootOk : Fld := ⟨0x0E000000, 0, 1⟩
def secRecovery : Fld := ⟨0x0E000000, 1, 1⟩
def secKeySlot : Fld := ⟨0x0E000000, 2, 1⟩
def secDebugOpen : Fld := ⟨0x0E000000, 4, 1⟩
def secSvnImage : Fld := ⟨0x0E000000, 24, 8⟩
def shakeBay : Fld := ⟨0x0E000008, 0, 12⟩
def shakeActive : Fld := ⟨0x0E000008, 12, 1⟩
def shakeUs : Fld := ⟨0x0E000008, 16, 32⟩
def secCtr (i : Nat) : Nat := 0x0E000100 + 8 * i
def keyGen (b : Nat) : Nat := 0x0E010000 + 8 * b
-- ERR, PLB, TBR (chapter 18)
def flashBatches : Fld := ⟨0x0F000000, 32, 32⟩
def hWarn : Fld := ⟨0x0F000018, 0, 10⟩
def hReplace : Fld := ⟨0x0F000018, 16, 10⟩
def coalPending (b k : Nat) : Fld := ⟨0x0F008000 + 0x100 * b + 8 * k, 0, 32⟩
def coalTotal (b k : Nat) : Fld := ⟨0x0F008000 + 0x100 * b + 8 * k, 32, 32⟩
def health (b u : Nat) : Nat := 0x0F040000 + 0x8000 * b + 8 * u
def score (b u : Nat) : Fld := ⟨health b u, 0, 10⟩
def peak (b u : Nat) : Fld := ⟨health b u, 16, 10⟩
def warnBit (b u : Nat) : Fld := ⟨health b u, 26, 1⟩
def replaceBit (b u : Nat) : Fld := ⟨health b u, 27, 1⟩
def plbBeat : Fld := ⟨0x0F800000, 0, 20⟩
def plbMiss : Fld := ⟨0x0F800000, 20, 4⟩
def plbProbe : Fld := ⟨0x0F800000, 32, 20⟩
def plbPeers : Fld := ⟨0x0F800000, 52, 2⟩
def plbPort : Fld := ⟨0x0F800008, 0, 16⟩
def plbMgmt (e : Nat) : Fld := ⟨0x0F810000 + 0x20 * e, 2, 1⟩
def plbAddrHi (e : Nat) : Nat := 0x0F810008 + 0x20 * e
def plbAddrLo (e : Nat) : Nat := 0x0F810010 + 0x20 * e
def plbSuspects : Nat := 0x0F800100
def plbDead : Nat := 0x0F800108
def plbEvicts : Nat := 0x0F800110
def plbPeerClears : Nat := 0x0F800118
def plbFencedSent : Nat := 0x0F800120
def tbrS : Fld := ⟨0x0FC00000, 0, 5⟩
def tbrWin : Fld := ⟨0x0FC00000, 8, 6⟩
def tbrCtr (i : Nat) : Nat := 0x0FC00100 + 8 * i
-- JRN, SNS, TAP, BST (chapter 19)
def coresUp : Fld := ⟨0x10000000, 0, 4⟩
def fwState : Fld := ⟨0x10000000, 8, 3⟩
def idleS : Fld := ⟨0x10000008, 0, 16⟩
def drainMs : Fld := ⟨0x10000008, 16, 16⟩
def jmpDrop : Nat := 0x10000200
def snsTemp (i : Nat) : Fld := ⟨0x10400000 + 8 * i, 0, 16⟩
def snsTempMax (i : Nat) : Fld := ⟨0x10400000 + 8 * i, 16, 16⟩
def snsRail (i : Nat) : Fld := ⟨0x10401000 + 8 * i, 0, 16⟩
def snsConv (i : Nat) : Fld := ⟨0x10402000 + 8 * i, 0, 16⟩
def snsOptTx (i : Nat) : Fld := ⟨0x10403000 + 8 * i, 0, 16⟩
def snsOptRx (i : Nat) : Fld := ⟨0x10403000 + 8 * i, 16, 16⟩
def coolant : Fld := ⟨0x10404000, 0, 16⟩
def coolantValid : Fld := ⟨0x10404000, 16, 1⟩
def coolantMax : Fld := ⟨0x10400F00, 0, 16⟩
def optMin : Fld := ⟨0x10400F00, 16, 16⟩
def tapSrc (i : Nat) : Fld := ⟨0x10800000, i, 1⟩
def tapMask : Fld := ⟨0x10800000, 32, 32⟩
def tapArmed : Fld := ⟨0x10800008, 0, 1⟩
def tapSource : Fld := ⟨0x10800008, 1, 2⟩
def tapClass : Fld := ⟨0x10800008, 3, 5⟩
def tapBay : Fld := ⟨0x10800008, 8, 12⟩
def tapAccepted : Fld := ⟨0x10800008, 32, 16⟩
def tapMissed : Fld := ⟨0x10800008, 48, 16⟩
def tapBank (b w : Nat) : Nat := 0x10810000 + 0x200 * b + 8 * w
def bstKind : Fld := ⟨0x10C00000, 1, 2⟩
def bstLastPass : Fld := ⟨0x10C00000, 3, 1⟩
def bstAgree : Fld := ⟨0x10C00000, 4, 2⟩

end Reg

/-- Whether `a` lies in an array of `n` entries of `stride` bytes from `base`, at byte `off` of its entry. -/
def inArray (a base stride n off : Nat) : Bool :=
  base ≤ a && a < base + stride * n && (a - base) % stride == off

/-- The site's die (Table 19.12 DIE): which junction site lies on which die is not given; sites 96-103 are
HB0-HB7, which lie on the Truss dies (Table 0.4). The others are free values (DESIGN CHOICE, log entry 15). -/
def siteDie (i : Nat) : Nat :=
  if i < 96 then Config.freeOf 1 i % 4 else if i < 100 then 1 else 2

/-- The value of a stored register after reset (the Reset columns). -/
def regReset (a : Nat) : Word :=
  if a < 0x01000000 then
    match a with
    | 0x00 => Config.glbId
    | 0x08 => 0x10
    | 0x10 => 0x0001
    | 0x18 => 0x5C07
    | 0x20 => ((Config.baseMac.setWidth 64) >>> 10) <<< 10
    | 0x108 => 0x400
    | _ => 0
  else if a < 0x02000000 then
    match a with
    | 0x01000000 => 0x200000
    | 0x01000008 => 0x8
    | 0x01001008 => BitVec.ofNat 64 (3700 * 0x10000)
    | 0x01001010 => 1
    | _ => 0
  else if a < 0x04000000 then
    if inArray a 0x02000000 0x10000 128 0 then 0x100000
    else if inArray a 0x02000000 0x10000 128 8 then 0x88B50023
    else if a == 0x02800000 then BitVec.ofNat 64 (4000 + 16 * 0x10000)
    else if inArray a 0x03000000 0x100 2 0 then BitVec.ofNat 64 (9170 * 0x100000000)
    else 0
  else if a < 0x05000000 then
    if a == 0x04000000 then BitVec.ofNat 64 (777216 + 777216 * 0x100000)
    else if a == 0x04000008 then BitVec.ofNat 64 (10 + 100000 * 0x100000)
    else if inArray a 0x04001000 8 128 0 then 20
    else if inArray a 0x04010000 0x400 1152 0 then 0x100000
    else if inArray a 0x04010000 0x400 1152 0x48 || inArray a 0x04010000 0x400 1152 0x60
      || inArray a 0x04010000 0x400 1152 0x248 || inArray a 0x04010000 0x400 1152 0x260
    then 0xFFFFFFFFFFFFFFFF
    else 0
  else if a < 0x0A000000 then
    match a with
    | 0x05080030 => 200000
    | 0x05300010 => 400000
    | 0x06000000 => 200000
    | 0x07000000 => 100000
    | 0x08000000 => 0x640004
    | 0x08000010 => 86400
    | 0x09000000 => 0x100000000
    | _ =>
      if inArray a 0x09008000 8 4096 0 then 0x40000000
      else if inArray a 0x09010000 0x40 16384 0x10 then 4
      else 0
  else if a < 0x0F000000 then
    if inArray a 0x0A010000 8 4096 0 then 1024
    else if inArray a 0x0B010000 8 4096 0 then 16
    else if a == 0x0B800000 then 2
    else if a == 0x0D800000 then 1000000
    else 0
  else
    match a with
    | 0x0F000018 => BitVec.ofNat 64 (400 + 800 * 0x10000)
    | 0x0F800000 => BitVec.ofNat 64 (25000 + 4 * 0x100000 + 100000 * 0x100000000 + 3 * 0x10000000000000)
    | 0x0F800008 => 9171
    | 0x0FC00000 => 0x1E0C
    | 0x10000008 => BitVec.ofNat 64 (600 + 100 * 0x10000)
    | 0x10400F00 => BitVec.ofNat 64 (360 + 0xFC18 * 0x10000)
    | 0x10800000 => 3
    | 0x10800008 => 1
    | _ =>
      if inArray a 0x10400000 8 104 0 then
        BitVec.ofNat 64 (siteDie ((a - 0x10400000) / 8) * 0x100000000)
      else 0

/-- Whether a register belongs to the MAIN domain (Table 20.1). -/
def isMain (a : Nat) : Bool :=
  (0x10000 ≤ a && a < 0x01000000) || (0x02000000 ≤ a && a < 0x03000000)
  || (0x04000000 ≤ a && a < 0x0E000000) || a == 0x0E000010
  || (0x0E010000 ≤ a && a < 0x0F000000) || (0x0F800000 ≤ a && a < 0x0FC00000)

end Sys2Proof.Machine
end

