-- ==== Sys2Proof/Machine/Defaults.lean ====
section
/-! DEFINITION. The reset records: what a table's unlisted entry stands for, and accessors by number. -/

namespace Sys2Proof.Machine

def SubPort.init : SubPort :=
  { st := .down, since := 0, lanes := 0, trained := 0, firstAlign := true, aligned := false, accepted := false,
    enc := false, keyed := false, kem := none, key := 0, salt := 0, txNonce := 0, rxCount := 0, peerMac := 0, share := 0,
    credits := [], owed := [], waitSince := none, txLseq := 0, rxLseq := 0, lackSent := 0, replay := [],
    progressAt := 0, replays := 0, stalledAt := none, nakAt := none, eps := [], retired := [], initAt := none,
    held := [], trains := [], auths := [] }

def PortLanes.init : PortLanes := { failed := 0, deferred := 0, recal := 0 }
def Elm.init : Elm := { released := false, failed := [], spares := 0 }
def Pair.init : Pair := { txSeq := 0, unack := [], waiting := [], rxAck := 0, rxSeen := [], ackSince := none, pathUp := false }
def FlaskQ.init : FlaskQ := { s0 := [], s1 := [], s2 := [], s3 := [], deq := 0 }
def Sched.init : Sched := { deficit := [], active := [], visit := none }

def Endpoint.init : Endpoint :=
  { live := false, inc := 0, fencedAt := none, plumb := .none, lastBeat := 0, winAt := none, queried := [],
    run := 0, judged := 0, verdicts := 0, cause := 0, awaitSync := [] }

def BayRec.init : BayRec :=
  { st := .free, gen := 0, cur := none, old := none, oldAt := 0, halted := false, key := none, shake := none,
    shakeAt := 0, rot := 0, tests := [] }

def Extent.init : Extent :=
  { base := 0, limit := 0, bay := 0, rights := 0, fatal := false, prot := false, comp := false, redun := 0,
    hint := 0, cdom := 0, coh := false, backing := false, st := .empty, revAt := 0, dropped := false, swept := 0 }

def Domain.init : Domain := { st := .free, bay := 0, cause := 0, causeEp := 0, agents := [] }
def Loc.none : Loc := { tier := .none, a := 0, b := 0 }

def PageEntry.init : PageEntry :=
  { loc := Loc.none, alt := Loc.none, migrating := false, pin := false, lost := false, hint := 0,
    dest := Loc.none, copied := 0 }

/-- Keys of the unit table: tiles from 0, Crucibles from 1000, Cupolas from 2000, Runners from 3000, Riddles
from 4000. -/
def unitKey : UnitKind → Nat → Nat
  | .tile, n => n
  | .crucible, n => 1000 + n
  | .cupola, n => 2000 + n
  | .runner, n => 3000 + n
  | .riddle, n => 4000 + n

/-- The units that start as spares (Table 18.7, Table 13.4, R369). -/
def UnitRec.init (k : Nat) : UnitRec :=
  { st := if (k < 1000 && 128 ≤ k % 136) || (1128 ≤ k && k < 1136) || k == 2016 || k == 2033 then .spare else .inService,
    charges := [], mism := 0, bay := 0, work := 0 }

def Que.init : Que :=
  { st := .disabled, stopStatus := 0, stopDetail := 0, stopIndex := 0, head := 0, tail := 0, marks := 0xFFFF,
    namer := [], fetched := [], insts := [], loops := [] }
def Rsa.init : Rsa := { groups := [], used := [] }
def BlockBuf.init : BlockBuf := { elems := [], dtype := 0, src := none, ready := false }
def Tile.init : Tile :=
  { pc := 0, s := [], v := [], acc := [], wob := [], buf0 := BlockBuf.init, buf1 := BlockBuf.init, fin := [[], [], [], []],
    tags := [], run := false, exit := 0, barCount := 0, atBar := false, asleep := false, rank := 0 }
def Chan.init : Chan :=
  { head := 0, cur := 0, done := 0, st := .idle, lastStatus := 0, lastDetail := 0, clamps := 0, steps := 0, desc := none,
    serve := none }
def LdlEng.init : LdlEng := { halted := false, causeValid := false, causeBay := 0, causeCh := 0 }
def Mbx.init : Mbx :=
  { msg := List.replicate 16 0, go := false, seq := 0, ackCode := 0, ackSeq := 0, bay := 0, since := 0, bound := none,
    spdmReq := [], spdmRsp := [] }

/-- A stored register. -/
def Ctl.reg (c : Ctl) (a : Nat) : Word := c.regs.get a (regReset a)
/-- Set a stored register. -/
def Ctl.putReg (c : Ctl) (a : Nat) (v : Word) : Ctl := { c with regs := c.regs.set a (regReset a) v }
/-- A field of a stored register. -/
def Ctl.rd (c : Ctl) (f : Fld) : Nat := field (c.reg f.addr).toNat f.lo f.w
/-- Set a field of a stored register. -/
def Ctl.wr (c : Ctl) (f : Fld) (v : Nat) : Ctl :=
  let x := (c.reg f.addr).toNat
  c.putReg f.addr (BitVec.ofNat 64 (x - field x f.lo f.w * 2 ^ f.lo + (v % 2 ^ f.w) * 2 ^ f.lo))
/-- Add to a 64-bit counter that saturates. -/
def Ctl.bumpBy (c : Ctl) (a n : Nat) : Ctl :=
  c.putReg a (BitVec.ofNat 64 (min ((c.reg a).toNat + n) (2 ^ 64 - 1)))
/-- Count one in a 64-bit counter that saturates. -/
def Ctl.bump (c : Ctl) (a : Nat) : Ctl := c.bumpBy a 1
/-- Add to a field that saturates. -/
def Ctl.bumpF (c : Ctl) (f : Fld) (n : Nat) : Ctl := c.wr f (min (c.rd f + n) (2 ^ f.w - 1))

def Ctl.sub (c : Ctl) (p s : Nat) : SubPort := c.subs.get (4 * p + s) SubPort.init
def Ctl.putSub (c : Ctl) (p s : Nat) (v : SubPort) : Ctl := { c with subs := c.subs.set (4 * p + s) SubPort.init v }
def Ctl.lane (c : Ctl) (p : Nat) : PortLanes := c.lanes.get p PortLanes.init
def Ctl.putLane (c : Ctl) (p : Nat) (v : PortLanes) : Ctl := { c with lanes := c.lanes.set p PortLanes.init v }
def Ctl.elm (c : Ctl) (i : Nat) : Elm := c.elms.get i Elm.init
def Ctl.putElm (c : Ctl) (i : Nat) (v : Elm) : Ctl := { c with elms := c.elms.set i Elm.init v }
def Ctl.pair (c : Ctl) (e : Nat) : Pair := c.pairs.get e Pair.init
def Ctl.putPair (c : Ctl) (e : Nat) (v : Pair) : Ctl := { c with pairs := c.pairs.set e Pair.init v }
def Ctl.fq (c : Ctl) (q : Nat) : FlaskQ := c.flask.get q FlaskQ.init
def Ctl.putFq (c : Ctl) (q : Nat) (v : FlaskQ) : Ctl := { c with flask := c.flask.set q FlaskQ.init v }
def Ctl.ep (c : Ctl) (e : Nat) : Endpoint := c.eps.get e Endpoint.init
def Ctl.putEp (c : Ctl) (e : Nat) (v : Endpoint) : Ctl := { c with eps := c.eps.set e Endpoint.init v }
def Ctl.bay (c : Ctl) (b : Nat) : BayRec := c.bays.get b BayRec.init
def Ctl.putBay (c : Ctl) (b : Nat) (v : BayRec) : Ctl := { c with bays := c.bays.set b BayRec.init v }
def Ctl.ext (c : Ctl) (i : Nat) : Extent := c.exts.get i Extent.init
def Ctl.putExt (c : Ctl) (i : Nat) (v : Extent) : Ctl := { c with exts := c.exts.set i Extent.init v }
def Ctl.dom (c : Ctl) (d : Nat) : Domain := c.doms.get d Domain.init
def Ctl.putDom (c : Ctl) (d : Nat) (v : Domain) : Ctl := { c with doms := c.doms.set d Domain.init v }
def Ctl.counter (c : Ctl) (i : Nat) : Word := c.ctrs.get i 0
def Ctl.putCounter (c : Ctl) (i : Nat) (v : Word) : Ctl := { c with ctrs := c.ctrs.set i 0 v }
/-- The key of a page of a bay's flat range in the tier map. -/
def pageKey (b page : Nat) : Nat := b * 2 ^ 36 + page
def Ctl.page (c : Ctl) (b p : Nat) : PageEntry := c.tier.get (pageKey b p) PageEntry.init
def Ctl.putPage (c : Ctl) (b p : Nat) (v : PageEntry) : Ctl :=
  { c with tier := c.tier.set (pageKey b p) PageEntry.init v }
def Ctl.unit (c : Ctl) (k : UnitKind) (n : Nat) : UnitRec := c.units.get (unitKey k n) (UnitRec.init (unitKey k n))
def Ctl.putUnit (c : Ctl) (k : UnitKind) (n : Nat) (v : UnitRec) : Ctl :=
  { c with units := c.units.set (unitKey k n) (UnitRec.init (unitKey k n)) v }

def Ctl.que (c : Ctl) (q : Nat) : Que := c.ques.get q Que.init
def Ctl.putQue (c : Ctl) (q : Nat) (v : Que) : Ctl := { c with ques := c.ques.set q Que.init v }
def Ctl.rsa (c : Ctl) (b : Nat) : Rsa := c.rsas.get b Rsa.init
def Ctl.putRsa (c : Ctl) (b : Nat) (v : Rsa) : Ctl := { c with rsas := c.rsas.set b Rsa.init v }
def Ctl.tile (c : Ctl) (t : Nat) : Tile := c.tiles.get t Tile.init
def Ctl.putTile (c : Ctl) (t : Nat) (v : Tile) : Ctl := { c with tiles := c.tiles.set t Tile.init v }
/-- The key of channel ch of engine e. -/
def chanKey (e ch : Nat) : Nat := 32 * e + ch
def Ctl.chan (c : Ctl) (k : Nat) : Chan := c.chans.get k Chan.init
def Ctl.putChan (c : Ctl) (k : Nat) (v : Chan) : Ctl := { c with chans := c.chans.set k Chan.init v }
def Ctl.eng (c : Ctl) (e : Nat) : LdlEng := c.engs.get e LdlEng.init
def Ctl.putEng (c : Ctl) (e : Nat) (v : LdlEng) : Ctl := { c with engs := c.engs.set e LdlEng.init v }
def Ctl.mbx (c : Ctl) (e : Nat) : Mbx := c.mbxs.get e Mbx.init
def Ctl.putMbx (c : Ctl) (e : Nat) (v : Mbx) : Ctl := { c with mbxs := c.mbxs.set e Mbx.init v }

/-- Count one in a tally (Table 19.16). -/
def Ctl.tallyUp (c : Ctl) (k : Nat) : Ctl := { c with tally := c.tally.set k 0 (c.tally.get k 0 + 1) }

/-- Apply a function of the control records to a state. -/
def State.onCtl (s : State) (f : Ctl → Ctl) : State := { s with ctl := f s.ctl }

end Sys2Proof.Machine
end

