-- ==== Sys2Proof/Machine/Mem.lean ====
section
/-! DEFINITION. Memory: physical keys, and reads and writes of bytes over the canonical list of cells.
Every memory the SG7 and its endpoints hold lies in one space of keys: HBM stacks from 0, DDR frames from
2^44, staging and save areas from 2^58, tile scratchpads from 2^59, the node-form memory of the endpoints
from 2^60 (DESIGN CHOICE, log entry 11). An unlisted byte reads 0 (R202, R205; DESIGN CHOICE, log entry 5). -/

namespace Sys2Proof.Machine

/-- Key of byte 0 of an HBM page (Table 8.2 LOC). -/
def hbmKey (stack page : Nat) : Nat := stack * 2 ^ 36 + page * 2 ^ 16
/-- Key of byte 0 of a DDR page slot. -/
def ddrKey (frame slot : Nat) : Nat := 2 ^ 44 + (frame * 16 + slot) * 2 ^ 16
/-- Key of an offset of an endpoint's node-form memory (Table 5.5). -/
def nodeKey (ep off : Nat) : Nat := 2 ^ 60 + ep * 2 ^ 44 + off
/-- Key of a scratchpad byte of a physical tile (Table 15.1). -/
def scratchKey (tile off : Nat) : Nat := 2 ^ 59 + tile * 2 ^ 24 + off
/-- Key of a byte of CMP_STAGE (§5.9). -/
def stageKey (off : Nat) : Nat := 2 ^ 58 + off
/-- Key of a byte of the reserved save area of a forced self-test (R490). -/
def saveKey (tile off : Nat) : Nat := 2 ^ 58 + 2 ^ 40 + tile * 2 ^ 24 + off

/-- The byte at a key. -/
def cellGet : List Host.Cell → Nat → Byte
  | [], _ => 0
  | (a, v) :: t, k => if a = k then v else cellGet t k

/-- The cells with byte `v` at key `k`; a zero byte is not listed. -/
def cellPut : List Host.Cell → Nat → Byte → List Host.Cell
  | [], k, v => if v = 0 then [] else [(k, v)]
  | (a, w) :: t, k, v =>
    if k < a then (if v = 0 then (a, w) :: t else (k, v) :: (a, w) :: t)
    else if k = a then (if v = 0 then t else (k, v) :: t)
    else (a, w) :: cellPut t k v

/-- Addresses strictly rising, no zero cell. -/
def cellsWf : List Host.Cell → Bool
  | [] => true
  | (a, v) :: t => (v != 0) && (match t with | [] => true | (b, _) :: _ => decide (a < b)) && cellsWf t

/-- Numbers strictly rising. -/
def risingWf : List Nat → Bool
  | [] => true
  | a :: t => (match t with | [] => true | b :: _ => decide (a < b)) && risingWf t

/-- The canonical form of memory. -/
def Memory.wf (m : Mem) : Bool := cellsWf m.cells

/-- The byte at a key. -/
def Mem.byte (m : Mem) (k : Nat) : Byte := cellGet m.cells k

/-- Write one byte. -/
def Mem.setByte (m : Mem) (k : Nat) (v : Byte) : Mem := { m with cells := cellPut m.cells k v }

/-- Read n bytes from key k. -/
def Mem.read (m : Mem) (k n : Nat) : List Byte := (List.range n).map (fun i => m.byte (k + i))

/-- Write bytes from key k. -/
def Mem.write : Mem → Nat → List Byte → Mem
  | m, _, [] => m
  | m, k, v :: t => (m.setByte k v).write (k + 1) t

/-- Set n bytes from key k to zero. -/
def Mem.clear (m : Mem) (k n : Nat) : Mem :=
  { m with cells := m.cells.filter (fun c => !(decide (k ≤ c.1) && decide (c.1 < k + n))) }

/-- Put every cell of a list. -/
def Mem.putCells : Mem → List Host.Cell → Mem
  | m, [] => m
  | m, c :: t => (m.setByte c.1 c.2).putCells t

/-- Copy n bytes from key src to key dst. -/
def Mem.copy (m : Mem) (dst src n : Nat) : Mem :=
  let moved := (m.cells.filter (fun c => decide (src ≤ c.1) && decide (c.1 < src + n))).map
    (fun c => (c.1 - src + dst, c.2))
  (m.clear dst n).putCells moved

/-- Keep only the cells (and poison marks) of the endpoints' memory: everything inside the module is lost
with MAIN (R44). -/
def Mem.dropMain (m : Mem) : Mem :=
  { cells := m.cells.filter (fun c => decide (2 ^ 60 ≤ c.1)), poison := [] }

/-- The 64-byte blocks that n bytes from key k touch. -/
def blocksOf (k n : Nat) : List Nat :=
  if n = 0 then [] else (List.range ((k + n - 1) / 64 - k / 64 + 1)).map (fun i => k / 64 + i)

/-- Whether any of n bytes from key k lies in a poisoned block (R172). -/
def Mem.poisoned (m : Mem) (k n : Nat) : Bool := m.poison.any (fun b => decide (k < b * 64 + 64) && decide (b * 64 < k + n))

/-- Whether the range covers every poisoned block it touches whole (R172). -/
def Mem.coversPoison (m : Mem) (k n : Nat) : Bool :=
  m.poison.all (fun b =>
    !(decide (k < b * 64 + 64) && decide (b * 64 < k + n)) || (decide (k ≤ b * 64) && decide (b * 64 + 64 ≤ k + n)))

/-- Poison the blocks of n bytes from key k. -/
def Mem.addPoison (m : Mem) (k n : Nat) : Mem := { m with poison := insertAll m.poison (blocksOf k n) }

/-- Clear the poison of the blocks that n bytes from key k cover whole. -/
def Mem.healPoison (m : Mem) (k n : Nat) : Mem :=
  { m with poison := m.poison.filter (fun b => !(decide (k ≤ b * 64) && decide (b * 64 + 64 ≤ k + n))) }

end Sys2Proof.Machine
end

