-- ==== Sys2Proof/Machine/Ops.lean ====
section
/-! DEFINITION. The named operations every family shares: what leaves the SG7, events to the fabric manager
(R481), error reports, FIRST records, coalescing and health (R447-R454), fresh numbers and free values. -/

namespace Sys2Proof.Machine

/-- The outcome of a meaning that always completes. -/
def done (s : State) : Host.Outcome State Fault Refusal := .next s

/-- Send something outside (DESIGN CHOICE, log entry 4). -/
def Ctl.emit (c : Ctl) (o : Output) : Ctl := { c with out := c.out ++ [o] }

/-- Draw a free value: the spec leaves the value open (DESIGN CHOICE, log entry 3). -/
def Ctl.free (c : Ctl) : BitVec 128 × Ctl := (Config.freeValue c.freeCtr, { c with freeCtr := c.freeCtr + 1 })

/-- Draw from the on-die entropy source (DESIGN CHOICE, log entry 7). -/
def Ctl.draw (c : Ctl) : BitVec 256 × Ctl := (Config.entropy c.freeCtr, { c with freeCtr := c.freeCtr + 1 })

/-- A number that no other record carries. -/
def Ctl.fresh (c : Ctl) : Nat × Ctl := (c.nextId, { c with nextId := c.nextId + 1 })

/-! ### Events (Table 19.4) -/

def evDataReady : Nat := 0x01
def evLogEntry : Nat := 0x02
def evAdvisory : Nat := 0x03
def evJobFault : Nat := 0x04
def evBayHalt : Nat := 0x05
def evCmpInstalled : Nat := 0x06
def evCmpRetired : Nat := 0x07
def evRevokeDone : Nat := 0x08
def evShakeoutDone : Nat := 0x09
def evQueueFault : Nat := 0x0A
def evPlumbDead : Nat := 0x0B
def evDomainDown : Nat := 0x0C
def evTierFull : Nat := 0x0D
def evLadleStop : Nat := 0x0E
def evLadleHalt : Nat := 0x0F
def evTileRemap : Nat := 0x10
def evSelftestResult : Nat := 0x11
def evFwState : Nat := 0x12
def evTapDone : Nat := 0x13
def evEventsLost : Nat := 0x14
def evSensorLimit : Nat := 0x15

/-- Whether control port p is UP (Table 19.11). -/
def Ctl.ctlIsUp (c : Ctl) (p : Nat) : Bool := c.rd (Reg.ctlState p) == 3

/-- Send an event of a session on every control port that is UP (R23, R481). -/
def Ctl.emitEvent (c : Ctl) (sid : Nat) (e : Event) : Ctl :=
  let c := if c.ctlIsUp 0 then c.emit (.event sid 0 e) else c
  if c.ctlIsUp 1 then c.emit (.event sid 1 e) else c

/-- Replace the session with the same SID. -/
def Ctl.putSession (c : Ctl) (x : Session) : Ctl :=
  { c with sessions := c.sessions.map (fun (y : Session) => if y.sid = x.sid then x else y) }

/-- Give one event to one session: at most 1,024 wait for acknowledgement; on overflow the oldest are dropped
and EVENTS_LOST with their count goes before the event (R481; DEDUCED, log entry 16). -/
def Ctl.giveEvent (c : Ctl) (x : Session) (e : Event) : Ctl :=
  if x.sub.isNone then c
  else if x.events.length < 1024 then
    (c.putSession { x with events := x.events ++ [e], sentAt := c.now }).emitEvent x.sid e
  else
    let lost : Event := { evseq := c.evseq, code := evEventsLost, args := [x.droppedEv + 2] }
    let d := c.putSession { x with events := x.events.drop 2 ++ [lost, e], droppedEv := 0, sentAt := c.now }
    ({ d with evseq := d.evseq + 1 }.emitEvent x.sid lost).emitEvent x.sid e

/-- Send an event to every subscribed session, under the next EVSEQ (R481). -/
def Ctl.event (c : Ctl) (code : Nat) (args : List Nat) : Ctl :=
  let e : Event := { evseq := c.evseq, code := code, args := args }
  c.sessions.foldl (fun d x => d.giveEvent x e) { c with evseq := c.evseq + 1 }

/-! ### Error reports (§18.2-§18.4) -/

/-- Health weight of a class (Table 18.3). -/
def classWeight : Nat → Nat
  | 0x01 => 1 | 0x02 => 300 | 0x03 => 2 | 0x04 => 300 | 0x05 => 2 | 0x06 => 300 | 0x07 => 4 | 0x08 => 200
  | 0x09 => 50 | 0x0A => 1 | 0x0C => 300 | 0x0D => 100 | 0x12 => 400 | 0x13 => 400 | 0x19 => 500
  | _ => 0

/-- Severity of a class (Table 18.3). -/
def classSev : Nat → Nat
  | 0x01 => 1 | 0x02 => 2 | 0x03 => 1 | 0x04 => 2 | 0x05 => 1 | 0x06 => 2 | 0x07 => 1 | 0x08 => 2 | 0x09 => 0
  | 0x0A => 1 | 0x0B => 3 | 0x0C => 2 | 0x0D => 2 | 0x0E => 0 | 0x0F => 2 | 0x10 => 2 | 0x11 => 2 | 0x12 => 2
  | 0x13 => 2 | 0x19 => 1
  | _ => 0

/-- Classes that carry the sensor context (Table 18.4). -/
def classHasCtx (k : Nat) : Bool := (1 ≤ k && k ≤ 0x13) || k == 0x19

/-- Blocks with health scores (R452). -/
def scoredBlock (b : Nat) : Bool := [0x01, 0x06, 0x07, 0x09, 0x0A, 0x0B, 0x0C, 0x0D, 0x12, 0x15, 0x16].contains b

/-- Flask's free cells F (R101). -/
def Ctl.freeF (c : Ctl) : Nat := c.rd Reg.freeCells

/-- Freeze the FIRST record of a report's (block, class), queue the report, or coalesce it (R447, R449). -/
def Ctl.enqueue (c : Ctl) (r : Report) : Ctl :=
  let key := 32 * r.block + r.cls
  let first := (c.err.firsts.find? key).isNone
  let r := { r with first := first }
  let entry : LogEntry :=
    { lseq := 2 ^ 64, stamp := c.now % 2 ^ 48, rep := r, lost := false, nlost := 0, ctx := none, free := c.freeF }
  let c := if first then { c with err := { c.err with firsts := c.err.firsts.put key entry } } else c
  if c.err.queue.length < 256 then
    { c with err := { c.err with queue := c.err.queue ++ [r],
                                 wasFull := c.err.wasFull || c.err.queue.length + 1 == 256 } }
  else
    let c := (c.bumpF (Reg.coalPending r.block r.cls) 1).bumpF (Reg.coalTotal r.block r.cls) 1
    { c with err := { c.err with coalesced := c.err.coalesced + 1 } }

/-- A report with no bay, endpoint or INFO. -/
def rep (block cls unit : Nat) : Report :=
  { block := block, cls := cls, unit := unit, bay := none, ep := none, info := 0, first := false }

/-- A report with INFO byte 0. -/
def repInfo (block cls unit info : Nat) : Report := { rep block cls unit with info := BitVec.ofNat 128 info }

/-- Take a compute unit out of service as quarantined and log it (R468, R454). A Cupola's spare enters service
at once, the same die first (Table 18.7); a Crucible's enters by SPARE_IN, a tile's by column remap. -/
def Ctl.quarantine (c : Ctl) (k : UnitKind) (n : Nat) : Ctl :=
  let u := c.unit k n
  if u.st ≠ .inService then c
  else
    let c := (c.putUnit k n { u with st := .quarantined }).bump (Reg.tbrCtr 4)
    let blk := match k with | .tile => 0x0D | .crucible => 0x09 | .cupola => 0x0C | .runner => 0x0A | .riddle => 0x0B
    let c := c.enqueue (rep blk 0x14 n)
    match k with
    | .cupola =>
      let order := if n < 17 then (List.range 34) else (List.range 34).map (fun i => (i + 17) % 34)
      match order.find? (fun i => (c.unit .cupola i).st == .spare) with
      | some i => (c.putUnit .cupola i { c.unit .cupola i with st := .inService }).enqueue (rep 0x0C 0x15 i)
      | none => c
    | _ => c

/-- Add a weight to a unit's health score; a score that rises to a threshold raises its advisory, once until it
has fallen below half the threshold (R452, R454, Table 18.5). -/
def Ctl.addScore (c : Ctl) (b u w : Nat) : Ctl :=
  let v := min 1000 (c.rd (Reg.score b u) + w)
  let c := (c.wr (Reg.score b u) v).wr (Reg.peak b u) (max v (c.rd (Reg.peak b u)))
  let c := if c.rd Reg.hWarn ≤ v && c.rd (Reg.warnBit b u) == 0 && w ≠ 0 then
      ((c.wr (Reg.warnBit b u) 1).enqueue (repInfo b 0x1F u 0)).event evAdvisory [b, u, 0] else c
  if c.rd Reg.hReplace ≤ v && c.rd (Reg.replaceBit b u) == 0 && w ≠ 0 then
    let c := ((c.wr (Reg.replaceBit b u) 1).enqueue (repInfo b 0x1F u 1)).event evAdvisory [b, u, 1]
    match b with
    | 0x09 => c.quarantine .crucible u
    | 0x0C => c.quarantine .cupola u
    | 0x0D => c.quarantine .tile u
    | _ => c
  else c

/-- A block reports an error: FIRST, queue or coalescing, and health (R444, R447, R449, R452). A report from an
expander is charged to its tile. -/
def Ctl.report (c : Ctl) (r : Report) : Ctl :=
  let c := c.enqueue r
  let b := if r.block = 0x0E then 0x0D else r.block
  if scoredBlock b then c.addScore b r.unit (classWeight r.cls) else c

/-- Raise a REPLACE advisory for the whole module (R26). -/
def Ctl.moduleReplace (c : Ctl) : Ctl :=
  let c := { c with err := { c.err with moduleReplace := true } }
  (c.enqueue (repInfo 0 0x1F 0 1)).event evAdvisory [0, 0, 1]

/-! ### Alerts (R502) -/

/-- Set a latched alert bit. -/
def Ctl.alert (c : Ctl) (i : Nat) : Ctl := c.wr (Reg.alertPend i) 1

/-- A lane (32k + lane of OEk, 512 + lane of OEC) carries traffic: its sub-port runs on it, or its control port is UP. -/
def Ctl.laneCarries (c : Ctl) (l : Nat) : Bool :=
  if l < 512 then
    (List.range 4).any (fun s =>
      let x := c.sub (l / 4) s
      (x.st == .up || x.st == .degraded) && bitOf x.lanes.toNat (l % 4))
  else c.ctlIsUp ((l - 512) / 4)

/-- Some lane that carries traffic receives less power than SNS_CFG.OPT_MIN (R482). -/
def Ctl.optLow (c : Ctl) : Bool :=
  c.regs.any (fun (e : Nat × Word) => inArray e.1 0x10403000 8 520 0
    && decide (signed 16 (field e.2.toNat 16 16) < signed 16 (c.rd Reg.optMin)) && c.laneCarries ((e.1 - 0x10403000) / 8))

/-- The coolant inlet reads above SNS_CFG.COOLANT_MAX (R482). -/
def Ctl.coolantHigh (c : Ctl) : Bool :=
  c.rd Reg.coolantValid == 1 && decide (c.rd Reg.coolant > c.rd Reg.coolantMax)

/-- GLB_ALERT_PEND as read: the level bits follow their conditions (Table 20.7). -/
def Ctl.alertWord (c : Ctl) : Word :=
  let x := (c.reg Reg.alertPendAddr).toNat
  let lv (i : Nat) (b : Bool) : Nat := if b then 2 ^ i else 0
  let x := x - field x 6 5 * 2 ^ 6 + lv 6 (c.rd Reg.thermTrip == 1) + lv 7 c.coolantHigh
    + lv 8 c.optLow + lv 9 (3 ≤ c.pwr.coolMiss) + lv 10 (c.rd Reg.capActive == 1)
  BitVec.ofNat 64 x

/-- The level of the ALERT_N pin: low while an unmasked bit is pending. -/
def Ctl.alertN (c : Ctl) : Bool := (c.alertWord &&& ~~~ (c.reg Reg.alertMaskAddr) &&& 0xFFF) == 0

/-! ### Bays and the device state -/

/-- MAIN counts as up from step 6 of Table 2.5 until step 7 of Table 2.6, or until it is lost (R497). -/
def Ctl.mainUp (c : Ctl) : Bool :=
  match c.rd Reg.glbState with
  | 1 => 6 ≤ c.rd Reg.glbStep
  | 2 => true
  | 3 => c.rd Reg.glbStep < 7
  | _ => false

/-- Refuse a register write: it is counted and the block's flag is set (R495). -/
def Ctl.refuse (c : Ctl) (f : Fld) : Ctl := (c.wr f 1).bump Reg.wrRefused

/-- Change the control records while MAIN is up; its blocks do nothing while it is off (R497). -/
def State.whenMain (s : State) (f : Ctl → Ctl) : State := if s.ctl.mainUp then s.onCtl f else s

/-- DATA_READY is set. -/
def Ctl.running (c : Ctl) : Bool := c.rd Reg.glbState == 2

/-- Requests are answered BUSY: power-up before DATA_READY, orderly shutdown (Table 3.11, Table 2.6 step 2). -/
def Ctl.answersBusy (c : Ctl) : Bool := c.rd Reg.glbState == 1 || c.rd Reg.glbState == 3

/-- JOB_FAULT naming the bay and the endpoint (R171, R173). -/
def Ctl.jobFault (c : Ctl) (bay ep : Nat) : Ctl := (c.event evJobFault [bay, ep]).bump Reg.memJobFault

/-- The members of a map that are LIVE. -/
def CMap.liveEps (m : CMap) : List Nat := (m.members.filter (fun x => !x.dead)).map (·.ep)

/-- The member class of an endpoint that a map lists as LIVE. -/
def CMap.classOf (m : CMap) (ep : Nat) : Option Nat :=
  (m.members.find? (fun x => x.ep == ep && !x.dead)).map (·.cls)

/-- Whether a map lists an endpoint at all. -/
def CMap.lists (m : CMap) (ep : Nat) : Bool := m.members.any (fun x => x.ep == ep)

/-- The bay lists the endpoint as a LIVE member of its current map, or of its old map (R509). -/
def BayRec.listsLive (b : BayRec) (ep : Nat) : Bool :=
  let f (m : Option CMap) : Bool := match m with | some x => x.liveEps.contains ep | none => false
  f b.cur || f b.old

end Sys2Proof.Machine
end

