-- ==== Sys2Proof/Machine/FlaskOps.lean ====
section
/-! DEFINITION. Flask (spec/04): queues and their sub-lists, the admission test, freeing of cells, samples, and
the deficit round robin of R109. -/

namespace Sys2Proof.Machine

/-- The sub-list of a queue for a sub-port (R99). -/
def FlaskQ.list (q : FlaskQ) : Nat → List QFrame
  | 0 => q.s0 | 1 => q.s1 | 2 => q.s2 | _ => q.s3

/-- Replace a sub-list. -/
def FlaskQ.put (q : FlaskQ) (s : Nat) (l : List QFrame) : FlaskQ :=
  match s with
  | 0 => { q with s0 := l } | 1 => { q with s1 := l } | 2 => { q with s2 := l } | _ => { q with s3 := l }

/-- Cells of a list of frames. -/
def cellSum (l : List QFrame) : Nat := (l.map (·.cells)).sum

/-- L, the queue's length in cells. -/
def FlaskQ.len (q : FlaskQ) : Nat := cellSum q.s0 + cellSum q.s1 + cellSum q.s2 + cellSum q.s3

/-- Frames queued. -/
def FlaskQ.frames (q : FlaskQ) : Nat := q.s0.length + q.s1.length + q.s2.length + q.s3.length

/-- The queue of a fabric port or internal port in a class (R99). -/
def portQueue (p cls : Nat) : Nat := 8 * p + cls
def innerQueue (i cls : Nat) : Nat := 1024 + 8 * i + cls

/-- The scheduler that serves a sub-list: sub-port 4p + s, or 512 + internal port. -/
def schedKey (q s : Nat) : Nat := if q < 1024 then 4 * (q / 8) + s else 512 + (q - 1024) / 8

def Ctl.sched (c : Ctl) (k : Nat) : Sched := c.scheds.get k Sched.init
def Ctl.putSched (c : Ctl) (k : Nat) (v : Sched) : Ctl := { c with scheds := c.scheds.set k Sched.init v }
def Sched.def? (d : Sched) (cls : Nat) : Nat := natAt d.deficit cls
def Sched.setDef (d : Sched) (cls v : Nat) : Sched :=
  { d with deficit := setAt (if d.deficit.length = 8 then d.deficit else List.replicate 8 0) cls v }

/-- The admission test (§4.3): n cells for a queue of length l with ALPHA_K code k (two's complement) and F free. -/
def flaskAdmits (l f k n : Nat) : Bool :=
  let r := min n (8 - l)
  let s := n - r
  let below := if k < 8 then l < f * 2 ^ k else l * 2 ^ (16 - k) < f
  s == 0 || (below && s ≤ f)

/-- Cells beyond the reserve of 8 (R101). -/
def sharedCells (l : Nat) : Nat := l - 8

/-- Set F; MIN_FREE follows the lowest F (Table 4.3). -/
def Ctl.setFree (c : Ctl) (f : Nat) : Ctl :=
  let c := c.wr Reg.freeCells f
  if f < c.rd Reg.minFree then c.wr Reg.minFree f else c

/-- Admit a frame to a sub-list of a queue, or fail it as a whole (R103). -/
def Ctl.admitVia (c : Ctl) (q s : Nat) (f : Frame) (via : Option Nat) : Option Ctl :=
  let fq := c.fq q
  let n := cellsOf f
  let l := fq.len
  if flaskAdmits l c.freeF (c.rd (Reg.alphaK q)) n then
    let c := c.setFree (c.freeF - (sharedCells (l + n) - sharedCells l))
    let c := c.putFq q (fq.put s (fq.list s ++ [{ frame := f, cells := n, stamp := c.now, via := via }]))
    let k := schedKey q s
    let d := c.sched k
    some (if q % 8 = 0 || d.active.contains (q % 8) then c else c.putSched k { d with active := d.active ++ [q % 8] })
  else none

/-- Admit a frame that did not come from a sub-port. -/
def Ctl.takeIn (c : Ctl) (q s : Nat) (f : Frame) : Option Ctl := c.admitVia q s f none

/-- Free the cells of frames removed from a queue that had length l. -/
def Ctl.freeCellsOf (c : Ctl) (l n : Nat) : Ctl := c.setFree (c.freeF + (sharedCells l - sharedCells (l - n)))

/-- Remove the head of a sub-list and free its cells (R110). -/
def Ctl.dropHead (c : Ctl) (q s : Nat) : Ctl :=
  let fq := c.fq q
  match fq.list s with
  | [] => c
  | h :: t => (c.putFq q (fq.put s t)).freeCellsOf fq.len h.cells

/-- Discard every frame of a sub-list; the cells return at once, or stay lost until the sweep (R110, R114). -/
def Ctl.dropList (c : Ctl) (q s : Nat) (lost : Bool) : Ctl :=
  let fq := c.fq q
  let n := cellSum (fq.list s)
  let c' := c.putFq q (fq.put s [])
  if lost then { c' with flaskLost := c'.flaskLost + (sharedCells fq.len - sharedCells (fq.len - n)) }
  else c'.freeCellsOf fq.len n

/-- The histogram bin of a value (R112). -/
def histBin (v shift : Nat) : Nat :=
  let x := v / 2 ^ shift
  if x = 0 then 0 else min 15 (Nat.log2 x + 1)

/-- One sample of a value into MIN, MAX, SUM and the histogram at the offsets of Table 4.8. -/
def Ctl.sample (c : Ctl) (base minOff histOff v shift : Nat) : Ctl :=
  let c := c.putReg (base + minOff) (BitVec.ofNat 64 (min v (c.reg (base + minOff)).toNat))
  let c := c.putReg (base + minOff + 8) (BitVec.ofNat 64 (max v (c.reg (base + minOff + 8)).toNat))
  let c := c.bumpBy (base + minOff + 16) v
  c.bump (base + histOff + 8 * histBin v shift)

/-- Count a dequeue; every 2^n-th records depth and sojourn delay in S-cycles, 16 to a T-tick (R111). -/
def Ctl.dequeued (c : Ctl) (q depth stamp : Nat) : Ctl :=
  let fq := c.fq q
  let c := c.putFq q { fq with deq := fq.deq + 1 }
  if (fq.deq + 1) % 2 ^ c.rd Reg.sampleN = 0 then
    let b := Reg.queueBase q
    let c := c.bump (b + 0x40)
    let c := c.sample b 0x48 0x80 depth (c.rd Reg.depthShift)
    c.sample b 0x60 0x100 (min ((c.now - stamp) * 16) (2 ^ 32 - 1)) (c.rd Reg.delayShift)
  else c

/-- The offsets of the live sample set of a queue; the shadow set lies 0x200 above (R115). -/
def sampleOffsets : List Nat := (List.range 40).map (fun i => 0x40 + 8 * i)

/-- Reset the live sample set of a queue (R113). -/
def Ctl.clearSamples (c : Ctl) (q : Nat) : Ctl :=
  sampleOffsets.foldl (fun d o => d.putReg (Reg.queueBase q + o) (regReset (Reg.queueBase q + o))) c

/-- Copy the live sample sets of every queue to their shadow sets (R113). Only queues with a stored register
differ from their shadow's reset. -/
def Ctl.latchShadows (c : Ctl) : Ctl :=
  let live (a : Nat) : Bool := 0x04010000 ≤ a && a < 0x04130000 && (0x40 ≤ (a - 0x04010000) % 0x400 && (a - 0x04010000) % 0x400 < 0x180)
  let shadow (a : Nat) : Bool := 0x04010000 ≤ a && a < 0x04130000 && (0x240 ≤ (a - 0x04010000) % 0x400 && (a - 0x04010000) % 0x400 < 0x380)
  let src := c.regs.filter (fun e => live e.1)
  let c := { c with regs := c.regs.filter (fun e => !shadow e.1) }
  src.foldl (fun d e => d.putReg (e.1 + 0x200) e.2) c

/-- A frame that the shakeout filter removes at egress (R96): TC1-TC7 of a bay in shakeout, but SWRESP with
BAY_TRANSITION, SEQFILL, and the SG7's own EXTSYNC and EXTDROP. -/
def Ctl.filtered (c : Ctl) (f : Frame) : Bool :=
  f.tc != 0 && (c.bay f.bay.toNat).st == .shakeout
  && !((f.has flSWRESP && f.status == stBAYTRANS) || f.kind == kSeqfill
       || (f.src == 0xFFF && (f.kind == kExtSync || f.kind == kExtDrop)))

/-- Remove the filtered frames that stand at the head of a sub-list of a fabric port, uncharged (R110; fuel: the
list's length). -/
def Ctl.filterHeads (c : Ctl) (q s : Nat) : Nat → Ctl
  | 0 => c
  | n + 1 =>
    match (c.fq q).list s with
    | [] => c
    | h :: _ =>
      if c.filtered h.frame then
        ((c.dropHead q s).bump (Reg.lnkCtr (q / 8) s 0x60)).filterHeads q s n
      else c

/-- Remove the filtered heads of every class of a sub-port. -/
def Ctl.filterPort (c : Ctl) (p s : Nat) : Ctl :=
  (List.range 8).foldl (fun d k => d.filterHeads (portQueue p k) s ((d.fq (portQueue p k)).list s).length) c

end Sys2Proof.Machine
end

