-- ==== Sys2Proof/Machine/TransOps.lean ====
section
/-! DEFINITION. Sending frames (spec/03 §3.6, R78, R85-R90, R102): the choice of path, the SG7's own sequenced
frames, acknowledgements both ways, responses to requests. -/

namespace Sys2Proof.Machine

/-- The port lanes of a sub-port under a breakout (Table 3.1); 0 where the sub-port does not exist. -/
def lanesOf (breakout s : Nat) : BitVec 4 :=
  match breakout, s with
  | 0, 0 => 0xF
  | 1, 0 => 0x3
  | 1, 1 => 0xC
  | 2, 0 => 0x1
  | 2, 1 => 0x2
  | 2, 2 => 0x4
  | 2, 3 => 0x8
  | _, _ => 0

def Ctl.cfgLanes (c : Ctl) (p s : Nat) : BitVec 4 := lanesOf (c.rd (Reg.cfgBreakout p)) s

/-- A sub-port carries traffic (R73). -/
def SubPort.carries (x : SubPort) : Bool := x.st == .up || x.st == .degraded

/-- The sub-ports (keys 4p + s) on which an endpoint is admitted. -/
def Ctl.subsOf (c : Ctl) (ep : Nat) : List Nat := c.subs.keysWhere (fun _ x => x.eps.contains ep)

/-- The sub-ports towards an endpoint that are UP or DEGRADED. -/
def Ctl.pathsOf (c : Ctl) (ep : Nat) : List Nat := c.subs.keysWhere (fun _ x => x.eps.contains ep && x.carries)

/-- The egress sub-port of a (SRC, DST, TC) flow: a hash over the sub-ports that are UP or DEGRADED, weighted by
lanes in use (R90). -/
def Ctl.pathFor (c : Ctl) (src dst tc : Nat) : Option Nat :=
  let ks := (c.pathsOf dst).flatMap (fun k => List.replicate (popCount 4 ((c.subs.get k SubPort.init).lanes.toNat)) k)
  match ks with
  | [] => none
  | [k] => some k
  | k :: _ => if ks.all (· == k) then some k else ks[Config.pathHash src dst tc % ks.length]?

/-- The internal port of a frame addressed to the SG7 (Table 4.1). -/
def innerPort (f : Frame) : Nat :=
  if f.tc = 0 then 15
  else if f.isCoherence then 4
  else if f.isRequest && isNode f.addr && nodeOf f.addr == 0xFFF && offsetOf f.addr < 0x10000 && (f.kind == kRead || f.kind == kWrite)
  then 5
  else Config.innerHash f.src.toNat f.tag.toNat % 4

/-- Queue a frame that the SG7 generated: admitted, or held and retried without limit (R106). With no path it goes
nowhere; the transport retransmits a sequenced one (R89). -/
def Ctl.sendFrame (c : Ctl) (f : Frame) : Ctl :=
  match c.pathFor f.src.toNat f.dst.toNat f.tc.toNat with
  | none => c
  | some k =>
    let q := portQueue (k / 4) f.tc.toNat
    match c.takeIn q (k % 4) f with
    | some d => d
    | none => { c with intHeld := c.intHeld ++ [(q, k % 4, f)] }

/-- Put the acknowledgement for a peer on a frame that goes to it (R88). -/
def Ctl.withAck (c : Ctl) (ep : Nat) (f : Frame) : Ctl × Frame :=
  let p := c.pair ep
  match p.ackSince with
  | none => (c, f)
  | some _ => (c.putPair ep { p with ackSince := none }, { f with flags := f.flags ||| flACKV, ackseq := p.rxAck })

/-- Send as the transport peer: the next SEQ of the pair, kept until acknowledged (R86, R87). -/
def Ctl.sendSeq (c : Ctl) (f : Frame) (peg : Option (BitVec 16)) (grant : Option Nat) : Ctl :=
  let ep := f.dst.toNat
  let p := c.pair ep
  let f := { f with seq := p.txSeq }
  let t : TxFrame := { seq := p.txSeq, frame := f, sentAt := c.now, tries := 0, filled := false, acked := false, peg := peg, grant := grant }
  if p.unack.length < 4096 then
    let c := c.putPair ep { p with txSeq := p.txSeq + 1, unack := p.unack ++ [t], pathUp := !(c.pathsOf ep).isEmpty }
    let (c, f) := c.withAck ep f
    c.sendFrame f
  else c.putPair ep { p with txSeq := p.txSeq + 1, waiting := p.waiting ++ [t] }

/-- SEQ a comes before b (R87: half the space). -/
def seqBefore (a b : BitVec 24) : Bool := a != b && (b - a).toNat ≤ 2 ^ 23

/-- Release the frames an acknowledgement covers: cumulative below `ack`, and those the bitmap names. Frames that
waited for the window go out. Answers the peg tags that a cumulative acknowledgement covers and the grants that
have been acknowledged. -/
def Ctl.ackFrames (c : Ctl) (ep : Nat) (ack : BitVec 24) (bitmap : Word) : Ctl × List (BitVec 16) × List Nat :=
  let p := c.pair ep
  let cum (t : TxFrame) : Bool := seqBefore t.seq ack
  let sel (t : TxFrame) : Bool :=
    let d := (t.seq - (ack + 1)).toNat
    d < 64 && bitOf bitmap.toNat d
  let gone := p.unack.filter cum
  let stay := (p.unack.filter (fun t => !cum t)).map (fun t => if sel t then { t with acked := true } else t)
  let newly := gone.filter (fun t => !t.acked) ++ (p.unack.filter (fun t => !cum t && sel t && !t.acked))
  let pegs := (gone.filter (fun t => !t.filled)).filterMap (·.peg)
  let grants := newly.filterMap (·.grant)
  let room := 4096 - stay.length
  let start := (p.waiting.take room).map (fun t => { t with sentAt := c.now })
  let c := c.putPair ep { p with unack := stay ++ start, waiting := p.waiting.drop room }
  (start.foldl (fun d t => d.sendFrame t.frame) c, pegs, grants)

/-- What a receiving peer makes of a SEQ (R87). -/
inductive SeqFit where
  | fresh | duplicate | outside
  deriving DecidableEq, Repr

def Pair.fit (p : Pair) (s : BitVec 24) : SeqFit :=
  if (s - p.rxAck).toNat < 4096 then (if p.rxSeen.contains s then .duplicate else .fresh)
  else if seqBefore s p.rxAck then .duplicate else .outside

/-- Advance the cumulative acknowledgement over received SEQs (fuel: their number). -/
def advanceAck : Nat → BitVec 24 → List (BitVec 24) → BitVec 24 × List (BitVec 24)
  | 0, a, l => (a, l)
  | n + 1, a, l => if l.contains a then advanceAck n (a + 1) (l.filter (· != a)) else (a, l)

/-- Receive a SEQ from an endpoint as its peer: every SEQ is acknowledgeable on receipt (R88). -/
def Ctl.takeSeq (c : Ctl) (ep : Nat) (s : BitVec 24) : Ctl :=
  let p := c.pair ep
  let (a, l) := advanceAck (p.rxSeen.length + 1) p.rxAck (p.rxSeen ++ [s])
  c.putPair ep { p with rxAck := a, rxSeen := l, ackSince := some (p.ackSince.getD c.now) }

/-- The acknowledgement is due again: a duplicate arrived (R87). -/
def Ctl.ackAgain (c : Ctl) (ep : Nat) : Ctl :=
  let p := c.pair ep
  c.putPair ep { p with ackSince := some (p.ackSince.getD c.now) }

/-- An empty frame from the SG7. -/
def baseFrame : Frame :=
  { kind := 0, tc := 0, ver := 1, enc := false, bay := 0, src := 0xFFF, dst := 0, inc := 0, gen := 0, seq := 0,
    status := 0, len := 0, tag := 0, flags := 0, addr := 0, ackseq := 0, detail := 0, rsv := 0, payload := [] }

/-- Set payload and LEN together. -/
def withPayload (f : Frame) (p : List Byte) : Frame := { f with payload := p, len := BitVec.ofNat 13 p.length }

/-- The SG7 has no state for the requester any more: its incarnation is not live. -/
def Ctl.liveInc (c : Ctl) (ep : Nat) (inc : BitVec 8) : Bool := (c.ep ep).live && (c.ep ep).inc == inc

/-- Remove the tracker entry of a request that is answered, forwarded back or given up (R155). -/
def Ctl.untrack (c : Ctl) (src dst : Nat) (seq : BitVec 24) : Ctl :=
  { c with tracker := c.tracker.filter (fun t => !(t.src == src && t.dst == dst && t.seq == seq)) }

/-- The answer frames of a request (R148, R149): status, detail, ADDR and payload; a response other than to a read
carries the length of Table 6.2 whatever its status, zero bytes when it failed. -/
def rspLen (k : BitVec 8) : Nat := if k = kAtomic then 24 else if k = kCtr then 8 else 0

/-- Pieces of at most 4,096 bytes with their offsets. -/
def readPieces (data : List Byte) : List (Nat × List Byte) :=
  (chunksOf 4096 (data.length + 1) data).zipIdx.map (fun e => (4096 * e.2, e.1))

/-- One response frame to a request. -/
def rspFrame (r : Frame) (status detail : Byte) (addr : Word) (flags : BitVec 16) (payload : List Byte) : Frame :=
  withPayload { baseFrame with
    kind := rspKind r.kind, tc := if r.isCoherence then 1 else 2, bay := r.bay, dst := r.src, gen := r.gen, status := status, detail := detail, tag := r.tag, addr := addr,
    flags := if r.dst = 0xFFF then flags else flags ||| flSWRESP } payload

/-- Send one response frame: sequenced by the SG7 when the request was addressed to it, else SWRESP with SEQ 0
(R78). -/
def Ctl.sendRsp (c : Ctl) (r : Frame) (f : Frame) (peg : Option (BitVec 16)) (grant : Option Nat) : Ctl :=
  if r.dst = 0xFFF then c.sendSeq f peg grant else c.sendFrame f

/-- Answer a request (R148, R149, R78). The tracker entry goes; a request to another endpoint draws SEQFILL to that
endpoint; nothing goes to a retired incarnation (R169). -/
def Ctl.answer (c : Ctl) (r : Frame) (status detail : Byte) (addr : Word) (flags : BitVec 16) (payload : List Byte)
    (peg : Option (BitVec 16)) (grant : Option Nat) : Ctl :=
  let c := c.untrack r.src.toNat r.dst.toNat r.seq
  let c := if status = stPOISONED then c.bump Reg.memPoisonRsp else c
  let c := if detail = dMALFORMED then c.bump Reg.memMalformed else c
  let c := if r.dst = 0xFFF then c
    else c.sendFrame { baseFrame with kind := kSeqfill, tc := r.tc, bay := r.bay, src := r.src, dst := r.dst, inc := r.inc, gen := r.gen, seq := r.seq }
  if !c.liveInc r.src.toNat r.inc then c
  else if r.kind = kRead || r.kind = kReadPub then
    if status = stOK || status = stPOISONED then
      let ps := readPieces payload
      ps.foldl (fun d e =>
        let last := if e.1 + 4096 ≥ payload.length then flLAST else 0
        let a := if r.kind = kReadPub then addr else BitVec.ofNat 64 (r.addr.toNat + e.1)
        d.sendRsp r (rspFrame r status detail a (flags ||| last) e.2) peg grant) c
    else c.sendRsp r (rspFrame r status detail addr (flags ||| flLAST) []) peg grant
  else
    let body := if status = stOK || r.isCoherence then payload else zeros (rspLen r.kind)
    c.sendRsp r (rspFrame r status detail addr flags body) peg grant

/-- Answer with a status and detail and nothing else. A failed read carries zero data when POISONED. -/
def Ctl.fail (c : Ctl) (r : Frame) (status detail : Byte) : Ctl :=
  c.answer r status detail 0 0
    (if (r.kind = kRead || r.kind = kReadPub) && status = stPOISONED then zeros (rlenOf r) else []) none none

/-- Discard the transport state of an endpoint (R86, R119). -/
def Ctl.dropTransport (c : Ctl) (ep : Nat) : Ctl := c.putPair ep Pair.init

end Sys2Proof.Machine
end

