-- ==== Sys2Proof/Machine/TierOps.lean ====
section
/-! DEFINITION. Placement of pages (spec/08): physical keys, free pages, allocation by hint, quota and tier order
(R203, R204), redundancy units (R220), and the segments a flat range is made of (R200). -/

namespace Sys2Proof.Machine

/-- The key of byte 0 of a page at a location. A pool page lies in its backing extent on a tray. -/
def Ctl.locKey (c : Ctl) (l : Loc) : Option Nat :=
  match l.tier with
  | .none => none
  | .hbm => some (hbmKey l.a l.b)
  | .ddr => some (ddrKey l.a l.b)
  | .pool => let e := c.ext l.a; if e.st = .empty then none else some (nodeKey (nodeOf e.base) (offsetOf e.base + l.b * 65536))

/-- The failure unit of a location (Table 8.1): stacks 0-7, the DDR tier 8, a tray 16 + endpoint. -/
def Ctl.locUnit (c : Ctl) (l : Loc) : Nat :=
  match l.tier with
  | .none => 15
  | .hbm => l.a
  | .ddr => 8
  | .pool => 16 + nodeOf (c.ext l.a).base

/-- The tray endpoint that holds a key, if a tray does. -/
def keyTray (k : Nat) : Option Nat := if 2 ^ 60 ≤ k then some ((k - 2 ^ 60) / 2 ^ 44) else none

/-- The lowest number not in a rising list. -/
def lowestFree : List Nat → Nat → Nat
  | [], n => n
  | k :: t, n => if k = n then lowestFree t (n + 1) else if k < n then lowestFree t n else n

/-- Pages of a reserved area: TIR_CFG.MAP_GIB + KVS_CFG.MAP_GIB GiB (R507). -/
def Ctl.reservedPages (c : Ctl) : Nat := (c.phys.mapGib + c.phys.kvsGib) * 16384

/-- Pages of a stack that bays may use. -/
def Ctl.stackPages (c : Ctl) (s : Nat) : Nat :=
  786432 - (if c.phys.copyA = some s || c.phys.copyB = some s then c.reservedPages else 0)

/-- Page numbers of a stack that are in use or await zeroing, rising. -/
def Ctl.stackTaken (c : Ctl) (s : Nat) : List Nat :=
  let f (l : List Nat) : List Nat := (l.filter (fun k => k < 2 ^ 44 && k / 2 ^ 36 == s)).map (fun k => k % 2 ^ 36 / 2 ^ 16)
  insertAll (f c.phys.used) (f c.phys.dirty)

/-- HBM_STACK.FREE: zeroed or not, pages neither used nor reserved (Table 8.10). -/
def Ctl.stackFree (c : Ctl) (s : Nat) : Nat :=
  if c.rd (Reg.hbmState s) = 0 then 0
  else c.stackPages s - ((c.stackTaken s).filter (· < c.stackPages s)).length

/-- A page of a stack that can be allocated: the lowest zeroed one that is free (DESIGN CHOICE, log entry 17). -/
def Ctl.hbmPick (c : Ctl) (s : Nat) : Option Nat :=
  let p := lowestFree (c.stackTaken s) 0
  if c.rd (Reg.hbmState s) = 1 && p < min (natAt c.phys.sweptHbm s) (c.stackPages s) then some p else none

/-- The stack with the most free pages among those with an allocatable page, ties to the lower number (R204). -/
def Ctl.hbmBest (c : Ctl) (ban : List Nat) : Option Nat :=
  (List.range 8).foldl (fun best s =>
    if ban.contains s || (c.hbmPick s).isNone then best
    else match best with
      | none => some s
      | some b => if c.stackFree b < c.stackFree s then some s else best) none

/-- The channels ONLINE, as a MASK (R214). -/
def Ctl.onlineMask (c : Ctl) : BitVec 12 :=
  BitVec.ofNat 12 (((List.range 12).filter (fun i => c.rd (Reg.ddrState i) == 1)).map (2 ^ ·)).sum

/-- The MASK of frame j: recorded when the frame came into use, else the ONLINE channels. -/
def Ctl.frameMask (c : Ctl) (j : Nat) : BitVec 12 := c.phys.frames.get j c.onlineMask

/-- The set bits of a MASK, rising. -/
def maskBits (m : BitVec 12) : List Nat := (List.range 12).filter (fun i => bitOf m.toNat i)

/-- The channel that holds the chunk of a DDR key (R214). -/
def Ctl.keyChannel (c : Ctl) (k : Nat) : Nat :=
  let o := k - 2 ^ 44
  let l := maskBits (c.frameMask (o / 2 ^ 20))
  natAt l ((128 * (o / 2 ^ 16 % 16) + k % 65536 / 512) % l.length)

/-- The block of Table 18.2 and the unit that hold a key: HBM, DDR, or an endpoint. -/
def Ctl.keyBlock (c : Ctl) (k : Nat) : Nat × Nat :=
  if k < 2 ^ 44 then (0x06, k / 2 ^ 36) else if k < 2 ^ 58 then (0x07, c.keyChannel k) else (0x15, (k - 2 ^ 60) / 2 ^ 44)

/-- Channel slots that a frame's channels all have zeroed; a frame beyond does not exist yet. -/
def Ctl.frameLimit (c : Ctl) (m : BitVec 12) : Nat :=
  ((List.range 12).filter (fun i => bitOf m.toNat i)).foldl
    (fun lo i => min lo (min (natAt c.phys.sweptDdr i) (c.rd (Reg.ddrSlots i)))) (2 ^ 21)

/-- Slots of a frame in use or awaiting zeroing, rising. -/
def Ctl.frameTaken (c : Ctl) (j : Nat) : List Nat :=
  let f (l : List Nat) : List Nat :=
    (l.filter (fun k => 2 ^ 44 ≤ k && k < 2 ^ 58 && (k - 2 ^ 44) / 2 ^ 20 == j)).map (fun k => (k - 2 ^ 44) / 2 ^ 16 % 16)
  insertAll (f c.phys.used) (f c.phys.dirty)

/-- The lowest free slot of the lowest-numbered frame that has one (R204). Each taken slot can fill part of one
frame only, so the search ends after as many frames as slots are taken, plus one. -/
def Ctl.ddrPick (c : Ctl) : Option (Nat × Nat) :=
  if c.onlineMask = 0 && c.phys.frames.isEmpty then none
  else
    let n := c.phys.used.length + c.phys.dirty.length + c.phys.frames.length + 1
    (List.range n).findSome? (fun j =>
      let m := c.frameMask j
      let s := lowestFree (c.frameTaken j) 0
      let ok := match c.phys.evac with | some x => !bitOf m.toNat x.val | none => true
      if m != 0 && j < c.frameLimit m && s < popCount 12 m.toNat && ok then some (j, s) else none)

/-- The bay's rotation: the trays of its ACTIVE backing extents, at most 16, in ascending order (R204). -/
def Ctl.rotation (c : Ctl) (bay : Nat) : List Nat :=
  (insertAll [] ((c.exts.filter (fun e => e.2.backing && e.2.bay == bay && e.2.st == .active)).map
    (fun e => nodeOf e.2.base))).take 16

/-- Pages of a backing extent. -/
def Extent.pages (e : Extent) : Nat := (e.limit.toNat - e.base.toNat) / 65536

/-- A page of a tray's backing extents that can be allocated. -/
def Ctl.trayPick (c : Ctl) (bay tray : Nat) : Option Loc :=
  if !(c.ep tray).live then none
  else c.exts.findSome? (fun e =>
    if e.2.backing && e.2.bay == bay && e.2.st == .active && nodeOf e.2.base == tray then
      let k0 := nodeKey tray (offsetOf e.2.base)
      let f (l : List Nat) : List Nat :=
        (l.filter (fun k => k0 ≤ k && k < k0 + e.2.pages * 65536)).map (fun k => (k - k0) / 65536)
      let p := lowestFree (insertAll (f c.phys.used) (f c.phys.dirty)) 0
      if p < min e.2.swept e.2.pages then some { tier := Tier.pool, a := e.1, b := p } else none
    else none)

/-- The next tray of the rotation with room (R204), with the rotation's next position. -/
def Ctl.poolPick (c : Ctl) (bay : Nat) (ban : List Nat) : Option (Loc × Nat) :=
  let r := c.rotation bay
  (List.range r.length).findSome? (fun i =>
    let pos := ((c.bay bay).rot + i) % r.length
    let t := r.getD pos 0
    if ban.contains (16 + t) then none else (c.trayPick bay t).map (fun l => (l, (pos + 1) % r.length)))

/-- The tier a hint asks for (R203). -/
def hintTier (h : Nat) : Tier := if h = 2 then .ddr else if h = 3 then .pool else .hbm

/-- Whether the bay's quota for a tier leaves room; the pool has none (R203). -/
def Ctl.quotaOk (c : Ctl) (bay : Nat) (t : Tier) (n : Nat) : Bool :=
  match t with
  | .hbm => c.rd (Reg.hbmUsed bay) + n ≤ c.rd (Reg.hbmQuota bay)
  | .ddr => c.rd (Reg.ddrUsed bay) + n ≤ c.rd (Reg.ddrQuota bay)
  | _ => true

/-- Charge n tier pages to a bay, or give them back. -/
def Ctl.charge (c : Ctl) (bay : Nat) (t : Tier) (n : Nat) : Ctl :=
  match t with
  | .hbm => c.bumpF (Reg.hbmUsed bay) n | .ddr => c.bumpF (Reg.ddrUsed bay) n
  | .pool => c.bumpF (Reg.poolUsed bay) n | .none => c
def Ctl.uncharge (c : Ctl) (bay : Nat) (t : Tier) (n : Nat) : Ctl :=
  match t with
  | .hbm => c.wr (Reg.hbmUsed bay) (c.rd (Reg.hbmUsed bay) - n)
  | .ddr => c.wr (Reg.ddrUsed bay) (c.rd (Reg.ddrUsed bay) - n)
  | .pool => c.wr (Reg.poolUsed bay) (c.rd (Reg.poolUsed bay) - n)
  | .none => c

/-- Mark a page's key as in use; a frame in use keeps its MASK. -/
def Ctl.take (c : Ctl) (l : Loc) : Ctl :=
  match c.locKey l with
  | none => c
  | some k =>
    let ph := { c.phys with used := insertNat c.phys.used k }
    let ph := if l.tier = .ddr && (ph.frames.find? l.a).isNone then { ph with frames := ph.frames.put l.a c.onlineMask } else ph
    { c with phys := ph }

/-- Pick a place in one tier outside the banned failure units (R204, R220). -/
def Ctl.pickIn (c : Ctl) (bay : Nat) (ban : List Nat) (t : Tier) : Option (Loc × Ctl) :=
  match t with
  | .none => none
  | .hbm => match c.hbmBest ban with
    | none => none
    | some s => (c.hbmPick s).map (fun p => ({ tier := Tier.hbm, a := s, b := p }, c))
  | .ddr => if ban.contains 8 then none
    else c.ddrPick.map (fun e => ({ tier := Tier.ddr, a := e.1, b := e.2 }, c))
  | .pool => (c.poolPick bay ban).map (fun e => (e.1, c.putBay bay { c.bay bay with rot := e.2 }))

/-- Allocate one page for a bay: the hinted tier first, then HBM, DDR and POOL in that order (R203). -/
def Ctl.allocLoc (c : Ctl) (bay : Nat) (first : Tier) (ban : List Nat) (quota : Bool) : Option (Loc × Ctl) :=
  ([first, .hbm, .ddr, .pool].findSome? (fun t =>
    if quota && !c.quotaOk bay t 1 then none else c.pickIn bay ban t)).map
    (fun e => (e.1, (e.2.take e.1).charge bay e.1.tier 1))

/-- Free a page: it awaits zeroing (R205). Memory still shows its bytes until Ladle has zeroed it. A pool page whose
backing extent is gone is only given back. -/
def Ctl.freeLoc (c : Ctl) (bay : Nat) (l : Loc) : Ctl :=
  match c.locKey l with
  | none => c.uncharge bay l.tier 1
  | some k =>
    let c := c.uncharge bay l.tier 1
    { c with phys := { c.phys with used := removeNat c.phys.used k, dirty := insertNat c.phys.dirty k } }

/-- The stack a reserved-area copy goes to: the lowest ONLINE stack of its own die, else of the other die but the one
that holds the other copy (R507). -/
def Ctl.copyStack (c : Ctl) (dieB : Bool) (other : Option Nat) : Option Nat :=
  let online (s : Nat) : Bool := c.rd (Reg.hbmState s) == 1 && other != some s
  let own := if dieB then [4, 5, 6, 7] else [0, 1, 2, 3]
  let far := if dieB then [0, 1, 2, 3] else [4, 5, 6, 7]
  (own ++ far).find? online

/-- Place both copies of the reserved areas (R507). -/
def Ctl.placeCopies (c : Ctl) : Ctl :=
  let a := c.copyStack false none
  let b := c.copyStack true a
  { c with phys := { c.phys with copyA := a, copyB := b } }

/-- The unit of failed pages has returned: their zeroing is tried again (R508). -/
def Ctl.retryZero (c : Ctl) (onUnit : Nat → Bool) : Ctl :=
  { c with phys := { c.phys with failedZero := c.phys.failedZero.filter (fun k => !onUnit k) } }

/-! ### Coded groups (R220) -/

/-- The first page of an extent and the pages of the group of page p within it. -/
def Extent.groupOf (e : Extent) (p : Nat) : Nat × Nat :=
  let p0 := e.base.toNat / 65536
  let g := (p - p0) / 8
  (p0 + 8 * g, min 8 (e.pages - 8 * g))

/-- The locations of P and Q of the group of a page: ALT of the group's first and second page; a group of one page
keeps Q in the coded-group table. -/
def Ctl.parityOf (c : Ctl) (ei p : Nat) : Loc × Loc :=
  let e := c.ext ei
  let (g0, n) := e.groupOf p
  ((c.page e.bay g0).alt, if n = 1 then c.coded.get ei Loc.none else (c.page e.bay (g0 + 1)).alt)

/-- Doubling in GF(2^8) with x^8 + x^4 + x^3 + x^2 + 1. -/
def gfDouble (x : Byte) : Byte := (x <<< 1) ^^^ (if x.msb then 0x1D else 0)

/-- g^i · x with g = 0x02. -/
def gfMulPow : Nat → Byte → Byte
  | 0, x => x
  | i + 1, x => gfMulPow i (gfDouble x)

/-- Failure units already used by a coded group or a mirrored page. -/
def Ctl.groupUnits (c : Ctl) (ei p : Nat) : List Nat :=
  let e := c.ext ei
  let (g0, n) := e.groupOf p
  let (lp, lq) := c.parityOf ei p
  c.locUnit lp :: c.locUnit lq :: (List.range n).map (fun i => c.locUnit (c.page e.bay (g0 + i)).loc)

/-- Allocate page p of a bay as extent ei asks: data page, second copy or parity (R203, R220). `none` when no tier
has room for all of them. -/
def Ctl.allocPage (c : Ctl) (bay ei p : Nat) : Option Ctl :=
  let e := c.ext ei
  let t := hintTier e.hint.toNat
  let pin := e.hint == 4 || e.hint == 5
  let base (l : Loc) (old : PageEntry) : PageEntry := { old with loc := l, hint := e.hint, pin := pin, lost := false }
  if e.redun = 1 then
    match c.allocLoc bay t [] true with
    | none => none
    | some (l, d) =>
      match d.allocLoc bay t [d.locUnit l] true with
      | none => none
      | some (m, d) => some (d.putPage bay p { base l (d.page bay p) with alt := m })
  else if e.redun = 2 then
    match c.allocLoc bay t (c.groupUnits ei p) true with
    | none => none
    | some (l, d) =>
      let d := d.putPage bay p (base l (d.page bay p))
      let (g0, n) := e.groupOf p
      let (lp, _) := d.parityOf ei p
      if lp.tier ≠ .none then some d
      else
        match d.allocLoc bay t (d.groupUnits ei p) true with
        | none => none
        | some (lp, d) =>
          let d := d.putPage bay g0 { d.page bay g0 with alt := lp }
          match d.allocLoc bay t (d.groupUnits ei p) true with
          | none => none
          | some (lq, d) =>
            some (if n = 1 then { d with coded := d.coded.set ei Loc.none lq }
              else d.putPage bay (g0 + 1) { d.page bay (g0 + 1) with alt := lq })
  else
    match c.allocLoc bay t [] true with
    | none => none
    | some (l, d) => some (d.putPage bay p (base l (d.page bay p)))

/-! ### Segments -/

/-- A run of bytes of an access: the key of its first byte (none: unallocated), its length, whether the page is LOST
without a replacement, other copies that a write must reach (second copy, migration destination), the parity pages
with the data page's place in its group, and the bay page it belongs to. -/
structure Seg where
  key : Option Nat
  len : Nat
  lost : Bool
  copies : List Nat
  parity : Option (Nat × Nat × Nat)
  page : Nat
  deriving DecidableEq, Repr

/-- Whether the unit that holds a key serves: a tray with a live incarnation, a stack ONLINE or EVACUATING, a frame none of
whose channels is OFFLINE. -/
def Ctl.keyLive (c : Ctl) (k : Nat) : Bool :=
  if k < 2 ^ 44 then (let st := c.rd (Reg.hbmState (k / 2 ^ 36)); st == 1 || st == 2)
  else if k < 2 ^ 58 then
    (List.range 12).all (fun i => !bitOf (c.frameMask ((k - 2 ^ 44) / 2 ^ 20)).toNat i || c.rd (Reg.ddrState i) != 0)
  else match keyTray k with
    | some t => (c.ep t).live
    | none => true

/-- The key that serves a location: none on a unit that is lost. -/
def Ctl.liveKey (c : Ctl) (l : Loc) : Option Nat := (c.locKey l).filter c.keyLive

/-- The segment of n bytes from byte `off` of page p of a bay, through extent ei (R200, R206, R221). -/
def Ctl.pageSeg (c : Ctl) (bay ei p off n : Nat) : Seg :=
  let pg := c.page bay p
  let e := c.ext ei
  let shift (k : Option Nat) : List Nat := (k.map (· + off)).toList
  let mirror := if e.redun = 1 then shift (c.liveKey pg.alt) else []
  let dest := if pg.migrating then shift (c.liveKey pg.dest) else []
  let par := if e.redun = 2 then
      match c.parityOf ei p with
      | (lp, lq) => match c.locKey lp, c.locKey lq with
        | some kp, some kq => some (kp + off, kq + off, p - (e.groupOf p).1)
        | _, _ => none
    else none
  if pg.loc.tier = .none then
    { key := none, len := n, lost := pg.lost, copies := [], parity := par, page := p }
  else
    match c.liveKey pg.loc, mirror with
    | some k, _ => { key := some (k + off), len := n, lost := false, copies := mirror ++ dest, parity := par, page := p }
    | none, m :: _ => { key := some m, len := n, lost := false, copies := dest, parity := par, page := p }
    | none, [] =>
      if e.redun = 2 then
        { key := (c.locKey pg.loc).map (· + off), len := n, lost := false, copies := dest, parity := par, page := p }
      else { key := none, len := n, lost := true, copies := [], parity := none, page := p }

/-- The pages that n bytes from a flat address touch, as (page, offset, length) (fuel: their number). -/
def flatPieces : Nat → Nat → Nat → List (Nat × Nat × Nat)
  | 0, _, _ => []
  | f + 1, a, n =>
    if n = 0 then []
    else
      let m := min n (65536 - a % 65536)
      (a / 65536, a % 65536, m) :: flatPieces f (a + m) (n - m)

/-- The segments of n bytes from flat address a of a bay. -/
def Ctl.flatSegs (c : Ctl) (bay ei a n : Nat) : List Seg :=
  (flatPieces (n / 65536 + 2) a n).map (fun e => c.pageSeg bay ei e.1 e.2.1 e.2.2)

/-- Queue a migration: evacuation and rebuild go ahead of hints (R210). -/
def Ctl.queueMig (c : Ctl) (m : Mig) : Ctl :=
  { c with migQ := if m.urgent then c.migQ.filter (fun x => x.urgent) ++ [m] ++ c.migQ.filter (fun x => !x.urgent) else c.migQ ++ [m] }

/-- TIER_FULL: the event and its count (R203). -/
def Ctl.tierFull (c : Ctl) (bay : Nat) : Ctl := (c.event evTierFull [bay]).bump Reg.tirFull

/-- Allocate every unallocated page of a flat range; LOST pages without a replacement try again for one, poisoned
in every block (R203, R222). `none` where no tier has room. -/
def State.allocFlat (s : State) (bay ei : Nat) : List (Nat × Nat × Nat) → Option State
  | [] => some s
  | (p, _, _) :: t =>
    let pg := s.ctl.page bay p
    if pg.loc.tier ≠ .none then s.allocFlat bay ei t
    else if pg.lost then
      match ([Tier.hbm, .ddr].findSome? (fun k => s.ctl.pickIn bay [] k)) with
      | none => s.allocFlat bay ei t
      | some (l, d) =>
        let d := (d.take l).charge bay l.tier 1
        let d := d.putPage bay p { pg with loc := l, lost := true }
        let m := match d.locKey l with | some k => s.mem.addPoison k 65536 | none => s.mem
        ({ s with ctl := d, mem := m }).allocFlat bay ei t
    else
      match s.ctl.allocPage bay ei p with
      | none => none
      | some d => ({ s with ctl := d }).allocFlat bay ei t

/-- Read segments; `none` where a byte is poisoned or lost. -/
def Mem.readSegs (m : Mem) : List Seg → Option (List Byte)
  | [] => some []
  | g :: t =>
    match g.key with
    | none => if g.lost then none else (m.readSegs t).map (zeros g.len ++ ·)
    | some k => if m.poisoned k g.len then none else (m.readSegs t).map (m.read k g.len ++ ·)

/-- Update a parity run for data that changes from `old` to `new` at place i of its group (R220, R221). -/
def Mem.addParity (m : Mem) (kp kq i : Nat) (old new : List Byte) : Mem :=
  let delta := old.zipWith (· ^^^ ·) new
  let n := delta.length
  let m' := m.write kp ((m.read kp n).zipWith (· ^^^ ·) delta)
  m'.write kq ((m'.read kq n).zipWith (· ^^^ ·) (delta.map (gfMulPow i)))

/-- Whether a write of these segments meets poison it does not cover, or a LOST page (R172, R222). -/
def Mem.writeBlocked (m : Mem) (l : List Seg) : Bool :=
  l.any (fun g => match g.key with | none => g.lost | some k => !m.coversPoison k g.len)

/-- Apply one segment's data to every copy and to the parity, healing poisoned blocks it covers. -/
def Mem.writeSeg (m : Mem) (g : Seg) (data : List Byte) : Mem :=
  match g.key with
  | none => m
  | some k =>
    let old := m.read k g.len
    let m := (m.write k data).healPoison k g.len
    let m := g.copies.foldl (fun x q => (x.write q data).healPoison q g.len) m
    match g.parity with
    | none => m
    | some (kp, kq, i) => m.addParity kp kq i old data

/-- Apply data to segments in order. -/
def Mem.writeSegs (m : Mem) : List Seg → List Byte → Mem
  | [], _ => m
  | g :: t, data => (m.writeSeg g (data.take g.len)).writeSegs t (data.drop g.len)

end Sys2Proof.Machine
end

