-- ==== Sys2Proof/Machine/KvOps.lean ====
section
/-! DEFINITION. The KV space (spec/14): regions, their layout (R354), page records, allocation by head (R356),
copy on write (R357), release (R355), and reads and writes of the data area. -/

namespace Sys2Proof.Machine

/-- Where an instruction keeps the table entries of the regions it named at issue (R352). -/
def kvNames : Nat := 2 ^ 40

/-- Page size in bytes: 4 KiB × 2^PAGE. -/
def KvRegion.psize (r : KvRegion) : Nat := 4096 * 2 ^ r.page.toNat
/-- DHEAD = 2^(5 + DLOG). -/
def KvRegion.dhead (r : KvRegion) : Nat := 2 ^ (5 + r.dlog.toNat)
/-- BLK = HKV × 1,024 × DHEAD bytes (R354). -/
def KvRegion.blk (r : KvRegion) : Nat := r.hkv * 1024 * r.dhead
/-- BLKS: BLK rounded up to the page size. -/
def KvRegion.blks (r : KvRegion) : Nat := (r.blk + r.psize - 1) / r.psize * r.psize
/-- Bytes of the region. -/
def KvRegion.bytes (r : KvRegion) : Nat := r.capb * r.blks

/-- The KV region of table entry i of a bay. -/
def Ctl.kvFind (c : Ctl) (bay i : Nat) : Option KvRegion := c.kvRegions.find? (fun r => r.bay == bay && r.index == i)
/-- The live region of a bay that holds a KV-window offset. -/
def Ctl.kvAt (c : Ctl) (bay off : Nat) : Option KvRegion :=
  c.kvRegions.find? (fun r => r.bay == bay && r.base ≤ off && off < r.base + r.bytes)
/-- The region whose BASE is an offset (R353). -/
def Ctl.kvBase (c : Ctl) (bay off : Nat) : Option KvRegion := c.kvRegions.find? (fun r => r.bay == bay && r.base == off)

def Ctl.putRegion (c : Ctl) (r : KvRegion) : Ctl :=
  { c with kvRegions := c.kvRegions.map (fun (x : KvRegion) => if x.bay = r.bay && x.index = r.index then r else x) }

/-- The device-wide index of a region: FIRST of its bay's window plus its entry. -/
def Ctl.kvGlobal (c : Ctl) (r : KvRegion) : Nat := c.rd (Reg.kvsFirst r.bay) + r.index

def Ctl.kvPage? (c : Ctl) (n : Nat) : Option KvPage := c.kvPages.find? n
def Ctl.putKvPage (c : Ctl) (n : Nat) (p : KvPage) : Ctl := { c with kvPages := c.kvPages.put n p }

/-- 64 KiB pieces of a page size; a smaller page shares one. -/
def pieces64 (size : Nat) : Nat := max 1 (size / 65536)

/-- A run of k free pages among n: the lowest start (`taken` rising). -/
def freeRun (taken : List Nat) (k n : Nat) : Option Nat :=
  (0 :: taken.map (· + 1)).find? (fun p => p + k ≤ n && taken.all (fun t => t < p || p + k ≤ t))

/-- The stacks, ONLINE and with room for a run of k pages, in ascending order (R356). -/
def Ctl.kvStacks (c : Ctl) (k : Nat) (ban : List Nat) : List (Nat × Nat) :=
  (List.range 8).filterMap (fun s =>
    if c.rd (Reg.hbmState s) = 1 && !ban.contains s then
      (freeRun (c.stackTaken s) k (min (natAt c.phys.sweptHbm s) (c.stackPages s))).map (fun p => (s, p))
    else none)

/-- k consecutive free page slots in frame order and then slot order, from the lowest-numbered start (R356). -/
def Ctl.kvSlots (c : Ctl) (k : Nat) : Option (List Nat) :=
  let frames := c.phys.used.length + c.phys.dirty.length + c.phys.frames.length + 1 + k
  let slots := (List.range frames).flatMap (fun j =>
    let m := c.frameMask j
    let ok := match c.phys.evac with | some x => !bitOf m.toNat x.val | none => true
    if m != 0 && j < c.frameLimit m && ok then (List.range (popCount 12 m.toNat)).map (fun s => (j, s)) else [])
  let free (e : Nat × Nat) : Bool := !(c.frameTaken e.1).contains e.2
  ((List.range slots.length).find? (fun i => i + k ≤ slots.length && ((slots.drop i).take k).all free)).map
    (fun i => ((slots.drop i).take k).map (fun e => ddrKey e.1 e.2))

/-- A run of k pages in one backing extent of a tray. -/
def Ctl.kvTray (c : Ctl) (bay tray k : Nat) : Option (List Nat) :=
  if !(c.ep tray).live then none
  else c.exts.findSome? (fun (e : Nat × Extent) =>
    if e.2.backing && e.2.bay == bay && e.2.st == .active && nodeOf e.2.base == tray then
      let k0 := nodeKey tray (offsetOf e.2.base)
      let f (l : List Nat) : List Nat := (l.filter (fun x => k0 ≤ x && x < k0 + e.2.pages * 65536)).map (fun x => (x - k0) / 65536)
      (freeRun (insertAll (f c.phys.used) (f c.phys.dirty)) k (min e.2.swept e.2.pages)).map
        (fun p => (List.range k).map (fun i => k0 + (p + i) * 65536))
    else none)

/-- The failure unit of a physical key (Table 8.1). -/
def keyUnit (k : Nat) : Nat := if k < 2 ^ 44 then k / 2 ^ 36 else if k < 2 ^ 58 then 8 else 16 + (k - 2 ^ 60) / 2 ^ 44

/-- Pick k pieces in one tier for a page of head g of region i (R356). -/
def Ctl.kvPick (c : Ctl) (bay i g k : Nat) (ban : List Nat) (t : Tier) : Option (List Nat) :=
  match t with
  | .none => none
  | .hbm =>
    let l := c.kvStacks k ban
    if l.isEmpty then none
    else (l[(g + i) % l.length]?).map (fun e => (List.range k).map (fun j => hbmKey e.1 (e.2 + j)))
  | .ddr => if ban.contains 8 then none else c.kvSlots k
  | .pool =>
    let r := c.rotation bay
    (List.range r.length).findSome? (fun j =>
      let tray := r.getD ((g + i + j) % r.length) 0
      if ban.contains (16 + tray) then none else c.kvTray bay tray k)

/-- Mark keys in use and charge a bay. -/
def Ctl.takeKeys (c : Ctl) (bay : Nat) (t : Tier) (keys : List Nat) : Ctl :=
  let ph := { c.phys with used := insertAll c.phys.used keys }
  let fr := keys.foldl (fun (f : Tab (BitVec 12)) k =>
    if 2 ^ 44 ≤ k && k < 2 ^ 58 then
      let j := (k - 2 ^ 44) / 2 ^ 20
      if (f.find? j).isNone then f.put j c.onlineMask else f
    else f) ph.frames
  ({ c with phys := { ph with frames := fr } }).charge bay t keys.length

/-- Free 64 KiB keys of a bay: they await zeroing (R205, R355). -/
def Ctl.freeKeys (c : Ctl) (bay : Nat) (t : Tier) (keys : List Nat) : Ctl :=
  let c := c.uncharge bay t keys.length
  { c with phys := { c.phys with used := c.phys.used.filter (fun k => !keys.contains k), dirty := insertAll c.phys.dirty keys } }

/-- The tiers in the order R203 tries them. -/
def tierOrder (h : Nat) : List Tier := [hintTier h, .hbm, .ddr, .pool]

/-- A shared 64 KiB page with a free place for a small page of the same bay, region and size (R355). -/
def Ctl.kvShared (c : Ctl) (bay i size : Nat) : Option (Tier × Nat) :=
  c.kvPages.findSome? (fun (e : Nat × KvPage) =>
    if e.2.charged == bay && e.2.region == i && e.2.size == size && size < 65536 then
      let b := e.2.keys.headD 0 / 65536 * 65536
      ((List.range (65536 / size)).find? (fun j => c.kvPages.all (fun (x : Nat × KvPage) => x.2.keys != [b + j * size]))).map
        (fun j => (e.2.tier, b + j * size))
    else none)

/-- Place one page of a region: tier, keys (R356), with the second copy when the region is mirrored. -/
def Ctl.kvPlace (c : Ctl) (r : KvRegion) (g : Nat) (ban : List Nat) : Option (Tier × List Nat × Ctl) :=
  let i := c.kvGlobal r
  match (if ban.isEmpty then c.kvShared r.bay i r.psize else none) with
  | some (t, k) => some (t, [k], c)
  | none =>
    let n := pieces64 r.psize
    ((tierOrder r.hint.toNat).findSome? (fun t =>
      if c.quotaOk r.bay t n then (c.kvPick r.bay i g n ban t).map (fun ks => (t, ks)) else none)).map
      (fun (e : Tier × List Nat) => (e.1, e.2, c.takeKeys r.bay e.1 e.2))

/-- The lowest KV head that page number p of a region holds (R354). -/
def KvRegion.headOf (r : KvRegion) (p : Nat) : Nat := min (r.hkv - 1) (p * r.psize % r.blks / (1024 * r.dhead))

/-- A record number that no page has. -/
def Ctl.freeRec (c : Ctl) : Nat := lowestFree (List.map (·.1) c.kvPages) 0

/-- Allocate page p of a region: a new record with COUNT 1, mapped (R355). -/
def Ctl.kvAlloc (c : Ctl) (r : KvRegion) (p : Nat) : Option Ctl :=
  match c.kvPlace r (r.headOf p) [] with
  | none => none
  | some (t, ks, d) =>
    let second := if r.redun then d.kvPlace r (r.headOf p) (ks.map keyUnit) else some (.none, [], d)
    match second with
    | none => none
    | some (t2, ks2, d) =>
      let rec_ := d.freeRec
      let pg : KvPage :=
        { tier := t, keys := ks, alt := ks2, altTier := t2, size := r.psize, count := 1, ro := false, lost := false,
          migrating := false, destTier := .none, dest := [], copied := 0, charged := r.bay, region := d.kvGlobal r }
      some ((d.putKvPage rec_ pg).putRegion { r with pages := r.pages.put p rec_ })

/-- Release one reference to a page; at COUNT 0 it is freed and awaits zeroing (R355). A small page frees its 64 KiB
page only when no other record lies in it. -/
def Ctl.kvRelease (c : Ctl) (rec_ : Nat) : Ctl :=
  match c.kvPage? rec_ with
  | none => c
  | some pg =>
    if 1 < pg.count then c.putKvPage rec_ { pg with count := pg.count - 1 }
    else
      let c := { c with kvPages := c.kvPages.del rec_ }
      let whole (ks : List Nat) : List Nat :=
        if pg.size < 65536 then
          (ks.map (· / 65536 * 65536)).filter (fun b =>
            c.kvPages.all (fun x => x.2.keys.all (fun k => k / 65536 * 65536 != b) && x.2.alt.all (fun k => k / 65536 * 65536 != b)))
        else ks
      let c := c.freeKeys pg.charged pg.tier (whole pg.keys)
      let c := if pg.alt.isEmpty then c else c.freeKeys pg.charged pg.altTier (whole pg.alt)
      let c := if pg.dest.isEmpty then c else c.freeKeys pg.charged pg.destTier pg.dest
      c.bump Reg.kvsFreed

/-- Unmap page p of a region and release it. -/
def Ctl.kvUnmap (c : Ctl) (r : KvRegion) (p : Nat) : Ctl × KvRegion :=
  match r.pages.find? p with
  | none => (c, r)
  | some rec_ =>
    let r' := { r with pages := r.pages.del p }
    ((c.kvRelease rec_).putRegion r', r')

/-- The segments of n bytes from byte `off` of a page. -/
def KvPage.segs (pg : KvPage) (c : Ctl) (off n : Nat) : List Seg :=
  let at_ (ks : List Nat) (o : Nat) : Option Nat := (ks[o / 65536]?).map (fun k => if pg.size < 65536 then k + o else k + o % 65536)
  (flatPieces (n / 65536 + 2) off n).map (fun e =>
    let o := e.1 * 65536 + e.2.1
    let live (k : Option Nat) : Option Nat := k.filter c.keyLive
    let main := live (at_ pg.keys o)
    let alt := live (at_ pg.alt o)
    let dest := if pg.migrating then (live (at_ pg.dest o)).toList else []
    match main, alt with
    | some k, a => { key := some k, len := e.2.2, lost := pg.lost, copies := a.toList ++ dest, parity := none, page := 0 }
    | none, some a => { key := some a, len := e.2.2, lost := pg.lost, copies := dest, parity := none, page := 0 }
    | none, none => { key := none, len := e.2.2, lost := true, copies := [], parity := none, page := 0 })

/-- Pages of a region that n bytes from a region offset touch: (page, offset in it, length) (fuel: their number). -/
def kvPieces (ps : Nat) : Nat → Nat → Nat → List (Nat × Nat × Nat)
  | 0, _, _ => []
  | f + 1, o, n =>
    if n = 0 then []
    else
      let m := min n (ps - o % ps)
      (o / ps, o % ps, m) :: kvPieces ps f (o + m) (n - m)

/-- The segments of n bytes from offset o of a region. -/
def Ctl.kvSegs (c : Ctl) (r : KvRegion) (o n : Nat) : List Seg :=
  (kvPieces r.psize (n / r.psize + 2) o n).flatMap (fun e =>
    match (r.pages.find? e.1).bind c.kvPage? with
    | none => [{ key := none, len := e.2.2, lost := false, copies := [], parity := none, page := e.1 }]
    | some pg => pg.segs c e.2.1 e.2.2)

/-- Whether any page in a range of a region is RO (R357). -/
def Ctl.kvAnyRo (c : Ctl) (r : KvRegion) (o n : Nat) : Bool :=
  (kvPieces r.psize (n / r.psize + 2) o n).any (fun e =>
    match (r.pages.find? e.1).bind c.kvPage? with | some pg => pg.ro | none => false)

/-- Copy the bytes (and poison) of one page to another. -/
def copyKeys (m : Mem) (size : Nat) (dst src : List Nat) : Mem :=
  (dst.zip src).foldl (fun x e =>
    let n := min size 65536
    let x' := x.copy e.1 e.2 n
    let bad := (x.poison.filter (fun b => e.2 ≤ b * 64 && b * 64 < e.2 + n)).map (fun b => (b * 64 - e.2 + e.1) / 64)
    { x' with poison := insertAll x'.poison bad }) m

/-- Give page p of a region a copy of its own (R357 row 2): a new page, the bytes, COUNT of the old lowered. -/
def State.kvCow (s : State) (r : KvRegion) (p : Nat) (old : Nat) : Option State :=
  match s.ctl.kvPage? old with
  | none => none
  | some pg =>
    match s.ctl.kvAlloc r p with
    | none => none
    | some d =>
      let new := (d.kvFind r.bay r.index).bind (fun r' => (r'.pages.find? p).bind d.kvPage?)
      match new with
      | none => none
      | some np =>
        let m := copyKeys (copyKeys s.mem pg.size np.keys pg.keys) pg.size np.alt pg.keys
        some { s with ctl := (d.kvRelease old).bump Reg.kvsCow, mem := m }

/-- Make pages of a region writable: allocate the unallocated, copy the shared (R355, R357). `none`: no room. -/
def State.kvPrepare (s : State) (bay i : Nat) : List Nat → Option State
  | [] => some s
  | p :: t =>
    match s.ctl.kvFind bay i with
    | none => none
    | some r =>
      match r.pages.find? p with
      | none => match s.ctl.kvAlloc r p with
        | none => none
        | some d => ({ s with ctl := d }).kvPrepare bay i t
      | some rec_ =>
        match s.ctl.kvPage? rec_ with
        | none => none
        | some pg =>
          if 1 < pg.count then
            match s.kvCow r p rec_ with
            | none => none
            | some s' => s'.kvPrepare bay i t
          else s.kvPrepare bay i t

end Sys2Proof.Machine
end

