-- ==== Sys2Proof/Machine/Access.lean ====
section
/-! DEFINITION. The checks of Table 5.9 and R350, and memory behind an address: flat pages, KV pages, node memory. -/

namespace Sys2Proof.Machine

/-- What an address that passed Table 5.9 names. -/
inductive Target where
  | window (off : Nat)
  | kv (off : Nat)
  | flat (ext : Nat)
  | node (ep ext : Nat)
  deriving DecidableEq, Repr

/-- The outcome of the checks: passed, with the target, the member class and whether the old map served; or the answer
(status, detail, ADDR) and the endpoint that JOB_FAULT names. -/
inductive Check where
  | pass (t : Target) (cls : Nat) (old : Bool)
  | fail (status detail : Byte) (addr : Word) (job : Option Nat)
  deriving DecidableEq, Repr

/-- ADDR of a REMAP answer: the current generation. -/
def BayRec.remapAddr (b : BayRec) : Word := match b.cur with | some m => BitVec.ofNat 64 m.gen.toNat | none => 0

/-- Steps 2-4 of Table 5.9, and the FATAL halt (R171): the map of GEN with SRC's class in it. -/
def Ctl.checkMember (c : Ctl) (bay : Nat) (gen : BitVec 16) (src : Nat) : Except (Byte × Byte × Word) (CMap × Nat × Bool) :=
  let b := c.bay bay
  match b.st with
  | .shakeout => .error (stBAYTRANS, dNONE, 0)
  | .free => .error (stACCESS, dNONE, 0)
  | .active =>
    if b.halted then .error (stPOISONED, dFATALHALT, 0)
    else
      let pick : Option (CMap × Bool) :=
        match b.cur with
        | some m => if m.gen = gen then some (m, false)
          else (match b.old with | some o => if o.gen = gen then some (o, true) else none | none => none)
        | none => none
      match pick with
      | none => .error (stREMAP, dNONE, b.remapAddr)
      | some (m, old) =>
        match m.classOf src with
        | some k => .ok (m, k, old)
        | none =>
          let live := match b.cur with | some m => (m.classOf src).isSome | none => false
          if live then .error (stREMAP, dNONE, b.remapAddr) else .error (stACCESS, dNONE, 0)

/-- The extent of a bay, in state ACTIVE, that covers every byte of an access (step 7). -/
def Ctl.extCover (c : Ctl) (bay : Nat) (a : Word) (n : Nat) : Option Nat :=
  (List.find? (fun (e : Nat × Extent) => e.2.bay == bay && e.2.st == .active && e.2.base.toNat ≤ a.toNat
    && a.toNat + n ≤ e.2.limit.toNat) c.exts).map (·.1)

/-- Steps 6-9 of Table 5.9 for an access of n bytes at `a` by member class `cls`. -/
def Ctl.checkAddr (c : Ctl) (bay : Nat) (cls : Nat) (old : Bool) (a : Word) (n : Nat) (right : Option Nat) : Check :=
  if reservedBits a then .fail stACCESS dNONE 0 none
  else if isNode a && nodeOf a = 0xFFF then
    if offsetOf a < 0x10000 then .pass (.window (offsetOf a)) cls old else .pass (.kv (offsetOf a)) cls old
  else
    match c.extCover bay a n with
    | none => .fail stACCESS dNONE 0 none
    | some i =>
      if (match right with | some r => !rightOf (c.ext i).rights cls r | none => false) then .fail stACCESS dNONE 0 none
      else if isNode a then
        if (c.ep (nodeOf a)).live then .pass (.node (nodeOf a) i) cls old
        else .fail stPOISONED dNONE 0 (some (nodeOf a))
      else .pass (.flat i) cls old

/-- Table 5.9 for a request whose ADDR is a fabric address (R129). -/
def Ctl.check59 (c : Ctl) (f : Frame) (n : Nat) (right : Option Nat) : Check :=
  match c.checkMember f.bay.toNat f.gen f.src.toNat with
  | .error (s, d, a) => .fail s d a none
  | .ok (m, k, old) =>
    let b := c.bay f.bay.toNat
    let lost := old && isNode f.addr && m.lists (nodeOf f.addr)
      && !(match b.cur with | some x => (x.classOf (nodeOf f.addr)).isSome | none => false)
    if lost then .fail stREMAP dNONE b.remapAddr none
    else c.checkAddr f.bay.toNat k old f.addr n right

/-- An access the SG7 makes on a bay's behalf, serving a member (R130): the current map and the class it gives. -/
def Ctl.checkUnit (c : Ctl) (bay owner : Nat) (a : Word) (n : Nat) (right : Option Nat) : Check :=
  let b := c.bay bay
  if b.halted then .fail stPOISONED dFATALHALT 0 none
  else
    match b.cur with
    | none => .fail stREMAP dNONE 0 none
    | some m =>
      match m.classOf owner with
      | none => .fail stREMAP dNONE b.remapAddr none
      | some k => c.checkAddr bay k false a n right

/-- R350: member class and place of a KV-window access of n bytes; the region for a data access. -/
inductive KvCheck where
  | table (i : Nat)
  | data (r : KvRegion)
  | fail (status detail : Byte)
  deriving DecidableEq, Repr

def Ctl.checkKv (c : Ctl) (bay cls off n : Nat) (write : Bool) : KvCheck :=
  if (if write then 1 < cls else 2 < cls) then .fail stACCESS dNONE
  else if off < 0x1000000 then
    if n = 16 && off % 16 = 0 && (off - 0x10000) / 16 < c.rd (Reg.kvsCount bay) then .table ((off - 0x10000) / 16)
    else .fail stACCESS dMALFORMED
  else
    match c.kvAt bay off with
    | none => .fail stACCESS dNONE
    | some r => if off + n ≤ r.base + r.bytes && r.dying.isNone then .data r else .fail stACCESS dNONE

/-- The words of a region's descriptor (Table 14.1); a free entry reads zero. -/
def Ctl.kvDescriptor (c : Ctl) (bay i : Nat) : List Byte :=
  match c.kvFind bay i with
  | none => zeros 16
  | some r =>
    leBytes 8 (r.base + r.page.toNat * 2 ^ 44 + r.hint.toNat * 2 ^ 48 + b2n r.redun * 2 ^ 51 + b2n r.fatal * 2 ^ 52)
    ++ leBytes 8 (r.capb + r.hkv * 2 ^ 20 + r.dlog.toNat * 2 ^ 32 + 2 ^ 63)

/-! ### Memory behind a target -/

/-- Segments of n bytes at `a` behind a target. -/
def Ctl.targetSegs (c : Ctl) (bay : Nat) (t : Target) (a : Word) (n : Nat) : List Seg :=
  match t with
  | .window _ => []
  | .kv off => match c.kvAt bay off with | some r => c.kvSegs r (off - r.base) n | none => []
  | .flat i => c.flatSegs bay i a.toNat n
  | .node ep _ => [{ key := some (nodeKey ep (offsetOf a)), len := n, lost := false, copies := [], parity := none, page := 0 }]

/-- The bytes behind a target; `none` where memory is lost or poisoned. -/
def State.rawRead (s : State) (bay : Nat) (t : Target) (a : Word) (n : Nat) : Option (List Byte) :=
  s.mem.readSegs (s.ctl.targetSegs bay t a n)

/-- What a write behind a target comes to. -/
inductive WriteRes where
  | done (s : State)
  | full
  | refused
  | lost
  deriving DecidableEq, Repr

/-- Write bytes behind a target: pages are allocated or copied first (R202, R355, R357), poison that is not covered
stops it (R172). -/
def State.rawWrite (s : State) (bay : Nat) (t : Target) (a : Word) (data : List Byte) : WriteRes :=
  let n := data.length
  let put (s : State) : WriteRes :=
    let segs := s.ctl.targetSegs bay t a n
    if s.mem.writeBlocked segs then .lost else .done { s with mem := s.mem.writeSegs segs data }
  match t with
  | .window _ => .refused
  | .node _ _ => put s
  | .flat i =>
    match s.allocFlat bay i (flatPieces (n / 65536 + 2) a.toNat n) with
    | none => .full
    | some s => put s
  | .kv off =>
    match s.ctl.kvAt bay off with
    | none => .refused
    | some r =>
      if s.ctl.kvAnyRo r (off - r.base) n then .refused
      else
        match s.kvPrepare bay r.index (List.map (·.1) (kvPieces r.psize (n / r.psize + 2) (off - r.base) n)) with
        | none => .full
        | some s => put s

/-- The policy that decides when memory behind a target is lost (R171): the extent's or the KV region's. -/
def Ctl.targetFatal (c : Ctl) (bay : Nat) (t : Target) : Bool :=
  match t with
  | .flat i | .node _ i => (c.ext i).fatal
  | .kv off => match c.kvAt bay off with | some r => r.fatal | none => false
  | .window _ => false

/-- The endpoint class an operator configured (Table 5.13): 1 is TRAY. -/
def Ctl.isTray (c : Ctl) (ep : Nat) : Bool := c.rd (Reg.epClass ep) == 1

/-- Trays behind the segments of an access, in order. -/
def segTrays (l : List Seg) : List Nat := insertAll [] (l.filterMap (fun g => g.key.bind keyTray))

/-! ### The Peg table (R166, R167) -/

def Ctl.pegFind (c : Ctl) (src : Nat) (inc : BitVec 8) (tag : BitVec 16) : Option PegEntry :=
  c.peg.find? (fun (p : PegEntry) => p.src == src && p.inc == inc && p.tag == tag)

def Ctl.pegDrop (c : Ctl) (src : Nat) (tag : BitVec 16) : Ctl :=
  { c with peg := c.peg.filter (fun (p : PegEntry) => !(p.src == src && p.tag == tag)) }

/-- Record the outcome of an executing atomic: OK, ACCESS and POISONED are kept, any other status removes the entry. -/
def Ctl.pegRecord (c : Ctl) (f : Frame) (status : Byte) (old : BitVec 128) (aflags : Byte) : Ctl :=
  if status = stOK || status = stACCESS || status = stPOISONED then
    { c with peg := c.peg.map (fun (p : PegEntry) =>
        if p.src = f.src.toNat && p.inc = f.inc && p.tag = f.tag then { p with done := true, status := status, old := old, aflags := aflags } else p) }
  else c.pegDrop f.src.toNat f.tag

/-! ### Closing requests -/

/-- Remove an open request with what it holds: its own requests to trays, its line lock, its place in an allocation
queue. -/
def Ctl.closeReq (c : Ctl) (id : Nat) : Ctl :=
  { c with opens := c.opens.filter (fun (o : OpenReq) => o.id != id),
           owns := c.owns.filter (fun (o : OwnReq) => match o.why with
             | .read r _ | .write r _ | .writeBack r _ => r != id
             | _ => true),
           locks := c.locks.filter (fun (l : LineLock) => l.req != id),
           dirQ := c.dirQ.filter (fun (q : Nat × Nat) => q.2 != id),
           pubReads := c.pubReads.filter (fun (p : PubRead) => p.req != id) }

/-- Fail an open or arriving request and close it; an executing atomic records the outcome. -/
def Ctl.failReq (c : Ctl) (id : Nat) (f : Frame) (status detail : Byte) (addr : Word) : Ctl :=
  let c := if f.kind = kAtomic && f.dst = 0xFFF && (c.pegFind f.src.toNat f.inc f.tag).any (fun p => !p.done)
    then c.pegRecord f status 0 0 else c
  let pl := if (f.kind = kRead || f.kind = kReadPub) && status = stPOISONED then zeros (rlenOf f) else []
  (c.closeReq id).answer f status detail addr 0 pl none none

/-- A transport FENCE ends (R158, R159). -/
def Ctl.endFence (c : Ctl) (w : FenceWait) (status detail : Byte) (addr : Word) : Ctl :=
  ({ c with fences := c.fences.filter (fun (x : FenceWait) => x.id != w.id) }).answer w.frame status detail addr 0 [] none none

/-- Halt a bay under FATAL policy (R171): every in-flight request is answered POISONED, FATAL_HALT. -/
def Ctl.haltBay (c : Ctl) (bay : Nat) : Ctl :=
  if (c.bay bay).halted then c
  else
    let c := c.putBay bay { c.bay bay with halted := true }
    let mine := c.opens.filter (fun (o : OpenReq) => o.frame.bay.toNat == bay)
    let c := mine.foldl (fun d (o : OpenReq) => d.failReq o.id o.frame stPOISONED dFATALHALT 0) c
    let c := (c.fences.filter (fun (w : FenceWait) => w.frame.bay.toNat == bay)).foldl (fun d (w : FenceWait) => d.endFence w stPOISONED dFATALHALT 0) c
    c.event evBayHalt [bay]

/-- Memory lost for an access of a bay (R171): JOB_FAULT under POISON, the halt under FATAL; answers the detail. -/
def Ctl.memLost (c : Ctl) (bay ep : Nat) (fatal : Bool) : Ctl × Byte :=
  if fatal then (c.haltBay bay, dFATALHALT) else (c.jobFault bay ep, dNONE)

end Sys2Proof.Machine
end

