-- ==== Sys2Proof/Machine/KvDescOps.lean ====
section
/-! DEFINITION. KV region descriptors (spec/14 §14.1, R351, R352, R358) and the KV windows of bays (R367). -/

namespace Sys2Proof.Machine

/-- A region as a written descriptor gives it (Table 14.1). -/
def kvOfBytes (bay i : Nat) (d : List Byte) : KvRegion :=
  let w0 := leAt d 0 8
  let w1 := leAt d 8 8
  { bay := bay, index := i, base := field w0 0 44, page := BitVec.ofNat 4 (field w0 44 4), hint := BitVec.ofNat 3 (field w0 48 3),
    redun := bitOf w0 51, fatal := bitOf w0 52, capb := field w1 0 17, hkv := field w1 20 9, dlog := BitVec.ofNat 2 (field w1 32 2),
    dying := none, pages := [] }

/-- The ranges of Table 14.1 and the places that a write must keep (R351). -/
def Ctl.kvDescOk (c : Ctl) (r : KvRegion) (d : List Byte) : Bool :=
  let w0 := leAt d 0 8
  let w1 := leAt d 8 8
  field w0 53 11 == 0 && field w1 17 3 == 0 && field w1 29 3 == 0 && field w1 34 30 == 0
  && 0x1000000 ≤ r.base && r.page.toNat ≤ 9 && r.base % r.psize == 0 && r.hint.toNat ≤ 4
  && r.capb ≤ 65536 && 1 ≤ r.hkv && r.hkv ≤ 256 && r.base + r.bytes ≤ 2 ^ 44
  && c.kvRegions.all (fun (x : KvRegion) => x.bay != r.bay || x.index == r.index || r.base + r.bytes ≤ x.base || x.base + x.bytes ≤ r.base)

/-- Whether an instruction in flight named the region at its issue (R352). -/
def Ctl.kvNamed (c : Ctl) (bay i : Nat) : Bool :=
  c.ques.any (fun (e : Nat × Que) => c.rd (Reg.queBay e.1) == bay
    && e.2.insts.any (fun (x : QInst) => (Tab.get x.data kvNames []).contains i))

/-- Release every page of a region and remove it (R352, R355). -/
def Ctl.kvDestroy (c : Ctl) (r : KvRegion) : Ctl :=
  let c := r.pages.foldl (fun (d : Ctl) (e : Nat × Nat) => d.kvRelease e.2) c
  { c with kvRegions := c.kvRegions.filter (fun (x : KvRegion) => !(x.bay == r.bay && x.index == r.index)) }

/-- Free the second copy of a page. -/
def Ctl.kvFreeAlt (c : Ctl) (rec_ : Nat) (pg : KvPage) : Ctl :=
  let c := c.putKvPage rec_ { pg with alt := [], altTier := .none }
  let whole := if pg.size < 65536 then
      (pg.alt.map (· / 65536 * 65536)).filter (fun b =>
        c.kvPages.all (fun (x : Nat × KvPage) => (x.2.keys ++ x.2.alt).all (fun k => k / 65536 * 65536 != b)))
    else pg.alt
  c.freeKeys pg.charged pg.altTier whole

/-- Give a page its second copy or take it away (R358). -/
def State.kvRedun (s : State) (r : KvRegion) (p rec_ : Nat) : State :=
  match s.ctl.kvPage? rec_ with
  | none => s
  | some pg =>
    if pg.count ≠ 1 then s
    else if r.redun && pg.alt.isEmpty then
      match s.ctl.kvPlace r (r.headOf p) (pg.keys.map keyUnit) with
      | none => s
      | some (t, ks, d) => { s with ctl := d.putKvPage rec_ { pg with alt := ks, altTier := t }, mem := copyKeys s.mem pg.size ks pg.keys }
    else if !r.redun && !pg.alt.isEmpty then s.onCtl (·.kvFreeAlt rec_ pg)
    else s

/-- A re-hint (R358): HINT, REDUN and POLICY change; unshared pages outside the new tier are queued for migration. -/
def State.kvRehint (s : State) (old new : KvRegion) : State :=
  let r := { old with hint := new.hint, redun := new.redun, fatal := new.fatal }
  let s := s.onCtl (·.putRegion r)
  let s := if old.hint = new.hint then s
    else s.onCtl (fun c => r.pages.foldl (fun (d : Ctl) (e : Nat × Nat) =>
      match d.kvPage? e.2 with
      | some pg =>
        if pg.count = 1 && !pg.lost && pg.tier != hintTier r.hint.toNat && !pg.migrating
            && !d.migQ.any (fun (m : Mig) => m.page == PageRef.kv e.2) && d.migQ.length < 4096 then
          d.queueMig { page := .kv e.2, target := hintTier r.hint.toNat, urgent := false }
        else d
      | none => d) c)
  if old.redun = new.redun then s
  else r.pages.foldl (fun (t : State) (e : Nat × Nat) => t.kvRedun r e.1 e.2) s

/-- What a descriptor write comes to (Table 14.2): applied; malformed; a destroy that waits. -/
inductive KvDescRes where
  | ok (s : State)
  | malformed
  | waits (s : State)
  deriving DecidableEq, Repr

/-- A write of 16 bytes to region-table entry i of a bay (R351). A destroy that waits marks the region. -/
def State.kvDescWrite (s : State) (bay i : Nat) (d : List Byte) : KvDescRes :=
  let r := kvOfBytes bay i d
  match s.ctl.kvFind bay i with
  | none =>
    if r.capb = 0 then .ok s
    else if s.ctl.kvDescOk r d then .ok (s.onCtl (fun c => { c with kvRegions := c.kvRegions ++ [r] }))
    else .malformed
  | some x =>
    if r.capb = 0 then
      if leAt d 0 16 = 0 then
        if s.ctl.kvNamed bay i then
          let (n, c) := s.ctl.fresh
          .waits { s with ctl := c.putRegion { x with dying := some (x.dying.getD n) } }
        else .ok (s.onCtl (·.kvDestroy x))
      else .malformed
    else if s.ctl.kvDescOk r d && x.base = r.base && x.page = r.page && x.capb = r.capb && x.hkv = r.hkv && x.dlog = r.dlog && x.dying.isNone then
      .ok (s.kvRehint x r)
    else .malformed

/-! ### KVS_BAY -/

/-- Whether a window would overlap another bay's. -/
def windowClash (count : Nat → Nat) (first : Nat → Nat) (others : List Nat) (f n : Nat) : Bool :=
  n ≠ 0 && others.any (fun o => count o ≠ 0 && f < first o + count o && first o < f + n)

/-- A write to KVS_BAY of a bay (R367). -/
def Ctl.writeKvsBay (c : Ctl) (b : Nat) (word : Nat) (v : Word) : Ctl :=
  let x := v.toNat
  let free := (c.bay b).st = .free
  if word = 0 then
    let n := min (field x 32 21) 1044480
    let f := field x 0 20
    let n := min n (1048576 - f)
    let others := c.regs.filterMap (fun (e : Nat × Word) =>
      if inArray e.1 0x0B810000 0x10 4096 0 && (e.1 - 0x0B810000) / 0x10 != b then some ((e.1 - 0x0B810000) / 0x10) else none)
    if !free || windowClash (fun o => c.rd (Reg.kvsCount o)) (fun o => c.rd (Reg.kvsFirst o)) others f n then c.refuse Reg.kvsWinRefused
    else c.putReg (0x0B810000 + 0x10 * b) (BitVec.ofNat 64 (f + n * 2 ^ 32))
  else if !free && field x 0 8 ≠ c.rd (Reg.kvsSset b) then c.refuse Reg.kvsWinRefused
  else c.putReg (0x0B810008 + 0x10 * b) (BitVec.ofNat 64 (field x 0 9 + min (field x 16 23) 4194304 * 2 ^ 16))

end Sys2Proof.Machine
end

