-- ==== Sys2Proof/Machine/Numerics.lean ====
section
/-! DEFINITION. Numerics (spec/11 §11.1-§11.3): the floating formats, exact decoding, the one rounding operation of
R289-R291, exact sums and products, canonical NaN. Exact finite values are integers times powers of two, or ratios
of naturals where a quotient is rounded. -/

namespace Sys2Proof.Machine

/-- The floating element formats of Table 11.1. -/
inductive Fmt where
  | fp32 | bf16 | fp16 | e4m3 | e5m2 | e2m3 | e3m2 | e2m1
  deriving DecidableEq, Repr

/-- Exponent bits, mantissa bits, bias. -/
def Fmt.eb : Fmt → Nat
  | .fp32 => 8 | .bf16 => 8 | .fp16 => 5 | .e4m3 => 4 | .e5m2 => 5 | .e2m3 => 2 | .e3m2 => 3 | .e2m1 => 2
def Fmt.mb : Fmt → Nat
  | .fp32 => 23 | .bf16 => 7 | .fp16 => 10 | .e4m3 => 3 | .e5m2 => 2 | .e2m3 => 3 | .e3m2 => 2 | .e2m1 => 1
def Fmt.bias : Fmt → Nat
  | .fp32 => 127 | .bf16 => 127 | .fp16 => 15 | .e4m3 => 7 | .e5m2 => 15 | .e2m3 => 1 | .e3m2 => 3 | .e2m1 => 1
def Fmt.width (f : Fmt) : Nat := 1 + f.eb + f.mb
/-- Formats whose all-ones exponent holds infinity and NaN. -/
def Fmt.ieee : Fmt → Bool
  | .fp32 | .bf16 | .fp16 | .e5m2 => true
  | _ => false
/-- The code of the largest finite magnitude. -/
def Fmt.maxCode (f : Fmt) : Nat :=
  if f.ieee then (2 ^ f.eb - 1) * 2 ^ f.mb - 1
  else if f = .e4m3 then 0x7E else 2 ^ (f.eb + f.mb) - 1
/-- The canonical NaN (Table 11.3); an MX element has none of its own and reads 0. -/
def Fmt.nan : Fmt → Nat
  | .fp32 => 0x7FC00000 | .bf16 => 0x7FC0 | .fp16 => 0x7E00 | .e4m3 => 0x7F | .e5m2 => 0x7E | _ => 0

/-- A decoded number: (−1)^neg × m × 2^e, an infinity, or NaN. -/
inductive Num where
  | fin (neg : Bool) (m : Nat) (e : Int)
  | inf (neg : Bool)
  | nan
  deriving DecidableEq, Repr

/-- Decoding (R285, R288). -/
def Fmt.decode (f : Fmt) (x : Nat) : Num :=
  let neg := bitOf x (f.eb + f.mb)
  let e := field x f.mb f.eb
  let m := field x 0 f.mb
  let bias : Int := f.bias
  let mb : Int := f.mb
  if f.ieee && e = 2 ^ f.eb - 1 then (if m = 0 then .inf neg else .nan)
  else if f = .e4m3 && e = 15 && m = 7 then .nan
  else if e = 0 then .fin neg m (1 - bias - mb)
  else .fin neg (2 ^ f.mb + m) ((e : Int) - bias - mb)

def Num.isNan : Num → Bool
  | .nan => true
  | _ => false
def Num.isZero : Num → Bool
  | .fin _ 0 _ => true
  | _ => false
def Num.neg? : Num → Bool
  | .fin n _ _ => n
  | .inf n => n
  | .nan => false

/-- The function mix of R291. -/
def mix (s i : Nat) : Nat :=
  let w := 2 ^ 64
  let h := Nat.xor (s % w) (i * 0x9E3779B97F4A7C15 % w)
  let h := Nat.xor h (h / 2 ^ 30) * 0xBF58476D1CE4E5B9 % w
  let h := Nat.xor h (h / 2 ^ 27) * 0x94D049BB133111EB % w
  Nat.xor h (h / 2 ^ 31)

/-- Rounding modes (Table 10.6 ROUND), stochastic with its seed and element index. -/
inductive Rnd where
  | even
  | zero
  | stoch (seed idx : Nat)
  deriving DecidableEq, Repr

/-- floor(log2(n / d)) for n, d > 0. -/
def log2Ratio (n d : Nat) : Int :=
  let e : Int := (Nat.log2 n : Int) - (Nat.log2 d : Int)
  let le := if 0 ≤ e then d * 2 ^ e.toNat ≤ n else d ≤ n * 2 ^ (-e).toNat
  if le then e else e - 1

/-- The code of magnitude n / d (n > 0) rounded into a format, sign not included (R289, R291, Table 11.2). -/
def Fmt.roundMag (f : Fmt) (r : Rnd) (n d : Nat) : Nat :=
  let emin : Int := 1 - (f.bias : Int)
  let e := max (log2Ratio n d) emin
  let k : Int := (f.mb : Int) - e
  let (nn, dd) := if 0 ≤ k then (n * 2 ^ k.toNat, d) else (n, d * 2 ^ (-k).toNat)
  let q := nn / dd
  let rem := nn % dd
  let up := match r with
    | .even => decide (dd < 2 * rem) || (decide (2 * rem = dd) && q % 2 == 1)
    | .zero => false
    | .stoch seed idx => decide (mix seed idx / 2 ^ 32 < rem * 2 ^ 32 / dd)
  let code := (e - emin).toNat * 2 ^ f.mb + q + b2n up
  if code ≤ f.maxCode then code
  else if f.ieee && r = .even then f.maxCode + 1 else f.maxCode

/-- The sign bit of a format. -/
def Fmt.sign (f : Fmt) (neg : Bool) : Nat := if neg then 2 ^ (f.eb + f.mb) else 0

/-- (−1)^neg × n / d rounded into a format; zero keeps the sign. -/
def Fmt.roundRat (f : Fmt) (r : Rnd) (neg : Bool) (n d : Nat) : Nat :=
  f.sign neg + (if n = 0 then 0 else f.roundMag r n d)

/-- An infinity in a format: the largest finite where there is none (Table 11.2). -/
def Fmt.inf (f : Fmt) (neg : Bool) : Nat := f.sign neg + (if f.ieee then f.maxCode + 1 else f.maxCode)

/-- m × 2^e as a ratio. -/
def ratOf (m : Nat) (e : Int) : Nat × Nat := if 0 ≤ e then (m * 2 ^ e.toNat, 1) else (m, 2 ^ (-e).toNat)

/-- A number rounded into a format. -/
def Fmt.encode (f : Fmt) (r : Rnd) : Num → Nat
  | .nan => f.nan
  | .inf n => f.inf n
  | .fin n m e => let p := ratOf m e; f.roundRat r n p.1 p.2

/-- v × 2^e for a signed v; an exact zero takes the sign given. -/
def Num.ofInt (v : Int) (e : Int) (negZero : Bool) : Num :=
  if v = 0 then .fin negZero 0 0 else .fin (decide (v < 0)) v.natAbs e

/-- A finite number as an integer multiple of 2^e0 (e0 at most its exponent). -/
def scaled (neg : Bool) (m : Nat) (e e0 : Int) : Int :=
  let v : Int := (m * 2 ^ (e - e0).toNat : Nat)
  if neg then -v else v

/-- The exact sum of two numbers (R289 zero rule). -/
def Num.add : Num → Num → Num
  | .nan, _ => .nan
  | _, .nan => .nan
  | .inf a, .inf b => if a = b then .inf a else .nan
  | .inf a, _ => .inf a
  | _, .inf b => .inf b
  | .fin a m e, .fin b n g =>
    let lo := min e g
    Num.ofInt (scaled a m e lo + scaled b n g lo) lo (a && b)

/-- The exact product. -/
def Num.mul : Num → Num → Num
  | .nan, _ => .nan
  | _, .nan => .nan
  | .inf a, .inf b => .inf (a != b)
  | .inf a, .fin b m _ => if m = 0 then .nan else .inf (a != b)
  | .fin a m _, .inf b => if m = 0 then .nan else .inf (a != b)
  | .fin a m e, .fin b n g => .fin (a != b) (m * n) (e + g)

def Num.negate : Num → Num
  | .nan => .nan
  | .inf a => .inf (!a)
  | .fin a m e => .fin (!a) m e

/-- Whether x < y for numbers that are not NaN; the zeros are equal. -/
def Num.lt : Num → Num → Bool
  | .nan, _ => false
  | _, .nan => false
  | .inf a, .inf b => a && !b
  | .inf a, _ => a
  | _, .inf b => !b
  | .fin a m e, .fin b n g => let lo := min e g; decide (scaled a m e lo < scaled b n g lo)

/-- Two numbers have the same value. -/
def Num.eqv : Num → Num → Bool
  | .nan, _ => false
  | _, .nan => false
  | x, y => !x.lt y && !y.lt x

/-! ### The exact accumulator (R293-R296) -/

/-- A Crucible lane: the sum in units of 2^scale, its flags. -/
structure Acc where
  sum : Int
  pinf : Bool
  ninf : Bool
  nan : Bool
  neg0 : Bool
  nanIn : Bool
  deriving DecidableEq, Repr

def Acc.clear : Acc := { sum := 0, pinf := false, ninf := false, nan := false, neg0 := true, nanIn := false }

/-- Add an exact addend in units of 2^scale (R294, R296). `fromNan` says that an input was NaN. -/
def Acc.add (a : Acc) (scale : Int) (x : Num) (fromNan : Bool) : Acc :=
  match x with
  | .nan => { a with nan := true, neg0 := false, nanIn := a.nanIn || fromNan }
  | .inf n => { a with pinf := a.pinf || !n, ninf := a.ninf || n, neg0 := false }
  | .fin n m e => { a with sum := a.sum + scaled n m e scale, neg0 := a.neg0 && n && m == 0 }

/-- Read-out (R295), the value divided by `div` (1 for a plain sum). -/
def Acc.read (a : Acc) (scale : Int) (f : Fmt) (r : Rnd) (div : Nat) : Nat :=
  if a.nan || (a.pinf && a.ninf) then f.nan
  else if a.pinf then f.inf false
  else if a.ninf then f.inf true
  else if a.sum = 0 then f.sign a.neg0
  else
    let p := ratOf a.sum.natAbs scale
    f.roundRat r (decide (a.sum < 0)) p.1 (p.2 * div)

/-- FP32 addition rounded to nearest even, NaN propagated as the canonical NaN (Table 6.6 FADD). -/
def fp32Add (x y : Nat) : Nat := Fmt.fp32.encode .even ((Fmt.fp32.decode x).add (Fmt.fp32.decode y))

end Sys2Proof.Machine
end

