-- ==== Sys2Proof/Machine/MbxOps.lean ====
section
/-! DEFINITION. Mailboxes (spec/16 §16.6) and the other words of the bay window (Table 5.6): reads and writes by an
endpoint and by a tile, wake events, acknowledgement, clearing. -/

namespace Sys2Proof.Machine

/-- The placement of a bay's handle. -/
def Ctl.placeOf (c : Ctl) (bay h : Nat) : Option Place := c.places.find? (fun (p : Place) => p.bay == bay && p.handle == h)

/-- Replace a placement. -/
def Ctl.putPlace (c : Ctl) (p : Place) : Ctl :=
  { c with places := c.places.map (fun (x : Place) => if x.bay = p.bay && x.handle = p.handle then p else x) }

/-- The next instruction of a tile. -/
def Tile.next (t : Tile) : Tile := { t with pc := t.pc + 8 }

/-- A wake event at a placement (R416): its sleeping tiles resume, or the event is latched. -/
def Ctl.wake (c : Ctl) (bay h : Nat) : Ctl :=
  match c.placeOf bay h with
  | none => c
  | some p =>
    let sl := p.tiles.filter (fun t => (c.tile t).asleep)
    if sl.isEmpty then c.putPlace { p with latch := true }
    else
      let c := c.putPlace { p with latch := false }
      sl.foldl (fun d t => d.putTile t { (d.tile t).next with asleep := false }) c

/-- The placement that receives a post, or none for Jorren (R415). -/
def Mbx.receiver (m : Mbx) : Option (Nat × Nat) :=
  match m.bound with
  | some (b, h) => if b = m.bay then some (b, h) else none
  | none => none

/-- Raise the wake event of a post at its receiver; Jorren's changes no state (R416). -/
def Ctl.wakeReceiver (c : Ctl) (ep : Nat) : Ctl :=
  match (c.mbx ep).receiver with
  | some (b, h) => c.wake b h
  | none => c

/-- Acknowledge a post: ACK := (CODE, SEQ), GO := 0 in one step (R414); while GO = 0 it is ignored and counted (R417). -/
def Ctl.ackPost (c : Ctl) (ep : Nat) (code : BitVec 16) : Ctl :=
  let m := c.mbx ep
  if m.go then c.putMbx ep { m with go := false, ackCode := code, ackSeq := m.seq } else c.bump (Reg.mbxCtr 3)

/-- A post (R414): the bay and SEQ are recorded, GO is set and the receiver is woken. -/
def Ctl.post (c : Ctl) (ep bay : Nat) (seq : BitVec 16) : Ctl :=
  ((c.putMbx ep { c.mbx ep with go := true, seq := seq, bay := bay, since := c.now }).bump (Reg.mbxCtr 0)).wakeReceiver ep

/-- Clear a mailbox without acknowledgement (R420). -/
def Ctl.clearMbx (c : Ctl) (ep : Nat) : Ctl := c.putMbx ep Mbx.init

/-- Whether offset and size name a message word or pair of Table 5.6. -/
def msgAccess (off n : Nat) : Bool :=
  0x1000 ≤ off && off + n ≤ 0x1040 && off % 4 == 0 && (n == 1 || n == 2 || n == 4 || n == 8) && off % n == 0

/-- The bytes of the sixteen message words. -/
def Mbx.bytes (m : Mbx) : List Byte := m.msg.flatMap (fun w => leBytes 4 w.toNat)

/-- Write bytes into the message words. -/
def Mbx.setBytes (m : Mbx) (off : Nat) (data : List Byte) : Mbx :=
  let b := m.bytes
  let b := b.take off ++ data ++ b.drop (off + data.length)
  { m with msg := (List.range 16).map (fun i => BitVec.ofNat 32 (leAt b (4 * i) 4)) }

/-- CTL and ACK as read (Table 16.2). -/
def Mbx.ctlWord (m : Mbx) : Nat := b2n m.go + 2 * b2n m.bound.isSome + m.seq.toNat * 65536
def Mbx.ackWord (m : Mbx) : Nat := m.ackCode.toNat + m.ackSeq.toNat * 65536

/-- The 64-bit word at a listed status offset of the window of a bay (Table 5.6); `none` elsewhere. -/
def Ctl.windowWord (c : Ctl) (bay ep off : Nat) : Option Nat :=
  match off with
  | 0x1040 => some (c.mbx ep).ctlWord
  | 0x1048 => some (c.mbx ep).ackWord
  | 0x2000 =>
    let st := match (c.bay bay).st with | .free => 0 | .active => 1 | .shakeout => 2
    some (st + (match (c.bay bay).cur with | some m => m.gen.toNat * 65536 | none => 0))
  | 0x2008 => some (c.reg (Reg.bayClamp bay)).toNat
  | 0x2010 => some (c.reg (0x06002000 + 8 * bay)).toNat
  | _ => none

/-- What a member reads in its bay's window: aligned, at most 8 bytes, at a listed offset (R124, R412). -/
def Ctl.windowRead (c : Ctl) (bay ep off n : Nat) : Option (List Byte) :=
  if msgAccess off n then some (slice (c.mbx ep).bytes (off - 0x1000) n)
  else if n = 1 || n = 2 || n = 4 || n = 8 then (c.windowWord bay ep off).map (fun w => slice (leBytes 8 w) 0 n)
  else none

/-- An endpoint's write to its mailbox (R413, R414, R417): the state, the status and the detail. -/
def Ctl.mbxWrite (c : Ctl) (bay ep off : Nat) (data : List Byte) : Ctl × Byte × Byte :=
  let n := data.length
  let m := c.mbx ep
  if msgAccess off n then
    if m.go then (c.bump (Reg.mbxCtr 2), stBUSY, dNONE) else (c.putMbx ep (m.setBytes (off - 0x1000) data), stOK, dNONE)
  else if (off = 0x1040 || off = 0x1048) && (n = 1 || n = 2 || n = 4 || n = 8) then
    let v := leNat data
    let open_ := if off = 0x1040 then 1 + field v 16 16 * 65536 else 0
    if off = 0x1048 && v = 0 then (c, stACCESS, dNONE)
    else if v - Nat.land v open_ ≠ 0 then (c, stACCESS, dMALFORMED)
    else if m.go then (c.bump (Reg.mbxCtr 2), stBUSY, dNONE)
    else if bitOf v 0 then (c.post ep bay (BitVec.ofNat 16 (field v 16 16)), stOK, dNONE)
    else (c, stOK, dNONE)
  else (c, stACCESS, dNONE)

/-- Bind a mailbox to a placement; remove its binding (R415). -/
def Ctl.bindMbx (c : Ctl) (ep bay h : Nat) : Ctl := c.putMbx ep { c.mbx ep with bound := some (bay, h) }
def Ctl.unbindMbx (c : Ctl) (ep : Nat) : Ctl := c.putMbx ep { c.mbx ep with bound := none }

/-- Remove every binding to a placement that is unbound (R374, R415). -/
def Ctl.unbindPlace (c : Ctl) (bay h : Nat) : Ctl :=
  { c with mbxs := c.mbxs.filterMap (fun (e : Nat × Mbx) =>
      let m := if e.2.bound = some (bay, h) then { e.2 with bound := none } else e.2
      if m = Mbx.init then none else some (e.1, m)) }

/-- ACKW by a tile: taken from the placement that is the post's receiver; else ignored and counted (R417). -/
def Ctl.tileAck (c : Ctl) (ep bay h : Nat) (code : BitVec 16) : Ctl :=
  if (c.mbx ep).go && (c.mbx ep).receiver = some (bay, h) then c.ackPost ep code else c.bump (Reg.mbxCtr 3)

/-- A tile's write to the mailbox of its LAUNCH queue's owner (R384, R413): fields not open to it take 0 (answered true).
`none` where the window has nothing to write. -/
def Ctl.tileMbxWrite (c : Ctl) (ep bay h off : Nat) (data : List Byte) : Option (Ctl × Bool) :=
  let n := data.length
  if msgAccess off n then some (c.putMbx ep ((c.mbx ep).setBytes (off - 0x1000) data), false)
  else if off = 0x1040 && (n = 1 || n = 2 || n = 4 || n = 8) then
    let v := leNat data
    let open_ := 0xE + field v 32 16 * 2 ^ 32
    let c := if bitOf v 1 then c.bindMbx ep bay h else c
    let c := if bitOf v 2 then c.unbindMbx ep else c
    let c := if bitOf v 3 then c.tileAck ep bay h (BitVec.ofNat 16 (field v 32 16)) else c
    some (c, v - Nat.land v open_ != 0)
  else if off = 0x1048 && (n = 1 || n = 2 || n = 4 || n = 8) then some (c, leNat data != 0)
  else none

end Sys2Proof.Machine
end

