-- ==== Sys2Proof/Machine/WinOps.lean ====
section
/-! DEFINITION. Doorbells (spec/09 §9.2) and writes to the bay window (Table 5.6). -/

namespace Sys2Proof.Machine

/-- The size of a queue's rings, 2^LOG2SIZE. -/
def Ctl.queSize (c : Ctl) (q : Nat) : Nat := 2 ^ c.rd (Reg.queLog q)

/-- Entries posted and not issued. -/
def Que.avail (x : Que) : Nat := (x.tail + 2 ^ 32 - x.head) % 2 ^ 32

/-- The enabled queues. -/
def Ctl.enabledQueues (c : Ctl) : List Nat :=
  c.regs.filterMap (fun (e : Nat × Word) =>
    if inArray e.1 0x09010000 0x40 16384 0x10 && e.2.msb then some ((e.1 - 0x09010000) / 0x40) else none)

/-- The enabled queue of a bay's slot (R233). -/
def Ctl.slotQueue (c : Ctl) (bay slot : Nat) : Option Nat :=
  c.enabledQueues.find? (fun q => c.rd (Reg.queBay q) == bay && c.rd (Reg.queSlot q) == slot)

/-- The queues, enabled or still finishing, of a bay. -/
def Ctl.bayQueues (c : Ctl) (bay : Nat) : List Nat := (List.map (·.1) c.ques).filter (fun q => c.rd (Reg.queBay q) == bay)

/-- Add 1 to a bay's clamp counter (R247). -/
def Ctl.countClamp (c : Ctl) (bay : Nat) : Ctl := c.bump (Reg.bayClamp bay)

/-- Set every mark whose last naming instruction has completed (R244). -/
def Que.resumeMarks (x : Que) : BitVec 16 :=
  BitVec.ofNat 16 (((List.range 16).filter (fun m =>
    match x.namer.find? (fun e => e.1 == m) with
    | some e => !x.insts.any (fun (y : QInst) => y.serial == e.2)
    | none => true)).foldl (fun a m => a + 2 ^ m) 0)

/-- Apply a doorbell value to a queue (R234, R244): the state and whether the value was clamped. -/
def Ctl.doorbell (c : Ctl) (q : Nat) (v : Nat) : Ctl × Bool :=
  let x := c.que q
  let d := (field v 0 32 + 2 ^ 32 - x.tail) % 2 ^ 32
  let room := (x.head + c.queSize q + 2 ^ 32 - x.tail) % 2 ^ 32
  let moves := d ≠ 0 && d < 2 ^ 31
  let y := if moves then { x with tail := (x.tail + min d room) % 2 ^ 32 } else x
  let z := if bitOf v 32 && y.st = .stopped then { y with marks := y.resumeMarks, st := .running, fetched := [] } else y
  let cl := (moves && room < d) || v / 2 ^ 33 ≠ 0
  let c := c.putQue q z
  (if cl then c.countClamp (c.rd (Reg.queBay q)) else c, cl)

/-- A write to the bay window by a LIVE member, or by a unit that serves one (R124, R233, R413): the status and detail. -/
def Ctl.windowWrite (c : Ctl) (bay ep off : Nat) (data : List Byte) : Ctl × Byte × Byte :=
  if off < 0x200 then
    if off % 8 ≠ 0 then (c, stACCESS, dNONE)
    else if data.length ≠ 8 then (c, stACCESS, dMALFORMED)
    else match c.slotQueue bay (off / 8) with
      | none => (c, stACCESS, dNONE)
      | some q => ((c.doorbell q (leNat data)).1, stOK, dNONE)
  else c.mbxWrite bay ep off data

end Sys2Proof.Machine
end

