-- ==== Sys2Proof/Machine/HomeOps.lean ====
section
/-! DEFINITION. Atomics in the home cache (spec/06 §6.6), the coherence directory (spec/07), and accesses that the SG7's
units make on a bay's behalf (R130). -/

namespace Sys2Proof.Machine

/-! ### Atomics (R162-R165) -/

/-- The effect of an atomic on M of w bits: the new M and APPLIED (Table 6.6, R163). -/
def atomicApply (op ty w m o1 o2 : Nat) : Nat × Bool :=
  let wrap (v : Nat) : Nat := v % 2 ^ w
  let sgn := ty = 0 || ty = 2
  let lt (a b : Nat) : Bool := if sgn then decide (signed w a < signed w b) else decide (a < b)
  match op with
  | 0x01 => (if ty = 4 then fp32Add m o1 else wrap (m + o1), true)
  | 0x02 => (o1, true)
  | 0x03 => if m = o1 then (o2, true) else (m, false)
  | 0x04 => (if lt o1 m then o1 else m, true)
  | 0x05 => (if lt m o1 then o1 else m, true)
  | 0x06 => (Nat.land m o1, true)
  | 0x07 => (Nat.lor m o1, true)
  | 0x08 => (Nat.xor m o1, true)
  | 0x09 => if m + o1 ≤ o2 then (m + o1, true) else (m, false)
  | _ => (m, false)

/-- The physical line (128 bytes) of a key. -/
def physLine (k : Nat) : Nat := k / 128

/-- The physical lines behind an access. -/
def segLines (l : List Seg) : List Nat :=
  insertAll [] (l.flatMap (fun g => match g.key with
    | some k => if g.len = 0 then [] else (List.range ((k + g.len - 1) / 128 - k / 128 + 1)).map (fun i => k / 128 + i)
    | none => []))

/-- The first locked line among those of an access (R165). -/
def Ctl.lockedLine (c : Ctl) (l : List Seg) : Option Nat :=
  if c.locks.isEmpty then none else (segLines l).find? (fun x => c.locks.any (fun k => k.line == x))

/-- Remember that home holds a dirty line whose home is a tray (§7.2). -/
def Ctl.markDirty (c : Ctl) (l : List Seg) : Ctl :=
  { c with homeDirty := insertAll c.homeDirty ((segLines l).filter (fun x => (keyTray (x * 128)).isSome)) }

/-- The outcome of an atomic on memory: done with OLD and APPLIED and the tray keys to write back, or a status. -/
inductive AtomRes where
  | done (s : State) (old : Nat) (applied : Bool) (keys : List Nat)
  | full
  | refused
  | lost
  deriving DecidableEq, Repr

/-- Run one atomic on the bytes behind a target (R162): the first atomic on an unallocated page allocates it. -/
def State.atomic (s : State) (bay : Nat) (t : Target) (a : Word) (op : AtomicOp) : AtomRes :=
  let n := atomicSize op.ty
  let s' : Option State := match t with
    | .flat i => s.allocFlat bay i (flatPieces 2 a.toNat n)
    | _ => some s
  match s' with
  | none => .full
  | some s =>
    let segs := s.ctl.targetSegs bay t a n
    match s.mem.readSegs segs with
    | none => .lost
    | some b =>
      let m := leNat b
      let r := atomicApply op.op op.ty (8 * n) m op.opnd1 op.opnd2
      let s := if r.2 then { s with mem := s.mem.writeSegs segs (leBytes n r.1) } else s
      let keys := if r.2 then segs.flatMap (fun g => (g.key.toList ++ g.copies).filter (fun k => (keyTray k).isSome)) else []
      .done s m r.2 keys

/-! ### The directory -/

/-- The key of a line: bay, form bit, address bits 55:7 (Table 7.2, R182). -/
def lineKeyOf (bay : Nat) (a : Word) : Nat := (bay * 2 + b2n (isNode a)) * 2 ^ 49 + field a.toNat 7 49
def lineBay (k : Nat) : Nat := k / 2 ^ 50
def lineAddr (k : Nat) : Word := BitVec.ofNat 64 (field k 49 1 * 2 ^ 63 + field k 0 49 * 128)

/-- The set of a line (R183). -/
def dirSet (bay : Nat) (a : Word) : Nat :=
  let x := a.toNat / 128
  Nat.xor (Nat.xor (Nat.xor (field x 0 17) (field x 17 17)) (Nat.xor (field x 34 17) (field x 51 6))) (bay * 32) % 2 ^ 17

def Ctl.entOf (c : Ctl) (line : Nat) : Option DirEnt := c.dir.find? (fun (e : DirEnt) => e.line == line)
def Ctl.putEnt (c : Ctl) (x : DirEnt) : Ctl :=
  { c with dir := c.dir.map (fun (e : DirEnt) => if e.line = x.line then x else e) }
def Ctl.dropEnt (c : Ctl) (line : Nat) : Ctl := { c with dir := c.dir.filter (fun (e : DirEnt) => e.line != line) }
def Ctl.openWays (c : Ctl) (set : Nat) : Nat := (c.dir.filter (fun (e : DirEnt) => e.dset == set && e.trans.isSome)).length

/-- The agent slot of an endpoint in a domain. -/
def Domain.slotOf (d : Domain) (ep : Nat) : Option Nat := (d.agents.find? (fun (a : Nat × Nat) => a.2 == ep)).map (·.1)
def Domain.epOf (d : Domain) (slot : Nat) : Nat := ((d.agents.find? (fun (a : Nat × Nat) => a.1 == slot)).map (·.2)).getD 0xFFF

/-- The slots in a presence vector. -/
def slotsOf (p : BitVec 64) : List Nat := (List.range 64).filter (fun i => bitOf p.toNat i)
def slotBit (a : Nat) : BitVec 64 := BitVec.ofNat 64 (2 ^ a)

/-- A coherence message from home (Table 7.4), sequenced, with the requester's tag; GEN is the current generation. -/
def Ctl.homeMsg (c : Ctl) (kind : BitVec 8) (bay ep : Nat) (addr : Word) (tag : BitVec 16) (status detail : Byte)
    (payload : List Byte) (grant : Option Nat) : Ctl :=
  let gen := match (c.bay bay).cur with | some m => m.gen | none => 0
  c.sendSeq (withPayload { baseFrame with
    kind := kind, tc := 1, bay := BitVec.ofNat 12 bay, dst := BitVec.ofNat 12 ep, gen := gen, tag := tag, addr := addr,
    status := status, detail := detail } payload) none grant

/-- The extent and target behind a coherent line. -/
def Ctl.lineTarget (c : Ctl) (line : Nat) : Option Target :=
  (c.extCover (lineBay line) (lineAddr line) 128).map (fun i =>
    if isNode (lineAddr line) then .node (nodeOf (lineAddr line)) i else .flat i)

/-- Write data that an agent gave up into the home cache (§7.2). -/
def State.homeWrite (s : State) (line : Nat) (data : List Byte) : State :=
  match s.ctl.lineTarget line with
  | none => s
  | some t =>
    match s.rawWrite (lineBay line) t (lineAddr line) (slice data 0 128) with
    | .done s => s.onCtl (fun c => c.markDirty (c.targetSegs (lineBay line) t (lineAddr line) 128))
    | _ => s

/-- Begin a transaction: Inv to the sharers (S), Fwd or Recall to the owner (E, M). -/
def Ctl.startTrans (c : Ctl) (e : DirEnt) (why : TransFor) (except : Option Nat) (fwd : Bool) (tag : BitVec 16) : Ctl :=
  let d := c.dom e.dom
  let bay := lineBay e.line
  let a := lineAddr e.line
  let tr (l : List Nat) : Trans := { why := why, await := l, awaitWb := [], since := c.now, wbp := false, granted := false }
  match e.st with
  | .S =>
    let l := (slotsOf e.pres).filter (fun x => some x != except)
    let c := c.putEnt { e with trans := some (tr l) }
    l.foldl (fun x k => (x.homeMsg kInv bay (d.epOf k) a tag 0 0 [] none).bump Reg.dirInvSent) c
  | .E | .M =>
    let c := c.putEnt { e with trans := some (tr [e.owner]) }
    if fwd then (c.homeMsg kFwd bay (d.epOf e.owner) a tag 0 0 [] none).bump Reg.dirFwds
    else (c.homeMsg kRecall bay (d.epOf e.owner) a tag 0 0 [] none).bump Reg.dirRecalls
  | .I => c.putEnt { e with trans := some (tr []) }

/-- Note the most OPEN ways seen (Table 7.6). -/
def Ctl.notePeak (c : Ctl) (set : Nat) : Ctl :=
  let n := c.openWays set
  if c.rd Reg.openPeak < n then c.wr Reg.openPeak n else c

/-- Send a grant to an agent and keep the line OPEN until its acknowledgement (R186). A line whose memory is poisoned
fails the request under R171. -/
def State.grant (s : State) (id : Nat) (r : Frame) (line slot dom : Nat) (kind : BitVec 8) (excl : Bool) (st : LineState)
    (pres : BitVec 64) : State :=
  let bay := lineBay line
  match s.ctl.entOf line, s.ctl.lineTarget line with
  | some e, some t =>
    let data := if kind = kData then s.rawRead bay t (lineAddr line) 128 else some []
    match data with
    | none =>
      let c := if e.pres = 0 then s.ctl.dropEnt line else s.ctl.putEnt { e with trans := none }
      let (c, det) := c.memLost bay r.src.toNat (c.targetFatal bay t)
      { s with ctl := if c.opens.any (fun o => o.id == id) then c.failReq id r stPOISONED det 0 else c }
    | some b =>
      let (n, c) := s.ctl.fresh
      let c := c.putEnt { e with st := st, pres := pres, owner := slot, dom := dom, age := n,
                                 trans := some { why := .request id, await := [], awaitWb := [], since := c.now, wbp := false, granted := true } }
      let c := c.closeReq id
      let f := withPayload { baseFrame with
        kind := kind, tc := 1, bay := r.bay, dst := r.src, gen := r.gen, tag := r.tag,
        addr := BitVec.ofNat 64 ((lineAddr line).toNat + b2n excl) } b
      { s with ctl := if c.liveInc r.src.toNat r.inc then c.sendSeq f none (some line) else c }
  | _, _ => s

/-- The lowest free way of a set. -/
def Ctl.freeWay (c : Ctl) (set : Nat) : Option Nat :=
  let l := insertAll [] ((c.dir.filter (fun (e : DirEnt) => e.dset == set)).map (·.way))
  let w := lowestFree l 0
  if w < 16 then some w else none

/-- The victim of a set: the way not OPEN with the oldest grant, ties to the lowest way (R194). -/
def Ctl.victim (c : Ctl) (set : Nat) : Option DirEnt :=
  (c.dir.filter (fun (e : DirEnt) => e.dset == set && e.trans.isNone)).foldl (fun b e =>
    match b with
    | none => some e
    | some x => if e.age < x.age || (e.age = x.age && e.way < x.way) then some e else some x) none

/-- A new entry for a line. -/
def Ctl.newEnt (c : Ctl) (line set way dom : Nat) : Ctl :=
  { c with dir := c.dir ++ [{ line := line, dset := set, way := way, st := .I, pres := 0, owner := 0, dom := dom, age := 0, trans := none }] }

/-- What an open request can do now at its next line: it cannot start, it waits in a transaction, or it is over. -/
inductive Adv where
  | blocked
  | waits (s : State)
  | ended (s : State)
  deriving DecidableEq, Repr

/-- An agent's RdS, RdX or Upg at home (Table 7.5). -/
def State.advAgent (s : State) (o : OpenReq) (dom slot : Nat) : Adv :=
  let r := o.frame
  let bay := r.bay.toNat
  let line := lineKeyOf bay r.addr
  let set := dirSet bay r.addr
  let c := s.ctl
  match c.entOf line with
  | none =>
    if 12 ≤ c.openWays set then .blocked
    else
      match c.freeWay set with
      | some w =>
        let s := { s with ctl := c.newEnt line set w dom }
        let s := if r.kind = kRdS then s.grant o.id r line slot dom kData true .E (slotBit slot)
          else s.grant o.id r line slot dom kData false .M (slotBit slot)
        .ended (s.onCtl (·.notePeak set))
      | none =>
        match c.victim set with
        | none => .blocked
        | some v => .waits { s with ctl := ((c.startTrans v (.victimFor o.id) none false r.tag).bump Reg.dirVictims).notePeak set }
  | some e =>
    if e.trans.isSome || 12 ≤ c.openWays set then .blocked
    else
      let fail := (c.report (rep 0x05 0x0E dom)).bump Reg.dirProtocol
      match e.st with
      | .I => .blocked
      | .S =>
        if r.kind = kRdS then .ended ((s.grant o.id r line e.owner dom kData false .S (e.pres ||| slotBit slot)).onCtl (·.notePeak set))
        else
          let others := (slotsOf e.pres).filter (· ≠ slot)
          if others.isEmpty then
            let has := bitOf e.pres.toNat slot
            .ended ((s.grant o.id r line slot dom (if r.kind = kUpg && has then kCmp else kData) false .M (slotBit slot)).onCtl (·.notePeak set))
          else .waits { s with ctl := (c.startTrans e (.request o.id) (some slot) false r.tag).notePeak set }
      | .E | .M =>
        if e.owner = slot then
          if r.kind = kUpg then .ended ((s.grant o.id r line slot dom kCmp false .M (slotBit slot)).onCtl (·.notePeak set))
          else .ended { s with ctl := fail.failReq o.id r stACCESS dMALFORMED 0 }
        else .waits { s with ctl := (c.startTrans e (.request o.id) none (r.kind = kRdS) r.tag).notePeak set }

/-- Answer an atomic and record it in the Peg table (R167). -/
def Ctl.answerAtomic (c : Ctl) (id : Nat) (f : Frame) (status detail : Byte) (old : Nat) (aflags : Byte) : Ctl :=
  let c := (c.closeReq id).pegRecord f status (BitVec.ofNat 128 old) aflags
  c.answer f status detail 0 0 (leBytes 16 old ++ [aflags] ++ zeros 7) (some f.tag) none

/-- Send one request of the SG7's own to an endpoint (R85); it is matched by its TAG. It carries SRC 0xFFF, INC 0 and
the bay's current generation (DEDUCED, log entry 21). -/
def Ctl.sendOwn (c : Ctl) (ep : Nat) (f : Frame) (why : OwnFor) : Ctl :=
  let (n, c) := c.fresh
  let gen := match (c.bay f.bay.toNat).cur with | some m => m.gen | none => 0
  let f := { f with dst := BitVec.ofNat 12 ep, src := 0xFFF, tag := BitVec.ofNat 16 n, gen := gen }
  let x : OwnReq := { tag := BitVec.ofNat 16 n, ep := ep, frame := f, why := why, since := c.now }
  let c : Ctl := { c with owns := c.owns ++ [x] }
  c.sendSeq f none none

/-- Replace an open request. -/
def Ctl.putOpen (c : Ctl) (o : OpenReq) : Ctl :=
  { c with opens := c.opens.map (fun (x : OpenReq) => if x.id = o.id then o else x) }

/-- Execute an atomic request at home: done, waiting for its tray write-back with the line locked (R165), or failed. -/
def State.runAtomic (s : State) (o : OpenReq) (t : Target) : State :=
  let f := o.frame
  let bay := f.bay.toNat
  let op := atomicOf f.payload
  match s.atomic bay t f.addr op with
  | .full => { s with ctl := (s.ctl.tierFull bay).answerAtomic o.id f stACCESS dNONE 0 0 }
  | .refused => { s with ctl := s.ctl.answerAtomic o.id f stACCESS dNONE 0 0 }
  | .lost =>
    let (c, det) := s.ctl.memLost bay f.src.toNat (s.ctl.targetFatal bay t)
    { s with ctl := if c.opens.any (fun x => x.id == o.id) then c.answerAtomic o.id f stPOISONED det 0 0 else c }
  | .done s old applied keys =>
    match keys with
    | [] => { s with ctl := s.ctl.answerAtomic o.id f stOK dNONE old (if applied then afAPPLIED else 0) }
    | _ =>
      let n := atomicSize op.ty
      let c := s.ctl.putOpen { o with phase := .atomicWb, parts := [(0, leBytes 16 old)] }
      let c := keys.foldl (fun (d : Ctl) k =>
        let d : Ctl := { d with locks := d.locks ++ [{ line := physLine k, req := o.id }] }
        match keyTray k with
        | none => d
        | some tr => d.sendOwn tr (withPayload { baseFrame with kind := kWrite, tc := f.tc, bay := f.bay, addr := nodeAddr tr (k % 2 ^ 44) } (s.mem.read k n)) (.writeBack o.id k)) c
      { s with ctl := c }

/-- A request by a reader or writer without a cache to a coherent extent, line by line from `pos` (R189, R190, Table 7.5
READ rows; fuel: lines left). -/
def State.advLines (s : State) (o : OpenReq) (t : Target) : Nat → Adv
  | 0 => .ended s
  | fuel + 1 =>
    let f := o.frame
    let bay := f.bay.toNat
    let total := if f.kind = kRead then rlenOf f else if f.kind = kAtomic then atomicSize (atomicOf f.payload).ty else f.payload.length
    if total ≤ o.pos then
      .ended { s with ctl :=
        if f.kind = kRead then (s.ctl.closeReq o.id).answer f stOK dNONE 0 0 (o.parts.flatMap (·.2)) none none
        else (s.ctl.closeReq o.id).answer f stOK dNONE 0 0 [] none none }
    else
      let a := BitVec.ofNat 64 (f.addr.toNat + o.pos)
      let n := min (total - o.pos) (128 - a.toNat % 128)
      let line := lineKeyOf bay a
      let set := dirSet bay a
      let piece (s : State) : Adv :=
        if f.kind = kAtomic then .ended (s.runAtomic o t)
        else if f.kind = kRead then
          match s.rawRead bay t a n with
          | none =>
            let (c, det) := s.ctl.memLost bay f.src.toNat (s.ctl.targetFatal bay t)
            .ended { s with ctl := if c.opens.any (fun x => x.id == o.id) then c.failReq o.id f stPOISONED det 0 else c }
          | some b =>
            let o' := { o with pos := o.pos + n, parts := o.parts ++ [(o.pos, b)] }
            ({ s with ctl := s.ctl.putOpen o' }).advLines o' t fuel
        else
          match s.rawWrite bay t a ((f.payload.drop o.pos).take n) with
          | .done s =>
            let o' := { o with pos := o.pos + n }
            (s.onCtl (fun c => (c.putOpen o').markDirty (c.targetSegs bay t a n))).advLines o' t fuel
          | .full => .ended { s with ctl := (s.ctl.tierFull bay).failReq o.id f stACCESS dNONE 0 }
          | .refused => .ended { s with ctl := s.ctl.failReq o.id f stACCESS dNONE 0 }
          | .lost =>
            let (c, det) := s.ctl.memLost bay f.src.toNat (s.ctl.targetFatal bay t)
            .ended { s with ctl := if c.opens.any (fun x => x.id == o.id) then c.failReq o.id f stPOISONED det 0 else c }
      match s.ctl.entOf line with
      | none => piece s
      | some e =>
        if e.trans.isSome then .blocked
        else if f.kind = kRead && (e.st = .S || e.st = .I) then piece s
        else if 12 ≤ s.ctl.openWays set then .blocked
        else .waits { s with ctl := (s.ctl.startTrans e (.request o.id) none (f.kind = kRead) f.tag).notePeak set }

/-- What an open request does at home. -/
def State.adv (s : State) (o : OpenReq) : Adv :=
  let f := o.frame
  match o.ext with
  | none => .ended s
  | some i =>
    let e := s.ctl.ext i
    let t : Target := if isNode f.addr then .node (nodeOf f.addr) i else .flat i
    if f.kind = kRdS || f.kind = kRdX || f.kind = kUpg then
      match (s.ctl.dom e.cdom.toNat).slotOf f.src.toNat with
      | none => .ended { s with ctl := s.ctl.failReq o.id f stACCESS dNONE 0 }
      | some slot => s.advAgent o e.cdom.toNat slot
    else s.advLines o t 600

/-- Start the queued requests of a set that can now start, oldest first (R193; fuel: the queue's length). -/
def State.startQueued (s : State) (set : Nat) : Nat → State
  | 0 => s
  | n + 1 =>
    let ids := (s.ctl.dirQ.filter (fun (q : Nat × Nat) => q.1 == set)).map (·.2)
    let next := ids.findSome? (fun id =>
      match s.ctl.opens.find? (fun (o : OpenReq) => o.id == id) with
      | none => none
      | some o => match s.adv o with
        | .blocked => none
        | .waits t | .ended t => some (id, t))
    match next with
    | none => s
    | some (id, t) =>
      (t.onCtl (fun c => { c with dirQ := c.dirQ.filter (fun (q : Nat × Nat) => q.2 != id) })).startQueued set n

/-- A request enters home: it starts, or it enters the allocation queue of its set, or SET_BUSY (R192). -/
def State.enterHome (s : State) (id : Nat) : State :=
  match s.ctl.opens.find? (fun (o : OpenReq) => o.id == id) with
  | none => s
  | some o =>
    match s.adv o with
    | .waits t | .ended t => t
    | .blocked =>
      let a := BitVec.ofNat 64 (o.frame.addr.toNat + o.pos)
      let set := dirSet o.frame.bay.toNat a
      let n := (s.ctl.dirQ.filter (fun (q : Nat × Nat) => q.1 == set)).length
      if n < 8 then
        let c := { s.ctl with dirQ := s.ctl.dirQ ++ [(set, id)] }
        { s with ctl := if c.rd Reg.queuePeak < n + 1 then c.wr Reg.queuePeak (n + 1) else c }
      else { s with ctl := (s.ctl.failReq id o.frame stRETRY dSETBUSY 0).bump Reg.dirSetBusy }

/-- The last awaited answer of a transaction has come (R186, R187): the line takes its next state, the request it
served goes on, and the allocation queue of the set moves. -/
def State.endTrans (s : State) (line : Nat) : State :=
  match s.ctl.entOf line with
  | none => s
  | some e =>
    match e.trans with
    | none => s
    | some tr =>
      if !tr.await.isEmpty || !tr.awaitWb.isEmpty || tr.granted then s
      else
        let free := { s with ctl := s.ctl.dropEnt line }
        let next (s : State) : State := s.startQueued e.dset 9
        match tr.why with
        | .removal => next (if e.st = .S && e.pres ≠ 0 then { s with ctl := s.ctl.putEnt { e with trans := none } } else free)
        | .unitAccess =>
          next (if tr.wbp then free else { s with ctl := s.ctl.putEnt { e with st := .S, pres := slotBit e.owner, trans := none } })
        | .victimFor id =>
          match s.ctl.opens.find? (fun (o : OpenReq) => o.id == id) with
          | none => next free
          | some _ => next (free.enterHome id)
        | .request id =>
          match s.ctl.opens.find? (fun (o : OpenReq) => o.id == id) with
          | none =>
            let p := if e.st = .S then e.pres else if tr.wbp then 0 else slotBit e.owner
            next (if p = 0 then free else { s with ctl := s.ctl.putEnt { e with st := .S, pres := p, trans := none } })
          | some o =>
            let r := o.frame
            let slot := ((s.ctl.dom e.dom).slotOf r.src.toNat).getD 0
            if r.kind = kRdS then s.grant id r line slot e.dom kData false .S (slotBit slot ||| (if tr.wbp then 0 else slotBit e.owner))
            else if r.kind = kRdX || r.kind = kUpg then
              let has := e.st = .S && bitOf e.pres.toNat slot
              s.grant id r line slot e.dom (if r.kind = kUpg && has then kCmp else kData) false .M (slotBit slot)
            else if r.kind = kRead then
              let s := if tr.wbp then free else { s with ctl := s.ctl.putEnt { e with st := .S, pres := slotBit e.owner, trans := none } }
              next (s.enterHome id)
            else next (free.enterHome id)

/-! ### Accesses of the SG7's own units (R130) -/

/-- What a unit's read comes to. -/
inductive UnitRead where
  | data (b : List Byte)
  | fail (s : State) (status detail : Byte)
  deriving DecidableEq, Repr

/-- What a unit's write comes to. -/
inductive UnitWrite where
  | ok (s : State)
  | fail (s : State) (status detail : Byte)
  deriving DecidableEq, Repr

/-- Whether a coherent access of a unit must wait: the first line whose state asks for a transaction starts one, and
the access is answered RETRY (DEDUCED, log entry 22); a domain that is not UP answers DOMAIN_DOWN (R180). -/
def State.unitHome (s : State) (bay : Nat) (e : Extent) (a : Word) (n : Nat) (write : Bool) : Option (State × Byte × Byte) :=
  if !e.coh then none
  else
    let d := s.ctl.dom e.cdom.toNat
    if d.st ≠ .up || d.bay ≠ bay then some (s, stDOMDOWN, dNONE)
    else
      let lines := (List.range ((a.toNat + n - 1) / 128 - a.toNat / 128 + 1)).map
        (fun i => lineKeyOf bay (BitVec.ofNat 64 ((a.toNat / 128 + i) * 128)))
      let bad := lines.findSome? (fun l => match s.ctl.entOf l with
        | none => none
        | some x => if x.trans.isSome || write || x.st = .E || x.st = .M then some x else none)
      match bad with
      | none => none
      | some x =>
        if x.trans.isSome || 12 ≤ s.ctl.openWays x.dset then some (s, stRETRY, dSETBUSY)
        else some ({ s with ctl := (s.ctl.startTrans x (if write then .removal else .unitAccess) none (!write) 0).notePeak x.dset }, stRETRY, dSETBUSY)

/-- A read by a unit for a bay, serving a member (R130). -/
def State.unitRead (s : State) (bay owner : Nat) (a : Word) (n : Nat) (right : Nat) : UnitRead :=
  if n = 0 then .data []
  else
    match s.ctl.checkUnit bay owner a n (some right) with
    | .fail st d _ job => .fail (match job with | some e => s.onCtl (·.jobFault bay e) | none => s) st d
    | .pass t cls _ =>
      let go (t : Target) : UnitRead :=
        match s.ctl.lockedLine (s.ctl.targetSegs bay t a n) with
        | some _ => .fail s stRETRY dLINEHELD
        | none =>
          match s.rawRead bay t a n with
          | some b => .data b
          | none => let (c, d) := s.ctl.memLost bay owner (s.ctl.targetFatal bay t); .fail { s with ctl := c } stPOISONED d
      match t with
      | .window off => match s.ctl.windowRead bay owner off n with
        | some b => .data b
        | none => .fail s stACCESS dNONE
      | .kv off =>
        match s.ctl.checkKv bay cls off n false with
        | .fail st d => .fail s st d
        | .table i => .data (s.ctl.kvDescriptor bay i)
        | .data _ => go t
      | .flat i | .node _ i =>
        match s.unitHome bay (s.ctl.ext i) a n false with
        | some (s, st, d) => .fail s st d
        | none => go t

/-- A write by a unit for a bay, serving a member (R130). A destroy that must wait (R352) is answered RETRY (DEDUCED, log entry 22). -/
def State.unitWrite (s : State) (bay owner : Nat) (a : Word) (data : List Byte) : UnitWrite :=
  let n := data.length
  if n = 0 then .ok s
  else
    match s.ctl.checkUnit bay owner a n (some rightW) with
    | .fail st d _ job => .fail (match job with | some e => s.onCtl (·.jobFault bay e) | none => s) st d
    | .pass t cls _ =>
      let go (t : Target) (coh : Bool) : UnitWrite :=
        match s.ctl.lockedLine (s.ctl.targetSegs bay t a n) with
        | some _ => .fail s stRETRY dLINEHELD
        | none =>
          match s.rawWrite bay t a data with
          | .done s => .ok (if coh then s.onCtl (fun c => c.markDirty (c.targetSegs bay t a n)) else s)
          | .full => .fail (s.onCtl (·.tierFull bay)) stACCESS dNONE
          | .refused => .fail s stACCESS dNONE
          | .lost => let (c, d) := s.ctl.memLost bay owner (s.ctl.targetFatal bay t); .fail { s with ctl := c } stPOISONED d
      match t with
      | .window off =>
        let r := s.ctl.windowWrite bay owner off data
        if r.2.1 = stOK then .ok { s with ctl := r.1 } else .fail { s with ctl := r.1 } r.2.1 r.2.2
      | .kv off =>
        match s.ctl.checkKv bay cls off n true with
        | .fail st d => .fail s st d
        | .table i => match s.kvDescWrite bay i data with
          | .ok s => .ok s
          | .malformed => .fail s stACCESS dMALFORMED
          | .waits s => .fail s stRETRY dNONE
        | .data _ => go t false
      | .flat i | .node _ i =>
        match s.unitHome bay (s.ctl.ext i) a n true with
        | some (s, st, d) => .fail s st d
        | none => go t (s.ctl.ext i).coh

end Sys2Proof.Machine
end

