-- ==== Sys2Proof/Machine/QueOps.lean ====
section
/-! DEFINITION. Command queues (spec/09): the actions of instructions, doorbells, stops, records, marks. -/

namespace Sys2Proof.Machine

/-! ### Actions

An action of an instruction reads and changes the state, gathers flags of the completion record, and may stop with a
status and a detail; what it did before the stop stays (R253). -/

/-- The state and the record flags gathered. -/
structure Ax where
  s : State
  fl : Nat
  deriving DecidableEq, Repr

/-- An action that stopped. -/
structure Stop where
  ax : Ax
  status : Byte
  detail : Byte
  deriving DecidableEq, Repr

abbrev Act (α : Type) := StateT Ax (Except Stop) α

/-- Stop with a status and a detail. -/
def Act.stop {α : Type} (status detail : Byte) : Act α := fun x => .error { ax := x, status := status, detail := detail }

/-- Set a flag of the record. -/
def Act.flag (b : Nat) : Act Unit := modify (fun x => { x with fl := Nat.lor x.fl b })

/-- Change the state. -/
def Act.on (f : State → State) : Act Unit := modify (fun x => { x with s := f x.s })

/-- Change the control records. -/
def Act.onCtl (f : Ctl → Ctl) : Act Unit := modify (fun x => { x with s := x.s.onCtl f })

/-- The control records. -/
def Act.ctl : Act Ctl := do return (← get).s.ctl

/-- A host value and its legal form: CLAMPED is set when they differ (R246). -/
def Act.clamp (v legal : Nat) : Act Nat := do
  if v = legal then return v
  Act.flag crCLAMPED
  return legal

/-- A numeric field clamped into a range (R246 item 1). -/
def Act.range (v lo hi : Nat) : Act Nat := Act.clamp v (clampNat lo hi v)

/-- An address with its reserved bits cleared (R123). -/
def Act.addr (a : Nat) : Act Nat := Act.clamp a (clearReserved (BitVec.ofNat 64 a)).toNat

/-- Reserved bytes take 0 (R246 item 5). -/
def Act.zero (v : Nat) : Act Unit := do if v ≠ 0 then Act.flag crCLAMPED

/-- Pieces of an access, each within one 128-byte piece (R153): address and length (fuel: their number). -/
def pieces128 : Nat → Nat → Nat → List (Nat × Nat)
  | 0, _, _ => []
  | f + 1, a, n =>
    if n = 0 then []
    else
      let m := min n (128 - a % 128)
      (a, m) :: pieces128 f (a + m) (n - m)

/-- Read n bytes as a member of a bay (R130, R251). -/
def Act.read (bay ep a n right : Nat) : Act (List Byte) := do
  let mut out : List Byte := []
  for p in pieces128 (n / 128 + 2) a n do
    let x ← get
    match x.s.unitRead bay ep (BitVec.ofNat 64 p.1) p.2 right with
    | .data b => out := out ++ b
    | .fail s st d =>
      set { x with s := s }
      Act.stop st d
  return out

/-- Write bytes as a member of a bay (R130, R251). -/
def Act.write (bay ep a : Nat) (data : List Byte) : Act Unit := do
  let mut rest := data
  for p in pieces128 (data.length / 128 + 2) a data.length do
    let x ← get
    match x.s.unitWrite bay ep (BitVec.ofNat 64 p.1) (rest.take p.2) with
    | .ok s => set { x with s := s }
    | .fail s st d =>
      set { x with s := s }
      Act.stop st d
    rest := rest.drop p.2

/-- A parameter block: the pointer aligned and cleaned, its bytes read; a failure has detail PARAM, or FATAL_HALT under a
FATAL halt (R246, R252). -/
def Act.param (bay ep ptr n : Nat) : Act (List Byte) := do
  let p ← Act.clamp ptr (ptr / 32 * 32)
  let p ← Act.addr p
  fun x =>
    match (Act.read bay ep p n rightR).run x with
    | .ok r => .ok r
    | .error e => .error { e with detail := if e.detail = dFATALHALT || e.status = stRETRY then e.detail else dPARAM }

/-! ### Queues -/

/-- Opcodes that Table 9.3 lists. -/
def opcodeListed (o : Nat) : Bool :=
  o ≤ 0x07 || (0x10 ≤ o && o ≤ 0x15) || (0x20 ≤ o && o ≤ 0x24) || (0x28 ≤ o && o ≤ 0x2B) || (0x30 ≤ o && o ≤ 0x32)
  || (0x40 ≤ o && o ≤ 0x43) || o == 0x50 || o == 0x51 || o == 0x58 || o == 0x59 || o == 0x60

/-- Fields of a ring entry (Table 9.2). -/
def entWord (e : List Byte) : Nat := leAt e 0 4
def entOpcode (e : List Byte) : Nat := let o := leAt e 0 1; if opcodeListed o then o else 0
def entWhi (e : List Byte) : Bool := bitOf (entWord e) 8
def entNorec (e : List Byte) : Bool := bitOf (entWord e) 9
def entCont (e : List Byte) : Bool := bitOf (entWord e) 10
def entSerial (e : List Byte) : Bool := bitOf (entWord e) 11
def entOpf (e : List Byte) : Nat := field (entWord e) 12 4
def entWait (e : List Byte) : Nat := field (entWord e) 16 8 * (if entWhi e then 256 else 1)
def entSetm (e : List Byte) : Option Nat := if bitOf (entWord e) 28 then some (field (entWord e) 24 4) else none
def entCount (e : List Byte) : Nat := leAt e 4 4
def entA (e : List Byte) : Nat := leAt e 8 8
def entB (e : List Byte) : Nat := leAt e 16 8
def entC (e : List Byte) : Nat := leAt e 24 8

/-- Whether issue clamps the entry itself: a reserved opcode, reserved mark bits, flags the opcode does not define. -/
def entClamped (e : List Byte) : Bool :=
  let o := leAt e 0 1
  let opf := if o = 0x10 || o = 0x15 || o = 0x12 || o = 0x40 then 1 else 0
  !opcodeListed o || field (entWord e) 29 3 != 0 || entOpf e - Nat.land (entOpf e) opf != 0

/-- Whether the queue may fetch and issue: enabled, RUNNING, its bay not halted, the device running (R171, R480). -/
def Ctl.queLive (c : Ctl) (q : Nat) : Bool :=
  c.rd (Reg.queEnable q) == 1 && (c.que q).st == .running && !(c.bay (c.rd (Reg.queBay q))).halted && c.running

/-- The owner is a LIVE member of the current map (R245). -/
def Ctl.ownerLive (c : Ctl) (q : Nat) : Bool :=
  match (c.bay (c.rd (Reg.queBay q))).cur with
  | some m => (m.classOf (c.rd (Reg.queOwner q))).isSome
  | none => false

/-- Stop a RUNNING queue with the status, detail and index of the failure (R243). -/
def Que.stop (x : Que) (status detail : Byte) (index : Nat) : Que :=
  if x.st = .running then { x with st := .stopped, stopStatus := status, stopDetail := detail, stopIndex := index, fetched := [] }
  else x

/-- Stop a queue and tell the fabric manager (R245). -/
def Ctl.queueFault (c : Ctl) (q : Nat) (status detail : Byte) (index : Nat) : Ctl :=
  (c.putQue q ((c.que q).stop status detail index)).event evQueueFault [c.rd (Reg.queBay q), q, detail.toNat]

/-- The flag that the queue was disabled while the instruction was in flight (R249); no bit of the record. -/
def crDISABLED : Nat := 256

/-- A completion record (Table 9.4). -/
def recordOf (q n : Nat) (opcode index : Nat) (status detail : Byte) (flags count info : Nat) : List Byte :=
  let phase := 1 - index / n % 2
  leBytes 2 q ++ leBytes 1 opcode ++ [status] ++ leBytes 4 index ++ leBytes 1 (flags % 32 + 128 * phase) ++ [detail]
    ++ zeros 6 ++ leBytes 8 count ++ leBytes 8 info

/-- Write a record to the completion ring as the queue's owner (R232, R242). -/
def State.writeRecord (s : State) (q : Nat) (index : Nat) (data : List Byte) : UnitWrite :=
  s.unitWrite (s.ctl.rd (Reg.queBay q)) (s.ctl.rd (Reg.queOwner q))
    (BitVec.ofNat 64 ((s.ctl.reg (Reg.queCring q)).toNat + 32 * (index % s.ctl.queSize q))) data

/-- The first instruction of a queue with an index that satisfies a condition. -/
def Ctl.inst? (c : Ctl) (q index : Nat) (p : QInst → Bool) : Option QInst :=
  (c.que q).insts.find? (fun (x : QInst) => x.index == index && p x)

/-- The instruction of a queue with a serial number. -/
def Ctl.instOf (c : Ctl) (q serial : Nat) : Option QInst := (c.que q).insts.find? (fun (x : QInst) => x.serial == serial)

/-- Replace an instruction. -/
def Ctl.putInst (c : Ctl) (q : Nat) (x : QInst) : Ctl :=
  let y := c.que q
  c.putQue q { y with insts := y.insts.map (fun (z : QInst) => if z.serial = x.serial then x else z) }

/-- An instruction's effects are applied, or it has failed: it can complete (R239). -/
def QInst.finish (x : QInst) (status detail : Byte) : QInst := { x with phase := .finished status detail, retry := none }

/-- It completes OK. -/
def QInst.ok (x : QInst) : QInst := x.finish stOK dNONE

/-- End an instruction of a queue with a status, if it is still in flight and has not finished. -/
def Ctl.endInst (c : Ctl) (q serial : Nat) (status detail : Byte) : Ctl :=
  match c.instOf q serial with
  | some x => (match x.phase with | .finished _ _ => c | _ => c.putInst q (x.finish status detail))
  | none => c

/-- Set or clear a mark. -/
def Que.setMark (x : Que) (m : Nat) (v : Bool) : Que :=
  { x with marks := if v then x.marks ||| BitVec.ofNat 16 (2 ^ m) else x.marks &&& ~~~ BitVec.ofNat 16 (2 ^ m) }

/-- Make a mark named by an instruction the latest one naming it, and clear it (R238). -/
def Que.nameMark (x : Que) (m serial : Nat) : Que :=
  { x with namer := (m, serial) :: x.namer.filter (fun e => e.1 != m) }.setMark m false

/-- Set the mark of an instruction that completes, if it is still the latest that names it (R238). -/
def Que.setOwnMark (x : Que) (i : QInst) : Que :=
  match entSetm i.entry with
  | none => x
  | some m => if x.namer.any (fun e => e.1 == m && e.2 == i.serial) then x.setMark m true else x

/-- Give a holder's request-state space back. -/
def Ctl.rsaGive (c : Ctl) (bay holder : Nat) : Ctl :=
  let r := c.rsa bay
  c.putRsa bay { r with used := r.used.filter (fun e => e.1 != holder) }

/-- A collective closes when the instruction of every post has completed (R273); its request-state space is given back. -/
def Ctl.closeColls (c : Ctl) : Ctl :=
  let gone := c.colls.filter (fun (k : Coll) => !k.posts.any (fun (p : CollPost) => (c.instOf p.queue p.serial).isSome))
  gone.foldl (fun d (k : Coll) =>
    ({ d with colls := d.colls.filter (fun (x : Coll) => x.id != k.id) }.rsaGive k.bay k.id).bump (Reg.cruCtr 0)) c

/-- Take an instruction out of the queue; a queue that has been disabled reads DISABLED once nothing is in flight. -/
def Ctl.dropInst (c : Ctl) (q serial : Nat) : Ctl :=
  let x := c.que q
  let l := x.insts.filter (fun (y : QInst) => y.serial != serial)
  ((c.putQue q { x with insts := l, st := if l.isEmpty && c.rd (Reg.queEnable q) = 0 then .disabled else x.st }).rsaGive
    (c.rd (Reg.queBay q)) serial).closeColls

/-- Complete an instruction (R239, R242, R243, R245, R247, R261): its record, its mark, or the stop of the queue. A record
whose write must be retried leaves everything as it is. -/
def State.complete (s : State) (q : Nat) (x : QInst) (st d : Byte) : State :=
  let bay := s.ctl.rd (Reg.queBay q)
  let ok := st = stOK
  let d := if ok && bitOf x.flags 8 then dDISABLED else d
  let rec_ := recordOf q (s.ctl.queSize q) (leAt x.entry 0 1) x.index st d x.flags x.count x.info
  let after (s : State) : State :=
    s.onCtl (fun c =>
      let c := if bitOf x.flags 1 then c.countClamp bay else c
      let c := if ok || entCont x.entry then c.putQue q ((c.que q).setOwnMark x) else c.putQue q ((c.que q).stop st d x.index)
      let c := if ok && entOpcode x.entry = 0x05 then c.putQue q ((c.que q).stop stOK 0x30 x.index) else c
      c.dropInst q x.serial)
  if ok && entNorec x.entry then after s
  else
    match s.writeRecord q x.index rec_ with
    | .ok s => after s
    | .fail s st' _ =>
      if st' = stRETRY then s
      else s.onCtl (fun c =>
        let c := if bitOf x.flags 1 then c.countClamp bay else c
        (c.queueFault q st' dRECORDFAIL x.index).dropInst q x.serial)

/-- A piece that finds no unit free to take it waits, unchanged (R490): no status of the spec. -/
def stWAIT : Byte := 0xFF

/-- Run an action of an instruction. A RETRY is kept for INTERNAL_RETRY (R248); any other stop ends the instruction. -/
def State.runInst (s : State) (q : Nat) (x : QInst) (act : QInst → Act QInst) : State :=
  match (act x).run { s := s, fl := x.flags } with
  | .ok (y, ax) => ax.s.onCtl (fun c => c.putInst q { y with flags := ax.fl, retry := none })
  | .error e =>
    if e.status = stWAIT then s else
    let y := (e.ax.s.ctl.instOf q x.serial).getD x
    e.ax.s.onCtl (fun c => c.putInst q
      (if e.status = stRETRY then
        { y with flags := e.ax.fl, retry := some (e.status, e.detail, match x.retry with | some r => r.2.2 | none => c.now) }
      else { y.finish e.status e.detail with flags := e.ax.fl }))

/-- Begin an issued instruction of an opcode; an orderly shutdown ends it BUSY (R252). -/
def State.startInst (s : State) (q index opcode : Nat) (act : QInst → Act QInst) : State :=
  match s.ctl.inst? q index (fun x => x.phase == .issued && x.retry.isNone && entOpcode x.entry == opcode) with
  | none => s
  | some x => if s.ctl.rd Reg.glbState = 3 then s.onCtl (·.putInst q (x.finish stBUSY dNONE)) else s.runInst q x act

/-- Keep an instruction's progress, so that a later stop does not lose it. -/
def Act.save (q : Nat) (x : QInst) : Act Unit := do
  let a ← get
  Act.onCtl (·.putInst q { x with flags := a.fl })

/-- Whose instruction it is: the bay and the owner of a queue. -/
def Ctl.queCtx (c : Ctl) (q : Nat) : Nat × Nat := (c.rd (Reg.queBay q), c.rd (Reg.queOwner q))

/-- A counter of a bay's window: its device-wide number, or CTR_RANGE (R160, R251). -/
def Act.counter (bay i : Nat) : Act Nat := do
  let c ← Act.ctl
  if i < c.rd (Reg.winCount bay) then return c.rd (Reg.winFirst bay) + i
  Act.stop stACCESS dCTRRANGE

/-- Add to a counter; it saturates (R160). -/
def Ctl.addCounter (c : Ctl) (i n : Nat) : Ctl := c.putCounter i (BitVec.ofNat 64 (min ((c.counter i).toNat + n) (2 ^ 64 - 1)))

/-- The limit of an instruction with a timeout field: COUNT T-ticks, or its bay's default (Table 9.7). -/
def Ctl.waitLimit (c : Ctl) (q : Nat) (x : QInst) : Nat :=
  if entCount x.entry = 0 then c.rd (Reg.bayWait (c.rd (Reg.queBay q))) else entCount x.entry

end Sys2Proof.Machine
end

