-- ==== Sys2Proof/Machine/MigOps.lean ====
section
/-! DEFINITION. Hints and the migration queue (R209-R211), and the request-state areas (R309). -/

namespace Sys2Proof.Machine

/-- The number of a page in the lists of instructions that wait for its migration. -/
def refNum : PageRef → Nat
  | .flat b p => 2 * (b.val * 2 ^ 36 + p.toNat)
  | .kv r => 2 * r + 1

/-- The tier a page lies in. -/
def Ctl.refTier (c : Ctl) : PageRef → Tier
  | .flat b p => (c.page b.val p.toNat).loc.tier
  | .kv r => match c.kvPage? r with | some pg => pg.tier | none => .none

/-- Whether a page is MIGRATING or waits in the queue. -/
def Ctl.refBusy (c : Ctl) (r : PageRef) : Bool :=
  c.migQ.any (fun (m : Mig) => m.page == r)
  || (match r with
      | .flat b p => (c.page b.val p.toNat).migrating
      | .kv n => match c.kvPage? n with | some pg => pg.migrating | none => false)

/-- A page of a slot of a STREAM window in flight (R211). -/
def Ctl.inWindow (c : Ctl) (bay page : Nat) : Bool :=
  (c.bayQueues bay).any (fun q => (c.que q).insts.any (fun (x : QInst) =>
    entOpcode x.entry == 0x11 && x.phase == .running && !x.param.isEmpty
    && (let base := leAt x.param 16 8 / 65536
        let n := leAt x.param 0 2 * (leAt x.param 8 8 / 65536)
        !bitOf (leAt x.param 16 8) 63 && base ≤ page && page < base + n)))

/-- What a hint does to one page. -/
inductive HintRes where
  | nothing | queued | skipped
  deriving DecidableEq, Repr

/-- The tier a hint code moves to (Table 8.3). -/
def hintGoal (code : Nat) : Tier := if code = 2 then .ddr else if code = 3 then .pool else if code = 0 then .none else .hbm

/-- Apply a hint code to one page of a bay's flat range (R209). -/
def Ctl.hintPage (c : Ctl) (bay page code : Nat) : Ctl × HintRes :=
  let skip (c : Ctl) : Ctl × HintRes := (c.bump Reg.tirHintSkip, .skipped)
  let e := c.page bay page
  if (c.extCover bay (BitVec.ofNat 64 (page * 65536)) 65536).isNone || e.loc.tier = .none || e.lost then skip c
  else if c.inWindow bay page then skip c
  else if code = 0 then (c.putPage bay page { e with pin := false, hint := 0 }, .nothing)
  else
    let ref : PageRef := .flat (Fin.ofNat 4096 bay) (BitVec.ofNat 36 page)
    let t := hintGoal code
    if code ≤ 3 && e.pin then skip c
    else if c.refBusy ref then skip c
    else
      let c := c.putPage bay page { e with hint := BitVec.ofNat 3 code, pin := e.pin || code == 4 || code == 5 }
      if e.loc.tier = t then (c, .nothing)
      else if !c.quotaOk bay t 1 || (c.pickIn bay [] t).isNone then skip c
      else if 4096 ≤ c.migQ.length then skip c
      else (c.queueMig { page := ref, target := t, urgent := false }, .queued)

/-- Apply a hint to the pages of a range in ascending order: the pages queued, and how many were skipped (R209, R267). -/
def Ctl.hintRange (c : Ctl) (bay a n code : Nat) : Ctl × List Nat × Nat :=
  if n = 0 then (c, [], 0)
  else
    let pages := (List.range ((a + n - 1) / 65536 - a / 65536 + 1)).map (fun i => a / 65536 + i)
    if bitOf a 63 then (c.bumpBy Reg.tirHintSkip pages.length, [], pages.length)
    else
      pages.foldl (fun (r : Ctl × List Nat × Nat) p =>
        let h := r.1.hintPage bay p code
        match h.2 with
        | .nothing => (h.1, r.2.1, r.2.2)
        | .queued => (h.1, r.2.1 ++ [refNum (.flat (Fin.ofNat 4096 bay) (BitVec.ofNat 36 p))], r.2.2)
        | .skipped => (h.1, r.2.1, r.2.2 + 1)) (c, [], 0)

/-- A migration has ended: a HINT that waits for it goes on (R267). -/
def Ctl.migEnded (c : Ctl) (ref : PageRef) : Ctl :=
  let n := refNum ref
  { c with ques := Tab.map c.ques (fun _ (q : Que) =>
      { q with insts := q.insts.map (fun (x : QInst) =>
          if entOpcode x.entry = 0x12 && x.phase = .running && x.todo.contains n then
            let y := { x with todo := x.todo.filter (· != n) }
            if y.todo.isEmpty then y.ok else y
          else x) }) }

/-! ### Request-state areas (R309) -/

/-- Data pages allocated to a bay's request-state area. -/
def Rsa.pages (r : Rsa) : Nat := (r.groups.map (fun g => if g.2.length = 10 then 8 else 1)).sum

/-- Pages in use by instructions. -/
def Rsa.inUse (r : Rsa) : Nat := (r.used.map (·.2)).sum

/-- Allocate n pages in different failure units. -/
def Ctl.rsaGroup (c : Ctl) (bay : Nat) (t : Tier) : Nat → List Nat → List Loc → Option (List Loc × Ctl)
  | 0, _, ls => some (ls, c)
  | n + 1, ban, ls =>
    match c.allocLoc bay t ban true with
    | none => none
    | some (l, d) => d.rsaGroup bay t n (d.locUnit l :: ban) (ls ++ [l])

/-- Extend a bay's request-state area to its configured size, until a page finds no room (fuel: pages wanted). -/
def Ctl.rsaExtend (c : Ctl) (bay : Nat) : Nat → Ctl
  | 0 => c
  | fuel + 1 =>
    let r := c.rsa bay
    if c.rd (Reg.rsaPages bay) ≤ r.pages then c
    else
      let t : Tier := if c.rd (Reg.rsaPlace bay) = 1 then .pool else .hbm
      let m := c.rd (Reg.rsaRedun bay)
      let n := if m = 1 then 2 else if m = 2 then 10 else 1
      match (if m = 0 then (c.allocLoc bay t [] true).map (fun e => ([e.1], e.2)) else c.rsaGroup bay t n [] []) with
      | none => c
      | some (ls, d) => (d.putRsa bay { r with groups := r.groups ++ [(m, ls)] }).rsaExtend bay fuel

/-- Whether a group of pages has lost more than its redundancy covers (R256, R310). -/
def Ctl.rsaGroupLost (c : Ctl) (g : Nat × List Loc) : Bool := g.1 < (g.2.filter (fun l => (c.liveKey l).isNone)).length

/-- Once no instruction uses an area, what is left of its lost groups is freed (R308, R309). -/
def Ctl.rsaPrune (c : Ctl) (bay : Nat) : Ctl :=
  let r := c.rsa bay
  if r.used.isEmpty then
    let gone := r.groups.filter c.rsaGroupLost
    ((gone.flatMap (·.2)).foldl (fun d l => if (c.liveKey l).isSome then d.freeLoc bay l else d) c).putRsa bay
      { r with groups := r.groups.filter (fun g => !c.rsaGroupLost g) }
  else c

/-- What asking for request-state space comes to: taken; to be waited for; more than the whole area. -/
inductive RsaRes where
  | taken (c : Ctl)
  | wait (c : Ctl)
  | never
  deriving DecidableEq, Repr

/-- Take request-state space for a holder (R308, R309, R323). -/
def Ctl.rsaTake (c : Ctl) (bay holder bytes : Nat) : RsaRes :=
  let n := (bytes + 65535) / 65536
  if c.rd (Reg.rsaPages bay) < n then .never
  else
    let c := (c.rsaPrune bay).rsaExtend bay (c.rd (Reg.rsaPages bay))
    let r := c.rsa bay
    if r.inUse + n ≤ r.pages then .taken (c.putRsa bay { r with used := r.used ++ [(holder, n)] }) else .wait c

/-- Free a bay's request-state area (R309). -/
def Ctl.rsaFree (c : Ctl) (bay : Nat) : Ctl :=
  let r := c.rsa bay
  ((r.groups.flatMap (·.2)).foldl (fun d l => d.freeLoc bay l) c).putRsa bay Rsa.init

end Sys2Proof.Machine
end

