-- ==== Sys2Proof/Machine/LdlOps.lean ====
section
/-! DEFINITION. Ladle (spec/16 §16.1-§16.5): channels, descriptors and their clamping, width conversion, stops. -/

namespace Sys2Proof.Machine

/-- The channels assigned to a bay in INSTR mode on running engines (R399). -/
def Ctl.instrChans (c : Ctl) (bay : Nat) : List Nat :=
  c.regs.filterMap (fun (e : Nat × Word) =>
    if inArray e.1 0x0D010000 0x40 512 0 then
      let k := (e.1 - 0x0D010000) / 0x40
      if bitOf e.2.toNat 12 && !bitOf e.2.toNat 13 && field e.2.toNat 0 12 == bay && k % 32 < 24 && !(c.eng (k / 32)).halted
      then some k else none
    else none)

/-- The channels assigned to a bay. -/
def Ctl.bayChans (c : Ctl) (bay : Nat) : List Nat :=
  c.regs.filterMap (fun (e : Nat × Word) =>
    if inArray e.1 0x0D010000 0x40 512 0 && bitOf e.2.toNat 12 && field e.2.toNat 0 12 == bay
    then some ((e.1 - 0x0D010000) / 0x40) else none)

def Ctl.chAssigned (c : Ctl) (k : Nat) : Bool := c.rd (Reg.ldlChAssigned (k / 32) (k % 32)) == 1 && k % 32 < 24
def Ctl.chChain (c : Ctl) (k : Nat) : Bool := c.rd (Reg.ldlChMode (k / 32) (k % 32)) == 1
def Ctl.chBay (c : Ctl) (k : Nat) : Nat := c.rd (Reg.ldlChBay (k / 32) (k % 32))
def Ctl.chEp (c : Ctl) (k : Nat) : Nat := c.rd (Reg.ldlChEp (k / 32) (k % 32))

/-- Take an INSTR channel for an instruction (R399): BUSY when the bay has none; `none` while the one it is given serves
another. -/
def Act.channel (bay q : Nat) (x : QInst) : Act (Option Nat) := do
  let c ← Act.ctl
  let ks := c.instrChans bay
  match ks[Config.unitHash q x.index 16 % ks.length]? with
  | none => Act.stop stBUSY dNONE
  | some k =>
    let ch := c.chan k
    if ch.st = .idle && ch.serve.isNone then
      Act.onCtl (·.putChan k { ch with st := .running, serve := some (q, x.serial) })
      return some k
    else return none

/-! ### Descriptors (Table 16.1) -/

/-- Width of a code: 1, 2, 4, 8 or 16 bytes. -/
def widthOf (code : Nat) : Nat := if code < 5 then 2 ^ code else 1

/-- A descriptor made legal (R246, R403). -/
def descClean (d : List Byte) : List Byte :=
  let sw := if field (leAt d 24 1) 0 3 < 5 then field (leAt d 24 1) 0 3 else 0
  let dw := if field (leAt d 24 1) 4 3 < 5 then field (leAt d 24 1) 4 3 else 0
  let cv := if field (leAt d 25 1) 0 2 = 3 then 0 else field (leAt d 25 1) 0 2
  let ad (off w : Nat) : Nat := (clearReserved (BitVec.ofNat 64 (leAt d off 8))).toNat / w * w
  let n := min (field (leAt d 16 8) 0 40) (2 ^ 40 / max (widthOf sw) (widthOf dw))
  leBytes 8 (ad 0 (widthOf sw)) ++ leBytes 8 (ad 8 (widthOf dw)) ++ leBytes 8 n ++ leBytes 1 (sw + 16 * dw) ++ leBytes 1 cv
    ++ leBytes 1 (field (leAt d 26 1) 0 4) ++ [0] ++ leBytes 4 (field (leAt d 28 4) 0 20) ++ leBytes 8 (ad 32 64) ++ zeros 24

/-- Convert one element (R404). -/
def convElem (sw dw cv : Nat) (e : List Byte) : List Byte :=
  if dw ≤ sw then e.take dw
  else e ++ List.replicate (dw - sw) (if cv = 2 && bitOf (leNat e) (8 * sw - 1) then 0xFF else 0)

/-- Convert the elements of a descriptor. -/
def convAll (sw dw cv : Nat) (data : List Byte) : List Byte :=
  if sw = dw then data else (chunksOf sw (data.length + 1) data).flatMap (convElem sw dw cv)

/-! ### Stops (R407, R408) -/

/-- Free the channel of an instruction. -/
def Ctl.freeChan (c : Ctl) (k : Nat) : Ctl :=
  c.putChan k { c.chan k with st := if (c.chan k).st = .running then .idle else (c.chan k).st, serve := none }

/-- A channel stops (R407): an instruction it serves ends with the status; a CHAIN channel goes to STOPPED and the fabric
manager is told. -/
def Ctl.stopChan (c : Ctl) (k : Nat) (status detail : Byte) : Ctl :=
  let ch := c.chan k
  let c := c.bump (Reg.ldlCtr 3)
  match ch.serve with
  | some (q, n) => (c.endInst q n status detail).freeChan k
  | none =>
    (c.putChan k { ch with st := .stopped, lastStatus := status, lastDetail := detail, desc := none }).event evLadleStop
      [c.chBay k, k / 32, k % 32, status.toNat]

/-- A bus error halts an engine (R408); the cause is a channel whose fetch failed, or none. -/
def Ctl.busError (c : Ctl) (e : Nat) (cause : Option Nat) : Ctl :=
  let bay := match cause with | some ch => c.chBay (chanKey e ch) | none => 0
  let c := (c.putEng e { halted := true, causeValid := cause.isSome, causeBay := bay, causeCh := cause.getD 0 }).bump (Reg.ldlCtr 2)
  let c := (List.range 24).foldl (fun d i =>
    let k := chanKey e i
    if !d.chAssigned k then d
    else
      let mine := cause.isSome && d.chBay k == bay
      let ch := d.chan k
      let d := match ch.serve with
        | some (q, n) => d.endInst q n (if mine then stHALTED else stHALTEDOTHER) dNONE
        | none => d
      if ch.st = .stopped then d
      else d.putChan k { ch with st := if mine then .halted else .haltedByOther, serve := none, desc := none }) c
  c.event evLadleHalt [e, match cause with | some _ => bay + 1 | none => 0]

/-- What a KICK counter says (R400): it holds more than DONE. -/
def Ctl.kicked (c : Ctl) (k : Nat) : Bool :=
  let i := c.rd (Reg.ldlChKick (k / 32) (k % 32))
  let bay := c.chBay k
  i < c.rd (Reg.winCount bay) && (c.chan k).done.toNat < (c.counter (c.rd (Reg.winFirst bay) + i)).toNat

/-- Copy n bytes as a member of a bay, a piece at a time. -/
def Act.copy (bay ep src dst n : Nat) : Act Unit := do
  let b ← Act.read bay ep src n rightR
  Act.write bay ep dst b

end Sys2Proof.Machine
end

