-- ==== Sys2Proof/Machine/TbarOps.lean ====
section
/-! DEFINITION. Units that compute and the test bar (spec/18 §18.8, R304, R314, R332). -/

namespace Sys2Proof.Machine

/-- How many units of a kind there are. -/
def unitCount : UnitKind → Nat
  | .tile => 272 | .crucible => 136 | .cupola => 34 | .runner => 64 | .riddle => 32

/-- The units of a kind in service. -/
def Ctl.inService (c : Ctl) (k : UnitKind) : List Nat :=
  (List.range (unitCount k)).filter (fun i => (c.unit k i).st == .inService)

/-- Whether a resource that JMP SELFTEST names is this unit. -/
def TestRes.isUnit (c : Ctl) (k : UnitKind) (n : Nat) : TestRes → Bool
  | .tile d l => k == .tile && c.tileMap.get (128 * d.val + l.val) (136 * d.val + l.val) == n
  | .crucible i => k == .crucible && i.val == n
  | .cupola i => k == .cupola && i.val == n

/-- The unit is named by the operator test that runs (R490). -/
def Ctl.namedInTest (c : Ctl) (k : UnitKind) (n : Nat) : Bool :=
  match c.optest with | some t => t.list.any (TestRes.isUnit c k n) | none => false

/-- The units of a kind that take new work: in service and not named by a running test (R490). -/
def Ctl.workers (c : Ctl) (k : UnitKind) : List Nat := (c.inService k).filter (fun i => !c.namedInTest k i)

/-- The unit that a hash of three numbers picks among those that take work. -/
def Ctl.pickUnit (c : Ctl) (k : UnitKind) (a b n : Nat) : Option Nat :=
  let l := c.workers k
  l[Config.unitHash a b n % l.length]?

/-- A unit has done a piece of work for a bay. -/
def Ctl.worked (c : Ctl) (k : UnitKind) (u bay : Nat) : Ctl :=
  let x := c.unit k u
  c.putUnit k u { x with bay := bay, work := x.work + 1 }

/-- Work items of the test bar: their number of Table order, the units that compute them (R466). -/
def itemIdx : ItemKind → Nat
  | .chunk => 0 | .combinePiece => 1 | .cupolaPass => 2 | .patternBlock => 3
def itemUnit : ItemKind → UnitKind
  | .chunk => .crucible | .combinePiece => .crucible | .cupolaPass => .cupola | .patternBlock => .tile
/-- The block that a mismatch of a kind is charged to (Table 18.2); an expander's is charged to its tile. -/
def itemBlock : ItemKind → Nat
  | .chunk => 0x09 | .combinePiece => 0x09 | .cupolaPass => 0x0C | .patternBlock => 0x0E

/-- The test bar's SEED: drawn from the entropy source at cold reset (R466). -/
def Ctl.tbarSeed (c : Ctl) : Nat := (Config.entropy c.seedAt).toNat % 2 ^ 64

/-- The next item of a kind: its number, and whether it is sampled (R466). -/
def Ctl.nextItem (c : Ctl) (k : ItemKind) : Nat × Bool × Ctl :=
  let l := if c.items.length = 4 then c.items else [0, 0, 0, 0]
  let n := natAt l (itemIdx k)
  (n, mix c.tbarSeed n % 2 ^ c.rd Reg.tbrS == 0, { c with items := setAt l (itemIdx k) (n + 1) })

/-- The units that can compute an item beside the one that did: any of its kind in service; for a Pattern block the tiles
of the same die (R395). -/
def Ctl.others (c : Ctl) (k : ItemKind) (first : Nat) : List Nat :=
  (c.workers (itemUnit k)).filter (fun u => u != first && (k != .patternBlock || u / 136 == first / 136))

/-- Charge a unit under R467; the second charge within the window quarantines it (R468). -/
def Ctl.chargeUnit (c : Ctl) (k : ItemKind) (u cls : Nat) : Ctl :=
  let c := c.report (rep (itemBlock k) cls u)
  let x := c.unit (itemUnit k) u
  let recent := x.charges.filter (fun t => c.now < t + 2 ^ c.rd Reg.tbrWin)
  let c := c.putUnit (itemUnit k) u { x with charges := recent ++ [c.now], mism := min 65535 (x.mism + 1) }
  if recent.isEmpty then c else c.quarantine (itemUnit k) u

end Sys2Proof.Machine
end

