-- ==== Sys2Proof/Machine/Collectives.lean ====
section
/-! DEFINITION. Collectives (spec/10 §10.4, spec/11 §11.4, §11.7). -/

namespace Sys2Proof.Machine

/-- Bytes of an element of a type that is not MX (Table 10.3). -/
def elemSize (dt : Nat) : Nat := if dt = 0 || dt = 11 then 4 else if dt = 1 || dt = 2 then 2 else 1

/-- The floating format of a type. -/
def dtFmt : Nat → Fmt
  | 0 => .fp32 | 2 => .fp16 | 3 => .e4m3 | 4 => .e5m2 | _ => .bf16

def isMx (dt : Nat) : Bool := 5 ≤ dt && dt ≤ 9
def isFloat (dt : Nat) : Bool := dt ≤ 4
/-- Bytes of an MX block of 32. -/
def mxBlock (dt : Nat) : Nat := if dt ≤ 6 then 33 else if dt ≤ 8 then 25 else 17

/-- Bytes of n elements of a type. -/
def bytesOf (dt n : Nat) : Nat := if isMx dt then n / 32 * mxBlock dt else n * elemSize dt

/-- A reduction that adds contributions in Crucibles. -/
def isReduction (o : Nat) : Bool := o ≤ 0x22

/-- The rounding mode of a ROUND code. -/
def rndOf (round seed idx : Nat) : Rnd := if round = 1 then .zero else if round = 2 then .stoch seed idx else .even

/-- The order of MIN and MAX on encodings (Table 11.5): −∞ < negative < −0 < +0 < positive < +∞. -/
def floatKey (f : Fmt) (x : Nat) : Int :=
  let m := field x 0 (f.eb + f.mb)
  if bitOf x (f.eb + f.mb) then -(m : Int) - 1 else m

/-- The result of one element from its contributions (R271, R297), and whether an input was NaN. -/
def reduceElem (dt op round seed idx : Nat) (xs : List Nat) : Nat × Bool :=
  if isFloat dt then
    let f := dtFmt dt
    let nanIn := xs.any (fun x => (f.decode x).isNan)
    if op ≤ 1 then
      let a := xs.foldl (fun (a : Acc) x => let v := f.decode x; a.add (-149) v v.isNan) Acc.clear
      (a.read (-149) f (rndOf round seed idx) (if op = 1 then xs.length else 1), nanIn)
    else if nanIn then (f.nan, true)
    else
      (xs.tail.foldl (fun b x => if (if op = 2 then decide (floatKey f x < floatKey f b) else decide (floatKey f b < floatKey f x)) then x else b) (xs.headD 0), false)
  else
    let w := 8 * elemSize dt
    let lo : Int := -(2 ^ (w - 1) : Nat)
    let hi : Int := (2 ^ (w - 1) : Nat) - 1
    let vs := xs.map (signed w)
    match op with
    | 2 => (unsigned w (vs.tail.foldl min (vs.headD 0)), false)
    | 3 => (unsigned w (vs.tail.foldl max (vs.headD 0)), false)
    | 4 => (xs.tail.foldl Nat.land (xs.headD 0), false)
    | 5 => (xs.tail.foldl Nat.lor (xs.headD 0), false)
    | 6 => (xs.tail.foldl Nat.xor (xs.headD 0), false)
    | _ => (unsigned w (max lo (min hi vs.sum)), false)

/-- Elements of a byte string. -/
def elemsOf (dt : Nat) (b : List Byte) : List Nat := (chunksOf (elemSize dt) (b.length + 1) b).map leNat

/-! ### Posts -/

def Ctl.collOf (c : Ctl) (id : Nat) : Option Coll := c.colls.find? (fun (k : Coll) => k.id == id)
def Ctl.putColl (c : Ctl) (k : Coll) : Ctl := { c with colls := c.colls.map (fun (x : Coll) => if x.id = k.id then k else x) }

/-- Set INFO (and flags) of the instructions of a collective's posts. -/
def Ctl.onPosts (c : Ctl) (k : Coll) (f : CollPost → QInst → QInst) : Ctl :=
  k.posts.foldl (fun d p => match d.instOf p.queue p.serial with
    | some x => (match x.phase with | .finished _ _ => d | _ => d.putInst p.queue (f p x))
    | none => d) c

/-- A collective fails: every member that has posted completes with the status (R272, R273, R310). -/
def Ctl.failColl (c : Ctl) (k : Coll) (status detail : Byte) : Ctl :=
  let k := { k with failed := some (status, detail), todo := [], held := [] }
  let c := c.putColl k
  let c := { c with rechecks := c.rechecks.filter (fun (r : Recheck) => !(r.kind == ItemKind.chunk && r.owner == k.id)) }
  (c.onPosts k (fun _ x => { x with info := k.phase }.finish status detail)).rsaGive k.bay k.id

/-- ALLREDUCE with ELEMS above 2^20 runs in two phases (R256, R308). -/
def Coll.twoPhase (k : Coll) : Bool := k.opcode == 0x21 && decide (2 ^ 20 < k.elems)

/-- Chunks of 1,024 result elements (R304). -/
def Coll.chunks (k : Coll) : Nat := (k.elems + 1023) / 1024

/-- Elements that each rank of a REDUCESCATTER receives (Table 10.7). -/
def Coll.share (k : Coll) : Nat := (k.elems + k.members.length - 1) / k.members.length

/-- Elements written to a member (Table 10.1). -/
def Coll.countFor (k : Coll) (rank : Nat) : Nat :=
  match k.opcode with
  | 0x20 => if rank = k.root then k.elems else 0
  | 0x22 => min k.elems (k.share * (rank + 1)) - min k.elems (k.share * rank)
  | 0x23 => k.members.length * k.elems
  | _ => k.elems

/-- The rank of a post. -/
def Coll.rankOf (k : Coll) (p : CollPost) : Nat := k.members.idxOf p.ep

/-- The collective has ended well for a member (R306): its record's COUNT and INFO. -/
def Ctl.collDone (c : Ctl) (k : Coll) (phases : Nat) : Ctl :=
  c.onPosts k (fun p x =>
    match p.bad with
    | some (st, d) => { x with info := phases - 1 }.finish st d
    | none => { x with count := k.countFor (k.rankOf p), info := phases }.ok)

/-- Run an action and catch a stop other than RETRY. -/
def Act.catch {α : Type} (a : Act α) : Act (Except (Byte × Byte) α) := fun x =>
  match a.run x with
  | .ok (v, y) => .ok (.ok v, y)
  | .error e => if e.status = stRETRY then .error e else .ok (.error (e.status, e.detail), e.ax)

/-- Write to a member's DST; a failure marks that member's post (R310). -/
def Act.collWrite (id bay : Nat) (w : OutWrite) : Act Unit := do
  match ← Act.catch (Act.write bay w.ep w.addr w.data) with
  | .ok _ => pure ()
  | .error e =>
    Act.onCtl (fun c => match c.collOf id with
      | some k => c.putColl { k with posts := k.posts.map (fun (p : CollPost) => if p.ep = w.ep && p.bad.isNone then { p with bad := some e } else p) }
      | none => c)

/-- ALLGATHER and BROADCAST once every member has posted: each contribution copied unchanged into its place (R306). -/
def actCopies (id : Nat) : Act Unit := do
  match (← Act.ctl).collOf id with
  | none => pure ()
  | some k =>
    let n := bytesOf k.dtype k.elems
    for src in k.posts do
      let r := k.rankOf src
      if k.opcode = 0x23 || r = k.root then
        match ← Act.catch (Act.read k.bay src.ep src.src.toNat n rightR) with
        | .error e => Act.onCtl (fun c => match c.collOf id with | some k => if k.failed.isNone then c.failColl k e.1 e.2 else c | none => c)
        | .ok b =>
          for dst in k.posts do
            Act.collWrite id k.bay { ep := dst.ep, addr := dst.dst.toNat + (if k.opcode = 0x23 then r * n else 0), data := b }
    Act.onCtl (fun c => match c.collOf id with | some k => if k.failed.isNone then c.collDone k 1 else c | none => c)

/-- Every member has posted: a reduction's chunks can be read out, if its request-state space can be had (R308). -/
def Ctl.beginColl (c : Ctl) (k : Coll) : Ctl :=
  let k := { k with begun := true, todo := List.range k.chunks }
  if k.twoPhase then
    match c.rsaTake k.bay k.id (k.elems * elemSize k.dtype) with
    | .never => (c.putColl k).failColl k stBUSY dNONE
    | .wait d => d.putColl { k with begun := false }
    | .taken d => d.putColl k
  else c.putColl k

/-- A member posts a collective (R270, R272, Table 10.6). A post that has joined and is tried again only copies. -/
def actPost (q opcode : Nat) (x : QInst) : Act QInst := do
  let c ← Act.ctl
  let (bay, ep) := c.queCtx q
  match c.colls.find? (fun (k : Coll) => k.posts.any (fun p => p.serial == x.serial)) with
  | some k =>
    actCopies k.id
    return ((← Act.ctl).instOf q x.serial).getD x
  | none =>
  let p ← Act.param bay ep (entA x.entry) 64
  let red := isReduction opcode
  let dt0 := leAt p 1 1
  let dtOk := if red then dt0 ≤ 4 || dt0 == 10 || dt0 == 11 else dt0 ≤ 11
  let dt ← Act.clamp dt0 (if dtOk then dt0 else 1)
  let op0 := leAt p 2 1
  let opOk := op0 ≤ 6 && (op0 != 1 || isFloat dt) && (op0 ≤ 3 || !isFloat dt)
  let op ← if red then Act.clamp op0 (if opOk then op0 else 0) else pure 0
  let round ← if red then Act.clamp (leAt p 3 1) (if leAt p 3 1 ≤ 2 then leAt p 3 1 else 0) else pure 0
  let seed := if red then leAt p 40 8 else 0
  Act.zero (leAt p 6 2)
  Act.zero (leAt p 12 4)
  Act.zero (leAt p 48 16)
  let e0 := leAt p 16 8
  let elems ← Act.clamp e0 (if isMx dt then clampNat 32 (2 ^ 36) e0 / 32 * 32 else clampNat 1 (2 ^ 36) e0)
  let src ← Act.addr (leAt p 24 8)
  let dst ← Act.addr (leAt p 32 8)
  let group := leAt p 0 1
  let c ← Act.ctl
  let m := (c.bay bay).cur
  match m.bind (fun m => m.groups.find? (fun (g : Nat × List Nat) => g.1 == group)) with
  | none => Act.stop stACCESS 0x33
  | some g =>
    let root ← if opcode = 0x20 || opcode = 0x24 then Act.range (leAt p 4 2) 0 (g.2.length - 1) else pure 0
    if !g.2.contains ep then Act.stop stACCESS dNONE
    let post : CollPost := { ep := ep, queue := q, serial := x.serial, src := BitVec.ofNat 64 src, dst := BitVec.ofNat 64 dst, bad := none }
    let seqno := leAt p 8 4
    match c.colls.find? (fun (k : Coll) => k.bay == bay && k.group == group && k.seqno == seqno) with
    | none =>
      if 4096 ≤ c.colls.length then Act.stop stRETRY dNONE
      let gen := match m with | some m => m.gen | none => 0
      Act.onCtl (fun c =>
        let (id, c) := c.fresh
        let k : Coll :=
          { id := id, bay := bay, group := group, seqno := seqno, gen := gen, opcode := opcode, dtype := dt, op := op,
            round := round, root := root, elems := elems, seed := seed, members := g.2, posts := [post], openedAt := c.now,
            begun := false, todo := [], held := [], out := [], phase := 0, failed := none }
        let c := { c with colls := c.colls ++ [k] }
        let n := c.colls.length
        if c.rd ⟨0x0A000000, 48, 13⟩ < n then c.wr ⟨0x0A000000, 48, 13⟩ n else c)
    | some k =>
      if k.posts.any (fun (p : CollPost) => p.ep == ep) then Act.stop stACCESS 0x32
      let same := k.opcode = opcode && k.dtype = dt && k.op = op && k.round = round && k.root = root && k.elems = elems && k.seed = seed
      let k := { k with posts := k.posts ++ [post] }
      Act.onCtl (·.putColl k)
      match k.failed with
      | some f => Act.stop f.1 f.2
      | none =>
        if !same then
          Act.onCtl (fun c => c.failColl k stACCESS 0x31)
          Act.stop stACCESS 0x31
    let a ← get
    Act.onCtl (·.putInst q { x with phase := .running, flags := a.fl })
    match (← Act.ctl).colls.find? (fun (k : Coll) => k.posts.any (fun p => p.serial == x.serial)) with
    | some k =>
      if k.failed.isNone && k.members.all (fun e => k.posts.any (fun (p : CollPost) => p.ep == e)) then
        if red then Act.onCtl (·.beginColl k) else actCopies k.id
    | none => pure ()
    return ((← Act.ctl).instOf q x.serial).getD x

def execReduce (queue : Fin 16384) (index : BitVec 32) (s : State) : Host.Outcome State Fault Refusal :=
  done (s.startInst queue.val index.toNat 0x20 (actPost queue.val 0x20))
def execAllreduce (queue : Fin 16384) (index : BitVec 32) (s : State) : Host.Outcome State Fault Refusal :=
  done (s.startInst queue.val index.toNat 0x21 (actPost queue.val 0x21))
def execReducescatter (queue : Fin 16384) (index : BitVec 32) (s : State) : Host.Outcome State Fault Refusal :=
  done (s.startInst queue.val index.toNat 0x22 (actPost queue.val 0x22))
def execAllgather (queue : Fin 16384) (index : BitVec 32) (s : State) : Host.Outcome State Fault Refusal :=
  done (s.startInst queue.val index.toNat 0x23 (actPost queue.val 0x23))
def execBroadcast (queue : Fin 16384) (index : BitVec 32) (s : State) : Host.Outcome State Fault Refusal :=
  done (s.startInst queue.val index.toNat 0x24 (actPost queue.val 0x24))

/-! ### Chunks -/

/-- Transpose equal rows of elements: the contributions of each element. -/
def columns (rows : List (List Nat)) (n : Nat) : List (List Nat) := (List.range n).map (fun i => rows.map (fun r => natAt r i))

/-- Where the results of a chunk go (R306): from element `first`, `data` in the elements' size. -/
def Coll.writes (k : Coll) (first : Nat) (data : List Byte) : List OutWrite :=
  let sz := elemSize k.dtype
  let n := data.length / sz
  match k.opcode with
  | 0x20 => (k.posts.filter (fun p => k.rankOf p == k.root)).map (fun p => { ep := p.ep, addr := p.dst.toNat + first * sz, data := data })
  | 0x21 => k.posts.map (fun p => { ep := p.ep, addr := p.dst.toNat + first * sz, data := data })
  | _ => k.posts.filterMap (fun p =>
      let r := k.rankOf p
      let lo := max first (k.share * r)
      let hi := min (first + n) (min k.elems (k.share * (r + 1)))
      if lo < hi then some { ep := p.ep, addr := p.dst.toNat + (lo - k.share * r) * sz, data := (data.drop ((lo - first) * sz)).take ((hi - lo) * sz) }
      else none)

/-- A chunk is released: into the request-state area of a two-phase ALLREDUCE, else to its receivers (R306, R308). -/
def actRelease (id chunk : Nat) (outs : List OutWrite) (data : List Byte) : Act Unit := do
  match (← Act.ctl).collOf id with
  | none => pure ()
  | some k =>
    if !k.twoPhase then
      for w in outs do Act.collWrite id k.bay w
    Act.onCtl (fun c => match c.collOf id with
      | none => c
      | some k =>
        let k := { k with todo := k.todo.filter (· != chunk), held := k.held.filter (· != chunk),
                          out := if k.twoPhase then k.out.put chunk data else k.out }
        let whole := k.todo.isEmpty && k.held.isEmpty
        let k := if whole then { k with phase := 1 } else k
        let c := c.putColl k
        if whole && !k.twoPhase then c.collDone k 1 else c)

/-- Read a chunk out (R305, R306, R297, R311): every contribution read once as its member, the results rounded once. A
contribution that fails ends the collective for every member (R310). -/
def actChunk (id chunk unit : Nat) : Act Unit := do
  match (← Act.ctl).collOf id with
  | none => pure ()
  | some k =>
    let sz := elemSize k.dtype
    let first := chunk * 1024
    let n := min 1024 (k.elems - first)
    let mut rows : List (List Nat) := []
    let mut bad : Option (Byte × Byte) := none
    for p in k.posts do
      if bad.isNone then
        match ← Act.catch (Act.read k.bay p.ep (p.src.toNat + first * sz) (n * sz) rightR) with
        | .ok b => rows := rows ++ [elemsOf k.dtype b]
        | .error e => bad := some e
    match bad with
    | some e => Act.onCtl (·.failColl k e.1 e.2)
    | none =>
      let res := (columns rows n).zipIdx.map (fun e => reduceElem k.dtype k.op k.round k.seed (first + e.2) e.1)
      let nans := if isFloat k.dtype then (res.filter (fun r => r.1 == (dtFmt k.dtype).nan)).length else 0
      let data := res.flatMap (fun r => leBytes sz r.1)
      let nanIn := res.any (·.2)
      Act.onCtl (fun c =>
        let c := ((c.worked .crucible unit k.bay).bump (Reg.cruCtr 1)).bumpBy (Reg.cruCtr 5) nans
        if nanIn then c.onPosts k (fun _ x => { x with flags := Nat.lor x.flags crNANIN }) else c)
      let (item, hit, c) := (← Act.ctl).nextItem .chunk
      Act.onCtl (fun _ => c)
      let outs := k.writes first data
      if hit && !(c.others .chunk unit).isEmpty then
        let r : Recheck :=
          { item := item, kind := .chunk, first := unit, owner := id, queue := 0, piece := chunk, bay := k.bay, flags := 0,
            outs := { ep := 0, addr := 0, data := data } :: outs, rows := [], nans := nans }
        Act.onCtl (fun c => match c.collOf id with
          | some k => { c.putColl { k with todo := k.todo.filter (· != chunk), held := k.held ++ [chunk] } with rechecks := c.rechecks ++ [r] }
          | none => c)
      else
        if hit then Act.onCtl (·.bump (Reg.tbrCtr 3))
        actRelease id chunk outs data

/-- Run an action that belongs to no instruction; a RETRY leaves the rest for another time. -/
def State.runAct (s : State) (a : Act Unit) : State :=
  match a.run { s := s, fl := 0 } with
  | .ok (_, ax) => ax.s
  | .error e => e.ax.s

def execChunkReadout (bay : Fin 4096) (group : Fin 256) (seqno : BitVec 32) (chunk : Nat) (s : State) :
    Host.Outcome State Fault Refusal :=
  let find (c : Ctl) : Option Coll := c.colls.find? (fun (k : Coll) => k.bay == bay.val && k.group == group.val && k.seqno == seqno.toNat && k.failed.isNone)
  let all (k : Coll) : Bool := k.members.all (fun e => k.posts.any (fun (p : CollPost) => p.ep == e))
  let s := match find s.ctl with
    | some k => if all k && !k.begun && isReduction k.opcode then s.onCtl (·.beginColl k) else s
    | none => s
  done (match find s.ctl with
    | some k =>
      if k.begun && k.todo.contains chunk then
        match s.ctl.pickUnit .crucible k.id chunk 0 with
        | some u => s.runAct (actChunk k.id chunk u)
        | none => s
      else s
    | none => s)

/-- STRAGGLER (R273): not every member has posted within the limit. -/
def execStraggler (bay : Fin 4096) (group : Fin 256) (seqno : BitVec 32) (s : State) : Host.Outcome State Fault Refusal :=
  done (match s.ctl.colls.find? (fun (k : Coll) => k.bay == bay.val && k.group == group.val && k.seqno == seqno.toNat && k.failed.isNone) with
    | some k =>
      if !k.members.all (fun e => k.posts.any (fun (p : CollPost) => p.ep == e)) && s.ctl.rd Reg.straggler ≤ s.ctl.now - k.openedAt
      then s.onCtl (·.failColl k stTIMEOUT dSTRAGGLER) else s
    | none => s)

/-- Phase 2 of an ALLREDUCE for one member (R308): the results copied from the request-state area to its DST. -/
def actAllgather (k : Coll) (p : CollPost) (x : QInst) : Act QInst := do
  Act.write k.bay p.ep p.dst.toNat (k.out.flatMap (fun e => e.2))
  return { x with count := k.elems, info := 2 }.ok

end Sys2Proof.Machine
end

