-- ==== Sys2Proof/Machine/Functions.lean ====
section
/-! DEFINITION. The defined functions (spec/11 §11.5): exp2 (R298), log2 (R299), reciprocal and reciprocal square root
(R300), to the bit, for FP32. The two tables of irrational entries hold the values of R298's and R299's formulas. -/

namespace Sys2Proof.Machine

/-- tb of R298: entry j is 2^(j/64) × 2^32 rounded. -/
def exp2Tab : List Nat :=
  [4294967296, 4341736423, 4389014833, 4436808071, 4485121744, 4533961517, 4583333121, 4633242347]
  ++ [4683695048, 4734697143, 4786254615, 4838373510, 4891059943, 4944320094, 4998160210, 5052586606]
  ++ [5107605667, 5163223846, 5219447668, 5276283726, 5333738689, 5391819295, 5450532358, 5509884764]
  ++ [5569883475, 5630535530, 5691848042, 5753828203, 5816483285, 5879820635, 5943847684, 6008571941]
  ++ [6074001000, 6140142534, 6207004303, 6274594148, 6342919999, 6411989869, 6481811861, 6552394164]
  ++ [6623745059, 6695872913, 6768786189, 6842493438, 6917003306, 6992324534, 7068465956, 7145436504]
  ++ [7223245206, 7301901189, 7381413680, 7461792005, 7543045592, 7625183973, 7708216783, 7792153760]
  ++ [7877004752, 7962779710, 8049488696, 8137141881, 8225749546, 8315322086, 8405870007, 8497403930]

/-- lg of R299: entry j is log2(1 + j/64) × 2^32 rounded. -/
def log2Tab : List Nat :=
  [0, 96069025, 190671291, 283850912, 375650043, 466108993, 555266330, 643158981]
  ++ [729822324, 815290272, 899595355, 982768792, 1064840562, 1145839467, 1225793196, 1304728379]
  ++ [1382670639, 1459644648, 1535674166, 1610782092, 1684990500, 1758320682, 1830793181, 1902427829]
  ++ [1973243777, 2043259528, 2112492963, 2180961373, 2248681479, 2315669461, 2381940981, 2447511201]
  ++ [2512394810, 2576606038, 2640158677, 2703066101, 2765341278, 2826996792, 2888044853, 2948497313]
  ++ [3008365682, 3067661140, 3126394546, 3184576458, 3242217134, 3299326552, 3355914416, 3411990165]
  ++ [3467562987, 3522641820, 3577235372, 3631352118, 3685000315, 3738188006, 3790923031, 3843213029]
  ++ [3895065449, 3946487554, 3997486426, 4048068976, 4098241947, 4148011918, 4197385310, 4246368396]

/-- floor(v × 2^e) for a signed v. -/
def floorScaled (v : Int) (e : Int) : Int :=
  if 0 ≤ e then v * (2 ^ e.toNat : Nat) else v / (2 ^ (-e).toNat : Nat)

/-- exp2 of an FP32 code (R298). -/
def exp2 (x : Nat) : Nat :=
  match Fmt.fp32.decode x with
  | .nan => Fmt.fp32.nan
  | .inf neg => if neg then 0 else Fmt.fp32.inf false
  | .fin neg m e =>
    let v : Int := if neg then -(m : Int) else m
    let fl := floorScaled v (e + 32)
    if 128 * 2 ^ 32 ≤ fl then Fmt.fp32.inf false
    else if fl < -(150 * 2 ^ 32) then 0
    else
      let n := fl / 2 ^ 32
      let fx := (fl % 2 ^ 32).toNat
      let r := fx % 2 ^ 26
      let t := 238388332 * r / 2 ^ 32
      let t := (1031764991 + t) * r / 2 ^ 32
      let t := (2977044472 + t) * r / 2 ^ 32
      let m := natAt' exp2Tab (fx / 2 ^ 26) * (2 ^ 32 + t) / 2 ^ 32
      let (m, n) := if 2 ^ 33 ≤ m then (m / 2, n + 1) else (m, n)
      Fmt.fp32.encode .even (.fin false m (n - 32))
where
  natAt' (l : List Nat) (i : Nat) : Nat := l.getD i 0

/-- round(64 / (64 + j) × 2^32), the table inv of R299; no entry is a tie. -/
def invEntry (j : Nat) : Nat := (2 * 2 ^ 38 + (64 + j)) / (2 * (64 + j))

/-- log2 of an FP32 code (R299). -/
def log2Fn (x : Nat) : Nat :=
  match Fmt.fp32.decode x with
  | .nan => Fmt.fp32.nan
  | .inf neg => if neg then Fmt.fp32.nan else Fmt.fp32.inf false
  | .fin neg m e =>
    if m = 0 then Fmt.fp32.inf true
    else if neg then Fmt.fp32.nan
    else
      let k := Nat.log2 m
      let mm := m * 2 ^ 32 / 2 ^ k
      let j := mm / 2 ^ 26 - 64
      let u := (mm - (64 + j) * 2 ^ 26) * invEntry j / 2 ^ 32
      let t := 1549082005 * u / 2 ^ 32
      let t := (2065442673 - t) * u / 2 ^ 32
      let t := (3098164009 - t) * u / 2 ^ 32
      let t := (6196328019 - t) * u / 2 ^ 32
      let v : Int := (e + k) * 2 ^ 32 + (log2Tab.getD j 0 : Nat) + (t : Nat)
      Fmt.fp32.encode .even (Num.ofInt v (-32) false)

/-- The reciprocal of an FP32 code (R300). -/
def rcpFn (x : Nat) : Nat :=
  match Fmt.fp32.decode x with
  | .nan => Fmt.fp32.nan
  | .inf neg => Fmt.fp32.sign neg
  | .fin neg m e =>
    if m = 0 then Fmt.fp32.inf neg
    else if 0 ≤ e then Fmt.fp32.roundRat .even neg 1 (m * 2 ^ e.toNat)
    else Fmt.fp32.roundRat .even neg (2 ^ (-e).toNat) m

/-- The integer square root, bit by bit from bit b - 1. -/
def isqrt : Nat → Nat → Nat → Nat
  | 0, _, r => r
  | b + 1, x, r => isqrt b x (if (r + 2 ^ b) * (r + 2 ^ b) ≤ x then r + 2 ^ b else r)

/-- The reciprocal square root of an FP32 code (R300): 65 bits of quotient and a sticky bit decide the rounding. -/
def rsqFn (x : Nat) : Nat :=
  match Fmt.fp32.decode x with
  | .nan => Fmt.fp32.nan
  | .inf neg => if neg then Fmt.fp32.nan else 0
  | .fin neg m e =>
    if m = 0 then Fmt.fp32.inf neg
    else if neg then Fmt.fp32.nan
    else
      let (m, e) := if e % 2 = 0 then (m, e) else (2 * m, e - 1)
      let q := isqrt 65 (2 ^ 128 / m) 0
      let exact := q * q * m = 2 ^ 128
      Fmt.fp32.encode .even (.fin false (2 * q + b2n (!exact)) (-65 - e / 2))

/-- The FP32 product of two codes, rounded once (R289). -/
def fp32Mul (x y : Nat) : Nat := Fmt.fp32.encode .even ((Fmt.fp32.decode x).mul (Fmt.fp32.decode y))

/-- The FP32 difference of two codes, rounded once. -/
def fp32Sub (x y : Nat) : Nat := Fmt.fp32.encode .even ((Fmt.fp32.decode x).add (Fmt.fp32.decode y).negate)

end Sys2Proof.Machine
end

