-- ==== Sys2Proof/Machine/Pieces.lean ====
section
/-! DEFINITION. Instructions that run in pieces (spec/12 §12.1): making a parameter block legal, starting, finishing. -/

namespace Sys2Proof.Machine

/-- Replace the n bytes at `off` by the little-endian bytes of v. -/
def setLE (p : List Byte) (off n v : Nat) : List Byte := p.take off ++ leBytes n v ++ p.drop (off + n)

/-- Make one field of a parameter block legal. -/
def fix (off n : Nat) (f : Nat → Nat) (p : List Byte) : List Byte := setLE p off n (f (leAt p off n))

/-- A reserved field takes 0 (R246 item 5). -/
def fixZero (off n : Nat) : List Byte → List Byte := fix off n (fun _ => 0)
/-- A numeric field takes the nearer end of its range (R246 item 1). -/
def fixRange (off n lo hi : Nat) : List Byte → List Byte := fix off n (clampNat lo hi)
/-- Reserved address bits take 0 (R123). -/
def fixAddr (off : Nat) : List Byte → List Byte := fix off 8 (fun a => (clearReserved (BitVec.ofNat 64 a)).toNat)
/-- A reserved code takes the default. -/
def fixCode (off n : Nat) (ok : Nat → Bool) (dflt : Nat) : List Byte → List Byte := fix off n (fun v => if ok v then v else dflt)

/-- Apply the parts of a cleaning in order. -/
def cleaned (fs : List (List Byte → List Byte)) (p : List Byte) : List Byte := fs.foldl (fun q f => f q) p

/-- Read an instruction's parameter block of n bytes and make it legal: CLAMPED is set when that changes it (R246). -/
def Act.cleanParam (q n : Nat) (x : QInst) (fs : List (List Byte → List Byte)) : Act (List Byte) := do
  let (bay, ep) := (← Act.ctl).queCtx q
  let p ← Act.param bay ep (entA x.entry) n
  let p' := cleaned fs p
  if p' ≠ p then Act.flag crCLAMPED
  return p'

/-- The numbers of the pieces of n units of work, m to a piece. -/
def pieceList (n m : Nat) : List Nat := List.range ((n + m - 1) / m)

/-- A piece has been applied; the last one completes the instruction OK (R239). -/
def QInst.pieceDone (x : QInst) (piece : Nat) : QInst :=
  let y := { x with todo := x.todo.filter (· != piece) }
  if y.todo.isEmpty && y.held = 0 then y.ok else y

/-- BUSY when no unit of a kind is in service (R315, R348). -/
def Act.needUnit (k : UnitKind) : Act Unit := do
  if ((← Act.ctl).inService k).isEmpty then Act.stop stBUSY dNONE

/-- The unit for a piece: by a hash of queue, index and piece among those in service (R314, R332); it does the work. -/
def Act.unitFor (k : UnitKind) (q bay index piece : Nat) : Act Nat := do
  match (← Act.ctl).pickUnit k q index piece with
  | some u =>
    Act.onCtl (·.worked k u bay)
    return u
  | none => if ((← Act.ctl).inService k).isEmpty then Act.stop stBUSY dNONE else Act.stop stWAIT dNONE

/-- Add to counters of a block. -/
def Act.tally (a n : Nat) : Act Unit := Act.onCtl (·.bumpBy a n)

/-- A compute item is sampled for recheck (R466, R467): its number, if another unit can recheck it. -/
def Act.sample (k : ItemKind) (first : Nat) : Act (Option Nat) := do
  let (item, hit, c) := (← Act.ctl).nextItem k
  Act.onCtl (fun _ => c)
  if !hit then return none
  if (c.others k first).isEmpty then
    Act.onCtl (·.bump (Reg.tbrCtr 3))
    return none
  return some item

/-- The address v bytes beyond a base. -/
def addrPlus (base v : Nat) : Nat := (base + v) % 2 ^ 64

/-- The step of an issued instruction that waits for request-state space (R308, R323). -/
def stepWaits : Nat := 9

/-- Write a list of released writes. -/
def Act.writeAll (bay : Nat) (outs : List OutWrite) : Act Unit := do
  for w in outs do Act.write bay w.ep w.addr w.data

end Sys2Proof.Machine
end

