-- ==== Sys2Proof/Machine/Sha3.lean ====
section
/-! DEFINITION. SHA3-256 (FIPS 202), which keys the prefix tree (R360). The state is 25 lanes of 64 bits, lane x + 5y. -/

namespace Sys2Proof.Machine

def keccakRC : List Nat :=
  [0x0000000000000001, 0x0000000000008082, 0x800000000000808A, 0x8000000080008000, 0x000000000000808B, 0x0000000080000001,
   0x8000000080008081, 0x8000000000008009, 0x000000000000008A, 0x0000000000000088, 0x0000000080008009, 0x000000008000000A]
  ++ [0x000000008000808B, 0x800000000000008B, 0x8000000000008089, 0x8000000000008003, 0x8000000000008002, 0x8000000000000080,
   0x000000000000800A, 0x800000008000000A, 0x8000000080008081, 0x8000000000008080, 0x0000000080000001, 0x8000000080008008]

/-- Rotation offsets of lane x + 5y. -/
def keccakRot : List Nat :=
  [0, 1, 62, 28, 27, 36, 44, 6, 55, 20, 3, 10, 43, 25, 39, 41, 45, 15, 21, 8, 18, 2, 61, 56, 14]

def laneAt (a : List (BitVec 64)) (i : Nat) : BitVec 64 := a.getD i 0

/-- One round of Keccak-f[1600]: theta, rho, pi, chi, iota. -/
def keccakRound (a : List (BitVec 64)) (rc : Nat) : List (BitVec 64) :=
  let col := (List.range 5).map (fun x => (List.range 5).foldl (fun s y => s ^^^ laneAt a (x + 5 * y)) 0)
  let d := (List.range 5).map (fun x => laneAt col ((x + 4) % 5) ^^^ (laneAt col ((x + 1) % 5)).rotateLeft 1)
  let t := (List.range 25).map (fun i => laneAt a i ^^^ laneAt d (i % 5))
  -- pi: the lane at (x, y) comes from (x + 3y, x)
  let b := (List.range 25).map (fun i =>
    let x := i % 5
    let y := i / 5
    let j := (x + 3 * y) % 5 + 5 * x
    (laneAt t j).rotateLeft (keccakRot.getD j 0))
  let e := (List.range 25).map (fun i =>
    let x := i % 5
    let y := i / 5
    laneAt b i ^^^ (~~~ laneAt b ((x + 1) % 5 + 5 * y) &&& laneAt b ((x + 2) % 5 + 5 * y)))
  e.zipIdx.map (fun l => if l.2 = 0 then l.1 ^^^ BitVec.ofNat 64 rc else l.1)

def keccakF (a : List (BitVec 64)) : List (BitVec 64) := keccakRC.foldl keccakRound a

/-- Absorb one block of `rate` bytes. -/
def absorb (rate : Nat) (a : List (BitVec 64)) (block : List Byte) : List (BitVec 64) :=
  keccakF ((List.range 25).map (fun i => laneAt a i ^^^ (if 8 * i < rate then BitVec.ofNat 64 (leAt block (8 * i) 8) else 0)))

/-- A SHA3 hash of `n` 64-bit words with a rate of `rate` bytes. -/
def sha3With (rate n : Nat) (m : List Byte) : List Byte :=
  let r := rate - m.length % rate
  let pad : List Byte := if r = 1 then [0x86] else [0x06] ++ zeros (r - 2) ++ [0x80]
  let p := m ++ pad
  let a := (chunksOf rate (p.length + 1) p).foldl (absorb rate) (List.replicate 25 0)
  (List.range n).flatMap (fun i => leBytes 8 (laneAt a i).toNat)

/-- SHA3-256 of a message. -/
def sha3 (m : List Byte) : List Byte := sha3With 136 4 m

/-- SHA3-384 of a message, little-endian. -/
def sha384 (m : List Byte) : BitVec 384 := BitVec.ofNat 384 (leNat (sha3With 104 6 m))

end Sys2Proof.Machine
end

