-- ==== Sys2Proof/Machine/KvTree.lean ====
section
/-! DEFINITION. The prefix tree (R360-R364), sharing pages between regions (R362, R365), and how instructions reach
regions (R352, R353). -/

namespace Sys2Proof.Machine

/-! ### Regions that instructions name -/

/-- The live region that a KVBASE names (R352, R353); KV_RANGE otherwise. -/
def Act.region (bay a : Nat) : Act KvRegion := do
  let w := BitVec.ofNat 64 a
  let c ← Act.ctl
  match (if isNode w && nodeOf w = 0xFFF then c.kvBase bay (offsetOf w) else none) with
  | some r => if r.dying.isNone then return r else Act.stop stACCESS 0x35
  | none => Act.stop stACCESS 0x35

/-- Note that an instruction names regions. -/
def QInst.naming (x : QInst) (rs : List Nat) : QInst := { x with data := x.data.put kvNames rs }

/-- The region of a bay's table entry as it now is. -/
def Act.regionNow (bay i : Nat) : Act KvRegion := do
  match (← Act.ctl).kvFind bay i with
  | some r => return r
  | none => Act.stop stACCESS 0x35

/-- The checks of membership before a unit touches a region (R130, R350). -/
def Act.kvMember (bay ep off right : Nat) : Act Unit := do
  match (← Act.ctl).checkUnit bay ep (nodeAddr 0xFFF off) 1 (some right) with
  | .fail st d _ _ => Act.stop st d
  | .pass _ cls _ => if (if right = rightW then 1 else 2) < cls then Act.stop stACCESS dNONE

/-- Memory of a region is lost for an instruction (R346, R358). -/
def Act.kvLost {α : Type} (bay ep : Nat) (fatal : Bool) : Act α := fun x =>
  let (c, d) := x.s.ctl.memLost bay ep fatal
  .error { ax := { x with s := { x.s with ctl := c } }, status := stPOISONED, detail := d }

/-- Read n bytes at byte o of a region. -/
def Act.kvGet (bay ep i o n : Nat) : Act (List Byte) := do
  let r ← Act.regionNow bay i
  Act.kvMember bay ep (r.base + o) rightR
  let x ← get
  match x.s.mem.readSegs (x.s.ctl.kvSegs r o n) with
  | some b => return b
  | none => Act.kvLost bay ep r.fatal

/-- Write bytes at byte o of a region whose pages are ready. -/
def Act.kvPut (bay ep i o : Nat) (data : List Byte) : Act Unit := do
  let r ← Act.regionNow bay i
  let x ← get
  let segs := x.s.ctl.kvSegs r o data.length
  if x.s.mem.writeBlocked segs then Act.kvLost bay ep r.fatal
  else Act.on (fun s => { s with mem := s.mem.writeSegs segs data })

/-- Make pages of a region ready to be written; no room: TIER_FULL and ACCESS (R203, R359). -/
def Act.kvReady (bay i : Nat) (pages : List Nat) : Act Unit := do
  let x ← get
  match x.s.kvPrepare bay i pages with
  | some s => set { x with s := s }
  | none =>
    Act.onCtl (·.tierFull bay)
    Act.stop stACCESS dNONE

/-- Where the K row of a position and head lies in a region; its V row is 512 × DHEAD beyond (R354). -/
def KvRegion.kOff (r : KvRegion) (p g : Nat) : Nat := p / 256 * r.blks + g * 1024 * r.dhead + p % 256 * (2 * r.dhead)
def KvRegion.vOff (r : KvRegion) (p g : Nat) : Nat := r.kOff p g + 512 * r.dhead

/-- The page numbers of block b of a region. -/
def KvRegion.blockPages (r : KvRegion) (b : Nat) : List Nat :=
  (List.range (r.blks / r.psize)).map (fun j => b * (r.blks / r.psize) + j)

/-! ### The tree -/

/-- The tree domain of a bay (R360): its sharing set, or one of its own. -/
def Ctl.kvDomain (c : Ctl) (bay : Nat) : Nat := if c.rd (Reg.kvsSset bay) = 0 then 256 + bay else c.rd (Reg.kvsSset bay)

def Ctl.kvNode? (c : Ctl) (dom : Nat) (key : BitVec 128) : Option KvNode :=
  c.kvNodes.find? (fun (n : KvNode) => n.domain == dom && n.key == key)

/-- The next use number of a domain. -/
def Ctl.nextUse (c : Ctl) (dom : Nat) : Nat :=
  c.kvNodes.foldl (fun m (n : KvNode) => if n.domain = dom then max m (n.use + 1) else m) 1

/-- Advance a node's use number. -/
def Ctl.touchNode (c : Ctl) (dom : Nat) (key : BitVec 128) : Ctl :=
  let u := c.nextUse dom
  { c with kvNodes := c.kvNodes.map (fun (n : KvNode) => if n.domain = dom && n.key = key then { n with use := u } else n) }

/-- The keys of token blocks (R360), 16 tokens of 4 bytes to a block. -/
def tokenKeys (tag : List Byte) : BitVec 128 → List (List Byte) → List (BitVec 128)
  | _, [] => []
  | prev, t :: rest =>
    let k := BitVec.ofNat 128 (leNat ((sha3 (leBytes 16 prev.toNat ++ t ++ tag)).take 16))
    k :: tokenKeys tag k rest

/-- The keys of the whole token blocks among n tokens. -/
def keysOf (tag tokens : List Byte) (n : Nat) : List (BitVec 128) :=
  tokenKeys tag 0 (chunksOf 64 (n / 16 + 1) (tokens.take (n / 16 * 64)))

/-- The last node of a block record is gone: its references are released, RO is cleared where no other record holds the
page (R363). -/
def Ctl.dropBlock (c : Ctl) (b : Nat) : Ctl :=
  if c.kvNodes.any (fun (n : KvNode) => n.blockRec == b) then c
  else
    match c.kvBlocks.find? b with
    | none => c
    | some k =>
      let c := { c with kvBlocks := c.kvBlocks.del b }
      k.pages.foldl (fun d p =>
        let other := d.kvBlocks.any (fun (e : Nat × KvBlock) => e.2.pages.contains p)
        let d := if other then d else match d.kvPage? p with | some pg => d.putKvPage p { pg with ro := false } | none => d
        d.kvRelease p) c

/-- Remove a node. -/
def Ctl.dropNode (c : Ctl) (n : KvNode) : Ctl :=
  ({ c with kvNodes := c.kvNodes.filter (fun (x : KvNode) => !(x.domain == n.domain && x.key == n.key)) }).dropBlock n.blockRec

/-- A leaf of a bay that can be evicted: the one with the lowest use number that is not on the path (R363). -/
def Ctl.evictable (c : Ctl) (bay : Nat) (path : List (BitVec 128)) : Option KvNode :=
  c.kvNodes.foldl (fun best (n : KvNode) =>
    if n.bay ≠ bay || path.contains n.key || c.kvNodes.any (fun (x : KvNode) => x.domain == n.domain && x.parent == n.key) then best
    else match best with
      | none => some n
      | some (b : KvNode) => if n.use < b.use then some n else best) none

/-- Make room for a node of a bay (R363): `none` when none can be had. -/
def Ctl.nodeRoom (c : Ctl) (bay : Nat) (path : List (BitVec 128)) : Option Ctl :=
  let mine := (c.kvNodes.filter (fun (n : KvNode) => n.bay == bay)).length
  if mine < c.rd (Reg.kvsNodeQuota bay) && c.kvNodes.length < 4194304 then some c
  else (c.evictable bay path).map (fun n => (c.dropNode n).bump Reg.kvsEvicted)

/-- The block record that lists exactly these pages of a block of a region, made if there is none: then each page gains a
reference and becomes RO (R361). -/
def Ctl.blockRecord (c : Ctl) (r : KvRegion) (b : Nat) (pages : List Nat) : Nat × Ctl :=
  let i := c.kvGlobal r
  match List.find? (fun (e : Nat × KvBlock) => e.2.region == i && e.2.block == b && e.2.pages == pages) c.kvBlocks with
  | some e => (e.1, c)
  | none =>
    let n := lowestFree (List.map (·.1) c.kvBlocks) 0
    let c := { c with kvBlocks := c.kvBlocks.put n { pages := pages, region := i, block := b } }
    (n, pages.foldl (fun d p => match d.kvPage? p with
      | some pg => d.putKvPage p { pg with count := pg.count + 1, ro := true }
      | none => d) c)

/-- Insert token blocks j, j+1, ... of a region (R361): the nodes created. -/
def Ctl.insertKeys (c : Ctl) (bay i : Nat) : List (BitVec 128) → Nat → BitVec 128 → List (BitVec 128) → Nat → Ctl × Nat
  | [], _, _, _, made => (c, made)
  | key :: rest, j, parent, path, made =>
    let dom := c.kvDomain bay
    if (c.kvNode? dom key).isSome then (c.touchNode dom key).insertKeys bay i rest (j + 1) key (key :: path) made
    else
      match c.kvFind bay i with
      | none => (c, made)
      | some r =>
        let recs := (r.blockPages (j / 16)).map (fun p => (r.pages.find? p).filter (fun n => (c.kvPage? n).isSome))
        if recs.any (·.isNone) then (c, made)
        else
          match c.nodeRoom bay (key :: path) with
          | none => (c, made)
          | some c =>
            let (b, c) := c.blockRecord r (j / 16) (recs.filterMap id)
            let n : KvNode :=
              { domain := dom, key := key, parent := parent, hkv := r.hkv, dhead := r.dhead, page := r.page, blockRec := b,
                group := j % 16, bay := bay, use := c.nextUse dom }
            ({ c with kvNodes := c.kvNodes ++ [n] }).insertKeys bay i rest (j + 1) key (key :: path) (made + 1)

/-- PREFIX INSERT of n tokens (R361): only whole blocks of 256 positions. -/
def Ctl.prefixInsert (c : Ctl) (bay i : Nat) (tag tokens : List Byte) (n : Nat) : Ctl × Nat :=
  c.insertKeys bay i (keysOf tag tokens (n / 256 * 256)) 0 0 [] 0

/-- The nodes matched from the first key on, of the region's geometry (R362). -/
def Ctl.matchKeys (c : Ctl) (r : KvRegion) (dom : Nat) : List (BitVec 128) → List KvNode
  | [] => []
  | k :: rest =>
    match c.kvNode? dom k with
    | some n => if n.hkv = r.hkv && n.dhead = r.dhead && n.page = r.page then n :: c.matchKeys r dom rest else []
    | none => []

/-! ### Sharing pages (R362, R365) -/

/-- What sharing has done so far: pages mapped, pages copied, the entries for OUT (Table 10.13). -/
structure Shared where
  mapped : Nat
  copied : Nat
  refs : List Nat
  deriving DecidableEq, Repr

/-- Copy a source page into a new page of the target. -/
def Act.copyPage (bay ep i p src : Nat) : Act Unit := do
  let r ← Act.regionNow bay i
  let x ← get
  match x.s.ctl.kvAlloc r p, x.s.ctl.kvPage? src with
  | some d, some sp =>
    match (d.kvFind bay i).bind (fun r' => (r'.pages.find? p).bind d.kvPage?) with
    | some np => set { x with s := { x.s with ctl := d, mem := copyKeys (copyKeys x.s.mem sp.size np.keys sp.keys) sp.size np.alt sp.keys } }
    | none => pure ()
  | none, _ =>
    Act.onCtl (·.tierFull bay)
    Act.stop stACCESS dNONE
  | _, none => Act.kvLost bay ep r.fatal

/-- Map the source pages of a whole block into the target; `src` gives the source's record of the j-th page. -/
def Act.shareBlock (bay ep i b : Nat) (src : List (Option Nat)) (done : Shared) : Act Shared := do
  let mut out := done
  let r ← Act.regionNow bay i
  for e in (r.blockPages b).zip src do
    -- the source keeps the page while the target's own reference is released
    let now ← Act.regionNow bay i
    Act.onCtl (fun c => match e.2 with
      | some n => match c.kvPage? n with | some pg => c.putKvPage n { pg with count := pg.count + 1 } | none => c
      | none => c)
    Act.onCtl (fun c => (c.kvUnmap now e.1).1)
    match e.2 with
    | none => pure ()
    | some n =>
      let cnt := match (← Act.ctl).kvPage? n with | some pg => pg.count | none => 0
      if cnt ≤ 65535 then
        let now ← Act.regionNow bay i
        Act.onCtl (fun c => (c.putRegion { now with pages := now.pages.put e.1 n }).bump Reg.kvsMapped)
        out := { out with mapped := out.mapped + 1, refs := out.refs ++ [n] }
      else
        Act.onCtl (fun c => match c.kvPage? n with | some pg => c.putKvPage n { pg with count := pg.count - 1 } | none => c)
        Act.copyPage bay ep i e.1 n
        out := { out with copied := out.copied + 1, refs := out.refs ++ [n + 2 ^ 63] }
  return out

/-- Take over the first m % 256 positions of block b: new pages, the rows copied, the rest zero (R362 step 2). -/
def Act.shareRows (bay ep i b m : Nat) (src : List (Option Nat)) (done : Shared) : Act Shared := do
  let r ← Act.regionNow bay i
  let pages := r.blockPages b
  -- the source block seen as pages of a region of the same layout
  let view : KvRegion := { r with pages := ((pages.zip src).filterMap (fun e => e.2.map (fun n => (e.1, n)))) }
  let rows := (List.range r.hkv).flatMap (fun g => [(r.kOff (256 * b) g, 2 * r.dhead * (m % 256)), (r.vOff (256 * b) g, 2 * r.dhead * (m % 256))])
  let x ← get
  let data := rows.map (fun e => x.s.mem.readSegs (x.s.ctl.kvSegs view e.1 e.2))
  if data.any (·.isNone) then Act.kvLost bay ep r.fatal
  for p in pages do
    let now ← Act.regionNow bay i
    Act.onCtl (fun c => (c.kvUnmap now p).1)
  Act.kvReady bay i ((pages.zip src).filterMap (fun e => if e.2.isSome then some e.1 else none))
  for e in rows.zip data do
    let now ← Act.regionNow bay i
    -- rows in a page that the source has not allocated read as zero and stay unallocated
    let x ← get
    let segs := x.s.ctl.kvSegs now e.1.1 e.1.2
    Act.on (fun s => { s with mem := s.mem.writeSegs segs (e.2.getD []) })
  let refs := src.filterMap (fun n => n.map (· + 2 ^ 63))
  return { done with copied := done.copied + refs.length, refs := done.refs ++ refs }

/-- Steps 1 and 2 of R362 for m positions: `src b` gives the source's page records of block b. -/
def Act.sharePositions (bay ep i m : Nat) (src : Nat → List (Option Nat)) : Act Shared := do
  let mut out : Shared := { mapped := 0, copied := 0, refs := [] }
  for b in List.range (m / 256) do
    out ← Act.shareBlock bay ep i b (src b) out
  if m % 256 ≠ 0 then
    out ← Act.shareRows bay ep i (m / 256) m (src (m / 256)) out
  return out

end Sys2Proof.Machine
end

