-- ==== Sys2Proof/Machine/KvInstr.lean ====
section
/-! DEFINITION. KVAPPEND, PREFIX and KVFORK (spec/14 §14.4-§14.6, spec/10 §10.6). -/

namespace Sys2Proof.Machine

/-- DHEAD: rounded down to a power of two and clamped to 32-256 (Table 10.11). -/
def fixDhead (off : Nat) : List Byte → List Byte :=
  fix off 2 (fun v => clampNat 32 256 (if v = 0 then 0 else 2 ^ Nat.log2 v))

def cleanAppend : List (List Byte → List Byte) :=
  [fixAddr 0, fixRange 12 4 1 (2 ^ 24), fixRange 16 2 1 256, fixDhead 18, fixZero 20 4, fixAddr 24, fixAddr 32, fixZero 40 8]

/-- KVAPPEND (R359). -/
def actAppend (q : Nat) (x : QInst) : Act QInst := do
  let (bay, ep) := (← Act.ctl).queCtx q
  let p ← Act.cleanParam q 48 x cleanAppend
  let r ← Act.region bay (leAt p 0 8)
  if r.hkv ≠ leAt p 16 2 || r.dhead ≠ leAt p 18 2 then Act.stop stACCESS 0x35
  let pos := leAt p 8 4
  let n := leAt p 12 4
  if 256 * r.capb < pos + n then Act.stop stACCESS 0x35
  Act.kvMember bay ep r.base rightW
  let rb := 2 * r.dhead
  let rows := (List.range n).flatMap (fun j => (List.range r.hkv).flatMap (fun g => [(j, g, r.kOff (pos + j) g, 24), (j, g, r.vOff (pos + j) g, 32)]))
  let pages := insertAll [] (rows.flatMap (fun e => List.map (·.1) (kvPieces r.psize (rb / r.psize + 2) e.2.2.1 rb)))
  let c ← Act.ctl
  if pages.any (fun k => match (r.pages.find? k).bind c.kvPage? with | some pg => pg.ro | none => false) then
    Act.onCtl (·.bump Reg.kvsRoRefused)
    Act.stop stACCESS 0x35
  Act.kvReady bay r.index pages
  for e in rows do
    let data ← Act.read bay ep (addrPlus (leAt p e.2.2.2 8) (2 * ((e.1 * r.hkv + e.2.1) * r.dhead))) rb rightR
    Act.kvPut bay ep r.index e.2.2.1 data
  return { x with count := n }.naming [r.index] |>.ok

def execKvappend (queue : Fin 16384) (index : BitVec 32) (s : State) : Host.Outcome State Fault Refusal :=
  done (s.startInst queue.val index.toNat 0x41 (actAppend queue.val))

def cleanPrefix : List (List Byte → List Byte) :=
  [fixAddr 0, fixCode 12 4 (· ≤ 1) 0, fixZero 16 8, fixAddr 24]

/-- PREFIX: the block, the region, the token ids offered (R361, R362); `op` 0 LOOKUP, 1 INSERT. The other row leaves the
instruction alone. -/
def actPrefix (q op : Nat) (x : QInst) : Act QInst := do
  let (bay, ep) := (← Act.ctl).queCtx q
  let before ← get
  let p ← Act.cleanParam q 48 x (cleanPrefix ++ [fun p => if leAt p 12 4 = 0 then fixAddr 40 p else p])
  if leAt p 12 4 ≠ op then
    set before
    return x
  let r ← Act.region bay (leAt p 0 8)
  let n ← Act.range (leAt p 8 4) 1 (256 * r.capb)
  let tag := slice p 32 8
  let used := if op = 0 then n / 16 * 16 else n / 256 * 256
  let tokens ← Act.read bay ep (leAt p 24 8) (4 * used) rightR
  let c ← Act.ctl
  if op = 1 then
    let (c, made) := c.prefixInsert bay r.index tag tokens n
    Act.onCtl (fun _ => c)
    return { x with info := made }.naming [r.index] |>.ok
  else
    Act.kvMember bay ep r.base rightW
    let nodes := c.matchKeys r (c.kvDomain bay) (keysOf tag tokens n)
    let m := 16 * nodes.length
    -- the source of a block is the record of its last matched node
    let src (b : Nat) : List (Option Nat) :=
      match (nodes.drop (16 * b)).take 16 |>.getLast? with
      | some nd => match c.kvBlocks.find? nd.blockRec with | some k => k.pages.map some | none => []
      | none => []
    let out ← Act.sharePositions bay ep r.index m src
    for nd in nodes do Act.onCtl (·.touchNode nd.domain nd.key)
    Act.onCtl (·.bumpBy Reg.kvsMatched m)
    Act.write bay ep (leAt p 40 8) (out.refs.flatMap (leBytes 8))
    return { x with count := m }.naming [r.index] |>.ok

def execPrefixLookup (queue : Fin 16384) (index : BitVec 32) (s : State) : Host.Outcome State Fault Refusal :=
  done (s.startInst queue.val index.toNat 0x42 (actPrefix queue.val 0))
def execPrefixInsert (queue : Fin 16384) (index : BitVec 32) (s : State) : Host.Outcome State Fault Refusal :=
  done (s.startInst queue.val index.toNat 0x42 (actPrefix queue.val 1))

def cleanFork : List (List Byte → List Byte) := [fixAddr 0, fixZero 12 12, fixAddr 24, fixZero 32 16]

/-- KVFORK (R365). -/
def actFork (q : Nat) (x : QInst) : Act QInst := do
  let (bay, ep) := (← Act.ctl).queCtx q
  let p ← Act.cleanParam q 48 x cleanFork
  if (← Act.ctl).rd (Reg.kvsFork bay) = 0 then Act.stop stACCESS 0x36
  let a ← Act.region bay (leAt p 0 8)
  let b ← Act.region bay (leAt p 24 8)
  let n := leAt p 8 4
  if a.index = b.index || a.hkv ≠ b.hkv || a.dhead ≠ b.dhead || a.page ≠ b.page || 256 * a.capb < n || 256 * b.capb < n then
    Act.stop stACCESS 0x35
  Act.kvMember bay ep b.base rightW
  let out ← Act.sharePositions bay ep b.index n (fun k => (a.blockPages k).map (fun pg => a.pages.find? pg))
  return { x with count := out.mapped, info := out.copied }.naming [a.index, b.index] |>.ok

def execKvfork (queue : Fin 16384) (index : BitVec 32) (s : State) : Host.Outcome State Fault Refusal :=
  done (s.startInst queue.val index.toNat 0x43 (actFork queue.val))

end Sys2Proof.Machine
end

