-- ==== Sys2Proof/Machine/Runner.lean ====
section
/-! DEFINITION. GATHER, SCATTER, DISPATCH and COMBINE (spec/12 §12.2, §12.5, §12.6; spec/10 §10.5). -/

namespace Sys2Proof.Machine

/-! ### GATHER and SCATTER (Table 10.8) -/

def cleanIndexed : List (List Byte → List Byte) :=
  [fixCode 0 1 (· ≤ 1) 0, fixZero 1 3, fixRange 4 4 1 65536, fixRange 8 8 1 (2 ^ 32), fixRange 16 8 1 (2 ^ 40),
   fixAddr 24, fixAddr 32, fixAddr 40, fixZero 48 16]

/-- Read the parameter block and divide the instruction into pieces of 256 indices (Table 12.1). -/
def actIndexed (q : Nat) (x : QInst) : Act QInst := do
  let p ← Act.cleanParam q 64 x cleanIndexed
  Act.needUnit .runner
  return { x with phase := .running, param := p, todo := pieceList (leAt p 8 8) 256 }

def execGather (queue : Fin 16384) (index : BitVec 32) (s : State) : Host.Outcome State Fault Refusal :=
  done (s.startInst queue.val index.toNat 0x28 (actIndexed queue.val))
def execScatter (queue : Fin 16384) (index : BitVec 32) (s : State) : Host.Outcome State Fault Refusal :=
  done (s.startInst queue.val index.toNat 0x29 (actIndexed queue.val))

/-- Indices first .. first+n-1 of an index array (§12.2). -/
def Act.indices (bay ep : Nat) (p : List Byte) (first n : Nat) : Act (List Nat) := do
  let w := if leAt p 0 1 = 1 then 8 else 4
  let b ← Act.read bay ep (addrPlus (leAt p 24 8) (w * first)) (w * n) rightR
  return (chunksOf w (b.length + 1) b).map leNat

/-- A piece of GATHER (R316). -/
def actGatherPiece (q : Nat) (x : QInst) (piece : Nat) : Act QInst := do
  let (bay, ep) := (← Act.ctl).queCtx q
  let p := x.param
  let rb := leAt p 4 4
  let first := piece * 256
  let n := min 256 (leAt p 8 8 - first)
  let _ ← Act.unitFor .runner q bay x.index piece
  let idx ← Act.indices bay ep p first n
  for e in idx.zipIdx do
    let dst := addrPlus (leAt p 40 8) ((first + e.2) * rb)
    if e.1 < leAt p 16 8 then
      let row ← Act.read bay ep (addrPlus (leAt p 32 8) (e.1 * rb)) rb rightR
      Act.write bay ep dst row
    else Act.write bay ep dst (zeros rb)
  let good := (idx.filter (fun i => decide (i < leAt p 16 8))).length
  Act.tally (Reg.runCtr 0) good
  Act.tally (Reg.runCtr 1) (n - good)
  return { x with count := x.count + good, info := x.info + (n - good) }.pieceDone piece

/-- A piece of SCATTER (R317): a row is written by the highest position that names it. -/
def actScatterPiece (q : Nat) (x : QInst) (piece : Nat) : Act QInst := do
  let (bay, ep) := (← Act.ctl).queCtx q
  let p := x.param
  let rb := leAt p 4 4
  let first := piece * 256
  let n := min 256 (leAt p 8 8 - first)
  let _ ← Act.unitFor .runner q bay x.index piece
  let idx ← Act.indices bay ep p first (leAt p 8 8 - first)
  for j in List.range n do
    let r := natAt idx j
    if r < leAt p 16 8 && !(idx.drop (j + 1)).contains r then
      let row ← Act.read bay ep (addrPlus (leAt p 40 8) ((first + j) * rb)) rb rightR
      Act.write bay ep (addrPlus (leAt p 32 8) (r * rb)) row
  let good := ((idx.take n).filter (fun i => decide (i < leAt p 16 8))).length
  Act.tally (Reg.runCtr 0) good
  Act.tally (Reg.runCtr 1) (n - good)
  return { x with count := x.count + good, info := x.info + (n - good) }.pieceDone piece

/-! ### DISPATCH and COMBINE (Table 10.9) -/

def cleanExperts : List (List Byte → List Byte) :=
  [fixRange 0 4 1 (2 ^ 24), fixRange 4 1 1 16, fixZero 7 1, fixRange 8 2 1 4096, fixZero 10 2, fixRange 12 4 1 (2 ^ 24),
   fixRange 16 4 1 65536, fixZero 20 4, fixAddr 24, fixAddr 40, fixAddr 48, fixAddr 56]

/-- No slot: an overflow in the MAP (R324). -/
def noSlot : Nat := 0xFFFFFFFF

/-- DISPATCH begins with its decision pass, piece 0 (Table 12.1). -/
def actDispatch (q : Nat) (x : QInst) : Act QInst := do
  let p ← Act.cleanParam q 80 x (cleanExperts ++ [fixAddr 64])
  Act.needUnit .runner
  return { x with phase := .running, param := p, todo := [0] }

def execDispatch (queue : Fin 16384) (index : BitVec 32) (s : State) : Host.Outcome State Fault Refusal :=
  done (s.startInst queue.val index.toNat 0x2A (actDispatch queue.val))

/-- What the decision pass gathers: rows held by expert, and the pairs' outcomes (slot, REASON) in order, last first. -/
structure Decision where
  fill : Tab Nat
  outs : List (Nat × Nat)
  deriving DecidableEq, Repr

/-- Decide one pair (Table 12.4): `lower` are the choices of lower rank of the same token. -/
def Decision.pair (d : Decision) (nexp cap e : Nat) (lower : List Nat) : Decision :=
  let held := d.fill.get e 0
  if nexp ≤ e then { d with outs := (noSlot, 1) :: d.outs }
  else if lower.contains e then { d with outs := (noSlot, 2) :: d.outs }
  else if cap ≤ held then { d with outs := (noSlot, 0) :: d.outs }
  else { fill := d.fill.put e (held + 1), outs := (held, 0) :: d.outs }

/-- The decision pass over all choices, K to a token (R324). -/
def decide324 (nexp cap k : Nat) (choices : List Nat) : Decision :=
  (chunksOf k (choices.length + 1) choices).foldl (fun d tok =>
    tok.zipIdx.foldl (fun d e => d.pair nexp cap e.1 (tok.take e.2)) d) { fill := [], outs := [] }

/-- An overflow entry (Table 12.6). -/
def overflowEntry (t c reason e : Nat) : List Byte := leBytes 4 (t % 2 ^ 24 + c * 2 ^ 24 + reason * 2 ^ 28) ++ leBytes 4 e

/-- The decision pass: MAP and the overflow record (Tables 12.4-12.6); the row copies follow, 256 tokens to a piece. -/
def actDecide (q : Nat) (x : QInst) : Act QInst := do
  let (bay, ep) := (← Act.ctl).queCtx q
  let p := x.param
  let ntok := leAt p 0 4
  let k := leAt p 4 1
  let nexp := leAt p 8 2
  let _ ← Act.unitFor .runner q bay x.index 0
  let b ← Act.read bay ep (leAt p 24 8) (4 * ntok * k) rightR
  let choices := (chunksOf 4 (b.length + 1) b).map leNat
  let d := decide324 nexp (leAt p 12 4) k choices
  let outs := d.outs.reverse
  Act.write bay ep (leAt p 56 8) (outs.flatMap (fun o => leBytes 4 o.1))
  let ovfl := ((outs.zip choices).zipIdx).filter (fun e => e.1.1.1 == noSlot)
  let ndrop := ((chunksOf k (outs.length + 1) outs).filter (fun tok => tok.all (fun o => o.1 == noSlot))).length
  let ovf := leAt p 64 8
  Act.write bay ep ovf (leBytes 4 ovfl.length ++ leBytes 4 ndrop ++ zeros 8
    ++ (List.range nexp).flatMap (fun e => leBytes 4 (d.fill.get e 0)))
  Act.write bay ep (addrPlus ovf (16 + 8 * ((nexp + 1) / 2)))
    (ovfl.flatMap (fun e => overflowEntry (e.2 / k) (e.2 % k) e.1.1.2 e.1.2))
  Act.tally (Reg.runCtr 2) ovfl.length
  return { x with info := ovfl.length, count := outs.length - ovfl.length,
                  data := [(0, outs.map (·.1)), (1, choices)], todo := (pieceList ntok 256).map (· + 1) }

/-- The base of an expert's buffer, from EXPTAB. -/
def Act.expertBase (bay ep : Nat) (p : List Byte) (e : Nat) : Act Nat := do
  let b ← Act.read bay ep (addrPlus (leAt p 48 8) (8 * e)) 8 rightR
  Act.addr (leNat b)

/-- A piece of row copies (R325). -/
def actDispatchPiece (q : Nat) (x : QInst) (piece : Nat) : Act QInst := do
  if piece = 0 then actDecide q x
  else
    let (bay, ep) := (← Act.ctl).queCtx q
    let p := x.param
    let k := leAt p 4 1
    let rb := leAt p 16 4
    let first := (piece - 1) * 256
    let n := min 256 (leAt p 0 4 - first)
    let _ ← Act.unitFor .runner q bay x.index piece
    let slots := x.data.get 0 []
    let choices := x.data.get 1 []
    let mut rows := 0
    for t in (List.range n).map (· + first) do
      let mine := (List.range k).filter (fun c => natAt slots (t * k + c) != noSlot)
      if !mine.isEmpty then
        let row ← Act.read bay ep (addrPlus (leAt p 40 8) (t * rb)) rb rightR
        for c in mine do
          let base ← Act.expertBase bay ep p (natAt choices (t * k + c))
          Act.write bay ep (addrPlus base (natAt slots (t * k + c) * rb)) row
          rows := rows + 1
    Act.tally (Reg.runCtr 0) rows
    return x.pieceDone piece

/-- Bytes of an element of COMBINE's DTYPE. -/
def cleanCombine : List (List Byte → List Byte) :=
  cleanExperts ++ [fixCode 5 1 (· ≤ 2) 1, fixCode 6 1 (· ≤ 2) 0,
    fun p => fix 16 4 (fun v => v / elemSize (leAt p 5 1) * elemSize (leAt p 5 1)) p, fixAddr 32]

/-- COMBINE in pieces of 64 tokens (Table 12.1). -/
def actCombine (q : Nat) (x : QInst) : Act QInst := do
  let p ← Act.cleanParam q 80 x cleanCombine
  Act.needUnit .runner
  Act.needUnit .crucible
  return { x with phase := .running, param := p, todo := pieceList (leAt p 0 4) 64 }

def execCombine (queue : Fin 16384) (index : BitVec 32) (s : State) : Host.Outcome State Fault Refusal :=
  done (s.startInst queue.val index.toNat 0x2B (actCombine queue.val))

/-- One element of a combined row (R327-R329): the exact sum of the products of weights and elements, rounded once; and
whether an input was NaN. -/
def combineElem (f : Fmt) (r : Rnd) (pairs : List (Nat × Nat)) : Nat × Bool :=
  if pairs.isEmpty then (0, false)
  else
    let a := pairs.foldl (fun (a : Acc) e =>
      let w := Fmt.fp32.decode e.1
      let v := f.decode e.2
      a.add (-298) (w.mul v) (w.isNan || v.isNan)) Acc.clear
    (a.read (-298) f r 1, a.nanIn)

/-- Fetch and sum the rows of one token: the output row, whether an input was NaN. -/
def Act.combineToken (bay ep : Nat) (p : List Byte) (t : Nat) : Act (List Nat × Bool) := do
  let k := leAt p 4 1
  let dt := leAt p 5 1
  let sz := elemSize dt
  let rb := leAt p 16 4
  let ch ← Act.read bay ep (addrPlus (leAt p 24 8) (4 * t * k)) (4 * k) rightR
  let mp ← Act.read bay ep (addrPlus (leAt p 56 8) (4 * t * k)) (4 * k) rightR
  let ws ← Act.read bay ep (addrPlus (leAt p 32 8) (4 * t * k)) (4 * k) rightR
  let mut rows : List (Nat × List Nat) := []
  for c in List.range k do
    let e := leAt ch (4 * c) 4
    let m := leAt mp (4 * c) 4
    if m < leAt p 12 4 && e < leAt p 8 2 then
      let base ← Act.expertBase bay ep p e
      let b ← Act.read bay ep (addrPlus base (m * rb)) rb rightR
      rows := rows ++ [(leAt ws (4 * c) 4, elemsOf dt b)]
  let n := rb / sz
  let out := (List.range n).map (fun i =>
    combineElem (dtFmt dt) (rndOf (leAt p 6 1) (leAt p 72 8) (t * n + i)) (rows.map (fun r => (r.1, natAt r.2 i))))
  return (out.map (·.1), out.any (·.2))

/-- A piece of COMBINE: 64 tokens; a sampled piece waits for its recheck (R315). -/
def actCombinePiece (q : Nat) (x : QInst) (piece : Nat) : Act QInst := do
  let (bay, ep) := (← Act.ctl).queCtx q
  let p := x.param
  let sz := elemSize (leAt p 5 1)
  let rb := leAt p 16 4
  let first := piece * 64
  let n := min 64 (leAt p 0 4 - first)
  let _ ← Act.unitFor .runner q bay x.index piece
  let u ← Act.unitFor .crucible q bay x.index piece
  let mut outs : List OutWrite := []
  for t in (List.range n).map (· + first) do
    let r ← Act.combineToken bay ep p t
    if r.2 then Act.flag crNANIN
    outs := outs ++ [{ ep := ep, addr := addrPlus (leAt p 40 8) (t * rb), data := r.1.flatMap (leBytes sz) }]
  match ← Act.sample .combinePiece u with
  | some item =>
    let r : Recheck :=
      { item := item, kind := .combinePiece, first := u, owner := x.serial, queue := q, piece := piece, bay := bay, flags := 0,
        outs := outs, rows := [], nans := n }
    Act.onCtl (fun c => { c with rechecks := c.rechecks ++ [r] })
    return { x with todo := x.todo.filter (· != piece), held := x.held + 1 }
  | none =>
    Act.writeAll bay outs
    Act.tally (Reg.runCtr 3) n
    return { x with count := x.count + n }.pieceDone piece

end Sys2Proof.Machine
end

