-- ==== Sys2Proof/Machine/Riddle.lean ====
section
/-! DEFINITION. FILTER, TOPK and COMPACT, the completion of pieces, and units leaving service (spec/12 §12.1, §12.3, §12.4). -/

namespace Sys2Proof.Machine

/-- The types of Table 10.10. -/
def riddleType (dt : Nat) : Bool := dt ≤ 2 || dt == 10 || dt == 11

def cleanFilter : List (List Byte → List Byte) :=
  [fixCode 0 1 riddleType 1, fixCode 1 1 (· ≤ 7) 0, fixRange 4 4 1 (2 ^ 24), fixRange 8 4 1 65536,
   fun p => fixRange 12 4 0 (leAt p 8 4 - elemSize (leAt p 0 1)) p, fixAddr 16, fixAddr 40,
   fun p => fix 48 8 (· % 2 ^ (8 * elemSize (leAt p 0 1))) p,
   fun p => if leAt p 1 1 < 6 then p else fix 56 8 (· % 2 ^ (8 * elemSize (leAt p 0 1))) p]

/-- FILTER in pieces of 4,096 rows (Table 12.1). -/
def actFilter (q : Nat) (x : QInst) : Act QInst := do
  let p ← Act.cleanParam q 64 x cleanFilter
  Act.needUnit .riddle
  return { x with phase := .running, param := p, todo := pieceList (leAt p 4 4) 4096 }

def execFilter (queue : Fin 16384) (index : BitVec 32) (s : State) : Host.Outcome State Fault Refusal :=
  done (s.startInst queue.val index.toNat 0x30 (actFilter queue.val))

/-- An element as a number (§12.3): integers are exact. -/
def elemNum (dt x : Nat) : Num :=
  if isFloat dt then (dtFmt dt).decode x else Num.ofInt (signed (8 * elemSize dt) x) 0 false

/-- Whether an element meets a predicate, and whether an operand was NaN (R320). -/
def predicate (dt pred x lo hi : Nat) : Bool × Bool :=
  let a := elemNum dt x
  let b := elemNum dt lo
  let c := elemNum dt hi
  let two := 6 ≤ pred
  if a.isNan || b.isNan || (two && c.isNan) then (pred == 3 || pred == 7, true)
  else
    let inside := !a.lt b && !c.lt a
    (match pred with
      | 0 => a.lt b
      | 1 => !b.lt a
      | 2 => a.eqv b
      | 3 => !a.eqv b
      | 4 => !a.lt b
      | 5 => b.lt a
      | 6 => inside
      | _ => !inside, false)

/-- Pack bits, the first lowest. -/
def packBits (l : List Bool) : List Byte :=
  (chunksOf 8 (l.length + 1) l).map (fun b => BitVec.ofNat 8 (b.zipIdx.foldl (fun a e => a + b2n e.1 * 2 ^ e.2) 0))

/-- Set NAN_IN; an instruction that sets it first is counted. -/
def Act.nanIn : Act Unit := do
  let a ← get
  if Nat.land a.fl crNANIN = 0 then Act.tally (Reg.rdlCtr 1) 1
  Act.flag crNANIN

/-- A piece of FILTER (R319, R320). -/
def actFilterPiece (q : Nat) (x : QInst) (piece : Nat) : Act QInst := do
  let (bay, ep) := (← Act.ctl).queCtx q
  let p := x.param
  let dt := leAt p 0 1
  let first := piece * 4096
  let n := min 4096 (leAt p 4 4 - first)
  let _ ← Act.unitFor .riddle q bay x.index piece
  let mut bits : List Bool := []
  for j in (List.range n).map (· + first) do
    let b ← Act.read bay ep (addrPlus (leAt p 16 8) (j * leAt p 8 4 + leAt p 12 4)) (elemSize dt) rightR
    let r := predicate dt (leAt p 1 1) (leNat b) (leAt p 48 8) (leAt p 56 8)
    if r.2 then Act.nanIn
    bits := bits ++ [r.1]
  Act.write bay ep (addrPlus (leAt p 40 8) (piece * 512)) (packBits bits)
  Act.tally (Reg.rdlCtr 0) n
  return { x with count := x.count + (bits.filter id).length }.pieceDone piece

def cleanCompact : List (List Byte → List Byte) :=
  [fixRange 4 4 1 (2 ^ 24), fixRange 8 4 1 65536, fixAddr 16, fixAddr 24, fixAddr 40]

/-- COMPACT in pieces of 4,096 rows. -/
def actCompact (q : Nat) (x : QInst) : Act QInst := do
  let p ← Act.cleanParam q 64 x cleanCompact
  Act.needUnit .riddle
  return { x with phase := .running, param := p, todo := pieceList (leAt p 4 4) 4096 }

def execCompact (queue : Fin 16384) (index : BitVec 32) (s : State) : Host.Outcome State Fault Refusal :=
  done (s.startInst queue.val index.toNat 0x32 (actCompact queue.val))

/-- A piece of COMPACT (R321): a kept row goes to the place of its count of set bits below it. -/
def actCompactPiece (q : Nat) (x : QInst) (piece : Nat) : Act QInst := do
  let (bay, ep) := (← Act.ctl).queCtx q
  let p := x.param
  let cols := leAt p 8 4
  let first := piece * 4096
  let n := min 4096 (leAt p 4 4 - first)
  let _ ← Act.unitFor .riddle q bay x.index piece
  let mask ← Act.read bay ep (leAt p 40 8) ((first + n + 7) / 8) rightR
  let bit (j : Nat) : Bool := bitOf (leAt mask (j / 8) 1) (j % 8)
  let before := ((List.range first).filter bit).length
  let kept := ((List.range n).map (· + first)).filter bit
  for e in kept.zipIdx do
    let row ← Act.read bay ep (addrPlus (leAt p 16 8) (e.1 * cols)) cols rightR
    Act.write bay ep (addrPlus (leAt p 24 8) ((before + e.2) * cols)) row
  Act.tally (Reg.rdlCtr 0) n
  return { x with count := x.count + kept.length }.pieceDone piece

/-! ### TOPK -/

def cleanTopk : List (List Byte → List Byte) :=
  [fixCode 0 1 riddleType 1, fixRange 4 4 1 (2 ^ 24), fixRange 8 4 1 (2 ^ 24),
   fun p => fixRange 2 2 1 (min 1024 (leAt p 8 4)) p, fixAddr 16, fixAddr 24, fixAddr 32]

/-- Segments of 65,536 columns in a row (R323). -/
def topkSegs (p : List Byte) : Nat := (leAt p 8 4 + 65535) / 65536

/-- TOPK: one piece a row, or a segment; rows longer than 65,536 elements need request-state space first (R323). -/
def actTopk (q : Nat) (x : QInst) : Act QInst := do
  let p ← Act.cleanParam q 64 x cleanTopk
  Act.needUnit .riddle
  let rows := leAt p 4 4
  if leAt p 8 4 ≤ 65536 then return { x with phase := .running, param := p, todo := List.range rows }
  let (bay, _) := (← Act.ctl).queCtx q
  match (← Act.ctl).rsaTake bay x.serial (rows * topkSegs p * leAt p 2 2 * 8) with
  | .never => Act.stop stBUSY dNONE
  | .wait c =>
    Act.onCtl (fun _ => c)
    return { x with step := stepWaits }
  | .taken c =>
    Act.onCtl (fun _ => c.bump (Reg.rdlCtr 2))
    return { x with phase := .running, step := 0, param := p, todo := List.range (rows * topkSegs p) }

def execTopk (queue : Fin 16384) (index : BitVec 32) (s : State) : Host.Outcome State Fault Refusal :=
  done (s.startInst queue.val index.toNat 0x31 (actTopk queue.val))

/-- Whether element x ranks above y (R322): numbers by value, every NaN below them. -/
def ranksAbove (dt x y : Nat) : Bool :=
  let a := elemNum dt x
  let b := elemNum dt y
  if a.isNan then false else if b.isNan then true else b.lt a

/-- Insert an element after every listed one that does not rank below it. -/
def rankInsert (dt : Nat) (e : Nat × Nat) : List (Nat × Nat) → List (Nat × Nat)
  | [] => [e]
  | h :: t => if ranksAbove dt e.1 h.1 then e :: h :: t else h :: rankInsert dt e t

/-- The first k of (element, column) pairs in the order of R322; the columns come in rising order. -/
def topK (dt k : Nat) (l : List (Nat × Nat)) : List (Nat × Nat) :=
  l.foldl (fun best e => (rankInsert dt e best).take k) []

/-- The bytes of the values and of the indices of a row's result: a NaN as the canonical NaN. -/
def topkBytes (dt : Nat) (l : List (Nat × Nat)) : List Byte × List Byte :=
  (l.flatMap (fun e => leBytes (elemSize dt) (if (elemNum dt e.1).isNan then (dtFmt dt).nan else e.1)),
   l.flatMap (fun e => leBytes 4 e.2))

/-- Write a row's result to DST and DST2 (R322). -/
def Act.writeTopk (bay ep : Nat) (p : List Byte) (row : Nat) (l : List (Nat × Nat)) : Act Unit := do
  let dt := leAt p 0 1
  let k := leAt p 2 2
  let b := topkBytes dt l
  Act.write bay ep (addrPlus (leAt p 24 8) (row * k * elemSize dt)) b.1
  Act.write bay ep (addrPlus (leAt p 32 8) (4 * row * k)) b.2

/-- A piece of TOPK: a row written at once, or a segment kept for phase 2. -/
def actTopkPiece (q : Nat) (x : QInst) (piece : Nat) : Act QInst := do
  let (bay, ep) := (← Act.ctl).queCtx q
  let p := x.param
  let dt := leAt p 0 1
  let sz := elemSize dt
  let cols := leAt p 8 4
  let segs := topkSegs p
  let row := piece / segs
  let seg := piece % segs
  let n := min 65536 (cols - seg * 65536)
  let _ ← Act.unitFor .riddle q bay x.index piece
  let b ← Act.read bay ep (addrPlus (leAt p 16 8) ((row * cols + seg * 65536) * sz)) (n * sz) rightR
  let es := (elemsOf dt b).zipIdx.map (fun e => (e.1, seg * 65536 + e.2))
  if es.any (fun e => (elemNum dt e.1).isNan) then Act.nanIn
  let best := topK dt (leAt p 2 2) es
  if segs = 1 then
    Act.writeTopk bay ep p row best
    Act.tally (Reg.rdlCtr 0) 1
    return { x with count := x.count + 1 }.pieceDone piece
  else
    return { x with todo := x.todo.filter (· != piece), data := x.data.put piece (best.flatMap (fun e => [e.1, e.2])) }

/-- The pairs of a kept list. -/
def pairsOf : List Nat → List (Nat × Nat)
  | a :: b :: t => (a, b) :: pairsOf t
  | _ => []

/-- Phase 2 of TOPK (R323): the segment results of each row ranked again, the first KSEL written. -/
def actTopkTwo (q : Nat) (x : QInst) : Act QInst := do
  let (bay, ep) := (← Act.ctl).queCtx q
  let p := x.param
  let segs := topkSegs p
  for row in List.range (leAt p 4 4) do
    let all := (List.range segs).flatMap (fun s => pairsOf (x.data.get (row * segs + s) []))
    Act.writeTopk bay ep p row (topK (leAt p 0 1) (leAt p 2 2) all)
  Act.tally (Reg.rdlCtr 0) (leAt p 4 4)
  return { x with count := leAt p 4 4 }.ok

/-! ### Pieces -/

/-- Run one piece of an instruction by its opcode (R314). -/
def actPiece (q : Nat) (x : QInst) (piece : Nat) : Act QInst :=
  match entOpcode x.entry with
  | 0x28 => actGatherPiece q x piece
  | 0x29 => actScatterPiece q x piece
  | 0x2A => actDispatchPiece q x piece
  | 0x2B => actCombinePiece q x piece
  | 0x30 => actFilterPiece q x piece
  | 0x31 => actTopkPiece q x piece
  | 0x32 => actCompactPiece q x piece
  | _ => pure x

/-- PIECE_COMPLETE: an unfinished piece of a running instruction is done. -/
def execPieceComplete (queue : Fin 16384) (index : BitVec 32) (piece : Nat) (s : State) : Host.Outcome State Fault Refusal :=
  done (match s.ctl.inst? queue.val index.toNat (fun x =>
      x.phase == .running && x.todo.contains piece && 0x28 ≤ entOpcode x.entry && entOpcode x.entry ≤ 0x32) with
    | some x => s.runInst queue.val x (fun x => actPiece queue.val x piece)
    | none => s)

/-- UNIT_OUT_OF_SERVICE (R315): the unit fails; its unfinished pieces run elsewhere, nothing of theirs counts as applied. -/
def execUnitOutOfService (unit : RunUnit) (s : State) : Host.Outcome State Fault Refusal :=
  let (k, n) := match unit with
    | .runner n => (UnitKind.runner, n.val)
    | .riddle n => (UnitKind.riddle, n.val)
  done (s.whenMain (fun c =>
    let u := c.unit k n
    if u.st = .inService then c.putUnit k n { u with st := .failed } else c))

end Sys2Proof.Machine
end

