-- ==== Sys2Proof/Machine/Attention.lean ====
section
/-! DEFINITION. ATTEND (spec/13): passes, scores, the online softmax, the merge tree, outputs. -/

namespace Sys2Proof.Machine

/-! ### Parameters (Tables 10.11, 10.12)

The cleaned parameter block is followed by the cleaned sequence entries. -/

def cleanAttend (ins : Bool) : List (List Byte → List Byte) :=
  [fixRange 0 4 1 65536, fixRange 6 2 1 256, fixRange 4 2 1 256, fun p => fix 4 2 (fun h => max (leAt p 6 2) (h / leAt p 6 2 * leAt p 6 2)) p,
   fixDhead 8, fix 10 1 (· % 8), fixZero 11 1,
   fix 12 4 (fun v => if field v 23 8 = 255 then 0x3F800000 else v),
   fun p => if bitOf (leAt p 10 1) 1 then fixRange 16 4 1 (2 ^ 31) p else p,
   fix 20 4 (fun v => clampNat 256 (2 ^ 24) v / 256 * 256), fixAddr 24, fixAddr 32, fixAddr 40, fixAddr 48, fixAddr 56,
   fun p => if ins then fixAddr 64 p else p, fixZero 80 16]

def cleanSeq (seg : Bool) : List (List Byte → List Byte) :=
  [fixAddr 0, fixZero 20 4, fun e => if seg then fixAddr 24 e else e]

def atNq (p : List Byte) : Nat := leAt p 0 4
def atHq (p : List Byte) : Nat := leAt p 4 2
def atHkv (p : List Byte) : Nat := leAt p 6 2
def atDh (p : List Byte) : Nat := leAt p 8 2
def atCausal (p : List Byte) : Bool := bitOf (leAt p 10 1) 0
def atWindow (p : List Byte) : Bool := bitOf (leAt p 10 1) 1
def atSegment (p : List Byte) : Bool := bitOf (leAt p 10 1) 2
def atSplit (p : List Byte) : Nat := leAt p 20 4
/-- The sequence entry of row r. -/
def atSeq (p : List Byte) (r : Nat) : List Byte := slice p (96 + 32 * r) 32
def atBase (p : List Byte) (r : Nat) : Nat := leAt (atSeq p r) 0 8
def atLen (p : List Byte) (r : Nat) : Nat := leAt (atSeq p r) 8 4
/-- Splits of row r (R337). -/
def atSplits (p : List Byte) (r : Nat) : Nat := (atLen p r + atSplit p - 1) / atSplit p
/-- Output rows. -/
def atRows (p : List Byte) : Nat := atNq p * atHq p

/-- A pass (R331): its output rows, the KV head, the split. -/
structure AttPass where
  rows : List Nat
  head : Nat
  split : Nat
  deriving DecidableEq, Repr

/-- The passes of an ATTEND (R331): by region in the order of first appearance, KV head, groups of 16 rows, split. -/
def attPasses (p : List Byte) : List AttPass :=
  let bases := (List.range (atNq p)).foldl (fun l r => if l.contains (atBase p r) then l else l ++ [atBase p r]) []
  bases.flatMap (fun b => (List.range (atHkv p)).flatMap (fun g =>
    let rows := (List.range (atRows p)).filter (fun i => atBase p (i / atHq p) == b && i % atHq p / (atHq p / atHkv p) == g)
    (chunksOf 16 (rows.length + 1) rows).flatMap (fun grp =>
      let n := grp.foldl (fun m i => max m (atSplits p (i / atHq p))) 0
      (List.range n).map (fun k => { rows := grp, head := g, split := k }))))

/-- The results of output row i kept until phase 2 (R256). -/
def keptRow (i : Nat) : Nat := 2 ^ 41 + i

/-- ATTEND begins (R278, R346, R353): the blocks are read, the regions checked before any other read; INSERT first needs
request-state space for its outputs. -/
def actAttend (q : Nat) (x : QInst) : Act QInst := do
  let (bay, ep) := (← Act.ctl).queCtx q
  let ins := bitOf (entOpf x.entry) 0
  let p ← Act.cleanParam q 96 x (cleanAttend ins)
  let t ← Act.read bay ep (leAt p 32 8) (32 * atNq p) rightR
  let es := chunksOf 32 (t.length + 1) t
  let es' := es.map (cleaned (cleanSeq (atSegment p)))
  if es' ≠ es then Act.flag crCLAMPED
  let p := p ++ es'.flatten
  let mut names : List Nat := []
  for r in List.range (atNq p) do
    let reg ← Act.region bay (atBase p r)
    if reg.hkv ≠ atHkv p || reg.dhead ≠ atDh p || 256 * reg.capb < atLen p r then Act.stop stACCESS 0x35
    names := if names.contains reg.index then names else names ++ [reg.index]
  Act.needUnit .cupola
  let y := { x with param := p }.naming names
  let go : QInst := { y with phase := .running, step := 0, todo := List.range (attPasses p).length }
  let mut out := go
  if ins then
    let bytes := atRows p * 2 * atDh p + (if leAt p 48 8 = 0 then 0 else 8 * atRows p)
    match (← Act.ctl).rsaTake bay x.serial bytes with
    | .never => Act.stop stBUSY dNONE
    | .wait c =>
      Act.onCtl (fun _ => c)
      out := { x with step := stepWaits }
    | .taken c => Act.onCtl (fun _ => c)
  if out.phase == .running then
    let qb ← Act.read bay ep (leAt p 24 8) (2 * atRows p * atDh p) rightR
    if (elemsOf 1 qb).any (fun v => (Fmt.bf16.decode v).isNan) then Act.flag crNANIN
  return out

def execAttend (queue : Fin 16384) (index : BitVec 32) (s : State) : Host.Outcome State Fault Refusal :=
  done (s.startInst queue.val index.toNat 0x40 (actAttend queue.val))

/-! ### Arithmetic -/

/-- sc of R301. -/
def softmaxScale (scale : Nat) : Nat := fp32Mul scale 0x3FB8AA3B

/-- The scaled score of a query and a key row (R334). -/
def score334 (sc : Nat) (qr kr : List Nat) : Nat :=
  let a := (qr.zip kr).foldl (fun (a : Acc) e =>
    a.add (-266) ((Fmt.bf16.decode e.1).mul (Fmt.bf16.decode e.2)) false) Acc.clear
  fp32Mul (a.read (-266) .fp32 .even 1) sc

def negInf : Nat := 0xFF800000
def posInf : Nat := 0x7F800000
def fp32One : Nat := 0x3F800000

/-- The greater of two FP32 codes that are not NaN, −0 below +0. -/
def fp32Max (a b : Nat) : Nat := if floatKey .fp32 a < floatKey .fp32 b then b else a

/-- exp2 of the rounded difference a - m, with the rules of R339 for m = +∞. -/
def expDiff (a m : Nat) : Nat :=
  if m = posInf then (if a = posInf then fp32One else 0) else exp2 (fp32Sub a m)

def RowState.start (dh : Nat) : RowState := { o := List.replicate dh 0, m := negInf, l := 0, nan := false }

/-- One exact sum of products rounded once to FP32 (R338): pairs of FP32 codes and numbers. -/
def sumRound (terms : List (Nat × Num)) : Nat :=
  (terms.foldl (fun (a : Acc) e => a.add (-298) ((Fmt.fp32.decode e.1).mul e.2) false) Acc.clear).read (-298) .fp32 .even 1

/-- One block of one output row (R338, R339, R345): the admissible positions' scores and V rows. -/
def RowState.block (r : RowState) (ps : List (Nat × List Nat)) : RowState :=
  if r.nan || ps.isEmpty then r
  else if ps.any (fun e => (Fmt.fp32.decode e.1).isNan) then { r with nan := true }
  else
    let mb := ps.foldl (fun m e => fp32Max m e.1) negInf
    let m' := fp32Max r.m mb
    let w := (ps.map (fun e => (expDiff e.1 m', e.2))).filter (fun e => e.1 != 0)
    let c := if r.m = negInf then 0 else expDiff r.m m'
    let one := Num.fin false 1 0
    let l := sumRound ((if c = 0 then [] else [(r.l, Fmt.fp32.decode c)]) ++ w.map (fun e => (e.1, one)))
    let o := r.o.zipIdx.map (fun e =>
      sumRound ((if c = 0 then [] else [(e.1, Fmt.fp32.decode c)]) ++ w.map (fun v => (v.1, Fmt.bf16.decode (natAt v.2 e.2)))))
    { o := o, m := m', l := l, nan := false }

/-- The merge of two states (R340). -/
def RowState.merge (a b : RowState) : RowState :=
  if a.nan || b.nan then { a with nan := true }
  else if b.l = 0 then a
  else if a.l = 0 then b
  else
    let m' := fp32Max a.m b.m
    let ca := expDiff a.m m'
    let cb := expDiff b.m m'
    let two (x y : Nat) : Nat := sumRound ((if ca = 0 then [] else [(x, Fmt.fp32.decode ca)]) ++ (if cb = 0 then [] else [(y, Fmt.fp32.decode cb)]))
    { o := (a.o.zip b.o).map (fun e => two e.1 e.2), m := m', l := two a.l b.l, nan := false }

/-- One level of the merge tree (R340). -/
def mergeLevel : List RowState → List RowState
  | a :: b :: t => a.merge b :: mergeLevel t
  | l => l

/-- The merge tree (fuel: its leaves). -/
def mergeTree : Nat → List RowState → Option RowState
  | 0, l => l.head?
  | f + 1, l => if l.length ≤ 1 then l.head? else mergeTree f (mergeLevel l)

/-- An output element O_d / l rounded once to BF16 (R341). -/
def outElem (o l : Nat) : Nat :=
  match Fmt.fp32.decode o, Fmt.fp32.decode l with
  | .nan, _ => Fmt.bf16.nan
  | _, .nan => Fmt.bf16.nan
  | .inf _, .inf _ => Fmt.bf16.nan
  | .inf n, _ => Fmt.bf16.inf n
  | .fin n _ _, .inf _ => Fmt.bf16.sign n
  | .fin n a e, .fin _ b g =>
    if b = 0 then Fmt.bf16.nan
    else
      let x := ratOf a e
      let y := ratOf b g
      Fmt.bf16.roundRat .even n (x.1 * y.2) (x.2 * y.1)

/-! ### Passes -/

/-- Whether LEN, CAUSAL and WINDOW allow a position for a row (R335). -/
def maskAdmits (p : List Byte) (r pos : Nat) : Bool :=
  let qpos := leAt (atSeq p r) 12 4
  decide (pos < atLen p r) && (!atCausal p || decide (pos ≤ qpos)) && (!atWindow p || decide (qpos < pos + leAt p 16 4))

/-- A pass (R331, R334-R339): the states of its rows after the split, and the flags found. -/
def Act.pass (bay ep : Nat) (p : List Byte) (ps : AttPass) : Act (Tab RowState) := do
  let hq := atHq p
  let dh := atDh p
  let sc := softmaxScale (leAt p 12 4)
  let sl := atSplit p
  let reg ← match ps.rows with
    | i :: _ => (do
      let w := BitVec.ofNat 64 (atBase p (i / hq))
      match (← Act.ctl).kvBase bay (offsetOf w) with
      | some r => return r.index
      | none => Act.stop stACCESS 0x35)
    | [] => Act.stop stACCESS 0x35
  let mine := ps.rows.filter (fun i => ps.split < atSplits p (i / hq))
  let mut states : List (Nat × RowState) := mine.map (fun i => (i, RowState.start dh))
  let mut qs : List (Nat × List Nat) := []
  for i in mine do
    let b ← Act.read bay ep (addrPlus (leAt p 24 8) (2 * i * dh)) (2 * dh) rightR
    qs := qs ++ [(i, elemsOf 1 b)]
  for b in List.range (sl / 256) do
    let b0 := ps.split * sl + 256 * b
    let mut adm : List (Nat × List Nat) := []
    for i in mine do
      let r := i / hq
      let cand := ((List.range 256).map (· + b0)).filter (maskAdmits p r)
      if atSegment p then
        let mut keep : List Nat := []
        for pos in cand do
          let k ← Act.read bay ep (addrPlus (leAt (atSeq p r) 24 8) (4 * pos)) 4 rightR
          if leNat k = leAt (atSeq p r) 16 4 then keep := keep ++ [pos]
        adm := adm ++ [(i, keep)]
      else adm := adm ++ [(i, cand)]
    if adm.all (fun e => e.2.isEmpty) then
      if mine.any (fun i => decide (b0 < atLen p (i / hq))) then Act.tally (Reg.cupCtr 2) 1
    else
      let rg ← Act.regionNow bay reg
      let kv ← Act.kvGet bay ep reg (rg.kOff b0 ps.head) (1024 * dh)
      Act.tally (Reg.cupCtr 1) (1024 * dh)
      let row (off : Nat) : List Nat := elemsOf 1 (slice kv off (2 * dh))
      for e in adm do
        let qr := ((qs.find? (fun y => y.1 == e.1)).map (·.2)).getD []
        let scored := (e.2.map (fun pos => (score334 sc qr (row (2 * dh * (pos - b0))), pos))).filter (fun s => s.1 != negInf)
        let st := ((states.find? (fun y => y.1 == e.1)).map (·.2)).getD (RowState.start dh)
        let next := st.block (scored.map (fun s => (s.1, row (512 * dh + 2 * dh * (s.2 - b0)))))
        let nanKey := scored.any (fun s => (row (2 * dh * (s.2 - b0))).any (fun v => (Fmt.bf16.decode v).isNan))
        let nanVal := !next.nan && scored.any (fun s =>
          expDiff s.1 next.m != 0 && (row (512 * dh + 2 * dh * (s.2 - b0))).any (fun v => (Fmt.bf16.decode v).isNan))
        if nanKey || nanVal then Act.flag crNANIN
        states := states.map (fun y => if y.1 = e.1 then (y.1, next) else y)
  return states.foldl (fun (t : Tab RowState) y => t.put (y.1 * 2 ^ 32 + ps.split) y.2) []

/-- Put states into a table. -/
def putAll (t u : Tab RowState) : Tab RowState := u.foldl (fun t e => t.put e.1 e.2) t

/-- PASS_COMPLETE: a pass ends; a sampled one waits for its recheck (R347). -/
def actPass (q : Nat) (x : QInst) (n : Nat) : Act QInst := do
  let (bay, ep) := (← Act.ctl).queCtx q
  match (attPasses x.param)[n]? with
  | none => return x
  | some ps =>
    let u ← Act.unitFor .cupola q bay x.index n
    let rows ← Act.pass bay ep x.param ps
    Act.tally (Reg.cupCtr 0) 1
    let y := { x with todo := x.todo.filter (· != n) }
    match ← Act.sample .cupolaPass u with
    | some item =>
      let r : Recheck :=
        { item := item, kind := .cupolaPass, first := u, owner := x.serial, queue := q, piece := n, bay := bay, flags := 0,
          outs := [], rows := rows, nans := 0 }
      Act.onCtl (fun c => { c with rechecks := c.rechecks ++ [r] })
      return { y with held := y.held + 1 }
    | none => return { y with rows := putAll y.rows rows }

def Ctl.attending? (c : Ctl) (q index : Nat) : Option QInst :=
  c.inst? q index (fun x => x.phase == .running && entOpcode x.entry == 0x40)

def execPassComplete (queue : Fin 16384) (index : BitVec 32) (pass : Nat) (s : State) : Host.Outcome State Fault Refusal :=
  done (match s.ctl.attending? queue.val index.toNat with
    | some x => if x.todo.contains pass then s.runInst queue.val x (fun x => actPass queue.val x pass) else s
    | none => s)

/-! ### Merging and writing rows -/

/-- The state of output row i when every split of it is done. -/
def QInst.rowStates (x : QInst) (i : Nat) : Option (List RowState) :=
  let n := atSplits x.param (i / atHq x.param)
  let l := (List.range n).map (fun k => x.rows.find? (i * 2 ^ 32 + k))
  if l.any (·.isNone) then none else some (l.filterMap id)

/-- What an output row writes: its elements, m and l; whether it is empty (R341-R345). -/
def RowState.result (r : RowState) : List Nat × Nat × Nat × Bool :=
  if r.nan then (r.o.map (fun _ => Fmt.bf16.nan), Fmt.fp32.nan, Fmt.fp32.nan, false)
  else if r.l = 0 then (r.o.map (fun _ => 0), negInf, 0, true)
  else (r.o.map (fun o => outElem o r.l), r.m, r.l, false)

/-- Write one output row and its statistics. -/
def Act.writeRow (bay ep : Nat) (p : List Byte) (i : Nat) (elems : List Nat) (m l : Nat) : Act Unit := do
  Act.write bay ep (addrPlus (leAt p 40 8) (2 * i * atDh p)) (elems.flatMap (leBytes 2))
  if leAt p 48 8 ≠ 0 then Act.write bay ep (addrPlus (leAt p 48 8) (8 * i)) (leBytes 4 m ++ leBytes 4 l)

/-- EMPTYMAP (R343). -/
def Act.writeEmptyMap (bay ep : Nat) (p : List Byte) (empty : List Nat) : Act Unit := do
  if leAt p 56 8 ≠ 0 then Act.write bay ep (leAt p 56 8) (packBits ((List.range (atRows p)).map (fun i => empty.contains i)))

/-- SPLIT_MERGE (R340): the row's states merge and the row is written, or kept for phase 2; the last row ends the
instruction, or phase 1 of it. Keys 0 and 1 of the data hold the rows merged and the empty rows. -/
def actMerge (q : Nat) (x : QInst) (i : Nat) (l : List RowState) : Act QInst := do
  let (bay, ep) := (← Act.ctl).queCtx q
  let p := x.param
  let st := (mergeTree l.length l).getD (RowState.start (atDh p))
  let (elems, m, lv, empty) := st.result
  let ins := bitOf (entOpf x.entry) 0
  if !ins then Act.writeRow bay ep p i elems m lv
  Act.tally (Reg.cupCtr 3) (l.length - 1)
  if empty then
    Act.tally (Reg.cupCtr 4) 1
    Act.flag crEMPTY
  if st.nan then Act.tally (Reg.cupCtr 5) 1
  let d := if ins then x.data.put (keptRow i) (m :: lv :: elems) else x.data
  let merged := i :: d.get 0 []
  let empties := if empty then i :: d.get 1 [] else d.get 1 []
  let y := { x with data := (d.put 0 merged).put 1 empties, info := empties.length }
  if merged.length < atRows p then return y
  else if ins then return { y with step := 1 }
  else
    Act.writeEmptyMap bay ep p empties
    return { y with count := atNq p }.ok

def execSplitMerge (queue : Fin 16384) (index : BitVec 32) (row : Nat) (s : State) : Host.Outcome State Fault Refusal :=
  done (match s.ctl.attending? queue.val index.toNat with
    | some x =>
      if row < atRows x.param && !(x.data.get 0 []).contains row then
        match x.rowStates row with
        | some l => s.runInst queue.val x (fun x => actMerge queue.val x row l)
        | none => s
      else s
    | none => s)

/-- Phase 2 of ATTEND with INSERT (R256, R278, R364): the outputs are written, then each sequence is inserted. -/
def actAttendTwo (q : Nat) (x : QInst) : Act QInst := do
  let (bay, ep) := (← Act.ctl).queCtx q
  let p := x.param
  for i in List.range (atRows p) do
    match x.data.get (keptRow i) [] with
    | m :: l :: elems => Act.writeRow bay ep p i elems m l
    | _ => pure ()
  Act.writeEmptyMap bay ep p (x.data.get 1 [])
  let firsts := (List.range (atNq p)).filter (fun r => !(List.range r).any (fun k => atBase p k == atBase p r))
  let mut off := 0
  for r in firsts do
    let n := atLen p r
    let tokens ← Act.read bay ep (addrPlus (leAt p 64 8) off) (4 * (n / 256 * 256)) rightR
    off := off + 4 * n
    let c ← Act.ctl
    match c.kvBase bay (offsetOf (BitVec.ofNat 64 (atBase p r))) with
    | some reg => Act.onCtl (fun _ => (c.prefixInsert bay reg.index (slice p 72 8) tokens n).1)
    | none => pure ()
  return { x with count := atNq p, step := 2 }.ok

/-- Run again what a unit computed and has not been released (R348, R468, R469). -/
def Ctl.rerunHeld (c : Ctl) (k : UnitKind) (u : Nat) : Ctl :=
  let mine := c.rechecks.filter (fun (r : Recheck) => itemUnit r.kind == k && r.first == u && r.kind != ItemKind.patternBlock)
  mine.foldl (fun d (r : Recheck) =>
    let d := { d with rechecks := d.rechecks.filter (fun (y : Recheck) => !(y.item == r.item && y.kind == r.kind)) }
    match r.kind with
    | .chunk => (match d.collOf r.owner with
      | some cl => d.putColl { cl with todo := cl.todo ++ [r.piece], held := cl.held.filter (· != r.piece) }
      | none => d)
    | _ =>
      let d := if k = .cupola then d.bump (Reg.cupCtr 6) else d
      (match d.instOf r.queue r.owner with
      | some x => d.putInst r.queue { x with todo := x.todo ++ [r.piece], held := x.held - 1 }
      | none => d)) c

/-- CUPOLA_OUT (R348): the Cupola leaves service, a spare comes in, its unreleased passes run again. -/
def execCupolaOut (unit : Fin 34) (s : State) : Host.Outcome State Fault Refusal :=
  done (s.whenMain (fun c => if (c.unit .cupola unit.val).st = .inService then (c.quarantine .cupola unit.val).rerunHeld .cupola unit.val else c))

end Sys2Proof.Machine
end

