-- ==== Sys2Proof/Machine/KvSpace.lean ====
section
/-! DEFINITION. Events of the KV space outside instructions (spec/14 R352, R357, R367; spec/11 R312). -/

namespace Sys2Proof.Machine

/-- Whether an open request is a write to the descriptor of entry i that waits for its region (R352). -/
def waitsDestroy (bay i : Nat) (o : OpenReq) : Bool :=
  o.phase == Phase.kvDestroy && o.frame.bay.toNat == bay && (offsetOf o.frame.addr - 0x10000) / 16 == i

/-- The destroy of a region is applied once no instruction that named it is in flight, and its writes are answered (R352). -/
def Ctl.kvDestroyApplied (c : Ctl) (bay i : Nat) : Ctl :=
  match c.kvFind bay i with
  | none => c
  | some r =>
    if r.dying.isNone || c.kvNamed bay i then c
    else (c.opens.filter (waitsDestroy bay i)).foldl (fun (d : Ctl) (o : OpenReq) =>
      (d.closeReq o.id).answer o.frame stOK dNONE 0 0 [] none none) (c.kvDestroy r)

def execKvDestroyApplied (bay : Fin 4096) (entry : Nat) (s : State) : Host.Outcome State Fault Refusal :=
  done (s.whenMain (·.kvDestroyApplied bay.val entry))

/-- A shared page that is about to be written gets a copy of its own (R357); where no tier has room it stays shared. -/
def State.copyOnWrite (s : State) (bay i p : Nat) : State :=
  match s.ctl.kvFind bay i with
  | none => s
  | some r =>
    match (r.pages.find? p).bind (fun n => (s.ctl.kvPage? n).map (fun pg => (n, pg))) with
    | none => s
    | some (n, pg) => if 1 < pg.count && !pg.ro then (s.kvCow r p n).getD (s.onCtl (·.tierFull bay)) else s

def execCopyOnWrite (bay : Fin 4096) (entry : Nat) (page : Nat) (s : State) : Host.Outcome State Fault Refusal :=
  done (if s.ctl.mainUp then s.copyOnWrite bay.val entry page else s)

def execKvsBayWrite (bay : Fin 4096) (word : Fin 2) (v : Word) (s : State) : Host.Outcome State Fault Refusal :=
  done (s.whenMain (·.writeKvsBay bay.val word.val v))

/-- CRU_BAY_RSA (Table 11.9): applied only while the bay is FREE (R312). -/
def Ctl.writeRsa (c : Ctl) (b : Nat) (v : Word) : Ctl :=
  if (c.bay b).st ≠ .free then c
  else
    let x := v.toNat
    let place := if field x 24 2 = 1 then 1 else 0
    let red := if field x 26 2 = 3 then 0 else field x 26 2
    c.putReg (0x0A010000 + 8 * b) (BitVec.ofNat 64 (field x 0 24 + place * 2 ^ 24 + red * 2 ^ 26))

def execCruBayRsaWrite (bay : Fin 4096) (v : Word) (s : State) : Host.Outcome State Fault Refusal :=
  done (s.whenMain (·.writeRsa bay.val v))

end Sys2Proof.Machine
end

