-- ==== Sys2Proof/Machine/PubOps.lean ====
section
/-! DEFINITION. Published regions (spec/08 §8.6, R215-R217). -/

namespace Sys2Proof.Machine

/-- Bytes of a region's images. -/
def Ctl.regionBytes (c : Ctl) (r : Nat) : Nat := c.rd (Reg.regionLen r) * 65536

/-- The base of image i of a region. -/
def Ctl.regionImg (c : Ctl) (r i : Nat) : Word := c.reg (Reg.regionWord r (i % 2))

/-- The extents of a bay, ACTIVE, that together cover a range (fuel: extents). -/
def Ctl.rangeActive (c : Ctl) (bay a n : Nat) : Nat → Bool
  | 0 => n == 0
  | fuel + 1 =>
    if n = 0 then true
    else
      match List.find? (fun (e : Nat × Extent) => e.2.bay == bay && e.2.st == .active && e.2.base.toNat ≤ a && a < e.2.limit.toNat) c.exts with
      | none => false
      | some e => let m := min n (e.2.limit.toNat - a); c.rangeActive bay (a + m) (n - m) fuel

/-- The checks of R216 for a member class: the extent covering IMG0, or ACCESS. -/
def Ctl.regionOk (c : Ctl) (bay cls r right : Nat) : Bool :=
  c.rd (Reg.regionValid r) == 1 && c.rd (Reg.regionBay r) == bay
  && c.rangeActive bay (c.regionImg r 0).toNat (c.regionBytes r) (c.exts.length + 1)
  && c.rangeActive bay (c.regionImg r 1).toNat (c.regionBytes r) (c.exts.length + 1)
  && (match c.extCover bay (c.regionImg r 0) 1 with
      | some i => rightOf (c.ext i).rights cls right
      | none => false)

/-- The extent that covers the start of an image. -/
def Ctl.imageExt (c : Ctl) (bay r i : Nat) : Nat := (c.extCover bay (c.regionImg r i) 1).getD 0

/-- PUBLISH of version w (R217): success, or CONFLICT; with the version and the endpoint afterwards. -/
def Ctl.publish (c : Ctl) (ep r w : Nat) : Ctl × Bool :=
  if w = (c.rd (Reg.regionVersion r) + 1) % 2 ^ 32 then
    ((c.wr (Reg.regionVersion r) w).wr (Reg.regionLastEp r) ep, true)
  else (c, false)

end Sys2Proof.Machine
end

