-- ==== Sys2Proof/Machine/LossOps.lean ====
section
/-! DEFINITION. Loss of a failure unit and rebuild (spec/08 §8.7, spec/18 §18.10). -/

namespace Sys2Proof.Machine

/-- A location that holds a page whose unit is lost. -/
def Ctl.locDead (c : Ctl) (l : Loc) : Bool := l.tier != .none && (c.liveKey l).isNone

/-- The extent that decides for a page of a bay's flat range. -/
def Ctl.pageExt (c : Ctl) (bay p : Nat) : Option Nat :=
  ((List.find? (fun (e : Nat × Extent) => e.2.bay == bay && e.2.st != .empty && !e.2.backing && !isNode e.2.base
    && e.2.base.toNat ≤ p * 65536 && p * 65536 < e.2.limit.toNat) c.exts).map (·.1))

/-- REDUN of the page: its extent's. -/
def Ctl.pageRedun (c : Ctl) (bay p : Nat) : Nat := match c.pageExt bay p with | some i => (c.ext i).redun.toNat | none => 0

/-- How many pages of a coded group are lost: data, P and Q. -/
def Ctl.groupDead (c : Ctl) (ei p : Nat) : Nat :=
  let e := c.ext ei
  let (g0, n) := e.groupOf p
  let (lp, lq) := c.parityOf ei p
  ((lp :: lq :: (List.range n).map (fun i => (c.page e.bay (g0 + i)).loc)).filter c.locDead).length

/-- Whether a page's bytes are lost beyond its redundancy (R222). -/
def Ctl.pageGone (c : Ctl) (bay p : Nat) : Bool :=
  let pg := c.page bay p
  c.locDead pg.loc && (match c.pageRedun bay p with
    | 0 => true
    | 1 => pg.alt.tier == .none || c.locDead pg.alt
    | _ => match c.pageExt bay p with | some i => decide (2 < c.groupDead i p) | none => true)

/-- Whether a page continues degraded: one of its locations is lost. A page of a coded group may hold the group's P or Q,
or the coded-group table holds it. -/
def Ctl.pageDegraded (c : Ctl) (bay p : Nat) : Bool :=
  let pg := c.page bay p
  c.locDead pg.loc || c.locDead pg.alt
  || (c.pageRedun bay p == 2 && (match c.pageExt bay p with
      | some i => ((c.ext i).groupOf p).2 == 1 && c.locDead (c.coded.get i Loc.none)
      | none => false))

/-- Forget the dirty home-cache lines of a page without writing them back (R470). -/
def Ctl.dropLines (c : Ctl) (k : Nat) : Ctl :=
  { c with homeDirty := c.homeDirty.filter (fun l => !(decide (k ≤ l * 128) && decide (l * 128 < k + 65536))) }

/-- Give up a migration (R207): the destination is freed and the page stays. A source copy that waits to be freed is freed. -/
def Ctl.abandonMig (c : Ctl) (bay p : Nat) : Ctl :=
  let pg := c.page bay p
  if pg.dest.tier = .none then c
  else
    let c := (c.freeLoc bay pg.dest).putPage bay p { pg with migrating := false, dest := Loc.none, copied := 0 }
    if pg.migrating then (c.bump Reg.tirMigAbort).migEnded (.flat (Fin.ofNat 4096 bay) (BitVec.ofNat 36 p)) else c

/-- Set a page LOST (R222, R470): its places are freed; a replacement in HBM or DDR, not refused for quota, is poisoned in
every block; the bay is halted under FATAL. -/
def State.setLost (s : State) (bay p : Nat) : State :=
  let c := s.ctl.abandonMig bay p
  let pg := c.page bay p
  let red := c.pageRedun bay p
  let fatal := match c.pageExt bay p with | some i => (c.ext i).fatal | none => false
  let c := match c.locKey pg.loc with | some k => c.dropLines k | none => c
  let c := c.freeLoc bay pg.loc
  let c := if red = 1 then c.freeLoc bay pg.alt else c
  let pg := { pg with loc := Loc.none, alt := if red = 1 then Loc.none else pg.alt, lost := true }
  let s := match [Tier.hbm, .ddr].findSome? (fun t => c.pickIn bay [] t) with
    | none => { s with ctl := c.putPage bay p pg }
    | some (l, d) =>
      let d := ((d.take l).charge bay l.tier 1).putPage bay p { pg with loc := l }
      { s with ctl := d, mem := match d.locKey l with | some k => s.mem.addPoison k 65536 | none => s.mem }
  if fatal then s.onCtl (·.haltBay bay) else s

/-- What the loss of units means for one page. -/
def State.judgePage (s : State) (k : Nat) : State :=
  let bay := k / 2 ^ 36
  let p := k % 2 ^ 36
  let pg := s.ctl.page bay p
  let s := if pg.migrating && (s.ctl.locDead pg.loc || s.ctl.locDead pg.dest) then s.onCtl (·.abandonMig bay p) else s
  if s.ctl.pageGone bay p then s.setLost bay p
  else if s.ctl.pageDegraded bay p then
    let ref : PageRef := .flat (Fin.ofNat 4096 bay) (BitVec.ofNat 36 p)
    if s.ctl.migQ.any (fun (m : Mig) => m.page == ref && m.urgent) then s
    else s.onCtl (·.queueMig { page := ref, target := (s.ctl.page bay p).loc.tier, urgent := true })
  else s

/-- Bays that map a KV page. -/
def Ctl.kvMappers (c : Ctl) (rec_ : Nat) : List KvRegion :=
  c.kvRegions.filter (fun (r : KvRegion) => r.pages.any (fun e => e.2 == rec_))

/-- Set a KV page LOST (R222, R358): a poisoned replacement in HBM or DDR; bays whose region asks for FATAL are halted. -/
def State.setKvLost (s : State) (rec_ : Nat) (pg : KvPage) : State :=
  let fatal := (s.ctl.kvMappers rec_).filter (fun (r : KvRegion) => r.fatal)
  let c := s.ctl.freeKeys pg.charged pg.tier (if pg.size < 65536 then pg.keys.map (· / 65536 * 65536) else pg.keys)
  let c := if pg.alt.isEmpty then c else c.freeKeys pg.charged pg.altTier pg.alt
  let pg := { pg with alt := [], altTier := Tier.none, lost := true }
  let n := pieces64 pg.size
  let s := match [Tier.hbm, .ddr].findSome? (fun t => (c.kvPick pg.charged pg.region 0 n [] t).map (fun ks => (t, ks))) with
    | none => { s with ctl := c.putKvPage rec_ { pg with keys := [], tier := Tier.none } }
    | some (t, ks) =>
      { s with ctl := (c.takeKeys pg.charged t ks).putKvPage rec_ { pg with keys := ks, tier := t },
               mem := ks.foldl (fun (m : Mem) k => m.addPoison k (min pg.size 65536)) s.mem }
  fatal.foldl (fun x (r : KvRegion) => x.onCtl (·.haltBay r.bay)) s

/-- The loss of units for one KV page record (R222, R358). -/
def State.judgeKv (s : State) (rec_ : Nat) : State :=
  match s.ctl.kvPage? rec_ with
  | none => s
  | some pg =>
    let dead (ks : List Nat) : Bool := ks.any (fun k => !s.ctl.keyLive k)
    let s := if pg.migrating && (dead pg.keys || dead pg.dest) then
        s.onCtl (fun c => (((c.freeKeys pg.charged pg.destTier pg.dest).putKvPage rec_
          { pg with migrating := false, destTier := .none, dest := [], copied := 0 }).bump Reg.tirMigAbort).migEnded (.kv rec_))
      else s
    match s.ctl.kvPage? rec_ with
    | none => s
    | some pg =>
      if dead pg.keys && (pg.alt.isEmpty || dead pg.alt) then s.setKvLost rec_ pg
      else if dead pg.keys || (!pg.alt.isEmpty && dead pg.alt) then
        if s.ctl.migQ.any (fun (m : Mig) => m.page == .kv rec_ && m.urgent) then s
        else s.onCtl (·.queueMig { page := .kv rec_, target := pg.tier, urgent := true })
      else s

/-- Judge every page after a unit was lost (R222). -/
def State.judgeAll (s : State) : State :=
  let s := (List.map (fun (e : Nat × PageEntry) => e.1) s.ctl.tier).foldl State.judgePage s
  (List.map (fun (e : Nat × KvPage) => e.1) s.ctl.kvPages).foldl State.judgeKv s

/-! ### Rebuild (R222) -/

/-- Copy the bytes of one 64 KiB page. -/
def State.copyPage64 (s : State) (dst src : Option Nat) : State :=
  match dst, src with
  | some d, some k => { s with mem := copyKeys s.mem 65536 [d] [k] }
  | _, _ => s

/-- Replace one lost location of a page by a new one outside the given units, its bytes taken from `src`. -/
def State.relocate (s : State) (bay : Nat) (old : Loc) (src : Option Nat) (t : Tier) (ban : List Nat) : Option (Loc × State) :=
  match (s.ctl.freeLoc bay old).allocLoc bay t ban true with
  | none => none
  | some (l, d) => some (l, ({ s with ctl := d }).copyPage64 (d.locKey l) src)

/-- Rebuild one flat page: each of its lost locations moves to a new unit. -/
def State.rebuildFlat (s : State) (bay p : Nat) : State :=
  let c := s.ctl
  let pg := c.page bay p
  let t := hintTier pg.hint.toNat
  match c.pageRedun bay p, c.pageExt bay p with
  | 1, _ =>
    let s := if c.locDead pg.loc && pg.alt.tier != .none then
        match s.relocate bay pg.loc (c.locKey pg.alt) t [c.locUnit pg.alt] with
        | some (l, s) => s.onCtl (fun d => d.putPage bay p { d.page bay p with loc := l })
        | none => s
      else s
    let pg := s.ctl.page bay p
    if s.ctl.locDead pg.alt then
      match s.relocate bay pg.alt (s.ctl.locKey pg.loc) t [s.ctl.locUnit pg.loc] with
      | some (l, s) => s.onCtl (fun d => d.putPage bay p { d.page bay p with alt := l })
      | none => s
    else s
  | 2, some ei =>
    let ban := c.groupUnits ei p
    let s := if c.locDead pg.loc then
        match s.relocate bay pg.loc (c.locKey pg.loc) t ban with
        | some (l, s) => s.onCtl (fun d => d.putPage bay p { d.page bay p with loc := l })
        | none => s
      else s
    let pg := s.ctl.page bay p
    let s := if s.ctl.locDead pg.alt then
        match s.relocate bay pg.alt (s.ctl.locKey pg.alt) t (s.ctl.groupUnits ei p) with
        | some (l, s) => s.onCtl (fun d => d.putPage bay p { d.page bay p with alt := l })
        | none => s
      else s
    let lq := s.ctl.coded.get ei Loc.none
    if ((s.ctl.ext ei).groupOf p).2 = 1 && s.ctl.locDead lq then
      match s.relocate bay lq (s.ctl.locKey lq) t (s.ctl.groupUnits ei p) with
      | some (l, s) => s.onCtl (fun d => { d with coded := d.coded.set ei Loc.none l })
      | none => s
    else s
  | _, _ => s

/-- Rebuild one KV page: the lost copy moves to new units. -/
def State.rebuildKv (s : State) (rec_ : Nat) : State :=
  match s.ctl.kvPage? rec_ with
  | none => s
  | some pg =>
    let dead (ks : List Nat) : Bool := ks.any (fun k => !s.ctl.keyLive k)
    let n := pieces64 pg.size
    let other (keep lose : List Nat) (lt : Tier) (f : Tier → List Nat → KvPage) : State :=
      let c := s.ctl.freeKeys pg.charged lt lose
      match (tierOrder 1).findSome? (fun t => (c.kvPick pg.charged pg.region 0 n (keep.map keyUnit) t).map (fun ks => (t, ks))) with
      | none => s
      | some (t, ks) => { s with ctl := (c.takeKeys pg.charged t ks).putKvPage rec_ (f t ks), mem := copyKeys s.mem pg.size ks keep }
    if dead pg.keys && !pg.alt.isEmpty && !dead pg.alt then other pg.alt pg.keys pg.tier (fun t ks => { pg with tier := t, keys := ks })
    else if !pg.alt.isEmpty && dead pg.alt && !dead pg.keys then other pg.keys pg.alt pg.altTier (fun t ks => { pg with altTier := t, alt := ks })
    else s

/-- Rebuild one page. -/
def State.rebuildPage (s : State) : PageRef → State
  | .flat b p => s.rebuildFlat b.val p.toNat
  | .kv r => s.rebuildKv r

/-- Whether a page is degraded. -/
def Ctl.refDegraded (c : Ctl) : PageRef → Bool
  | .flat b p => c.pageDegraded b.val p.toNat
  | .kv r => match c.kvPage? r with | some pg => (pg.keys ++ pg.alt).any (fun k => !c.keyLive k) | none => false

/-- A unit returns to service: pages still recorded on it are rebuilt elsewhere first, so that its stale bytes serve no
read (R225, R471). -/
def State.beforeReturn (s : State) (onUnit : Nat → Bool) : State :=
  let hit (l : Loc) : Bool := match s.ctl.locKey l with | some k => onUnit k | none => false
  let flats := (s.ctl.tier.filter (fun (e : Nat × PageEntry) => hit e.2.loc || hit e.2.alt)).map
    (fun e => PageRef.flat (Fin.ofNat 4096 (e.1 / 2 ^ 36)) (BitVec.ofNat 36 (e.1 % 2 ^ 36)))
  let kvs := (s.ctl.kvPages.filter (fun (e : Nat × KvPage) => (e.2.keys ++ e.2.alt).any onUnit)).map (fun e => PageRef.kv e.1)
  let s := (flats ++ kvs).foldl State.rebuildPage s
  s.onCtl (fun c => { c with migQ := c.migQ.filter (fun (m : Mig) => !(m.urgent && (flats ++ kvs).contains m.page && !c.refDegraded m.page)) })

end Sys2Proof.Machine
end

