-- ==== Sys2Proof/Machine/DomOps.lean ====
section
/-! DEFINITION. Coherent domains that fail, drain or lose agents (spec/07 §7.1, §7.7). -/

namespace Sys2Proof.Machine

/-- Whether an open request waits at home for a line of a domain. -/
def Ctl.inDomain (c : Ctl) (d : Nat) (o : OpenReq) : Bool :=
  o.phase == Phase.directory && o.frame.bay.toNat == (c.dom d).bay
  && (match o.ext with | some i => (c.ext i).coh && (c.ext i).cdom.toNat == d | none => false)

/-- Poison every 64-byte block of a line (R196 step 4); a page without a place gets one first. -/
def State.poisonLine (s : State) (line : Nat) : State :=
  match s.ctl.lineTarget line with
  | none => s
  | some t =>
    let bay := lineBay line
    let a := lineAddr line
    let s := match t with
      | .flat i => (s.allocFlat bay i (flatPieces 2 a.toNat 128)).getD s
      | _ => s
    let segs := s.ctl.targetSegs bay t a 128
    { s with mem := segs.foldl (fun (m : Mem) (g : Seg) =>
        (g.key.toList ++ g.copies).foldl (fun (x : Mem) k => x.addPoison k g.len) m) s.mem }

/-- Free the entries of a domain; the requests that waited for its ways go on (R193, R194). -/
def State.freeEntries (s : State) (d : Nat) : State :=
  let gone := s.ctl.dir.filter (fun (e : DirEnt) => e.dom == d)
  let s := s.onCtl (fun c => { c with dir := c.dir.filter (fun (e : DirEnt) => e.dom != d) })
  let heirs := gone.filterMap (fun (e : DirEnt) => e.trans.bind (fun (t : Trans) => match t.why with | .victimFor id => some id | _ => none))
  let s := heirs.foldl (fun (x : State) id => x.enterHome id) s
  (insertAll [] (gone.map (fun (e : DirEnt) => e.dset))).foldl (fun (x : State) q => x.startQueued q 9) s

/-- A domain goes down (R196). One that is being drained goes on to FREE, with its lines lost. -/
def State.domainDown (s : State) (d cause ep : Nat) : State :=
  let m := s.ctl.dom d
  if m.st ≠ .up && m.st ≠ .draining then s
  else
    let c := s.ctl.putDom d { m with st := if m.st = .up then .failed else .draining, cause := cause, causeEp := ep }
    let c := (c.opens.filter (c.inDomain d)).foldl (fun (x : Ctl) (o : OpenReq) => x.failReq o.id o.frame stDOMDOWN dNONE 0) c
    let c := m.agents.foldl (fun (x : Ctl) (a : Nat × Nat) =>
      if (x.ep a.2).live then x.homeMsg kCmp m.bay a.2 (BitVec.ofNat 64 d) 0xFFFF stDOMDOWN dNONE [] none else x) c
    let lines := (c.dir.filter (fun (e : DirEnt) => e.dom == d)).map (fun (e : DirEnt) => e.line)
    let s := lines.foldl (fun (x : State) k => x.poisonLine k) { s with ctl := c }
    (s.freeEntries d).onCtl (fun c => (c.event evDomainDown [d, m.bay, cause, ep]).bump Reg.dirDomDown)

/-- Whether an agent is to be removed: its bay has retired a map and the current one does not list it as LIVE (R181). -/
def Ctl.agentLeaves (c : Ctl) (d : Domain) (ep : Nat) : Bool :=
  (c.bay d.bay).old.isNone && (match (c.bay d.bay).cur with | some m => !m.liveEps.contains ep | none => false)

/-- Start the removal of one agent's copy of a line that is not OPEN. -/
def Ctl.removeCopy (c : Ctl) (slot : Nat) (e : DirEnt) : Ctl :=
  if e.trans.isSome || !bitOf e.pres.toNat slot || 12 ≤ c.openWays e.dset then c
  else if e.st = .S then
    let d := c.dom e.dom
    let c := c.putEnt { e with trans := some { why := .removal, await := [slot], awaitWb := [], since := c.now, wbp := false, granted := false } }
    ((c.homeMsg kInv (lineBay e.line) (d.epOf slot) (lineAddr e.line) 0 0 0 [] none).bump Reg.dirInvSent).notePeak e.dset
  else (c.startTrans e .removal none false 0).notePeak e.dset

/-- One agent that leaves: its copies are taken back, then its slot is cleared (R181). -/
def Ctl.removeAgent (c : Ctl) (d slot : Nat) : Ctl :=
  let mine := c.dir.filter (fun (e : DirEnt) => e.dom == d && bitOf e.pres.toNat slot)
  if mine.isEmpty then
    let m := c.dom d
    c.putDom d { m with agents := m.agents.filter (fun (a : Nat × Nat) => a.1 != slot) }
  else mine.foldl (fun (x : Ctl) e => x.removeCopy slot e) c

/-- Go on with the removals and the recall of DRAINING domains as lines close (R181, R198). -/
def Ctl.settleDom (c : Ctl) (d : Nat) : Ctl :=
  let m := c.dom d
  match m.st with
  | .up => (m.agents.filter (fun (a : Nat × Nat) => c.agentLeaves m a.2)).foldl (fun (x : Ctl) a => x.removeAgent d a.1) c
  | .draining =>
    (c.dir.filter (fun (e : DirEnt) => e.dom == d && e.trans.isNone)).foldl (fun (x : Ctl) (e : DirEnt) =>
      if 12 ≤ x.openWays e.dset then x else (x.startTrans e .removal none false 0).notePeak e.dset) c
  | _ => c

/-- Every domain goes on. -/
def Ctl.settleDoms (c : Ctl) : Ctl := (List.map (fun (e : Nat × Domain) => e.1) c.doms).foldl Ctl.settleDom c

/-- DESTROY of an UP domain: queued requests are answered DOMAIN_DOWN, every line is recalled (R198). -/
def Ctl.drainDomain (c : Ctl) (d : Nat) : Ctl :=
  let m := c.dom d
  let waiting := c.opens.filter (fun (o : OpenReq) => c.inDomain d o && c.dirQ.any (fun (q : Nat × Nat) => q.2 == o.id))
  let c := c.putDom d { m with st := .draining }
  (waiting.foldl (fun (x : Ctl) (o : OpenReq) => x.failReq o.id o.frame stDOMDOWN dNONE 0) c).settleDom d

/-- A line of a domain is lost: its directory entry had an uncorrectable error (R195). With the CDOM field corrupted, every
UP domain with an entry in the set goes down. -/
def State.dirEntryLost (s : State) (dom set : Nat) (cdomLost : Bool) : State :=
  let s := s.onCtl (·.report (rep 0x05 0x0F dom))
  if cdomLost then
    (insertAll [] ((s.ctl.dir.filter (fun (e : DirEnt) => e.dset == set)).map (fun (e : DirEnt) => e.dom))).foldl
      (fun (x : State) d => x.domainDown d 3 0) s
  else s.domainDown dom 3 0

end Sys2Proof.Machine
end

