-- ==== Sys2Proof/Machine/ExtOps.lean ====
section
/-! DEFINITION. Extents that come and go (spec/05 §5.4, §5.8): EXTSYNC and EXTDROP, emptying an entry, REVOKE_DONE. -/

namespace Sys2Proof.Machine

/-- The four words of an entry as EXTSYNC carries them, word 3 zero (Table 5.7, Table 6.1). -/
def Extent.bytes (e : Extent) : List Byte :=
  leBytes 8 e.base.toNat ++ leBytes 8 e.limit.toNat
  ++ leBytes 8 (extWord2 e.bay e.rights e.fatal e.prot e.comp e.redun e.hint e.cdom e.coh e.backing) ++ zeros 8

/-- Send EXTSYNC for an entry to its tray (R131, R133). -/
def Ctl.sendExtSync (c : Ctl) (i : Nat) (install : Bool) : Ctl :=
  let e := c.ext i
  c.sendOwn (nodeOf e.base) (withPayload { baseFrame with
    kind := kExtSync, tc := 3, bay := BitVec.ofNat 12 e.bay, addr := BitVec.ofNat 64 i } e.bytes) (.extSync i install)

/-- Send EXTDROP for an entry to its tray (R145). -/
def Ctl.sendExtDrop (c : Ctl) (i : Nat) : Ctl :=
  let e := c.ext i
  (c.putExt i { e with dropped := true }).sendOwn (nodeOf e.base)
    { baseFrame with kind := kExtDrop, tc := 3, bay := BitVec.ofNat 12 e.bay, addr := BitVec.ofNat 64 i } (.extDrop i)

/-- The pages of an extent's flat range that the tier map lists. -/
def Ctl.extPages (c : Ctl) (e : Extent) : List Nat :=
  c.tier.filterMap (fun (x : Nat × PageEntry) =>
    let p := x.1 % 2 ^ 36
    if x.1 / 2 ^ 36 = e.bay && e.base.toNat ≤ p * 65536 && p * 65536 < e.limit.toNat then some p else none)

/-- Free every page of a flat extent (R205): data, second copies, parity. -/
def Ctl.freeExtPages (c : Ctl) (i : Nat) : Ctl :=
  let e := c.ext i
  let c := (c.extPages e).foldl (fun d p =>
    let pg := d.page e.bay p
    let d := (d.abandonMig e.bay p).freeLoc e.bay pg.loc
    let d := d.freeLoc e.bay pg.alt
    let d := { d with migQ := d.migQ.filter (fun (m : Mig) => m.page != PageRef.flat (Fin.ofNat 4096 e.bay) (BitVec.ofNat 36 p)) }
    (d.putPage e.bay p PageEntry.init).migEnded (.flat (Fin.ofNat 4096 e.bay) (BitVec.ofNat 36 p))) c
  let q := c.coded.get i Loc.none
  if q.tier = .none then c else { c.freeLoc e.bay q with coded := c.coded.set i Loc.none Loc.none }

/-- A backing extent goes: pages that still lie in it are rebuilt from their redundancy or set LOST; what lies in the tray
is no longer tracked (R205). -/
def State.dropBacking (s : State) (i : Nat) : State :=
  let e := s.ctl.ext i
  let k0 := nodeKey (nodeOf e.base) (offsetOf e.base)
  let inside (k : Nat) : Bool := k0 ≤ k && k < k0 + e.pages * 65536
  let uses (l : Loc) : Bool := l.tier == .pool && l.a == i
  let flats := (s.ctl.tier.filter (fun (x : Nat × PageEntry) => uses x.2.loc || uses x.2.alt || uses x.2.dest)).map (·.1)
  let s := s.onCtl (·.putExt i { e with st := .empty })
  let s := flats.foldl (fun x k => (x.judgePage k).rebuildFlat (k / 2 ^ 36) (k % 2 ^ 36)) s
  let s := s.ctl.kvPages.foldl (fun x (r : Nat × KvPage) =>
    if r.2.keys.any inside then
      if r.2.alt.isEmpty || r.2.alt.any inside then x.setKvLost r.1 r.2
      else x.onCtl (·.putKvPage r.1 { r.2 with keys := r.2.alt, tier := r.2.altTier, alt := [], altTier := .none })
    else if r.2.alt.any inside then x.onCtl (·.putKvPage r.1 { r.2 with alt := [], altTier := .none })
    else x) s
  let out (l : List Nat) : List Nat := l.filter (fun k => !inside k)
  s.onCtl (fun c => { c with phys := { c.phys with used := out c.phys.used, dirty := out c.phys.dirty, failedZero := out c.phys.failedZero } })

/-- An entry becomes EMPTY and REVOKE_DONE goes out (R145); `unconfirmed` names the tray that gave no OK. -/
def State.emptyExt (s : State) (i : Nat) (unconfirmed : Option Nat) : State :=
  let e := s.ctl.ext i
  if e.st ≠ .revoking then s
  else
    let s := if e.backing then s.dropBacking i
      else if isNode e.base then s else s.onCtl (·.freeExtPages i)
    s.onCtl (fun c => (c.putExt i Extent.init).event evRevokeDone
      ([i, e.bay] ++ (match unconfirmed with | some t => [1, t] | none => [0, 0])))

/-- Requests that hold an extent open (INFLIGHT, Table 5.7). -/
def Ctl.inflight (c : Ctl) (i : Nat) : Nat := (c.opens.filter (fun (o : OpenReq) => o.ext == some i)).length

/-- Whether an open request counts as applied (R141, R144): it has been forwarded to another endpoint, or it is a write to coherent
lines of which some are written. -/
def OpenReq.forwarded (o : OpenReq) : Bool :=
  match o.phase with
  | .passThrough | .ownTray _ | .atomicWb => true
  | .directory => decide (0 < o.pos) && o.frame.kind != kRead
  | _ => false

/-- Abort the requests of a revoking extent that are not applied (R144). -/
def Ctl.abortExt (c : Ctl) (i : Nat) : Ctl :=
  (c.opens.filter (fun (o : OpenReq) => o.ext == some i && !o.forwarded)).foldl (fun d (o : OpenReq) =>
    let f := o.frame
    if f.kind = kRead || f.kind = kReadPub then d.failReq o.id f stPOISONED dNONE 0
    else d.failReq o.id f stACCESS dNONE 0) c

/-- After the abort: EXTDROP to a tray with a live incarnation, else the entry is EMPTY (R145). -/
def State.finishRevoke (s : State) (i : Nat) : State :=
  let e := s.ctl.ext i
  if e.st ≠ .revoking || e.dropped then s
  else if isNode e.base && s.ctl.isTray (nodeOf e.base) && (s.ctl.ep (nodeOf e.base)).live then s.onCtl (·.sendExtDrop i)
  else s.emptyExt i none

/-- REVOKE (R143): the entry is REVOKING; EXTSYNC answers for it are no longer awaited (R133). -/
def Ctl.revoke (c : Ctl) (i : Nat) : Ctl :=
  let e := c.ext i
  let c := c.putExt i { e with st := .revoking, revAt := c.now, dropped := false }
  if isNode e.base then
    let n := nodeOf e.base
    let x := c.ep n
    if x.awaitSync.contains i then c.putEp n { x with awaitSync := removeNat x.awaitSync i } else c
  else c

/-- The pending INSTALL of an entry ends: ACTIVE, or EMPTY with TRAY_NOACK (R131). -/
def Ctl.installEnds (c : Ctl) (i : Nat) (ok : Bool) : Ctl :=
  let e := c.ext i
  if e.st ≠ .pending then c
  else if ok then ((c.putExt i { e with st := .active }).wr Reg.extBusy 0).wr Reg.extErr 0
  else (((c.putExt i Extent.init).wr Reg.extBusy 0).wr Reg.extErr 5).wr Reg.extTrayEp (nodeOf e.base)

/-- What an answer, or no answer, to an EXTSYNC or EXTDROP means (R131, R133, R145); `ok` is the answer OK. -/
def State.syncEnds (s : State) (ep : Nat) (why : OwnFor) (ok : Bool) : State :=
  match why with
  | .extSync i true => s.onCtl (·.installEnds i ok)
  | .extSync i false =>
    s.onCtl (fun c =>
      let x := c.ep ep
      if !x.awaitSync.contains i then c
      else if ok then c.putEp ep { x with awaitSync := removeNat x.awaitSync i }
      else
        let c := c.report { rep 0x15 0x0D ep with ep := some ep }
        if x.live && (c.ext i).st = .active then c.sendExtSync i false else c)
  | .extDrop i => s.emptyExt i (if ok then none else some ep)
  | _ => s

/-- A tray is ADMITTED (R133): EXTSYNC for every ACTIVE entry on it. -/
def Ctl.syncTray (c : Ctl) (ep : Nat) : Ctl :=
  let l := c.exts.filterMap (fun (e : Nat × Extent) =>
    if e.2.st == .active && isNode e.2.base && nodeOf e.2.base == ep then some e.1 else none)
  l.foldl (fun d i => d.sendExtSync i false) (c.putEp ep { c.ep ep with awaitSync := l })

end Sys2Proof.Machine
end

