-- ==== Sys2Proof/Machine/OwnOps.lean ====
section
/-! DEFINITION. The SG7's own requests to endpoints and how they end (spec/06 R165, R506; spec/05 R136), and the requests
they serve. -/

namespace Sys2Proof.Machine

/-- What the address of an admitted request names. -/
def OpenReq.target (o : OpenReq) : Target :=
  let a := o.frame.addr
  if isNode a && nodeOf a = 0xFFF then (if offsetOf a < 0x10000 then .window (offsetOf a) else .kv (offsetOf a))
  else if isNode a then .node (nodeOf a) (o.ext.getD 0) else .flat (o.ext.getD 0)

/-- The open request with an id. -/
def Ctl.open? (c : Ctl) (id : Nat) : Option OpenReq := c.opens.find? (fun (o : OpenReq) => o.id == id)

/-- The memory behind an open request is lost (R171): POISONED, or the halt of the bay. -/
def Ctl.openLost (c : Ctl) (o : OpenReq) (ep : Nat) : Ctl :=
  let bay := o.frame.bay.toNat
  let (c, det) := c.memLost bay ep (c.targetFatal bay o.target)
  if (c.open? o.id).isSome then c.failReq o.id o.frame stPOISONED det 0 else c

/-- Whether the extent's redundancy covers the loss of one tray for this request (R171, R221). -/
def Ctl.covered (c : Ctl) (o : OpenReq) : Bool :=
  match o.target with
  | .flat i => (c.ext i).redun == 1 || (c.ext i).redun == 2
  | .kv off => match c.kvAt o.frame.bay.toNat off with | some r => r.redun | none => false
  | _ => false

/-- Bytes of an access gathered so far. -/
def OpenReq.gathered (o : OpenReq) : Nat := (o.parts.map (fun p => p.2.length)).sum

/-- The gathered bytes in order of their place. -/
def OpenReq.assembled (o : OpenReq) : List Byte := (o.parts.mergeSort (fun a b => a.1 ≤ b.1)).flatMap (·.2)

/-- One of a request's own requests has done its part: at the last one the request is answered. -/
def Ctl.ownPart (c : Ctl) (id : Nat) : Ctl :=
  match c.open? id with
  | none => c
  | some o =>
    match o.phase with
    | .ownTray left =>
      if left ≤ 1 then
        if o.frame.kind = kReadPub then (c.closeReq id).answer o.frame stOK dNONE (BitVec.ofNat 64 o.pos) 0 o.assembled none none
        else (c.closeReq id).answer o.frame stOK dNONE 0 0 (if o.frame.kind = kRead then o.assembled else []) none none
      else c.putOpen { o with phase := .ownTray (left - 1) }
    | _ => c

/-- The bytes of a redundant read whose tray is gone: the other copy, or what the code recovers (R221). -/
def State.otherCopy (s : State) (o : OpenReq) (k n : Nat) : Option (List Byte) :=
  let bay := o.frame.bay.toNat
  let alt : Option Nat := match o.target with
    | .flat i =>
      if (s.ctl.ext i).redun = 1 then
        s.ctl.tier.findSome? (fun (e : Nat × PageEntry) =>
          if e.1 / 2 ^ 36 = bay then
            (match s.ctl.locKey e.2.loc, s.ctl.liveKey e.2.alt with
              | some p, some q => if p ≤ k && k < p + 65536 then some (q + (k - p)) else none
              | _, _ => none)
          else none)
      else some k
    | .kv _ =>
      s.ctl.kvPages.findSome? (fun (e : Nat × KvPage) =>
        (e.2.keys.zip e.2.alt).findSome? (fun p => if p.1 ≤ k && k < p.1 + 65536 then some (p.2 + (k - p.1)) else none))
    | _ => none
  alt.bind (fun q => if s.mem.poisoned q n then none else some (s.mem.read q n))

/-- Remove an outstanding request of the SG7's own. -/
def Ctl.dropOwn (c : Ctl) (x : OwnReq) : Ctl := { c with owns := c.owns.filter (fun (y : OwnReq) => !(y.tag == x.tag && y.ep == x.ep)) }

/-- The tray's memory behind an own request is lost: it answered POISONED, or it is dead (R165, R171, R506). -/
def State.ownLost (s : State) (x : OwnReq) : State :=
  let s := s.onCtl (·.dropOwn x)
  match x.why with
  | .read id off =>
    match s.ctl.open? id with
    | none => s
    | some o =>
      if s.ctl.isTray x.ep then
        match (if s.ctl.covered o then s.otherCopy o (nodeKey x.ep (offsetOf x.frame.addr)) (rlenOf x.frame) else none) with
        | some b => s.onCtl (fun c => (c.putOpen { o with parts := o.parts ++ [(off, b)] }).ownPart id)
        | none => s.onCtl (·.openLost o o.frame.src.toNat)
      else s.onCtl (fun c => (c.jobFault o.frame.bay.toNat x.ep).failReq id o.frame stPOISONED dNONE 0)
  | .write id k =>
    match s.ctl.open? id with
    | none => s
    | some o =>
      if s.ctl.isTray x.ep then
        if s.ctl.covered o then { s with mem := s.mem.write k x.frame.payload, ctl := s.ctl.ownPart id }
        else s.onCtl (·.openLost o o.frame.src.toNat)
      else s.onCtl (fun c => (c.jobFault o.frame.bay.toNat x.ep).failReq id o.frame stPOISONED dNONE 0)
  | .writeBack id _ =>
    match s.ctl.open? id with
    | none => s
    | some o => s.onCtl (·.openLost o o.frame.src.toNat)
  | _ => s

/-- A write-back has been acknowledged: after the last one the atomic completes and the lock goes (R165). -/
def Ctl.writeBackDone (c : Ctl) (id : Nat) : Ctl :=
  match c.open? id with
  | none => c
  | some o =>
    if c.owns.any (fun (y : OwnReq) => match y.why with | .writeBack r _ => r == id | _ => false) then c
    else c.answerAtomic id o.frame stOK dNONE (leNat ((o.parts.head?.map (·.2)).getD [])) afAPPLIED

/-- An endpoint's answer to a read or write of the SG7's own, or its end by the transport (status 0x07 or 0x0E). -/
def State.ownEnds (s : State) (x : OwnReq) (status detail : Byte) (addr : Word) (payload : List Byte) : State :=
  let tray := s.ctl.isTray x.ep
  match x.why with
  | .writeBack id _ =>
    if status = stOK then s.onCtl (fun c => (c.dropOwn x).writeBackDone id)
    else if status = stPOISONED then
      (s.onCtl (fun c => if tray then c.report { rep 0x15 0x0C x.ep with ep := some x.ep } else c)).ownLost x
    else s.onCtl (fun c => (c.dropOwn x).sendOwn x.ep { x.frame with flags := 0 } x.why)
  | .read id off | .write id off =>
    if status = stOK then
      match x.why with
      | .read _ _ =>
        match s.ctl.open? id with
        | none => s.onCtl (·.dropOwn x)
        | some o =>
          let d := (addr.toNat - x.frame.addr.toNat)
          let o := { o with parts := o.parts ++ [(off + d, payload)] }
          let got := ((o.parts.filter (fun p => off ≤ p.1 && p.1 < off + rlenOf x.frame)).map (fun p => p.2.length)).sum
          let s := { s with mem := s.mem.write (nodeKey x.ep (offsetOf addr)) payload, ctl := s.ctl.putOpen o }
          if rlenOf x.frame ≤ got then s.onCtl (fun c => (c.dropOwn x).ownPart id) else s
      | _ => { s with mem := (s.mem.write off x.frame.payload).healPoison off x.frame.payload.length, ctl := (s.ctl.dropOwn x).ownPart id }
    else if status = stPOISONED && tray then (s.onCtl (·.report { rep 0x15 0x0C x.ep with ep := some x.ep })).ownLost x
    else
      let s := s.onCtl (fun c => (if status = stACCESS && tray then c.report { rep 0x15 0x0D x.ep with ep := some x.ep } else c).dropOwn x)
      match s.ctl.open? id with
      | none => s
      | some o => s.onCtl (·.failReq id o.frame status detail 0)
  | w => (s.onCtl (·.dropOwn x)).syncEnds x.ep w (status == stOK)

end Sys2Proof.Machine
end

