-- ==== Sys2Proof/Machine/RetireOps.lean ====
section
/-! DEFINITION. Retiring an incarnation (spec/05 R119; spec/06 R169, R173, R506; spec/18 R459-R465). -/

namespace Sys2Proof.Machine

/-- A PLUMB_BEAT frame (Table 18.6). -/
def beatFrame (ep ptype psub subject subjInc interval : Nat) : Frame :=
  { baseFrame with kind := kBeat, tc := 0, dst := BitVec.ofNat 12 ep,
                   addr := BitVec.ofNat 64 (ptype + psub * 4 + subject * 16 + subjInc * 2 ^ 16 + interval * 2 ^ 32) }

/-- Bays that list an endpoint (R509). -/
def Ctl.listingBays (c : Ctl) (ep : Nat) : List Nat := c.bays.keysWhere (fun _ (b : BayRec) => b.listsLive ep)

/-- The endpoints with a live incarnation that are LIVE members of one of these bays, without the subject, rising. -/
def Ctl.peersOf (c : Ctl) (bays : List Nat) (ep : Nat) : List Nat :=
  let of (m : Option CMap) : List Nat := match m with | some x => x.liveEps | none => []
  (insertAll [] (bays.flatMap (fun b => of (c.bay b).cur ++ of (c.bay b).old))).filter (fun e => e ≠ ep && (c.ep e).live)

/-- Mark an endpoint DEAD in a map. -/
def CMap.markDead (m : CMap) (ep : Nat) : CMap :=
  { m with members := m.members.map (fun (x : Member) => if x.ep = ep then { x with dead := true } else x) }

/-- Mark an endpoint DEAD in every map that lists it (R119). -/
def Ctl.markDead (c : Ctl) (ep : Nat) : Ctl :=
  { c with bays := Tab.map c.bays (fun _ (b : BayRec) => { b with cur := b.cur.map (·.markDead ep), old := b.old.map (·.markDead ep) }) }

/-- The sub-ports keep a retired number in RETIRED state (R461). -/
def Ctl.retireOnSubs (c : Ctl) (ep : Nat) : Ctl :=
  { c with subs := Tab.map c.subs (fun _ (x : SubPort) =>
      if x.eps.contains ep then { x with eps := removeNat x.eps ep, retired := insertNat x.retired ep } else x) }

/-- What the SG7 holds for a retired source: Peg and tracker entries, its open requests and fences (R169). -/
def Ctl.dropSource (c : Ctl) (ep : Nat) : Ctl :=
  let mine := c.opens.filter (fun (o : OpenReq) => o.frame.src.toNat == ep)
  let c := mine.foldl (fun (d : Ctl) (o : OpenReq) => d.closeReq o.id) c
  { c with peg := c.peg.filter (fun (p : PegEntry) => p.src != ep),
           tracker := c.tracker.filter (fun (t : TrackEnt) => t.src != ep),
           fences := c.fences.filter (fun (f : FenceWait) => f.frame.src.toNat != ep) }

/-- Pass-through requests to a retired target (R173). -/
def Ctl.passDead (c : Ctl) (ep : Nat) : Ctl :=
  (c.opens.filter (fun (o : OpenReq) => o.phase == Phase.passThrough && o.frame.dst.toNat == ep)).foldl
    (fun (d : Ctl) (o : OpenReq) => (d.jobFault o.frame.bay.toNat ep).failReq o.id o.frame stPOISONED dNONE 0) c

/-- The SG7's own requests to a retired peer (R506). -/
def State.ownsDead (s : State) (ep : Nat) : State :=
  (s.ctl.owns.filter (fun (x : OwnReq) => x.ep == ep)).foldl (fun (t : State) (x : OwnReq) =>
    match x.why with
    | .read _ _ | .write _ _ | .writeBack _ _ => t.ownLost x
    | .extSync i true => (t.onCtl (·.dropOwn x)).syncEnds ep (.extSync i true) true
    | .extSync _ false => t.onCtl (·.dropOwn x)
    | .extDrop i => (t.onCtl (·.dropOwn x)).syncEnds ep (.extDrop i) true) s

/-- What else hangs on a live endpoint: domains (R195), collectives (R273), CHAIN channels (R399), its mailbox (R420). -/
def State.dependsDead (s : State) (ep : Nat) : State :=
  let doms := s.ctl.doms.keysWhere (fun _ (d : Domain) => (d.st == DomState.up || d.st == DomState.draining) && d.agents.any (fun a => a.2 == ep))
  let s := doms.foldl (fun (t : State) d => t.domainDown d 1 ep) s
  s.onCtl (fun c =>
    let c := (c.colls.filter (fun (k : Coll) => k.failed.isNone && k.members.contains ep)).foldl (fun (d : Ctl) k => d.failColl k stFENCED dNONE) c
    let c := (c.chans.keysWhere (fun k (x : Chan) => c.chChain k && c.chEp k == ep && x.st == ChanSt.running)).foldl
      (fun (d : Ctl) k => d.stopChan k stFENCED dNONE) c
    c.clearMbx ep)

/-- The announcement of a retirement (R459, R465). -/
def Ctl.announce (c : Ctl) (ep inc cause : Nat) (bays : List Nat) : Ctl :=
  let r : Report := { repInfo 0x17 0x17 ep cause with ep := some ep }
  let c := if cause = 2 then c.report { rep 0x17 0x18 ep with ep := some ep }
    else
      let c := c.report r
      if c.isTray ep then c.addScore 0x15 ep (classWeight 0x17) else c
  let c := (c.peersOf bays ep).foldl (fun (d : Ctl) p => d.sendFrame (beatFrame p 3 3 ep inc 0)) c
  let c := c.event evPlumbDead ([ep, inc, cause] ++ bays)
  if cause = 1 then c.bump Reg.plbDead else if cause = 2 then c.bump Reg.plbEvicts else c

/-- Retire the live incarnation of an endpoint with a cause of PLB_EP.CAUSE (R119, R465). -/
def State.retire (s : State) (ep cause : Nat) : State :=
  let x := s.ctl.ep ep
  if !x.live then s
  else
    let bays := s.ctl.listingBays ep
    let y : Endpoint := { x with live := false, plumb := .dead, winAt := none, queried := [], run := 0, judged := x.inc,
                                 verdicts := min 255 (x.verdicts + 1), cause := cause, awaitSync := [] }
    let s := s.onCtl (fun c => (((c.markDead ep).putEp ep y).retireOnSubs ep).dropSource ep)
    let s := (s.onCtl (·.passDead ep)).ownsDead ep
    let s := s.dependsDead ep
    let s := if s.ctl.isTray ep then s.judgeAll else s
    s.onCtl (fun c => (c.dropTransport ep).announce ep x.inc.toNat cause bays)

end Sys2Proof.Machine
end

