-- ==== Sys2Proof/Machine/ReqOps.lean ====
section
/-! DEFINITION. Requests (spec/06): the release tracker, the Peg table, the checks, and how each kind is served, forwarded
or passed through. -/

namespace Sys2Proof.Machine

/-! ### Arrival -/

/-- A sub-port on which a number is admitted or RETIRED and that carries traffic. -/
def Ctl.backPath (c : Ctl) (ep : Nat) : Option Nat :=
  (c.subs.keysWhere (fun _ (x : SubPort) => x.carries && (x.eps.contains ep || x.retired.contains ep))).head?

/-- The answer to a frame of a retired incarnation (R462): at most one FENCED per endpoint per 1 ms. -/
def Ctl.sendFenced (c : Ctl) (f : Frame) : Ctl :=
  let ep := f.src.toNat
  let x := c.ep ep
  if (match x.fencedAt with | some t => decide (c.now < t + 100000) | none => false) then c
  else match c.backPath ep with
    | none => c
    | some k =>
      let g := { baseFrame with kind := kFenced, tc := 0, dst := f.src, addr := BitVec.ofNat 64 (f.inc.toNat + (if x.live then x.inc.toNat * 256 else 0)) }
      let c := (c.putEp ep { x with fencedAt := some c.now }).bump Reg.plbFencedSent
      match c.takeIn (portQueue (k / 4) 0) (k % 4) g with
      | some d => d
      | none => { c with intHeld := c.intHeld ++ [(portQueue (k / 4) 0, k % 4, g)] }

/-- Forward a frame between two other endpoints (R85, R90, R102-R106); with no path, or failing admission in TC3-TC7, it is
dropped. -/
def Ctl.passOn (c : Ctl) (f : Frame) : Ctl :=
  match c.pathFor f.src.toNat f.dst.toNat f.tc.toNat with
  | none => c
  | some k =>
    let q := portQueue (k / 4) f.tc.toNat
    match c.takeIn q (k % 4) f with
    | some d => d
    | none =>
      if 3 ≤ f.tc.toNat then (c.bump (Reg.queueBase q + 0x20)).bumpBy (Reg.queueBase q + 0x28) (cellsOf f)
      else { c with intHeld := c.intHeld ++ [(q, k % 4, f)] }

/-- The tracker entry of a request. -/
def Ctl.tracked? (c : Ctl) (f : Frame) : Option TrackEnt :=
  c.tracker.find? (fun (t : TrackEnt) => t.src == f.src.toNat && t.dst == f.dst.toNat && t.seq == f.seq)

/-- Entries of the tracker of a source and bay. -/
def Ctl.trackCount (c : Ctl) (src bay : Nat) : Nat := (c.tracker.filter (fun (t : TrackEnt) => t.src == src && t.bay == bay)).length

/-- Enter a request in its release tracker (R155); `none` when the tracker is full. A retransmission adds nothing. -/
def Ctl.track (c : Ctl) (f : Frame) : Option Ctl :=
  if !f.tracked || (c.tracked? f).isSome then some c
  else
    let n := c.trackCount f.src.toNat f.bay.toNat
    if 16384 ≤ n then none
    else
      let (k, c) := c.fresh
      let t : TrackEnt := { serial := k, src := f.src.toNat, bay := f.bay.toNat, dst := f.dst.toNat, seq := f.seq, ext := none }
      let c := { c with tracker := c.tracker ++ [t] }
      some (if c.rd Reg.trackMax < n + 1 then c.wr Reg.trackMax (n + 1) else c)

/-- Note the extent through which a tracked write was admitted (R159). -/
def Ctl.trackExt (c : Ctl) (f : Frame) (ext : Option Nat) : Ctl :=
  { c with tracker := c.tracker.map (fun (t : TrackEnt) =>
      if t.src = f.src.toNat && t.dst = f.dst.toNat && t.seq = f.seq then { t with ext := ext } else t) }

/-! ### Format (R150) -/

/-- Whether a request breaks a rule of R150, or is addressed to a DST its kind does not allow. -/
def malformed (f : Frame) : Bool :=
  let n := f.payload.length
  let p := f.payload
  let tc := f.tc.toNat
  let toUs := f.dst == 0xFFF
  let fits := toUs || (isNode f.addr && nodeOf f.addr == f.dst.toNat)
  if f.kind = kRead then
    !(3 ≤ tc && n == 8 && 1 ≤ rlenOf f && rlenOf f ≤ 65536 && leAt p 0 8 < 2 ^ 17 && fits)
  else if f.kind = kWrite then !(3 ≤ tc && 1 ≤ n && n ≤ 4096 && fits)
  else if f.kind = kWriteInv then !(tc == 3 && 1 ≤ n && n ≤ 128 && f.addr.toNat % 128 + n ≤ 128 && fits)
  else if f.kind = kAtomic then
    let op := atomicOf p
    !(toUs && (tc == 3 || tc == 7) && n == 40 && atomicTypeOk op.op op.ty && op.zeroOk
      && (op.op == 0x0F || f.addr.toNat % atomicSize op.ty == 0))
  else if f.kind = kFence then !(toUs && tc == 3 && n == 0)
  else if f.kind = kCtr then !(toUs && tc == 3 && n == 16 && leAt p 0 1 ≤ 1)
  else if f.kind = kReadPub then !(toUs && 3 ≤ tc && n == 8 && 1 ≤ rlenOf f && rlenOf f ≤ 65536)
  else if f.kind = kPublish then !(toUs && tc == 3 && n == 8)
  else if f.isCoherence then !(toUs && f.addr.toNat % 128 == 0 && n == (if f.kind = kWbM then 128 else 0))
  else true

/-- Bytes that a request's address covers. -/
def spanOf (f : Frame) : Nat :=
  if f.kind = kRead then rlenOf f else if f.kind = kAtomic then atomicSize (atomicOf f.payload).ty
  else if f.isCoherence then 128 else f.payload.length

/-- The right a request needs (Table 5.8); WbE needs none (R179). -/
def rightFor (f : Frame) : Option Nat :=
  if f.kind = kRead || f.kind = kRdS then some rightR
  else if f.kind = kAtomic then some rightA
  else if f.kind = kWbE then none
  else some rightW

/-! ### Serving -/

/-- Answer an open request and close it. -/
def Ctl.answerOpen (c : Ctl) (o : OpenReq) (status detail : Byte) (addr : Word) (payload : List Byte) : Ctl :=
  if status = stOK then (c.closeReq o.id).answer o.frame status detail addr 0 payload none none
  else c.failReq o.id o.frame status detail addr

/-- Requests held on a line. -/
def Ctl.heldOn (c : Ctl) (line : Nat) : Nat := (c.opens.filter (fun (o : OpenReq) => o.phase == Phase.heldLine line)).length

/-- The image of a region that a READ_PUB in flight still reads and that is no longer readable, if a write touches it (R218). -/
def Ctl.pubHold (c : Ctl) (bay : Nat) (a : Word) (n : Nat) : Option (Nat × Nat) :=
  (c.pubReads.find? (fun (p : PubRead) =>
    c.rd (Reg.regionBay p.region) == bay && p.img != c.rd (Reg.regionVersion p.region) % 2
    && (let b := (c.regionImg p.region p.img).toNat; b < a.toNat + n && a.toNat < b + c.regionBytes p.region))).map
    (fun (p : PubRead) => (p.region, p.img))

/-- A request of the SG7's own that serves a member's: it takes its class and bay (R510). -/
def ownFrame (k : BitVec 8) (f : Frame) (ep key : Nat) (p : List Byte) : Frame :=
  withPayload { baseFrame with kind := k, tc := f.tc, bay := f.bay, addr := nodeAddr ep (key % 2 ^ 44) } p

/-- Read segments for a request: what lies in the module at once, what lies on trays by requests of the SG7's own. -/
def State.startRead (s : State) (o : OpenReq) (segs : List Seg) (base pos : Nat) : State :=
  let f := o.frame
  match s.mem.readSegs segs with
  | none => s.onCtl (·.openLost o f.src.toNat)
  | some data =>
    if (segTrays segs).isEmpty then s.onCtl (fun c => c.answerOpen o stOK dNONE (if f.kind = kReadPub then BitVec.ofNat 64 pos else 0) data)
    else
      let offs := segs.foldl (fun (r : List (Nat × Seg) × Nat) (g : Seg) => (r.1 ++ [(r.2, g)], r.2 + g.len)) ([], base)
      let onTray (g : Seg) : Option (Nat × Nat) := g.key.bind (fun k => (keyTray k).map (fun t => (t, k)))
      let parts := offs.1.filterMap (fun e => if (onTray e.2).isSome then none else some (e.1, (data.drop (e.1 - base)).take e.2.len))
      let far := offs.1.filterMap (fun e => (onTray e.2).map (fun x => (e.1, x.1, x.2, e.2.len)))
      let c := s.ctl.putOpen { o with phase := .ownTray far.length, parts := parts, pos := pos }
      let c := far.foldl (fun (d : Ctl) (x : Nat × Nat × Nat × Nat) =>
        d.sendOwn x.2.1 (ownFrame kRead f x.2.1 x.2.2.1 (leBytes 8 x.2.2.2)) (.read o.id x.1)) c
      { s with ctl := c }

/-- Write segments for a request: copies in the module at once, copies on trays by requests of the SG7's own (R221). -/
def State.startWrite (s : State) (o : OpenReq) (segs : List Seg) : State :=
  let f := o.frame
  let r := segs.foldl (fun (r : Mem × List (Nat × List Byte) × List Byte) (g : Seg) =>
    let d := r.2.2.take g.len
    let ks := g.key.toList ++ g.copies
    let near := ks.filter (fun k => (keyTray k).isNone)
    let far := ks.filter (fun k => (keyTray k).isSome)
    let m := match g.parity, g.key with
      | some (kp, kq, i), some k => r.1.addParity kp kq i (r.1.read k g.len) d
      | _, _ => r.1
    let m := near.foldl (fun (x : Mem) k => (x.write k d).healPoison k g.len) m
    (m, r.2.1 ++ far.map (fun k => (k, d)), r.2.2.drop g.len)) (s.mem, [], f.payload)
  match r.2.1 with
  | [] => { s with mem := r.1, ctl := s.ctl.answerOpen o stOK dNONE 0 [] }
  | far =>
    let c := s.ctl.putOpen { o with phase := .ownTray far.length }
    let c := far.foldl (fun (d : Ctl) (x : Nat × List Byte) =>
      match keyTray x.1 with
      | none => d
      | some t => d.sendOwn t (ownFrame kWrite f t x.1 x.2) (.write o.id x.1)) c
    { s with mem := r.1, ctl := c }

/-- Make the pages of a write exist and be writable (R202, R355, R357). -/
inductive Ready where
  | yes (s : State)
  | full
  | refused (s : State)
  deriving DecidableEq, Repr

def State.prepare (s : State) (bay : Nat) (t : Target) (a : Word) (n : Nat) : Ready :=
  match t with
  | .window _ => .refused s
  | .node _ _ => .yes s
  | .flat i => match s.allocFlat bay i (flatPieces (n / 65536 + 2) a.toNat n) with | none => .full | some s => .yes s
  | .kv off =>
    match s.ctl.kvAt bay off with
    | none => .refused s
    | some r =>
      if s.ctl.kvAnyRo r (off - r.base) n then .refused (s.onCtl (·.bump Reg.kvsRoRefused))
      else match s.kvPrepare bay r.index (List.map (·.1) (kvPieces r.psize (n / r.psize + 2) (off - r.base) n)) with
        | none => .full
        | some s => .yes s

/-- A read, write or atomic that has passed its checks and acts on memory (R152, R162, R165, R189). -/
def State.runMem (s : State) (o : OpenReq) : State :=
  let f := o.frame
  let bay := f.bay.toNat
  let t := o.target
  let n := spanOf f
  let segs := s.ctl.targetSegs bay t f.addr n
  let coh := match t with | .flat i | .node _ i => (s.ctl.ext i).coh | _ => false
  let dead := match t with | .node ep _ => !(s.ctl.ep ep).live | _ => false
  if dead then s.onCtl (fun c => (c.jobFault bay (nodeOf f.addr)).failReq o.id f stPOISONED dNONE 0)
  else match s.ctl.lockedLine segs with
  | some l =>
    if 64 ≤ s.ctl.heldOn l then s.onCtl (·.failReq o.id f stRETRY dLINEHELD 0)
    else s.onCtl (fun c => (c.putOpen { o with phase := .heldLine l }).bump Reg.memLineHeld)
  | none =>
    if (segTrays segs).any (fun e => !(s.ctl.ep e).awaitSync.isEmpty) then s.onCtl (·.failReq o.id f stRETRY dTRAYSYNC 0)
    else match (if f.kind = kRead then none else s.ctl.pubHold bay f.addr n) with
    | some (r, i) => s.onCtl (·.putOpen { o with phase := .heldPub r i })
    | none =>
      if coh then
        let d := match t with | .flat i | .node _ i => (s.ctl.ext i).cdom.toNat | _ => 0
        if (s.ctl.dom d).st ≠ .up || (s.ctl.dom d).bay ≠ bay then s.onCtl (·.failReq o.id f stDOMDOWN dNONE 0)
        else (s.onCtl (·.putOpen { o with phase := .directory })).enterHome o.id
      else if f.kind = kRead then s.startRead o segs 0 0
      else if f.kind = kAtomic then s.runAtomic o t
      else match s.prepare bay t f.addr n with
        | .full => s.onCtl (fun c => (c.tierFull bay).failReq o.id f stACCESS dNONE 0)
        | .refused s => s.onCtl (·.failReq o.id f stACCESS dNONE 0)
        | .yes s =>
          let segs := s.ctl.targetSegs bay t f.addr n
          if s.mem.writeBlocked segs then s.onCtl (·.openLost o f.src.toNat) else s.startWrite o segs

/-- A coherence request to memory whose home is the SG7, after Table 5.9 (Table 7.1). -/
def State.runCoh (s : State) (o : OpenReq) (t : Target) : State :=
  let f := o.frame
  let bay := f.bay.toNat
  let i := o.ext.getD 0
  let e := s.ctl.ext i
  let d := s.ctl.dom e.cdom.toNat
  let home := match t with | .node ep _ => s.ctl.isTray ep | .flat _ => true | _ => false
  let fail (st det : Byte) : State := s.onCtl (·.failReq o.id f st det 0)
  if !e.coh then fail stACCESS dNONE
  else if !home then fail stACCESS dNOHOME
  else if d.st ≠ .up || d.bay ≠ bay then fail stDOMDOWN dNONE
  else match d.slotOf f.src.toNat with
    | none => fail stACCESS dNONE
    | some slot =>
      if f.kind = kWbM || f.kind = kWbE then
        let line := lineKeyOf bay f.addr
        let ok (s : State) : State := s.onCtl (·.answerOpen o stOK dNONE 0 [])
        let bad : State := s.onCtl (fun c => ((c.report (rep 0x05 0x0E e.cdom.toNat)).bump Reg.dirProtocol).failReq o.id f stACCESS dMALFORMED 0)
        match s.ctl.entOf line with
        | none => if f.kind = kWbM then bad else ok s
        | some x =>
          let owns := (x.st == .E || x.st == .M) && x.owner == slot
          if f.kind = kWbM then
            if !owns then bad
            else
              let s := s.homeWrite line f.payload
              match x.trans with
              | none => ok ({ s with ctl := s.ctl.dropEnt line }.startQueued x.dset 9)
              | some tr => ok ((s.onCtl (·.putEnt { x with pres := x.pres &&& ~~~ slotBit slot, trans := some { tr with awaitWb := removeNat tr.awaitWb slot } })).endTrans line)
          else match x.trans with
            | some _ => ok (s.onCtl (·.putEnt { x with pres := x.pres &&& ~~~ slotBit slot }))
            | none =>
              if x.st = .E && owns then ok ({ s with ctl := s.ctl.dropEnt line }.startQueued x.dset 9)
              else if x.st = .S && bitOf x.pres.toNat slot then
                let p := x.pres &&& ~~~ slotBit slot
                if p = 0 then ok ({ s with ctl := s.ctl.dropEnt line }.startQueued x.dset 9)
                else ok (s.onCtl (·.putEnt { x with pres := p }))
              else ok s
      else
        let segs := s.ctl.targetSegs bay t f.addr 128
        match s.ctl.lockedLine segs with
        | some l =>
          if 64 ≤ s.ctl.heldOn l then fail stRETRY dLINEHELD
          else s.onCtl (fun c => (c.putOpen { o with phase := .heldLine l }).bump Reg.memLineHeld)
        | none => (s.onCtl (·.putOpen { o with phase := .directory })).enterHome o.id

/-- The segments of n bytes of a published image at address a, through whatever extents cover it. -/
def Ctl.pubSegs (c : Ctl) (bay a n : Nat) : List Seg :=
  (flatPieces (n / 65536 + 2) a n).flatMap (fun e =>
    let w := BitVec.ofNat 64 (e.1 * 65536 + e.2.1)
    match c.extCover bay w 1 with
    | none => []
    | some i => c.targetSegs bay (if isNode w then .node (nodeOf w) i else .flat i) w e.2.2)

/-- READ_PUB (R215, R216, R218). -/
def State.runPub (s : State) (o : OpenReq) (cls : Nat) : State :=
  let f := o.frame
  let bay := f.bay.toNat
  let c := s.ctl
  let r := pubRegion f
  let n := rlenOf f
  let img0 := (c.regionImg r 0).toNat
  if !c.regionOk bay cls r rightR then s.onCtl (·.failReq o.id f stACCESS dNONE 0)
  else if f.addr.toNat < img0 || img0 + c.regionBytes r < f.addr.toNat + n then s.onCtl (·.failReq o.id f stACCESS dMALFORMED 0)
  else
    let v := c.rd (Reg.regionVersion r)
    let a := (c.regionImg r v).toNat + (f.addr.toNat - img0)
    let segs := c.pubSegs bay a n
    let o := { o with ext := some (c.imageExt bay r 0), pos := v }
    match c.lockedLine segs with
    | some l =>
      if 64 ≤ c.heldOn l then s.onCtl (·.failReq o.id f stRETRY dLINEHELD 0)
      else s.onCtl (fun c => (c.putOpen { o with phase := .heldLine l }).bump Reg.memLineHeld)
    | none =>
      if (segTrays segs).any (fun e => !(c.ep e).awaitSync.isEmpty) then s.onCtl (·.failReq o.id f stRETRY dTRAYSYNC 0)
      else
        let pr : PubRead := { req := o.id, region := r, img := v % 2 }
        let s := s.onCtl (fun c => ({ c with pubReads := c.pubReads ++ [pr] }).putOpen o)
        s.startRead o segs 0 v

/-- A member's access to the KV window (R350). -/
def State.runKv (s : State) (o : OpenReq) (cls off : Nat) : State :=
  let f := o.frame
  let bay := f.bay.toNat
  let n := spanOf f
  let wr := f.kind ≠ kRead
  match s.ctl.checkKv bay cls off n wr with
  | .fail st d => s.onCtl (·.failReq o.id f st d 0)
  | .table i =>
    if wr then
      match s.kvDescWrite bay i f.payload with
      | .ok s => s.onCtl (·.answerOpen o stOK dNONE 0 [])
      | .malformed => s.onCtl (·.failReq o.id f stACCESS dMALFORMED 0)
      | .waits s => s.onCtl (·.putOpen { o with phase := .kvDestroy })
    else s.onCtl (fun c => c.answerOpen o stOK dNONE 0 (c.kvDescriptor bay i))
  | .data _ => s.runMem o

/-- A member's access to the bay window (R124). -/
def State.runWindow (s : State) (o : OpenReq) (off : Nat) : State :=
  let f := o.frame
  let bay := f.bay.toNat
  let ep := f.src.toNat
  if f.kind = kRead then
    match s.ctl.windowRead bay ep off (rlenOf f) with
    | some b => s.onCtl (·.answerOpen o stOK dNONE 0 b)
    | none => s.onCtl (·.failReq o.id f stACCESS dNONE 0)
  else
    let r := s.ctl.windowWrite bay ep off f.payload
    { s with ctl := r.1.answerOpen o r.2.1 r.2.2 0 [] }

/-- Pass a checked request on to its DST and note that it is under way (R85, R173). -/
def State.runPass (s : State) (o : OpenReq) : State :=
  let f := o.frame
  let bay := f.bay.toNat
  let n := spanOf f
  let ep := nodeOf f.addr
  let segs := s.ctl.targetSegs bay (.node ep (o.ext.getD 0)) f.addr n
  if !(s.ctl.ep ep).awaitSync.isEmpty then s.onCtl (·.failReq o.id f stRETRY dTRAYSYNC 0)
  else match s.ctl.lockedLine segs with
    | some l =>
      if 64 ≤ s.ctl.heldOn l then s.onCtl (·.failReq o.id f stRETRY dLINEHELD 0)
      else s.onCtl (fun c => (c.putOpen { o with phase := .heldLine l }).bump Reg.memLineHeld)
    | none => s.onCtl (fun c => (c.putOpen { o with phase := .passThrough }).passOn f)

/-- Whether the SG7 itself executes a request to a node-form address: one addressed to it, one to a protected extent
(R438), one to a coherent extent whose home it is. -/
def Ctl.executes (c : Ctl) (f : Frame) (ep ext : Nat) : Bool :=
  f.dst == 0xFFF || (c.ext ext).prot || ((c.ext ext).coh && c.isTray ep)

/-- Serve or pass on a request whose checks have passed. -/
def State.runPassed (s : State) (o : OpenReq) (t : Target) (cls : Nat) : State :=
  let f := o.frame
  match t with
  | .window off => s.runWindow o off
  | .kv off => s.runKv o cls off
  | .flat _ => if f.isCoherence then s.runCoh o t else s.runMem o
  | .node ep i =>
    if f.isCoherence then s.runCoh o t
    else if s.ctl.executes f ep i then s.runMem o
    else s.runPass o

/-- QUERY (R168). -/
def State.runQuery (s : State) (o : OpenReq) : State :=
  let f := o.frame
  let op := atomicOf f.payload
  match s.ctl.checkMember f.bay.toNat f.gen f.src.toNat with
  | .error (st, d, a) => s.onCtl (·.failReq o.id f st d a)
  | .ok _ =>
    let inc := BitVec.ofNat 8 (field op.opnd1 0 8)
    let tag := BitVec.ofNat 16 (field op.opnd1 8 16)
    if !s.ctl.liveInc f.src.toNat inc then s.onCtl (·.failReq o.id f stUNKNOWN dNONE 0)
    else match s.ctl.pegFind f.src.toNat inc tag with
      | none => s.onCtl (·.answerOpen o stOK dNONE 0 (zeros 16 ++ [afNOTRECORDED] ++ zeros 7))
      | some p =>
        if p.done then
          s.onCtl (fun c => (c.closeReq o.id).answer f p.status dNONE 0 flREPLAYED (leBytes 16 p.old.toNat ++ [p.aflags] ++ zeros 7) (some tag) none)
        else s.onCtl (·.putOpen { o with phase := .heldPeg tag })

/-- CTR (R160). -/
def State.runCtr (s : State) (o : OpenReq) : State :=
  let f := o.frame
  let bay := f.bay.toNat
  match s.ctl.checkMember bay f.gen f.src.toNat with
  | .error (st, d, a) => s.onCtl (·.failReq o.id f st d a)
  | .ok _ =>
    let i := field f.addr.toNat 0 20
    if s.ctl.rd (Reg.winCount bay) ≤ i then s.onCtl (·.failReq o.id f stACCESS dCTRRANGE 0)
    else
      let k := s.ctl.rd (Reg.winFirst bay) + i
      let v := (s.ctl.counter k).toNat
      let v' := if leAt f.payload 0 1 = 1 then min (v + leAt f.payload 8 8) (2 ^ 64 - 1) else v
      s.onCtl (fun c => (c.putCounter k (BitVec.ofNat 64 v')).answerOpen o stOK dNONE 0 (leBytes 8 v'))

/-- PUBLISH (R216, R217). -/
def State.runPublish (s : State) (o : OpenReq) : State :=
  let f := o.frame
  let bay := f.bay.toNat
  match s.ctl.checkMember bay f.gen f.src.toNat with
  | .error (st, d, a) => s.onCtl (·.failReq o.id f st d a)
  | .ok (_, cls, _) =>
    let r := leAt f.payload 0 2
    if !s.ctl.regionOk bay cls r rightP then s.onCtl (·.failReq o.id f stACCESS dNONE 0)
    else
      let x := s.ctl.publish f.src.toNat r (leAt f.payload 4 4)
      let v := x.1.rd (Reg.regionVersion r)
      if x.2 then { s with ctl := x.1.answerOpen o stOK dNONE (BitVec.ofNat 64 v) [] }
      else { s with ctl := x.1.failReq o.id f stCONFLICT dNONE (BitVec.ofNat 64 (v + x.1.rd (Reg.regionLastEp r) * 2 ^ 32)) }

/-- FENCE (R158): it waits for the tracker entries of its source and bay that are there now. -/
def State.runFence (s : State) (o : OpenReq) : State :=
  let f := o.frame
  match s.ctl.checkMember f.bay.toNat f.gen f.src.toNat with
  | .error (st, d, a) => s.onCtl (·.failReq o.id f st d a)
  | .ok _ =>
    let (n, c) := s.ctl.fresh
    { s with ctl := { c.closeReq o.id with fences := c.fences ++ [{ id := o.id, frame := f, mark := n, since := c.now }] } }

/-- Whether step 5 of Table 5.9 fails. -/
def Ctl.oldTarget (c : Ctl) (f : Frame) (m : CMap) (old : Bool) : Bool :=
  old && isNode f.addr && m.lists (nodeOf f.addr)
    && !(match (c.bay f.bay.toNat).cur with | some x => (x.classOf (nodeOf f.addr)).isSome | none => false)

/-- Check and run an open request: a bay in shakeout or halted answers every request (R96, R171); then its format, the checks
of its kind, its effect. -/
def State.runKind (s : State) (o : OpenReq) : State :=
  let f := o.frame
  let bay := f.bay.toNat
  let fail (st d : Byte) (a : Word) : State := s.onCtl (·.failReq o.id f st d a)
  let b := s.ctl.bay bay
  if b.st = .shakeout then fail stBAYTRANS dNONE 0
  else if b.st = .active && b.halted then fail stPOISONED dFATALHALT 0
  else if malformed f then fail stACCESS dMALFORMED 0
  else if f.kind = kFence then s.runFence o
  else if f.kind = kCtr then s.runCtr o
  else if f.kind = kPublish then s.runPublish o
  else if f.kind = kReadPub then
    match s.ctl.checkMember bay f.gen f.src.toNat with
    | .error (st, d, a) => fail st d a
    | .ok (_, cls, old) =>
      let o := { o with old := old }
      (s.onCtl (·.putOpen o)).runPub o cls
  else if f.kind = kAtomic && (atomicOf f.payload).op = 0x0F then s.runQuery o
  else
    let homeless := f.kind = kAtomic && isNode f.addr && (nodeOf f.addr = 0xFFF || !s.ctl.isTray (nodeOf f.addr))
    if homeless then
      match s.ctl.checkMember bay f.gen f.src.toNat with
      | .error (st, d, a) => fail st d a
      | .ok (m, cls, old) =>
        if s.ctl.oldTarget f m old then fail stREMAP dNONE (s.ctl.bay bay).remapAddr
        else if reservedBits f.addr then fail stACCESS dNONE 0
        else if nodeOf f.addr = 0xFFF && 0x10000 ≤ offsetOf f.addr && 1 < cls then fail stACCESS dNONE 0
        else fail stACCESS dNOHOME 0
    else
      match s.ctl.check59 f (spanOf f) (rightFor f) with
      | .fail st d a job =>
        let s := match job with | some e => s.onCtl (·.jobFault bay e) | none => s
        s.onCtl (·.failReq o.id f st d a)
      | .pass t cls old =>
        let ext := match t with | .flat i | .node _ i => some i | _ => none
        let o := { o with ext := ext, old := old }
        (s.onCtl (fun c => (c.putOpen o).trackExt f ext)).runPassed o t cls

/-- An open request goes on: an ATOMIC looks its tag up first (R166, R167). -/
def State.run (s : State) (id : Nat) : State :=
  match s.ctl.open? id with
  | none => s
  | some o =>
    let f := o.frame
    if f.kind = kAtomic && f.dst = 0xFFF && leAt f.payload 0 1 ≠ 0x0F then
      let s := s.onCtl (·.pegDrop f.src.toNat (f.tag - 256))
      match s.ctl.pegFind f.src.toNat f.inc f.tag with
      | some p =>
        if p.done then
          s.onCtl (fun c => ((c.closeReq id).bump Reg.memPegReplay).answer f p.status dNONE 0 flREPLAYED
            (leBytes 16 p.old.toNat ++ [p.aflags] ++ zeros 7) (some f.tag) none)
        else s.onCtl (·.putOpen { o with phase := .heldPeg f.tag })
      | none =>
        if 256 ≤ (s.ctl.peg.filter (fun (p : PegEntry) => p.src == f.src.toNat)).length then
          s.onCtl (fun c => (c.closeReq id).answer f stACCESS dMALFORMED 0 0 [] none none)
        else
          let p : PegEntry := { src := f.src.toNat, inc := f.inc, tag := f.tag, bay := f.bay.toNat, done := false, status := 0, old := 0, aflags := 0 }
          (s.onCtl (fun c => { c with peg := c.peg ++ [p] })).runKind o
    else s.runKind o

/-- An open request that was held goes on where it was held. -/
def State.rerun (s : State) (o : OpenReq) : State :=
  match o.phase with
  | .heldLine _ | .heldPub _ _ =>
    let f := o.frame
    if f.kind = kReadPub then s.runKind o
    else if f.isCoherence then s.runCoh o o.target
    else match o.target with
      | .node ep i => if s.ctl.executes f ep i then s.runMem o else if (s.ctl.ep ep).live then s.runPass o
        else s.onCtl (fun c => (c.jobFault f.bay.toNat ep).failReq o.id f stPOISONED dNONE 0)
      | _ => s.runMem o
  | _ => s.run o.id

/-- Whether what a held request waited for has passed. -/
def Ctl.mayGo (c : Ctl) (o : OpenReq) : Bool :=
  match o.phase with
  | .heldLine l => !c.locks.any (fun (k : LineLock) => k.line == l)
  | .heldPub r i => !c.pubReads.any (fun (p : PubRead) => p.region == r && p.img == i) || c.rd (Reg.regionVersion r) % 2 == i
  | .heldPeg t =>
    let inc := if (atomicOf o.frame.payload).op = 0x0F then BitVec.ofNat 8 (field (atomicOf o.frame.payload).opnd1 0 8) else o.frame.inc
    match c.pegFind o.frame.src.toNat inc t with | some p => p.done | none => true
  | _ => false

/-- Run the held requests that can go on, in the order of their arrival (R165, R167, R218; fuel: open requests). -/
def State.settleFor : Nat → State → State
  | 0, s => s
  | n + 1, s =>
    match s.ctl.opens.find? s.ctl.mayGo with
    | none => s
    | some o => State.settleFor n (s.rerun o)

def State.settle (s : State) : State := State.settleFor (2 * s.ctl.opens.length) s

/-- Open a request. -/
def Ctl.openReq (c : Ctl) (f : Frame) (ph : Phase) : Nat × Ctl :=
  let (n, c) := c.fresh
  let o : OpenReq := { id := n, frame := f, ext := none, old := false, since := c.now, phase := ph, parts := [], pos := 0 }
  (n, { c with opens := c.opens ++ [o] })

/-! ### What the checking sites find (Table 18.1) -/

/-- Set the pages behind an access LOST (R444). -/
def State.losePages (s : State) (bay : Nat) (t : Target) (a : Word) (n : Nat) : State :=
  match t with
  | .flat _ => ((flatPieces (n / 65536 + 2) a.toNat n).map (·.1)).foldl (fun (x : State) p => if (x.ctl.page bay p).loc.tier = .none then x else x.setLost bay p) s
  | .kv off =>
    match s.ctl.kvAt bay off with
    | none => s
    | some r =>
      ((kvPieces r.psize (n / r.psize + 2) (off - r.base) n).filterMap (fun e => r.pages.find? e.1)).foldl (fun (x : State) k =>
        match x.ctl.kvPage? k with | some pg => x.setKvLost k pg | none => x) s
  | _ => s

/-- Apply a finding of the checking sites while a request is served (R444-R446). The answer says whether the request goes on. -/
def State.siteFinds (s : State) (f : Frame) (found : SiteErr) : State × Bool :=
  let bay := f.bay.toNat
  let target : Option Target := match s.ctl.check59 f (spanOf f) (rightFor f) with | .pass t _ _ => some t | _ => none
  match found with
  | .clean => (s, true)
  | .corrected b k u =>
    (s.onCtl (fun c => (if k.val = 0x05 then c.bump Reg.tirEccCorr else if k.val = 0x0A then c.tallyUp (66 + u % 3) else c).report (rep b.val k.val u)), true)
  | .memBlock =>
    match target with
    | none => (s, true)
    | some t =>
      match (s.ctl.targetSegs bay t f.addr (spanOf f)).findSome? (fun (g : Seg) => g.key) with
      | none => (s, true)
      | some k =>
        if 2 ^ 58 ≤ k then (s, true)
        else ({ s with mem := s.mem.addPoison k 1, ctl := (s.ctl.bump Reg.tirEccPoison).report (rep (s.ctl.keyBlock k).1 0x06 (s.ctl.keyBlock k).2) }, true)
  | .tableLost => ((s.onCtl (fun c => (c.report (rep 0x03 0x11 bay)).haltBay bay)), true)
  | .mapLost =>
    let s := s.onCtl (·.report (rep 0x04 0x11 0))
    (match target with | some t => s.losePages bay t f.addr (spanOf f) | none => s, true)
  | .entryLost => ((s.onCtl (·.report (rep 0x04 0x10 0))).retire f.src.toNat 4, true)
  | .busWord => (s.onCtl (fun c => c.report (rep 0x04 0x04 0)), false)
  | .dirEntry cdom =>
    match target with
    | some (.flat i) | some (.node _ i) => (s.dirEntryLost (s.ctl.ext i).cdom.toNat (dirSet bay f.addr) cdom, true)
    | _ => (s, true)

/-- A held release is opened, or the request runs at once (R157). -/
def State.begin (s : State) (f : Frame) : State :=
  let mark := match s.ctl.tracked? f with | some t => t.serial | none => s.ctl.nextId
  let earlier := s.ctl.tracker.any (fun (t : TrackEnt) => t.src == f.src.toNat && t.bay == f.bay.toNat && t.serial < mark)
  let r := s.ctl.openReq f (if f.isRelease && earlier then .heldRelease mark else .directory)
  let s := { s with ctl := r.2 }
  if f.isRelease && earlier then s else s.run r.1

/-- A request that the transport has delivered, or that is to pass through the SG7 (R129, R147-R157). -/
def State.serve (s : State) (f : Frame) (found : SiteErr) : State :=
  if !s.ctl.mainUp then s
  else if !s.ctl.liveInc f.src.toNat f.inc then s.onCtl (·.sendFenced f)
  else
    match (if f.dst = 0xFFF then none else s.ctl.opens.find? (fun (o : OpenReq) => o.frame.src == f.src && o.frame.dst == f.dst && o.frame.seq == f.seq)) with
    | some o => if o.phase == Phase.passThrough then s.onCtl (·.passOn f) else s
    | none =>
      match s.ctl.track f with
      | none => s.onCtl (·.fail f stRETRY dTRACKERFULL)
      | some c =>
        let s := { s with ctl := c }
        if c.answersBusy then s.onCtl (·.fail f stBUSY dNONE)
        else
          let r := s.siteFinds f found
          if !r.2 then r.1.onCtl (·.fail f stPOISONED dNONE)
          else if !r.1.ctl.liveInc f.src.toNat f.inc then r.1
          else (r.1.begin f).settle

end Sys2Proof.Machine
end

