-- ==== Sys2Proof/Machine/Requests.lean ====
section
/-! DEFINITION. The rows of requests and responses (spec/06, spec/05 R131, spec/14 R351, spec/16 R414). Each takes a frame
after the transport has delivered it. A frame of another kind than the row's changes nothing (DESIGN CHOICE, log entry 18). -/

namespace Sys2Proof.Machine

/-- Serve a frame whose kind the row allows. -/
def State.serveIf (s : State) (ok : Bool) (f : Frame) (found : SiteErr) : State := if ok then s.serve f found else s

def execRead (frame : Frame) (found : SiteErr) (s : State) : Host.Outcome State Fault Refusal :=
  done (s.serveIf (frame.kind = kRead) frame found)

def execWrite (frame : Frame) (found : SiteErr) (s : State) : Host.Outcome State Fault Refusal :=
  done (s.serveIf (frame.kind = kWrite) frame found)

/-- A flagged write, a release atomic or a CTR ADD with RELEASE (R157). -/
def execFlaggedWrite (frame : Frame) (found : SiteErr) (s : State) : Host.Outcome State Fault Refusal :=
  done (s.serveIf frame.isRelease frame found)

/-- Whether a held release waits for an earlier tracker entry. -/
def Ctl.releaseWaits (c : Ctl) (o : OpenReq) (mark : Nat) : Bool :=
  c.tracker.any (fun (t : TrackEnt) => t.src == o.frame.src.toNat && t.bay == o.frame.bay.toNat && t.serial < mark)

/-- A held release whose earlier tracker entries are gone proceeds (R157). -/
def State.releaseProceed (s : State) (id : Nat) : State :=
  match s.ctl.open? id with
  | none => s
  | some o => match o.phase with
    | .heldRelease mark => if s.ctl.releaseWaits o mark then s else (s.run id).settle
    | _ => s

def execReleaseProceed (req : Nat) (s : State) : Host.Outcome State Fault Refusal := done (s.releaseProceed req)

/-- The endpoint at which the operation of a tracker entry was to be applied (R159). -/
def Ctl.appliedAt (c : Ctl) (t : TrackEnt) : Nat :=
  if t.dst ≠ 0xFFF then t.dst
  else
    let o := c.opens.find? (fun (o : OpenReq) => o.frame.src.toNat == t.src && o.frame.dst.toNat == t.dst && o.frame.seq == t.seq)
    match o.bind (fun o => c.owns.find? (fun (x : OwnReq) => match x.why with
      | .read r _ | .write r _ | .writeBack r _ => r == o.id
      | _ => false)) with
    | some x => x.ep
    | none => 0xFFF

/-- A release or fence that is not confirmed in time: the policy of the extent of each unconfirmed write applies (R159, R171). -/
def Ctl.unconfirmed (c : Ctl) (bay ep : Nat) (l : List TrackEnt) : Ctl :=
  let exts := insertAll [] (l.filterMap (fun (t : TrackEnt) => if c.appliedAt t = 0xFFF then none else t.ext))
  exts.foldl (fun (d : Ctl) i => (d.memLost bay ep (d.ext i).fatal).1) c

/-- A held release reaches FENCE_TIMEOUT (R157). -/
def Ctl.releaseTimeout (c : Ctl) (id : Nat) : Ctl :=
  match c.open? id with
  | none => c
  | some o => match o.phase with
    | .heldRelease mark =>
      if c.releaseWaits o mark && c.rd Reg.fenceTimeout ≤ c.now - o.since then
        let l := c.tracker.filter (fun (t : TrackEnt) => t.src == o.frame.src.toNat && t.bay == o.frame.bay.toNat && t.serial < mark)
        ((c.failReq id o.frame stPATHLOST dNONE 0).bump Reg.memRelTimeout).unconfirmed o.frame.bay.toNat o.frame.src.toNat l
      else c
    | _ => c

def execReleaseTimeout (req : Nat) (s : State) : Host.Outcome State Fault Refusal := done (s.onCtl (·.releaseTimeout req))

def execWriteInv (frame : Frame) (s : State) : Host.Outcome State Fault Refusal :=
  done (s.serveIf (frame.kind = kWriteInv) frame .clean)

def execAtomic (frame : Frame) (found : SiteErr) (s : State) : Host.Outcome State Fault Refusal :=
  done (s.serveIf (frame.kind = kAtomic && leAt frame.payload 0 1 != 0x0F) frame found)

def execQuery (frame : Frame) (s : State) : Host.Outcome State Fault Refusal :=
  done (s.serveIf (frame.kind = kAtomic && leAt frame.payload 0 1 == 0x0F) frame .clean)

/-! ### Answers from endpoints -/

/-- The SG7's own request that a response answers. -/
def Ctl.ownOf (c : Ctl) (f : Frame) : Option OwnReq :=
  c.owns.find? (fun (x : OwnReq) => x.ep == f.src.toNat && x.tag == f.tag && rspKind x.frame.kind == f.kind)

/-- A response addressed to the SG7 ends its own request (R141, R165); others match nothing. -/
def State.ownAnswer (s : State) (f : Frame) : State :=
  match s.ctl.ownOf f with
  | none => s
  | some x => (s.ownEnds x f.status f.detail f.addr f.payload).settle

/-- The pass-through request that a response answers: by SRC, DST and TAG. -/
def Ctl.passOf (c : Ctl) (f : Frame) : Option OpenReq :=
  c.opens.find? (fun (o : OpenReq) => o.phase == Phase.passThrough && o.frame.src == f.dst && o.frame.dst == f.src && o.frame.tag == f.tag
    && rspKind o.frame.kind == f.kind)

/-- Whether a response frame is the last one its request still awaits: one frame per 4,096 bytes of a read (R149). -/
def OpenReq.lastAnswer (o : OpenReq) (f : Frame) : Bool :=
  if o.frame.kind = kRead && (f.status = stOK || f.status = stPOISONED) then (rlenOf o.frame + 4095) / 4096 ≤ o.pos + 1 else true

/-- A response between two other endpoints: the tracker entry goes, the frame goes on unchanged; a tray's ACCESS and POISONED
answers are logged (R136, R155, Table 18.3) and POISONED memory is handled under R171. -/
def Ctl.passAnswer (c : Ctl) (f : Frame) : Ctl :=
  let tray := c.isTray f.src.toNat
  match c.passOf f with
  | none => c.passOn f
  | some o =>
    let c := if tray && f.status = stACCESS then c.report { rep 0x15 0x0D f.src.toNat with ep := some f.src.toNat }
      else if tray && f.status = stPOISONED && o.pos = 0 then c.report { rep 0x15 0x0C f.src.toNat with ep := some f.src.toNat } else c
    let c := c.passOn f
    if o.lastAnswer f then
      let c := (c.untrack o.frame.src.toNat o.frame.dst.toNat o.frame.seq).closeReq o.id
      if tray && f.status = stPOISONED then
        (c.memLost o.frame.bay.toNat o.frame.src.toNat (match o.ext with | some i => (c.ext i).fatal | none => false)).1
      else c
    else c.putOpen { o with pos := o.pos + 1 }

/-- A response from an endpoint with its live incarnation (R148, R155). -/
def State.takeResponse (s : State) (f : Frame) : State :=
  if !s.ctl.mainUp then s
  else if !s.ctl.liveInc f.src.toNat f.inc then s.onCtl (·.sendFenced f)
  else if f.dst = 0xFFF then s.ownAnswer f
  else s.onCtl (·.passAnswer f)

def execAtomicWriteback (frame : Frame) (s : State) : Host.Outcome State Fault Refusal :=
  done (match s.ctl.ownOf frame with
    | some x => (match x.why with | .writeBack _ _ => s.takeResponse frame | _ => s)
    | none => s)

def execResponse (frame : Frame) (s : State) : Host.Outcome State Fault Refusal :=
  done (if frame.isResponse then s.takeResponse frame else s)

def execSyncRsp (frame : Frame) (s : State) : Host.Outcome State Fault Refusal :=
  done (if frame.kind = kSyncRsp && frame.dst = 0xFFF then s.takeResponse frame else s)

/-! ### Fences, counters, publication -/

def execFence (frame : Frame) (s : State) : Host.Outcome State Fault Refusal :=
  done (s.serveIf (frame.kind = kFence) frame .clean)

/-- The tracker entries a FENCE still waits for. -/
def Ctl.fenceWaits (c : Ctl) (w : FenceWait) : List TrackEnt :=
  c.tracker.filter (fun (t : TrackEnt) => t.src == w.frame.src.toNat && t.bay == w.frame.bay.toNat && t.serial < w.mark)

def Ctl.fence? (c : Ctl) (id : Nat) : Option FenceWait := c.fences.find? (fun (w : FenceWait) => w.id == id)

/-- Every entry the FENCE waited for is gone: FENCE_RSP OK (R158). -/
def Ctl.fenceComplete (c : Ctl) (id : Nat) : Ctl :=
  match c.fence? id with
  | some w => if (c.fenceWaits w).isEmpty then c.endFence w stOK dNONE 0 else c
  | none => c

def execFenceComplete (req : Nat) (s : State) : Host.Outcome State Fault Refusal := done (s.onCtl (·.fenceComplete req))

/-- A FENCE not confirmed within FENCE_TIMEOUT (R159): PATH_LOST naming where the oldest unconfirmed operation was to be
applied. -/
def Ctl.fenceExpires (c : Ctl) (id : Nat) : Ctl :=
  match c.fence? id with
  | some w =>
    match c.fenceWaits w with
    | [] => c
    | t :: l =>
      if c.rd Reg.fenceTimeout ≤ c.now - w.since then
        ((c.endFence w stPATHLOST dNONE (BitVec.ofNat 64 (c.appliedAt t))).bump Reg.memFenceLost).unconfirmed w.frame.bay.toNat w.frame.src.toNat (t :: l)
      else c
  | none => c

def execFenceTimeout (req : Nat) (s : State) : Host.Outcome State Fault Refusal := done (s.onCtl (·.fenceExpires req))

def execCtr (frame : Frame) (s : State) : Host.Outcome State Fault Refusal :=
  done (s.serveIf (frame.kind = kCtr) frame .clean)

def execReadPub (frame : Frame) (s : State) : Host.Outcome State Fault Refusal :=
  done (s.serveIf (frame.kind = kReadPub) frame .clean)

def execPublish (frame : Frame) (s : State) : Host.Outcome State Fault Refusal :=
  done (s.serveIf (frame.kind = kPublish) frame .clean)

/-! ### Writes to the windows of node 0xFFF -/

/-- A WRITE to the SG7's node at an offset that `p` accepts. -/
def windowFrame (f : Frame) (p : Nat → Bool) : Bool :=
  f.kind == kWrite && f.dst == 0xFFF && isNode f.addr && nodeOf f.addr == 0xFFF && p (offsetOf f.addr)

def execKvDescriptorWrite (frame : Frame) (s : State) : Host.Outcome State Fault Refusal :=
  done (s.serveIf (windowFrame frame (fun o => 0x10000 ≤ o && o < 0x1000000)) frame .clean)

def execDoorbell (frame : Frame) (s : State) : Host.Outcome State Fault Refusal :=
  done (s.serveIf (windowFrame frame (fun o => o < 0x200)) frame .clean)

/-- A doorbell whose value has RESUME (R244). -/
def execResume (frame : Frame) (s : State) : Host.Outcome State Fault Refusal :=
  done (s.serveIf (windowFrame frame (fun o => o < 0x200) && bitOf (leAt frame.payload 0 8) 32) frame .clean)

/-- A write of CTL with GO (R414). -/
def execMailboxPost (frame : Frame) (s : State) : Host.Outcome State Fault Refusal :=
  done (s.serveIf (windowFrame frame (fun o => o == 0x1040) && bitOf (leAt frame.payload 0 8) 0) frame .clean)

end Sys2Proof.Machine
end

