-- ==== Sys2Proof/Machine/Transport.lean ====
section
/-! DEFINITION. The end-to-end transport's rows (spec/03 §3.6, R78, R170). -/

namespace Sys2Proof.Machine

/-- The acknowledgement of a grant has come: its line is no longer OPEN (R186, R193). An entry whose holders have all given
their copies up meanwhile is freed. -/
def State.grantAcked (s : State) (line : Nat) : State :=
  match s.ctl.entOf line with
  | none => s
  | some e =>
    match e.trans with
    | some t =>
      if t.granted then (s.onCtl (fun c => if e.pres = 0 then c.dropEnt line else c.putEnt { e with trans := none })).startQueued e.dset 9
      else s
    | none => s

/-- An acknowledgement from an endpoint: frames are released, Peg entries freed, grants ended (R88, R167, R186). -/
def State.acked (s : State) (ep : Nat) (ack : BitVec 24) (bitmap : Word) : State :=
  let r := s.ctl.ackFrames ep ack bitmap
  let c := r.2.1.foldl (fun (d : Ctl) tag => d.pegDrop ep tag) r.1
  let s := r.2.2.foldl (fun (x : State) line => x.grantAcked line) { s with ctl := c }
  if r.2.2.isEmpty then s else s.onCtl (·.settleDoms)

/-- A TACK arrives: for the SG7, or for another endpoint (R85, R88). -/
def State.takeTack (s : State) (f : Frame) : State :=
  if !s.ctl.mainUp || f.kind ≠ kTack then s
  else if !s.ctl.liveInc f.src.toNat f.inc then s.onCtl (·.sendFenced f)
  else if f.dst = 0xFFF then s.acked f.src.toNat f.ackseq f.addr
  else s.onCtl (·.passOn f)

def execTack (frame : Frame) (s : State) : Host.Outcome State Fault Refusal := done (s.takeTack frame)

/-- The bitmap of a TACK: bit i for SEQ ACKSEQ + 1 + i. -/
def Pair.bitmap (p : Pair) : Nat :=
  ((List.range 64).filter (fun i => p.rxSeen.contains (p.rxAck + 1 + BitVec.ofNat 24 i))).foldl (fun a i => a + 2 ^ i) 0

/-- 500 ns have passed without a frame to carry the acknowledgement: TACK (R88). -/
def Ctl.sendTack (c : Ctl) (ep : Nat) : Ctl :=
  let p := c.pair ep
  match p.ackSince with
  | none => c
  | some t =>
    if c.now < t + 50 then c
    else (c.putPair ep { p with ackSince := none }).sendFrame
      { baseFrame with kind := kTack, tc := 0, dst := BitVec.ofNat 12 ep, flags := flACKV, ackseq := p.rxAck, addr := BitVec.ofNat 64 p.bitmap }

def execTackSend (peer : Fin 4096) (s : State) : Host.Outcome State Fault Refusal := done (s.onCtl (·.sendTack peer.val))

/-- Replace an unacknowledged frame of a pair. -/
def Ctl.putTx (c : Ctl) (ep : Nat) (t : TxFrame) : Ctl :=
  let p := c.pair ep
  c.putPair ep { p with unack := p.unack.map (fun (x : TxFrame) => if x.seq = t.seq then t else x) }

def Ctl.tx? (c : Ctl) (ep : Nat) (seq : BitVec 24) : Option TxFrame :=
  (c.pair ep).unack.find? (fun (t : TxFrame) => t.seq == seq && !t.acked)

/-- The SEQFILL that stands in for a frame (Table 3.8). -/
def fillFrame (f : Frame) : Frame :=
  { baseFrame with kind := kSeqfill, tc := f.tc, bay := f.bay, src := f.src, dst := f.dst, inc := f.inc, gen := f.gen, seq := f.seq }

/-- RTX_TIMEOUT expires for a frame: it is sent again with RETX, or given up (R89, R170). -/
def State.rtxTimeout (s : State) (ep : Nat) (seq : BitVec 24) : State :=
  let c := s.ctl
  match c.tx? ep seq with
  | none => s
  | some t =>
    if t.filled || c.now < t.sentAt + c.rd Reg.rtxTimeout then s
    else if t.tries < c.rd Reg.rtxLimit then
      let f := { t.frame with flags := t.frame.flags ||| flRETX }
      let c := c.putTx ep { t with sentAt := c.now, tries := t.tries + 1 }
      let c := c.putPair ep { c.pair ep with pathUp := !(c.pathsOf ep).isEmpty }
      { s with ctl := (c.withAck ep f).1.sendFrame (c.withAck ep f).2 }
    else
      let st := if (c.pair ep).pathUp then stTIMEOUT else stPATHLOST
      let g := fillFrame t.frame
      let c := (c.putTx ep { t with frame := g, filled := true, sentAt := c.now }).sendFrame g
      let s := { s with ctl := c }
      match (if t.frame.isRequest then c.owns.find? (fun (x : OwnReq) => x.ep == ep && x.tag == t.frame.tag) else none) with
      | some x => (s.ownEnds x st dNONE 0 []).settle
      | none => s

def execRtxTimeout (peer : Fin 4096) (seq : BitVec 24) (s : State) : Host.Outcome State Fault Refusal := done (s.rtxTimeout peer.val seq)

/-- A SEQ that was given up goes out again as SEQFILL at each RTX_TIMEOUT (R170). -/
def Ctl.fillAgain (c : Ctl) (ep : Nat) (seq : BitVec 24) : Ctl :=
  match c.tx? ep seq with
  | none => c
  | some t =>
    if !t.filled || c.now < t.sentAt + c.rd Reg.rtxTimeout then c
    else (c.putTx ep { t with sentAt := c.now }).sendFrame t.frame

def execSeqfillRetransmit (peer : Fin 4096) (seq : BitVec 24) (s : State) : Host.Outcome State Fault Refusal :=
  done (s.onCtl (·.fillAgain peer.val seq))

/-- A SEQFILL from a source: the request it stands in for was given up, and its tracker entry goes (R155, R170). -/
def Ctl.takeSeqfill (c : Ctl) (f : Frame) : Ctl :=
  if f.kind ≠ kSeqfill then c
  else if !c.liveInc f.src.toNat f.inc then c.sendFenced f
  else
    let c := c.untrack f.src.toNat f.dst.toNat f.seq
    if f.dst = 0xFFF then c
    else
      let gone := c.opens.filter (fun (o : OpenReq) => o.frame.src == f.src && o.frame.dst == f.dst && o.frame.seq == f.seq)
      (gone.foldl (fun (d : Ctl) (o : OpenReq) => d.closeReq o.id) c).passOn f

def execSeqfill (frame : Frame) (s : State) : Host.Outcome State Fault Refusal := done (s.whenMain (·.takeSeqfill frame))

end Sys2Proof.Machine
end

