-- ==== Sys2Proof/Machine/Coherence.lean ====
section
/-! DEFINITION. The coherence rows (spec/07): requests of agents, their answers to home, domains. -/

namespace Sys2Proof.Machine

def execRds (frame : Frame) (found : SiteErr) (s : State) : Host.Outcome State Fault Refusal :=
  done (s.serveIf (frame.kind = kRdS) frame found)

def execRdx (frame : Frame) (s : State) : Host.Outcome State Fault Refusal := done (s.serveIf (frame.kind = kRdX) frame .clean)

def execUpg (frame : Frame) (s : State) : Host.Outcome State Fault Refusal := done (s.serveIf (frame.kind = kUpg) frame .clean)

/-- After a write-back the lines that close let removals and recalls go on (R181, R198). -/
def execWbm (frame : Frame) (s : State) : Host.Outcome State Fault Refusal :=
  done ((s.serveIf (frame.kind = kWbM) frame .clean).onCtl (·.settleDoms))

def execWbe (frame : Frame) (s : State) : Host.Outcome State Fault Refusal :=
  done ((s.serveIf (frame.kind = kWbE) frame .clean).onCtl (·.settleDoms))

/-! ### Answers of agents (R185-R187) -/

/-- What an awaited answer of agent `slot` does to the entry of its line: WBP makes home wait for the owner's WbM, unless it has
come already; an agent that had given its copy up holds none. -/
def DirEnt.answered (e : DirEnt) (t : Trans) (slot : Nat) (wbp keeps : Bool) : DirEnt :=
  let has := bitOf e.pres.toNat slot
  let owner := (e.st == .E || e.st == .M) && e.owner == slot
  let await := removeNat t.await slot
  if owner then
    { e with trans := some { t with await := await, awaitWb := if wbp && has then insertNat t.awaitWb slot else t.awaitWb,
                                    wbp := t.wbp || wbp || !has } }
  else { e with pres := if keeps then e.pres else e.pres &&& ~~~ slotBit slot, trans := some { t with await := await } }

/-- An InvAck, FwdAck or Data that home awaits: its data goes to the home cache, and the transaction ends with the last answer
(R186, R189). Home discards an answer that it does not await, such as one that comes after the domain went down (R196). -/
def State.agentAnswer (s : State) (f : Frame) : State :=
  let bay := f.bay.toNat
  let wbp := bitOf f.addr.toNat 0
  let line := lineKeyOf bay (BitVec.ofNat 64 (f.addr.toNat / 128 * 128))
  match s.ctl.entOf line with
  | none => s
  | some e =>
    match e.trans, (s.ctl.dom e.dom).slotOf f.src.toNat with
    | some t, some slot =>
      if t.granted || !t.await.contains slot then s
      else
        let s := if f.payload.isEmpty || wbp then s else s.homeWrite line f.payload
        let s := s.onCtl (·.putEnt (e.answered t slot wbp (f.kind == kFwdAck)))
        (s.endTrans line).onCtl (·.settleDoms)
    | _, _ => s

/-- An answer of an agent with a live incarnation. -/
def State.takeAgent (s : State) (k : BitVec 8) (f : Frame) : State :=
  if f.kind ≠ k || f.dst ≠ 0xFFF || !s.ctl.mainUp then s
  else if !s.ctl.liveInc f.src.toNat f.inc then s.onCtl (·.sendFenced f)
  else (s.agentAnswer f).settle

def execInvack (frame : Frame) (s : State) : Host.Outcome State Fault Refusal := done (s.takeAgent kInvAck frame)

def execFwdack (frame : Frame) (s : State) : Host.Outcome State Fault Refusal := done (s.takeAgent kFwdAck frame)

def execData (frame : Frame) (s : State) : Host.Outcome State Fault Refusal := done (s.takeAgent kData frame)

/-- An agent has not answered an Inv, Fwd or Recall within ACK_TIMEOUT: its domain goes down (R195). -/
def State.dirAckTimeout (s : State) (bay : Nat) (a : Word) (slot : Nat) : State :=
  match s.ctl.entOf (lineKeyOf bay (BitVec.ofNat 64 (a.toNat / 128 * 128))) with
  | none => s
  | some e =>
    match e.trans with
    | none => s
    | some t =>
      if t.await.contains slot && t.since + s.ctl.rd Reg.ackTimeout ≤ s.ctl.now then
        (s.domainDown e.dom 2 ((s.ctl.dom e.dom).epOf slot)).settle
      else s

def execDirAckTimeout (bay : Fin 4096) (line : Word) (slot : Fin 64) (s : State) : Host.Outcome State Fault Refusal :=
  done (if s.ctl.mainUp then s.dirAckTimeout bay.val line slot.val else s)

/-! ### Domains (R178, R198, Tables 7.7-7.9) -/

/-- DIR_CMD_STATUS after a command. -/
def Ctl.dirStatus (c : Ctl) (d err busy : Nat) : Ctl := ((c.wr Reg.dirDom d).wr Reg.dirErr err).wr Reg.dirBusy busy

/-- The slots of a domain with VALID = 1, and their endpoints. -/
def Ctl.validSlots (c : Ctl) (d : Nat) : List (Nat × Nat) :=
  ((List.range 64).filter (fun a => c.rd (Reg.agentValid d a) == 1)).map (fun a => (a, c.rd (Reg.agentEp d a)))

/-- An endpoint that may be an agent: ACC, a LIVE member of the current map as CONTROL, COMPUTE or READER. -/
def Ctl.mayBeAgent (c : Ctl) (bay ep : Nat) : Bool :=
  c.rd (Reg.epClass ep) == 0 && (match (c.bay bay).cur with
    | some m => (match m.classOf ep with | some k => decide (k ≤ 2) | none => false)
    | none => false)

/-- Some endpoint is named twice. -/
def namedTwice : List Nat → Bool
  | [] => false
  | e :: t => t.contains e || namedTwice t

/-- DIR_CMD CREATE (R178): ERR of Table 7.7. -/
def Ctl.createErr (c : Ctl) (d : Nat) : Nat :=
  let bay := c.rd (Reg.domBay d)
  let l := c.validSlots d
  if (c.dom d).st ≠ .free then 2
  else if (c.bay bay).st ≠ .active then 1
  else if l.isEmpty then 4
  else if l.any (fun a => !c.mayBeAgent bay a.2) then 3
  else if namedTwice (l.map (·.2)) then 5
  else 0

def Ctl.domCreate (c : Ctl) (d : Nat) : Ctl :=
  if c.rd Reg.dirBusy = 1 then c
  else
    let err := c.createErr d
    let c := c.dirStatus d err 0
    if err ≠ 0 then c
    else c.putDom d { st := .up, bay := c.rd (Reg.domBay d), cause := 0, causeEp := 0, agents := c.validSlots d }

def execCreate (dom : Fin 64) (s : State) : Host.Outcome State Fault Refusal := done (s.whenMain (·.domCreate dom.val))

/-- DIR_CMD ADD_AGENT: one slot joins an UP domain under the checks of R178. -/
def Ctl.addAgentErr (c : Ctl) (d a : Nat) : Nat :=
  let m := c.dom d
  let ep := c.rd (Reg.agentEp d a)
  if m.st ≠ .up then 6
  else if (c.bay m.bay).st ≠ .active then 1
  else if c.rd (Reg.agentValid d a) = 0 then 4
  else if !c.mayBeAgent m.bay ep then 3
  else if m.agents.any (fun (x : Nat × Nat) => x.1 != a && x.2 == ep) then 5
  else 0

def Ctl.domAddAgent (c : Ctl) (d a : Nat) : Ctl :=
  if c.rd Reg.dirBusy = 1 then c
  else
    let err := c.addAgentErr d a
    let m := c.dom d
    let c := c.dirStatus d err 0
    if err ≠ 0 || m.agents.any (fun (x : Nat × Nat) => x.1 == a) then c
    else c.putDom d { m with agents := Tab.put m.agents a (c.rd (Reg.agentEp d a)) }

def execAddAgent (dom : Fin 64) (slot : Fin 64) (s : State) : Host.Outcome State Fault Refusal :=
  done (s.whenMain (·.domAddAgent dom.val slot.val))

/-- DIR_CMD DESTROY (R198): BUSY until the domain is FREE. -/
def Ctl.domDestroy (c : Ctl) (d : Nat) : Ctl :=
  if c.rd Reg.dirBusy = 1 then c
  else match (c.dom d).st with
    | .free => c.dirStatus d 6 0
    | .up => (c.dirStatus d 0 1).drainDomain d
    | .failed | .draining => (c.dirStatus d 0 1).putDom d { c.dom d with st := .draining }

def execDestroy (dom : Fin 64) (s : State) : Host.Outcome State Fault Refusal := done (s.whenMain (·.domDestroy dom.val))

/-- A DRAINING domain without entries becomes FREE; its slots are no longer LIVE (R198, Table 7.9). -/
def Ctl.domDrained (c : Ctl) (d : Nat) : Ctl :=
  let m := c.dom d
  if m.st ≠ .draining || c.dir.any (fun (e : DirEnt) => e.dom == d) then c
  else
    let c := c.putDom d { m with st := .free, agents := [] }
    if c.rd Reg.dirDom = d then c.wr Reg.dirBusy 0 else c

def execDomainDrained (dom : Fin 64) (s : State) : Host.Outcome State Fault Refusal := done (s.whenMain (·.domDrained dom.val))

end Sys2Proof.Machine
end

