-- ==== Sys2Proof/Machine/LinkOps.lean ====
section
/-! DEFINITION. Sub-port states (spec/03 §3.1, §3.3): what entering and leaving a state does, usable widths, lane
failures. -/

namespace Sys2Proof.Machine

/-- The lowest n set bits of a lane mask. -/
def lowBits (m n : Nat) : Nat :=
  (((List.range 4).filter (fun i => bitOf m i)).take n).foldl (fun a i => a + 2 ^ i) 0

/-- The lanes a sub-port can use: in Erlum mode every survivor, in 802.3dj mode only the standard's widths (R63). -/
def usableLanes (erlum : Bool) (lanes : BitVec 4) : BitVec 4 :=
  let n := popCount 4 lanes.toNat
  if erlum then lanes else BitVec.ofNat 4 (lowBits lanes.toNat (if n = 4 then 4 else if 2 ≤ n then 2 else n))

/-- The sub-port whose configured lanes hold lane m. -/
def Ctl.subOfLane (c : Ctl) (p m : Nat) : Option Nat := (List.range 4).find? (fun s => bitOf (c.cfgLanes p s).toNat m)

/-- The lanes of a sub-port that are not failed, as far as DEGRADE_EN allows using fewer than configured (R63). -/
def Ctl.usable (c : Ctl) (p s : Nat) : BitVec 4 :=
  let cfg := c.cfgLanes p s
  let u := usableLanes (c.rd (Reg.cfgMode p) == 1) (cfg &&& ~~~ (c.lane p).failed &&& ~~~ (c.lane p).recal)
  if c.rd (Reg.cfgDegrade p) = 0 && u ≠ cfg then 0 else u

/-- Discard the replay buffer and every frame queued for a sub-port, and start the link sequence, credits and
admissions afresh (R73). The frames are counted in TX_DISCARD. -/
def Ctl.linkDrop (c : Ctl) (p s : Nat) : Ctl :=
  let x := c.sub p s
  let n := x.replay.length + ((List.range 8).map (fun k => ((c.fq (portQueue p k)).list s).length)).sum
  let c := (List.range 8).foldl (fun d k => d.dropList (portQueue p k) s false) c
  let c := { c with scheds := c.scheds.set (4 * p + s) Sched.init Sched.init }
  (c.bumpBy (Reg.lnkCtr p s 0x58) n).putSub p s
    { SubPort.init with st := x.st, since := x.since, lanes := x.lanes, retired := x.retired, held := x.held,
                        trains := x.trains, auths := x.auths, initAt := x.initAt }

/-- Enter DOWN (Table 3.5). A deferred re-calibration takes place now (R67); RETIRED numbers end (R461). -/
def Ctl.linkDown (c : Ctl) (p s : Nat) : Ctl :=
  let c := c.linkDrop p s
  let l := c.lane p
  let mine := c.cfgLanes p s
  (c.putSub p s { c.sub p s with st := .down, since := c.now, lanes := 0, retired := [], initAt := none }).putLane p
    { l with deferred := l.deferred &&& ~~~ mine, recal := l.recal &&& ~~~ mine }

/-- Enter QUARANTINED. -/
def Ctl.linkQuar (c : Ctl) (p s : Nat) : Ctl :=
  let c := c.linkDrop p s
  c.putSub p s { c.sub p s with st := .quarantined, since := c.now, lanes := 0 }

/-- Enter TRAIN: counted, LINK_RETRAIN reported for each lane of the sub-port; the 8th entry within 1 s
quarantines it instead (R72, Table 3.5, Table 18.3). -/
def Ctl.linkTrain (c : Ctl) (p s : Nat) : Ctl :=
  let c := c.linkDrop p s
  let c := c.bumpF (Reg.retrainCnt p) 1
  let c := ((List.range 4).filter (fun m => bitOf (c.cfgLanes p s).toNat m)).foldl (fun d m => d.report (rep 0x01 0x09 (4 * p + m))) c
  let x := c.sub p s
  let tr := x.trains.filter (fun t => c.now < t + 100000000) ++ [c.now]
  if 8 ≤ tr.length then (c.putSub p s { x with trains := tr }).linkQuar p s
  else c.putSub p s { x with st := .train, since := c.now, lanes := 0, trained := 0, trains := tr }

/-- Enter ALIGN on a lane set; the first one after TRAIN exchanges LINK_INIT (R73). -/
def Ctl.linkAlign (c : Ctl) (p s : Nat) (lanes : BitVec 4) (first : Bool) : Ctl :=
  c.putSub p s { c.sub p s with st := .align, since := c.now, lanes := lanes, firstAlign := first, aligned := false,
                                accepted := false, keyed := false, kem := none }

/-- A path to endpoints is there again (R89). -/
def Ctl.pathsUp (c : Ctl) (eps : List Nat) : Ctl :=
  eps.foldl (fun (d : Ctl) e => d.putPair e { d.pair e with pathUp := true }) c

/-- Leave ALIGN for UP or DEGRADED once aligned, accepted and, on an encrypted sub-port, keyed. -/
def Ctl.linkUp (c : Ctl) (p s : Nat) : Ctl :=
  let x := c.sub p s
  if x.st = .align && x.aligned && x.accepted && (!x.enc || x.keyed) then
    let c := c.pathsUp x.eps
    c.putSub p s { x with st := if x.lanes = c.cfgLanes p s then .up else .degraded, since := c.now, firstAlign := false,
                          progressAt := c.now, stalledAt := none, replays := if x.stalledAt.isSome then 0 else x.replays }
  else c

/-- A lane fails (R64): logged, dark, and its sub-port narrows or retrains (R63). -/
def Ctl.laneFail (c : Ctl) (p m : Nat) : Ctl :=
  let l := c.lane p
  if bitOf l.failed.toNat m then c
  else
    let c := (c.putLane p { l with failed := l.failed ||| BitVec.ofNat 4 (2 ^ m) }).report (rep 0x01 0x08 (4 * p + m))
    match c.subOfLane p m with
    | none => c
    | some s =>
      let x := c.sub p s
      if (x.carries || x.st == .align) && bitOf x.lanes.toNat m then
        let u := c.usable p s
        if u = 0 then c.linkTrain p s else c.linkAlign p s u (x.st == .align && x.firstAlign)
      else c

/-- Every sub-port of a port goes DOWN. -/
def Ctl.portDown (c : Ctl) (p : Nat) : Ctl := (List.range 4).foldl (fun d s => d.linkDown p s) c

/-- Whether the fabric ports may train: MAIN up beyond step 8, REFCLK_FAB present (Table 3.11, R48). -/
def Ctl.mayTrain (c : Ctl) (p : Nat) : Bool :=
  c.rd (Reg.cfgEnable p) == 1 && !c.pwr.fabLost && !(c.elm (p / 16)).released
  && (c.rd Reg.glbState == 2 || (c.rd Reg.glbState == 1 && 8 ≤ c.rd Reg.glbStep))

/-- A write to LNK_CFG (Table 3.13): the clamps, UNQUAR, ENABLE = 0, and a change of MODE or BREAKOUT (R62). -/
def Ctl.writeLnkCfg (c : Ctl) (p : Nat) (v : Word) : Ctl :=
  let x := v.toNat
  let brk := if field x 2 2 = 3 then 0 else field x 2 2
  let et := field x 16 16
  let et := if et < 0x600 || et = 0x8100 then 0x88B5 else et
  let mode := field x 1 1
  let changed := mode ≠ c.rd (Reg.cfgMode p) || brk ≠ c.rd (Reg.cfgBreakout p)
  let c := if changed || field x 0 1 = 0 then c.portDown p else c
  let c := c.putReg (Reg.portBase p + 8) (BitVec.ofNat 64 (field x 0 2 + brk * 4 + field x 4 2 * 16 + et * 65536))
  let c := (c.wr (Reg.lnkMode p) mode).wr (Reg.lnkBreakout p) brk
  if bitOf x 6 then
    (List.range 4).foldl (fun d s => if (d.sub p s).st = .quarantined then d.linkDown p s else d) c
  else c

end Sys2Proof.Machine
end

