-- ==== Sys2Proof/Machine/Links.lean ====
section
/-! DEFINITION. The links' rows (spec/03 §3.1-§3.7, spec/05 §5.1): configuration, training, LINK_INIT and admission, keys,
lanes, replay, credits. MAIN must be up; otherwise nothing happens (R497). -/

namespace Sys2Proof.Machine

/-- LNK_CFG as it reads. -/
def Ctl.lnkCfg (c : Ctl) (p : Nat) : Nat := (c.reg (Reg.portBase p + 8)).toNat

def execLnkModeChange (port : Fin 128) (v : Word) (s : State) : Host.Outcome State Fault Refusal :=
  done (s.whenMain (·.writeLnkCfg port.val v))

def execLnkDisable (port : Fin 128) (s : State) : Host.Outcome State Fault Refusal :=
  done (s.whenMain (fun c => c.writeLnkCfg port.val (BitVec.ofNat 64 (c.lnkCfg port.val / 2 * 2))))

def execUnquar (port : Fin 128) (s : State) : Host.Outcome State Fault Refusal :=
  done (s.whenMain (fun c => c.writeLnkCfg port.val (BitVec.ofNat 64 (c.lnkCfg port.val ||| 0x40))))

/-! ### Training (Table 3.5) -/

/-- A DOWN sub-port that exists may train; after a timeout it waits 100 ms. -/
def Ctl.trains? (c : Ctl) (p s : Nat) : Bool :=
  let x := c.sub p s
  x.st == .down && c.cfgLanes p s != 0 && c.mayTrain p
  && (match x.stalledAt with | some t => decide (t + 10000000 ≤ c.now) | none => true)

def execLinkSignalDetect (port : Fin 128) (sub : Fin 4) (s : State) : Host.Outcome State Fault Refusal :=
  done (s.whenMain (fun c => if c.trains? port.val sub.val then c.linkTrain port.val sub.val else c))

/-- Lanes of the sub-port that did not converge are excluded; with DEGRADE_EN = 0 only the full width is usable (R63). -/
def Ctl.trainComplete (c : Ctl) (p s : Nat) (lanes : BitVec 4) : Ctl :=
  let cfg := c.cfgLanes p s
  let l := c.lane p
  if (c.sub p s).st ≠ .train then c
  else
    let d := c.putLane p { l with failed := (l.failed &&& ~~~ cfg) ||| (cfg &&& ~~~ lanes), recal := l.recal &&& ~~~ cfg }
    let u := d.usable p s
    if u = 0 then c else (d.putSub p s { d.sub p s with trained := lanes &&& cfg }).linkAlign p s u true

def execTrainComplete (port : Fin 128) (sub : Fin 4) (lanes : BitVec 4) (s : State) : Host.Outcome State Fault Refusal :=
  done (s.whenMain (·.trainComplete port.val sub.val lanes))

/-- No usable width within 50 ms. -/
def Ctl.trainTimeout (c : Ctl) (p s : Nat) : Ctl :=
  let x := c.sub p s
  if x.st = .train && x.since + 5000000 ≤ c.now then
    let d := c.linkDown p s
    d.putSub p s { d.sub p s with stalledAt := some c.now }
  else c

def execTrainTimeout (port : Fin 128) (sub : Fin 4) (s : State) : Host.Outcome State Fault Refusal :=
  done (s.whenMain (·.trainTimeout port.val sub.val))

def execTrainRetry (port : Fin 128) (sub : Fin 4) (s : State) : Host.Outcome State Fault Refusal :=
  done (s.whenMain (fun c =>
    if (c.sub port.val sub.val).stalledAt.isSome && c.trains? port.val sub.val then c.linkTrain port.val sub.val else c))

/-! ### The LINK_INIT exchange -/

/-- Sub-ports of a port under its breakout. -/
def Ctl.subCount (c : Ctl) (p : Nat) : Nat := 2 ^ c.rd (Reg.cfgBreakout p)

/-- The SG7's share of the port's replay buffer (R61). -/
def Ctl.ownShare (c : Ctl) (p : Nat) : Nat := 65536 / c.subCount p

/-- The SG7's MAC address on a sub-port (R75). -/
def Ctl.ownMac (c : Ctl) (p s : Nat) : Nat := (c.reg 0x20).toNat + 4 * p + s

/-- The LINK_INIT that the SG7 sends (§3.3, R80). -/
def Ctl.ownInit (c : Ctl) (p s : Nat) : List Byte :=
  let n := popCount 4 (c.cfgLanes p s).toNat
  leBytes 1 (c.rd (Reg.cfgMode p)) ++ leBytes 1 (c.sub p s).lanes.toNat ++ leBytes 1 (1 + 2 * c.rd (Reg.cfgEncReq p)) ++ zeros 1
  ++ leBytes 4 (c.ownShare p) ++ (List.replicate 8 (leBytes 2 (64 * n))).flatten ++ leBytes 6 (c.ownMac p s) ++ zeros 2

/-- KEY_OFFER in two fragments: a fresh encapsulation key and the alias key's signature (R92). -/
def Ctl.keyOffer (c : Ctl) (p s : Nat) : Ctl :=
  let n := c.freeCtr
  let k := Config.kemKey n
  let h := sha384 (k ++ leBytes 6 (c.ownMac p s) ++ leBytes 6 (c.sub p s).peerMac.toNat ++ Config.linkNumber p s)
  let c := ({ c with freeCtr := n + 1 }).putSub p s { c.sub p s with kem := some n }
  (c.emit (.linkCtl p s 6 0x100 k)).emit (.linkCtl p s 6 0x101 (Config.aliasSign (leBytes 48 h.toNat)))

/-- All FEC lanes are locked and deskewed: LINK_INIT in the first ALIGN after TRAIN, WIDTH_CHANGE in others, which on an
encrypted sub-port also begin with KEY_OFFER (R71, R73, R92). -/
def Ctl.subAligned (c : Ctl) (p s : Nat) : Ctl :=
  let x := c.sub p s
  if x.st ≠ .align || x.aligned then c
  else
    let c := c.putSub p s { x with aligned := true }
    if x.firstAlign then c.emit (.linkCtl p s 1 0 (c.ownInit p s))
    else
      let c := c.emit (.linkCtl p s 5 0 [])
      if x.enc then c.keyOffer p s else c

def execSubportAligned (port : Fin 128) (sub : Fin 4) (s : State) : Host.Outcome State Fault Refusal :=
  done (s.whenMain (·.subAligned port.val sub.val))

/-- Not UP within 10 ms. -/
def Ctl.alignTimeout (c : Ctl) (p s : Nat) : Ctl :=
  let x := c.sub p s
  if x.st = .align && x.since + 1000000 ≤ c.now then c.linkTrain p s else c

def execAlignTimeout (port : Fin 128) (sub : Fin 4) (s : State) : Host.Outcome State Fault Refusal :=
  done (s.whenMain (·.alignTimeout port.val sub.val))

/-! ### Replay (R82-R84) -/

/-- LSEQ a comes before b (half the space). -/
def lseqBefore (a b : BitVec 16) : Bool := a != b && (b - a).toNat < 2 ^ 15

/-- Send the frames of the replay buffer from an LSEQ again, in order; the eighth fruitless replay of one LSEQ is the last
before ALIGN (R83, R84). -/
def Ctl.replayFrom (c : Ctl) (p s : Nat) (lseq : BitVec 16) : Ctl :=
  let x := c.sub p s
  let l := x.replay.filter (fun (e : ReplayEnt) => !lseqBefore e.lseq lseq)
  if !x.carries || l.isEmpty then c
  else if 8 ≤ x.replays then
    let d := c.linkAlign p s x.lanes false
    d.putSub p s { d.sub p s with stalledAt := some c.now }
  else
    let c := (c.putSub p s { x with replays := x.replays + 1, progressAt := c.now }).bump (Reg.lnkCtr p s 0x38)
    l.foldl (fun (d : Ctl) (e : ReplayEnt) => d.emit (.frame p s
      { lseq := e.lseq, lack := x.rxLseq, cr0tc := 0, cr0cnt := 0, cr1tc := 0, cr1cnt := 0 } e.frame)) c

/-- A NAK with the expected LSEQ, at most one in 200 ns (R83). -/
def Ctl.sendNak (c : Ctl) (p s : Nat) : Ctl :=
  let x := c.sub p s
  if (match x.nakAt with | some t => decide (c.now < t + 20) | none => false) then c
  else (c.putSub p s { x with nakAt := some c.now }).emit (.linkCtl p s 4 (BitVec.ofNat 64 x.rxLseq.toNat) [])

/-- Come up from ALIGN if the exchange is complete. After a change of width each side names the LSEQ it expects (Example 3.1), and
a stalled replay resumes (R84). -/
def Ctl.comeUp (c : Ctl) (p s : Nat) : Ctl :=
  let x := c.sub p s
  let d := c.linkUp p s
  if !(d.sub p s).carries || x.carries || x.firstAlign then d
  else
    let d := d.emit (.linkCtl p s 4 (BitVec.ofNat 64 x.rxLseq.toNat) [])
    match x.stalledAt, x.replay with
    | some _, e :: _ => d.replayFrom p s e.lseq
    | _, _ => d

def execNak (port : Fin 128) (sub : Fin 4) (lseq : BitVec 16) (s : State) : Host.Outcome State Fault Refusal :=
  done (s.whenMain (·.replayFrom port.val sub.val lseq))

/-- LACK has not advanced for 200 T-ticks. -/
def Ctl.replayTimeout (c : Ctl) (p s : Nat) : Ctl :=
  let x := c.sub p s
  match x.replay with
  | [] => c
  | e :: _ => if x.progressAt + 200 ≤ c.now then c.replayFrom p s e.lseq else c

def execReplayTimeout (port : Fin 128) (sub : Fin 4) (s : State) : Host.Outcome State Fault Refusal :=
  done (s.whenMain (·.replayTimeout port.val sub.val))

/-- A stalled sub-port has not returned within 1 ms. -/
def Ctl.replayStall (c : Ctl) (p s : Nat) : Ctl :=
  let x := c.sub p s
  match x.stalledAt with
  | some t => if x.st = .align && t + 100000 ≤ c.now then c.linkTrain p s else c
  | none => c

def execReplayStallTimeout (port : Fin 128) (sub : Fin 4) (s : State) : Host.Outcome State Fault Refusal :=
  done (s.whenMain (·.replayStall port.val sub.val))

/-! ### Credits (R79-R81) -/

/-- Credits that bytes on the wire take. -/
def creditsOf (bytes : Nat) : Nat := (bytes + 255) / 256

/-- Eight entries of a credit list. -/
def eight (l : List Nat) : List Nat := (List.range 8).map (fun i => natAt l i)

/-- Add n to entry k of a list of eight. -/
def addAt (l : List Nat) (k n : Nat) : List Nat := setAt (eight l) k (natAt l k + n)

/-- A frame has left the ingress buffer: its credits are owed to the far end. -/
def Ctl.oweCredits (c : Ctl) (p s cls bytes : Nat) : Ctl :=
  let x := c.sub p s
  c.putSub p s { x with owed := addAt x.owed cls (creditsOf bytes), waitSince := some (x.waitSince.getD c.now) }

/-- Apply a trailer: LACK releases replay entries, credits are added. -/
def Ctl.takeTrailer (c : Ctl) (p s : Nat) (t : Trailer) : Ctl :=
  let x := c.sub p s
  let stay := x.replay.filter (fun (e : ReplayEnt) => !lseqBefore e.lseq t.lack)
  let moved := stay.length < x.replay.length
  c.putSub p s { x with
    credits := addAt (addAt x.credits t.cr0tc.toNat t.cr0cnt.toNat) t.cr1tc.toNat t.cr1cnt.toNat,
    replay := stay, progressAt := if moved then c.now else x.progressAt, replays := if moved then 0 else x.replays }

/-- The trailer of the next frame: LACK, and the credits owed in up to two classes. -/
def Ctl.makeTrailer (c : Ctl) (p s : Nat) (lseq : BitVec 16) : Trailer × Ctl :=
  let x := c.sub p s
  let ks := (List.range 8).filter (fun k => natAt x.owed k ≠ 0)
  let n (i : Nat) : Nat := match ks[i]? with | some k => min 8191 (natAt x.owed k) | none => 0
  let k (i : Nat) : Nat := (ks[i]?).getD 0
  let owed := setAt (setAt (eight x.owed) (k 0) (natAt x.owed (k 0) - n 0)) (k 1)
    (if ks.length < 2 then natAt (setAt (eight x.owed) (k 0) (natAt x.owed (k 0) - n 0)) (k 1) else natAt x.owed (k 1) - n 1)
  let owed := if owed.all (· == 0) then [] else owed
  ({ lseq := lseq, lack := x.rxLseq, cr0tc := BitVec.ofNat 3 (k 0), cr0cnt := BitVec.ofNat 13 (n 0),
     cr1tc := BitVec.ofNat 3 (k 1), cr1cnt := BitVec.ofNat 13 (n 1) },
   c.putSub p s { x with owed := owed, lackSent := x.rxLseq, waitSince := if owed.isEmpty then none else x.waitSince })

def execCredit (port : Fin 128) (sub : Fin 4) (tr : Trailer) (s : State) : Host.Outcome State Fault Refusal :=
  done (s.whenMain (fun c => if (c.sub port.val sub.val).carries then c.takeTrailer port.val sub.val tr else c))

/-- A credit return or an advance of LACK has waited 100 ns. -/
def Ctl.creditWait (c : Ctl) (p s : Nat) : Ctl :=
  let x := c.sub p s
  match x.waitSince with
  | some t =>
    if x.carries && t + 10 ≤ c.now then
      let r := c.makeTrailer p s 0
      r.2.emit (.credit p s r.1)
    else c
  | none => c

def execCreditReturnWait (port : Fin 128) (sub : Fin 4) (s : State) : Host.Outcome State Fault Refusal :=
  done (s.whenMain (·.creditWait port.val sub.val))

/-! ### Admission (R116-R120) -/

/-- RESULT of one LINK_INIT entry, the i-th (Table 5.2). -/
def Ctl.admitResult (c : Ctl) (key i ep cls inc : Nat) : Nat :=
  let x := c.ep ep
  if 16 ≤ i then 7
  else if ep = 0xFFF || c.rd (Reg.epEnable ep) = 0 then 2
  else if cls = 3 || cls ≠ c.rd (Reg.epClass ep) then 3
  else if inc = 0 && x.live then 4
  else if inc ≠ 0 && !(x.live && x.inc.toNat == inc) then 5
  else if 8 ≤ ((c.subsOf ep).filter (· ≠ key)).length then 6
  else if inc = 0 then 0 else 1

/-- The next incarnation of an endpoint: it skips 0 and wraps (R118). -/
def nextInc (i : BitVec 8) : BitVec 8 := if i = 255 then 1 else i + 1

/-- An endpoint is ADMITTED with a new incarnation (R118, R86, R133, R461, R471). -/
def State.admitEp (s : State) (ep : Nat) : State :=
  let s := if s.ctl.isTray ep then (s.beforeReturn (fun k => keyTray k == some ep)).onCtl (·.retryZero (fun k => keyTray k == some ep)) else s
  s.onCtl (fun c =>
    let x := c.ep ep
    let c := c.putEp ep { x with live := true, inc := nextInc x.inc, plumb := .alive, lastBeat := c.now, winAt := none, queried := [],
                                 run := 0, fencedAt := none, awaitSync := [] }
    let c := c.dropTransport ep
    let c : Ctl := { c with subs := Tab.map c.subs (fun _ (y : SubPort) => { y with retired := removeNat y.retired ep }) }
    if c.isTray ep then c.syncTray ep else c)

/-- Decide one entry; answers its LINK_ACCEPT entry. -/
def State.admitOne (s : State) (p sp i w : Nat) : State × List Byte :=
  let ep := field w 0 12
  let r := s.ctl.admitResult (4 * p + sp) i ep (field w 12 2) (field w 16 8)
  let s := if r = 0 then s.admitEp ep else s
  let s := if r ≤ 1 then s.onCtl (fun c => c.putSub p sp { c.sub p sp with eps := insertNat (c.sub p sp).eps ep }) else s
  (s, leBytes 4 (ep + r * 2 ^ 12 + (if r ≤ 1 then (s.ctl.ep ep).inc.toNat else 0) * 2 ^ 16))

/-- Why the SG7 rejects a LINK_INIT (§3.3): 0 when it does not. -/
def Ctl.initReject (c : Ctl) (p : Nat) (b : List Byte) : Nat :=
  let enc := leAt b 2 1
  if (List.range 8).any (fun k => leAt b (8 + 2 * k) 2 < 17) then 1
  else if !bitOf enc 0 && (c.rd (Reg.cfgEncReq p) == 1 || bitOf enc 1) then 2
  else if leAt b 0 1 ≠ c.rd (Reg.cfgMode p) then 3
  else 0

/-- The sub-port after an accepted LINK_INIT: link sequence, credits and admissions afresh (R73). -/
def Ctl.initSub (c : Ctl) (p s : Nat) (b : List Byte) : Ctl :=
  let x := c.sub p s
  c.putSub p s { x with
    accepted := true, enc := bitOf (leAt b 2 1) 1 || c.rd (Reg.cfgEncReq p) == 1, keyed := false, share := leAt b 4 4,
    credits := (List.range 8).map (fun k => leAt b (8 + 2 * k) 2), owed := [], waitSince := none, peerMac := BitVec.ofNat 48 (leAt b 24 6),
    txLseq := 0, rxLseq := 0, lackSent := 0, replay := [], replays := 0, eps := [], initAt := some c.now }

/-- LINK_INIT is received: in ALIGN once aligned, or again on a sub-port that is up (R117). -/
def State.linkInit (s : State) (p sp : Nat) (b : List Byte) : State :=
  let x := s.ctl.sub p sp
  if !(x.carries || (x.st == .align && x.aligned)) then s
  else
    let why := s.ctl.initReject p b
    if why ≠ 0 then
      s.onCtl (fun c =>
        let c := c.emit (.linkCtl p sp 3 0 (leBytes 1 why))
        if x.st = .align then c.linkTrain p sp else c)
    else
      let s := s.onCtl (·.initSub p sp b)
      let n := min (leAt b 3 1) ((b.length - 32) / 4)
      let r := (List.range n).foldl (fun (r : State × List Byte) i =>
        let q := r.1.admitOne p sp i (leAt b (32 + 4 * i) 4)
        (q.1, r.2 ++ q.2)) (s, leBytes 4 n)
      r.1.onCtl (fun c =>
        let c := c.emit (.linkCtl p sp 2 0 r.2)
        let c := if (c.sub p sp).enc then c.keyOffer p sp else c
        (c.comeUp p sp).pathsUp (if (c.sub p sp).carries then (c.sub p sp).eps else []))

def execLinkInit (port : Fin 128) (sub : Fin 4) (payload : List Byte) (s : State) : Host.Outcome State Fault Refusal :=
  done (if s.ctl.mainUp then s.linkInit port.val sub.val payload else s)

/-! ### Keys (R91, R92) -/

/-- KEY_ACCEPT: both sides derive the link key and salt. -/
def Ctl.keyAccept (c : Ctl) (p s : Nat) (ct : List Byte) : Ctl :=
  let x := c.sub p s
  match x.kem with
  | none => c
  | some n =>
    if ct.length ≠ 1088 || !(x.carries || x.st == .align) then c
    else
      let k := Config.kemDecap n ct
      let h := sha384 (leBytes 32 k.toNat ++ leBytes 6 (c.ownMac p s) ++ leBytes 6 x.peerMac.toNat ++ Config.linkNumber p s)
      (c.putSub p s { x with keyed := true, kem := none, key := h.setWidth 256, salt := h.extractLsb' 256 32, txNonce := 0, rxCount := 0 }).comeUp p s

def execKeyAccept (port : Fin 128) (sub : Fin 4) (ciphertext : List Byte) (s : State) : Host.Outcome State Fault Refusal :=
  done (s.whenMain (·.keyAccept port.val sub.val ciphertext))

/-- REKEY and a new KEY_OFFER on an encrypted sub-port that carries traffic. -/
def Ctl.rekey (c : Ctl) (p s : Nat) : Ctl :=
  let x := c.sub p s
  if x.carries && x.enc then (c.emit (.linkCtl p s 8 0 [])).keyOffer p s else c

def execRekey (port : Fin 128) (sub : Fin 4) (s : State) : Host.Outcome State Fault Refusal :=
  done (s.whenMain (·.rekey port.val sub.val))

/-! ### Lanes (R63-R67) -/

def execLaneFail (port : Fin 128) (lane : Fin 4) (s : State) : Host.Outcome State Fault Refusal :=
  done (s.whenMain (·.laneFail port.val lane.val))

/-- WIDTH_CHANGE has been exchanged: the sub-port goes on with the new lane set. -/
def Ctl.widthChange (c : Ctl) (p s : Nat) (lanes : BitVec 4) : Ctl :=
  let x := c.sub p s
  let l := lanes &&& c.usable p s
  if x.st = .align && x.aligned && !x.firstAlign && l != 0 then (c.putSub p s { x with accepted := true, lanes := l }).comeUp p s else c

def execWidthChange (port : Fin 128) (sub : Fin 4) (lanes : BitVec 4) (s : State) : Host.Outcome State Fault Refusal :=
  done (s.whenMain (·.widthChange port.val sub.val lanes))

/-- A failed or re-calibrated lane is re-added through ALIGN where that widens the sub-port. -/
def Ctl.laneReadd (c : Ctl) (p m : Nat) : Ctl :=
  let l := c.lane p
  let bit := BitVec.ofNat 4 (2 ^ m)
  if (l.failed ||| l.recal) &&& bit = 0 then c
  else
    let c := c.putLane p { l with failed := l.failed &&& ~~~ bit, recal := l.recal &&& ~~~ bit }
    match c.subOfLane p m with
    | none => c
    | some s =>
      let u := c.usable p s
      if (c.sub p s).carries && u ≠ (c.sub p s).lanes && u != 0 then c.linkAlign p s u false else c

def execLaneReadd (port : Fin 128) (lane : Fin 4) (s : State) : Host.Outcome State Fault Refusal :=
  done (s.whenMain (·.laneReadd port.val lane.val))

/-- Full re-calibration of a lane (R67): through a change of width, or deferred until the sub-port is DOWN. -/
def Ctl.laneRecal (c : Ctl) (p m : Nat) : Ctl :=
  match c.subOfLane p m with
  | none => c
  | some s =>
    let x := c.sub p s
    let l := c.lane p
    let bit := BitVec.ofNat 4 (2 ^ m)
    if !x.carries || x.lanes &&& bit = 0 then c
    else if c.rd (Reg.cfgDegrade p) = 0 || popCount 4 x.lanes.toNat = 1 then
      (c.putLane p { l with deferred := l.deferred ||| bit }).report (repInfo 0x01 0x1D (4 * p + m) 2)
    else
      let c := c.putLane p { l with recal := l.recal ||| bit }
      c.linkAlign p s (c.usable p s) false

def execLaneRecalibration (port : Fin 128) (lane : Fin 4) (s : State) : Host.Outcome State Fault Refusal :=
  done (s.whenMain (·.laneRecal port.val lane.val))

end Sys2Proof.Machine
end

