-- ==== Sys2Proof/Machine/Plumb.lean ====
section
/-! DEFINITION. Plumb (spec/18 §18.5, §18.6). -/

namespace Sys2Proof.Machine

/-- Retire an incarnation; what waited for it goes on. -/
def State.retireNow (s : State) (ep cause : Nat) : State := ((s.retire ep cause).settle).onCtl (·.settleDoms)

/-- The endpoints with a live incarnation. -/
def Ctl.liveList (c : Ctl) : List Nat := c.eps.keysWhere (fun _ (x : Endpoint) => x.live)

/-- A BEAT to every admitted endpoint (R455). -/
def Ctl.sendBeats (c : Ctl) : Ctl := c.liveList.foldl (fun (d : Ctl) e => d.sendFrame (beatFrame e 0 0 0 0 (d.rd Reg.plbBeat))) c

def execBeatSend (s : State) : Host.Outcome State Fault Refusal := done (s.whenMain (·.sendBeats))

/-- A report from Plumb about an endpoint. -/
def plumbRep (ep what : Nat) : Report := { repInfo 0x17 0x16 ep what with ep := some ep }

/-- A beat or ANSWER of the live incarnation is accepted: evidence of life that ends a run of suspicions (R457, R458). -/
def Ctl.beatTaken (c : Ctl) (ep : Nat) : Ctl :=
  let x := c.ep ep
  if !x.live then c
  else
    let c := c.putEp ep { x with lastBeat := c.now, run := 0, plumb := .alive, winAt := none, queried := [] }
    if x.plumb = .suspect then c.report (plumbRep ep 1) else c

/-- A REPORT_ALIVE of a queried peer (R458): it counts in the first two suspicions of a run only. -/
def Ctl.peerAlive (c : Ctl) (peer ep : Nat) (inc : BitVec 8) : Ctl :=
  let x := c.ep ep
  if !x.live || x.inc ≠ inc || x.plumb ≠ .suspect || !x.queried.contains peer || 2 ≤ x.run then c
  else
    let c := c.putEp ep { x with lastBeat := c.now, run := x.run + 1, plumb := .alive, winAt := none, queried := [] }
    (c.report (plumbRep ep 2)).bump Reg.plbPeerClears

/-- A PLUMB_BEAT of a live incarnation for the SG7 (Table 18.6). -/
def Ctl.takeBeat (c : Ctl) (f : Frame) : Ctl :=
  let a := f.addr.toNat
  match field a 0 2 with
  | 0 | 2 => c.beatTaken f.src.toNat
  | 3 => if field a 2 2 = 1 then c.peerAlive f.src.toNat (field a 4 12) (BitVec.ofNat 8 (field a 16 8)) else c
  | _ => c

/-- A PLUMB_BEAT whose PTYPE `p` accepts arrives (R455, R77). -/
def Ctl.beatFrom (c : Ctl) (f : Frame) (p : Nat → Bool) : Ctl :=
  if f.kind ≠ kBeat || f.dst ≠ 0xFFF || !p (field f.addr.toNat 0 2) then c
  else if !c.liveInc f.src.toNat f.inc then c.sendFenced f
  else c.takeBeat f

def execBeat (frame : Frame) (s : State) : Host.Outcome State Fault Refusal := done (s.whenMain (·.beatFrom frame (· ≠ 3)))

def execPeerReport (frame : Frame) (s : State) : Host.Outcome State Fault Refusal := done (s.whenMain (·.beatFrom frame (· == 3)))

/-- A beat on the management plane (R456). -/
def Ctl.mgmtBeat (c : Ctl) (g : MgmtBeat) : Ctl :=
  let ep := g.ep.toNat
  if ep < 0xFFF && c.rd (Reg.plbMgmt ep) = 1 && g.udpPort.toNat = c.rd Reg.plbPort && g.restZero && g.kind.toNat ≤ 1
      && g.srcAddr.toNat = (c.reg (Reg.plbAddrHi ep)).toNat * 2 ^ 64 + (c.reg (Reg.plbAddrLo ep)).toNat && c.liveInc ep g.inc
  then c.beatTaken ep else c

def execMgmtBeat (dg : MgmtBeat) (s : State) : Host.Outcome State Fault Refusal := done (s.whenMain (·.mgmtBeat dg))

/-- MISS × BEAT T-ticks have passed since the last beat (R457): PROBE, QUERY, the probe window. -/
def Ctl.suspect (c : Ctl) (ep : Nat) : Ctl :=
  let x := c.ep ep
  if !x.live || x.plumb ≠ .alive || c.now < x.lastBeat + c.rd Reg.plbMiss * c.rd Reg.plbBeat then c
  else
    let peers := (c.peersOf (c.listingBays ep) ep).take (c.rd Reg.plbPeers)
    let c := c.putEp ep { x with plumb := .suspect, winAt := some c.now, queried := peers }
    let c := (c.report (plumbRep ep 0)).bump Reg.plbSuspects
    let c := c.sendFrame (beatFrame ep 1 0 0 0 0)
    let c := if c.rd (Reg.plbMgmt ep) = 1 && (c.ctlIsUp 0 || c.ctlIsUp 1) then
        c.emit (.beat (c.reg (Reg.plbAddrHi ep) ++ c.reg (Reg.plbAddrLo ep)) (c.rd Reg.plbPort) ep x.inc 2) else c
    peers.foldl (fun (d : Ctl) p => d.sendFrame (beatFrame p 3 0 ep x.inc.toNat 0)) c

def execSuspect (ep : Fin 4095) (s : State) : Host.Outcome State Fault Refusal := done (s.whenMain (·.suspect ep.val))

/-- The probe window ends without evidence (R459); no verdict is reached during a management reset (R475). -/
def State.deadVerdict (s : State) (ep : Nat) : State :=
  let x := s.ctl.ep ep
  match x.winAt with
  | some t =>
    if x.live && x.plumb = .suspect && t + s.ctl.rd Reg.plbProbe ≤ s.ctl.now && !s.ctl.pwr.mgmtReset then s.retireNow ep 1 else s
  | none => s

def execDeadVerdict (ep : Fin 4095) (s : State) : Host.Outcome State Fault Refusal :=
  done (if s.ctl.mainUp then s.deadVerdict ep.val else s)

end Sys2Proof.Machine
end

