-- ==== Sys2Proof/Machine/Switch.lean ====
section
/-! DEFINITION. Frames through the SG7 (spec/03 §3.4-§3.6, spec/04): reception, the ingress buffer, the schedulers, delivery to
the SG7's own consumers, Flask's registers. -/

namespace Sys2Proof.Machine

/-! ### Delivery to the SG7 (Table 4.1) -/

/-- What a frame addressed to the SG7 does once its consumer has it. -/
def State.consume (s : State) (f : Frame) : State :=
  if f.kind = kTack then s.takeTack f
  else if f.kind = kBeat then s.onCtl (·.takeBeat f)
  else if f.kind = kSeqfill then s.onCtl (·.takeSeqfill f)
  else if f.isRequest then s.serve f .clean
  else if f.isResponse then s.takeResponse f
  else if f.kind = kRdS || f.kind = kRdX || f.kind = kUpg then s.serve f .clean
  else if f.kind = kWbM || f.kind = kWbE then (s.serve f .clean).onCtl (·.settleDoms)
  else if f.kind = kInvAck || f.kind = kFwdAck || f.kind = kData then (s.agentAnswer f).settle
  else s

/-- A transport duplicate is dropped, counted where it came from, and drawn an acknowledgement (R87). -/
def Ctl.dropDup (c : Ctl) (ep : Nat) (via : Option Nat) : Ctl :=
  (match via with | some k => c.bump (Reg.lnkCtr (k / 4) (k % 4) 0x50) | none => c).ackAgain ep

/-- Deliver a frame that has left an internal queue: its acknowledgement counts, its SEQ is taken once (R87, R88). -/
def State.deliver (s : State) (f : Frame) (via : Option Nat) : State :=
  let ep := f.src.toNat
  if !s.ctl.liveInc ep f.inc then s.onCtl (·.sendFenced f)
  else
    let s := if f.has flACKV && f.kind ≠ kTack then s.acked ep f.ackseq 0 else s
    if !f.sequenced then s.consume f
    else match (s.ctl.pair ep).fit f.seq with
      | .fresh => (s.onCtl (·.takeSeq ep f.seq)).consume f
      | .duplicate => s.onCtl (·.dropDup ep via)
      | .outside => s

/-! ### Ingress -/

/-- The queue and sub-list that a frame goes to; `none` where it has no path. -/
def Ctl.queueFor (c : Ctl) (f : Frame) : Option (Nat × Nat) :=
  if f.dst = 0xFFF then some (innerQueue (innerPort f) f.tc.toNat, 0)
  else (c.pathFor f.src.toNat f.dst.toNat f.tc.toNat).map (fun k => (portQueue (k / 4) f.tc.toNat, k % 4))

/-- Whether the queue of a frame would take it. -/
def Ctl.wouldAdmit (c : Ctl) (q : Nat) (f : Frame) : Bool := flaskAdmits (c.fq q).len c.freeF (c.rd (Reg.alphaK q)) (cellsOf f)

/-- A checked frame that leaves the ingress buffer: for the SG7 into an internal queue, for another endpoint through what the
SG7 does with it on the way (R78, R85, R136, R155). -/
def State.enter (s : State) (f : Frame) (via : Nat) : State :=
  if f.dst = 0xFFF then
    let q := innerQueue (innerPort f) f.tc.toNat
    match s.ctl.admitVia q 0 f (some via) with
    | some d => { s with ctl := d }
    | none => s.onCtl (fun c => (c.bump (Reg.queueBase q + 0x20)).bumpBy (Reg.queueBase q + 0x28) (cellsOf f))
  else if f.isRequest then s.serve f .clean
  else if f.kind = kRdS || f.kind = kRdX || f.kind = kUpg || f.kind = kWbM || f.kind = kWbE then s.serve f .clean
  else if f.isResponse then s.takeResponse f
  else if f.kind = kTack then s.takeTack f
  else if f.kind = kSeqfill then s.onCtl (·.takeSeqfill f)
  else s.onCtl (·.passOn f)

/-- Requests enter their release tracker on arrival (R155); a duplicate for the SG7 is dropped at once (R87). -/
def Ctl.arrive (c : Ctl) (f : Frame) (via : Nat) : Ctl × Bool :=
  let ep := f.src.toNat
  if f.dst = 0xFFF && f.sequenced then
    match (c.pair ep).fit f.seq with
    | .fresh => ((c.track f).getD c, true)
    | .duplicate => (c.dropDup ep (some via), false)
    | .outside => (c, false)
  else (c, true)

/-- A frame that passed R76 and R77 goes to admission: TC0-TC2 frames wait in the ingress buffer behind a held one of their
class (R104), others are admitted or dropped (R105). -/
def State.ingress (s : State) (p sp : Nat) (f : Frame) (bytes : Nat) : State :=
  let r := s.ctl.arrive f (4 * p + sp)
  let s : State := { s with ctl := r.1 }
  let gone (s : State) : State := s.onCtl (·.oweCredits p sp f.tc.toNat bytes)
  if !r.2 then gone s
  else
    let held := f.tc.toNat ≤ 2 && (s.ctl.sub p sp).held.any (fun (h : HeldFrame) => h.cls == f.tc.toNat)
    match s.ctl.queueFor f with
    | none => gone (s.enter f (4 * p + sp))
    | some (q, l) =>
      if f.tc.toNat ≤ 2 && (held || !s.ctl.wouldAdmit q f) then
        s.onCtl (fun c =>
          let h : HeldFrame := { cls := f.tc.toNat, queue := q, sub := l, frame := f, wireBytes := bytes, since := c.now }
          c.putSub p sp { c.sub p sp with held := (c.sub p sp).held ++ [h] })
      else gone (s.enter f (4 * p + sp))

/-- KIND is not reserved and TC is a class that Table 3.8 allows for it. -/
def kindTcOk (k : BitVec 8) (tc : BitVec 3) : Bool :=
  let n := k.toNat
  let t := tc.toNat
  if n ≤ 3 then t == 0
  else if n = 4 then 1 ≤ t
  else if 0x10 ≤ n && n ≤ 0x19 then 3 ≤ t
  else if 0x40 ≤ n && n ≤ 0x47 then t == 2
  else [0x70, 0x71, 0x72, 0x73, 0x74, 0x78, 0x79, 0x7A, 0x7B, 0x7C, 0x80, 0x81].contains n && t == 1

/-- The checks of R76 that need no state. -/
def headerOk (x : RxFrame) : Bool :=
  let f := x.frame
  f.ver == 1 && f.len.toNat ≤ 4096 && f.len.toNat == f.payload.length && x.wireBytes == wireBytes f x.encrypted
  && kindTcOk f.kind f.tc && f.rsv == 0 && f.flags.toNat < 64 && !(f.kind == kBeat && f.dst != 0xFFF)

/-- A failed GCM tag (R83, R93): counted, NAK; 16 within 1 ms quarantine the sub-port (Table 3.5). -/
def Ctl.authFail (c : Ctl) (p s : Nat) : Ctl :=
  let x := c.sub p s
  let l := x.auths.filter (fun t => c.now < t + 100000) ++ [c.now]
  let c := ((c.putSub p s { x with auths := l }).bump (Reg.lnkCtr p s 0x30)).sendNak p s
  if 16 ≤ l.length then c.linkQuar p s else c

/-- A LINK_CTL frame (Table 3.8): its LACK and credits count, then its subtype acts. -/
def State.linkCtl (s : State) (p sp : Nat) (x : RxFrame) : State :=
  let f := x.frame
  if !headerOk x then s.onCtl (·.bump (Reg.lnkCtr p sp 0x18))
  else
    let s := s.onCtl (fun c => (if (c.sub p sp).carries then c.takeTrailer p sp x.trailer else c).bump (Reg.lnkCtr p sp 0x00))
    match f.detail.toNat with
    | 0x01 => s.linkInit p sp f.payload
    | 0x03 => s.onCtl (fun c => if (c.sub p sp).st = .align then c.linkTrain p sp else c)
    | 0x04 => s.onCtl (·.replayFrom p sp (f.addr.setWidth 16))
    | 0x05 => s.onCtl (fun c => c.widthChange p sp (c.sub p sp).lanes)
    | 0x07 => s.onCtl (·.keyAccept p sp f.payload)
    | _ => s

/-- A frame of a link-accepted LSEQ: R76, R77, then admission. -/
def State.checkFrame (s : State) (p sp : Nat) (x : RxFrame) : State :=
  let f := x.frame
  let sub := s.ctl.sub p sp
  let ep := f.src.toNat
  let gone (s : State) : State := s.onCtl (·.oweCredits p sp f.tc.toNat x.wireBytes)
  if !headerOk x || !(sub.eps.contains ep || sub.retired.contains ep) then gone (s.onCtl (·.bump (Reg.lnkCtr p sp 0x18)))
  else if !s.ctl.liveInc ep f.inc then gone (s.onCtl (fun c => (c.bump (Reg.lnkCtr p sp 0x28)).sendFenced f))
  else (s.onCtl (·.bump (Reg.lnkCtr p sp 0x00))).ingress p sp f x.wireBytes

/-- FRAME_RECEIVE: FCS, EtherType, the GCM tag, LSEQ, then the header (R75-R77, R83, R91). -/
def State.receive (s : State) (p sp : Nat) (x : RxFrame) : State :=
  let sub := s.ctl.sub p sp
  if !(sub.carries || sub.st == .align) then s
  else if !x.fcsOk then
    s.onCtl (fun c => (if sub.carries then c.sendNak p sp else c).bump (Reg.lnkCtr p sp 0x10))
  else if x.etype.toNat ≠ s.ctl.rd (Reg.cfgEtype p) then s.onCtl (·.bump (Reg.lnkCtr p sp 0x20))
  else if x.frame.kind = kLinkCtl then s.linkCtl p sp x
  else if !sub.carries then s
  else if x.encrypted ≠ sub.enc || !x.tagOk then s.onCtl (·.authFail p sp)
  else if x.trailer.lseq ≠ sub.rxLseq then
    s.onCtl (fun c => if lseqBefore x.trailer.lseq sub.rxLseq then c.putSub p sp { sub with waitSince := some (sub.waitSince.getD c.now) }
      else c.sendNak p sp)
  else
    let s := s.onCtl (fun c => (c.putSub p sp { sub with
      rxLseq := sub.rxLseq + 1, rxCount := sub.rxCount + 1, waitSince := some (sub.waitSince.getD c.now) }).takeTrailer p sp x.trailer)
    s.checkFrame p sp x

def execFrameReceive (port : Fin 128) (sub : Fin 4) (rx : RxFrame) (s : State) : Host.Outcome State Fault Refusal :=
  done (if s.ctl.mainUp then s.receive port.val sub.val rx else s)

/-! ### Held frames (R104, R106) -/

/-- Remove the first element that satisfies a test. -/
def dropFirst {α : Type} (p : α → Bool) : List α → List α
  | [] => []
  | h :: t => if p h then t else h :: dropFirst p t

/-- The oldest held frame of a class. -/
def SubPort.firstHeld (x : SubPort) (cls : Nat) : Option HeldFrame := x.held.find? (fun (h : HeldFrame) => h.cls == cls)

/-- Take the oldest held frame of a class out of the ingress buffer; its credits go back. -/
def Ctl.unhold (c : Ctl) (p s : Nat) (h : HeldFrame) : Ctl :=
  let x := c.sub p s
  let c := c.putSub p s { x with held := dropFirst (fun (y : HeldFrame) => y.cls == h.cls) x.held }
  if (match x.initAt with | some t => decide (t ≤ h.since) | none => false) then c.oweCredits p s h.cls h.wireBytes else c

/-- Cells are free: the oldest held frame of a class and sub-port is admitted. Its path is chosen anew (R90). -/
def State.retryHeld (s : State) (p sp cls : Nat) : State :=
  match (s.ctl.sub p sp).firstHeld cls with
  | none => s
  | some h =>
    match s.ctl.queueFor h.frame with
    | none => (s.onCtl (·.unhold p sp h)).enter h.frame (4 * p + sp)
    | some (q, _) => if s.ctl.wouldAdmit q h.frame then (s.onCtl (·.unhold p sp h)).enter h.frame (4 * p + sp) else s

/-- A frame that the SG7 generated is admitted. -/
def Ctl.retryInner (c : Ctl) (i : Nat) : Ctl :=
  match c.intHeld[i]? with
  | none => c
  | some (_, _, f) =>
    let rest := c.intHeld.take i ++ c.intHeld.drop (i + 1)
    match (if f.kind = kFenced then (c.backPath f.dst.toNat) else c.pathFor f.src.toNat f.dst.toNat f.tc.toNat) with
    | none => { c with intHeld := rest }
    | some k =>
      match ({ c with intHeld := rest } : Ctl).takeIn (portQueue (k / 4) f.tc.toNat) (k % 4) f with
      | some d => d
      | none => c

def execHeldFrameRetry (which : HeldSel) (s : State) : Host.Outcome State Fault Refusal :=
  done (if s.ctl.mainUp then
    (match which with
      | .ingress p sp cls => s.retryHeld p.val sp.val cls.val
      | .inner i => s.onCtl (·.retryInner i))
    else s)

/-- A held frame reaches HOLD_TIMEOUT. -/
def Ctl.holdTimeout (c : Ctl) (p s cls : Nat) : Ctl :=
  match (c.sub p s).firstHeld cls with
  | none => c
  | some h => if h.since + c.rd Reg.holdTimeout ≤ c.now then (c.unhold p s h).bump (Reg.queueBase h.queue + 0x30) else c

def execHoldTimeout (port : Fin 128) (sub : Fin 4) (cls : Fin 3) (s : State) : Host.Outcome State Fault Refusal :=
  done (s.whenMain (·.holdTimeout port.val sub.val cls.val))

/-! ### The schedulers (R108-R111) -/

/-- Whether a scheduler serves an internal port. -/
def isInner (k : Nat) : Bool := 512 ≤ k

/-- The queue and sub-list of a class of a scheduler (keys as `schedKey` gives them). -/
def schedQueue (k cls : Nat) : Nat × Nat := if isInner k then (innerQueue (k - 512) cls, 0) else (portQueue (k / 4) cls, k % 4)

/-- The head of a class. -/
def Ctl.schedHead (c : Ctl) (k cls : Nat) : Option QFrame := ((c.fq (schedQueue k cls).1).list (schedQueue k cls).2).head?

/-- Bytes of a frame as a scheduler sends it. -/
def Ctl.sentBytes (c : Ctl) (k : Nat) (f : Frame) : Nat := wireBytes f (!isInner k && (c.sub (k / 4) (k % 4)).enc)

/-- charge(f) of R109. -/
def Ctl.chargeOf (c : Ctl) (k : Nat) (f : Frame) : Nat := c.sentBytes k f + (if isInner k then 0 else c.rd (Reg.portOvh (k / 4)))

/-- Eligible under R108. -/
def Ctl.eligible (c : Ctl) (k : Nat) (f : Frame) : Bool :=
  if isInner k then true
  else
    let x := c.sub (k / 4) (k % 4)
    let n := c.sentBytes k f
    x.carries && creditsOf n ≤ natAt x.credits f.tc.toNat && (x.replay.map (fun (e : ReplayEnt) => e.bytes)).sum + n ≤ c.ownShare (k / 4)

/-- Whether the head of a class may be sent now. -/
def Ctl.headReady (c : Ctl) (k cls : Nat) : Bool := match c.schedHead k cls with | some h => c.eligible k h.frame | none => false

/-- A class whose turn is over: it leaves the active list empty-handed, or goes to its end; stopped by credits or replay share it
keeps at most 4,424 bytes. -/
def Ctl.endVisit (c : Ctl) (k cls : Nat) (stopped : Bool) : Ctl :=
  let d := c.sched k
  let rest := removeNat d.active cls
  if (c.schedHead k cls).isNone then c.putSched k { (d.setDef cls 0) with active := rest, visit := none }
  else
    let v := if stopped && !c.headReady k cls then min (d.def? cls) 4424 else d.def? cls
    c.putSched k { (d.setDef cls v) with active := rest ++ [cls], visit := none }

/-- Which class the scheduler sends next, with the deficits up to that point (fuel: class visits). -/
def Ctl.pickClass (c : Ctl) (k : Nat) : Nat → Ctl × Option Nat
  | 0 => (c, none)
  | n + 1 =>
    if c.headReady k 0 then (c, some 0)
    else
      let d := c.sched k
      match d.visit with
      | some cls =>
        match c.schedHead k cls with
        | none => (c.endVisit k cls true).pickClass k n
        | some h =>
          let z := c.chargeOf k h.frame
          if c.eligible k h.frame && z ≤ d.def? cls then (c.putSched k (d.setDef cls (d.def? cls - z)), some cls)
          else (c.endVisit k cls true).pickClass k n
      | none =>
        match d.active with
        | [] => (c, none)
        | cls :: _ =>
          if c.headReady k cls then
            (c.putSched k { (d.setDef cls (d.def? cls + c.rd (Reg.quantum (schedQueue k cls).1))) with visit := some cls }).pickClass k n
          else (c.endVisit k cls false).pickClass k n

/-- SECDED found an uncorrectable word in the frame about to be dequeued (R114). -/
def Ctl.flaskLoss (c : Ctl) (q s : Nat) (pointer : Bool) : Ctl :=
  let c := c.report (rep 0x02 0x02 0)
  if pointer then
    let n := (c.fq q).frames
    ((List.range 4).foldl (fun (d : Ctl) i => d.dropList q i true) c).bumpBy Reg.eccDiscard n
  else (c.dropHead q s).bump Reg.eccDiscard

/-- Put a frame on the wire of a sub-port: link sequence, replay buffer, credits, counters. -/
def Ctl.transmit (c : Ctl) (p s : Nat) (f : Frame) (bytes : Nat) : Ctl :=
  let x := c.sub p s
  let g := { f with enc := x.enc }
  let c := c.putSub p s { x with
    txLseq := x.txLseq + 1, txNonce := if x.enc then x.txNonce + 1 else x.txNonce,
    replay := x.replay ++ [{ lseq := x.txLseq, frame := g, bytes := bytes }],
    progressAt := if x.replay.isEmpty then c.now else x.progressAt,
    credits := setAt (eight x.credits) f.tc.toNat (natAt x.credits f.tc.toNat - creditsOf bytes) }
  let r := c.makeTrailer p s x.txLseq
  (r.2.emit (.frame p s r.1 g)).bump (Reg.lnkCtr p s 0x08)

/-- Dequeue the head of a class and send it. -/
def State.sendHead (s : State) (k cls : Nat) (h : QFrame) : State :=
  let q := (schedQueue k cls).1
  let i := (schedQueue k cls).2
  let c := (s.ctl.dequeued q (s.ctl.fq q).len h.stamp).dropHead q i
  let c := (c.bump (Reg.queueBase q + 0x10)).bumpBy (Reg.queueBase q + 0x18) (c.chargeOf k h.frame)
  if isInner k then ({ s with ctl := c }).deliver h.frame h.via
  else { s with ctl := c.transmit (k / 4) (k % 4) h.frame (c.sentBytes k h.frame) }

/-- One send of a scheduler: filtered heads go first (R110), then the next eligible frame (R109). -/
def State.egress (s : State) (k : Nat) (found : FlaskErr) : State :=
  let s := if isInner k then s else s.onCtl (·.filterPort (k / 4) (k % 4))
  if !(List.range 8).any (fun cls => s.ctl.headReady k cls) then s
  else
    let r := s.ctl.pickClass k 1000
    let s : State := { s with ctl := r.1 }
    match r.2 with
    | none => s
    | some cls =>
      match s.ctl.schedHead k cls with
      | none => s
      | some h =>
        match found with
        | .clean => s.sendHead k cls h
        | .corrected => (s.onCtl (·.report (rep 0x02 0x01 0))).sendHead k cls h
        | .cell => s.onCtl (·.flaskLoss (schedQueue k cls).1 (schedQueue k cls).2 false)
        | .pointer => s.onCtl (·.flaskLoss (schedQueue k cls).1 (schedQueue k cls).2 true)

def execEgressSend (sched : SchedSel) (found : FlaskErr) (s : State) : Host.Outcome State Fault Refusal :=
  done (if s.ctl.mainUp then
    s.egress (match sched with | .port p sp => 4 * p.val + sp.val | .inner i => 512 + i.val) found
    else s)

def execFlaskSweep (s : State) : Host.Outcome State Fault Refusal :=
  done (s.whenMain (fun c => { c.setFree (c.freeF + c.flaskLost) with flaskLost := 0 }))

/-! ### Registers (R107, R113) -/

/-- A write to FLK_QCFG (Table 4.7). -/
def Ctl.writeQcfg (c : Ctl) (q : Nat) (v : Word) : Ctl :=
  let k := field v.toNat 0 4
  let k := if k = 8 then 9 else if 4 ≤ k && k < 8 then 3 else k
  (c.wr (Reg.alphaK q) k).wr (Reg.quantum q) (clampNat 64 262144 (field v.toNat 8 19))

def execFlkQcfgWrite (queue : Fin 1152) (v : Word) (s : State) : Host.Outcome State Fault Refusal :=
  done (s.whenMain (·.writeQcfg queue.val v))

def execClear (queue : Fin 1152) (s : State) : Host.Outcome State Fault Refusal := done (s.whenMain (·.clearSamples queue.val))

def execClrMin (s : State) : Host.Outcome State Fault Refusal := done (s.whenMain (fun c => c.wr Reg.minFree c.freeF))

end Sys2Proof.Machine
end

