-- ==== Sys2Proof/Machine/Bays.lean ====
section
/-! DEFINITION. Extents, composition maps and what configures endpoints (spec/05 §5.1, §5.4-§5.9, spec/06 R176). A command
register's write while BUSY is 1 does nothing (Tables 5.15, 5.17). -/

namespace Sys2Proof.Machine

/-! ### Extents -/

/-- The staged entry (EXT_STAGE0-2), clamped under R127, and whether a clamp changed it. -/
def Ctl.stagedExt (c : Ctl) : Extent × Bool :=
  let b := c.reg (Reg.extStage 0)
  let w := (c.reg (Reg.extStage 2)).toNat
  let node := isNode b
  let prot := bitOf w 33
  let backing := bitOf w 47 && node
  let rights := if backing then 0 else field w 12 20
  let redun := if node || field w 35 2 = 3 then 0 else field w 35 2
  let hint := if node || 6 ≤ field w 37 3 then 0 else field w 37 3
  let comp := bitOf w 34 && !prot
  let e : Extent :=
    { Extent.init with
      base := b, limit := c.reg (Reg.extStage 1), bay := field w 0 12, rights := BitVec.ofNat 20 rights, fatal := bitOf w 32, prot := prot,
      comp := comp, redun := BitVec.ofNat 2 redun, hint := BitVec.ofNat 3 hint, cdom := BitVec.ofNat 6 (field w 40 6), coh := bitOf w 46,
      backing := backing }
  (e, rights != field w 12 20 || redun != field w 35 2 || hint != field w 37 3 || comp != bitOf w 34 || backing != bitOf w 47)

/-- The range conditions of R125. -/
def Extent.rangeOk (e : Extent) : Bool :=
  let last : Word := e.limit - 1
  e.base.toNat % 65536 == 0 && e.limit.toNat % 65536 == 0 && e.base.toNat < e.limit.toNat
  && isNode e.base == isNode last && !reservedBits e.base && !reservedBits last
  && (if isNode e.base then nodeOf e.base == nodeOf last && nodeOf e.base != 0xFFF else e.limit.toNat ≤ 2 ^ 52)

/-- Whether two extents may not stand together (R126). -/
def Extent.clashes (a b : Extent) : Bool :=
  isNode a.base == isNode b.base && (isNode a.base || a.bay == b.bay) && decide (a.base.toNat < b.limit.toNat) && decide (b.base.toNat < a.limit.toNat)

/-- Node-form entries held for an endpoint (R132). -/
def Ctl.nodeEntries (c : Ctl) (ep : Nat) : Nat :=
  (List.filter (fun (x : Nat × Extent) => x.2.st != .empty && isNode x.2.base && nodeOf x.2.base == ep) c.exts).length

/-- EXT_CMD_STATUS.ERR of an INSTALL (R125). -/
def Ctl.extErrOf (c : Ctl) (i : Nat) (e : Extent) : Nat :=
  if (c.ext i).st ≠ .empty then 1
  else if !e.rangeOk then 3
  else if List.any c.exts (fun (x : Nat × Extent) => x.2.st != .empty && x.2.clashes e) then 2
  else if isNode e.base && c.isTray (nodeOf e.base) && 4096 ≤ c.nodeEntries (nodeOf e.base) then 4
  else 0

/-- The bay's XTS key is drawn when it first installs a protected extent (R439). -/
def Ctl.drawKey (c : Ctl) (bay : Nat) : Ctl :=
  let b := c.bay bay
  if b.key.isSome then c else { c.putBay bay { b with key := some c.freeCtr } with freeCtr := c.freeCtr + 1 }

/-- EXT_CMD INSTALL (R125-R132). -/
def Ctl.extInstall (c : Ctl) (i : Nat) : Ctl :=
  if c.rd Reg.extBusy = 1 then c
  else
    let r := c.stagedExt
    let e := r.1
    let err := c.extErrOf i e
    let c := ((c.wr Reg.extIndex i).wr Reg.extErr err).wr Reg.extClamped (b2n r.2)
    if err = 4 then c.wr Reg.extTrayEp (nodeOf e.base)
    else if err ≠ 0 then c
    else
      let c := if e.prot then c.drawKey e.bay else c
      let ep := nodeOf e.base
      if isNode e.base && c.isTray ep && (c.ep ep).live then
        ((c.putExt i { e with st := .pending }).wr Reg.extBusy 1).sendExtSync i true
      else c.putExt i { e with st := .active }

def execExtInstall (index : Fin 65536) (s : State) : Host.Outcome State Fault Refusal := done (s.whenMain (·.extInstall index.val))

/-- EXT_CMD REVOKE (R143, R146). -/
def Ctl.extRevoke (c : Ctl) (i : Nat) : Ctl :=
  if c.rd Reg.extBusy = 1 then c
  else
    let c := c.wr Reg.extIndex i
    if (c.ext i).st ≠ .active then c.wr Reg.extErr 6 else (c.wr Reg.extErr 0).revoke i

def execExtRevoke (index : Fin 65536) (s : State) : Host.Outcome State Fault Refusal := done (s.whenMain (·.extRevoke index.val))

/-- INFLIGHT of a revoking entry has reached 0 (R144, R145). -/
def State.revokeDrained (s : State) (i : Nat) : State :=
  if (s.ctl.ext i).st = .revoking && s.ctl.inflight i = 0 then s.finishRevoke i else s

def execRevokeDrained (index : Fin 65536) (s : State) : Host.Outcome State Fault Refusal :=
  done (if s.ctl.mainUp then s.revokeDrained index.val else s)

/-- EXT_REVOKE_TIMEOUT has passed: what is not applied is aborted (R144). -/
def State.revokeTimeout (s : State) (i : Nat) : State :=
  let e := s.ctl.ext i
  if e.st = .revoking && !e.dropped && e.revAt + s.ctl.rd Reg.revokeTimeout ≤ s.ctl.now then
    ((s.onCtl (·.abortExt i)).finishRevoke i).settle
  else s

def execRevokeTimeout (index : Fin 65536) (s : State) : Host.Outcome State Fault Refusal :=
  done (if s.ctl.mainUp then s.revokeTimeout index.val else s)

/-! ### Composition maps (Table 5.10, R138) -/

/-- A parsed map image: the members, the groups, and whether its form is right. -/
structure MapImage where
  ok : Bool
  members : List Member
  groups : List (Nat × List Nat)
  deriving DecidableEq, Repr

/-- Group records from an offset of the image (fuel: NGRP). -/
def parseGroups (m : Mem) : Nat → Nat → Bool × List (Nat × List Nat)
  | 0, _ => (true, [])
  | n + 1, off =>
    let h := leNat (m.read (stageKey off) 4)
    let size := field h 8 12
    let es := (List.range size).map (fun i => leNat (m.read (stageKey (off + 4 + 2 * i)) 2))
    let r := parseGroups m n (off + (4 + 2 * size + 3) / 4 * 4)
    (h < 2 ^ 20 && size ≠ 0 && es.all (fun e => e < 0xFFF) && r.1, (field h 0 8, es) :: r.2)

/-- Parse the staged image. -/
def parseMap (m : Mem) : MapImage :=
  let n := leNat (m.read (stageKey 0) 2)
  let g := leNat (m.read (stageKey 2) 2)
  let ws := (List.range n).map (fun i => leNat (m.read (stageKey (16 + 4 * i)) 4))
  let r := parseGroups m (min g 256) (16 + 4 * n)
  { ok := 1 ≤ n && n ≤ 4095 && g ≤ 256 && leNat (m.read (stageKey 4) 12) == 0 && ws.all (fun w => w < 2 ^ 14 && w % 4096 != 0xFFF) && r.1,
    members := ws.map (fun w => { ep := w % 4096, cls := field w 12 2, dead := false }), groups := r.2 }

/-- Bays whose current map lists an endpoint, without one bay. -/
def Ctl.baysOf (c : Ctl) (ep except : Nat) : Nat :=
  (c.bays.keysWhere (fun k (b : BayRec) => k != except && (match b.cur with | some m => m.lists ep | none => false))).length

/-- CMP_STATUS.ERR of an INSTALL: R140, then R138 in its order. -/
def Ctl.cmpErrOf (c : Ctl) (bay : Nat) (x : MapImage) : Nat :=
  let b := c.bay bay
  let eps := x.members.map (fun (m : Member) => m.ep)
  if b.old.isSome then 1
  else if b.st = .shakeout then 7
  else if !x.ok then 2
  else if namedTwice eps || x.groups.any (fun g => namedTwice g.2) || namedTwice (x.groups.map (·.1)) then 3
  else if x.groups.any (fun g => g.2.any (fun e => !eps.contains e)) then 2
  else if eps.any (fun e => c.rd (Reg.epEnable e) = 0) then 4
  else if x.members.any (fun (m : Member) => c.rd (Reg.epClass m.ep) ≠ (if m.cls = 3 then 1 else 0) && c.rd (Reg.epClass m.ep) ≠ 2) then 5
  else if eps.any (fun e => 16 ≤ c.baysOf e bay) then 6
  else 0

/-- Requests of a bay that passed step 3 under its old generation and are not yet answered (R141). -/
def Ctl.oldOpens (c : Ctl) (bay : Nat) (gen : BitVec 16) : List OpenReq :=
  c.opens.filter (fun (o : OpenReq) => o.frame.bay.toNat == bay && o.frame.gen == gen
    && (match o.phase with | .heldRelease _ | .heldPeg _ => false | _ => true))

def Ctl.oldFences (c : Ctl) (bay : Nat) (gen : BitVec 16) : List FenceWait :=
  c.fences.filter (fun (w : FenceWait) => w.frame.bay.toNat == bay && w.frame.gen == gen)

/-- BAY_OLD_INFLIGHT (R141). -/
def Ctl.oldInflight (c : Ctl) (bay : Nat) : Nat :=
  match (c.bay bay).old with
  | none => 0
  | some m => (c.oldOpens bay m.gen).length + (c.oldFences bay m.gen).length

/-- An abandoned destroy of a KV region leaves the region (R141, R352). -/
def Ctl.keepRegion (c : Ctl) (o : OpenReq) : Ctl :=
  let bay := o.frame.bay.toNat
  let i := (offsetOf o.frame.addr - 0x10000) / 16
  if o.phase != Phase.kvDestroy || c.opens.any (waitsDestroy bay i) then c
  else { c with kvRegions := c.kvRegions.map (fun (r : KvRegion) => if r.bay = bay && r.index = i then { r with dying := none } else r) }

/-- Collectives whose group is not the same in the new map (R273). -/
def Ctl.remapColls (c : Ctl) (bay : Nat) (m : CMap) : Ctl :=
  (c.colls.filter (fun (k : Coll) => k.bay == bay && k.failed.isNone
    && (m.groups.find? (fun g => g.1 == k.group)).map (·.2) != some k.members)).foldl (fun (d : Ctl) k => d.failColl k stREMAP dNONE) c

/-- The old map is retired (R141, R142, R181, R273): what is not applied is answered REMAP. -/
def State.retireMap (s : State) (bay : Nat) : State :=
  let b := s.ctl.bay bay
  match b.old, b.cur with
  | some old, some cur =>
    let s := s.onCtl (fun c =>
      let mine := (c.oldOpens bay old.gen).filter (fun (o : OpenReq) => !o.forwarded)
      let c := mine.foldl (fun (d : Ctl) (o : OpenReq) => (d.failReq o.id o.frame stREMAP dNONE b.remapAddr).keepRegion o) c
      let c := (c.oldFences bay old.gen).foldl (fun (d : Ctl) (w : FenceWait) => d.endFence w stREMAP dNONE b.remapAddr) c
      let c := c.putBay bay { c.bay bay with old := none }
      ((c.remapColls bay cur).settleDoms).event evCmpRetired [bay, cur.gen.toNat, old.gen.toNat])
    s.settle
  | _, _ => s

/-- CMP_CMD INSTALL (R138-R142). A bay that becomes ACTIVE gets its request-state area (R309). -/
def State.cmpInstall (s : State) (bay : Nat) : State :=
  let c := s.ctl
  if c.rd Reg.cmpBusy = 1 then s
  else
    let x := parseMap s.mem
    let err := c.cmpErrOf bay x
    let c := (c.wr Reg.cmpBay bay).wr Reg.cmpErr err
    if err ≠ 0 then { s with ctl := c }
    else
      let b := c.bay bay
      let gen := b.gen + 1
      let m : CMap := { gen := gen, members := x.members, groups := x.groups }
      let c := c.putBay bay { b with st := .active, gen := gen, cur := some m, old := b.cur, oldAt := c.now }
      let c := (c.wr Reg.cmpGen gen.toNat).event evCmpInstalled [bay, gen.toNat, b.gen.toNat]
      let c := if b.st = .free then c.rsaExtend bay (c.rd (Reg.rsaPages bay)) else c
      let s : State := { s with ctl := c }
      if b.cur.isSome && c.oldInflight bay = 0 then s.retireMap bay else s

def execCmpInstall (bay : Fin 4096) (s : State) : Host.Outcome State Fault Refusal :=
  done (if s.ctl.mainUp then s.cmpInstall bay.val else s)

def execOldMapRetire (bay : Fin 4096) (s : State) : Host.Outcome State Fault Refusal :=
  done (if s.ctl.mainUp && s.ctl.oldInflight bay.val == 0 then s.retireMap bay.val else s)

def execCmpGraceExpiry (bay : Fin 4096) (s : State) : Host.Outcome State Fault Refusal :=
  done (if s.ctl.mainUp && decide ((s.ctl.bay bay.val).oldAt + s.ctl.rd Reg.cmpGrace ≤ s.ctl.now) then s.retireMap bay.val else s)

/-- CMP_CMD RETIRE_NOW. -/
def State.retireCmd (s : State) (bay : Nat) : State :=
  if s.ctl.rd Reg.cmpBusy = 1 then s
  else
    let err := if (s.ctl.bay bay).old.isNone then 8 else 0
    (s.onCtl (fun c => (c.wr Reg.cmpBay bay).wr Reg.cmpErr err)).retireMap bay

def execRetireNow (bay : Fin 4096) (s : State) : Host.Outcome State Fault Refusal :=
  done (if s.ctl.mainUp then s.retireCmd bay.val else s)

/-! ### Endpoint configuration, counter windows -/

/-- A write to BAY_EP_CFG (Table 5.13): ENABLE = 0 retires the live incarnation. -/
def State.writeEpCfg (s : State) (ep : Nat) (v : Word) : State :=
  let x := v.toNat
  let cls := if field x 1 2 = 3 then 0 else field x 1 2
  let s := s.onCtl (fun c => (c.wr (Reg.epEnable ep) (field x 0 1)).wr (Reg.epClass ep) cls)
  if bitOf x 0 then s else s.retireNow ep 3

def execBayEpCfgWrite (ep : Fin 4095) (v : Word) (s : State) : Host.Outcome State Fault Refusal :=
  done (if s.ctl.mainUp then s.writeEpCfg ep.val v else s)

/-- A write to MEM_CTR_WIN (Table 6.11, R176). -/
def Ctl.writeCtrWin (c : Ctl) (b : Nat) (v : Word) : Ctl :=
  let first := field v.toNat 0 20
  let count := min (field v.toNat 32 21) (1048576 - first)
  let same := first = c.rd (Reg.winFirst b) && count = c.rd (Reg.winCount b)
  let overlap := (List.range 4096).any (fun o =>
    let f := c.rd (Reg.winFirst o)
    o != b && decide (first < f + c.rd (Reg.winCount o)) && decide (f < first + count))
  if ((c.bay b).st ≠ .free && !same) || (0 < count && overlap) then c.refuse Reg.ctrRefused
  else (c.wr (Reg.winFirst b) first).wr (Reg.winCount b) count

def execMemCtrWinWrite (bay : Fin 4096) (v : Word) (s : State) : Host.Outcome State Fault Refusal :=
  done (s.whenMain (·.writeCtrWin bay.val v))

end Sys2Proof.Machine
end

