-- ==== Sys2Proof/Machine/Pattern.lean ====
section
/-! DEFINITION. The Pattern format (spec/15 §15.7, §15.8): expanding a block, packing a block. Elements are codes of a
DTYPE; bits of a stream are read from bit 0 of its first byte upward. -/

namespace Sys2Proof.Machine

/-- Element width in bits of a Pattern DTYPE (1 BF16, 2 FP16, 3 and 4 FP8). -/
def patWidth (dt : Nat) : Nat := if dt ≤ 2 then 16 else 8

/-- Bytes of a RAW block (R388). -/
def rawBlen (dt : Nat) : Nat := 64 + 16384 * patWidth dt / 8

/-! ### Prediction (R389) -/

/-- An exact dot product of FP32 codes added to an FP32 code, rounded once. -/
def fmaDot (acc : Nat) (xs ys : List Nat) : Nat :=
  ((xs.zip ys).foldl (fun (a : Acc) e => a.add (-298) ((Fmt.fp32.decode e.1).mul (Fmt.fp32.decode e.2)) false)
    (Acc.clear.add (-298) (Fmt.fp32.decode acc) false)).read (-298) .fp32 .even 1

/-- An exact dot product rounded once to FP32. -/
def dot32 (xs ys : List Nat) : Nat :=
  ((xs.zip ys).foldl (fun (a : Acc) e => a.add (-298) ((Fmt.fp32.decode e.1).mul (Fmt.fp32.decode e.2)) false) Acc.clear).read
    (-298) .fp32 .even 1

/-- BF16 as FP32: exact. -/
def bfTo32 (x : Nat) : Nat := x * 65536

/-- Prediction of one element from row i of U and column j of V, as FP32 codes, four at a time. -/
def predict (dt : Nat) (u v : List Nat) : Nat :=
  let acc := ((chunksOf 4 (u.length + 1) u).zip (chunksOf 4 (v.length + 1) v)).foldl (fun a g => fmaDot a g.1 g.2) 0
  (dtFmt dt).encode .even (Fmt.fp32.decode acc)

/-- The predictions of a block in row-major order: U is 128 × r, V is r × 128, BF16 codes. -/
def predictions (dt r : Nat) (u v : List Nat) : List Nat :=
  let us := (chunksOf r (u.length + 1) u).map (fun row => row.map bfTo32)
  let vs := chunksOf 128 (v.length + 1) v
  let cols := (List.range 128).map (fun j => vs.map (fun row => bfTo32 (natAt row j)))
  us.flatMap (fun row => cols.map (fun col => predict dt row col))

/-! ### Residuals (R390) -/

/-- The order-preserving key of an element. -/
def patKey (w e : Nat) : Nat := if bitOf e (w - 1) then Nat.xor e (2 ^ w - 1) else Nat.xor e (2 ^ (w - 1))

/-- The element of a key. -/
def patUnkey (w k : Nat) : Nat := if bitOf k (w - 1) then Nat.xor k (2 ^ (w - 1)) else Nat.xor k (2 ^ w - 1)

/-- z of a difference. -/
def zigzag (d : Int) : Nat := if 0 ≤ d then 2 * d.toNat else 2 * (-d).toNat - 1

/-- d of z. -/
def unzigzag (z : Nat) : Int := if z % 2 = 0 then (z / 2 : Nat) else -(((z + 1) / 2 : Nat) : Int)

/-- The adaptive parameter after an element. -/
def nextK (s : Nat) : Nat := ((List.range 15).filter (fun k => decide (2 ^ (k + 5) ≤ s))).length

/-- The n low bits of a number, least significant first. -/
def bitsOf : Nat → Nat → List Bool
  | 0, _ => []
  | n + 1, v => (v % 2 = 1) :: bitsOf n (v / 2)

/-- The number of a list of bits, least significant first. -/
def numOf : List Bool → Nat
  | [] => 0
  | b :: t => b2n b + 2 * numOf t

/-- Encode the residuals of a stripe from (k, S). -/
def putResiduals (w : Nat) : List Nat → Nat → Nat → List Bool
  | [], _, _ => []
  | z :: t, k, s =>
    let q := z / 2 ^ k
    let bits := if q < 24 then List.replicate q true ++ [false] ++ bitsOf k z else List.replicate 24 true ++ bitsOf (w + 1) z
    let s' := s + z - s / 16
    bits ++ putResiduals w t (nextK s') s'

/-- The stream of a stripe for a starting k0. -/
def stripeBits (w k0 : Nat) (zs : List Nat) : List Bool := bitsOf 4 k0 ++ putResiduals w zs k0 (2 ^ (k0 + 4))

/-- The shortest stream of a stripe, the lowest k0 on a tie (R392). -/
def bestStripe (w : Nat) (zs : List Nat) : List Bool :=
  (List.range 16).tail.foldl (fun b k0 => let s := stripeBits w k0 zs; if s.length < b.length then s else b) (stripeBits w 0 zs)

/-- Bytes of bits, the last byte filled with zeros. -/
def bytesOfBits (l : List Bool) : List Byte := (chunksOf 8 (l.length + 1) l).map (fun b => BitVec.ofNat 8 (numOf b))

/-- Count leading ones, at most n. -/
def onesOf : Nat → List Bool → Nat
  | 0, _ => 0
  | n + 1, true :: t => onesOf n t + 1
  | _ + 1, _ => 0

/-- Decode n residuals from (k, S): the values and the bits left, or none where the stream ends early. -/
def takeResiduals (w : Nat) : Nat → Nat → Nat → List Bool → Option (List Nat × List Bool)
  | 0, _, _, l => some ([], l)
  | n + 1, k, s, l =>
    let q := onesOf 24 l
    let rest := if q < 24 then l.drop (q + 1) else l.drop 24
    let m := if q < 24 then k else w + 1
    if l.length < (if q < 24 then q + 1 else 24) + m then none
    else
      let z := if q < 24 then q * 2 ^ k + numOf (rest.take k) else numOf (rest.take (w + 1))
      let s' := s + z - s / 16
      (takeResiduals w n (nextK s') s' (rest.drop m)).map (fun r => (z :: r.1, r.2))

/-- Decode one stripe of 2,048 elements from exactly its bytes (R391): the unused bits of the last byte are zero. -/
def takeStripe (w : Nat) (b : List Byte) : Option (List Nat) :=
  let l := b.flatMap (fun x => bitsOf 8 x.toNat)
  if l.length < 4 then none
  else
    let k0 := numOf (l.take 4)
    match takeResiduals w 2048 k0 (2 ^ (k0 + 4)) (l.drop 4) with
    | none => none
    | some (zs, rest) => if rest.length < 8 && rest.all (fun x => !x) then some zs else none

/-- Consecutive runs of the given lengths. -/
def runsOf : List Nat → List Byte → List (List Byte)
  | [], _ => []
  | n :: t, b => b.take n :: runsOf t (b.drop n)

/-- Expand a block (R388-R391): its 16,384 elements in row-major order; none where it is malformed. -/
def expandBlock (dt : Nat) (b : List Byte) : Option (List Nat) :=
  let w := patWidth dt
  let form := leAt b 0 1
  let r := leAt b 2 1
  let blen := leAt b 4 4
  let slen := (List.range 8).map (fun i => leAt b (8 + 4 * i) 4)
  let clean := leAt b 3 1 == 0 && leAt b 40 24 == 0
  if b.length < blen || b.length < 64 || leAt b 1 1 ≠ dt || !clean then none
  else if form = 0 then
    if r ≠ 0 || slen.any (· != 0) || blen ≠ rawBlen dt then none
    else some ((chunksOf (w / 8) (16385) ((b.drop 64).take (16384 * w / 8))).map leNat)
  else if form ≠ 1 || r < 4 || 64 < r || r % 4 ≠ 0 then none
  else
    let used := 64 + 512 * r + slen.sum
    if blen ≠ (used + 63) / 64 * 64 || ((b.take blen).drop used).any (· != 0) then none
    else
      let two (off n : Nat) : List Nat := (chunksOf 2 (n + 1) (slice b off (2 * n))).map leNat
      let p := predictions dt r (two 64 (128 * r)) (two (64 + 256 * r) (128 * r))
      let stripes := (runsOf slen (b.drop (64 + 512 * r))).map (takeStripe w)
      if stripes.any (·.isNone) then none
      else
        let keys := (p.zip (stripes.filterMap id).flatten).map (fun e => (patKey w e.1 : Int) + unzigzag e.2)
        if keys.any (fun k => k < 0 || (2 ^ w : Nat) ≤ k) then none
        else some (keys.map (fun k => patUnkey w k.toNat))

/-! ### Packing (R392) -/

abbrev Matrix := List (List Nat)

/-- Columns of a matrix of n columns. -/
def Matrix.cols (m : Matrix) (n : Nat) : Matrix := (List.range n).map (fun j => m.map (fun r => natAt r j))

/-- The product of rows and columns, each entry an exact dot product rounded once to FP32. -/
def Matrix.times (rows cols : Matrix) : Matrix := rows.map (fun r => cols.map (fun c => dot32 r c))

/-- X of R392: an element as FP32, NaN as 0, an infinity as the largest finite of the DTYPE. -/
def packInput (dt e : Nat) : Nat :=
  let f := dtFmt dt
  match f.decode e with
  | .nan => 0
  | .inf n => Fmt.fp32.encode .even (f.decode (f.sign n + f.maxCode))
  | .fin n m g => Fmt.fp32.encode .even (.fin n m g)

/-- round32(y[i] − a × q[i]) (R392). -/
def subScaled (y q : List Nat) (a : Nat) : List Nat :=
  (y.zip q).map (fun e =>
    Fmt.fp32.encode .even ((Fmt.fp32.decode e.1).add ((Fmt.fp32.decode a).mul (Fmt.fp32.decode e.2)).negate))

/-- gs of R392 on columns: each column made orthogonal to the ones before it and scaled. -/
def gramSchmidt (cols : Matrix) : Matrix :=
  cols.foldl (fun qs y0 =>
    let y := qs.foldl (fun y q => subScaled y q (dot32 q y)) y0
    let n := dot32 y y
    let f := rsqFn n
    qs ++ [if n = 0 then y.map (fun _ => 0) else y.map (fun v => fp32Mul v f)]) []

/-- The factors for a rank: U as 128 rows of r BF16 codes, V as r rows of 128. -/
def factors (x : Matrix) (r : Nat) : Matrix × Matrix :=
  let one := 0x3F800000
  let g0 : Matrix := (List.range r).map (fun c => (List.range 128).map (fun i => if popCount 8 (Nat.land i c) % 2 = 0 then one else one + 2 ^ 31))
  let xt := x.cols 128
  -- matrices Q and G are kept as their columns
  let step (g : Matrix) : Matrix × Matrix :=
    let q := gramSchmidt ((x.times g).cols r)
    (q, (xt.times q).cols r)
  let (q, g) := step (step g0).2
  let bf (v : Nat) : Nat := Fmt.bf16.encode .even (Fmt.fp32.decode v)
  (((List.range 128).map (fun i => q.map (fun c => bf (natAt c i)))), g.map (fun c => c.map bf))

/-- A block's candidate of a rank: its bytes. -/
def candidate (dt : Nat) (elems : List Nat) (r : Nat) : List Byte :=
  let w := patWidth dt
  let x := chunksOf 128 (elems.length + 1) (elems.map (packInput dt))
  let (u, v) := factors x r
  let p := predictions dt r u.flatten v.flatten
  let zs := (elems.zip p).map (fun e => zigzag ((patKey w e.1 : Int) - patKey w e.2))
  let stripes := (chunksOf 2048 (zs.length + 1) zs).map (fun s => bytesOfBits (bestStripe w s))
  let used := 64 + 512 * r + (stripes.map (·.length)).sum
  let blen := (used + 63) / 64 * 64
  leBytes 1 1 ++ leBytes 1 dt ++ leBytes 1 r ++ [0] ++ leBytes 4 blen ++ stripes.flatMap (fun s => leBytes 4 s.length) ++ zeros 24
    ++ u.flatten.flatMap (leBytes 2) ++ v.flatten.flatMap (leBytes 2) ++ stripes.flatten ++ zeros (blen - used)

/-- A RAW block. -/
def rawBlock (dt : Nat) (elems : List Nat) : List Byte :=
  leBytes 1 0 ++ leBytes 1 dt ++ [0, 0] ++ leBytes 4 (rawBlen dt) ++ zeros 56 ++ elems.flatMap (leBytes (patWidth dt / 8))

/-- Pack a block: the smallest candidate if it is smaller than RAW, the lowest rank on a tie (R392); RAW only when told. -/
def packBlock (dt rmax : Nat) (rawOnly : Bool) (elems : List Nat) : List Byte :=
  let raw := rawBlock dt elems
  if rawOnly then raw
  else ((List.range (rmax / 4)).map (fun i => 4 * (i + 1))).foldl (fun best r =>
    let c := candidate dt elems r
    if c.length < best.length then c else best) raw

/-- The stream header and offset table of a Pattern stream (Table 15.7), the table sized for n blocks. -/
def streamHeader (dt nblk n : Nat) (offs : List Nat) : List Byte :=
  let table := offs.flatMap (fun o => leBytes 4 o) ++ zeros (4 * (n - offs.length))
  leBytes 4 nblk ++ leBytes 1 dt ++ zeros 59 ++ table ++ zeros ((64 - table.length % 64) % 64)

end Sys2Proof.Machine
end

