-- ==== Sys2Proof/Machine/TileWord.lean ====
section
/-! DEFINITION. Tile instruction words (spec/15 Tables 15.5, 15.6): operations, decoding, encoding. -/

namespace Sys2Proof.Machine

/-- The operations of Table 15.6; `reserved` is any class or operation that the table does not list. -/
inductive TileOp where
  | add | sub | mul | and | or | xor | shl | shr | sar | slt | sltu | min | max
  | jmp | beq | bne | blt | bge | jr | call | getsys
  | ld | st
  | vadd | vsub | vmul | vfma | vmax | vmin | vexp2 | vlog2 | vrcp | vrsq | vcmplt | vsel | vcvt | vrsum | viadd | vbcast
  | vld | vst | vlds | vsts
  | mzero | mloadw | mma | mstore
  | psel | ptile
  | send | recv
  | get | put | xwait | xfence | xsignal
  | halt | bar | sleep | nop
  | reserved
  deriving DecidableEq, Repr

/-- The SALU operations in order of OP. -/
def tileSalu : List TileOp := [.add, .sub, .mul, .and, .or, .xor, .shl, .shr, .sar, .slt, .sltu, .min, .max]

/-- The operations of a class in order of OP. -/
def tileClass : Nat → List TileOp
  | 0 => tileSalu
  | 1 => [.jmp, .beq, .bne, .blt, .bge, .jr, .call, .getsys]
  | 2 => [.ld, .st]
  | 3 => [.vadd, .vsub, .vmul, .vfma, .vmax, .vmin, .vexp2, .vlog2, .vrcp, .vrsq, .vcmplt, .vsel, .vcvt, .vrsum, .viadd, .vbcast]
  | 4 => [.vld, .vst, .vlds, .vsts]
  | 5 => [.mzero, .mloadw, .mma, .mstore]
  | 6 => [.psel, .ptile]
  | 7 => [.send, .recv]
  | 8 => [.get, .put, .xwait, .xfence, .xsignal]
  | 9 => [.halt, .bar, .sleep, .nop]
  | _ => []

/-- Whether an operation is of class SALU, whose OP + 0x80 takes IMM in place of sB. -/
def TileOp.isSalu (o : TileOp) : Bool := tileSalu.contains o

/-- Class and OP of a listed operation. -/
def TileOp.code : TileOp → Nat × Nat
  | .add => (0, 0) | .sub => (0, 1) | .mul => (0, 2) | .and => (0, 3) | .or => (0, 4) | .xor => (0, 5) | .shl => (0, 6)
  | .shr => (0, 7) | .sar => (0, 8) | .slt => (0, 9) | .sltu => (0, 10) | .min => (0, 11) | .max => (0, 12)
  | .jmp => (1, 0) | .beq => (1, 1) | .bne => (1, 2) | .blt => (1, 3) | .bge => (1, 4) | .jr => (1, 5) | .call => (1, 6)
  | .getsys => (1, 7)
  | .ld => (2, 0) | .st => (2, 1)
  | .vadd => (3, 0) | .vsub => (3, 1) | .vmul => (3, 2) | .vfma => (3, 3) | .vmax => (3, 4) | .vmin => (3, 5)
  | .vexp2 => (3, 6) | .vlog2 => (3, 7) | .vrcp => (3, 8) | .vrsq => (3, 9) | .vcmplt => (3, 10) | .vsel => (3, 11)
  | .vcvt => (3, 12) | .vrsum => (3, 13) | .viadd => (3, 14) | .vbcast => (3, 15)
  | .vld => (4, 0) | .vst => (4, 1) | .vlds => (4, 2) | .vsts => (4, 3)
  | .mzero => (5, 0) | .mloadw => (5, 1) | .mma => (5, 2) | .mstore => (5, 3)
  | .psel => (6, 0) | .ptile => (6, 1)
  | .send => (7, 0) | .recv => (7, 1)
  | .get => (8, 0) | .put => (8, 1) | .xwait => (8, 2) | .xfence => (8, 3) | .xsignal => (8, 4)
  | .halt => (9, 0) | .bar => (9, 1) | .sleep => (9, 2) | .nop => (9, 3)
  | .reserved => (15, 0)

/-- Decode a word (Table 15.5): the operation and the operand fields. -/
def decodeTile (x : BitVec 64) : TileOp × TileFields :=
  let cls := x.extractLsb' 60 4
  let op := x.extractLsb' 52 8
  let salu := cls == 0#4 && op.msb
  let o := ((tileClass cls.toNat)[(if salu then op.toNat - 0x80 else op.toNat)]?).getD .reserved
  (o, { d := x.extractLsb' 46 6, a := x.extractLsb' 40 6, b := x.extractLsb' 34 6, sz := x.extractLsb' 32 2,
        useImm := salu && o != .reserved, imm := x.extractLsb' 0 32 })

/-- The word of an operation with its operand fields. -/
def encodeTile (o : TileOp) (w : TileFields) : BitVec 64 :=
  BitVec.ofNat 4 o.code.1 ++ BitVec.ofNat 8 (o.code.2 + (if w.useImm then 0x80 else 0)) ++ w.d ++ w.a ++ w.b ++ w.sz ++ w.imm

/-- Operand fields that a word of an operation can carry. -/
def TileFields.fits (w : TileFields) (o : TileOp) : Bool := o != .reserved && (!w.useImm || o.isSalu)

end Sys2Proof.Machine
end

