-- ==== Sys2Proof/Machine/TileOps.lean ====
section
/-! DEFINITION. Tiles and placements: the logical grid (R370), binding and unbinding (R372-R374), stopping a LAUNCH (R371,
R385), registers, scratchpad, and running one instruction of a tile (R378). -/

namespace Sys2Proof.Machine

/-! ### The grid -/

/-- The physical tile (136 × die + p) that stands for an ABSENT logical tile. -/
def absentTile : Nat := 999

/-- The physical tile behind logical tile 128 × die + l (R370). -/
def Ctl.physOf (c : Ctl) (l : Nat) : Nat := c.tileMap.get l (136 * (l / 128) + l % 128)
def Ctl.putPhys (c : Ctl) (l p : Nat) : Ctl := { c with tileMap := c.tileMap.set l (136 * (l / 128) + l % 128) p }

def Ctl.tileIn (c : Ctl) (t : Nat) : Bool := t < 272 && (c.unit .tile t).st == .inService

/-- The logical tiles assigned to a bay. -/
def Ctl.bayTiles (c : Ctl) (bay : Nat) : List Nat :=
  (List.range 256).filter (fun l => c.rd (Reg.trsAssigned l) == 1 && c.rd (Reg.trsOwner l) == bay && c.physOf l != absentTile)

/-- Placements that hold a logical tile. -/
def Ctl.holders (c : Ctl) (l : Nat) : List Place := c.places.filter (fun (p : Place) => p.logical.contains l)

/-- A tile under a bay's test reads CLEARING (R428). -/
def Ctl.underTest (c : Ctl) (l : Nat) : Bool := c.bayTests.any (fun x => x.2.1 == l)

def Ctl.isClearing (c : Ctl) (l : Nat) : Bool := c.clearing.any (fun (x : Clearing) => x.tile == l) || c.underTest l

/-- Columns with a mapped tile out of service: the lowest logical row that the failure reaches, for logical tile l's column
(R371). -/
def Ctl.failedRow (c : Ctl) (die col : Nat) : Option Nat :=
  (List.range 16).find? (fun y =>
    let p := c.physOf (128 * die + 8 * y + col)
    p != absentTile && !c.tileIn p)

/-- A logical tile at or above the failed row of its column. -/
def Ctl.awaitsRemap (c : Ctl) (l : Nat) : Bool :=
  match c.failedRow (l / 128) (l % 8) with
  | some y => y ≤ l % 128 / 8
  | none => false

/-- Unbind a placement (R374): mailboxes bound to it lose their binding. -/
def Ctl.unbind (c : Ctl) (p : Place) : Ctl :=
  { c with places := c.places.filter (fun (x : Place) => !(x.bay == p.bay && x.handle == p.handle)) }.unbindPlace p.bay p.handle

/-- Clear a physical tile (R372). -/
def State.clearTile (s : State) (t : Nat) : State :=
  { s with ctl := s.ctl.putTile t Tile.init, mem := s.mem.clear (scratchKey t 0) (2 ^ 21) }

/-! ### The LAUNCH of a placement -/

/-- Set a flag of the LAUNCH that runs a placement. -/
def Ctl.launchFlag (c : Ctl) (p : Place) (b : Nat) : Ctl :=
  match p.launch with
  | some (q, n) => (match c.instOf q n with
    | some x => c.putInst q { x with flags := Nat.lor x.flags b }
    | none => c)
  | none => c

/-- Every tile of a placement stops and its LAUNCH ends (R282, R371, R385). -/
def Ctl.stopPlace (c : Ctl) (p : Place) (status detail : Byte) : Ctl :=
  match p.launch with
  | none => c
  | some (q, n) =>
    let c := (c.endInst q n status detail).putPlace { p with launch := none }
    let c := p.tiles.foldl (fun d t => d.putTile t { d.tile t with run := false, tags := [], atBar := false, asleep := false }) c
    c.bump (Reg.trsCtr 1)

/-- An access of a tile fails (R385): ACCESS takes detail KERNEL_ACCESS, RETRY waits. -/
def Ctl.kernelFault (c : Ctl) (p : Place) (status detail : Byte) : Ctl :=
  if status = stRETRY then c
  else (c.stopPlace p status (if status = stACCESS then 0x39 else detail)).bump (Reg.trsCtr 2)

/-- The running placement of a physical tile. -/
def Ctl.runner? (c : Ctl) (t : Nat) : Option Place := c.places.find? (fun (p : Place) => p.launch.isSome && p.tiles.contains t)

/-- Whose instructions a placement's tiles execute: the bay and the LAUNCH queue's owner (R384). -/
def Ctl.launchCtx (c : Ctl) (p : Place) : Nat × Nat :=
  match p.launch with
  | some (q, _) => (p.bay, c.rd (Reg.queOwner q))
  | none => (p.bay, 0xFFF)

/-! ### Registers of a tile -/

/-- Scalar register n; s0 reads 0 (Table 15.1). -/
def Tile.sreg (x : Tile) (n : Nat) : Word := if n = 0 then 0 else x.s.get n 0
/-- Write a scalar register; writes to s0 are ignored. -/
def Tile.setS (x : Tile) (n : Nat) (v : Word) : Tile := if n = 0 then x else { x with s := x.s.set n 0 v }

def Tile.lane (x : Tile) (r l : Nat) : BitVec 32 := x.v.get (64 * r + l) 0
def Tile.vreg (x : Tile) (r : Nat) : List (BitVec 32) := (List.range 64).map (x.lane r)
/-- Write a vector register. -/
def Tile.setV (x : Tile) (r : Nat) (v : List (BitVec 32)) : Tile :=
  { x with v := (v.take 64).zipIdx.foldl (fun (t : Tab (BitVec 32)) e => t.set (64 * r + e.2) 0 e.1) x.v }

def Tile.accAt (x : Tile) (a i j : Nat) : BitVec 32 := x.acc.get (1024 * a + 32 * i + j) 0
def Tile.setAcc (x : Tile) (a : Nat) (v : List (BitVec 32)) : Tile :=
  { x with acc := v.zipIdx.foldl (fun (t : Tab (BitVec 32)) e => t.set (1024 * a + e.2) 0 e.1) x.acc }

/-- A vector register field: bit 5 is cleared (R378). -/
def vfield (n : BitVec 6) : Nat := n.toNat % 32
/-- An accumulator field (R378; four accumulators). -/
def afield (n : BitVec 6) : Nat := n.toNat % 4

/-- The 256 bytes of a vector register. -/
def Tile.vbytes (x : Tile) (r : Nat) : List Byte := (x.vreg r).flatMap (fun w => leBytes 4 w.toNat)
/-- Lanes of bytes. -/
def laneWords (b : List Byte) : List (BitVec 32) := (chunksOf 4 (b.length + 1) b).map (fun e => BitVec.ofNat 32 (leNat e))

/-! ### Scratchpad -/

/-- n bytes from an offset, each taken modulo 2 MiB. -/
def State.padRead (s : State) (t off n : Nat) : List Byte :=
  (List.range n).map (fun i => s.mem.byte (scratchKey t ((off + i) % 2 ^ 21)))

/-- Write bytes from an offset; bytes in instruction memory are discarded (R378). -/
def State.padWrite (s : State) (t imem off : Nat) (data : List Byte) : State :=
  { s with mem := data.zipIdx.foldl (fun (m : Mem) e =>
      let a := (off + e.2) % 2 ^ 21
      if a < imem then m else m.setByte (scratchKey t a) e.1) s.mem }

/-- Whether a write of n bytes from an offset reaches instruction memory. -/
def padDiscards (imem off n : Nat) : Bool := (List.range n).any (fun i => (off + i) % 2 ^ 21 < imem)

/-- A scratchpad address made legal: modulo 2 MiB, rounded down to the access size (R378). -/
def padAddr (a : Word) (align : Nat) : Nat := a.toNat % 2 ^ 21 / align * align

/-! ### Running one instruction -/

/-- The instruction at a tile's PC: the word in instruction memory (little-endian). -/
def State.tileWord (s : State) (t : Nat) (p : Place) : BitVec 64 :=
  BitVec.ofNat 64 (leNat (s.padRead t ((s.ctl.tile t).pc % p.imem / 8 * 8) 8))

/-- The placement of a tile that runs and whose instruction at PC is this operation with these fields. -/
def State.tileAt (s : State) (t : Nat) (ops : List TileOp) (w : TileFields) : Option Place :=
  match s.ctl.runner? t with
  | none => none
  | some p =>
    let x := decodeTile (s.tileWord t p)
    if s.ctl.mainUp && (s.ctl.tile t).run && s.ctl.tileIn t && !(s.ctl.bay p.bay).halted && ops.contains x.1 && x.2 == w then some p else none

/-- Run an instruction of a tile: nothing happens unless it stands at the tile's PC. -/
def State.tileRun (s : State) (t : Nat) (op : TileOp) (w : TileFields) (f : State → Tile → Place → State) : State :=
  match s.tileAt t [op] w with
  | some p => f s (s.ctl.tile t) p
  | none => s

/-- Store a tile, gone on to its next instruction. -/
def State.goOn (s : State) (t : Nat) (x : Tile) : State := s.onCtl (·.putTile t x.next)

/-- Set CLAMPED on the LAUNCH where an illegal value was replaced (R378). -/
def State.clampIf (s : State) (p : Place) (b : Bool) : State := if b then s.onCtl (·.launchFlag p crCLAMPED) else s

/-- Set NAN_IN on the LAUNCH where an input was NaN (Table 9.4). -/
def State.nanIf (s : State) (p : Place) (b : Bool) : State := if b then s.onCtl (·.launchFlag p crNANIN) else s

/-- Register fields beyond the vector file. -/
def vbad (l : List (BitVec 6)) : Bool := l.any (fun n => n.toNat ≥ 32)

/-- IMM as a sign-extended offset. -/
def immOff (w : TileFields) : Word := w.imm.signExtend 64
/-- IMM[27:0] as a sign-extended offset, where bits 31:28 name a type. -/
def immOffTyped (w : TileFields) : Word := (w.imm.setWidth 28).signExtend 64

/-- The type code of a matrix or Pattern instruction; one outside its list takes 1, BF16 (R378, Table 10.3). -/
def tileTypeOf (w : TileFields) (top : Nat) : Nat :=
  let t := Config.tileType w.sz (w.imm.extractLsb' 28 4)
  if 1 ≤ t && t ≤ top then t else 1
def tileTypeBad (w : TileFields) (top : Nat) : Bool :=
  let t := Config.tileType w.sz (w.imm.extractLsb' 28 4)
  !(1 ≤ t && t ≤ top)

end Sys2Proof.Machine
end

