-- ==== Sys2Proof/Machine/MbxRows.lean ====
section
/-! DEFINITION. The commands of mailboxes (spec/16 §16.6, spec/17 R437): bindings and acknowledgements by a tile, the
services of Jorren (Table 16.4), the timeout. -/

namespace Sys2Proof.Machine

/-- BIND: a tile of a running placement of the bay binds the mailbox of its LAUNCH queue's owner (R384, R415). -/
def execBind (tile : Fin 272) (bay : Fin 4096) (s : State) : Host.Outcome State Fault Refusal :=
  done (s.whenMain (fun c =>
    match c.runner? tile.val with
    | some p => if p.bay = bay.val && (c.tile tile.val).run then c.bindMbx (c.launchCtx p).2 p.bay p.handle else c
    | none => c))

def execUnbind (tile : Fin 272) (s : State) : Host.Outcome State Fault Refusal :=
  done (s.whenMain (fun c =>
    match c.runner? tile.val with
    | some p => if (c.tile tile.val).run then c.unbindMbx (c.launchCtx p).2 else c
    | none => c))

/-- A post of an endpoint waits for Jorren, whose cores run (R415, R419). -/
def Ctl.jorrenPost (c : Ctl) (ep : Nat) : Bool :=
  c.mainUp && (c.mbx ep).go && (c.mbx ep).receiver.isNone && c.rd Reg.coresUp != 0

/-- ACKW by a tile reaches the mailbox of its LAUNCH queue's owner only (R384). -/
def execAckw (who : Acker) (code : BitVec 16) (s : State) : Host.Outcome State Fault Refusal :=
  done (s.whenMain (fun c =>
    match who with
    | .jorren ep => if c.jorrenPost ep.val then c.ackPost ep.val code
        else if (c.mbx ep.val).go then c else c.bump (Reg.mbxCtr 3)
    | .tile t ep =>
      match c.runner? t.val with
      | some p => if (c.launchCtx p).2 = ep.toNat && (c.tile t.val).run then c.tileAck ep.toNat p.bay p.handle code else c
      | none => c))

/-- MAILBOX_TIMEOUT (R418). -/
def execMailboxTimeout (ep : Fin 4095) (s : State) : Host.Outcome State Fault Refusal :=
  done (s.whenMain (fun c =>
    let m := c.mbx ep.val
    if m.go && m.since + c.rd Reg.mbxAckTimeout ≤ c.now then (c.ackPost ep.val 0xFFFF).bump (Reg.mbxCtr 1) else c))

/-- Message word i of a mailbox. -/
def Mbx.word (m : Mbx) (i : Nat) : Nat := (m.msg.getD i 0).toNat

/-- The service code and the subcode of a post. -/
def Mbx.service (m : Mbx) : Nat := field (m.word 0) 0 8
def Mbx.subcode (m : Mbx) : Nat := field (m.word 0) 8 8

/-- Services that Table 16.4 lists. -/
def mbxService (k : Nat) : Bool := k = 0x01 || k = 0x02 || k = 0x10

/-- Serve a pending post of one of Jorren's services. -/
def Ctl.serveMbx (c : Ctl) (ep : Nat) (svc : Nat → Bool) (f : Ctl → Ctl) : Ctl :=
  if c.jorrenPost ep && svc (c.mbx ep).service then f c else c

def execEcho (ep : Fin 4095) (s : State) : Host.Outcome State Fault Refusal :=
  done (s.onCtl (fun c => c.serveMbx ep.val (· == 0x01) (fun c => c.ackPost ep.val 0)))

/-- Words 1 to 4 of IDENTIFY: GLB_ID, GLB_NUMREV, the security version of the running image (R419). -/
def Ctl.runningSvn (c : Ctl) : Nat := c.rd Reg.secSvnImage

def execIdentify (ep : Fin 4095) (s : State) : Host.Outcome State Fault Refusal :=
  done (s.onCtl (fun c => c.serveMbx ep.val (· == 0x02) (fun c =>
    let m := c.mbx ep.val
    let body := leBytes 8 (c.reg 0x00).toNat ++ leBytes 4 (c.reg 0x10).toNat ++ leBytes 4 c.runningSvn
    (c.putMbx ep.val (m.setBytes 4 body)).ackPost ep.val 0)))

def execUnknown (ep : Fin 4095) (s : State) : Host.Outcome State Fault Refusal :=
  done (s.onCtl (fun c => c.serveMbx ep.val (fun k => !mbxService k) (fun c => c.ackPost ep.val 1)))

/-- One SPDM fragment (R437): a request fragment in order, run when its last byte has come; or a read of the response. -/
def Ctl.spdmPost (c : Ctl) (ep : Nat) : Ctl :=
  let m := c.mbx ep
  let off := field (m.word 1) 0 16
  let total := field (m.word 1) 16 16
  let bad : Ctl := c.ackPost ep 2
  if m.subcode = 0 then
    if total = 0 || 4096 < total || total ≤ off || (off ≠ 0 && off ≠ m.spdmReq.length) then bad
    else
      let part := (m.bytes.drop 8).take (min 56 (total - off))
      let req := (if off = 0 then [] else m.spdmReq) ++ part
      if req.length = total then
        ({ c.bump (Reg.secCtr 2) with freeCtr := c.freeCtr + 1 }.putMbx ep { m with spdmReq := [], spdmRsp := Config.spdmAnswer c.freeCtr req }).ackPost ep 0
      else (c.putMbx ep { m with spdmReq := req }).ackPost ep 0
  else if m.subcode = 1 then
    if m.spdmRsp.length ≤ off then bad
    else
      let part := (m.spdmRsp.drop off).take 56
      let body := leBytes 4 (off + m.spdmRsp.length % 65536 * 65536) ++ part ++ zeros (56 - part.length)
      (c.putMbx ep (m.setBytes 4 body)).ackPost ep 0
  else bad

def execSpdmMailbox (ep : Fin 4095) (s : State) : Host.Outcome State Fault Refusal :=
  done (s.onCtl (fun c => c.serveMbx ep.val (· == 0x10) (·.spdmPost ep.val)))

/-- The posts that wait for Jorren are acknowledged when a management reset ends (R418, R475). -/
def Ctl.restartPosts (c : Ctl) : Ctl :=
  (List.map (fun (e : Nat × Mbx) => e.1) (c.mbxs.filter (fun (e : Nat × Mbx) => e.2.go && e.2.receiver.isNone))).foldl
    (fun d ep => d.ackPost ep 0xFFFE) c

end Sys2Proof.Machine
end

