-- ==== Sys2Proof/Machine/ErrOps.lean ====
section
/-! DEFINITION. The collector, the log ring and the flash log (spec/18 §18.3). -/

namespace Sys2Proof.Machine

/-- The entry's FIRST record is still frozen (R450). -/
def Ctl.firstFrozen (c : Ctl) (e : LogEntry) : Bool :=
  e.rep.first && (match c.err.firsts.find? (32 * e.rep.block + e.rep.cls) with
    | some f => f.lseq == e.lseq
    | none => false)

/-- The ring index of the next entry: entries of frozen FIRST records are skipped (R450). -/
def Ctl.ringIndex (c : Ctl) : Nat :=
  ((List.range 4096).find? (fun i =>
    match c.err.ring.find? ((c.err.next + i) % 4096) with
    | some e => !c.firstFrozen e
    | none => true)).elim c.err.next (fun i => (c.err.next + i) % 4096)

/-- Record one entry: the next LSEQ, its place in the ring, its FIRST record, LOG_ENTRY for severity 2 and 3
(R448-R450, Table 19.4). -/
def Ctl.logEntry (c : Ctl) (r : Report) (ctx : Option LogContext) : Ctl :=
  let k := 32 * r.block + r.cls
  let pend := c.rd (Reg.coalPending r.block r.cls)
  let e : LogEntry :=
    { lseq := c.err.lseq, stamp := c.now % 2 ^ 48, rep := r, lost := pend ≠ 0, nlost := pend, ctx := ctx, free := c.freeF }
  let i := c.ringIndex
  let firsts := match c.err.firsts.find? k with
    | some f => if r.first && f.lseq == 2 ^ 64 then c.err.firsts.put k { f with lseq := e.lseq, ctx := ctx } else c.err.firsts
    | none => c.err.firsts
  let c := { c with err := { c.err with ring := c.err.ring.put i e, next := (i + 1) % 4096, lseq := c.err.lseq + 1, firsts := firsts } }
  let c := c.wr (Reg.coalPending r.block r.cls) 0
  if 2 ≤ classSev r.cls then c.event evLogEntry [e.lseq, r.block, r.cls, r.unit] else c

/-- The context of the report that crossed an advisory's threshold: that of the unit's newest entry with one (R454). -/
def Ctl.adviceCtx (c : Ctl) (r : Report) : Option LogContext :=
  let l := List.map (fun (e : Nat × LogEntry) => e.2) c.err.ring
  let of (e : LogEntry) : Bool := e.rep.unit == r.unit && (e.rep.block == r.block || (r.block == 0x0D && e.rep.block == 0x0E))
  (l.foldl (fun (b : Option LogEntry) (e : LogEntry) =>
    if !of e || e.rep.cls == 0x1F then b
    else match b with | some y => if y.lseq < e.lseq then some e else b | none => some e) none).bind (·.ctx)

/-- Move the oldest queued report into the ring; at 128 entries after a full queue, LOG_LOSS (R448, R449). Answers the
classes recorded. -/
def Ctl.drainOne (c : Ctl) (ctx : LogContext) : Ctl × List Nat :=
  match c.err.queue with
  | [] => (c, [])
  | r :: t =>
    let c := ({ c with err := { c.err with queue := t } }).logEntry r (if classHasCtx r.cls then some ctx else if r.cls = 0x1F then c.adviceCtx r else none)
    if c.err.wasFull && c.err.queue.length = 128 then
      let l : Report := { rep 0 0x1E 0 with info := BitVec.ofNat 128 (c.err.coalesced % 2 ^ 64) }
      (({ c with err := { c.err with wasFull := false, coalesced := 0 } }).logEntry l none, [r.cls, 0x1E])
    else (c, [r.cls])

/-- Entries of the ring that are not in flash, oldest first. -/
def Ctl.uncopied (c : Ctl) : List LogEntry :=
  let l := List.map (·.2) (c.err.ring.filter (fun e => c.err.copied ≤ e.2.lseq))
  l.mergeSort (fun a b => a.lseq ≤ b.lseq)

/-- Keep the 65,536 most recent entries and every frozen FIRST record (R451). -/
def Ctl.trimFlash (c : Ctl) (l : List LogEntry) : List LogEntry :=
  let n := l.length - 65536
  (l.take n).filter c.firstFrozen ++ l.drop n

/-- Write one batch of at most 64 entries to flash (R451). -/
def Ctl.flashBatch (c : Ctl) : Ctl :=
  let b := c.uncopied.take 64
  match b.getLast? with
  | none => { c with err := { c.err with batchAt := c.now } }
  | some z =>
    let c := c.bumpF Reg.flashBatches 1
    { c with err := { c.err with flash := c.trimFlash (c.err.flash ++ b), copied := z.lseq + 1, batchAt := c.now } }

/-- Flush the log to flash: batches until every entry is copied (at most 64 batches hold the ring). -/
def Ctl.flushLog (c : Ctl) : Ctl := (List.range 65).foldl (fun d _ => if d.uncopied.isEmpty then d else d.flashBatch) c

end Sys2Proof.Machine
end

