-- ==== Sys2Proof/Machine/ResetOps.lean ====
section
/-! DEFINITION. What each reset and each loss of MAIN leaves (spec/02 Table 2.9, R44-R56; spec/20 R496, Table 20.1). -/

namespace Sys2Proof.Machine

/-- The control records after the MAIN domain has been off: MAIN registers and every record of the data plane at
reset, counts since cold reset kept (R496), units out of service kept (R468). -/
def Ctl.dropMain (c : Ctl) : Ctl :=
  let keep (a : Nat) : Bool := !isMain a || (0x0E010000 ≤ a && a < 0x0E018000)
  { Ctl.reset c.flash c.fuses with
    now := c.now, freeCtr := c.freeCtr, out := c.out, nextId := c.nextId, regs := c.regs.filter (fun e => keep e.1),
    pwr := { c.pwr with trained := [], reduced := [] },
    elms := c.elms,
    eps := c.eps.filterMap (fun e => if e.2.verdicts = 0 then none else some (e.1, { Endpoint.init with verdicts := e.2.verdicts })),
    units := c.units.filterMap (fun e =>
      let u := { e.2 with bay := 0, work := 0 }
      if u = UnitRec.init e.1 then none else some (e.1, u)),
    tileMap := c.tileMap, seedAt := c.seedAt, items := c.items, err := c.err, evseq := c.evseq, sessions := c.sessions, setups := c.setups,
    setupTimes := c.setupTimes, nextSid := c.nextSid, fw := c.fw, net := c.net, staging := c.staging }

/-- Sixteen free bytes (DESIGN CHOICE, log entry 3). -/
def Ctl.freeBytes (c : Ctl) : List Byte × Ctl := let r := c.free; (leBytes 16 r.1.toNat, r.2)

/-- A dirty line of the home cache is discarded without a write-back: what its tray holds of it is open, since home may have
written it back before (§7.2; DEDUCED, log entry 33). -/
def State.loseLine (s : State) (line : Nat) : State :=
  (List.range 8).foldl (fun (t : State) i =>
    let r := t.ctl.freeBytes
    { t with ctl := r.2, mem := t.mem.write (line * 128 + 16 * i) r.1 }) s

/-- Discard the dirty lines that satisfy p. -/
def State.loseLines (s : State) (p : Nat → Bool) : State :=
  let t := (s.ctl.homeDirty.filter p).foldl State.loseLine s
  { t with ctl := { t.ctl with homeDirty := t.ctl.homeDirty.filter (fun l => !p l) } }

/-- Everything inside the module but AUX state goes with MAIN (R44, R118, R139). -/
def State.dropMain (s : State) : State :=
  let s := s.loseLines (fun _ => true)
  { s with ctl := s.ctl.dropMain, mem := s.mem.dropMain }

/-- Set GLB_STATE.STATE and STEP. -/
def Ctl.glb (c : Ctl) (st step : Nat) : Ctl := (c.wr Reg.glbState st).wr Reg.glbStep step

/-- MAIN is off: state, cause, status bits (Table 20.4, Table 2.12). -/
def Ctl.offStatus (c : Ctl) (st off : Nat) : Ctl :=
  let c := ((c.glb st 0).wr Reg.glbOffCause off).wr Reg.glbReduced 0
  let c := ((c.wr Reg.mainGood 0).wr Reg.dataReady 0).wr Reg.oeLock 0
  let c := (c.wr Reg.capActive 0).wr Reg.aDiv 4
  { c with pwr := { c.pwr with railsUp := false, thermStep := 4, capSince := 0 } }

/-- Switch MAIN off: the MAIN rails, and with them every MAIN record and memory (R44). -/
def State.mainOff (s : State) (st off : Nat) : State :=
  let s := s.dropMain
  { s with ctl := s.ctl.offStatus st off }

/-- Set a bit of PWR_RESET_CAUSE (R56). -/
def Ctl.cause (c : Ctl) (i : Nat) : Ctl := c.wr (Reg.resetCause i) 1

/-- Jorren waits for POWER_ON while AUTO_ON is 0 (Table 20.4). -/
def Ctl.waitIfManual (c : Ctl) : Ctl := if c.rd Reg.autoOn = 0 then c.wr Reg.glbWaitOn 1 else c

/-- A loss of MAIN (R37, R44): logged with the sensor snapshot, the log preserved in flash. -/
def State.mainLost (s : State) : State :=
  let c := s.ctl
  let c := c.report (repInfo 0x13 0x1A 0 3)
  let c := { c with err := { c.err with snapshot := c.regs.filter (fun e => 0x10400000 ≤ e.1 && e.1 < 0x10405000) } }
  let c := ((c.alert 1).cause 6).flushLog
  let s := ({ s with ctl := c }).mainOff 0 2
  { s with ctl := s.ctl.waitIfManual }

/-- End every JMP session (R54, R479). -/
def Ctl.dropSessions (c : Ctl) : Ctl := { c with sessions := [], setups := [] }

/-- A management reset begins (R53, R54): the log is flushed first, the cores stop, sessions end, and a flash write
under way leaves flash without a valid image (R483, R484). -/
def Ctl.mgmtReset (c : Ctl) (bit : Nat) : Ctl :=
  let c := c.flushLog
  let c := if c.rd Reg.fwState = 3 then { c with flash := { c.flash with image := none } } else c
  let c := ((c.cause bit).wr Reg.coresUp 0).wr Reg.fwState 0
  let c := c.dropSessions
  { c with fw := [], staging := { c.staging with len := 0, bytes := [], recovery := [], recovering := false }, pwr := { c.pwr with mgmtReset := true } }

/-- What a register keeps over a pin reset: counts since cold reset, the reset causes, the feeds' state (R496). -/
def pinKeep (a : Nat) (v : Word) : Word :=
  if a = Reg.resetCauseAddr then v
  else if a = 0x01001000 then v &&& 0xF
  else if 0x0E010000 ≤ a && a < 0x0E018000 then v
  else if 0x0F008000 ≤ a && a < 0x0F009800 then v &&& 0xFFFFFFFF00000000
  else if 0x0F040000 ≤ a && a < 0x0F100000 then v &&& 0x03FF0000
  else if 0x10400000 ≤ a && a < 0x10400340 then (regReset a) ||| (v &&& 0xFFFF0000)
  else regReset a

/-- PWR_CTL.AUTO_ON and the anchors are reloaded from flash at each start (R496). -/
def Ctl.loadFlash (c : Ctl) : Ctl := c.wr Reg.autoOn (b2n c.flash.autoOn)

/-- A pin reset (R55, Table 2.9): Jorren and MAIN are reset, PWR_EN drops. -/
def State.pinReset (s : State) : State :=
  let up := s.ctl.mainUp || s.ctl.pwr.railsUp
  let c := s.ctl.flushLog
  let c := if c.rd Reg.fwState = 3 then { c with flash := { c.flash with image := none } } else c
  let s := ({ s with ctl := c }).dropMain
  let c := s.ctl
  let c := { c with
    regs := c.regs.filterMap (fun (e : Nat × Word) => let v := pinKeep e.1 e.2; if v = regReset e.1 then none else some (e.1, v)),
    err := { Err.init with lseq := c.err.lseq, flash := c.err.flash, copied := c.err.lseq, batchAt := c.now, snapshot := c.err.snapshot },
    fw := [], net := [NetCfg.init 0, NetCfg.init 1], staging := Staging.init,
    pwr := { Pwr.init with auxGood := c.pwr.auxGood, resetLow := true, lostFeeds := c.pwr.lostFeeds,
                           railDrops := c.pwr.railDrops &&& 0x1E00, coreLost := c.pwr.coreLost, fabLost := c.pwr.fabLost,
                           freqBad := c.pwr.freqBad } }
  let c := (c.dropSessions.loadFlash).cause 1
  let c := if up then (c.wr Reg.glbOffCause 6).report { repInfo 0x13 0x1A 0 3 with info := 0x603 } else c
  { s with ctl := c }

/-- A cold reset (Table 2.9): everything but flash and fuses; the feeds' state is live. -/
def State.coldReset (s : State) : State :=
  let s := s.loseLines (fun _ => true)
  let c := Ctl.reset s.ctl.flash s.ctl.fuses
  let c := { c with out := s.ctl.out, freeCtr := s.ctl.freeCtr + 1, seedAt := s.ctl.freeCtr, nextId := s.ctl.nextId,
                    err := { Err.init with flash := s.ctl.err.flash } }
  { s with ctl := (c.wr Reg.feedOk (s.ctl.rd Reg.feedOk)).loadFlash, mem := s.mem.dropMain }

end Sys2Proof.Machine
end

