-- ==== Sys2Proof/Machine/Power.lean ====
section
/-! DEFINITION. Feeds, rails, power-up and power-down, clocks, thermal control, resets, lasers, and the alert
registers (spec/02, spec/20 §20.4). A command whose condition does not hold in the present state changes nothing
(DESIGN CHOICE, log entry 18). -/

namespace Sys2Proof.Machine

/-- The index of a pair's other feed: AUX_A/AUX_B, MAIN_A/MAIN_B. -/
def otherFeed (f : Nat) : Nat := if f % 2 = 0 then f + 1 else f - 1

/-- A POWER_EVENT from the power block: its subtype, and the feed, rail or cause it names in INFO byte 1 (DEDUCED, log
entry 19). -/
def powerEvent (sub what : Nat) : Report := { rep 0x13 0x1A 0 with info := BitVec.ofNat 128 (sub + 256 * what) }

/-- A feed becomes good (R35); a feed that was lost logs FEED_RESTORED (R39). -/
def Ctl.feedGood (c : Ctl) (f : Nat) : Ctl :=
  let c := c.wr ⟨0x01001000, f, 1⟩ 1
  let c := if bitOf c.pwr.lostFeeds.toNat f then
      ({ c with pwr := { c.pwr with lostFeeds := c.pwr.lostFeeds &&& ~~~ BitVec.ofNat 4 (2 ^ f) } }).report (powerEvent 1 f)
    else c
  if 2 ≤ f && c.pwr.pwrEn && c.rd Reg.glbState = 1 && c.rd Reg.glbStep = 3 then c.glb 1 4 else c

def execFeedGood (feed : Fin 4) (s : State) : Host.Outcome State Fault Refusal := done (s.onCtl (·.feedGood feed.val))

/-- A feed is lost; with the other of its pair still good FEED_LOST is logged and ALERT_N asserted (R39). -/
def Ctl.feedLost (c : Ctl) (f : Nat) : Ctl :=
  if bitOf (c.rd Reg.feedOk) f then
    let c := c.wr ⟨0x01001000, f, 1⟩ 0
    if bitOf (c.rd Reg.feedOk) (otherFeed f) then
      (({ c with pwr := { c.pwr with lostFeeds := c.pwr.lostFeeds ||| BitVec.ofNat 4 (2 ^ f) } }).report (powerEvent 0 f)).alert 0
    else c
  else c

def execFeedLost (feed : Fin 4) (s : State) : Host.Outcome State Fault Refusal := done (s.onCtl (·.feedLost feed.val))

def execColdReset (s : State) : Host.Outcome State Fault Refusal := done s.coldReset

/-- PWR_EN is asserted (R38, Table 2.5 step 3). -/
def Ctl.assertPwrEn (c : Ctl) : Ctl :=
  if c.rd Reg.glbState = 0 && c.rd Reg.coresUp ≠ 0 && !c.pwr.resetLow && c.rd Reg.thermTrip = 0 && !c.pwr.coreLost then
    ({ c with pwr := { c.pwr with pwrEn := true } }.wr Reg.glbWaitOn 0).glb 1 (if 4 ≤ c.rd Reg.feedOk then 4 else 3)
  else c

def execPwrEnAssert (s : State) : Host.Outcome State Fault Refusal :=
  done (s.onCtl (fun c => if c.rd Reg.glbWaitOn = 0 then c.assertPwrEn else c))

/-- The MAIN rails come up in order and MAIN_GOOD is released (R40, Table 2.5 step 5); the optical engines' PLLs
lock to REFCLK_FAB. -/
def Ctl.railSequence (c : Ctl) : Ctl :=
  if c.rd Reg.glbState = 1 && (3 ≤ c.rd Reg.glbStep && c.rd Reg.glbStep ≤ 5) && c.pwr.pwrEn && 4 ≤ c.rd Reg.feedOk then
    let c := { c with pwr := { c.pwr with railsUp := true, railDrops := c.pwr.railDrops &&& 0x1E00 } }
    let c := (c.glb 1 5).wr Reg.mainGood 1
    if c.pwr.fabLost then c else (c.wr Reg.oeLock 0xFFFF).wr Reg.fabRefOk 1
  else c

def execRailSequence (s : State) : Host.Outcome State Fault Refusal := done (s.onCtl (·.railSequence))

/-- A rail fails during sequencing (R42). -/
def Ctl.railFail (c : Ctl) (rail : Nat) : Ctl :=
  if c.rd Reg.glbState = 1 && c.rd Reg.glbStep ≤ 5 && !c.pwr.railsUp then
    let c := ((c.offStatus 0 5).cause 8).wr Reg.glbWaitOn 1
    (({ c with pwr := { c.pwr with pwrEn := false } }).report (powerEvent 2 rail)).alert 2
  else c

def execRailFail (rail : Fin 13) (s : State) : Host.Outcome State Fault Refusal := done (s.onCtl (·.railFail rail.val))

/-- MAIN_GOOD and AUX_GOOD follow the rails (R40): rails 0-8 of Table 2.4 are MAIN, 9-12 AUX. -/
def Ctl.railState (c : Ctl) (drops : BitVec 13) : Ctl :=
  let c := { c with pwr := { c.pwr with railDrops := drops, auxGood := drops.toNat < 512 } }
  c.wr Reg.mainGood (b2n (c.pwr.railsUp && drops.toNat % 512 == 0))

def execRailOutOfRegulation (rail : Fin 13) (s : State) : Host.Outcome State Fault Refusal :=
  done (s.onCtl (fun c => c.railState (c.pwr.railDrops ||| BitVec.ofNat 13 (2 ^ rail.val))))

def execRailRegulationRestored (rail : Fin 13) (s : State) : Host.Outcome State Fault Refusal :=
  done (s.onCtl (fun c => c.railState (c.pwr.railDrops &&& ~~~ BitVec.ofNat 13 (2 ^ rail.val))))

/-- The code under which DATA_READY lists a resource taken out: block of Table 18.2 and unit. -/
def reducedCode (block unit : Nat) : Nat := block * 65536 + unit

def Ctl.reduce (c : Ctl) (block unit : Nat) : Ctl :=
  { c with pwr := { c.pwr with reduced := insertNat c.pwr.reduced (reducedCode block unit) } }

/-- A stack or channel finishes training at step 8: ONLINE and being zeroed (R429), or OFFLINE and logged (R43). The
class under which a training failure is logged is MEM_UNCORR (DEDUCED, log entry 20). -/
def Ctl.memoryTrained (c : Ctl) (u : MemUnit) (ok : Bool) (slots : Nat) : Ctl :=
  if c.rd Reg.glbState = 1 && 7 ≤ c.rd Reg.glbStep then
    let c := c.glb 1 (max 8 (c.rd Reg.glbStep))
    match u with
    | .hbm s =>
      let c := { c with pwr := { c.pwr with trained := insertNat c.pwr.trained s.val } }
      if ok then (c.wr (Reg.hbmState s.val) 1).placeCopies
      else ((c.wr (Reg.hbmState s.val) 0).report (rep 0x06 0x06 s.val)).reduce 0x06 s.val
    | .ddr x =>
      let c := { c with pwr := { c.pwr with trained := insertNat c.pwr.trained (16 + x.val) } }
      if ok then (c.wr (Reg.ddrState x.val) 1).wr (Reg.ddrSlots x.val) slots
      else ((c.wr (Reg.ddrState x.val) 0).report (rep 0x07 0x06 x.val)).reduce 0x07 x.val
  else c

def execMemoryTrained (unit : MemUnit) (ok : Bool) (slots : Nat) (s : State) : Host.Outcome State Fault Refusal :=
  done (s.onCtl (·.memoryTrained unit ok slots))

/-- Step 10: DATA_READY is set and the event lists the reduced resources (R43). -/
def Ctl.dataReadyNow (c : Ctl) : Ctl :=
  if c.rd Reg.glbState = 1 && 8 ≤ c.rd Reg.glbStep then
    let c := ((c.glb 2 0).wr Reg.dataReady 1).wr Reg.glbReduced (b2n (!c.pwr.reduced.isEmpty))
    c.event evDataReady c.pwr.reduced
  else c

def execDataReady (s : State) : Host.Outcome State Fault Refusal := done (s.onCtl (·.dataReadyNow))

/-! ### Clocks and throttling -/

/-- The A-clock runs at the slower of the thermal step and FORCE_DIV (Table 2.11); a step to a slower divider counts,
and every change is logged when STEP_EVT_EN is 1. -/
def Ctl.setDiv (c : Ctl) (step : Nat) : Ctl :=
  let old := c.rd Reg.aDiv
  let new := max step (c.rd Reg.forceDiv)
  let c := { c with pwr := { c.pwr with thermStep := step } }
  if new = old then c
  else
    let c := c.wr Reg.aDiv new
    let c := if old < new then c.bumpF Reg.stepCnt 1 else c
    if c.rd Reg.stepEvtEn = 1 then c.report (repInfo 0x13 0x1C 0 0) else c

/-- The power cap takes the next throttle step: ÷5, and ÷6 after 1 ms at ÷5 (R41, Table 2.8). -/
def Ctl.capExceeded (c : Ctl) (w : Nat) : Ctl :=
  let c := c.wr Reg.inputW w
  if w ≤ c.rd Reg.capW || !c.pwr.railsUp then c
  else if c.pwr.thermStep = 4 then
    ({ c with pwr := { c.pwr with capSince := c.now } }.wr Reg.capActive 1).setDiv 5
  else if c.pwr.thermStep = 5 && c.pwr.capSince + 100000 ≤ c.now then
    ({ c with pwr := { c.pwr with capSince := c.now } }.wr Reg.capActive 1).setDiv 6
  else c.wr Reg.capActive 1

def execPowerCapExceeded (watts : BitVec 16) (s : State) : Host.Outcome State Fault Refusal :=
  done (s.onCtl (·.capExceeded watts.toNat))

def execThrottleStepDown (s : State) : Host.Outcome State Fault Refusal :=
  done (s.onCtl (fun c => if c.pwr.thermStep < 6 then
    ({ c with pwr := { c.pwr with capSince := c.now } }).setDiv (c.pwr.thermStep + 1) else c))

/-- One step faster; the exit conditions include the power, so the cap no longer throttles (Table 2.8). -/
def execThrottleStepUp (s : State) : Host.Outcome State Fault Refusal :=
  done (s.onCtl (fun c => if 4 < c.pwr.thermStep then (c.wr Reg.capActive 0).setDiv (c.pwr.thermStep - 1) else c))

/-- A write to CLK_THROTTLE (Table 2.11): FORCE_DIV other than 5 and 6 takes 0. -/
def Ctl.writeThrottle (c : Ctl) (v : Word) : Ctl :=
  let f := field v.toNat 0 3
  let c := (c.wr Reg.forceDiv (if f = 5 || f = 6 then f else 0)).wr Reg.stepEvtEn (field v.toNat 3 1)
  c.setDiv c.pwr.thermStep

def execForceDivWrite (v : Word) (s : State) : Host.Outcome State Fault Refusal := done (s.onCtl (·.writeThrottle v))

/-- THERMAL_LIMIT at the ÷6 step (R51). -/
def execThermalLimit (s : State) : Host.Outcome State Fault Refusal :=
  done (s.onCtl (fun c => if c.rd Reg.aDiv = 6 then (c.report (repInfo 0x13 0x1C 0 1)).alert 5 else c))

/-- The hardware trips and switches MAIN off (R52). -/
def State.thermTrip (s : State) : State :=
  let c := ((s.ctl.wr Reg.thermTrip 1).cause 5).report (repInfo 0x13 0x1C 0 2)
  let s := ({ s with ctl := c.flushLog }).mainOff 0 3
  { s with ctl := { s.ctl.wr Reg.glbWaitOn 1 with pwr := { s.ctl.pwr with pwrEn := false } } }

def execThermTrip (s : State) : Host.Outcome State Fault Refusal := done s.thermTrip

/-- A reference clock out of tolerance (R47). -/
def Ctl.clockBad (c : Ctl) (k : RefClk) : Ctl :=
  let (b, f) := match k with | .core => (1, Reg.coreRefOk) | .fab => (2, Reg.fabRefOk)
  let c := { c with pwr := { c.pwr with freqBad := c.pwr.freqBad ||| BitVec.ofNat 2 b } }
  (((c.wr f 0).report { rep 0 0x1B 0 with info := BitVec.ofNat 128 (256 * (b - 1)) })).alert 3

def execClockFrequencyEvent (clk : RefClk) (s : State) : Host.Outcome State Fault Refusal :=
  done (s.onCtl (·.clockBad clk))

/-- Every fabric port goes DOWN (R48). -/
def Ctl.fabRefLost (c : Ctl) : Ctl :=
  let c := { c with pwr := { c.pwr with fabLost := true } }
  let c := ((((c.wr Reg.fabRefOk 0).wr Reg.oeLock 0).report (repInfo 0 0x1B 0 2))).alert 11
  (insertAll [] (List.map (fun (e : Nat × SubPort) => e.1) c.subs)).foldl (fun d k => d.linkDown (k / 4) (k % 4)) c

def execFabRefLost (s : State) : Host.Outcome State Fault Refusal := done (s.onCtl (·.fabRefLost))

def execFabRefReturn (s : State) : Host.Outcome State Fault Refusal :=
  done (s.onCtl (fun c =>
    let c := { c with pwr := { c.pwr with fabLost := false, freqBad := c.pwr.freqBad &&& 1 } }
    let c := c.wr Reg.fabRefOk 1
    if c.pwr.railsUp then c.wr Reg.oeLock 0xFFFF else c))

/-- A context whose readings nothing here states (DESIGN CHOICE, log entry 3). -/
def Ctl.freeCtx (c : Ctl) : LogContext × Ctl :=
  let x := c.free
  let f (i n : Nat) : Nat := field x.1.toNat i n
  ({ t1 := BitVec.ofNat 16 (f 0 16), t2 := BitVec.ofNat 16 (f 16 16), vlogic := BitVec.ofNat 16 (f 32 16),
     vsram := BitVec.ofNat 16 (f 48 16), util := BitVec.ofNat 8 (f 64 8) }, x.2)

/-- REFCLK_CORE lost (R49): MAIN off, control ports down, logged to flash. -/
def State.coreRefLost (s : State) : State :=
  let c := ((s.ctl.report (repInfo 0 0x1B 0 1)).alert 4).cause 7
  let c := (List.range 256).foldl (fun (d : Ctl) _ => let x := d.freeCtx; (x.2.drainOne x.1).1) c
  let c := ((c.wr Reg.rootLock 0).wr Reg.coreRefOk 0).flushLog
  let c := (c.wr (Reg.ctlState 0) 0).wr (Reg.ctlState 1) 0
  let s := ({ s with ctl := { c with pwr := { c.pwr with coreLost := true } } }).mainOff 0 4
  { s with ctl := s.ctl.waitIfManual }

def execCoreRefLost (s : State) : Host.Outcome State Fault Refusal := done s.coreRefLost

/-- The clock is back; Jorren restarts from step 2 of Table 2.5 (R49): BOOT_VERIFY follows. -/
def execCoreRefRestored (s : State) : Host.Outcome State Fault Refusal :=
  done (s.onCtl (fun c => if c.pwr.coreLost || bitOf c.pwr.freqBad.toNat 0 then
      let lost := c.pwr.coreLost
      let c := { c with pwr := { c.pwr with coreLost := false, freqBad := c.pwr.freqBad &&& 2 } }
      let c := c.wr Reg.coreRefOk 1
      if lost then { (c.wr Reg.coresUp 0).dropSessions with fw := [] } else c
    else c))

/-! ### Losses and resets -/

/-- The MAIN input switches off above 80 A and MAIN counts as lost (R37). -/
def execOverCurrent (current : BitVec 16) (s : State) : Host.Outcome State Fault Refusal :=
  let s := s.onCtl (·.wr Reg.mainI current.toNat)
  done (if 8000 < current.toNat && s.ctl.pwr.railsUp then s.mainLost else s)

def execMainLost (s : State) : Host.Outcome State Fault Refusal := done (if s.ctl.pwr.railsUp || s.ctl.pwr.pwrEn then s.mainLost else s)

/-- Both AUX feeds lost: the root PLL and Jorren stop, MAIN is off; only flash and fuses survive (R45). -/
def State.auxLost (s : State) : State :=
  let s := s.coldReset
  { s with ctl := { s.ctl with pwr := Pwr.init } }

/-- A flash write that AUX loss interrupts leaves no valid image (R483, R484). -/
def execAuxLost (s : State) : Host.Outcome State Fault Refusal :=
  let s := if s.ctl.rd Reg.fwState = 3 then { s with ctl := { s.ctl with flash := { s.ctl.flash with image := none } } } else s
  done (s.auxLost.onCtl (fun c => c.wr Reg.feedOk (c.rd Reg.feedOk &&& 0xC)))

def execPinReset (s : State) : Host.Outcome State Fault Refusal := done s.pinReset

def execResetNHigh (s : State) : Host.Outcome State Fault Refusal :=
  done (s.onCtl (fun c => { c with pwr := { c.pwr with resetLow := false } }))

def execWatchdogExpiry (s : State) : Host.Outcome State Fault Refusal := done (s.onCtl (·.mgmtReset 4))

/-- A die-to-die link fails: MAIN goes down until RESET_DATA (R445). -/
def State.d2dFail (s : State) (link : Nat) : State :=
  let c := (s.ctl.report (rep 0x12 0x0B link)).cause 9
  let c := { c with pwr := { c.pwr with d2dFailed := c.pwr.d2dFailed ||| BitVec.ofNat 3 (2 ^ link), d2dFails := c.pwr.d2dFails.set link 0 (c.pwr.d2dFails.get link 0 + 1) } }
  let s := ({ s with ctl := c.flushLog }).mainOff 4 7
  { s with ctl := s.ctl.moduleReplace }

def execD2dFail (link : Fin 3) (s : State) : Host.Outcome State Fault Refusal :=
  done (if s.ctl.pwr.railsUp then s.d2dFail link.val else s)

/-! ### Lasers (R33) -/

/-- The four lanes of the port that a fibre feeds. -/
def Ctl.fibreLanes (c : Ctl) (elm fibre : Nat) (f : Ctl → Nat → Nat → Ctl) : Ctl :=
  (List.range 4).foldl (fun d m => f d (16 * elm + fibre) m) c

def execLaserFail (elm : Fin 8) (fibre : Fin 16) (s : State) : Host.Outcome State Fault Refusal :=
  done (s.onCtl (fun c =>
    let e := c.elm elm.val
    (c.putElm elm.val { e with failed := insertNat e.failed fibre.val }).fibreLanes elm.val fibre.val Ctl.laneFail))

/-- A spare laser takes over while one is left; its lanes are re-added under R66. -/
def execLaserSwitch (elm : Fin 8) (fibre : Fin 16) (s : State) : Host.Outcome State Fault Refusal :=
  done (s.onCtl (fun c =>
    let e := c.elm elm.val
    if e.failed.contains fibre.val && e.spares < 2 then
      (c.putElm elm.val { e with failed := removeNat e.failed fibre.val, spares := e.spares + 1 }).report
        (rep 0x16 0x19 (18 * elm.val + fibre.val))
    else c))

/-! ### Alert and cause registers -/

/-- Whether the cause that Table 20.7 names for a latched bit still holds. -/
def Ctl.alertHeld (c : Ctl) (i : Nat) : Bool :=
  match i with
  | 0 => c.pwr.lostFeeds != 0
  | 3 => c.pwr.freqBad != 0
  | 4 => c.pwr.coreLost
  | 5 => (List.range 96).any (fun t => decide (840 < signed 16 (c.rd (Reg.snsTemp t))))
  | 11 => c.pwr.fabLost
  | _ => false

/-- W1C of the latched bits 0-5 and 11 whose causes have ended (R502). -/
def Ctl.writeAlertPend (c : Ctl) (v : Word) : Ctl :=
  [0, 1, 2, 3, 4, 5, 11].foldl (fun d i => if bitOf v.toNat i && !d.alertHeld i then d.wr (Reg.alertPend i) 0 else d) c

def execGlbAlertPendWrite (v : Word) (s : State) : Host.Outcome State Fault Refusal := done (s.onCtl (·.writeAlertPend v))

def execGlbAlertMaskWrite (v : Word) (s : State) : Host.Outcome State Fault Refusal :=
  done (s.onCtl (·.putReg Reg.alertMaskAddr (v &&& 0xFFF)))

def execPwrResetCauseWrite (v : Word) (s : State) : Host.Outcome State Fault Refusal :=
  done (s.onCtl (fun c => c.putReg Reg.resetCauseAddr (c.reg Reg.resetCauseAddr &&& ~~~ v)))

end Sys2Proof.Machine
end

