-- ==== Sys2Proof/Machine/Tiles.lean ====
section
/-! DEFINITION. Scalar and vector tile instructions (spec/15 §15.4, §15.5). -/

namespace Sys2Proof.Machine

/-! ### SALU -/

/-- The second operand of a SALU instruction: sB, or IMM (zero-extended: it is no offset; DEDUCED, log entry 62). -/
def saluB (x : Tile) (w : TileFields) : Word := if w.useImm then w.imm.setWidth 64 else x.sreg w.b.toNat

/-- A SALU instruction: sD := f sA b. -/
def State.salu (s : State) (t : Nat) (op : TileOp) (w : TileFields) (f : Word → Word → Word) : State :=
  s.tileRun t op w (fun s x _ => s.goOn t (x.setS w.d.toNat (f (x.sreg w.a.toNat) (saluB x w))))

/-- A shift: amounts of 64 or more give a free value, since the spec states no result (DESIGN CHOICE, log entry 3). -/
def State.saluShift (s : State) (t : Nat) (op : TileOp) (w : TileFields) (f : Word → Nat → Word) : State :=
  s.tileRun t op w (fun s x _ =>
    let n := (saluB x w).toNat
    if n < 64 then s.goOn t (x.setS w.d.toNat (f (x.sreg w.a.toNat) n))
    else
      let (v, c) := s.ctl.free
      { s with ctl := c }.goOn t (x.setS w.d.toNat (v.setWidth 64)))

def boolWord (b : Bool) : Word := if b then 1 else 0

def execAdd (tile : Fin 272) (w : TileFields) (s : State) : Host.Outcome State Fault Refusal :=
  done (s.salu tile.val .add w (fun a b => a + b))
def execSub (tile : Fin 272) (w : TileFields) (s : State) : Host.Outcome State Fault Refusal :=
  done (s.salu tile.val .sub w (fun a b => a - b))
def execMul (tile : Fin 272) (w : TileFields) (s : State) : Host.Outcome State Fault Refusal :=
  done (s.salu tile.val .mul w (fun a b => a * b))
def execAnd (tile : Fin 272) (w : TileFields) (s : State) : Host.Outcome State Fault Refusal :=
  done (s.salu tile.val .and w (fun a b => a &&& b))
def execOr (tile : Fin 272) (w : TileFields) (s : State) : Host.Outcome State Fault Refusal :=
  done (s.salu tile.val .or w (fun a b => a ||| b))
def execXor (tile : Fin 272) (w : TileFields) (s : State) : Host.Outcome State Fault Refusal :=
  done (s.salu tile.val .xor w (fun a b => a ^^^ b))
def execShl (tile : Fin 272) (w : TileFields) (s : State) : Host.Outcome State Fault Refusal :=
  done (s.saluShift tile.val .shl w (fun a n => a <<< n))
def execShr (tile : Fin 272) (w : TileFields) (s : State) : Host.Outcome State Fault Refusal :=
  done (s.saluShift tile.val .shr w (fun a n => a >>> n))
def execSar (tile : Fin 272) (w : TileFields) (s : State) : Host.Outcome State Fault Refusal :=
  done (s.saluShift tile.val .sar w (fun a n => a.sshiftRight n))
def execSlt (tile : Fin 272) (w : TileFields) (s : State) : Host.Outcome State Fault Refusal :=
  done (s.salu tile.val .slt w (fun a b => boolWord (a.slt b)))
def execSltu (tile : Fin 272) (w : TileFields) (s : State) : Host.Outcome State Fault Refusal :=
  done (s.salu tile.val .sltu w (fun a b => boolWord (a.ult b)))
/-- MIN and MAX compare signed, as SLT does: Table 15.6 marks the unsigned operation with a U (DEDUCED, log entry 60). -/
def execMin (tile : Fin 272) (w : TileFields) (s : State) : Host.Outcome State Fault Refusal :=
  done (s.salu tile.val .min w (fun a b => if b.slt a then b else a))
def execMax (tile : Fin 272) (w : TileFields) (s : State) : Host.Outcome State Fault Refusal :=
  done (s.salu tile.val .max w (fun a b => if a.slt b then b else a))

/-! ### SCTL -/

/-- Go to a branch target: taken modulo IMEM and at a word's place (R378). -/
def State.jumpTo (s : State) (t : Nat) (x : Tile) (p : Place) (target : Word) : State :=
  let pc := target.toNat % p.imem / 8 * 8
  (s.clampIf p (pc != target.toNat)).onCtl (·.putTile t { x with pc := pc })

/-- A conditional branch to PC + 8 × IMM. -/
def State.branch (s : State) (t : Nat) (op : TileOp) (w : TileFields) (f : Word → Word → Bool) : State :=
  s.tileRun t op w (fun s x p =>
    if f (x.sreg w.a.toNat) (x.sreg w.b.toNat) then s.jumpTo t x p (BitVec.ofNat 64 x.pc + 8 * immOff w) else s.goOn t x)

def execJmp (tile : Fin 272) (w : TileFields) (s : State) : Host.Outcome State Fault Refusal :=
  done (s.tileRun tile.val .jmp w (fun s x p => s.jumpTo tile.val x p (w.imm.setWidth 64)))
def execBeq (tile : Fin 272) (w : TileFields) (s : State) : Host.Outcome State Fault Refusal :=
  done (s.branch tile.val .beq w (fun a b => a == b))
def execBne (tile : Fin 272) (w : TileFields) (s : State) : Host.Outcome State Fault Refusal :=
  done (s.branch tile.val .bne w (fun a b => a != b))
def execBlt (tile : Fin 272) (w : TileFields) (s : State) : Host.Outcome State Fault Refusal :=
  done (s.branch tile.val .blt w (fun a b => a.slt b))
def execBge (tile : Fin 272) (w : TileFields) (s : State) : Host.Outcome State Fault Refusal :=
  done (s.branch tile.val .bge w (fun a b => !a.slt b))
def execJr (tile : Fin 272) (w : TileFields) (s : State) : Host.Outcome State Fault Refusal :=
  done (s.tileRun tile.val .jr w (fun s x p => s.jumpTo tile.val x p (x.sreg w.a.toNat)))
def execCall (tile : Fin 272) (w : TileFields) (s : State) : Host.Outcome State Fault Refusal :=
  done (s.tileRun tile.val .call w (fun s x p =>
    s.jumpTo tile.val (x.setS w.d.toNat (BitVec.ofNat 64 (x.pc + 8))) p (w.imm.setWidth 64)))

/-- The value IMM of GETSYS (Table 15.6); none for a number that the table does not list. -/
def Place.sysValue (p : Place) (rank imm : Nat) : Option Nat :=
  let l := natAt p.logical rank
  match imm with
  | 0 => some rank | 1 => some p.w | 2 => some p.h | 3 => some (rank % p.w) | 4 => some (rank / p.w)
  | 5 => some (l / 128) | 6 => some (l % 128)
  | _ => none

def execGetsys (tile : Fin 272) (w : TileFields) (s : State) : Host.Outcome State Fault Refusal :=
  done (s.tileRun tile.val .getsys w (fun s x p =>
    match p.sysValue x.rank w.imm.toNat with
    | some v => s.goOn tile.val (x.setS w.d.toNat (BitVec.ofNat 64 v))
    | none =>
      let (v, c) := s.ctl.free
      { s with ctl := c }.goOn tile.val (x.setS w.d.toNat (v.setWidth 64))))

/-! ### SMEM and VMEM -/

/-- LD: SZ gives 1, 2, 4 or 8 bytes, at sA + IMM; the bytes are the low bytes of sD (zero-extended). -/
def execLd (tile : Fin 272) (w : TileFields) (s : State) : Host.Outcome State Fault Refusal :=
  done (s.tileRun tile.val .ld w (fun s x p =>
    let n := 2 ^ w.sz.toNat
    let a := x.sreg w.a.toNat + immOff w
    let off := padAddr a n
    (s.clampIf p (off != a.toNat)).goOn tile.val (x.setS w.d.toNat (BitVec.ofNat 64 (leNat (s.padRead tile.val off n))))))

/-- ST: the low bytes of sD go to sA + IMM (the data register of a store is D, as in MSTORE); instruction memory is not
written. -/
def execSt (tile : Fin 272) (w : TileFields) (s : State) : Host.Outcome State Fault Refusal :=
  done (s.tileRun tile.val .st w (fun s x p =>
    let n := 2 ^ w.sz.toNat
    let a := x.sreg w.a.toNat + immOff w
    let off := padAddr a n
    ((s.padWrite tile.val p.imem off (leBytes n (x.sreg w.d.toNat).toNat)).clampIf p (off != a.toNat || padDiscards p.imem off n)).goOn tile.val x))

/-- VLD: 256 bytes at sA + IMM, rounded down to 64 bytes. -/
def execVld (tile : Fin 272) (w : TileFields) (s : State) : Host.Outcome State Fault Refusal :=
  done (s.tileRun tile.val .vld w (fun s x p =>
    let a := x.sreg w.a.toNat + immOff w
    let off := padAddr a 64
    (s.clampIf p (off != a.toNat || vbad [w.d])).goOn tile.val (x.setV (vfield w.d) (laneWords (s.padRead tile.val off 256)))))

/-- VST: vD goes to 256 bytes at sA + IMM. -/
def execVst (tile : Fin 272) (w : TileFields) (s : State) : Host.Outcome State Fault Refusal :=
  done (s.tileRun tile.val .vst w (fun s x p =>
    let a := x.sreg w.a.toNat + immOff w
    let off := padAddr a 64
    ((s.padWrite tile.val p.imem off (x.vbytes (vfield w.d))).clampIf p
      (off != a.toNat || vbad [w.d] || padDiscards p.imem off 256)).goOn tile.val x))

/-- The address of lane i of a strided access: sA + i × sB. -/
def laneAddr (x : Tile) (w : TileFields) (i : Nat) : Word := x.sreg w.a.toNat + BitVec.ofNat 64 i * x.sreg w.b.toNat

def execVlds (tile : Fin 272) (w : TileFields) (s : State) : Host.Outcome State Fault Refusal :=
  done (s.tileRun tile.val .vlds w (fun s x p =>
    let v := (List.range 64).map (fun i => BitVec.ofNat 32 (leNat (s.padRead tile.val (padAddr (laneAddr x w i) 4) 4)))
    (s.clampIf p (vbad [w.d] || (List.range 64).any (fun i => padAddr (laneAddr x w i) 4 != (laneAddr x w i).toNat))).goOn tile.val
      (x.setV (vfield w.d) v)))

/-- VSTS: the lanes of vD are stored in rising order, so the highest lane wins where they meet (DEDUCED, log entry 71). -/
def execVsts (tile : Fin 272) (w : TileFields) (s : State) : Host.Outcome State Fault Refusal :=
  done (s.tileRun tile.val .vsts w (fun s x p =>
    let offs := (List.range 64).map (fun i => padAddr (laneAddr x w i) 4)
    let s' := (List.range 64).foldl (fun (s : State) i =>
      s.padWrite tile.val p.imem (natAt offs i) (leBytes 4 (x.lane (vfield w.d) i).toNat)) s
    (s'.clampIf p (vbad [w.d] || offs.any (fun o => o < p.imem)
      || (List.range 64).any (fun i => natAt offs i != (laneAddr x w i).toNat))).goOn tile.val x))

/-! ### VALU -/

def fp32Nan (v : BitVec 32) : Bool := (Fmt.fp32.decode v.toNat).isNan
def toLane (n : Nat) : BitVec 32 := BitVec.ofNat 32 n

/-- A lane-wise operation of vA and vB (and vD); inputs that are NaN set NAN_IN when the operation is on FP32. -/
def State.valu (s : State) (t : Nat) (op : TileOp) (w : TileFields) (uses : Nat) (fp : Bool)
    (f : BitVec 32 → BitVec 32 → BitVec 32 → BitVec 32) : State :=
  s.tileRun t op w (fun s x p =>
    let a := x.vreg (vfield w.a)
    let b := x.vreg (vfield w.b)
    let d := x.vreg (vfield w.d)
    let nan := fp && (a.any fp32Nan || (2 ≤ uses && b.any fp32Nan) || (3 ≤ uses && d.any fp32Nan))
    ((s.clampIf p (vbad ([w.d, w.a] ++ (if 2 ≤ uses then [w.b] else [])))).nanIf p nan).goOn t
      (x.setV (vfield w.d) ((a.zip b).zip d |>.map (fun e => f e.1.1 e.1.2 e.2))))

/-- Rounded addition, subtraction and multiplication of lanes (R379). -/
def laneAdd (a b : BitVec 32) : BitVec 32 := toLane (fp32Add a.toNat b.toNat)
def laneSub (a b : BitVec 32) : BitVec 32 := toLane (fp32Sub a.toNat b.toNat)
def laneMul (a b : BitVec 32) : BitVec 32 := toLane (fp32Mul a.toNat b.toNat)
/-- The exact value a × b + d rounded once. -/
def laneFma (a b d : BitVec 32) : BitVec 32 :=
  toLane (Fmt.fp32.encode .even (((Fmt.fp32.decode a.toNat).mul (Fmt.fp32.decode b.toNat)).add (Fmt.fp32.decode d.toNat)))
/-- The greater or lesser lane in the order of Table 11.5; a NaN gives the canonical NaN. -/
def laneMax (a b : BitVec 32) : BitVec 32 :=
  if fp32Nan a || fp32Nan b then toLane Fmt.fp32.nan else if floatKey .fp32 a.toNat < floatKey .fp32 b.toNat then b else a
def laneMin (a b : BitVec 32) : BitVec 32 :=
  if fp32Nan a || fp32Nan b then toLane Fmt.fp32.nan else if floatKey .fp32 b.toNat < floatKey .fp32 a.toNat then b else a

def execVadd (tile : Fin 272) (w : TileFields) (s : State) : Host.Outcome State Fault Refusal :=
  done (s.valu tile.val .vadd w 2 true (fun a b _ => laneAdd a b))
def execVsub (tile : Fin 272) (w : TileFields) (s : State) : Host.Outcome State Fault Refusal :=
  done (s.valu tile.val .vsub w 2 true (fun a b _ => laneSub a b))
def execVmul (tile : Fin 272) (w : TileFields) (s : State) : Host.Outcome State Fault Refusal :=
  done (s.valu tile.val .vmul w 2 true (fun a b _ => laneMul a b))
def execVfma (tile : Fin 272) (w : TileFields) (s : State) : Host.Outcome State Fault Refusal :=
  done (s.valu tile.val .vfma w 3 true (fun a b d => laneFma a b d))
def execVmax (tile : Fin 272) (w : TileFields) (s : State) : Host.Outcome State Fault Refusal :=
  done (s.valu tile.val .vmax w 2 true (fun a b _ => laneMax a b))
def execVmin (tile : Fin 272) (w : TileFields) (s : State) : Host.Outcome State Fault Refusal :=
  done (s.valu tile.val .vmin w 2 true (fun a b _ => laneMin a b))
def execVexp2 (tile : Fin 272) (w : TileFields) (s : State) : Host.Outcome State Fault Refusal :=
  done (s.valu tile.val .vexp2 w 1 true (fun a _ _ => toLane (exp2 a.toNat)))
def execVlog2 (tile : Fin 272) (w : TileFields) (s : State) : Host.Outcome State Fault Refusal :=
  done (s.valu tile.val .vlog2 w 1 true (fun a _ _ => toLane (log2Fn a.toNat)))
def execVrcp (tile : Fin 272) (w : TileFields) (s : State) : Host.Outcome State Fault Refusal :=
  done (s.valu tile.val .vrcp w 1 true (fun a _ _ => toLane (rcpFn a.toNat)))
def execVrsq (tile : Fin 272) (w : TileFields) (s : State) : Host.Outcome State Fault Refusal :=
  done (s.valu tile.val .vrsq w 1 true (fun a _ _ => toLane (rsqFn a.toNat)))
/-- VCMPLT: the spec names the comparison and not what it writes, which is a free value for each outcome (DESIGN CHOICE, log entry 61). -/
def execVcmplt (tile : Fin 272) (w : TileFields) (s : State) : Host.Outcome State Fault Refusal :=
  done (s.valu tile.val .vcmplt w 2 true (fun a b _ =>
    Config.vcmpWord ((Fmt.fp32.decode a.toNat).lt (Fmt.fp32.decode b.toNat))))
/-- VSEL: the spec names the selection and not its condition; the choice is a free function of the three lanes (DESIGN CHOICE, log entry 61). -/
def execVsel (tile : Fin 272) (w : TileFields) (s : State) : Host.Outcome State Fault Refusal :=
  done (s.valu tile.val .vsel w 2 false (fun a b d => Config.vsel d a b))
def execViadd (tile : Fin 272) (w : TileFields) (s : State) : Host.Outcome State Fault Refusal :=
  done (s.valu tile.val .viadd w 2 false (fun a b _ => a + b))

/-- The formats of Table 11.1 by number. -/
def fmtOf : Nat → Fmt
  | 0 => .fp32 | 1 => .bf16 | 2 => .fp16 | 3 => .e4m3 | 4 => .e5m2 | 5 => .e2m3 | 6 => .e3m2 | _ => .e2m1

/-- The rounding of VCVT by SZ (R379): an SZ of 3 takes nearest even. -/
def cvtRound (sz : BitVec 2) (seed idx : Nat) : Rnd := if sz = 1 then .zero else if sz = 2 then .stoch seed idx else .even

/-- VCVT (R379, R380): the format and direction that IMM gives are free (DESIGN CHOICE, log entry 61). -/
def execVcvt (tile : Fin 272) (w : TileFields) (s : State) : Host.Outcome State Fault Refusal :=
  done (s.tileRun tile.val .vcvt w (fun s x p =>
    let form := Config.vcvtForm w.imm
    let f := fmtOf (form.1 % 8)
    let (src, dst) := if form.2 then (f, Fmt.fp32) else (Fmt.fp32, f)
    let sz := max 1 (dst.width / 8)
    let seed := (x.sreg w.b.toNat).toNat
    let r := vfield w.d
    let a := x.vreg (vfield w.a)
    let v := a.zipIdx.map (fun e =>
      toLane (dst.encode (cvtRound w.sz seed (x.rank * 2 ^ 32 + (256 * r + 4 * e.2) / sz)) (src.decode (field e.1.toNat 0 src.width))))
    ((s.clampIf p (vbad [w.d, w.a] || w.sz == 3)).nanIf p (a.any (fun e => (src.decode (field e.toNat 0 src.width)).isNan))).goOn tile.val
      (x.setV r v)))

/-- VRSUM (R379): the exact sum of the lanes of vA, rounded once, to lane 0 of vD; zero to the others. -/
def execVrsum (tile : Fin 272) (w : TileFields) (s : State) : Host.Outcome State Fault Refusal :=
  done (s.tileRun tile.val .vrsum w (fun s x p =>
    let a := x.vreg (vfield w.a)
    let sum := (a.foldl (fun (c : Acc) v => c.add (-149) (Fmt.fp32.decode v.toNat) false) Acc.clear).read (-149) .fp32 .even 1
    ((s.clampIf p (vbad [w.d, w.a])).nanIf p (a.any fp32Nan)).goOn tile.val
      (x.setV (vfield w.d) (toLane sum :: List.replicate 63 0))))

/-- VBCAST: one value to every lane; the spec does not say which operand it comes from (a free function of them; DESIGN CHOICE, log entry 61). -/
def execVbcast (tile : Fin 272) (w : TileFields) (s : State) : Host.Outcome State Fault Refusal :=
  done (s.tileRun tile.val .vbcast w (fun s x p =>
    let v := Config.vbcast (x.sreg w.a.toNat) (x.lane (vfield w.a) 0) w.imm
    (s.clampIf p (vbad [w.d])).goOn tile.val (x.setV (vfield w.d) (List.replicate 64 v))))

end Sys2Proof.Machine
end

