-- ==== Sys2Proof/Machine/TileMat.lean ====
section
/-! DEFINITION. Matrix, Pattern, stream, transfer and system instructions of tiles (spec/15 §15.5, §15.6, §15.9). -/

namespace Sys2Proof.Machine

/-! ### MAT (R386, R387) -/

def execMzero (tile : Fin 272) (w : TileFields) (s : State) : Host.Outcome State Fault Refusal :=
  done (s.tileRun tile.val .mzero w (fun s x p =>
    (s.clampIf p (decide (4 ≤ w.d.toNat))).goOn tile.val (x.setAcc (afield w.d) (List.replicate 1024 0))))

/-- Bytes of an operand, and of its scales for the MX types, in the WOB. -/
def wobBytes (ty : Nat) : Nat := if isMx ty then 2176 else 2048

/-- MLOADW: the operand, then its scales, from sA + IMM. -/
def execMloadw (tile : Fin 272) (w : TileFields) (s : State) : Host.Outcome State Fault Refusal :=
  done (s.tileRun tile.val .mloadw w (fun s x p =>
    let a := x.sreg w.a.toNat + immOffTyped w
    let off := padAddr a 64
    (s.clampIf p (off != a.toNat || tileTypeBad w 9)).goOn tile.val
      { x with wob := s.padRead tile.val off (wobBytes (tileTypeOf w 9)) }))

/-- Element format of a type code. -/
def tileFmt : Nat → Fmt
  | 1 => .bf16 | 2 => .fp16 | 3 => .e4m3 | 4 => .e5m2 | 5 => .e4m3 | 6 => .e5m2 | 7 => .e2m3 | 8 => .e3m2 | _ => .e2m1

/-- K depth of a row (R386). -/
def kDepth (ty : Nat) : Nat := if ty ≤ 2 then 32 else if ty ≤ 8 then 64 else 128

/-- Element k of row i of a 32-row operand: elements follow each other from the row's first bit (R287). -/
def operandElem (ty : Nat) (b : List Byte) (i k : Nat) : Nat :=
  let w := (tileFmt ty).width
  field (leAt b (64 * i + k * w / 8) 3) (k * w % 8) w

/-- The element with its MX scale, as a number; `scales` holds one E8M0 byte per row and block at byte 4i + block. -/
def operandNum (ty : Nat) (b scales : List Byte) (i k : Nat) : Num :=
  let v := (tileFmt ty).decode (operandElem ty b i k)
  if !isMx ty then v
  else
    let x := leAt scales (4 * i + k / 32) 1
    if x = 255 then .nan
    else match v with
      | .fin n m e => .fin n m (e + x - 127)
      | o => o

/-- One accumulator element (R387): groups of 8 for BF16 and FP16, blocks of 32 otherwise, rounded after each. -/
def mmaElem (ty : Nat) (acc : Nat) (a b : Nat → Num) : Nat :=
  let g := if ty ≤ 2 then 8 else 32
  (List.range (kDepth ty / g)).foldl (fun acc n =>
    ((List.range g).foldl (fun (c : Acc) k => c.add (-600) ((a (g * n + k)).mul (b (g * n + k))) false)
      (Acc.clear.add (-600) (Fmt.fp32.decode acc) false)).read (-600) .fp32 .even 1) acc

/-- MMA: aD += A × B, where A is in vA to vA + 7 and B in the WOB. -/
def execMma (tile : Fin 272) (w : TileFields) (s : State) : Host.Outcome State Fault Refusal :=
  done (s.tileRun tile.val .mma w (fun s x p =>
    let ty := tileTypeOf w 9
    let ra := vfield w.a / 8 * 8
    let ab := (List.range 8).flatMap (fun i => x.vbytes (ra + i))
    let asc := x.vbytes (vfield w.b)
    let bsc := x.wob.drop 2048
    let d := afield w.d
    let a (i k : Nat) : Num := operandNum ty ab asc i k
    let b (j k : Nat) : Num := operandNum ty x.wob bsc j k
    let v := (List.range 32).flatMap (fun i => (List.range 32).map (fun j => toLane (mmaElem ty (x.accAt d i j).toNat (a i) (b j))))
    let nan := (List.range 32).any (fun i => (List.range (kDepth ty)).any (fun k => (a i k).isNan || (b i k).isNan))
    let bad := decide (4 ≤ w.d.toNat) || vbad ([w.a] ++ (if isMx ty then [w.b] else [])) || tileTypeBad w 9
    ((s.clampIf p bad).nanIf p nan).goOn tile.val (x.setAcc d v)))

/-- MSTORE: aD to sA + IMM, as FP32 or as BF16 rounded by SZ (R387, R380). -/
def execMstore (tile : Fin 272) (w : TileFields) (s : State) : Host.Outcome State Fault Refusal :=
  done (s.tileRun tile.val .mstore w (fun s x p =>
    let a := x.sreg w.a.toNat + immOff w
    let off := padAddr a 64
    let d := afield w.d
    let els := (List.range 1024).map (fun e => (x.accAt d (e / 32) (e % 32)).toNat)
    let seed := (x.sreg w.b.toNat).toNat
    let data := if w.sz = 0 then els.flatMap (leBytes 4)
      else (els.zipIdx).flatMap (fun e =>
        let idx := x.rank * 2 ^ 32 + (off + 2 * e.2) % 2 ^ 21 / 2
        let r : Rnd := if w.sz = 1 then .even else if w.sz = 2 then .zero else .stoch seed idx
        leBytes 2 (Fmt.bf16.encode r (Fmt.fp32.decode e.1)))
    ((s.padWrite tile.val p.imem off data).clampIf p
      (off != a.toNat || decide (4 ≤ w.d.toNat) || padDiscards p.imem off data.length)).goOn tile.val x))

/-! ### PAT (R394, R395) -/

def Tile.buf (x : Tile) (i : Nat) : BlockBuf := if i = 0 then x.buf0 else x.buf1
def Tile.putBuf (x : Tile) (i : Nat) (b : BlockBuf) : Tile := if i = 0 then { x with buf0 := b } else { x with buf1 := b }

/-- PSEL: start expanding the block at sA + IMM into buffer sB[0]; while that buffer's expansion runs, it waits. The
block's bytes are read as the instruction issues. -/
def execPsel (tile : Fin 272) (w : TileFields) (s : State) : Host.Outcome State Fault Refusal :=
  done (s.tileRun tile.val .psel w (fun s x p =>
    let i := (x.sreg w.b.toNat).toNat % 2
    if (x.buf i).src.isSome then s
    else
      let a := x.sreg w.a.toNat + immOffTyped w
      let off := padAddr a 64
      let blen := leNat (s.padRead tile.val (off + 4) 4)
      let b : BlockBuf := { elems := [], dtype := tileTypeOf w 4, src := some (s.padRead tile.val off (max 64 (min blen (2 ^ 21)))), ready := false }
      (s.clampIf p (off != a.toNat || tileTypeBad w 4)).goOn tile.val (x.putBuf i b)))

/-- The expander finishes a block: the elements are released, or wait for the test bar; a malformed block stops the LAUNCH
(R391, R394, R395). -/
def State.expanded (s : State) (t i : Nat) : State :=
  let x := s.ctl.tile t
  let b := x.buf i
  match b.src, s.ctl.runner? t with
  | some bytes, some p =>
    if !b.elems.isEmpty then s
    else
      let c := ((s.ctl.bump (Reg.patCtr 0)).tallyUp (64 + t / 136)).bumpBy (Reg.patCtr 4) (leAt bytes 4 4)
      match expandBlock b.dtype bytes with
      | none => { s with ctl := (c.bump (Reg.patCtr 3)).stopPlace p stPOISONED dNONE }
      | some els =>
        let c := c.bumpBy (Reg.patCtr 5) (16384 * patWidth b.dtype / 8)
        let (item, hit, c) := c.nextItem .patternBlock
        let held := hit && !(c.others .patternBlock t).isEmpty
        let c := if hit && !held then c.bump (Reg.tbrCtr 3) else c
        let nb : BlockBuf := if held then { b with elems := els } else { b with elems := els, src := none, ready := true }
        let c := c.putTile t (x.putBuf i nb)
        let c := if held then
            let r : Recheck :=
              { item := item, kind := .patternBlock, first := t, owner := t, queue := 0, piece := i, bay := p.bay, flags := 0, outs := [],
                rows := [], nans := 0 }
            { c with rechecks := c.rechecks ++ [r] }
          else c
        { s with ctl := c }
  | _, _ => s

def execPselExpanded (tile : Fin 272) (buf : Fin 2) (s : State) : Host.Outcome State Fault Refusal :=
  done (if s.ctl.mainUp && s.ctl.tileIn tile.val then s.expanded tile.val buf.val else s)

/-- The WOB contents for a sub-tile (R386, R394): B transposed, row j holding B[k][j]; unused places are zero. -/
def subTile (dt : Nat) (elems : List Nat) (n : Nat) : List Byte :=
  let w := patWidth dt / 8
  (List.range 32).flatMap (fun j =>
    (List.range 32).flatMap (fun k => leBytes w (natAt elems ((32 * (n / 4) + k) * 128 + 32 * (n % 4) + j))) ++ zeros (64 - 32 * w))

/-- PTILE: waits until the sub-tile is expanded, then loads it into the WOB. -/
def execPtile (tile : Fin 272) (w : TileFields) (s : State) : Host.Outcome State Fault Refusal :=
  done (s.tileRun tile.val .ptile w (fun s x _ =>
    let b := x.buf ((x.sreg w.b.toNat).toNat % 2)
    if b.ready then s.goOn tile.val { x with wob := subTile b.dtype b.elems (w.imm.toNat % 16) }
    else if b.src.isNone then s.goOn tile.val { x with wob := [] }
    else s))

/-! ### STRM (R375) -/

/-- The tile at the other end of a port of the tile of a rank, and its port (Table 15.6: 0 N, 1 E, 2 S, 3 W). -/
def Place.peer (p : Place) (rank port : Nat) : Option (Nat × Nat) :=
  let x := rank % p.w
  let y := rank / p.w
  let at_ (x y q : Nat) : Option (Nat × Nat) := (p.tiles[y * p.w + x]?).map (fun t => (t, q))
  match port with
  | 0 => if bitOf p.links 1 && 0 < y then at_ x (y - 1) 2 else none
  | 1 => if bitOf p.links 0 && x + 1 < p.w then at_ (x + 1) y 3 else none
  | 2 => if bitOf p.links 1 && y + 1 < p.h then at_ x (y + 1) 0 else none
  | _ => if bitOf p.links 0 && 0 < x then at_ (x - 1) y 1 else none

def Tile.fifo (x : Tile) (port : Nat) : List (List (BitVec 32)) := x.fin.getD port []

/-- SEND vA: into the neighbour's input FIFO of 16 entries, waiting while it is full; without a connection the data is
discarded. -/
def execSend (tile : Fin 272) (w : TileFields) (s : State) : Host.Outcome State Fault Refusal :=
  done (s.tileRun tile.val .send w (fun s x p =>
    let s := s.clampIf p (vbad [w.a])
    match p.peer x.rank (w.imm.toNat % 4) with
    | none => s.goOn tile.val x
    | some (t, q) =>
      let y := s.ctl.tile t
      if 16 ≤ (y.fifo q).length then s
      else (s.onCtl (·.putTile t { y with fin := setAt y.fin q (y.fifo q ++ [x.vreg (vfield w.a)]) })).goOn tile.val x))

/-- RECV vD: from the port's FIFO, waiting while it is empty; zeros on a port without a connection. -/
def execRecv (tile : Fin 272) (w : TileFields) (s : State) : Host.Outcome State Fault Refusal :=
  done (s.tileRun tile.val .recv w (fun s x p =>
    let q := w.imm.toNat % 4
    let s := s.clampIf p (vbad [w.d])
    match p.peer x.rank q, x.fifo q with
    | none, _ => s.goOn tile.val (x.setV (vfield w.d) (List.replicate 64 0))
    | some _, [] => s
    | some _, v :: rest => s.goOn tile.val { x.setV (vfield w.d) v with fin := setAt x.fin q rest }))

/-! ### XMEM (R383-R385) -/

/-- GET and PUT: the tag must be free; the check of R251 is made as the transfer is issued. -/
def State.transfer (s : State) (t : Nat) (op : TileOp) (w : TileFields) (put : Bool) : State :=
  s.tileRun t op w (fun s x p =>
    let tag := w.d.toNat % 16
    if (x.tags.find? tag).isSome then s
    else
      let n := clampNat 1 65536 w.imm.toNat
      let a := clearReserved (x.sreg w.b.toNat)
      let pad := (x.sreg w.a.toNat).toNat % 2 ^ 21
      let bad := n != w.imm.toNat || a != x.sreg w.b.toNat || pad != (x.sreg w.a.toNat).toNat || (!put && padDiscards p.imem pad n)
      let s := s.clampIf p bad
      let (bay, ep) := s.ctl.launchCtx p
      match s.ctl.checkUnit bay ep a 1 (some (if put then rightW else rightR)) with
      | .fail st d _ job => (match job with | some e => s.onCtl (·.jobFault bay e) | none => s).onCtl (·.kernelFault p st d)
      | .pass _ _ _ => s.goOn t { x with tags := x.tags.put tag { put := put, pad := pad, addr := a, len := n } })

def execGet (tile : Fin 272) (w : TileFields) (s : State) : Host.Outcome State Fault Refusal :=
  done (s.transfer tile.val .get w false)
def execPut (tile : Fin 272) (w : TileFields) (s : State) : Host.Outcome State Fault Refusal :=
  done (s.transfer tile.val .put w true)

/-- A PUT to the bay window: only the mailbox of the LAUNCH queue's owner can be written (R384, R413). -/
def Act.windowPut (p : Place) (bay ep off : Nat) (data : List Byte) : Act Unit := do
  match (← Act.ctl).tileMbxWrite ep bay p.handle off data with
  | some (c, cl) => Act.onCtl (fun _ => if cl then c.launchFlag p crCLAMPED else c)
  | none => Act.stop stACCESS dNONE

/-- Carry a transfer out: a GET brings its bytes into the scratchpad, a PUT takes them from it. -/
def actTransfer (t : Nat) (p : Place) (g : TileTag) : Act Unit := do
  let (bay, ep) := (← Act.ctl).launchCtx p
  if g.put then
    let data := (← get).s.padRead t g.pad g.len
    if isNode g.addr && nodeOf g.addr = 0xFFF && offsetOf g.addr < 0x10000 then Act.windowPut p bay ep (offsetOf g.addr) data
    else Act.write bay ep g.addr.toNat data
  else
    let b ← Act.read bay ep g.addr.toNat g.len rightR
    Act.on (fun s => s.padWrite t p.imem g.pad b)

/-- TRANSFER_DONE: the transfer on a tag ends; a remote one may have failed with the status given (R385). -/
def execTransferDone (tile : Fin 272) (tag : Fin 16) (status : Byte) (s : State) : Host.Outcome State Fault Refusal :=
  let t := tile.val
  let free (c : Ctl) : Ctl := let x := c.tile t; c.putTile t { x with tags := x.tags.del tag.val }
  done (match s.ctl.runner? t, (s.ctl.tile t).tags.find? tag.val with
    | some p, some g =>
      if status ≠ stOK then s.onCtl (fun c => (free c).kernelFault p status dNONE)
      else
        match (actTransfer t p g).run { s := s, fl := 0 } with
        | .ok (_, ax) => ax.s.onCtl free
        | .error e => if e.status = stRETRY then e.ax.s else e.ax.s.onCtl (fun c => (free c).kernelFault p e.status e.detail)
    | _, _ => s)

/-- XWAIT: waits until the tag's transfer has completed. -/
def execXwait (tile : Fin 272) (w : TileFields) (s : State) : Host.Outcome State Fault Refusal :=
  done (s.tileRun tile.val .xwait w (fun s x _ => if (x.tags.find? (w.d.toNat % 16)).isSome then s else s.goOn tile.val x))

/-- Whether a tile has a PUT that is not applied. -/
def Tile.putting (x : Tile) : Bool := x.tags.any (fun (e : Nat × TileTag) => e.2.put)

def execXfence (tile : Fin 272) (w : TileFields) (s : State) : Host.Outcome State Fault Refusal :=
  done (s.tileRun tile.val .xfence w (fun s x _ => if x.putting then s else s.goOn tile.val x))

/-- XSIGNAL (R384): counter sA += sB once every earlier PUT of the tile has been applied. -/
def execXsignal (tile : Fin 272) (w : TileFields) (s : State) : Host.Outcome State Fault Refusal :=
  done (s.tileRun tile.val .xsignal w (fun s x p =>
    if x.putting then s
    else
      let (bay, ep) := s.ctl.launchCtx p
      let i := (x.sreg w.a.toNat).toNat
      match s.ctl.checkUnit bay ep (nodeAddr 0xFFF 0) 1 none with
      | .fail st d _ _ => s.onCtl (·.kernelFault p st d)
      | .pass _ _ _ =>
        if i < s.ctl.rd (Reg.winCount bay) then
          (s.onCtl (·.addCounter (s.ctl.rd (Reg.winFirst bay) + i) (x.sreg w.b.toNat).toNat)).goOn tile.val x
        else s.onCtl (·.kernelFault p stACCESS dCTRRANGE)))

/-! ### SYS (R376, R381) -/

def execTileHalt (tile : Fin 272) (w : TileFields) (s : State) : Host.Outcome State Fault Refusal :=
  done (s.tileRun tile.val .halt w (fun s x _ =>
    s.onCtl (·.putTile tile.val { x with run := false, exit := (x.sreg w.a.toNat).setWidth 32 })))

/-- BAR: the tile has executed one more BAR, and goes on once every tile that has not halted has executed as many. -/
def execBar (tile : Fin 272) (w : TileFields) (s : State) : Host.Outcome State Fault Refusal :=
  done (s.tileRun tile.val .bar w (fun s x p =>
    let x := if x.atBar then x else { x with atBar := true, barCount := x.barCount + 1 }
    let all := p.tiles.all (fun t => t == tile.val || !(s.ctl.tile t).run || x.barCount ≤ (s.ctl.tile t).barCount)
    if all then s.goOn tile.val { x with atBar := false } else s.onCtl (·.putTile tile.val x)))

/-- SLEEP (R381, R416): a latched wake event is used up; without a bound mailbox it is a NOP; else the tile sleeps. -/
def execSleep (tile : Fin 272) (w : TileFields) (s : State) : Host.Outcome State Fault Refusal :=
  done (s.tileRun tile.val .sleep w (fun s x p =>
    if x.asleep then s
    else if !s.ctl.mbxs.any (fun (e : Nat × Mbx) => e.2.bound == some (p.bay, p.handle)) then s.goOn tile.val x
    else if p.latch then (s.onCtl (·.putPlace { p with latch := false })).goOn tile.val x
    else s.onCtl (·.putTile tile.val { x with asleep := true })))

/-- NOP, and what every reserved class or operation executes as (R378). -/
def execTileNop (tile : Fin 272) (w : TileFields) (s : State) : Host.Outcome State Fault Refusal :=
  done (match s.tileAt tile.val [.nop, .reserved] w with
    | some p => (s.clampIf p ((decodeTile (s.tileWord tile.val p)).1 == .reserved)).goOn tile.val (s.ctl.tile tile.val)
    | none => s)

end Sys2Proof.Machine
end

