-- ==== Sys2Proof/Machine/Truss.lean ====
section
/-! DEFINITION. PLACE, LAUNCH, PACK, UNPACK, SELFTEST, and the allocation and mapping of tiles (spec/15 §15.1-§15.3, §15.8;
spec/10 §10.7, §10.8). -/

namespace Sys2Proof.Machine

/-! ### PLACE (R281, R373, R374, R377) -/

def cleanPlace : List (List Byte → List Byte) :=
  [fixAddr 0, fixCode 8 1 (· ≤ 1) 0, fixRange 9 1 0 7, fixRange 10 1 0 15, fun p => fixRange 11 1 1 (8 - leAt p 9 1) p,
   fun p => fixRange 12 1 1 (16 - leAt p 10 1) p, fixRange 13 1 0 15, fix 14 1 (· % 4), fixZero 15 17]

/-- The logical tiles of a rectangle in rank order (R373). -/
def rectTiles (p : List Byte) : List Nat :=
  let w := leAt p 11 1
  (List.range (w * leAt p 12 1)).map (fun r => 128 * leAt p 8 1 + 8 * (leAt p 10 1 + r / w) + (leAt p 9 1 + r % w))

def cleanImage : List (List Byte → List Byte) :=
  [fixCode 4 1 (· == 1) 1, fixRange 5 1 1 16, fixZero 6 2, fix 12 4 (fun v => clampNat 65536 524288 (v / 65536 * 65536)),
   fun h => fix 8 4 (fun v => clampNat 0 (leAt h 12 4 - 8) (v / 8 * 8)) h, fixRange 16 4 128 (2 ^ 24), fixZero 20 44]

def cleanSegment (imglen : Nat) : List (List Byte → List Byte) :=
  [fixRange 0 4 0 (2 ^ 21 - 1), fun e => fix 4 4 (fun v => min v (min (imglen - leAt e 12 4) (2 ^ 21 - leAt e 0 4))) e,
   fun e => fix 8 4 (fun v => min v (2 ^ 21 - leAt e 0 4 - leAt e 4 4)) e, fixCode 16 1 (· ≤ 1) 0, fixZero 19 13]

/-- Load a segment into the tiles it selects: its bytes, then zeros. -/
def State.loadSegment (s : State) (w : Nat) (tiles : List Nat) (img e : List Byte) : State :=
  let data := slice img (leAt e 12 4) (leAt e 4 4) ++ zeros (leAt e 8 4)
  tiles.zipIdx.foldl (fun (s : State) t =>
    if leAt e 16 1 = 0 || (t.2 % w = leAt e 17 1 && t.2 / w = leAt e 18 1)
    then { s with mem := s.mem.write (scratchKey t.1 (leAt e 0 4)) data } else s) s

/-- PLACE. -/
def actPlace (q : Nat) (x : QInst) : Act QInst := do
  let (bay, ep) := (← Act.ctl).queCtx q
  let p ← Act.cleanParam q 32 x cleanPlace
  let h := leAt p 13 1
  let ls := rectTiles p
  let c ← Act.ctl
  if ls.any (fun l => !(c.bayTiles bay).contains l) then Act.stop stACCESS 0x3A
  let running (pl : Place) : Bool := pl.launch.isSome
  let same := match c.placeOf bay h with | some pl => running pl | none => false
  if same || ls.any (fun l => c.isClearing l || !c.tileIn (c.physOf l) || (c.holders l).any running) then Act.stop stBUSY 0x37
  Act.onCtl (fun c =>
    let c := c.places.foldl (fun d (pl : Place) => if pl.logical.any ls.contains then d.unbind pl else d) c
    match c.placeOf bay h with | some pl => c.unbind pl | none => c)
  let tiles := ls.map c.physOf
  for t in tiles do Act.on (·.clearTile t)
  let hd ← Act.read bay ep (leAt p 0 8) 64 rightX
  if leAt hd 0 4 ≠ 0x5452534B then Act.stop stACCESS 0x39
  let hd' := cleaned cleanImage hd
  if hd' ≠ hd then Act.flag crCLAMPED
  let img ← Act.read bay ep (leAt p 0 8) (leAt hd' 16 4) rightX
  for i in List.range (leAt hd' 5 1) do
    let e := slice img (64 + 32 * i) 32
    let e' := cleaned (cleanSegment (leAt hd' 16 4)) e
    if e' ≠ e then Act.flag crCLAMPED
    Act.on (·.loadSegment (leAt p 11 1) tiles img e')
  let pl : Place :=
    { bay := bay, handle := h, w := leAt p 11 1, h := leAt p 12 1, links := leAt p 14 1, entry := leAt hd' 8 4, imem := leAt hd' 12 4,
      tiles := tiles, logical := ls, launch := none, latch := false }
  Act.onCtl (fun c => { c with places := c.places ++ [pl] }.bump (Reg.trsCtr 0))
  return { x with count := ls.length, info := h }.ok

def execPlace (queue : Fin 16384) (index : BitVec 32) (s : State) : Host.Outcome State Fault Refusal :=
  done (s.startInst queue.val index.toNat 0x51 (actPlace queue.val))

/-! ### LAUNCH (R282, R376, R385) -/

/-- A tile at the start of a LAUNCH (R376). -/
def Tile.launched (entry rank : Nat) (arg : Word) : Tile := ({ Tile.init with pc := entry, rank := rank, run := true }).setS 1 arg

/-- LAUNCH: every tile of the placement starts. -/
def actLaunch (q : Nat) (x : QInst) : Act QInst := do
  let c ← Act.ctl
  let (bay, _) := c.queCtx q
  match c.placeOf bay (field (entA x.entry) 0 4) with
  | none => Act.stop stACCESS 0x38
  | some p =>
    if p.launch.isSome || p.logical.any c.awaitsRemap then Act.stop stBUSY 0x37
    Act.onCtl (fun c =>
      let c := c.putPlace { p with launch := some (q, x.serial) }
      p.tiles.zipIdx.foldl (fun d t => d.putTile t.1 (Tile.launched p.entry t.2 (BitVec.ofNat 64 (entB x.entry)))) c)
    return { x with phase := .running }

def execLaunch (queue : Fin 16384) (index : BitVec 32) (s : State) : Host.Outcome State Fault Refusal :=
  done (s.startInst queue.val index.toNat 0x50 (actLaunch queue.val))

/-- The placement that a running LAUNCH runs. -/
def Ctl.launched? (c : Ctl) (q index : Nat) : Option (QInst × Place) :=
  match c.inst? q index (fun x => x.phase == .running && entOpcode x.entry == 0x50) with
  | none => none
  | some x => (c.places.find? (fun (p : Place) => p.launch == some (q, x.serial))).map (fun p => (x, p))

/-- The exit code of the lowest-numbered tile that halted with a nonzero code, or 0 (R282). -/
def Ctl.exitCode (c : Ctl) (p : Place) : Nat :=
  ((p.tiles.map (fun t => (c.tile t).exit.toNat)).find? (· != 0)).getD 0

/-- LAUNCH_COMPLETE (R385): every tile has halted and every PUT has been applied. -/
def execLaunchComplete (queue : Fin 16384) (index : BitVec 32) (s : State) : Host.Outcome State Fault Refusal :=
  done (match s.ctl.launched? queue.val index.toNat with
    | some (x, p) =>
      if p.tiles.all (fun t => !(s.ctl.tile t).run && !(s.ctl.tile t).putting) then
        s.onCtl (fun c =>
          let c := c.putInst queue.val { x with info := c.exitCode p }
          c.stopPlace p stOK dNONE)
      else s
    | none => s)

/-- LAUNCH_TIMEOUT (R282). -/
def execLaunchTimeout (queue : Fin 16384) (index : BitVec 32) (s : State) : Host.Outcome State Fault Refusal :=
  done (match s.ctl.launched? queue.val index.toNat with
    | some (x, p) => if s.ctl.waitLimit queue.val x ≤ s.ctl.now - x.since then s.onCtl (·.stopPlace p stTIMEOUT dNONE) else s
    | none => s)

/-! ### PACK and UNPACK (R283, R392, R393) -/

def packType (dt : Nat) : Bool := 1 ≤ dt && dt ≤ 4

def cleanPack (pack : Bool) : List (List Byte → List Byte) :=
  [fixCode 0 1 packType 1, fun p => if pack then fix 1 1 (fun v => clampNat 4 64 (v / 4 * 4)) p else p, fixZero 2 2,
   fixRange 4 4 1 (2 ^ 24), fixAddr 8, fixAddr 16, fixZero 32 16]

/-- Tiles of a bay's allocation that no placement holds and that are not being cleared. -/
def Ctl.freeTiles (c : Ctl) (bay : Nat) : List Nat :=
  (c.bayTiles bay).filter (fun l => !c.isClearing l && c.tileIn (c.physOf l) && (c.holders l).isEmpty)

/-- The blocks that fit: their bytes one after another while they end within `room`. -/
def fitBlocks : List (List Byte) → Nat → List (List Byte)
  | [], _ => []
  | b :: t, room => if b.length ≤ room then b :: fitBlocks t (room - b.length) else []

/-- Offsets of consecutive blocks in units of 64 bytes. -/
def blockOffs : List (List Byte) → Nat → List Nat
  | [], _ => []
  | b :: t, o => o / 64 :: blockOffs t (o + b.length)

/-- PACK. -/
def actPack (q : Nat) (x : QInst) : Act QInst := do
  let (bay, ep) := (← Act.ctl).queCtx q
  let p ← Act.cleanParam q 48 x (cleanPack true)
  let c ← Act.ctl
  if (c.freeTiles bay).isEmpty then Act.stop stBUSY 0x37
  let dt := leAt p 0 1
  let n := leAt p 4 4
  let w := patWidth dt / 8
  let dst := leAt p 16 8
  let prot := match c.extCover bay (BitVec.ofNat 64 dst) 1 with | some i => (c.ext i).prot | none => false
  if prot then Act.flag crCLAMPED
  let head := (streamHeader dt 0 n []).length
  let mut blocks : List (List Byte) := []
  for k in List.range n do
    let b ← Act.read bay ep (addrPlus (leAt p 8 8) (k * 16384 * w)) (16384 * w) rightR
    blocks := blocks ++ [packBlock dt (leAt p 1 1) prot ((chunksOf w 16385 b).map leNat)]
  let room := leAt p 24 8 - head
  let fit := if leAt p 24 8 < head then [] else fitBlocks blocks room
  if fit.length < n then Act.flag crCLAMPED
  let data := if leAt p 24 8 < head then [] else streamHeader dt fit.length n (blockOffs fit head) ++ fit.flatten
  Act.write bay ep dst data
  let raws := (fit.filter (fun b => leAt b 0 1 == 0)).length
  Act.tally (Reg.patCtr 1) fit.length
  Act.tally (Reg.patCtr 2) raws
  return { x with count := data.length, info := raws }.ok

def execPack (queue : Fin 16384) (index : BitVec 32) (s : State) : Host.Outcome State Fault Refusal :=
  done (s.startInst queue.val index.toNat 0x58 (actPack queue.val))

/-- An UNPACK ends once no block waits for its recheck: POISONED where a block was malformed (R283, R391). -/
def QInst.unpackDone (x : QInst) : QInst :=
  if x.held ≠ 0 || !x.todo.isEmpty then x
  else if x.data.get 0 [] = [] then x.ok else x.finish stPOISONED dNONE

/-- UNPACK: the stream's blocks are expanded and written, sampled ones once their recheck releases them (R395). -/
def actUnpack (q : Nat) (x : QInst) : Act QInst := do
  let (bay, ep) := (← Act.ctl).queCtx q
  Act.onCtl (fun c => { c with rechecks := c.rechecks.filter (fun (r : Recheck) =>
    !(r.kind == .patternBlock && r.owner == x.serial && !r.outs.isEmpty)) })
  let p ← Act.cleanParam q 48 x (cleanPack false)
  let dt := leAt p 0 1
  let w := patWidth dt / 8
  let src := leAt p 8 8
  let hd ← Act.read bay ep src 64 rightR
  let n := min (leAt p 4 4) (leAt hd 0 4)
  let cap := leAt p 24 8 / (16384 * w)
  if cap < n then Act.flag crCLAMPED
  let n := min n cap
  let mut y : QInst := { x with phase := .running, count := 0 }
  for k in List.range n do
    let ob ← Act.read bay ep (addrPlus src (64 + 4 * k)) 4 rightR
    let at_ := addrPlus src (64 * leNat ob)
    let bh ← Act.read bay ep at_ 64 rightR
    let b ← Act.read bay ep at_ (max 64 (min (leAt bh 4 4) (2 ^ 21))) rightR
    let els := if leAt hd 4 1 = dt then expandBlock dt b else none
    Act.tally (Reg.patCtr 0) 1
    Act.tally (Reg.patCtr 4) b.length
    Act.tally (Reg.patCtr 5) (16384 * w)
    if els.isNone then
      Act.tally (Reg.patCtr 3) 1
      y := { y with data := y.data.put 0 [1] }
    let out : OutWrite :=
      { ep := ep, addr := addrPlus (leAt p 16 8) (k * 16384 * w), data := (els.getD (List.replicate 16384 0)).flatMap (leBytes w) }
    let held ← (do
      match (← Act.ctl).pickUnit .tile q x.index k with
      | none => return none
      | some u =>
        Act.onCtl (·.tallyUp (64 + u / 136))
        return (← Act.sample .patternBlock u).map (fun item => (item, u)))
    match held with
    | some (item, u) =>
      let r : Recheck :=
        { item := item, kind := .patternBlock, first := u, owner := x.serial, queue := q, piece := k, bay := bay, flags := 0, outs := [out],
          rows := [], nans := 0 }
      Act.onCtl (fun c => { c with rechecks := c.rechecks ++ [r] })
      y := { y with held := y.held + 1 }
    | none =>
      Act.write bay ep out.addr out.data
      y := { y with count := y.count + 1 }
  return y.unpackDone

def execUnpack (queue : Fin 16384) (index : BitVec 32) (s : State) : Host.Outcome State Fault Refusal :=
  done (s.startInst queue.val index.toNat 0x59 (actUnpack queue.val))

/-! ### SELFTEST (R284) -/

def cleanSelftest : List (List Byte → List Byte) :=
  [fixCode 0 1 (· ≤ 2) 0, fixCode 1 1 (· ≤ 1) 0, fun p => if leAt p 1 1 = 0 then fixRange 2 2 1 272 p else p, fixZero 4 4,
   fun p => if leAt p 1 1 = 0 then fixAddr 8 p else p, fixZero 16 16]

/-- A list entry made legal: bit 15 the die, bits 7:0 an index of at most 127; its logical tile. -/
def testEntry (v : Nat) : Nat := field v 15 1 * 128 + min 127 (field v 0 8)

/-- SELFTEST: the tiles are recorded for the bay's next shakeout. -/
def actSelftest (q : Nat) (x : QInst) : Act QInst := do
  let (bay, ep) := (← Act.ctl).queCtx q
  let p ← Act.cleanParam q 32 x cleanSelftest
  let own := (← Act.ctl).bayTiles bay
  let tiles ← if leAt p 1 1 = 1 then pure own else do
    let b ← Act.read bay ep (leAt p 8 8) (2 * leAt p 2 2) rightR
    let vs := (chunksOf 2 (b.length + 1) b).map leNat
    if vs.any (fun v => field v 8 7 != 0 || 127 < field v 0 8) then Act.flag crCLAMPED
    pure (vs.map testEntry)
  if tiles.any (fun l => !own.contains l) then Act.stop stACCESS 0x3A
  let ts := insertAll [] tiles
  Act.onCtl (fun c =>
    let b := c.bay bay
    c.putBay bay { b with tests := b.tests.filter (fun e => !ts.contains e.1) ++ ts.map (fun l => (l, leAt p 0 1)) })
  return { x with count := ts.length }.finish stOK 0x3B

def execSelftest (queue : Fin 16384) (index : BitVec 32) (s : State) : Host.Outcome State Fault Refusal :=
  done (s.startInst queue.val index.toNat 0x60 (actSelftest queue.val))

/-! ### Tiles leaving service, remapping, ownership (R371, R372) -/

/-- TILE_FAIL: a tile leaves service as failed or quarantined; a LAUNCH that uses it ends POISONED. -/
def Ctl.tileOut (c : Ctl) (t : Nat) (failed : Bool) : Ctl :=
  let u := c.unit .tile t
  if u.st ≠ .inService then c
  else
    let c := if failed then c.putUnit .tile t { u with st := .failed } else c.quarantine .tile t
    match c.runner? t with
    | some p => c.stopPlace p stPOISONED dNONE
    | none => c

def execTileFail (tile : Fin 272) (failed : Bool) (s : State) : Host.Outcome State Fault Refusal :=
  done (s.whenMain (·.tileOut tile.val failed))

/-- The physical tiles of a column that can serve, in ascending row order (R370). -/
def Ctl.columnTiles (c : Ctl) (die col : Nat) : List Nat :=
  ((List.range 17).map (fun r => 136 * die + 8 * r + col)).filter (fun t =>
    (c.unit .tile t).st == .inService || (c.unit .tile t).st == .spare)

/-- Remap a column (R371): placements that hold a changed tile are unbound, tiles with a new role are cleared. -/
def Ctl.remapColumn (c : Ctl) (die col : Nat) : Ctl :=
  let ts := c.columnTiles die col
  let c := (List.range 16).foldl (fun (d : Ctl) (y : Nat) =>
    let l := 128 * die + 8 * y + col
    let new := ts.getD y absentTile
    if d.physOf l = new then d
    else
      let d := (d.holders l).foldl (fun d p => d.unbind p) d
      let d := d.putPhys l new
      if new = absentTile then (d.wr (Reg.trsAssigned l) 0).wr (Reg.trsOwner l) 0
      else
        let u : UnitRec := d.unit .tile new
        let d : Ctl := if u.st = .spare then (d.putUnit .tile new { u with st := .inService }).enqueue (rep 0x0D 0x15 new) else d
        { d with clearing := d.clearing ++ [{ tile := l, own := none }] }) c
  (c.bump (Reg.trsCtr 3)).event evTileRemap [die, col]

/-- COLUMN_REMAP: once no running placement holds a logical tile at or above the failed row. -/
def execColumnRemap (die : Fin 2) (column : Fin 8) (s : State) : Host.Outcome State Fault Refusal :=
  done (s.whenMain (fun c =>
    match c.failedRow die.val column.val with
    | none => c
    | some y =>
      let busy := c.places.any (fun (p : Place) => p.launch.isSome
        && p.logical.any (fun l => l / 128 == die.val && l % 8 == column.val && y ≤ l % 128 / 8))
      if busy then c else c.remapColumn die.val column.val))

/-- A write to TRS_OWN (R372, Table 15.10). -/
def Ctl.writeOwn (c : Ctl) (l : Nat) (v : Word) : Ctl :=
  let new := field v.toNat 0 13
  let old := field (c.reg (0x0C001000 + 8 * l)).toNat 0 13
  if new = old && !c.isClearing l then c
  else if (c.holders l).any (fun (p : Place) => p.launch.isSome) || (bitOf new 12 && c.physOf l == absentTile) then c.refuse Reg.trsOwnRefused
  else
    let c := (c.holders l).foldl (fun d p => d.unbind p) c
    { c with clearing := c.clearing.filter (fun (x : Clearing) => x.tile != l) ++ [{ tile := l, own := some (BitVec.ofNat 64 new) }] }

def execTrsOwnWrite (tile : Fin 256) (v : Word) (s : State) : Host.Outcome State Fault Refusal :=
  done (s.whenMain (·.writeOwn tile.val v))

/-- TILE_CLEARED (R372): the tile's contents are gone and the new owner applies, once no test runs on it (R428). -/
def execTileCleared (tile : Fin 256) (s : State) : Host.Outcome State Fault Refusal :=
  done (if s.ctl.underTest tile.val then s else match s.ctl.clearing.find? (fun (x : Clearing) => x.tile == tile.val) with
    | none => s
    | some x =>
      let p := s.ctl.physOf tile.val
      let s := if p = absentTile then s else s.clearTile p
      s.onCtl (fun c =>
        let c := { c with clearing := c.clearing.filter (fun (y : Clearing) => y.tile != tile.val) }
        match x.own with
        | some v => c.putReg (0x0C001000 + 8 * tile.val) v
        | none => c))

end Sys2Proof.Machine
end

