-- ==== Sys2Proof/Machine/Boot.lean ====
section
/-! DEFINITION. The boot ROM, the recovery path, soft repair, the quick boot check, the end of a management reset (spec/02
Table 2.5, spec/17 §17.3, spec/19 R475, R484, R488). -/

namespace Sys2Proof.Machine

/-! ### Firmware images (Table 17.5, R431) -/

def imgSvn (img : List Byte) : Nat := leAt img 6 1
def imgSlot (img : List Byte) : Nat := leAt img 7 1
def imgKey (img : List Byte) : List Byte := slice img 64 1952
def imgBody (img : List Byte) : List Byte := slice img 5376 (leAt img 8 8 % 2 ^ 32)

/-- A key slot that may sign: slot 0 until it is revoked, slot 1 once it is burnt (R432). -/
def Fuses.slotLive (fu : Fuses) (k : Nat) : Bool := if k = 0 then !fu.slot0Revoked else k = 1 && fu.slot0Revoked

/-- The five checks of R431, in their order. -/
def imageOk (fu : Fuses) (img : List Byte) : Bool :=
  leAt img 0 4 = 0x4A524E46 && leAt img 4 2 = 1
  && (fu.slotLive (imgSlot img) && sha384 (imgKey img) == Config.fusedKeyHash (imgSlot img))
  && Config.mldsaVerify (imgKey img) (slice img 0 2016) (slice img 2016 3309)
  && (leAt img 8 8 + 5376 ≤ img.length && sha3 (imgBody img) == slice img 16 48)
  && fu.svn ≤ imgSvn img

/-- An image is refused: counted and logged (Table 17.10, Table 18.3 class 0x1D). -/
def Ctl.imageRefused (c : Ctl) : Ctl := (c.bump (Reg.secCtr 3)).report (repInfo 0x11 0x1D 0 1)

/-- An image that passed starts: the cores run it and SEC_STATUS describes it (Table 17.7, R473). -/
def Ctl.startImage (c : Ctl) (img : List Byte) (recovered : Bool) : Ctl :=
  let c := { c with fw := img, staging := { c.staging with recovery := [], recovering := false } }
  let c := (((c.wr Reg.secBootOk 1).wr Reg.secRecovery (b2n recovered)).wr Reg.secKeySlot (imgSlot img)).wr Reg.secSvnImage (imgSvn img)
  let c := c.wr Reg.coresUp 0xF
  if c.rd Reg.glbState = 0 then c.waitIfManual else c

/-! ### Control ports -/

def Ctl.netOf (c : Ctl) (p : Nat) : NetCfg := c.net.getD p (NetCfg.init (Fin.ofNat 2 p))

/-- The settings of a port come into force (Table 19.11). -/
def Ctl.applyNet (c : Ctl) (p : Nat) (n : NetCfg) : Ctl :=
  let c := { c with net := setAt c.net p n }
  let c := ((c.wr (Reg.ctlIp4 p) (b2n (n.ip4 != 0))).wr (Reg.ctlIp6 p) (b2n (n.ip6 != 0))).wr (Reg.ctlVid p) n.vid.toNat
  (c.wr (Reg.ctlPcp p) n.pcp.toNat).wr (Reg.ctlJmpPort p) n.jmpPort.toNat

/-- A control port that is not UP trains and comes UP with the settings in flash (Table 2.5 step 2, Table 19.2 NETCFG). -/
def Ctl.ctlUp (c : Ctl) (p : Nat) : Ctl :=
  if c.ctlIsUp p then c else (c.applyNet p (c.flash.net.getD p (NetCfg.init (Fin.ofNat 2 p)))).wr (Reg.ctlState p) 3

/-! ### BOOT_VERIFY -/

/-- The ROM takes the recovery path (R484). -/
def Ctl.recover (c : Ctl) : Ctl :=
  ({ c with staging := { c.staging with recovery := [], recovering := true, beaconAt := c.now } }.wr Reg.secBootOk 0).wr Reg.secRecovery 0

/-- The ROM locks the root PLL, brings up the control ports and checks the image in flash (R431). -/
def Ctl.bootVerify (c : Ctl) : Ctl :=
  if c.pwr.auxGood && !c.pwr.resetLow && !c.pwr.coreLost && c.rd Reg.coresUp = 0 then
    let c := (c.wr Reg.rootLock 1).wr Reg.coreRefOk (if bitOf c.pwr.freqBad.toNat 0 then 0 else 1)
    let c := (c.ctlUp 0).ctlUp 1
    match c.flash.image with
    | none => c.recover
    | some img => if imageOk c.fuses img then c.startImage img false else c.imageRefused.recover
  else c

def execBootVerify (s : State) : Host.Outcome State Fault Refusal := done (s.onCtl (·.bootVerify))

/-! ### Recovery (R484) -/

/-- The servers that a port's beacon goes to: those of its settings, else the broadcast addresses. IPv4 addresses are written
as IPv4-mapped ones. -/
def netServers (n : NetCfg) : List (BitVec 128) :=
  let v4 (x : Nat) : BitVec 128 := BitVec.ofNat 128 (0xFFFF * 2 ^ 32 + x)
  let l := (if n.server4 = 0 then [] else [v4 n.server4.toNat]) ++ (if n.server6 = 0 then [] else [n.server6])
  if l.isEmpty then [v4 0xFFFFFFFF, BitVec.ofNat 128 (0xFF02 * 2 ^ 112 + 1)] else l

/-- The 64-byte beacon: GLB_ID, the hardware revision, SVN_FUSED and KEY_SLOT, one word each, then zeros. -/
def Ctl.beaconBody (c : Ctl) : List Word :=
  [c.reg 0x00, c.reg 0x08, BitVec.ofNat 64 c.fuses.svn, BitVec.ofNat 64 (c.rd Reg.secKeySlot), 0, 0, 0, 0]

/-- A beacon every 1 s. -/
def Ctl.beacon (c : Ctl) : Ctl :=
  if c.staging.recovering && c.staging.beaconAt + 100000000 ≤ c.now then
    let c := { c with staging := { c.staging with beaconAt := c.now } }
    ([0, 1].filter c.ctlIsUp).foldl (fun (d : Ctl) p => (netServers (d.netOf p)).foldl (fun d a => d.emit (.beacon p a d.beaconBody)) d) c
  else c

def execRecoveryBeacon (s : State) : Host.Outcome State Fault Refusal := done (s.onCtl (·.beacon))

/-- Bytes written into a staging area. -/
def stageBytes (t : Tab Byte) (off : Nat) (data : List Byte) : Tab Byte :=
  data.zipIdx.foldl (fun (t : Tab Byte) (b : Byte × Nat) => Tab.put t (off + b.2) b.1) t

/-- The first n bytes of a staging area. -/
def stagedImage (t : Tab Byte) (n : Nat) : List Byte := (List.range n).map (fun i => Tab.get t i 0)

/-- The length of what a staging area holds. -/
def stagedLen (t : Tab Byte) : Nat := match t.getLast? with | some e => e.1 + 1 | none => 0

/-- A fragment of the recovery image, at most 32 MiB; after the last one the image is checked, written to flash and started, or
discarded. -/
def Ctl.recoveryImage (c : Ctl) (off : Nat) (data : List Byte) (last : Bool) : Ctl :=
  if !c.staging.recovering || c.rd Reg.coresUp ≠ 0 || 2 ^ 25 < off + data.length then c
  else
    let t := stageBytes c.staging.recovery off data
    let c := { c with staging := { c.staging with recovery := t } }
    if !last then c
    else
      let img := stagedImage t (stagedLen t)
      if imageOk c.fuses img then { c with flash := { c.flash with image := some img } }.startImage img true
      else { c.imageRefused with staging := { c.staging with recovery := [] } }

def execRecoveryImage (off : Nat) (data : List Byte) (last : Bool) (s : State) : Host.Outcome State Fault Refusal :=
  done (s.onCtl (·.recoveryImage off data last))

/-! ### The end of a management reset (R475) -/

/-- Every open probe window restarts with its full length. -/
def Ctl.restartWindows (c : Ctl) : Ctl :=
  { c with eps := Tab.map c.eps (fun _ (x : Endpoint) => if x.winAt.isSome then { x with winAt := some c.now } else x) }

/-- The ROM starts the image of flash (R483), windows restart, posts that waited are acknowledged RESTARTED (R418). With no
valid image the data plane runs on from its tables (R484). -/
def Ctl.mgmtEnd (c : Ctl) : Ctl :=
  if !c.pwr.mgmtReset then c
  else
    let c := c.bootVerify
    if c.rd Reg.coresUp = 0 then c
    else ({ c with pwr := { c.pwr with mgmtReset := false } }.restartWindows).restartPosts

def execMgmtResetEnd (s : State) : Host.Outcome State Fault Refusal := done (s.onCtl (·.mgmtEnd))

/-! ### Soft repair and the quick boot check (R43, R371, R488, Table 2.5 steps 6 and 7) -/

/-- A unit is FAILED. -/
def Ctl.failUnit (c : Ctl) (k : UnitKind) (n : Nat) : Ctl := c.putUnit k n { c.unit k n with st := .failed }

/-- The block of a kind of unit (Table 18.2). -/
def kindBlock : UnitKind → Nat
  | .tile => 0x0D | .crucible => 0x09 | .cupola => 0x0C | .runner => 0x0A | .riddle => 0x0B

/-- A spare enters service. -/
def Ctl.spareIn (c : Ctl) (k : UnitKind) (n : Nat) : Ctl :=
  (c.putUnit k n { c.unit k n with st := .inService }).enqueue (rep (kindBlock k) 0x15 n)

/-- The lowest-numbered spare of a list of units. -/
def Ctl.spareOf (c : Ctl) (k : UnitKind) (l : List Nat) : Option Nat := l.find? (fun i => (c.unit k i).st == .spare)

/-- The lowest spare Crucible joins while fewer than 128 are in service (R469). -/
def Ctl.fillCrucible (c : Ctl) : Ctl :=
  if (c.inService .crucible).length < 128 then
    match c.spareOf .crucible (List.range 136) with
    | some i => c.spareIn .crucible i
    | none => c
  else c

/-- A spare Cupola joins, of the die that misses one first (Table 18.7). -/
def Ctl.fillCupola (c : Ctl) : Ctl :=
  let missing (d : Nat) : Nat := 16 - ((List.range 17).filter (fun i => (c.unit .cupola (17 * d + i)).st == .inService)).length
  if (c.inService .cupola).length < 32 then
    let d := if missing 0 = 0 then 1 else 0
    match c.spareOf .cupola ((List.range 34).map (fun i => (i + 17 * d) % 34)) with
    | some i => c.spareIn .cupola i
    | none => c
  else c

/-- The mapping of a column as the soft repair makes it: its first 16 tiles that can serve, the next one a spare (R370). -/
def Ctl.buildColumn (c : Ctl) (die col : Nat) : Ctl :=
  let ts := c.columnTiles die col
  let c := (List.range 16).foldl (fun (d : Ctl) y => d.putPhys (128 * die + 8 * y + col) (ts.getD y absentTile)) c
  ts.zipIdx.foldl (fun (d : Ctl) t =>
    if t.2 < 16 then (if (d.unit .tile t.1).st = .spare then d.spareIn .tile t.1 else d)
    else d.putUnit .tile t.1 { d.unit .tile t.1 with st := .spare }) c

/-- Spares take the places of the units out of service. -/
def Ctl.fillSpares (c : Ctl) : Ctl :=
  let c := (List.range 8).foldl (fun (d : Ctl) _ => d.fillCrucible) c
  let c := (List.range 2).foldl (fun (d : Ctl) _ => d.fillCupola) c
  (List.range 16).foldl (fun (d : Ctl) i => d.buildColumn (i / 8) (i % 8)) c

/-- Cells leave Flask's shared pool. -/
def Ctl.flaskLess (c : Ctl) (n : Nat) : Ctl := let c := c.wr Reg.freeCells (c.freeF - n); c.wr Reg.minFree (min (c.rd Reg.minFree) c.freeF)

/-- Step 6: the repair map of flash is applied. -/
def Ctl.softRepair (c : Ctl) : Ctl :=
  if c.rd Reg.glbState = 1 && c.rd Reg.glbStep = 5 && c.rd Reg.mainGood = 1 && c.rd Reg.coresUp ≠ 0 then
    let m := c.flash.map
    let c := m.failed.foldl (fun (d : Ctl) u => d.failUnit u.1 u.2) c
    (c.fillSpares.flaskLess m.flaskCells).glb 1 6
  else c

def execSoftRepair (s : State) : Host.Outcome State Fault Refusal := done (s.onCtl (·.softRepair))

/-- What the SG7 does about one finding of the quick boot check: it is logged, and what is taken out is listed. -/
def Ctl.bootFault (c : Ctl) : BootFault → Ctl
  | .sramRepaired _ => c.report (rep 0x00 0x02 0)
  | .unitFailed k n => if n < unitCount k then ((c.failUnit k n).report (rep (kindBlock k) 0x02 n)).reduce (kindBlock k) n else c
  | .flaskCells n => ((c.flaskLess n).report (rep 0x02 0x02 0)).reduce 0x02 0
  | .cacheLines _ => (c.report (rep 0x04 0x02 0)).reduce 0x04 0
  | .moduleFault => (c.report (rep 0x00 0x02 0)).moduleReplace

/-- Step 7. -/
def Ctl.bootCheck (c : Ctl) (found : List BootFault) : Ctl :=
  if c.rd Reg.glbState = 1 && c.rd Reg.glbStep = 6 then
    ((found.foldl Ctl.bootFault c).fillSpares).glb 1 7
  else c

def execQuickBootCheck (found : List BootFault) (s : State) : Host.Outcome State Fault Refusal := done (s.onCtl (·.bootCheck found))

end Sys2Proof.Machine
end

