-- ==== Sys2Proof/Machine/Tiers.lean ====
section
/-! DEFINITION. The rows of the memory tiers (spec/08): regions, migration, zeroing, loss and rebuild, scrub, evacuation and
restoration of stacks and channels. -/

namespace Sys2Proof.Machine

/-! ### TIR_REGION (Table 8.9, R229) -/

/-- Write word w of a region. While VALID is 1 only a write of 0 to VALID counts; LEN is clamped; setting VALID starts at
version 0. -/
def Ctl.writeRegion (c : Ctl) (r w : Nat) (v : Word) : Ctl :=
  if c.rd (Reg.regionValid r) = 1 then
    if w = 2 && !bitOf v.toNat 63 then c.wr (Reg.regionValid r) 0 else c
  else if w < 2 then c.putReg (Reg.regionWord r w) (BitVec.ofNat 64 (v.toNat / 65536 * 65536))
  else
    let c := (c.wr (Reg.regionBay r) (field v.toNat 0 12)).wr (Reg.regionLen r) (clampNat 1 1048575 (field v.toNat 12 20))
    if bitOf v.toNat 63 then (c.wr (Reg.regionValid r) 1).wr (Reg.regionVersion r) 0 else c

def execTirRegionWrite (region : Fin 65536) (word : Fin 3) (v : Word) (s : State) : Host.Outcome State Fault Refusal :=
  done (s.whenMain (·.writeRegion region.val word.val v))

/-! ### Evacuation: what lies on a unit -/

/-- Whether a key lies on a memory unit: its stack, or a frame whose MASK has the channel. -/
def Ctl.onUnit (c : Ctl) (u : MemUnit) (k : Nat) : Bool :=
  match u with
  | .hbm s => k < 2 ^ 44 && k / 2 ^ 36 == s.val
  | .ddr x => 2 ^ 44 ≤ k && k < 2 ^ 58 && bitOf (c.frameMask ((k - 2 ^ 44) / 2 ^ 20)).toNat x.val

/-- Whether a location lies on keys that satisfy p. -/
def Ctl.locOn (c : Ctl) (p : Nat → Bool) (l : Loc) : Bool := match c.locKey l with | some k => p k | none => false

/-- The pages whose place satisfies p, in rising order: flat pages, then KV pages. -/
def Ctl.pagesOn (c : Ctl) (p : Nat → Bool) : List PageRef :=
  (c.tier.filter (fun (e : Nat × PageEntry) => c.locOn p e.2.loc)).map
    (fun e => PageRef.flat (Fin.ofNat 4096 (e.1 / 2 ^ 36)) (BitVec.ofNat 36 (e.1 % 2 ^ 36)))
  ++ (c.kvPages.filter (fun (e : Nat × KvPage) => (e.2.keys ++ e.2.alt).any p)).map (fun e => PageRef.kv e.1)

/-- A slot of a frame that uses every ONLINE channel (REBALANCE). -/
def Ctl.ddrFull (c : Ctl) : Option (Nat × Nat) :=
  let n := c.phys.used.length + c.phys.dirty.length + c.phys.frames.length + 1
  (List.range n).findSome? (fun j =>
    let m := c.frameMask j
    let s := lowestFree (c.frameTaken j) 0
    if m != 0 && m &&& c.onlineMask == c.onlineMask && j < c.frameLimit m && s < popCount 12 m.toNat then some (j, s) else none)

/-- The kind of a migration: caused by a hint; off a stack; off a channel; by REBALANCE. -/
inductive MigKind where
  | hint | stack | channel | rebalance
  deriving DecidableEq, Repr

/-- Whether keys lie in a frame without some ONLINE channel. -/
def Ctl.narrowFrame (c : Ctl) (k : Nat) : Bool :=
  2 ^ 44 ≤ k && k < 2 ^ 58 && (c.frameMask ((k - 2 ^ 44) / 2 ^ 20)) &&& c.onlineMask != c.onlineMask

/-- A key on a stack that is EVACUATING. -/
def Ctl.leavingStack (c : Ctl) (k : Nat) : Bool := k < 2 ^ 44 && c.rd (Reg.hbmState (k / 2 ^ 36)) == 2

/-- A key in a frame of the channel that is being evacuated. -/
def Ctl.leavingChannel (c : Ctl) (k : Nat) : Bool :=
  match c.phys.evac with | some x => c.onUnit (.ddr x) k | none => false

/-- Why a queued migration of a page at a key moves it. -/
def Ctl.migKind (c : Ctl) (m : Mig) (k : Nat) : MigKind :=
  if !m.urgent then .hint
  else if c.leavingStack k then .stack
  else if c.leavingChannel k then .channel
  else .rebalance

/-- Failure units that a flat page must avoid: those of its other copies (R220). -/
def Ctl.copyUnits (c : Ctl) (bay p : Nat) (own : Loc) : List Nat :=
  match c.pageRedun bay p, c.pageExt bay p with
  | 1, _ => let pg := c.page bay p; [c.locUnit (if pg.loc = own then pg.alt else pg.loc)]
  | 2, some ei => (c.groupUnits ei p).filter (· != c.locUnit own)
  | _, _ => []

/-- Choose a flat page's new place. The page does not count twice against its bay's quota. -/
def Ctl.flatDest (c : Ctl) (bay p : Nat) (m : MigKind) (target : Tier) (own : Loc) : Option (Loc × Ctl) :=
  let ban := c.copyUnits bay p own
  let d := c.uncharge bay own.tier 1
  let r : Option (Loc × Ctl) := match m with
    | .hint => if d.quotaOk bay target 1 then (d.pickIn bay ban target).map (fun e => (e.1, (e.2.take e.1).charge bay target 1)) else none
    | .stack => d.allocLoc bay (hintTier (d.page bay p).hint.toNat) ban true
    | .channel => (d.ddrPick.map (fun e => ({ tier := Tier.ddr, a := e.1, b := e.2 } : Loc))).map (fun l => (l, (d.take l).charge bay .ddr 1))
    | .rebalance => (d.ddrFull.map (fun e => ({ tier := Tier.ddr, a := e.1, b := e.2 } : Loc))).map (fun l => (l, (d.take l).charge bay .ddr 1))
  r.map (fun e => (e.1, e.2.charge bay own.tier 1))

/-- Choose a KV page's new keys, outside the units of its other copy. -/
def Ctl.kvDest (c : Ctl) (pg : KvPage) (m : MigKind) (other : List Nat) : Option (Tier × List Nat × Ctl) :=
  let n := pieces64 pg.size
  let ban := other.map keyUnit
  let tiers := match m with | .stack => [Tier.hbm, .ddr, .pool] | _ => [Tier.ddr]
  let fits (ks : List Nat) : Bool := match m with | .rebalance => !ks.any c.narrowFrame | _ => true
  (tiers.findSome? (fun t => ((c.kvPick pg.charged pg.region 0 n ban t).filter fits).map (fun ks => (t, ks)))).map
    (fun (e : Tier × List Nat) => (e.1, e.2, c.takeKeys pg.charged e.1 e.2))

/-- Pages still to migrate off the unit of a command. -/
def Ctl.evacLeft (c : Ctl) (p : Nat → Bool) : Nat :=
  (c.tier.filter (fun (e : Nat × PageEntry) => c.locOn p e.2.loc)).length
  + ((c.kvPages.filter (fun (e : Nat × KvPage) => (e.2.keys ++ e.2.alt).any p)).map (fun (e : Nat × KvPage) => pieces64 e.2.size)).sum

/-- Forget the MASK of frames that hold nothing (R226). -/
def Ctl.freeFrames (c : Ctl) : Ctl :=
  let busy (j : Nat) : Bool := !(c.frameTaken j).isEmpty
  { c with phys := { c.phys with frames := c.phys.frames.filter (fun (e : Nat × BitVec 12) => busy e.1) } }

/-- A command on a stack ends. -/
def Ctl.hbmEnd (c : Ctl) (err : Nat) : Ctl := ((c.wr Reg.hbmBusy 0).wr Reg.hbmErr err).wr Reg.hbmLeft 0
/-- A command on a channel ends. -/
def Ctl.ddrEnd (c : Ctl) (err : Nat) : Ctl := ((c.wr Reg.ddrBusy 0).wr Reg.ddrErr err).wr Reg.ddrLeft 0

/-- Follow an evacuation or rebalance: PAGES_LEFT, and the end of the command (R224, R226). -/
def Ctl.evacuated (c : Ctl) : Ctl :=
  let c := c.freeFrames
  let c := (List.range 8).foldl (fun (d : Ctl) s =>
    if d.rd (Reg.hbmState s) = 2 then
      let d := d.wr Reg.hbmLeft (d.evacLeft (d.onUnit (.hbm (Fin.ofNat 8 s))))
      if d.phys.used.any (d.onUnit (.hbm (Fin.ofNat 8 s))) then d else (d.wr (Reg.hbmState s) 0).hbmEnd 0
    else d) c
  match c.phys.evac with
  | some x =>
    let c := c.wr Reg.ddrLeft (c.evacLeft (c.onUnit (.ddr x)))
    if c.phys.used.any (c.onUnit (.ddr x)) then c
    else
      let c := { c with phys := { c.phys with evac := none } }
      ((c.wr (Reg.ddrState x.val) 0).ddrEnd 0).emit (.slotPower x.val false)
  | none =>
    if c.rd Reg.ddrBusy = 1 && c.phys.restoring.isNone then
      let c := c.wr Reg.ddrLeft (c.evacLeft c.narrowFrame)
      if c.phys.used.any c.narrowFrame then c else c.ddrEnd 0
    else c

/-! ### Migration (R206-R208) -/

/-- Begin the migration of a flat page: none where it cannot start now. -/
def Ctl.startFlat (c : Ctl) (m : Mig) (bay p : Nat) : Option Ctl :=
  let pg := c.page bay p
  let kind := match c.locKey pg.loc with | some k => c.migKind m k | none => .hint
  (c.flatDest bay p kind m.target pg.loc).map (fun e =>
    e.2.putPage bay p { e.2.page bay p with migrating := true, dest := e.1, copied := 0 })

/-- Begin the migration of a KV page: of its first copy, or of its second when that one has to move. -/
def Ctl.startKv (c : Ctl) (m : Mig) (r : Nat) (pg : KvPage) : Option Ctl :=
  let moves (ks : List Nat) : Bool := ks.any (fun k => c.leavingStack k || c.leavingChannel k || c.narrowFrame k)
  let pg := if moves pg.keys || pg.alt.isEmpty then pg else { pg with keys := pg.alt, tier := pg.altTier, alt := pg.keys, altTier := pg.tier }
  (c.kvDest pg (c.migKind m (pg.keys.headD 0)) pg.alt).map (fun e =>
    e.2.2.putKvPage r { pg with migrating := true, destTier := e.1, dest := e.2.1, copied := 0 })

/-- Migrations that run. -/
def Ctl.migsRunning (c : Ctl) : Nat :=
  (c.tier.filter (fun (e : Nat × PageEntry) => e.2.migrating)).length + (c.kvPages.filter (fun (e : Nat × KvPage) => e.2.migrating)).length

/-- Take the next migration that can start from the queue (R206 step 1, R210). A page that is degraded waits for its rebuild; a
page that is gone, lost or, for a hint, without room is dropped. -/
def Ctl.migStart (c : Ctl) : List Mig → Ctl
  | [] => c
  | m :: t =>
    let drop (d : Ctl) : Ctl := { d with migQ := d.migQ.erase m }
    if c.refDegraded m.page then c.migStart t
    else
      match m.page with
      | .flat b p =>
        let pg := c.page b.val p.toNat
        if pg.loc.tier = .none || pg.lost || pg.migrating then (drop c).migEnded m.page
        else if pg.dest.tier ≠ .none then c.migStart t
        else if !m.urgent && pg.loc.tier = m.target then (drop c).migEnded m.page
        else
          match c.startFlat m b.val p.toNat with
          | some d => drop d
          | none => if m.urgent then c.migStart t else ((drop c).bump Reg.tirHintSkip).migEnded m.page
      | .kv r =>
        match c.kvPage? r with
        | none => drop c
        | some pg =>
          if pg.migrating then drop c
          else if !pg.dest.isEmpty then c.migStart t
          else match c.startKv m r pg with | some d => drop d | none => c.migStart t

def execMigrationStart (s : State) : Host.Outcome State Fault Refusal :=
  done (s.whenMain (fun c => if c.migsRunning < 256 then (c.migStart c.migQ).evacuated else c))

/-- Copy 512 bytes, with the poison of their blocks (R207). -/
def Mem.copyChunk (m : Mem) (dst src n : Nat) : Mem :=
  let bad := (m.poison.filter (fun b => decide (src ≤ b * 64) && decide (b * 64 < src + n))).map (fun b => (b * 64 - src + dst) / 64)
  let m := (m.copy dst src n).healPoison dst n
  { m with poison := insertAll m.poison bad }

/-- The place of a chunk in a list of 64 KiB pieces. -/
def chunkKey (keys : List Nat) (i : Nat) : Option Nat := (keys[i * 512 / 65536]?).map (· + i * 512 % 65536)

/-- An abandoned move off a unit that is leaving waits again (R224). -/
def Ctl.moveAgain (c : Ctl) (page : PageRef) (t : Tier) (keys : List Nat) : Ctl :=
  if keys.any (fun k => c.leavingStack k || c.leavingChannel k) then c.queueMig { page := page, target := t, urgent := true } else c

/-- One chunk of a flat page's migration: the copy; after the last the switch-over (R206). A failing destination abandons it. -/
def State.chunkFlat (s : State) (bay p : Nat) (fails : Bool) : State :=
  let c := s.ctl
  let pg := c.page bay p
  let page : PageRef := .flat (Fin.ofNat 4096 bay) (BitVec.ofNat 36 p)
  if !pg.migrating then s
  else if fails then s.onCtl (fun c => (c.abandonMig bay p).moveAgain page pg.loc.tier (c.locKey pg.loc).toList)
  else
    match c.locKey pg.dest, c.locKey pg.loc with
    | some d, some k =>
      let m := s.mem.copyChunk (d + pg.copied * 512) (k + pg.copied * 512) 512
      if pg.copied + 1 < 128 then { s with mem := m, ctl := c.putPage bay p { pg with copied := pg.copied + 1 } }
      else
        let c := c.putPage bay p { pg with loc := pg.dest, dest := pg.loc, migrating := false, copied := 0 }
        { s with mem := m, ctl := (c.bump Reg.tirMigDone).migEnded page }
    | _, _ => s

/-- One chunk of a KV page's migration. -/
def State.chunkKv (s : State) (r : Nat) (fails : Bool) : State :=
  match s.ctl.kvPage? r with
  | none => s
  | some pg =>
    if !pg.migrating then s
    else if fails then
      s.onCtl (fun c => (((c.freeKeys pg.charged pg.destTier pg.dest).putKvPage r
        { pg with migrating := false, destTier := .none, dest := [], copied := 0 }).bump Reg.tirMigAbort).moveAgain (.kv r) pg.tier pg.keys)
    else
      match chunkKey pg.dest pg.copied, chunkKey pg.keys pg.copied with
      | some d, some k =>
        let m := s.mem.copyChunk d k 512
        if (pg.copied + 1) * 512 < pg.size then { s with mem := m, ctl := s.ctl.putKvPage r { pg with copied := pg.copied + 1 } }
        else
          let q := { pg with keys := pg.dest, tier := pg.destTier, dest := pg.keys, destTier := pg.tier, migrating := false, copied := 0 }
          { s with mem := m, ctl := (s.ctl.putKvPage r q).bump Reg.tirMigDone }
      | _, _ => s

def execMigrationChunk (page : PageRef) (destFails : Bool) (s : State) : Host.Outcome State Fault Refusal :=
  done (if !s.ctl.mainUp then s
    else match page with
      | .flat b p => (s.chunkFlat b.val p.toNat destFails).onCtl (·.evacuated)
      | .kv r => (s.chunkKv r destFails).onCtl (·.evacuated))

/-- Whether a read of the SG7 is still outstanding at the 64 KiB of a key. -/
def Ctl.readAt (c : Ctl) (k : Nat) : Bool :=
  c.owns.any (fun (o : OwnReq) => match o.why with
    | .read _ _ => keyTray k == some o.ep && (let a := nodeKey o.ep (offsetOf o.frame.addr); decide (k ≤ a) && decide (a < k + 65536))
    | _ => false)

/-- The source of a migration that has switched over is freed (R206 step 5). -/
def Ctl.sourceFree (c : Ctl) (page : PageRef) : Ctl :=
  match page with
  | .flat b p =>
    let pg := c.page b.val p.toNat
    if pg.migrating || pg.dest.tier = .none || (c.locKey pg.dest).any c.readAt then c
    else (c.freeLoc b.val pg.dest).putPage b.val p.toNat { pg with dest := Loc.none }
  | .kv r =>
    match c.kvPage? r with
    | none => c
    | some pg =>
      if pg.migrating || pg.dest.isEmpty || pg.dest.any c.readAt then c
      else
        let d := c.putKvPage r { pg with dest := [], destTier := .none }
        let ks := (pg.dest.map (· / 65536 * 65536)).filter (fun b =>
          d.kvPages.all (fun (x : Nat × KvPage) => (x.2.keys ++ x.2.alt ++ x.2.dest).all (fun k => k / 65536 * 65536 != b)))
        d.freeKeys pg.charged pg.destTier ks

def execSourceFree (page : PageRef) (s : State) : Host.Outcome State Fault Refusal :=
  done (s.whenMain (fun c => (c.sourceFree page).evacuated))

/-! ### Zeroing (R205, R429, R508) -/

/-- Whether the unit that holds a key can be reached. -/
def Ctl.reachable (c : Ctl) (k : Nat) : Bool :=
  if k < 2 ^ 44 then c.rd (Reg.hbmState (k / 2 ^ 36)) != 0
  else match keyTray k with | some t => (c.ep t).live | none => true

/-- Zero 64 KiB at a key. -/
def State.zeroKey (s : State) (k : Nat) : State := { s with mem := (s.mem.clear k 65536).healPoison k 65536 }

/-- The keys of the next pages that a sweep reaches: pages of a stack, or the slots of frames that use a channel. -/
def Ctl.sweepKeys (c : Ctl) (u : MemUnit) (n : Nat) : List Nat :=
  match u with
  | .hbm s => (List.range n).map (fun i => hbmKey s.val (natAt c.phys.sweptHbm s.val + i))
  | .ddr x => (List.range n).flatMap (fun i =>
      let j := natAt c.phys.sweptDdr x.val + i
      (List.range (popCount 12 (c.frameMask j).toNat)).map (fun p => ddrKey j p))

/-- A list of numbers with element i set; shorter lists are filled with 0. -/
def setNat (l : List Nat) (i v : Nat) : List Nat := setAt (l ++ List.replicate (i + 1 - l.length) 0) i v

/-- How many of n pages a sweep still has ahead of it. -/
def Ctl.sweepLeft (c : Ctl) (u : MemUnit) : Nat :=
  match u with
  | .hbm s => if c.rd (Reg.hbmState s.val) = 0 then 0 else 786432 - natAt c.phys.sweptHbm s.val
  | .ddr x => if c.rd (Reg.ddrState x.val) = 0 then 0 else c.rd (Reg.ddrSlots x.val) - natAt c.phys.sweptDdr x.val

/-- Advance a sweep. -/
def Ctl.sweep (c : Ctl) (u : MemUnit) (n : Nat) : Ctl :=
  match u with
  | .hbm s => { c with phys := { c.phys with sweptHbm := setNat c.phys.sweptHbm s.val (natAt c.phys.sweptHbm s.val + n) } }
  | .ddr x => { c with phys := { c.phys with sweptDdr := setNat c.phys.sweptDdr x.val (natAt c.phys.sweptDdr x.val + n) } }

/-- The keys of the next n pages of a backing extent. -/
def Ctl.backingKeys (c : Ctl) (i n : Nat) : List Nat :=
  let e := c.ext i
  (List.range n).map (fun j => nodeKey (nodeOf e.base) (offsetOf e.base + (e.swept + j) * 65536))

/-- Pages of a backing extent not yet zeroed. -/
def Ctl.backingLeft (c : Ctl) (i : Nat) : Nat :=
  let e := c.ext i
  if e.backing && e.st = .active && (c.ep (nodeOf e.base)).live then e.pages - e.swept else 0

/-- Pages have been zeroed and can be allocated (R205, R429). -/
def State.zeroed (s : State) (w : ZeroSel) : State :=
  let c := s.ctl
  match w with
  | .sweep u n => s.onCtl (·.sweep u (min n (c.sweepLeft u)))
  | .backing i n =>
    let n := min n (c.backingLeft i.val)
    let s := (c.backingKeys i.val n).foldl State.zeroKey s
    s.onCtl (fun c => c.putExt i.val { c.ext i.val with swept := (c.ext i.val).swept + n })
  | .page k =>
    if c.phys.dirty.contains k && !c.phys.failedZero.contains k && c.reachable k then
      (s.zeroKey k).onCtl (fun c => { c with phys := { c.phys with dirty := removeNat c.phys.dirty k } }.evacuated)
    else s

def execPageZeroed (what : ZeroSel) (s : State) : Host.Outcome State Fault Refusal := done (if s.ctl.mainUp then s.zeroed what else s)

/-- Keys that stay out of use until their unit returns (R508); their frames keep their MASK. -/
def Ctl.failZero (c : Ctl) (ks : List Nat) : Ctl :=
  let fr := ks.foldl (fun (f : Tab (BitVec 12)) k =>
    let j := (k - 2 ^ 44) / 2 ^ 20
    if 2 ^ 44 ≤ k && k < 2 ^ 58 && (f.find? j).isNone then f.put j c.onlineMask else f) c.phys.frames
  { c with phys := { c.phys with dirty := insertAll c.phys.dirty ks, failedZero := insertAll c.phys.failedZero ks, frames := fr } }

/-- Zeroing fails. -/
def Ctl.zeroFails (c : Ctl) (w : ZeroSel) : Ctl :=
  match w with
  | .sweep u n => let n := min n (c.sweepLeft u); (c.failZero (c.sweepKeys u n)).sweep u n
  | .backing i n =>
    let n := min n (c.backingLeft i.val)
    (c.failZero (c.backingKeys i.val n)).putExt i.val { c.ext i.val with swept := (c.ext i.val).swept + n }
  | .page k => if c.phys.dirty.contains k then c.failZero [k] else c

def execZeroingFail (what : ZeroSel) (s : State) : Host.Outcome State Fault Refusal := done (s.whenMain (·.zeroFails what))

/-! ### Loss and rebuild (R222, R507) -/

/-- Whether neither copy of the reserved areas has a stack that holds it. -/
def Ctl.mapsGone (c : Ctl) : Bool :=
  let gone (x : Option Nat) : Bool := match x with | some s => c.rd (Reg.hbmState s) == 0 | none => true
  gone c.phys.copyA && gone c.phys.copyB

/-- Both copies of the maps are lost with their stacks (R444): every page they cover is set LOST, and the maps begin anew
on the stacks that R507 names. -/
def State.loseMaps (s : State) : State :=
  let s := (List.map (fun (e : Nat × PageEntry) => e.1) s.ctl.tier).foldl (fun (t : State) k => t.setLost (k / 2 ^ 36) (k % 2 ^ 36)) s
  let s := (List.map (fun (e : Nat × KvPage) => e.1) s.ctl.kvPages).foldl (fun (t : State) k => match t.ctl.kvPage? k with
    | some pg => t.setKvLost k pg
    | none => t) s
  s.onCtl Ctl.placeCopies

/-- A failure unit is lost (R222, R224, R444). A tray is lost when its incarnation is not live. -/
def State.unitLost (s : State) (u : FailUnit) : State :=
  match u with
  | .hbm x =>
    let st := s.ctl.rd (Reg.hbmState x.val)
    if st = 0 then s
    else
      let c := if st = 2 || st = 3 then s.ctl.hbmEnd (if st = 3 then 2 else 0) else s.ctl
      let had := !c.mapsGone
      let s : State := { s with ctl := c.wr (Reg.hbmState x.val) 0 }
      if had && s.ctl.mapsGone then s.loseMaps else s.judgeAll
  | .ddr x =>
    let st := s.ctl.rd (Reg.ddrState x.val)
    if st = 0 then s
    else
      let c := if st = 2 then { s.ctl.ddrEnd 0 with phys := { s.ctl.phys with evac := none } } else s.ctl
      ({ s with ctl := c.wr (Reg.ddrState x.val) 0 }).judgeAll
  | .tray e => if (s.ctl.ep e.val).live then s else s.judgeAll

def execFailureUnitLost (unit : FailUnit) (s : State) : Host.Outcome State Fault Refusal := done (if s.ctl.mainUp then s.unitLost unit else s)

/-- A queued rebuild of a degraded page completes (R222). -/
def State.rebuilt (s : State) (page : PageRef) : State :=
  if s.ctl.migQ.any (fun (m : Mig) => m.urgent && m.page == page) && s.ctl.refDegraded page then
    let s := s.rebuildPage page
    if s.ctl.refDegraded page then s
    else s.onCtl (fun c => { c with migQ := c.migQ.filter (fun (m : Mig) => !(m.urgent && m.page == page)) })
  else s

def execRebuild (page : PageRef) (s : State) : Host.Outcome State Fault Refusal := done (if s.ctl.mainUp then s.rebuilt page else s)

/-- Whether a reserved area has room on a stack: no bay's page lies where it would be. -/
def Ctl.copyFits (c : Ctl) (x : Nat) : Bool := (c.stackTaken x).all (fun p => p < 786432 - c.reservedPages)

/-- The copy of the reserved areas whose stack is OFFLINE is rebuilt (R507). -/
def Ctl.copyRebuild (c : Ctl) (b : Bool) : Ctl :=
  let mine := if b then c.phys.copyB else c.phys.copyA
  let other := if b then c.phys.copyA else c.phys.copyB
  let lost := match mine with | some x => c.rd (Reg.hbmState x) == 0 | none => true
  let otherOk := match other with | some x => c.rd (Reg.hbmState x) != 0 | none => false
  if !lost || !otherOk then c
  else
    match c.copyStack b other with
    | none => c
    | some x =>
      if c.copyFits x then { c with phys := if b then { c.phys with copyB := some x } else { c.phys with copyA := some x } }
      else c

def execReservedAreaRebuild (copy : Fin 2) (s : State) : Host.Outcome State Fault Refusal :=
  done (s.whenMain (·.copyRebuild (copy.val == 1)))

/-! ### The memory code (R223) -/

/-- One finding of the patrol scrub. -/
def State.scrubFinds (s : State) (f : ScrubFinding) : State :=
  match f with
  | .corr b => s.onCtl (fun c =>
      if b * 64 < 2 ^ 58 then (c.bump Reg.tirEccCorr).report (rep (c.keyBlock (b * 64)).1 0x05 (c.keyBlock (b * 64)).2) else c)
  | .uncorr b =>
    if b * 64 < 2 ^ 58 then
      { s with mem := s.mem.addPoison (b * 64) 64,
               ctl := (s.ctl.bump Reg.tirEccPoison).report (rep (s.ctl.keyBlock (b * 64)).1 0x06 (s.ctl.keyBlock (b * 64)).2) }
    else s

def execPatrolScrub (found : List ScrubFinding) (s : State) : Host.Outcome State Fault Refusal :=
  done (if s.ctl.mainUp then (found.foldl State.scrubFinds s).onCtl (fun c => c.bumpF Reg.scrubPasses 1) else s)

/-- The corrected block is written back: memory holds the corrected bytes already, and its code agrees again. -/
def execEccWriteback (_block : Nat) (s : State) : Host.Outcome State Fault Refusal := done s

/-! ### Stacks (R224, R225) -/

/-- Second copies, parity and request-state pages on keys that satisfy p move to another place at once (DESIGN CHOICE, log entry 31). -/
def State.moveCopies (s : State) (p : Nat → Bool) (ddr : Bool) : Option State :=
  let t : Tier := if ddr then .ddr else .hbm
  let alts := s.ctl.tier.filter (fun (e : Nat × PageEntry) => s.ctl.locOn p e.2.alt)
  let s1 := alts.foldl (fun (r : Option State) (e : Nat × PageEntry) => r.bind (fun s =>
    let bay := e.1 / 2 ^ 36
    let pg := e.1 % 2 ^ 36
    (s.relocate bay e.2.alt (s.ctl.locKey e.2.alt) t (s.ctl.copyUnits bay pg e.2.alt)).map
      (fun x => x.2.onCtl (fun d => d.putPage bay pg { d.page bay pg with alt := x.1 })))) (some s)
  let s2 := (s.ctl.coded.filter (fun (e : Nat × Loc) => s.ctl.locOn p e.2)).foldl (fun (r : Option State) (e : Nat × Loc) => r.bind (fun s =>
    let x := s.ctl.ext e.1
    (s.relocate x.bay e.2 (s.ctl.locKey e.2) t ((s.ctl.groupUnits e.1 (x.base.toNat / 65536 + (x.pages - 1) / 8 * 8)).filter (· != s.ctl.locUnit e.2))).map
      (fun y => y.2.onCtl (fun d => { d with coded := d.coded.set e.1 Loc.none y.1 })))) s1
  s.ctl.rsas.foldl (fun (r : Option State) (e : Nat × Rsa) =>
    (List.range e.2.groups.length).foldl (fun (r : Option State) gi => r.bind (fun s =>
      match (s.ctl.rsa e.1).groups[gi]? with
      | none => some s
      | some g =>
        g.2.foldl (fun (r : Option State) (l : Loc) => r.bind (fun s =>
          if !s.ctl.locOn p l then some s
          else
            let others := ((s.ctl.rsa e.1).groups.getD gi (0, [])).2.filter (· != l)
            match (s.ctl.freeLoc e.1 l).allocLoc e.1 t (others.map s.ctl.locUnit) true with
            | none => none
            | some (n, d) =>
              let rs := d.rsa e.1
              some { s with ctl := d.putRsa e.1 { rs with groups := setAt rs.groups gi (g.1, ((rs.groups.getD gi (0, [])).2.map (fun x => if x = l then n else x))) } }))
          (some s))) r) s2

/-- Queue the move of every page at keys that satisfy p. -/
def Ctl.queueMoves (c : Ctl) (p : Nat → Bool) (t : Tier) : Ctl :=
  (c.pagesOn p).foldl (fun (d : Ctl) r => d.queueMig { page := r, target := t, urgent := true }) c

/-- Whether every page at keys that satisfy p finds a place elsewhere, counting free pages that are not yet zeroed
(R224, R226). -/
def Ctl.movesFit (c : Ctl) (p : Nat → Bool) (kind : MigKind) : Bool :=
  let ph := { c.phys with dirty := c.phys.failedZero, sweptHbm := List.replicate 8 786432, sweptDdr := List.replicate 12 (2 ^ 21) }
  let d : Ctl := { c with phys := ph, exts := Tab.map c.exts (fun _ (e : Extent) => if e.backing then { e with swept := e.pages } else e) }
  ((c.pagesOn p).foldl (fun (r : Option Ctl) page => r.bind (fun d =>
    match page with
    | .flat b q => (d.flatDest b.val q.toNat kind .ddr (d.page b.val q.toNat).loc).map (·.2)
    | .kv n => match d.kvPage? n with
      | none => some d
      | some pg => (d.kvDest pg kind (if pg.keys.any p then pg.alt else pg.keys)).map (fun e => e.2.2))) (some d)).isSome

/-- Where a reserved-area copy on a stack would go, if anywhere (R507). -/
def Ctl.copyMoves (c : Ctl) (x : Nat) : Bool :=
  let c' := c.wr (Reg.hbmState x) 2
  let ok (b : Bool) (mine other : Option Nat) : Bool :=
    mine != some x || (match c'.copyStack b other with | some y => c'.copyFits y | none => false)
  ok false c.phys.copyA c.phys.copyB && ok true c.phys.copyB c.phys.copyA

/-- HBM_CMD EVACUATE (R224). -/
def State.hbmEvacuate (s : State) (x : Fin 8) : State :=
  let c := s.ctl
  if c.rd Reg.hbmBusy = 1 then s
  else if c.rd (Reg.hbmState x.val) ≠ 1 then { s with ctl := c.wr Reg.hbmErr 3 }
  else
    let e := { s with ctl := c.wr (Reg.hbmState x.val) 2 }
    let p := e.ctl.onUnit (.hbm x)
    match (if c.copyMoves x.val && e.ctl.movesFit p .stack then e.moveCopies p false else none) with
    | none => { s with ctl := c.wr Reg.hbmErr 1 }
    | some s => s.onCtl (fun c => (((c.wr Reg.hbmBusy 1).wr Reg.hbmErr 0).queueMoves p .hbm).evacuated)

def execHbmEvacuate (stack : Fin 8) (s : State) : Host.Outcome State Fault Refusal := done (if s.ctl.mainUp then s.hbmEvacuate stack else s)

/-- HBM_CMD RESTORE (R225). -/
def Ctl.hbmRestore (c : Ctl) (x : Nat) : Ctl :=
  if c.rd Reg.hbmBusy = 1 then c
  else if c.rd (Reg.hbmState x) ≠ 0 then c.wr Reg.hbmErr 3
  else (((c.wr (Reg.hbmState x) 3).wr Reg.hbmBusy 1).wr Reg.hbmErr 0).wr Reg.hbmLeft 0

def execHbmRestore (stack : Fin 8) (s : State) : Host.Outcome State Fault Refusal := done (s.whenMain (·.hbmRestore stack.val))

/-- The restore of a stack ends (R225): ONLINE with every page free and zeroed, or OFFLINE with TRAIN_FAIL. -/
def State.hbmRestored (s : State) (x : Fin 8) (ok : Bool) : State :=
  if s.ctl.rd (Reg.hbmState x.val) ≠ 3 then s
  else if !ok then s.onCtl (fun c => ((c.wr (Reg.hbmState x.val) 0).hbmEnd 2).report (rep 0x06 0x06 x.val))
  else
    let on (k : Nat) : Bool := k < 2 ^ 44 && k / 2 ^ 36 == x.val
    let s := s.beforeReturn on
    let keep := s.ctl.phys.used.filter on
    let m : Mem := { cells := s.mem.cells.filter (fun e => !on e.1 || keep.contains (e.1 / 65536 * 65536)),
                     poison := s.mem.poison.filter (fun b => !on (b * 64) || keep.contains (b * 64 / 65536 * 65536)) }
    { s with mem := m, ctl :=
      ({ s.ctl with phys := { s.ctl.phys with dirty := s.ctl.phys.dirty.filter (fun k => !on k),
                                              failedZero := s.ctl.phys.failedZero.filter (fun k => !on k),
                                              sweptHbm := setNat s.ctl.phys.sweptHbm x.val 786432 } }.wr (Reg.hbmState x.val) 1).hbmEnd 0 }

def execHbmRestoreDone (stack : Fin 8) (ok : Bool) (s : State) : Host.Outcome State Fault Refusal :=
  done (if s.ctl.mainUp then s.hbmRestored stack ok else s)

/-! ### Channels (R226) -/

/-- DDR_CMD EVACUATE: refused with STATE unless the channel is ONLINE (DEDUCED, log entry 32), with NOSPACE when the pages do not
fit in frames without it. -/
def State.ddrEvacuate (s : State) (x : Fin 12) : State :=
  let c := s.ctl
  if c.rd Reg.ddrBusy = 1 then s
  else if c.rd (Reg.ddrState x.val) ≠ 1 then { s with ctl := c.wr Reg.ddrErr 3 }
  else
    let d := c.wr (Reg.ddrState x.val) 2
    let d := { d with phys := { d.phys with evac := some x } }
    let p := d.onUnit (.ddr x)
    match (if d.movesFit p .channel then ({ s with ctl := d }).moveCopies p true else none) with
    | none => { s with ctl := c.wr Reg.ddrErr 1 }
    | some s => s.onCtl (fun c => (((c.wr Reg.ddrBusy 1).wr Reg.ddrErr 0).queueMoves p .ddr).evacuated)

def execDdrEvacuate (ch : Fin 12) (s : State) : Host.Outcome State Fault Refusal := done (if s.ctl.mainUp then s.ddrEvacuate ch else s)

/-- DDR_CMD RESTORE: the slot is powered and the channel trains. -/
def Ctl.ddrRestore (c : Ctl) (x : Fin 12) : Ctl :=
  if c.rd Reg.ddrBusy = 1 then c
  else if c.rd (Reg.ddrState x.val) ≠ 0 then c.wr Reg.ddrErr 3
  else
    let c := (((c.wr Reg.ddrBusy 1).wr Reg.ddrErr 0).wr Reg.ddrLeft 0).emit (.slotPower x.val true)
    { c with phys := { c.phys with restoring := some x } }

def execDdrRestore (ch : Fin 12) (s : State) : Host.Outcome State Fault Refusal := done (s.whenMain (·.ddrRestore ch))

/-- The training of a restored channel ends: ONLINE, its slots still to be zeroed (R429), or OFFLINE with TRAIN_FAIL. -/
def State.ddrRestored (s : State) (x : Fin 12) (ok : Bool) (slots : Nat) : State :=
  if s.ctl.phys.restoring ≠ some x then s
  else
    let s := s.onCtl (fun c => { c with phys := { c.phys with restoring := none } })
    if !ok then s.onCtl (fun c => (c.ddrEnd 2).report (rep 0x07 0x06 x.val))
    else
      let p := s.ctl.onUnit (.ddr x)
      let s := s.beforeReturn p
      s.onCtl (fun c =>
        let c := { c with phys := { c.phys with sweptDdr := setNat c.phys.sweptDdr x.val 0 } }
        (((c.retryZero p).wr (Reg.ddrState x.val) 1).wr (Reg.ddrSlots x.val) slots).ddrEnd 0)

def execDdrRestoreDone (ch : Fin 12) (ok : Bool) (slots : Nat) (s : State) : Host.Outcome State Fault Refusal :=
  done (if s.ctl.mainUp then s.ddrRestored ch ok slots else s)

/-- DDR_CMD REBALANCE: pages of frames without every ONLINE channel move to frames of all of them (R226). -/
def State.rebalance (s : State) : State :=
  let c := s.ctl
  if c.rd Reg.ddrBusy = 1 then s
  else
    match (if c.movesFit c.narrowFrame .rebalance then s.moveCopies c.narrowFrame true else none) with
    | none => { s with ctl := c.wr Reg.ddrErr 1 }
    | some s => s.onCtl (fun c => (((c.wr Reg.ddrBusy 1).wr Reg.ddrErr 0).queueMoves c.narrowFrame .ddr).evacuated)

def execRebalance (s : State) : Host.Outcome State Fault Refusal := done (if s.ctl.mainUp then s.rebalance else s)

end Sys2Proof.Machine
end

