-- ==== Sys2Proof/Machine/Shakeout.lean ====
section
/-! DEFINITION. The shakeout of a bay (spec/17 §17.2, R425-R430). -/

namespace Sys2Proof.Machine

/-- Whether a bay is at a phase of its shakeout. -/
def Ctl.shaking (c : Ctl) (bay : Nat) (p : ShakePhase) : Bool := (c.bay bay).st == .shakeout && (c.bay bay).shake == some p

/-! ### RELEASE (R425, R426) -/

/-- The bay's instructions, collectives, rechecks and LAUNCHes are abandoned; no record is written (R426). -/
def Ctl.abandonWork (c : Ctl) (bay : Nat) : Ctl :=
  let mine (q : Nat) : Bool := c.rd (Reg.queEnable q) == 1 && c.rd (Reg.queBay q) == bay
  let c := (c.chans.keysWhere (fun _ (x : Chan) => match x.serve with | some (q, _) => mine q | none => false)).foldl Ctl.freeChan c
  let c := (c.places.filter (fun (p : Place) => p.bay == bay)).foldl (fun (d : Ctl) p => d.stopPlace p stBAYTRANS dNONE) c
  { c with
    ques := Tab.map c.ques (fun q (x : Que) => if mine q then { x with insts := [], fetched := [], loops := [] } else x),
    colls := c.colls.filter (fun (k : Coll) => k.bay != bay),
    rechecks := c.rechecks.filter (fun (r : Recheck) => r.bay != bay),
    rsas := Tab.map c.rsas (fun b (r : Rsa) => if b = bay then { r with used := [] } else r) }

/-- Requests and fences of a bay that had not begun to apply are answered BAY_TRANSITION. -/
def Ctl.turnAway (c : Ctl) (bay : Nat) : Ctl :=
  let c := (c.opens.filter (fun (o : OpenReq) => o.frame.bay.toNat == bay && !o.forwarded)).foldl
    (fun (d : Ctl) (o : OpenReq) => d.failReq o.id o.frame stBAYTRANS dNONE 0) c
  (c.fences.filter (fun (w : FenceWait) => w.frame.bay.toNat == bay)).foldl (fun (d : Ctl) (w : FenceWait) => d.endFence w stBAYTRANS dNONE 0) c

/-- CMP_CMD RELEASE: an ACTIVE bay enters SHAKEOUT and both its maps are discarded; otherwise BAY_STATE. -/
def Ctl.releaseBay (c : Ctl) (bay : Nat) : Ctl :=
  if c.rd Reg.cmpBusy = 1 then c
  else
    let b := c.bay bay
    let c := c.wr Reg.cmpBay bay
    if b.st ≠ .active then c.wr Reg.cmpErr 7
    else
      let c := ((c.wr Reg.cmpErr 0).wr Reg.cmpBusy 1).wr Reg.shakeActive 1
      let c := c.putBay bay { b with st := .shakeout, cur := none, old := none, shake := some .released, shakeAt := c.now }
      (c.turnAway bay).abandonWork bay

def execRelease (bay : Fin 4096) (s : State) : Host.Outcome State Fault Refusal :=
  done (if s.ctl.mainUp then (s.onCtl (·.releaseBay bay.val)).settle else s)

/-! ### Quiesce (step 3) -/

/-- What had begun to apply has finished or given up; every tracker, Peg and line-lock entry of the bay is gone. -/
def Ctl.quiesce (c : Ctl) (bay : Nat) : Ctl :=
  let c := (c.opens.filter (fun (o : OpenReq) => o.frame.bay.toNat == bay)).foldl (fun (d : Ctl) (o : OpenReq) => d.closeReq o.id) c
  { c.putBay bay { c.bay bay with shake := some .quiesced } with
    tracker := c.tracker.filter (fun (t : TrackEnt) => t.bay != bay),
    fences := c.fences.filter (fun (w : FenceWait) => w.frame.bay.toNat != bay),
    peg := c.peg.filter (fun (p : PegEntry) => p.bay != bay) }

def execShakeoutQuiesce (bay : Fin 4096) (s : State) : Host.Outcome State Fault Refusal :=
  done (if s.ctl.shaking bay.val .released then (s.onCtl (·.quiesce bay.val)).settle else s)

/-! ### Clearing (step 4, Table 17.3) -/

/-- The bay's tiles are cleared and its placements unbound. -/
def State.clearTiles (s : State) (bay : Nat) : State :=
  let mine := s.ctl.places.filter (fun (p : Place) => p.bay == bay)
  let ts := insertAll [] ((s.ctl.bayTiles bay).map s.ctl.physOf ++ mine.flatMap (fun (p : Place) => p.tiles))
  let s := s.onCtl (fun c => mine.foldl (fun (d : Ctl) p => d.unbind p) c)
  ts.foldl State.clearTile s

/-- The bay's queues are disabled (R245). -/
def Ctl.clearQueues (c : Ctl) (bay : Nat) : Ctl :=
  (c.bayQueues bay).foldl (fun (d : Ctl) q => (d.wr (Reg.queEnable q) 0).putQue q Que.init) c

/-- The bay's domains are destroyed without write-back (R181). -/
def State.clearDomains (s : State) (bay : Nat) : State :=
  (s.ctl.doms.keysWhere (fun _ (d : Domain) => d.st != DomState.free && d.bay == bay)).foldl (fun (t : State) d =>
    let m := t.ctl.dom d
    (t.freeEntries d).onCtl (fun c =>
      let c := c.putDom d { m with st := .free, agents := [] }
      if m.st = .draining && c.rd Reg.dirDom = d then c.wr Reg.dirBusy 0 else c)) s

/-- Mailboxes whose pending post or binding carries the bay (R420). -/
def Ctl.clearBayMbxs (c : Ctl) (bay : Nat) : Ctl :=
  (c.mbxs.keysWhere (fun _ (m : Mbx) => (m.go && m.bay == bay) || (match m.bound with | some (b, _) => b == bay | none => false))).foldl Ctl.clearMbx c

/-- The bay's counters, its clamp counter, its regions of publication, its channels (R411: CLAMPS stays). -/
def Ctl.clearWindow (c : Ctl) (bay : Nat) : Ctl :=
  let lo := c.rd (Reg.winFirst bay)
  let hi := lo + c.rd (Reg.winCount bay)
  let c := { c with ctrs := c.ctrs.filter (fun (e : Nat × Word) => !(decide (lo ≤ e.1) && decide (e.1 < hi))) }
  let c := c.putReg (Reg.bayClamp bay) 0
  let regions := (c.regs.filter (fun (e : Nat × Word) => inArray e.1 0x08400000 0x20 65536 0x10 && bitOf e.2.toNat 63 && e.2.toNat % 4096 == bay)).map
    (fun e => (e.1 - 0x08400000) / 0x20)
  let c := regions.foldl (fun (d : Ctl) r => d.wr (Reg.regionValid r) 0) c
  (c.bayChans bay).foldl (fun (d : Ctl) k => d.putChan k { Chan.init with clamps := (d.chan k).clamps }) c

/-- A node of the prefix tree goes, with all its descendants (fuel: nodes). -/
def Ctl.dropSubtree (c : Ctl) (n : KvNode) : Nat → Ctl
  | 0 => c
  | fuel + 1 =>
    let kids := c.kvNodes.filter (fun (x : KvNode) => x.domain == n.domain && x.parent == n.key)
    (kids.foldl (fun (d : Ctl) k => d.dropSubtree k fuel) c).dropNode n

/-- The KV space of the bay (R366): regions are destroyed, its nodes and their descendants removed. -/
def Ctl.clearKv (c : Ctl) (bay : Nat) : Ctl :=
  let c := (c.kvRegions.filter (fun (r : KvRegion) => r.bay == bay)).foldl (fun (d : Ctl) (r : KvRegion) =>
    let d := r.pages.foldl (fun (e : Ctl) p => e.kvRelease p.2) d
    { d with kvRegions := d.kvRegions.filter (fun (x : KvRegion) => !(x.bay == bay && x.index == r.index)) }) c
  (c.kvNodes.filter (fun (n : KvNode) => n.bay == bay)).foldl (fun (d : Ctl) n =>
    if d.kvNodes.contains n then d.dropSubtree n d.kvNodes.length else d) c

/-- The dirty lines of the bay: lines of its coherent node-form extents and of its pool pages. -/
def Ctl.bayLine (c : Ctl) (bay line : Nat) : Bool :=
  let k := line * 128
  c.exts.any (fun (e : Nat × Extent) => e.2.bay == bay && e.2.coh && isNode e.2.base
    && decide (nodeKey (nodeOf e.2.base) (offsetOf e.2.base) ≤ k) && decide (k < nodeKey (nodeOf e.2.base) (offsetOf e.2.limit)))
  || c.tier.any (fun (e : Nat × PageEntry) => e.1 / 2 ^ 36 == bay
    && (match c.locKey e.2.loc with | some p => decide (p ≤ k) && decide (k < p + 65536) | none => false))

/-- Step 4: the bay's state on the dies is cleared, its request-state area freed, its memory key destroyed. The tiles that its
SELFTESTs named are tested from now on (R428); an operator test goes on without the bay (R491). -/
def State.shakeClear (s : State) (bay : Nat) : State :=
  let lines := s.ctl.homeDirty.filter (s.ctl.bayLine bay)
  let s := ((s.loseLines (fun l => lines.contains l)).onCtl (·.clearBayMbxs bay)).clearTiles bay
  let s := (s.onCtl (·.clearQueues bay)).clearDomains bay
  s.onCtl (fun c =>
    let c := ((c.clearWindow bay).clearKv bay).rsaFree bay
    let b := c.bay bay
    { c.putBay bay { b with shake := some .cleared, key := none, tests := [] } with
      bayTests := c.bayTests ++ b.tests.map (fun t => (bay, t.1, t.2)),
      optest := c.optest.map (fun (t : OpTest) => { t with bays := t.bays.filter (· != bay) }) })

def execShakeoutClear (bay : Fin 4096) (s : State) : Host.Outcome State Fault Refusal :=
  done (if s.ctl.shaking bay.val .quiesced then s.shakeClear bay.val else s)

/-! ### Extents (step 5, R146) and the end (step 6) -/

/-- The bay's ACTIVE extents: flat ones first, then node-form ones, backing extents last. -/
def Ctl.bayExts (c : Ctl) (bay : Nat) : List Nat :=
  let pick (f : Extent → Bool) : List Nat := c.exts.keysWhere (fun _ (e : Extent) => e.bay == bay && e.st == .active && f e)
  pick (fun e => !isNode e.base) ++ pick (fun e => isNode e.base && !e.backing) ++ pick (fun e => e.backing)

/-- Every extent of the bay is revoked; nothing is in flight (R143-R146). -/
def State.shakeRevoke (s : State) (bay : Nat) : State :=
  let s := (s.ctl.bayExts bay).foldl (fun (t : State) i => (t.onCtl (·.revoke i)).finishRevoke i) s
  s.onCtl (fun c => c.putBay bay { c.bay bay with shake := some .revoked })

def execShakeoutRevoke (bay : Fin 4096) (s : State) : Host.Outcome State Fault Refusal :=
  done (if s.ctl.shaking bay.val .cleared || s.ctl.shaking bay.val .revoked then s.shakeRevoke bay.val else s)

/-- The bay is FREE (R121, Table 17.2 step 6); its generation survives (R139). -/
def Ctl.shakeDone (c : Ctl) (bay : Nat) : Ctl :=
  if c.exts.any (fun (e : Nat × Extent) => e.2.bay == bay && e.2.st != .empty) then c
  else
    let b := c.bay bay
    let c := c.putBay bay { BayRec.init with gen := b.gen }
    let c := (((c.wr Reg.cmpBusy 0).wr Reg.shakeBay bay).wr Reg.shakeActive 0).wr Reg.shakeUs (min ((c.now - b.shakeAt) / 100) (2 ^ 32 - 1))
    (c.bump (Reg.secCtr 0)).event evShakeoutDone [bay]

def execShakeoutDone (bay : Fin 4096) (s : State) : Host.Outcome State Fault Refusal :=
  done (s.onCtl (fun c => if c.shaking bay.val .revoked then c.shakeDone bay.val else c))

end Sys2Proof.Machine
end

