-- ==== Sys2Proof/Machine/RegRead.lean ====
section
/-! DEFINITION. What every operator register reads (spec/20 and the register sections of every chapter). Registers that
summarise other records are computed here; the others are stored. An address that no table lists reads 0 (R492). -/

namespace Sys2Proof.Machine

/-- The word whose fields, given as (lowest bit, width, value), are packed; a value too large for its field saturates. -/
def packed (l : List (Nat × Nat × Nat)) : Word :=
  BitVec.ofNat 64 (l.foldl (fun a e => a + min e.2.2 (2 ^ e.2.1 - 1) * 2 ^ e.1) 0)

/-- The index of an address in an array of `n` entries of `stride` bytes from `base`, and the offset in the entry. -/
def entryAt (a base stride n : Nat) : Option (Nat × Nat) :=
  if base ≤ a && a < base + stride * n then some ((a - base) / stride, (a - base) % stride) else none

/-! ### GLB (Tables 20.3-20.9) -/

/-- The frozen FIRST records. -/
def Ctl.firstList (c : Ctl) : List LogEntry := List.map (fun (e : Nat × LogEntry) => e.2) c.err.firsts

/-- Units with an advisory bit in force. -/
def Ctl.advisories (c : Ctl) (bit : Nat) : Nat :=
  (c.regs.filter (fun (e : Nat × Word) => 0x0F040000 ≤ e.1 && e.1 < 0x0F100000 && bitOf e.2.toNat bit)).length

/-- Some ERR_COAL.PENDING is nonzero (Table 20.6). -/
def Ctl.anyPending (c : Ctl) : Bool :=
  c.regs.any (fun (e : Nat × Word) => 0x0F008000 ≤ e.1 && e.1 < 0x0F009800 && field e.2.toNat 0 32 != 0)

/-- A REPLACE advisory is in force for a stack or a die-to-die link, which means the whole module (Table 18.5). -/
def Ctl.replaceModule (c : Ctl) : Bool :=
  (List.range 8).any (fun u => c.rd (Reg.replaceBit 0x06 u) == 1) || (List.range 3).any (fun u => c.rd (Reg.replaceBit 0x12 u) == 1)

/-- GLB_ERR_SUM (Table 20.6, R501). -/
def Ctl.errSum (c : Ctl) : Word :=
  let l := c.firstList
  let bits := (List.range 24).filter (fun b => l.any (fun (e : LogEntry) => e.rep.block == b))
  packed ((bits.map (fun b => (b, 1, 1))) ++
    [(24, 2, (l.map (fun (e : LogEntry) => classSev e.rep.cls)).foldl max 0), (26, 1, b2n c.anyPending),
     (27, 1, b2n (c.err.moduleReplace || c.replaceModule)), (32, 8, c.advisories 26), (40, 8, c.advisories 27)])

def bayStNum : BayState → Nat
  | .free => 0 | .active => 1 | .shakeout => 2

/-- The current generation of a bay, 0 without a map. -/
def BayRec.curGen (b : BayRec) : Nat := match b.cur with | some m => m.gen.toNat | none => 0

/-- The state of a queue (Table 9.10): a queue of a halted bay reads HALTED. -/
def Ctl.queState (c : Ctl) (q : Nat) : Nat :=
  match (c.que q).st with
  | .disabled => 0
  | .running => if (c.bay (c.rd (Reg.queBay q))).halted then 3 else 1
  | .stopped => if (c.bay (c.rd (Reg.queBay q))).halted then 3 else 2

/-- GLB_BAY_SUM (Table 20.8). -/
def Ctl.baySum (c : Ctl) (b : Nat) : Word :=
  let r := c.bay b
  let qs := c.enabledQueues.filter (fun q => c.rd (Reg.queBay q) == b)
  let stopped := (c.bayQueues b).filter (fun q => 2 ≤ c.queState q)
  let tiles := (List.range 256).filter (fun l => c.rd (Reg.trsAssigned l) == 1 && c.rd (Reg.trsOwner l) == b)
  packed [(0, 2, bayStNum r.st), (2, 1, b2n r.halted), (3, 1, b2n r.old.isSome), (4, 1, b2n r.key.isSome), (8, 7, qs.length),
    (16, 7, stopped.length), (24, 9, tiles.length), (48, 16, r.curGen)]

/-! ### LNK, FLK -/

def linkStNum : LinkState → Nat
  | .down => 0 | .train => 1 | .align => 2 | .up => 3 | .degraded => 4 | .quarantined => 5

/-- LNK_STATUS (Table 3.12). -/
def Ctl.lnkStatus (c : Ctl) (p : Nat) : Word :=
  let st := (List.range 4).map (fun s => (3 * s, 3, if c.cfgLanes p s = 0 then 0 else linkStNum (c.sub p s).st))
  let lanes := (List.range 4).map (fun m =>
    (12 + m, 1, b2n ((List.range 4).any (fun s => (c.sub p s).carries && bitOf (c.sub p s).lanes.toNat m))))
  let enc := (List.range 4).map (fun s => (16 + s, 1, b2n (c.sub p s).enc))
  packed (st ++ lanes ++ enc ++
    [(20, 1, c.rd (Reg.lnkMode p)), (21, 2, c.rd (Reg.lnkBreakout p)), (32, 16, c.rd (Reg.retrainCnt p))])

/-- FLK_QLEN (R114). -/
def Ctl.flkQlen (c : Ctl) (q : Nat) : Word := packed [(0, 20, (c.fq q).len), (32, 20, (c.fq q).frames)]

/-! ### BAY, EXT, CMP (§5.9) -/

def Ctl.bayStatus (c : Ctl) (b : Nat) : Word :=
  let r := c.bay b
  packed [(0, 2, bayStNum r.st), (2, 1, b2n r.old.isSome), (16, 16, r.curGen),
    (32, 16, match r.old with | some m => m.gen.toNat | none => 0), (48, 12, match r.cur with | some m => m.members.length | none => 0)]

/-- BAY_EP_STATUS (Table 5.14). -/
def Ctl.epStatus (c : Ctl) (e : Nat) : Word :=
  let x := c.ep e
  packed [(0, 1, b2n x.live), (8, 8, x.inc.toNat), (16, 4, (c.subsOf e).length), (24, 5, (c.listingBays e).length)]

def extStNum : ExtState → Nat
  | .empty => 0 | .pending => 1 | .active => 2 | .revoking => 3

/-- An extent entry as four words (Table 5.7); an EMPTY entry reads zero. Word 3 holds INFLIGHT and STATE. -/
def Ctl.extWord (c : Ctl) (i w : Nat) : Word :=
  let e := c.ext i
  if e.st = .empty then 0
  else match w with
    | 0 => e.base
    | 1 => e.limit
    | 2 => BitVec.ofNat 64 (extWord2 e.bay e.rights e.fatal e.prot e.comp e.redun e.hint e.cdom e.coh e.backing)
    | _ => packed [(0, 2, extStNum e.st), (16, 20, c.inflight i)]

/-! ### MEM, PEG, DIR -/

def Ctl.haltWord (c : Ctl) (w : Nat) : Word :=
  packed ((List.range 64).map (fun i => (i, 1, b2n (c.bay (64 * w + i)).halted)))

/-- PEG_EP (Table 6.14); sequences are compared modulo 2^16. -/
def Ctl.pegEp (c : Ctl) (e : Nat) : Word :=
  let l := c.peg.filter (fun (x : PegEntry) => x.src == e)
  let inc := match l.head? with | some x => x.inc.toNat | none => 0
  let oldest := (l.map (fun (x : PegEntry) => x.tag)).foldl (fun (o : Option (BitVec 16)) t =>
    match o with | some u => some (if lseqBefore t u then t else u) | none => some t) none
  packed [(0, 9, l.length), (16, 16, (oldest.getD 0).toNat), (32, 8, inc)]

def domStNum : DomState → Nat
  | .free => 0 | .up => 1 | .failed => 2 | .draining => 3

def Ctl.domStatus (c : Ctl) (d : Nat) : Word :=
  let x := c.dom d
  packed [(0, 2, domStNum x.st), (2, 4, x.cause), (12, 12, x.causeEp), (24, 22, (c.dir.filter (fun (e : DirEnt) => e.dom == d)).length),
    (46, 7, x.agents.length)]

/-- DIR_AGENT (Table 7.9): LIVE is computed. -/
def Ctl.dirAgent (c : Ctl) (d a : Nat) : Word :=
  packed [(0, 12, c.rd (Reg.agentEp d a)), (16, 1, c.rd (Reg.agentValid d a)),
    (17, 1, b2n ((c.dom d).st == DomState.up && (c.dom d).agents.any (fun x => x.1 == a)))]

/-! ### Queues and compute units -/

def Ctl.queStatus (c : Ctl) (q : Nat) : Word :=
  let x := c.que q
  packed [(0, 2, c.queState q), (8, 8, x.stopStatus.toNat), (16, 8, x.stopDetail.toNat), (32, 32, x.stopIndex)]

/-- Units of a kind in a state. -/
def Ctl.unitsIn (c : Ctl) (k : UnitKind) (p : UnitState → Bool) : Nat :=
  ((List.range (unitCount k)).filter (fun i => p (c.unit k i).st)).length

def unitStNum : UnitState → Nat
  | .spare => 0 | .inService => 1 | .quarantined => 2 | .failed => 3

def outOfService (s : UnitState) : Bool := s == .quarantined || s == .failed

def Ctl.cruStatus (c : Ctl) : Word :=
  packed [(0, 8, c.unitsIn .crucible (· == .inService)), (8, 8, c.unitsIn .crucible (· == .spare)),
    (16, 8, c.unitsIn .crucible outOfService), (32, 13, c.colls.length), (48, 13, c.rd ⟨0x0A000000, 48, 13⟩)]

def Ctl.runStatus (c : Ctl) (k : UnitKind) : Word :=
  packed [(0, if k = .runner then 7 else 6, c.unitsIn k (· == .inService)),
    (16, if k = .runner then 7 else 6, c.unitsIn k (· != .inService))]

def Ctl.cupStatus (c : Ctl) : Word :=
  packed [(0, 6, c.unitsIn .cupola (· == .inService)), (8, 2, c.unitsIn .cupola (· == .spare)), (16, 6, c.unitsIn .cupola outOfService)]

/-- CUP_UNIT (Table 13.4); a FAILED Cupola is out of service and reads QUARANTINED, as value 3 is not used. -/
def Ctl.cupUnit (c : Ctl) (u : Nat) : Word :=
  let x := c.unit .cupola u
  packed [(0, 2, min 2 (unitStNum x.st)), (2, 1, u / 17), (16, 16, x.mism)]

/-! ### Tiles (Tables 15.9-15.11) -/

/-- TRS_OWN.STATE of a logical tile. -/
def Ctl.ownState (c : Ctl) (l : Nat) : Nat :=
  if c.physOf l = absentTile then 4
  else if c.isClearing l then 3
  else match (c.holders l).head? with
    | some p => if p.launch.isSome then 2 else 1
    | none => 0

def Ctl.trsOwn (c : Ctl) (l : Nat) : Word :=
  let st := c.ownState l
  let h := match (c.holders l).head? with | some p => p.handle | none => 0
  packed [(0, 12, c.rd (Reg.trsOwner l)), (12, 1, c.rd (Reg.trsAssigned l)), (13, 3, st), (16, 4, if st = 1 || st = 2 then h else 0)]

/-- The logical tile (128 × die + index) that a physical tile serves. -/
def Ctl.logicalOf (c : Ctl) (t : Nat) : Option Nat :=
  ((List.range 128).map (fun i => 128 * (t / 136) + i)).find? (fun l => c.physOf l == t)

def Ctl.trsPhys (c : Ctl) (t : Nat) : Word :=
  let x := c.unit .tile t
  let l := if x.st = .inService then (match c.logicalOf t with | some l => l % 128 | none => 0) else 0
  packed [(0, 2, unitStNum x.st), (8, 8, l), (16, 16, x.mism)]

def Ctl.trsStatus (c : Ctl) : Word :=
  packed [(0, 1, c.rd Reg.trsOwnRefused), (8, 9, ((List.range 256).filter (fun l => c.physOf l != absentTile)).length),
    (24, 5, c.unitsIn .tile (· == .spare)), (32, 9, c.unitsIn .tile outOfService)]

/-! ### Ladle, mailboxes -/

def Ctl.chStNum (c : Ctl) (k : Nat) : Nat :=
  if !c.chAssigned k then 0
  else match (c.chan k).st with | .idle => 1 | .running => 2 | .stopped => 3 | .halted => 4 | .haltedByOther => 5

def Ctl.chStatus (c : Ctl) (k : Nat) : Word :=
  let x := c.chan k
  packed [(0, 3, c.chStNum k), (8, 8, x.lastStatus.toNat), (16, 8, x.lastDetail.toNat), (32, 32, x.clamps)]

def Ctl.engStatus (c : Ctl) (e : Nat) : Word :=
  let x := c.eng e
  packed [(0, 1, b2n x.halted), (1, 1, b2n x.causeValid), (16, 12, x.causeBay), (28, 5, x.causeCh)]

def Ctl.mbxEp (c : Ctl) (e : Nat) : Word :=
  let m := c.mbx e
  packed [(0, 1, b2n m.go), (1, 1, b2n m.bound.isSome), (4, 4, match m.bound with | some b => b.2 | none => 0),
    (8, 12, if m.go then m.bay else match m.bound with | some b => b.1 | none => 0), (32, 16, m.seq.toNat)]

/-- MBX_VIEW (Table 20.11). -/
def Ctl.mbxView (c : Ctl) (e off : Nat) : Word :=
  let m := c.mbx e
  if off < 0x40 then BitVec.ofNat 64 (m.word (off / 4) + m.word (off / 4 + 1) * 2 ^ 32)
  else if off = 0x40 then BitVec.ofNat 64 m.ctlWord
  else if off = 0x48 then BitVec.ofNat 64 m.ackWord
  else 0

/-! ### SEC (Tables 17.7-17.10) -/

def Ctl.secStatus (c : Ctl) : Word :=
  packed [(0, 1, c.rd Reg.secBootOk), (1, 1, c.rd Reg.secRecovery), (2, 1, c.rd Reg.secKeySlot), (3, 1, b2n c.fuses.slot0Revoked),
    (4, 1, c.rd Reg.secDebugOpen), (16, 8, c.fuses.svn), (24, 8, c.rd Reg.secSvnImage)]

/-- SEC_ZERO_LEFT: freed pages, and what the sweeps after a start of MAIN and after an installation have still ahead. -/
def Ctl.zeroLeft (c : Ctl) : Nat :=
  c.phys.dirty.length + ((List.range 8).map (fun i => c.sweepLeft (.hbm (Fin.ofNat 8 i)))).sum
    + ((List.range 12).map (fun i => c.sweepLeft (.ddr (Fin.ofNat 12 i)))).sum
    + (List.map (fun (e : Nat × Extent) => c.backingLeft e.1) c.exts).sum

/-! ### ERR, PLB (§18.10) -/

/-- A log entry or FIRST record as 64 bytes (Table 18.4). A record that the collector has not yet numbered reads LSEQ 0. -/
def LogEntry.bytes (e : LogEntry) : List Byte :=
  let r := e.rep
  let opt (o : Option Nat) : Nat := match o with | some v => v % 4096 + 32768 | none => 0
  let flags := b2n r.first + 2 * b2n e.lost + 4 * b2n e.ctx.isSome
  leBytes 8 e.lseq ++ leBytes 6 e.stamp ++ leBytes 1 r.block ++ leBytes 1 r.cls ++ leBytes 2 r.unit ++ leBytes 2 (opt r.bay)
  ++ leBytes 2 (opt r.ep) ++ leBytes 1 flags ++ leBytes 1 (classSev r.cls) ++ leBytes 4 e.nlost ++ zeros 4 ++ leBytes 16 r.info.toNat
  ++ (match e.ctx with
    | some x => leBytes 2 x.t1.toNat ++ leBytes 2 x.t2.toNat ++ leBytes 2 x.vlogic.toNat ++ leBytes 2 x.vsram.toNat ++ [x.util] ++ zeros 1
        ++ leBytes 4 e.free
    | none => zeros 14)
  ++ zeros 2

/-- Eight of an entry's bytes as a word. -/
def entryWord (e : Option LogEntry) (off : Nat) : Word :=
  match e with | some x => BitVec.ofNat 64 (leAt x.bytes off 8) | none => 0

def plumbStNum : PlumbState → Nat
  | .none => 0 | .alive => 1 | .suspect => 2 | .dead => 3

/-- PLB_EP word 0 (Table 18.14). -/
def Ctl.plbEp (c : Ctl) (e : Nat) : Word :=
  let x := c.ep e
  packed [(0, 2, plumbStNum x.plumb), (2, 1, c.rd (Reg.plbMgmt e)), (8, 8, x.judged.toNat), (16, 8, x.verdicts), (24, 3, x.cause)]

/-! ### JRN, BST (§19.7) -/

/-- JRN_ANCHOR: word w of the key hash of anchor k. -/
def Ctl.anchorWord (c : Ctl) (k w : Nat) : Word := BitVec.ofNat 64 (leAt (c.flash.anchors.getD k []) (8 * w) 8)

/-- A test runs: the operator's once it is drained, or a bay's (R428, R490). -/
def Ctl.testRuns (c : Ctl) : Bool :=
  !c.bayTests.isEmpty || (match c.optest with | some t => !t.draining | none => false)

def Ctl.bstStatus (c : Ctl) : Word :=
  packed [(0, 1, b2n c.testRuns), (1, 2, c.rd Reg.bstKind), (3, 1, c.rd Reg.bstLastPass), (4, 2, c.rd Reg.bstAgree),
    (16, 16, c.flash.map.repairs), (32, 13, c.fuses.repairs), (48, 16, c.flash.map.exhausted)]

def Ctl.jrnStatus (c : Ctl) : Word :=
  packed [(0, 4, c.rd Reg.coresUp), (4, 4, c.sessions.length), (8, 3, c.rd Reg.fwState)]

def Ctl.errStatus (c : Ctl) : Word :=
  packed [(0, 9, c.err.queue.length), (16, 12, c.err.next), (32, 32, c.rd Reg.flashBatches)]

/-! ### The whole map, block by block (Table 20.2) -/

def Ctl.readGlb (c : Ctl) (a : Nat) : Option Word :=
  if a = 0x38 then some (BitVec.ofNat 64 (c.now % 2 ^ 48))
  else if a = 0x100 then some c.alertWord
  else if a = 0x200 then some c.errSum
  else (entryAt a 0x10000 8 4096).map (fun e => c.baySum e.1)

def Ctl.readLnk (c : Ctl) (a : Nat) : Option Word :=
  match entryAt a 0x02000000 0x10000 128 with
  | some (p, 0) => some (c.lnkStatus p)
  | some (_, 8) => some (c.reg a &&& 0xFFFFFFFFFFFFFFBF)
  | _ => none

def Ctl.readFlk (c : Ctl) (a : Nat) : Option Word :=
  match entryAt a 0x04010000 0x400 1152 with
  | some (q, 8) => some (c.flkQlen q)
  | _ => none

def State.readBay (s : State) (a : Nat) : Option Word :=
  let c := s.ctl
  match entryAt a 0x05000000 0x40 4096, entryAt a 0x05040000 0x10 4095, entryAt a 0x05100000 0x20 65536 with
  | some (b, 0), _, _ => some (c.bayStatus b)
  | some (b, 8), _, _ => some (packed [(0, 32, c.oldInflight b)])
  | _, some (e, 8), _ => some (c.epStatus e)
  | _, _, some (i, o) => some (c.extWord i (o / 8))
  | _, _, _ =>
    if 0x05800000 ≤ a && a < 0x05C00000 then some (BitVec.ofNat 64 (leNat (s.mem.read (stageKey (a - 0x05800000)) 8))) else none

def Ctl.readMem (c : Ctl) (a : Nat) : Option Word :=
  match entryAt a 0x06001000 8 64, entryAt a 0x06081000 8 4095 with
  | some (w, _), _ => some (c.haltWord w)
  | _, some (e, _) => some (c.pegEp e)
  | _, _ => if a = 0x06080000 then some (packed [(0, 21, c.peg.length)]) else none

def Ctl.readDir (c : Ctl) (a : Nat) : Option Word :=
  match entryAt a 0x07001000 0x10 64, entryAt a 0x07002000 8 4096 with
  | some (d, 8), _ => some (c.domStatus d)
  | _, some (i, _) => some (c.dirAgent (i / 64) (i % 64))
  | _, _ =>
    if a = 0x07000008 then some (packed [(0, 22, c.dir.length), (24, 4, c.rd Reg.openPeak), (28, 4, c.rd Reg.queuePeak)])
    else none

def Ctl.readTier (c : Ctl) (a : Nat) : Option Word :=
  (entryAt a 0x08800000 8 8).map (fun e => packed [(0, 2, c.rd (Reg.hbmState e.1)), (8, 20, c.stackFree e.1)])

def Ctl.readQue (c : Ctl) (a : Nat) : Option Word :=
  match entryAt a 0x09010000 0x40 16384 with
  | some (q, 0x18) => some (c.queStatus q)
  | some (q, 0x20) => some (packed [(0, 32, (c.que q).head), (32, 32, (c.que q).tail)])
  | some (q, 0x28) => some (packed [(0, 6, (c.que q).insts.length), (16, 16, (c.que q).marks.toNat)])
  | _ => none

def Ctl.readUnits (c : Ctl) (a : Nat) : Option Word :=
  match entryAt a 0x0A010000 8 4096, entryAt a 0x0B001000 8 34 with
  | some (b, _), _ => some (packed [(0, 28, c.rd ⟨a, 0, 28⟩), (32, 24, (c.rsa b).pages)])
  | _, some (u, _) => some (c.cupUnit u)
  | _, _ =>
    if a = 0x0A000000 then some c.cruStatus
    else if a = 0x0A400000 then some (c.runStatus .runner)
    else if a = 0x0A800000 then some (c.runStatus .riddle)
    else if a = 0x0B000000 then some c.cupStatus
    else if a = 0x0B800008 then
      some (packed [(0, 1, c.rd Reg.kvsWinRefused), (16, 21, c.kvRegions.length), (40, 23, c.kvNodes.length)])
    else none

def Ctl.readTrs (c : Ctl) (a : Nat) : Option Word :=
  match entryAt a 0x0C001000 8 256, entryAt a 0x0C002000 8 272 with
  | some (l, _), _ => some (c.trsOwn l)
  | _, some (t, _) => some (c.trsPhys t)
  | _, _ => if a = 0x0C000000 then some c.trsStatus else none

def Ctl.readLdl (c : Ctl) (a : Nat) : Option Word :=
  match entryAt a 0x0D010000 0x40 512, entryAt a 0x0D001000 0x10 16, entryAt a 0x0D810000 8 4095, entryAt a 0x0D820000 0x80 4095 with
  | some (k, o), _, _, _ =>
    (match o with
    | 0x08 => some (c.chan k).head
    | 0x10 => some (c.chan k).cur
    | 0x18 => some (c.chStatus k)
    | 0x20 => some (c.chan k).done
    | _ => none)
  | _, some (e, 8), _, _ => some (c.engStatus e)
  | _, _, some (e, _), _ => some (c.mbxEp e)
  | _, _, _, some (e, o) => some (c.mbxView e o)
  | _, _, _, _ => none

def Ctl.readSec (c : Ctl) (a : Nat) : Option Word :=
  match entryAt a 0x0E010000 8 4096 with
  | some (b, _) => some (packed [(0, 1, b2n (c.bay b).key.isSome), (16, 32, c.rd ⟨a, 16, 32⟩)])
  | none =>
    if a = 0x0E000000 then some c.secStatus
    else if a = 0x0E000010 then some (BitVec.ofNat 64 c.zeroLeft)
    else none

def Ctl.readErr (c : Ctl) (a : Nat) : Option Word :=
  match entryAt a 0x0F010000 0x40 768, entryAt a 0x0F200000 0x40 4096, entryAt a 0x0F810000 0x20 4095 with
  | some (k, o), _, _ => some (entryWord (c.err.firsts.find? k) o)
  | _, some (i, o), _ => some (entryWord (c.err.ring.find? i) o)
  | _, _, some (e, 0) => some (c.plbEp e)
  | _, _, _ =>
    if a = 0x0F000000 then some c.errStatus
    else if a = 0x0F000008 then some (BitVec.ofNat 64 c.err.lseq)
    else none

def Ctl.readJrn (c : Ctl) (a : Nat) : Option Word :=
  match entryAt a 0x10000100 0x40 4 with
  | some (k, o) => some (if o < 48 then c.anchorWord k (o / 8) else 0)
  | none =>
    if a = 0x10000000 then some c.jrnStatus
    else if a = 0x10C00000 then some c.bstStatus
    else none

/-- The register at an operator address. -/
def State.readReg (s : State) (a : Nat) : Word :=
  let c := s.ctl
  let special :=
    if a < 0x01000000 then c.readGlb a
    else if a < 0x02000000 then none
    else if a < 0x04000000 then c.readLnk a
    else if a < 0x05000000 then c.readFlk a
    else if a < 0x06000000 then s.readBay a
    else if a < 0x07000000 then c.readMem a
    else if a < 0x08000000 then c.readDir a
    else if a < 0x09000000 then c.readTier a
    else if a < 0x0A000000 then c.readQue a
    else if a < 0x0C000000 then c.readUnits a
    else if a < 0x0D000000 then c.readTrs a
    else if a < 0x0E000000 then c.readLdl a
    else if a < 0x0F000000 then c.readSec a
    else if a < 0x10000000 then c.readErr a
    else c.readJrn a
  special.getD (c.reg a)

end Sys2Proof.Machine
end

