-- ==== Sys2Proof/Machine/Tap.lean ====
section
/-! DEFINITION. Tap (spec/19 §19.5): the 89 snapshot banks and their triggers. -/

namespace Sys2Proof.Machine

/-- A bank: its block (Table 18.2), the first unit it covers, the words from 1 on (Table 19.16). -/
structure Bank where
  block : Nat
  unit : Nat
  words : List Word
  deriving DecidableEq, Repr

/-- A word that describes a unit reads zero while the unit serves a bay in shakeout (R430, R486). -/
def Ctl.unlessShaken (c : Ctl) (bays : List Nat) (w : Word) : Word :=
  if bays.any (fun b => (c.bay b).st == .shakeout) then 0 else w

/-- Registers in address order. -/
def State.regsAt (s : State) (l : List Nat) : List Word := l.map s.readReg
/-- n counters from an address. -/
def ctrsFrom (a n : Nat) : List Nat := (List.range n).map (fun i => a + 8 * i)

def num64 (n : Nat) : Word := BitVec.ofNat 64 n

/-- The seven words of a port (Table 19.16, LNK). -/
def State.portWords (s : State) (p : Nat) : List Word :=
  let sum (off : Nat) : Word := num64 ((List.range 4).map (fun i => (s.ctl.reg (Reg.lnkCtr p i off)).toNat)).sum
  [s.readReg (Reg.portBase p), sum 0x00, sum 0x08, sum 0x10, sum 0x38, sum 0x40, sum 0x48]

/-- The four words of a sequencer; those of queues of a bay in shakeout are not counted (R430). -/
def Ctl.seqWords (c : Ctl) (n : Nat) : List Word :=
  let qs := (c.ques.keysWhere (fun q _ => q / 256 == n)).filter (fun q => (c.bay (c.rd (Reg.queBay q))).st != .shakeout)
  [num64 (qs.filter (fun q => c.queState q == 1)).length, num64 (qs.filter (fun q => 2 ≤ c.queState q)).length,
   num64 ((qs.map (fun q => (c.que q).insts.length)).sum), num64 (c.tally.get n 0)]

/-- The word of a Crucible. -/
def Ctl.crucibleWord (c : Ctl) (u : Nat) : Word :=
  let x := c.unit .crucible u
  let open_ := (c.rechecks.filter (fun (r : Recheck) => r.kind == .chunk && r.first == u)).length
  c.unlessShaken [x.bay] (packed [(0, 2, unitStNum x.st), (2, 4, open_), (16, 12, x.bay), (32, 32, x.work % 2 ^ 32)])

/-- The word of a Runner or Riddle; a piece is computed within one command, so that none is busy between commands. -/
def Ctl.runnerWord (c : Ctl) (k : UnitKind) (u : Nat) : Word :=
  let x := c.unit k u
  c.unlessShaken [x.bay] (packed [(0, 1, b2n (x.st == .inService)), (16, 12, x.bay), (32, 32, x.work % 2 ^ 32)])

/-- The word of a physical row of tiles. -/
def Ctl.rowWord (c : Ctl) (d r : Nat) : Word :=
  let ts := (List.range 8).map (fun i => 136 * d + 8 * r + i)
  let byte (t : Nat) : Nat :=
    unitStNum (c.unit .tile t).st + 4 * (match c.logicalOf t with | some l => c.ownState l | none => 7)
  let bays := ts.filterMap (fun t => (c.logicalOf t).bind (fun l => if c.rd (Reg.trsAssigned l) = 1 then some (c.rd (Reg.trsOwner l)) else none))
  c.unlessShaken bays (num64 (leNat (ts.map (fun t => BitVec.ofNat 8 (byte t)))))

/-- Expanders of a die with a block under expansion. -/
def Ctl.expanding (c : Ctl) (d : Nat) : Nat :=
  (c.tiles.filter (fun (e : Nat × Tile) => e.1 / 136 == d
    && ((e.2.buf0.src.isSome && e.2.buf0.elems.isEmpty) || (e.2.buf1.src.isSome && e.2.buf1.elems.isEmpty)))).length

/-- The words of a Ladle engine: its channels read zero while their bay is in shakeout. -/
def Ctl.engineWords (c : Ctl) (e : Nat) : List Word :=
  c.engStatus e :: (List.range 32).map (fun i =>
    let k := chanKey e i
    c.unlessShaken (if c.chAssigned k then [c.chBay k] else []) (c.chStatus k))

/-- Bank 0 of a block carries what follows the units. -/
def only0 (n : Nat) (l : List Word) : List Word := if n = 0 then l else []

def State.bankList (s : State) : List Bank :=
  let c := s.ctl
  let r := s.regsAt
  let many (n : Nat) (f : Nat → Bank) : List Bank := (List.range n).map f
  [⟨0x00, 0, r [0x28, 0x200, 0x38, 0x100, 0x01000000, 0x01001000]⟩]
  ++ many 8 (fun n => ⟨0x08, 8 * n, ((List.range 8).flatMap (fun i => c.seqWords (8 * n + i))) ++ only0 n (r [0x09000008])⟩)
  ++ many 16 (fun e => ⟨0x0F, e, c.engineWords e ++ only0 e (r ([0x0D000000] ++ ctrsFrom 0x0D000100 4))⟩)
  ++ many 16 (fun k => ⟨0x01, 32 * k, (List.range 8).flatMap (fun j => s.portWords (8 * k + j))⟩)
  ++ [⟨0x01, 512, r [0x03000000, 0x03000100]⟩]
  ++ many 4 (fun n => ⟨0x09, 34 * n, ((List.range 34).map (fun i => c.crucibleWord (34 * n + i)))
      ++ only0 n (r ([0x0A000000] ++ ctrsFrom 0x0A000100 6))⟩)
  ++ [⟨0x10, 0, r (ctrsFrom 0x0D800100 4) ++ [num64 (c.mbxs.filter (fun (e : Nat × Mbx) => e.2.go)).length,
        num64 (c.mbxs.filter (fun (e : Nat × Mbx) => e.2.bound.isSome)).length]⟩,
      ⟨0x11, 0, r ([0x0E000000, 0x0E000008, 0x0E000010] ++ ctrsFrom 0x0E000100 4)⟩,
      ⟨0x13, 0, r ([0x01001000, 0x01001010, 0x01000000, 0x01000008] ++ ctrsFrom 0x10402000 9 ++ ctrsFrom 0x10401000 13)⟩,
      ⟨0x14, 0, r [0x10000000, 0x0F000000, 0x0F000008, 0x10800008, 0x10000200]⟩,
      ⟨0x02, 0, r [0x04000000, 0x04000010] ++ (List.range 16).map (fun i =>
        num64 ((List.range 8).map (fun k => (c.fq (innerQueue i k)).len)).sum)⟩,
      ⟨0x03, 0, r [0x05080028, 0x05300008] ++ [.free, .active, .shakeout].map (fun st =>
        num64 (if st == BayState.free then 4096 - (c.bays.filter (fun (e : Nat × BayRec) => e.2.st != .free)).length
          else (c.bays.filter (fun (e : Nat × BayRec) => e.2.st == st)).length))⟩,
      ⟨0x05, 0, r ([0x07000000, 0x07000008, 0x07000018] ++ ctrsFrom 0x07000100 7)
        ++ [packed ((List.range 64).map (fun d => (d, 1, b2n ((c.dom d).st == DomState.failed))))]⟩]
  ++ many 2 (fun n => ⟨0x0A, 32 * n, ((List.range 32).map (fun i => c.runnerWord .runner (32 * n + i)))
      ++ only0 n (r ([0x0A400000] ++ ctrsFrom 0x0A400100 4))⟩)
  ++ many 2 (fun d => ⟨0x0C, 17 * d, ((List.range 17).map (fun i =>
        c.unlessShaken [(c.unit .cupola (17 * d + i)).bay] (c.cupUnit (17 * d + i)))) ++ only0 d (r ([0x0B000000] ++ ctrsFrom 0x0B000100 7))⟩)
  ++ many 2 (fun d => ⟨0x0D, 136 * d, ((List.range 17).map (c.rowWord d)) ++ only0 d (r ([0x0C000000] ++ ctrsFrom 0x0C000100 4))⟩)
  ++ many 2 (fun d => ⟨0x0E, 136 * d, [num64 (c.expanding d), num64 (c.tally.get (64 + d) 0)] ++ only0 d (r (ctrsFrom 0x0C800100 6))⟩)
  ++ many 3 (fun u => ⟨0x12, u, [num64 (b2n (bitOf c.pwr.d2dFailed.toNat u)), num64 (c.tally.get (66 + u) 0), num64 (c.pwr.d2dFails.get u 0)]⟩)
  ++ [⟨0x04, 0, r ([0x06000000, 0x06000008] ++ ctrsFrom 0x06000100 7 ++ [0x06080000])⟩,
      ⟨0x04, 1, r (ctrsFrom 0x06001000 21)⟩, ⟨0x04, 2, r (ctrsFrom (0x06001000 + 8 * 21) 21)⟩,
      ⟨0x04, 3, r (ctrsFrom (0x06001000 + 8 * 42) 22)⟩,
      ⟨0x0B, 0, (List.range 32).map (c.runnerWord .riddle) ++ r ([0x0A800000] ++ ctrsFrom 0x0A800100 3)⟩]
  ++ many 8 (fun i => ⟨0x06, i, r [0x08800000 + 8 * i] ++ only0 i (r ([0x08800108] ++ ctrsFrom 0x08000100 6))⟩)
  ++ many 12 (fun i => ⟨0x07, i, r [0x08900000 + 8 * i] ++ only0 i (r [0x08900108])⟩)

/-- Word 0 of a bank (R486): block, first unit, the number of its valid words with word 0 among them, the bay of an
exclusive engine. -/
def Ctl.bankHead (c : Ctl) (b : Bank) : Word :=
  let excl := b.block = 0x0F && c.rd (Reg.ldlEngExcl b.unit) = 1
  let shaken := (c.bay (c.rd (Reg.ldlEngBay b.unit))).st == .shakeout
  packed [(0, 8, b.block), (8, 16, b.unit), (24, 8, b.words.length + 1), (32, 12, if excl && !shaken then c.rd (Reg.ldlEngBay b.unit) else 0),
    (44, 1, b2n (excl && !shaken))]

/-- The 64 words of a bank. -/
def Ctl.bankWords (c : Ctl) (b : Bank) : List Word := ((c.bankHead b :: b.words) ++ List.replicate 64 0).take 64

/-- Latch every bank, banks lying one after another at TAP_BANK, and the queue shadows (R113, R485). -/
def State.latchBanks (s : State) : State :=
  let ws := s.bankList.flatMap s.ctl.bankWords
  let new := (ws.zipIdx.map (fun (w : Word × Nat) => (Reg.tapBank 0 w.2, w.1))).filter (fun e => e.2 != 0)
  s.onCtl (fun c => { c with regs := c.regs.filter (fun (e : Nat × Word) => e.1 < Reg.tapBank 0 0) ++ new
                        ++ c.regs.filter (fun (e : Nat × Word) => Reg.tapBank 89 0 ≤ e.1) }.latchShadows)

/-- A Tap trigger of a source (R485): accepted when the source is enabled and the banks are armed; else counted. -/
def State.tapTrigger (s : State) (src cls bay : Nat) : State :=
  let c := s.ctl
  if c.rd (Reg.tapSrc src) = 1 && c.rd Reg.tapArmed = 1 then
    let s := s.onCtl (fun c => ((((c.wr Reg.tapArmed 0).wr Reg.tapSource src).wr Reg.tapClass cls).wr Reg.tapBay bay).bumpF Reg.tapAccepted 1)
    s.latchBanks.onCtl (fun c => (c.emit .tapOut).event evTapDone [src])
  else s.onCtl (·.bumpF Reg.tapMissed 1)

/-- The TAP instruction (R260). -/
def actTap (q : Nat) (x : QInst) : Act QInst := do
  let (bay, _) := (← Act.ctl).queCtx q
  let hit := (← Act.ctl).rd Reg.tapArmed = 1 && (← Act.ctl).rd (Reg.tapSrc 0) = 1
  Act.on (·.tapTrigger 0 0 bay)
  return { x with info := b2n hit }.ok

def execTap (queue : Fin 16384) (index : BitVec 32) (s : State) : Host.Outcome State Fault Refusal :=
  done (s.startInst queue.val index.toNat 0x04 (actTap queue.val))

/-- A rising edge on TAP_IN. -/
def execTapIn (s : State) : Host.Outcome State Fault Refusal := done (s.tapTrigger 3 0 0)

end Sys2Proof.Machine
end

