-- ==== Sys2Proof/Machine/Errors.lean ====
section
/-! DEFINITION. The collector, the flash log, the decay of health scores, ERR_FIRST_CLR (spec/18 §18.3, §18.4). -/

namespace Sys2Proof.Machine

/-- The collector drains one report; an entry whose class is in TAP_CFG.CLASS_MASK is a Tap trigger (R448, R485). While the
cores are down the reports stay in the queue (R54). -/
def execCollectorDrain (ctx : LogContext) (s : State) : Host.Outcome State Fault Refusal :=
  let x := if s.ctl.rd Reg.coresUp = 0 then (s.ctl, []) else s.ctl.drainOne ctx
  done (x.2.foldl (fun (t : State) k => if bitOf (t.ctl.rd Reg.tapMask) k then t.tapTrigger 2 k 0 else t) { s with ctl := x.1 })

/-- A batch of 64 entries, or a shorter one 1 s after the last (R451). -/
def execFlashBatch (s : State) : Host.Outcome State Fault Refusal :=
  done (s.onCtl (fun c => if c.rd Reg.coresUp ≠ 0 && (64 ≤ c.uncopied.length || c.err.batchAt + 100000000 ≤ c.now) then c.flashBatch else c))

/-- A score halves; an advisory lapses once the score is below half its threshold (R453, R454). -/
def Ctl.decayed (c : Ctl) (v : Word) : Word :=
  let sc := field v.toNat 0 10 / 2
  let bitIf (i t : Nat) : Nat := if bitOf v.toNat i && t ≤ 2 * sc then 1 else 0
  packed [(0, 10, sc), (16, 10, field v.toNat 16 10), (26, 1, bitIf 26 (c.rd Reg.hWarn)), (27, 1, bitIf 27 (c.rd Reg.hReplace))]

/-- Every score of ERR_HEALTH halves. -/
def Ctl.decay (c : Ctl) : Ctl :=
  { c with regs := c.regs.filterMap (fun (e : Nat × Word) =>
      if 0x0F040000 ≤ e.1 && e.1 < 0x0F100000 then
        let v := c.decayed e.2
        if v = 0 then none else some (e.1, v)
      else some e) }

def execHealthDecay (s : State) : Host.Outcome State Fault Refusal := done (s.onCtl (·.decay))

/-- Clear one FIRST record or all of them (Table 18.10). -/
def Ctl.clearFirst (c : Ctl) (v : Word) : Ctl :=
  let x := v.toNat
  { c with err := { c.err with firsts := if bitOf x 16 then [] else Tab.del c.err.firsts (32 * field x 0 5 + field x 8 5) } }

def execErrFirstClr (v : Word) (s : State) : Host.Outcome State Fault Refusal := done (s.onCtl (·.clearFirst v))

end Sys2Proof.Machine
end

