-- ==== Sys2Proof/Machine/Ladle.lean ====
section
/-! DEFINITION. Ladle's commands (spec/16 §16.1-§16.5, §16.8). -/

namespace Sys2Proof.Machine

/-- CHAIN_START (R400): an idle CHAIN channel whose KICK exceeds DONE starts a chain at HEAD. `steps` numbers the
descriptors of the chain from 1. -/
def execChainStart (engine : Fin 16) (ch : Fin 32) (s : State) : Host.Outcome State Fault Refusal :=
  let k := chanKey engine.val ch.val
  let x := s.ctl.chan k
  done (if s.ctl.chAssigned k && s.ctl.chChain k && x.st = .idle && !(s.ctl.eng engine.val).halted && s.ctl.kicked k && s.ctl.running
    then s.onCtl (·.putChan k { x with st := .running, cur := x.head, steps := 1, desc := none }) else s)

/-- A descriptor fetch (R402, R403, R408). A RETRY is fetched again. -/
def State.fetchDesc (s : State) (k : Nat) : State :=
  let x := s.ctl.chan k
  let bay := s.ctl.chBay k
  match (Act.read bay (s.ctl.chEp k) x.cur.toNat 64 rightR).run { s := s, fl := 0 } with
  | .ok (d, ax) =>
    let e := descClean d
    ax.s.onCtl (fun c =>
      if e = d then c.putChan k { c.chan k with desc := some e }
      else (c.putChan k { c.chan k with desc := some e, clamps := min (2 ^ 32 - 1) ((c.chan k).clamps + 1) }).countClamp bay)
  | .error e => if e.status = stRETRY then e.ax.s else e.ax.s.onCtl (·.busError (k / 32) (some (k % 32)))

def execDescriptorFetch (engine : Fin 16) (ch : Fin 32) (s : State) : Host.Outcome State Fault Refusal :=
  let k := chanKey engine.val ch.val
  let x := s.ctl.chan k
  done (if s.ctl.chAssigned k && s.ctl.chChain k && x.st = .running && x.desc.isNone && x.serve.isNone then s.fetchDesc k else s)

/-- The transfer a channel makes for a COPY, a ZERO or a STREAM fill (R265, R212): its writes, then its counter (R406). -/
def ladleMove (bay ep : Nat) (x : QInst) : Act QInst := do
  let e := x.entry
  if entOpcode e = 0x10 || entOpcode e = 0x15 then
    let n := entC e
    let cnt := bitOf (entOpf e) 0
    let i ← if cnt then Act.counter bay (entCount e) else pure 0
    let a := (clearReserved (BitVec.ofNat 64 (entA e))).toNat
    if entOpcode e = 0x10 then Act.copy bay ep a (clearReserved (BitVec.ofNat 64 (entB e))).toNat n
    else Act.write bay ep a (zeros n)
    Act.onCtl (fun c => ((if cnt then c.addCounter i n else c).bumpBy (Reg.ldlCtr 0) n).bump (Reg.ldlCtr 1))
    return { x with count := n }.ok
  else
    let p := x.param
    let w := leAt p 0 2
    let sz := leAt p 8 8
    let slot := x.pos % w
    let row ← Act.read bay ep (leAt p 32 8 + 16 * x.pos) 16 rightR
    let src ← Act.addr (leAt row 0 8)
    let n ← Act.clamp (leAt row 8 8) (min (leAt row 8 8) sz)
    let i ← Act.counter bay (leAt p 24 4 + slot)
    Act.copy bay ep src (leAt p 16 8 + slot * sz) n
    Act.onCtl (fun c => ((c.addCounter i sz).bumpBy (Reg.ldlCtr 0) n).bump (Reg.ldlCtr 1))
    let y := { x with pos := x.pos + 1, count := x.pos + 1, step := 0 }
    let c ← Act.ctl
    return (if y.pos = leAt p 4 4 then y.ok else { y with waitFrom := c.now })

/-- The elements of a descriptor: read, converted, written, counted (R402-R406). -/
def runDesc (bay ep : Nat) (d : List Byte) : Act Unit := do
  let sw := widthOf (field (leAt d 24 1) 0 3)
  let dw := widthOf (field (leAt d 24 1) 4 3)
  let n := leAt d 16 8
  let fl := leAt d 26 1
  let i ← if bitOf fl 1 || bitOf fl 2 then Act.counter bay (leAt d 28 4) else pure 0
  let b ← Act.read bay ep (leAt d 0 8) (n * sw) rightR
  Act.write bay ep (leAt d 8 8) (convAll sw dw (leAt d 25 1) b)
  Act.onCtl (fun c =>
    let c := if bitOf fl 1 || bitOf fl 2 then c.addCounter i (b2n (bitOf fl 1) * (n * dw) + b2n (bitOf fl 2)) else c
    (c.bumpBy (Reg.ldlCtr 0) (n * dw)).bump (Reg.ldlCtr 1))

/-- A descriptor of a chain is done (R400, R405): the chain ends at LAST, stops after 65,536, or goes on at NEXT. -/
def Ctl.chainNext (c : Ctl) (k : Nat) (d : List Byte) : Ctl :=
  let x := c.chan k
  let next : Word := BitVec.ofNat 64 (leAt d 32 8)
  if bitOf (leAt d 26 1) 3 then c.putChan k { x with st := .idle, head := next, done := x.done + 1, steps := 0, desc := none }
  else if 65536 ≤ x.steps then c.stopChan k stACCESS dMALFORMED
  else c.putChan k { x with cur := next, steps := x.steps + 1, desc := none }

/-- A descriptor of a CHAIN channel completes, or its data access fails and the channel stops (R407). -/
def State.chainDone (s : State) (k : Nat) (d : List Byte) : State :=
  match (runDesc (s.ctl.chBay k) (s.ctl.chEp k) d).run { s := s, fl := 0 } with
  | .ok (_, ax) => ax.s.onCtl (·.chainNext k d)
  | .error e => if e.status = stRETRY then e.ax.s else e.ax.s.onCtl (·.stopChan k e.status e.detail)

/-- The transfer of an instruction completes; its channel is free again, unless the operation is being retried. A failure
counts as a stop of the channel (R407). -/
def State.serveDone (s : State) (k q n : Nat) : State :=
  match s.ctl.instOf q n with
  | none => s.onCtl (·.freeChan k)
  | some x =>
    match x.phase with
    | .running =>
      let bay := s.ctl.rd (Reg.queBay q)
      let s := s.runInst q x (ladleMove bay (s.ctl.rd (Reg.queOwner q)))
      match s.ctl.instOf q n with
      | some y =>
        (match y.phase with
        | .finished st _ => s.onCtl (fun c => (if st = stOK then c else c.bump (Reg.ldlCtr 3)).freeChan k)
        | _ => if y.retry.isSome then s else s.onCtl (·.freeChan k))
      | none => s.onCtl (·.freeChan k)
    | _ => s.onCtl (·.freeChan k)

def execDescriptorDone (engine : Fin 16) (ch : Fin 32) (s : State) : Host.Outcome State Fault Refusal :=
  let k := chanKey engine.val ch.val
  let x := s.ctl.chan k
  done (if x.st = .running then
      (match x.serve with
      | some (q, n) => s.serveDone k q n
      | none => match x.desc with
        | some d => s.chainDone k d
        | none => s)
    else s)

/-- CHANNEL_STOP: a data access of a running channel failed with a status (R407). -/
def execChannelStop (engine : Fin 16) (ch : Fin 32) (status : Byte) (detail : Byte) (s : State) : Host.Outcome State Fault Refusal :=
  let k := chanKey engine.val ch.val
  let x := s.ctl.chan k
  done (if x.st = .running && (x.desc.isSome || x.serve.isSome) && status ≠ stOK then s.onCtl (·.stopChan k status detail) else s)

/-- BUS_ERROR (R408, R444). -/
def execBusError (engine : Fin 16) (cause : BusCause) (s : State) : Host.Outcome State Fault Refusal :=
  let e := engine.val
  done (if (s.ctl.eng e).halted || !s.ctl.mainUp then s
    else match cause with
    | .fetch ch st =>
      let x := s.ctl.chan (chanKey e ch.val)
      if s.ctl.chAssigned (chanKey e ch.val) && s.ctl.chChain (chanKey e ch.val) && x.st = .running && x.desc.isNone && st ≠ stOK
      then s.onCtl (·.busError e (some ch.val)) else s
    | .inner => s.onCtl (fun c => (c.report (rep 0x0F 0x02 e)).busError e none))

/-- RESTART (R409): the engine runs again; INSTR and reserved channels go on, CHAIN channels wait for RESUME. -/
def Ctl.restartEngine (c : Ctl) (e : Nat) : Ctl :=
  let c := c.putEng e { c.eng e with halted := false }
  (List.range 24).foldl (fun d i =>
    let k := chanKey e i
    let x := d.chan k
    if (x.st = .halted || x.st = .haltedByOther) && !d.chChain k then d.putChan k { x with st := .idle } else d) c

def execRestart (engine : Fin 16) (s : State) : Host.Outcome State Fault Refusal :=
  done (if (s.ctl.eng engine.val).halted then s.onCtl (·.restartEngine engine.val) else s)

/-- RESUME of a channel (R409): the descriptor at CUR is fetched again; a channel that ran no chain becomes idle. -/
def Ctl.resumeChan (c : Ctl) (k : Nat) : Ctl :=
  let x := c.chan k
  if x.st = .stopped || ((x.st = .halted || x.st = .haltedByOther) && !(c.eng (k / 32)).halted) then
    if (c.eng (k / 32)).halted then c
    else c.putChan k { x with st := if x.steps = 0 then .idle else .running, desc := none }
  else c

def execLdlChResume (engine : Fin 16) (ch : Fin 32) (s : State) : Host.Outcome State Fault Refusal :=
  done (s.whenMain (·.resumeChan (chanKey engine.val ch.val)))

/-- A write to LDL_CH_CFG or LDL_CH_HEAD (R410, R421). -/
def Ctl.writeChCfg (c : Ctl) (e ch : Nat) (head : Bool) (v : Word) : Ctl :=
  let k := chanKey e ch
  let x := v.toNat
  let busy := c.rd (Reg.ldlChAssigned e ch) = 1 && (c.bay (c.chBay k)).st ≠ .free
  let excl := !head && c.rd (Reg.ldlEngExcl e) = 1 && bitOf x 12 && field x 0 12 ≠ c.rd (Reg.ldlEngBay e)
  if 24 ≤ ch || busy || excl then c.refuse ⟨0x0D000000, 0, 1⟩
  else if head then c.putChan k { c.chan k with head := BitVec.ofNat 64 (x / 64 * 64) }
  else c.putReg (Reg.ldlChBase e ch) (BitVec.ofNat 64 (field x 0 14 + field x 16 12 * 2 ^ 16 + field x 32 20 * 2 ^ 32))

def execLdlChCfgWrite (engine : Fin 16) (ch : Fin 32) (head : Bool) (v : Word) (s : State) : Host.Outcome State Fault Refusal :=
  done (s.whenMain (·.writeChCfg engine.val ch.val head v))

/-- A write to LDL_ENG_CFG (R410, Table 16.7). -/
def Ctl.writeEngCfg (c : Ctl) (e : Nat) (v : Word) : Ctl :=
  let x := v.toNat
  let other := bitOf x 0 && (List.range 24).any (fun i => c.chAssigned (chanKey e i) && c.chBay (chanKey e i) != field x 16 12)
  if other then c.refuse ⟨0x0D000000, 0, 1⟩
  else c.putReg (0x0D001000 + 0x10 * e) (BitVec.ofNat 64 (field x 0 1 + field x 16 12 * 2 ^ 16))

def execLdlEngCfgWrite (engine : Fin 16) (v : Word) (s : State) : Host.Outcome State Fault Refusal :=
  done (s.whenMain (·.writeEngCfg engine.val v))

end Sys2Proof.Machine
end

