-- ==== Sys2Proof/Machine/Queues.lean ====
section
/-! DEFINITION. Queues: configuration, fetch, issue, completion (spec/09). -/

namespace Sys2Proof.Machine

/-- Why an enable is refused (R230, Table 9.12 WHY): 0 it is not. -/
def Ctl.enableWhy (c : Ctl) (q slot bay owner : Nat) : Nat :=
  if c.enabledQueues.any (fun p => p != q && c.rd (Reg.queBay p) == bay && c.rd (Reg.queSlot p) == slot) then 1
  else
    match (c.bay bay).st, (c.bay bay).cur with
    | .active, some m => (match m.classOf owner with | some k => if k ≤ 2 then 0 else 3 | none => 3)
    | _, _ => 2

/-- Disable a queue (R249): issue stops, pass counters clear, what is in flight runs on with detail DISABLED. -/
def Ctl.disableQueue (c : Ctl) (q : Nat) : Ctl :=
  let x := c.que q
  (c.wr (Reg.queEnable q) 0).putQue q
    { x with st := if x.insts.isEmpty then .disabled else x.st, fetched := [], loops := [],
             insts := x.insts.map (fun (y : QInst) => { y with flags := Nat.lor y.flags crDISABLED }) }

/-- A write to QUE_RING, QUE_CRING (words 0, 1) or QUE_CFG (2) (R230, R232, R249, Tables 9.8, 9.9). -/
def Ctl.writeQueCfg (c : Ctl) (q word : Nat) (v : Word) : Ctl :=
  let x := v.toNat
  let on := c.rd (Reg.queEnable q) = 1
  if word < 2 then
    if on then c
    else c.putReg (Reg.queBase q + 8 * word) (BitVec.ofNat 64 ((clearReserved v).toNat / 128 * 128))
  else if on then (if bitOf x 63 then c else c.disableQueue q)
  else
    let cfg := clampNat 4 20 (field x 0 5) + field x 8 6 * 2 ^ 8 + field x 16 12 * 2 ^ 16 + field x 32 12 * 2 ^ 32
    if bitOf x 63 then
      let why := c.enableWhy q (field x 8 6) (field x 16 12) (field x 32 12)
      if why = 0 then
        let y := c.que q
        (c.putReg (Reg.queBase q + 16) (BitVec.ofNat 64 (cfg + 2 ^ 63))).putQue q
          { Que.init with st := .running, insts := y.insts }
      else (c.refuse Reg.cfgRefused).putReg 0x09000008
        (BitVec.ofNat 64 (1 + why * 2 + q * 65536))
    else c.putReg (Reg.queBase q + 16) (BitVec.ofNat 64 cfg)

def execQueCfgWrite (queue : Fin 16384) (word : Fin 3) (v : Word) (s : State) : Host.Outcome State Fault Refusal :=
  done (s.whenMain (·.writeQueCfg queue.val word.val v))

/-- The queue stops because its owner is no longer LIVE (R245). -/
def Ctl.ownerGone (c : Ctl) (q : Nat) : Ctl := c.queueFault q stREMAP dOWNERGONE (c.que q).head

/-- FETCH (R232, R243): the next entry not yet fetched. A failed fetch at HEAD writes a record with OPCODE 0 and stops the
queue; one further on is made again when HEAD reaches it. -/
def State.fetchEntry (s : State) (q : Nat) : State :=
  let c := s.ctl
  let x := c.que q
  let n := x.fetched.length
  if !c.queLive q || x.avail ≤ n then s
  else if !c.ownerLive q then s.onCtl (·.ownerGone q)
  else
    let i := (x.head + n) % 2 ^ 32
    let bay := c.rd (Reg.queBay q)
    match (Act.read bay (c.rd (Reg.queOwner q)) ((c.reg (Reg.queRing q)).toNat + 32 * (i % c.queSize q)) 32 rightX).run { s := s, fl := 0 } with
    | .ok (e, ax) => ax.s.onCtl (fun c => c.putQue q { c.que q with fetched := (c.que q).fetched ++ [e] })
    | .error e =>
      if e.status = stRETRY || n ≠ 0 then e.ax.s
      else
        let d := if e.detail = dFATALHALT then dFATALHALT else dFETCH
        let s := e.ax.s
        let stop (c : Ctl) : Ctl := c.putQue q ((c.que q).stop e.status d i)
        match s.writeRecord q i (recordOf q (s.ctl.queSize q) 0 i e.status d 0 0 0) with
        | .ok s => s.onCtl stop
        | .fail s _ _ => s.onCtl (fun c => (stop c).event evQueueFault [bay, q, dRECORDFAIL.toNat])

def execFetch (queue : Fin 16384) (s : State) : Host.Outcome State Fault Refusal := done (s.fetchEntry queue.val)

/-- Instructions in flight of a sequencer (R231, R237). -/
def Ctl.seqInflight (c : Ctl) (q : Nat) : Nat :=
  ((c.ques.filter (fun (e : Nat × Que) => e.1 / 256 == q / 256)).map (fun e => e.2.insts.length)).sum

/-- Whether the instruction at HEAD can issue (R236, R237, R261, R262): its marks are set, SERIAL and HALT find nothing in
flight, no LOOP or HALT ahead of it is unfinished. -/
def Que.canIssue (x : Que) (e : List Byte) : Bool :=
  let blocked := x.insts.any (fun (y : QInst) => entOpcode y.entry == 0x06 || entOpcode y.entry == 0x05)
  let serial := entSerial e || entOpcode e == 0x05
  !blocked && (!serial || x.insts.isEmpty) && x.insts.length < 32
  && Nat.land (entWait e) x.marks.toNat == entWait e

/-- A forced self-test holds issue from every queue of the bays it stalls (R490). -/
def Ctl.testHolds (c : Ctl) (bay : Nat) : Bool :=
  match c.optest with | some t => t.bays.contains bay | none => false

/-- ISSUE (R236-R238, R245, R246): the entry leaves the fetched list, its mark clears (a LOOP's only at its last pass), the
entry's own clamps set CLAMPED. -/
def Ctl.issue (c : Ctl) (q : Nat) : Ctl :=
  let x := c.que q
  if !c.queLive q || x.avail = 0 || c.testHolds (c.rd (Reg.queBay q)) then c
  else if !c.ownerLive q then c.ownerGone q
  else
    match x.fetched with
    | [] => c
    | e :: rest =>
      if !x.canIssue e || 1024 ≤ c.seqInflight q then c
      else
        let (n, c) := c.fresh
        let i : QInst :=
          { serial := n, index := x.head, entry := e, phase := .issued, since := c.now, flags := if entClamped e then crCLAMPED else 0,
            count := 0, info := 0, param := [], pos := 0, todo := [], held := 0, step := 0, data := [], rows := [],
            retry := none, waitFrom := c.now }
        let y := { x with head := (x.head + 1) % 2 ^ 32, fetched := rest, insts := x.insts ++ [i] }
        (c.tallyUp (q / 256)).putQue q (match entSetm e with
          | some m => if entOpcode e = 0x06 then y else y.nameMark m n
          | none => y)

def execIssue (queue : Fin 16384) (s : State) : Host.Outcome State Fault Refusal := done (s.onCtl (·.issue queue.val))

/-- The first instruction of an index whose effects are applied. -/
def Ctl.finished? (c : Ctl) (q index : Nat) : Option (QInst × Byte × Byte) :=
  (c.que q).insts.findSome? (fun (x : QInst) => match x.phase with
    | .finished st d => if x.index = index then some (x, st, d) else none
    | _ => none)

def execCompletion (queue : Fin 16384) (index : BitVec 32) (s : State) : Host.Outcome State Fault Refusal :=
  done (match s.ctl.finished? queue.val index.toNat with
    | some (x, st, d) => s.complete queue.val x st d
    | none => s)

/-- RECORD_FAIL (R245): a record that is due cannot be written. -/
def execRecordFail (queue : Fin 16384) (index : BitVec 32) (s : State) : Host.Outcome State Fault Refusal :=
  done (match s.ctl.finished? queue.val index.toNat with
    | some (x, st, d) =>
      (match s.writeRecord queue.val index.toNat (recordOf queue.val (s.ctl.queSize queue.val) (leAt x.entry 0 1) x.index st d x.flags x.count x.info) with
      | .ok _ => s
      | .fail _ _ _ => if st = stOK && entNorec x.entry then s else s.complete queue.val x st d)
    | none => s)

end Sys2Proof.Machine
end

