-- ==== Sys2Proof/Machine/RegWrite.lean ====
section
/-! DEFINITION. What a write to each operator register does (spec/20 §20.1 and the register sections of every chapter). The
registers whose writes are commands of their own act through the same operations. Writes to read-only registers and to
addresses that no table lists are ignored (R492). -/

namespace Sys2Proof.Machine

/-- Fields set one by one. -/
def Ctl.wrAll (c : Ctl) (l : List (Fld × Nat)) : Ctl := l.foldl (fun d e => d.wr e.1 e.2) c

/-- Bits of a W1C register of which only bit 0 can be cleared. -/
def Ctl.clear0 (c : Ctl) (a : Nat) (v : Word) : Ctl := if bitOf v.toNat 0 then c.wr ⟨a, 0, 1⟩ 0 else c

/-- A signed 16-bit field clamped to lo..0 by magnitude (Table 19.13 OPT_MIN). -/
def clampNeg (lo v : Nat) : Nat :=
  let x := signed 16 v
  unsigned 16 (if x > 0 then 0 else if x < -(lo : Int) then -(lo : Int) else x)

/-- Plain registers with clamped fields, outside arrays. `none`: the address is not one of them. -/
def Ctl.writePlain (c : Ctl) (a : Nat) (x : Nat) : Option Ctl :=
  match a with
  | 0x30 => some (c.putReg a (BitVec.ofNat 64 x))
  | 0x02800000 => some (c.wrAll [(Reg.rtxTimeout, clampNat 1000 4000 (field x 0 16)), (Reg.rtxLimit, clampNat 1 16 (field x 16 5))])
  | 0x04000008 =>
    let c := c.wrAll [(Reg.sampleN, clampNat 4 16 (field x 0 5)), (Reg.depthShift, field x 5 4), (Reg.delayShift, field x 9 4),
      (Reg.holdTimeout, clampNat 10000 1000000 (field x 20 21))]
    some (if bitOf x 13 then c.wr Reg.minFree c.freeF else c)
  | 0x05080030 => some (c.wr Reg.revokeTimeout (clampNat 10000 2000000 (field x 0 32)))
  | 0x05300010 => some (c.wr Reg.cmpGrace (clampNat 10000 10000000 (field x 0 32)))
  | 0x06000000 => some (c.wr Reg.fenceTimeout (clampNat 10000 2000000 (field x 0 32)))
  | 0x07000000 => some (c.wr Reg.ackTimeout (clampNat 10000 2000000 (field x 0 32)))
  | 0x08000000 => some (c.wrAll [(Reg.mapGib, clampNat 1 32 (field x 0 8)), (Reg.rebuildGbs, clampNat 10 2000 (field x 16 12))])
  | 0x08000010 => some (c.wr ⟨0x08000010, 0, 32⟩ (clampNat 3600 604800 (field x 0 32)))
  | 0x09000000 => some (c.wr Reg.straggler (clampNat (2 ^ 20) (2 ^ 36) (field x 0 40)))
  | 0x0B800000 => some (c.wr Reg.kvsMapGib (clampNat 1 16 (field x 0 8)))
  | 0x0D800000 => some (c.wr Reg.mbxAckTimeout (clampNat 10000 100000000 (field x 0 32)))
  | 0x0F000018 =>
    let w := clampNat 1 1000 (field x 0 10)
    some (c.wrAll [(Reg.hWarn, w), (Reg.hReplace, clampNat w 1000 (field x 16 10))])
  | 0x0F800000 => some (c.wrAll [(Reg.plbBeat, clampNat 10000 1000000 (field x 0 20)), (Reg.plbMiss, clampNat 2 15 (field x 20 4)),
      (Reg.plbProbe, clampNat 10000 1000000 (field x 32 20)), (Reg.plbPeers, field x 52 2)])
  | 0x0F800008 => some (c.wr Reg.plbPort (if field x 0 16 = 0 then 9171 else field x 0 16))
  | 0x0FC00000 => some (c.wrAll [(Reg.tbrS, clampNat 0 20 (field x 0 5)), (Reg.tbrWin, clampNat 24 36 (field x 8 6))])
  | 0x10000008 => some (c.wrAll [(Reg.idleS, clampNat 10 3600 (field x 0 16)), (Reg.drainMs, clampNat 1 10000 (field x 16 16))])
  | 0x10400F00 => some (c.wrAll [(Reg.coolantMax, clampNat 80 640 (field x 0 16)), (Reg.optMin, clampNeg 2000 (field x 16 16))])
  | 0x10800000 =>
    let c := c.wrAll [(⟨0x10800000, 0, 4⟩, field x 0 4), (Reg.tapMask, field x 32 32)]
    some (if bitOf x 4 then c.wr Reg.tapArmed 1 else c)
  | _ => none

/-- PWR_CTL (Table 2.13): AUTO_ON is held in flash. -/
def Ctl.writePwrCtl (c : Ctl) (x : Nat) : Ctl :=
  { c.wrAll [(Reg.autoOn, field x 0 1), (Reg.capW, clampNat 1500 3700 (field x 16 12))] with
    flash := { c.flash with autoOn := bitOf x 0 } }

/-- Registers that act through an operation of their own, outside arrays. -/
def State.writeCmd (s : State) (a : Nat) (v : Word) : Option State :=
  let x := v.toNat
  let on (f : Ctl → Ctl) : Option State := some (s.onCtl f)
  match a with
  | 0x100 => on (·.writeAlertPend v)
  | 0x108 => on (·.putReg Reg.alertMaskAddr (v &&& 0xFFF))
  | 0x01000008 => on (·.writeThrottle v)
  | 0x01001008 => on (·.writePwrCtl x)
  | 0x01001010 => on (fun c => c.putReg a (c.reg a &&& ~~~ v))
  | 0x05080020 =>
    (match field x 16 2 with
    | 1 => on (·.extInstall (field x 0 16))
    | 2 => on (·.extRevoke (field x 0 16))
    | _ => some s)
  | 0x05300000 =>
    (match field x 12 3 with
    | 1 => some (s.cmpInstall (field x 0 12))
    | 2 => some (s.retireCmd (field x 0 12))
    | 3 => on (·.releaseBay (field x 0 12))
    | _ => some s)
  | 0x06000008 => on (·.clear0 a v)
  | 0x07000010 =>
    (match field x 8 2 with
    | 1 => on (·.domCreate (field x 0 6))
    | 2 => on (·.domDestroy (field x 0 6))
    | 3 => on (·.domAddAgent (field x 0 6) (field x 10 6))
    | _ => some s)
  | 0x08800100 =>
    (match field x 3 2 with
    | 1 => some (s.hbmEvacuate (Fin.ofNat 8 (field x 0 3)))
    | 2 => on (·.hbmRestore (field x 0 3))
    | _ => some s)
  | 0x08900100 =>
    let ch := if field x 0 4 < 12 then field x 0 4 else 0
    (match field x 4 2 with
    | 1 => some (s.ddrEvacuate (Fin.ofNat 12 ch))
    | 2 => on (·.ddrRestore (Fin.ofNat 12 ch))
    | 3 => some s.rebalance
    | _ => some s)
  | 0x09000008 => on (·.clear0 a v)
  | 0x0B800008 => on (·.clear0 a v)
  | 0x0C000000 => on (·.clear0 a v)
  | 0x0D000000 => on (·.clear0 a v)
  | 0x0D002000 => if bitOf x 4 && (s.ctl.eng (field x 0 4)).halted then on (·.restartEngine (field x 0 4)) else some s
  | 0x0F000010 => on (·.clearFirst v)
  | _ => none

/-- DIR_DOM_CFG and DIR_AGENT (Tables 7.8, 7.9). -/
def Ctl.writeDirCfg (c : Ctl) (a x : Nat) : Option Ctl :=
  match entryAt a 0x07001000 0x10 64, entryAt a 0x07002000 8 4096 with
  | some (d, 0), _ => some (if (c.dom d).st = .free then c.wr (Reg.domBay d) (field x 0 12) else c)
  | _, some (i, _) =>
    let d := i / 64
    let live := (c.dom d).st = .up && (c.dom d).agents.any (fun y => y.1 == i % 64)
    some (if live then c else c.wrAll [(Reg.agentEp d (i % 64), field x 0 12), (Reg.agentValid d (i % 64), field x 16 1)])
  | _, _ => none

/-- Registers of arrays, by block. -/
def Ctl.writeArray (c : Ctl) (a : Nat) (v : Word) : Option Ctl :=
  let x := v.toNat
  if a < 0x05000000 then
    match entryAt a 0x02000000 0x10000 128, entryAt a 0x04001000 8 128, entryAt a 0x04010000 0x400 1152 with
    | some (p, 8), _, _ => some (c.writeLnkCfg p v)
    | _, some (p, _), _ => some (c.wr (Reg.portOvh p) (field x 0 8))
    | _, _, some (q, 0) => some (c.writeQcfg q v)
    | _, _, some (q, 0x38) => some (if bitOf x 0 then c.clearSamples q else c)
    | _, _, _ => none
  else if a < 0x08000000 then
    match entryAt a 0x05080000 8 4, entryAt a 0x06002000 8 4096 with
    | some (w, _), _ => some (c.putReg (Reg.extStage w) v)
    | _, some (b, _) => some (c.writeCtrWin b v)
    | _, _ => c.writeDirCfg a x
  else if a < 0x09000000 then
    match entryAt a 0x08010000 0x20 4096, entryAt a 0x08400000 0x20 65536 with
    | some (b, 0), _ => some (c.wrAll [(Reg.hbmQuota b, field x 0 24), (Reg.ddrQuota b, field x 24 25)])
    | _, some (r, o) => if o < 0x18 then some (c.writeRegion r (o / 8) v) else none
    | _, _ => none
  else if a < 0x0C000000 then
    match entryAt a 0x09008000 8 4096, entryAt a 0x09010000 0x40 16384, entryAt a 0x0A010000 8 4096, entryAt a 0x0B010000 8 4096,
      entryAt a 0x0B810000 0x10 4096 with
    | some (b, _), _, _, _, _ => some (c.wr (Reg.bayWait b) (clampNat 1000 (2 ^ 34) (field x 0 36)))
    | _, some (q, o), _, _, _ => if o < 0x18 then some (c.writeQueCfg q (o / 8) v) else none
    | _, _, some (b, _), _, _ => some (c.writeRsa b v)
    | _, _, _, some (b, _), _ => some (c.wr (Reg.cupWeight b) (clampNat 1 255 (field x 0 8)))
    | _, _, _, _, some (b, o) => some (c.writeKvsBay b (o / 8) v)
    | _, _, _, _, _ => none
  else
    match entryAt a 0x0C001000 8 256, entryAt a 0x0D001000 0x10 16, entryAt a 0x0D010000 0x40 512, entryAt a 0x0F810000 0x20 4095 with
    | some (l, _), _, _, _ => some (c.writeOwn l v)
    | _, some (e, 0), _, _ => some (c.writeEngCfg e v)
    | _, _, some (k, 0), _ => some (c.writeChCfg (k / 32) (k % 32) false v)
    | _, _, some (k, 8), _ => some (c.writeChCfg (k / 32) (k % 32) true v)
    | _, _, some (k, 0x28), _ => some (if bitOf x 0 then c.resumeChan k else c)
    | _, _, _, some (e, 0) => some (c.wr (Reg.plbMgmt e) (field x 2 1))
    | _, _, _, some (e, 8) => some (c.putReg (Reg.plbAddrHi e) v)
    | _, _, _, some (e, 0x10) => some (c.putReg (Reg.plbAddrLo e) v)
    | _, _, _, _ => none

/-- Registers of arrays whose writes reach beyond the control records. -/
def State.writeWide (s : State) (a : Nat) (v : Word) : Option State :=
  match entryAt a 0x05040000 0x10 4095 with
  | some (e, 0) => some (s.writeEpCfg e v)
  | _ =>
    if 0x05800000 ≤ a && a < 0x05C00000 then some { s with mem := s.mem.write (stageKey (a - 0x05800000)) (leBytes 8 v.toNat) } else none

/-- What a write to an operator address does. -/
def State.applyReg (s : State) (a : Nat) (v : Word) : State :=
  match s.ctl.writePlain a v.toNat, s.writeCmd a v, s.ctl.writeArray a v, s.writeWide a v with
  | some c, _, _, _ => { s with ctl := c }
  | _, some t, _, _ => t
  | _, _, some c, _ => { s with ctl := c }
  | _, _, _, some t => t
  | _, _, _, _ => s

/-- A register write, and whether a chapter's rule refused it (R495): the refusals it adds to GLB_WR_REFUSED are counted
apart, so that saturation hides none. -/
def State.writeReg (s : State) (a : Nat) (v : Word) : State × Bool :=
  let old := (s.ctl.reg Reg.wrRefused).toNat
  let t := (s.onCtl (·.putReg Reg.wrRefused 0)).applyReg a v
  let n := (t.ctl.reg Reg.wrRefused).toNat
  (t.onCtl (·.putReg Reg.wrRefused (BitVec.ofNat 64 (min (old + n) (2 ^ 64 - 1)))), n != 0)

end Sys2Proof.Machine
end

