-- ==== Sys2Proof/Machine/Sessions.lean ====
section
/-! DEFINITION. JMP sessions and events (spec/19 §19.2). An operation's own command runs only while the session's REQUEST with
its OP is running; it answers that request. -/

namespace Sys2Proof.Machine

/-! ### Results and operation codes (Tables 19.2, 19.3) -/

def rOK : Nat := 0
def rBAD_OP : Nat := 1
def rBAD_ARG : Nat := 2
def rBUSY : Nat := 3
def rSTATE : Nat := 4
def rREFUSED : Nat := 5
def rAUTH : Nat := 6

def jmpOps : List Nat :=
  [0x01, 0x02, 0x03, 0x04, 0x05, 0x06, 0x10, 0x11, 0x12, 0x13, 0x14, 0x20, 0x21, 0x22, 0x23, 0x30, 0x31, 0x32, 0x33, 0x34, 0x35, 0x36,
   0x37, 0x38, 0x39, 0x3A, 0x40, 0x41, 0x42, 0x50, 0x51, 0x60]

/-- The session with a SID. -/
def Ctl.session? (c : Ctl) (sid : Nat) : Option Session := c.sessions.find? (fun (x : Session) => x.sid == sid)

/-- The session's running request is of this operation. -/
def Ctl.jmpRuns (c : Ctl) (sid op : Nat) : Bool :=
  match c.session? sid with
  | some x => (match x.running with | some r => r.2.1 == op | none => false)
  | none => false

/-- The answer of an operation: its RESULT and its body. -/
abbrev Ans := Nat × List Word × List Byte

/-- An answer with a RESULT alone. -/
def ans (r : Nat) : Ans := (r, [], [])

/-- Answer a session's running request on the port it came from and store the answer (R23, R480). -/
def Ctl.reply (c : Ctl) (sid : Nat) (a : Ans) : Ctl :=
  match c.session? sid with
  | none => c
  | some x =>
    match x.running with
    | none => c
    | some (seq, op, port) =>
      let r : Response := { seq := seq, op := op, result := a.1, words := a.2.1, bytes := a.2.2 }
      (c.putSession { x with running := none, lastSeq := some seq, answer := some r }).emit (.answer sid port r)

/-- Run a JMP operation: nothing unless its request is running. -/
def State.jmp (s : State) (sid op : Nat) (f : State → State × Ans) : State :=
  if s.ctl.jmpRuns sid op then let r := f s; r.1.onCtl (·.reply sid r.2) else s

/-- A JMP operation that changes the control records alone. -/
def State.jmpCtl (s : State) (sid op : Nat) (f : Ctl → Ctl × Ans) : State :=
  s.jmp sid op (fun t => let r := f t.ctl; ({ t with ctl := r.1 }, r.2))

/-- A JMP operation that is answered OK before it acts. -/
def State.jmpThen (s : State) (sid op : Nat) (check : Ctl → Nat) (f : State → State) : State :=
  if s.ctl.jmpRuns sid op then
    let r := check s.ctl
    let t := s.onCtl (·.reply sid (ans r))
    if r = rOK then f t else t
  else s

/-! ### Setting up a session (R477-R479) -/

/-- 384 bits as 48 bytes. -/
def bytes384 (x : BitVec 384) : List Byte := leBytes 48 x.toNat

/-- Every anchor is empty. -/
def Ctl.noAnchor (c : Ctl) : Bool := c.flash.anchors.all (fun (a : List Byte) => a.isEmpty)

/-- The anchor's key hash in which an operator's chain ends, if the SG7 accepts the chain. -/
def Ctl.chainOk (c : Ctl) (chain : List Byte) : Option (List Byte) :=
  match Config.chainAnchor chain with
  | none => none
  | some h =>
    if c.noAnchor then (if Config.chainSelfSigned chain then some h else none)
    else if !h.isEmpty && c.flash.anchors.contains h then some h else none

/-- Setups of a port in the last second. -/
def Ctl.setupsLately (c : Ctl) (port : Nat) : Nat :=
  (c.setupTimes.filter (fun (e : Nat × Nat) => e.1 == port && c.now < e.2 + 100000000)).length

/-- The operator's first SETUP: the SG7 replies with its chain, ciphertext, nonce, SID and signature over TH, or with the
RESULT that refuses it. -/
def Ctl.setup (c : Ctl) (port : Nat) (body : List Byte) : Ctl :=
  if c.rd Reg.coresUp = 0 || !c.ctlIsUp port then c
  else if 16 ≤ c.setupsLately port then c.emit (.setupReply port rBUSY 0 [])
  else
    let c := { c with setupTimes := c.setupTimes.filter (fun (e : Nat × Nat) => c.now < e.2 + 100000000) ++ [(port, c.now)] }
    if 8 ≤ c.sessions.length then c.emit (.setupReply port rBUSY 0 [])
    else
      let (chain, kem, _) := Config.setupFields body
      match c.chainOk chain with
      | none => c.emit (.setupReply port rAUTH 0 [])
      | some _ =>
        let (nonce, d) := c.draw
        let (ct, secret) := Config.kemEncap d.freeCtr kem
        let sid := d.nextSid
        let part := Config.aliasChain d.fw ++ ct ++ leBytes 32 nonce.toNat ++ leBytes 4 sid
        let th := sha384 (body ++ part)
        let x : Setup := { sid := sid, port := port, secret := secret, th := th, chain := chain, since := d.now }
        { d with freeCtr := d.freeCtr + 1, nextSid := sid + 1, setups := d.setups ++ [x] }.emit
          (.setupReply port rOK sid (part ++ Config.aliasSign (bytes384 th)))

def execSetup (port : Fin 2) (body : List Byte) (s : State) : Host.Outcome State Fault Refusal := done (s.onCtl (·.setup port.val body))

/-- A session from its setup. -/
def Setup.session (x : Setup) (anchor : List Byte) (now : Nat) : Session :=
  { sid := x.sid, port := x.port, secret := x.secret, th := x.th, anchor := anchor, lastSeq := none, answer := none, running := none,
    idleAt := now, sub := none, events := [], droppedEv := 0, sentAt := now, chain := x.chain }

/-- The operator's last SETUP: its signature over TH is checked and the session is open; while every anchor is empty, the
self-signed certificate's key hash is enrolled as anchor 0. -/
def Ctl.setupEnd (c : Ctl) (sid : Nat) (body : List Byte) : Ctl :=
  match c.setups.find? (fun (x : Setup) => x.sid == sid) with
  | none => c
  | some x =>
    let c := { c with setups := c.setups.filter (fun (y : Setup) => y.sid != sid) }
    if 8 ≤ c.sessions.length then c.emit (.setupReply x.port rBUSY sid [])
    else
      match c.chainOk x.chain, Config.certVerify x.chain (bytes384 x.th) body with
      | some h, true =>
        let c := if c.noAnchor then { c with flash := { c.flash with anchors := setAt c.flash.anchors 0 h } } else c
        { c with sessions := c.sessions ++ [x.session h c.now] }.emit (.setupReply x.port rOK sid [])
      | _, _ => c.emit (.setupReply x.port rAUTH sid [])

def execSetupSignature (sid : Nat) (body : List Byte) (s : State) : Host.Outcome State Fault Refusal := done (s.onCtl (·.setupEnd sid body))

/-! ### Requests (R480) -/

/-- A REQUEST: executed when its SEQ is above the last answered and none runs, answered again when it equals it, else
dropped. A SEQ of 2^60 or more breaks Table 19.1; a datagram of no session fails the tag check (R476). -/
def Ctl.request (c : Ctl) (sid seq op port : Nat) : Ctl :=
  match c.session? sid with
  | none => if c.rd Reg.coresUp = 0 then c else c.bump Reg.jmpDrop
  | some x =>
    if 2 ^ 60 ≤ seq then c.bump Reg.jmpDrop
    else
      let x := { x with idleAt := c.now }
      if x.lastSeq = some seq then
        (match x.answer with | some r => (c.putSession x).emit (.answer sid port r) | none => c.putSession x)
      else if x.running.isNone && (match x.lastSeq with | some l => decide (l < seq) | none => true) then
        let c := c.putSession { x with running := some (seq, op, port) }
        if jmpOps.contains op then c else c.reply sid (ans rBAD_OP)
      else c.putSession x

def execRequest (sid : Nat) (seq : BitVec 64) (op : BitVec 16) (port : Fin 2) (s : State) : Host.Outcome State Fault Refusal :=
  done (s.onCtl (·.request sid seq.toNat op.toNat port.val))

/-- A session idle for IDLE_S seconds ends (R479). -/
def Ctl.sessionIdle (c : Ctl) (sid : Nat) : Ctl :=
  { c with sessions := c.sessions.filter (fun (x : Session) => !(x.sid == sid && decide (x.idleAt + c.rd Reg.idleS * 100000000 ≤ c.now))) }

def execSessionIdle (sid : Nat) (s : State) : Host.Outcome State Fault Refusal := done (s.onCtl (·.sessionIdle sid))

/-! ### Events (R481) -/

def execSubscribe (sid : Nat) (addr0 addr1 : Word) (s : State) : Host.Outcome State Fault Refusal :=
  done (s.jmpCtl sid 0x60 (fun c =>
    match c.session? sid with
    | some x => (c.putSession { x with sub := some (addr0, addr1) }, ans rOK)
    | none => (c, ans rOK)))

/-- An EVENT_ACK frees every event below its EVSEQ. -/
def Ctl.eventAck (c : Ctl) (sid evseq : Nat) : Ctl :=
  match c.session? sid with
  | some x => c.putSession { x with events := x.events.filter (fun (e : Event) => evseq ≤ e.evseq), idleAt := c.now }
  | none => c

def execEventAck (sid : Nat) (evseq : BitVec 64) (s : State) : Host.Outcome State Fault Refusal :=
  done (s.onCtl (·.eventAck sid evseq.toNat))

/-- Events that wait for their acknowledgement are sent again every 1,000,000 T-ticks. -/
def Ctl.resendEvents (c : Ctl) : Ctl :=
  c.sessions.foldl (fun (d : Ctl) (x : Session) =>
    if !x.events.isEmpty && x.sentAt + 1000000 ≤ d.now then
      x.events.foldl (fun (d : Ctl) e => d.emitEvent x.sid e) (d.putSession { x with sentAt := d.now })
    else d) c

def execEventResend (s : State) : Host.Outcome State Fault Refusal :=
  done (s.onCtl (fun c => if c.rd Reg.coresUp = 0 then c else c.resendEvents))

end Sys2Proof.Machine
end

