-- ==== Sys2Proof/Machine/Debug.lean ====
section
/-! DEFINITION. JMP operations on registers, memory, the log, sensors and Tap, and the debug accesses they log (spec/19 Table
19.2; spec/17 R442; spec/20 R492-R497, R504, R505). -/

namespace Sys2Proof.Machine

/-- Log and count one debug access under the subject of the session's certificate (R442). -/
def Ctl.debugAccess (c : Ctl) (sid : Nat) : Ctl :=
  let sub := match c.session? sid with | some x => (Config.subject x.chain).toNat | none => 0
  (c.bump (Reg.secCtr 1)).report { rep 0x11 0x1D 0 with info := BitVec.ofNat 128 (sub * 256) }

def regSpace : Nat := 0x11000000

/-- The MSG registers of MBX_VIEW (Table 20.11). -/
def isMsgView (a : Nat) : Bool :=
  match entryAt a 0x0D820000 0x80 4095 with
  | some (_, o) => o < 0x40
  | none => false

/-- REG_READ (R492, R497): consecutive registers, none of MAIN while MAIN is not up. -/
def State.regRead (s : State) (sid a n : Nat) : State × Ans :=
  let as := (List.range n).map (fun i => a + 8 * i)
  if n = 0 || 1024 < n || a % 8 ≠ 0 || regSpace < a + 8 * n then (s, ans rBAD_ARG)
  else if !s.ctl.mainUp && as.any isMain then (s, ans rSTATE)
  else
    let ws := as.map s.readReg
    (s.onCtl (fun c => (as.filter isMsgView).foldl (fun d _ => d.debugAccess sid) c), (rOK, ws, []))

def execRegRead (sid : Nat) (addr : BitVec 64) (count : Nat) (s : State) : Host.Outcome State Fault Refusal :=
  done (s.jmp sid 0x01 (fun t => t.regRead sid addr.toNat count))

/-- A read of one register of MBX_VIEW (R505). -/
def execMbxViewRead (sid : Nat) (ep : Fin 4095) (word : Nat) (s : State) : Host.Outcome State Fault Refusal :=
  done (s.jmp sid 0x01 (fun t => if 16 ≤ word then (t, ans rBAD_ARG) else t.regRead sid (0x0D820000 + 0x80 * ep.val + 8 * word) 1))

/-- Write registers in ascending order, up to the first refusal or the first MAIN register while MAIN is not up (R494,
R495, R497). -/
def State.regWrites (s : State) (a : Nat) : List Word → State × Nat
  | [] => (s, rOK)
  | v :: t =>
    if !s.ctl.mainUp && isMain a then (s, rSTATE)
    else
      let r := s.writeReg a v
      if r.2 then (r.1, rREFUSED) else r.1.regWrites (a + 8) t

def execRegWrite (sid : Nat) (addr : BitVec 64) (values : List Word) (s : State) : Host.Outcome State Fault Refusal :=
  done (s.jmp sid 0x02 (fun t =>
    let a := addr.toNat
    if values.isEmpty || 1024 < values.length || a % 8 ≠ 0 || regSpace < a + 8 * values.length then (t, ans rBAD_ARG)
    else let r := t.regWrites a values; (r.1, ans r.2)))

/-! ### MEM_READ and MEM_WRITE (R442, R504) -/

/-- What a debug address of a bay names: an extent that covers the whole access, or the KV window. -/
def Ctl.debugTarget (c : Ctl) (bay : Nat) (a : Word) (n : Nat) : Option Target :=
  if reservedBits a then none
  else if isNode a && nodeOf a = 0xFFF then (if offsetOf a < 0x10000 then none else some (.kv (offsetOf a)))
  else (c.extCover bay a n).map (fun i => if isNode a then .node (nodeOf a) i else .flat i)

/-- The extent of a debug target that is coherent must have no line in an agent's cache (R180). -/
def State.debugHome (s : State) (bay : Nat) (t : Target) (a : Word) (n : Nat) (write : Bool) : Option (State × Nat) :=
  match t with
  | .flat i | .node _ i =>
    (match s.unitHome bay (s.ctl.ext i) a n write with
    | some (t, st, _) => some (t, if st = stRETRY then rBUSY else rSTATE)
    | none => if (s.ctl.lockedLine (s.ctl.targetSegs bay t a n)).isSome then some (s, rBUSY) else none)
  | _ => none

/-- The KV window serves the operator as it would a member of class CONTROL (R504). -/
def State.debugReadAt (s : State) (bay : Nat) (t : Target) (a : Word) (n : Nat) : Ans :=
  let raw : Ans := match s.rawRead bay t a n with | some b => (rOK, [], b) | none => ans rSTATE
  match t with
  | .kv off =>
    (match s.ctl.checkKv bay 0 off n false with
    | .fail _ _ => ans rBAD_ARG
    | .table i => (rOK, [], s.ctl.kvDescriptor bay i)
    | .data _ => raw)
  | _ => raw

def State.debugRead (s : State) (sid bay : Nat) (a : Word) (n : Nat) : State × Ans :=
  if n = 0 || 8192 < n then (s, ans rBAD_ARG)
  else if !s.ctl.mainUp then (s, ans rSTATE)
  else
    match s.ctl.debugTarget bay a n with
    | none => (s, ans rBAD_ARG)
    | some t =>
      let s := s.onCtl (·.debugAccess sid)
      match s.debugHome bay t a n false with
      | some (u, r) => (u, ans r)
      | none => (s, s.debugReadAt bay t a n)

def execMemRead (sid : Nat) (bay : BitVec 12) (addr : Word) (len : Nat) (s : State) : Host.Outcome State Fault Refusal :=
  done (s.jmp sid 0x03 (fun t => t.debugRead sid bay.toNat addr len))

def State.debugWriteAt (s : State) (bay : Nat) (t : Target) (a : Word) (data : List Byte) : State × Ans :=
  let raw : State × Ans := match s.rawWrite bay t a data with
    | .done u => (u, ans rOK)
    | .full => (s.onCtl (·.tierFull bay), ans rSTATE)
    | .refused => (s, ans rREFUSED)
    | .lost => (s, ans rSTATE)
  match t with
  | .kv off =>
    (match s.ctl.checkKv bay 0 off data.length true with
    | .fail _ _ => (s, ans rBAD_ARG)
    | .table i => (match s.kvDescWrite bay i data with
      | .ok u => (u, ans rOK)
      | .malformed => (s, ans rREFUSED)
      | .waits u => (u, ans rOK))
    | .data _ => raw)
  | .flat i | .node _ i =>
    if (s.ctl.ext i).coh then (raw.1.onCtl (fun c => c.markDirty (c.targetSegs bay t a data.length)), raw.2) else raw
  | _ => raw

def State.debugWrite (s : State) (sid bay : Nat) (a : Word) (data : List Byte) : State × Ans :=
  if data.isEmpty || 8192 < data.length then (s, ans rBAD_ARG)
  else if !s.ctl.mainUp then (s, ans rSTATE)
  else
    match s.ctl.debugTarget bay a data.length with
    | none => (s, ans rBAD_ARG)
    | some t =>
      let s := s.onCtl (·.debugAccess sid)
      match s.debugHome bay t a data.length true with
      | some (u, r) => (u, ans r)
      | none => s.debugWriteAt bay t a data

def execMemWrite (sid : Nat) (bay : BitVec 12) (addr : Word) (data : List Byte) (s : State) : Host.Outcome State Fault Refusal :=
  done (s.jmp sid 0x04 (fun t => t.debugWrite sid bay.toNat addr data))

/-! ### The log, sensors, Tap -/

/-- The entries of the ring and of flash with an LSEQ in a range, in order. -/
def Ctl.logRange (c : Ctl) (first n : Nat) : List LogEntry :=
  let l := c.err.flash ++ List.map (fun (e : Nat × LogEntry) => e.2) c.err.ring
  (List.range n).filterMap (fun i => l.find? (fun (e : LogEntry) => e.lseq == first + i))

def execLogRead (sid : Nat) (first : BitVec 64) (count : Nat) (s : State) : Host.Outcome State Fault Refusal :=
  done (s.jmpCtl sid 0x05 (fun c =>
    if count = 0 || 128 < count then (c, ans rBAD_ARG)
    else (c, (rOK, [], (c.logRange first.toNat count).flatMap LogEntry.bytes))))

/-- The registers of §19.3 in address order. -/
def sensorRegs : List Nat :=
  (List.range 104).map (fun i => 0x10400000 + 8 * i) ++ (List.range 13).map (fun i => 0x10401000 + 8 * i)
  ++ (List.range 9).map (fun i => 0x10402000 + 8 * i) ++ (List.range 520).map (fun i => 0x10403000 + 8 * i) ++ [0x10404000]

def execSensors (sid : Nat) (s : State) : Host.Outcome State Fault Refusal :=
  done (s.jmp sid 0x06 (fun t => (t, (rOK, sensorRegs.map t.readReg, []))))

def execTapTrigger (sid : Nat) (s : State) : Host.Outcome State Fault Refusal :=
  done (s.jmp sid 0x40 (fun t => (t.tapTrigger 1 0 0, ans rOK)))

def execTapArm (sid : Nat) (s : State) : Host.Outcome State Fault Refusal :=
  done (s.jmpCtl sid 0x41 (fun c => (c.wr Reg.tapArmed 1, ans rOK)))

/-- Banks of AUX blocks: GLB, SEC, PWR, JRN (Tables 19.8, 20.1). -/
def auxBank (b : Nat) : Bool := b = 0 || b = 47 || b = 48 || b = 49

/-- The words of a bank as latched; a bank of a MAIN block reads zeros while MAIN is off (R497). -/
def Ctl.tapRead (c : Ctl) (b : Nat) : List Word :=
  if c.mainUp || auxBank b then (List.range 64).map (fun w => c.reg (Reg.tapBank b w)) else List.replicate 64 0

def execTapRead (sid bank : Nat) (s : State) : Host.Outcome State Fault Refusal :=
  done (s.jmpCtl sid 0x42 (fun c => if 89 ≤ bank then (c, ans rBAD_ARG) else (c, (rOK, c.tapRead bank, []))))

def execDebugOpen (sid : Nat) (s : State) : Host.Outcome State Fault Refusal :=
  done (s.jmpCtl sid 0x39 (fun c => ((c.wr Reg.secDebugOpen 1).debugAccess sid, ans rOK)))

def execDebugClose (sid : Nat) (s : State) : Host.Outcome State Fault Refusal :=
  done (s.jmpCtl sid 0x3A (fun c => (c.wr Reg.secDebugOpen 0, ans rOK)))

/-! ### Endpoints, lasers, links, control ports -/

/-- EVICT (R464): refused for an endpoint without a live incarnation. -/
def execEvict (sid : Nat) (ep : BitVec 12) (s : State) : Host.Outcome State Fault Refusal :=
  done (s.jmp sid 0x20 (fun t =>
    if !t.ctl.mainUp then (t, ans rSTATE)
    else if ep = 0xFFF || !(t.ctl.ep ep.toNat).live then (t, ans rREFUSED) else (t.retireNow ep.toNat 2, ans rOK)))

/-- ELM_RELEASE (R34): the 16 ports of the module go DOWN. -/
def execElmRelease (sid elm : Nat) (s : State) : Host.Outcome State Fault Refusal :=
  done (s.jmpCtl sid 0x21 (fun c =>
    if 8 ≤ elm then (c, ans rBAD_ARG)
    else ((List.range 16).foldl (fun (d : Ctl) j => d.portDown (16 * elm + j)) (c.putElm elm { c.elm elm with released := true }), ans rOK)))

/-- ELM_RESTORE: the ports may train again; the module that was inserted has all its lasers. -/
def execElmRestore (sid elm : Nat) (s : State) : Host.Outcome State Fault Refusal :=
  done (s.jmpCtl sid 0x22 (fun c => if 8 ≤ elm then (c, ans rBAD_ARG) else (c.putElm elm Elm.init, ans rOK)))

/-- LINK_QUAR (Table 3.5). -/
def execLinkQuar (sid port sub : Nat) (s : State) : Host.Outcome State Fault Refusal :=
  done (s.jmpCtl sid 0x23 (fun c =>
    if 128 ≤ port || 4 ≤ sub then (c, ans rBAD_ARG)
    else if !c.mainUp || c.cfgLanes port sub = 0 then (c, ans rSTATE)
    else (c.linkQuar port sub, ans rOK)))

/-- NETCFG: held in flash and applied at the next link entry to UP. -/
def execNetcfg (sid : Nat) (cfg : NetCfg) (s : State) : Host.Outcome State Fault Refusal :=
  done (s.jmpCtl sid 0x38 (fun c =>
    if cfg.vid = 0xFFF || cfg.jmpPort = 0 then (c, ans rBAD_ARG)
    else ({ c with flash := { c.flash with net := setAt c.flash.net cfg.port.val cfg } }, ans rOK)))

end Sys2Proof.Machine
end

