-- ==== Sys2Proof/Machine/Firmware.lean ====
section
/-! DEFINITION. Firmware update, keys, anti-rollback, SPDM, trust anchors over JMP (spec/19 §19.4, spec/17 §17.3, §17.4). -/

namespace Sys2Proof.Machine

/-- FW_STATE reports a state of JRN_STATUS.FW_STATE. -/
def Ctl.fwStep (c : Ctl) (st : Nat) : Ctl := (c.wr Reg.fwState st).event evFwState [st]

/-- An update's steps 2 to 4 are in progress: its writing, or its staging by a session that is still open (R483). -/
def Ctl.fwBusy (c : Ctl) : Bool :=
  c.rd Reg.fwState = 3 || ((c.rd Reg.fwState = 1 || c.rd Reg.fwState = 2) && (c.session? c.staging.owner).isSome)

def execFwBegin (sid len : Nat) (s : State) : Host.Outcome State Fault Refusal :=
  done (s.jmpCtl sid 0x30 (fun c =>
    if c.fwBusy then (c, ans rBUSY)
    else if len = 0 || 2 ^ 25 < len then (c, ans rBAD_ARG)
    else ({ c with staging := { c.staging with len := len, bytes := [], owner := sid } }.wr Reg.fwState 1, ans rOK)))

/-- The session whose update is being staged. -/
def Ctl.fwOwner (c : Ctl) (sid : Nat) : Bool := c.rd Reg.fwState = 1 && c.staging.owner = sid

def execFwData (sid off : Nat) (data : List Byte) (s : State) : Host.Outcome State Fault Refusal :=
  done (s.jmpCtl sid 0x31 (fun c =>
    if !c.fwOwner sid then (c, ans rSTATE)
    else if c.staging.len < off + data.length then (c, ans rBAD_ARG)
    else ({ c with staging := { c.staging with bytes := stageBytes c.staging.bytes off data } }, ans rOK)))

/-- FW_VERIFY: the checks of R431; then flash is erased and written (Table 19.6 step 4). -/
def execFwVerify (sid : Nat) (s : State) : Host.Outcome State Fault Refusal :=
  done (s.jmpCtl sid 0x32 (fun c =>
    if !c.fwOwner sid then (c, ans rSTATE)
    else if imageOk c.fuses (stagedImage c.staging.bytes c.staging.len) then
      ({ c with flash := { c.flash with image := none } }.fwStep 3, ans rOK)
    else (c.imageRefused.wr Reg.fwState 0, ans rREFUSED)))

/-- The flash write ends. -/
def execFwWritten (s : State) : Host.Outcome State Fault Refusal :=
  done (s.onCtl (fun c =>
    if c.rd Reg.fwState = 3 then
      { c with flash := { c.flash with image := some (stagedImage c.staging.bytes c.staging.len) } }.fwStep 4
    else c))

def execFwActivate (sid : Nat) (s : State) : Host.Outcome State Fault Refusal :=
  done (s.jmpThen sid 0x33 (fun c => if c.rd Reg.fwState = 4 then rOK else rSTATE) (·.onCtl (·.mgmtReset 3)))

/-- KEY_ROTATE (R432): firmware signed under slot 0 burns slot 1. -/
def execKeyRotate (sid : Nat) (s : State) : Host.Outcome State Fault Refusal :=
  done (s.jmpCtl sid 0x34 (fun c =>
    if c.rd Reg.secKeySlot = 0 && !c.fuses.slot0Revoked then
      ({ c with fuses := { c.fuses with slot0Revoked := true } }, ans rOK)
    else (c, ans rSTATE)))

/-- SVN_COMMIT (R433): only upward, to the SVN of the running image. -/
def execSvnCommit (sid : Nat) (s : State) : Host.Outcome State Fault Refusal :=
  done (s.jmpCtl sid 0x35 (fun c =>
    if c.fuses.svn < c.runningSvn then ({ c with fuses := { c.fuses with svn := c.runningSvn } }, ans rOK) else (c, ans rREFUSED)))

/-- An SPDM request is answered (R436). -/
def execSpdm (sid : Nat) (msg : List Byte) (s : State) : Host.Outcome State Fault Refusal :=
  done (s.jmpCtl sid 0x36 (fun c =>
    ({ c.bump (Reg.secCtr 2) with freeCtr := c.freeCtr + 1 }, (rOK, [], Config.spdmAnswer c.freeCtr msg))))

/-- Sessions whose anchor is no longer held end (R479). -/
def Ctl.endUnanchored (c : Ctl) : Ctl :=
  { c with sessions := c.sessions.filter (fun (x : Session) => c.flash.anchors.contains x.anchor) }

/-- ANCHOR_SET: a key hash of 48 bytes, or zero to remove the anchor. -/
def execAnchorSet (sid slot : Nat) (hash : List Byte) (s : State) : Host.Outcome State Fault Refusal :=
  done (s.jmpThen sid 0x37 (fun _ => if 4 ≤ slot || hash.length ≠ 48 then rBAD_ARG else rOK) (fun t => t.onCtl (fun c =>
    let h := if hash.all (· == 0) then [] else hash
    { c with flash := { c.flash with anchors := setAt c.flash.anchors slot h } }.endUnanchored)))

end Sys2Proof.Machine
end

