-- ==== Sys2Proof/Machine/Voxhal.lean ====
section
/-! DEFINITION. Control and memory instructions (spec/10 §10.2, §10.3). -/

namespace Sys2Proof.Machine

/-- NOP has no effect and completes at issue (R255). -/
def actNop (x : QInst) : Act QInst := do return x.ok

def execNop (queue : Fin 16384) (index : BitVec 32) (s : State) : Host.Outcome State Fault Refusal :=
  done (s.startInst queue.val index.toNat 0x00 actNop)

/-- WAIT (R257): the index is checked first; at or above the target it completes, else it waits. -/
def actWait (q : Nat) (x : QInst) : Act QInst := do
  let c ← Act.ctl
  let i ← Act.counter (c.rd (Reg.queBay q)) (field (entA x.entry) 0 20)
  let v := (c.counter i).toNat
  if entB x.entry ≤ v then return { x with info := v }.ok
  return { x with phase := .running }

def execWait (queue : Fin 16384) (index : BitVec 32) (s : State) : Host.Outcome State Fault Refusal :=
  done (s.startInst queue.val index.toNat 0x01 (actWait queue.val))

/-- A WAIT under way. -/
def Ctl.waiting? (c : Ctl) (q index : Nat) : Option QInst :=
  c.inst? q index (fun x => x.phase == .running && entOpcode x.entry == 0x01)

def execWaitSatisfied (queue : Fin 16384) (index : BitVec 32) (s : State) : Host.Outcome State Fault Refusal :=
  done (match s.ctl.waiting? queue.val index.toNat with
    | some x => s.runInst queue.val x (actWait queue.val)
    | none => s)

def execWaitExpired (queue : Fin 16384) (index : BitVec 32) (s : State) : Host.Outcome State Fault Refusal :=
  done (match s.ctl.waiting? queue.val index.toNat with
    | some x =>
      if s.ctl.waitLimit queue.val x ≤ s.ctl.now - x.since
      then s.onCtl (fun c => c.putInst queue.val (x.finish stTIMEOUT dWAITEXPIRED)) else s
    | none => s)

/-- SIGNAL (R258): a CTR ADD at issue. -/
def actSignal (q : Nat) (x : QInst) : Act QInst := do
  let c ← Act.ctl
  let i ← Act.counter (c.rd (Reg.queBay q)) (field (entA x.entry) 0 20)
  let c := c.addCounter i (entB x.entry)
  Act.onCtl (fun _ => c)
  return { x with info := (c.counter i).toNat }.ok

def execSignal (queue : Fin 16384) (index : BitVec 32) (s : State) : Host.Outcome State Fault Refusal :=
  done (s.startInst queue.val index.toNat 0x02 (actSignal queue.val))

/-- FENCE (R259): every operation that earlier instructions have made is applied when it is made (DESIGN CHOICE, log entry 14). -/
def execFenceInstr (queue : Fin 16384) (index : BitVec 32) (s : State) : Host.Outcome State Fault Refusal :=
  done (s.startInst queue.val index.toNat 0x03 actNop)

/-- HALT (R261): completes OK; its completion stops the queue. -/
def execHalt (queue : Fin 16384) (index : BitVec 32) (s : State) : Host.Outcome State Fault Refusal :=
  done (s.startInst queue.val index.toNat 0x05 actNop)

/-- LOOP (R262): jump back to the body, or complete. The fifth active loop runs with COUNT 0. -/
def State.runLoop (s : State) (q : Nat) (x : QInst) : State :=
  let y := s.ctl.que q
  let n := s.ctl.queSize q
  let d0 := field (entB x.entry) 0 20
  let d := clampNat 1 (n - 1) d0
  let active := y.loops.find? (fun e => e.1 == x.index)
  let full := active.isNone && 4 ≤ y.loops.length && entCount x.entry ≠ 0
  let count := if full then 0 else entCount x.entry
  let x := { x with flags := if d ≠ d0 || full then Nat.lor x.flags crCLAMPED else x.flags }
  let passes := match active with | some e => e.2 | none => 0
  let others := y.loops.filter (fun e => e.1 != x.index)
  if passes < count then
    s.onCtl (·.putQue q { y with loops := (x.index, passes + 1) :: others, head := (x.index + 2 ^ 32 - d) % 2 ^ 32, fetched := [],
                                 insts := y.insts.filter (fun (z : QInst) => z.serial != x.serial) })
  else
    let z := { y with loops := others, insts := y.insts.map (fun (w : QInst) => if w.serial = x.serial then { x with count := passes + 1 }.ok else w) }
    s.onCtl (·.putQue q (match entSetm x.entry with | some m => z.nameMark m x.serial | none => z))

def execLoop (queue : Fin 16384) (index : BitVec 32) (s : State) : Host.Outcome State Fault Refusal :=
  done (match s.ctl.inst? queue.val index.toNat (fun x => x.phase == .issued && entOpcode x.entry == 0x06) with
    | some x => s.runLoop queue.val x
    | none => s)

/-- POST (R264): the value as a doorbell of a slot of the queue's bay. A clamped POST adds 1 to the clamp counter once, at
its completion. -/
def State.runPost (s : State) (q : Nat) (x : QInst) : State :=
  let bay := s.ctl.rd (Reg.queBay q)
  match s.ctl.slotQueue bay (field (entA x.entry) 0 6) with
  | none => s.onCtl (·.putInst q (x.finish stACCESS dNONE))
  | some p =>
    let before := s.ctl.reg (Reg.bayClamp bay)
    let r := s.ctl.doorbell p (entB x.entry)
    let c := if r.2 then r.1.putReg (Reg.bayClamp bay) before else r.1
    { s with ctl := c.putInst q { x with info := (c.que p).tail, flags := if r.2 then Nat.lor x.flags crCLAMPED else x.flags }.ok }

def execPost (queue : Fin 16384) (index : BitVec 32) (s : State) : Host.Outcome State Fault Refusal :=
  done (match s.ctl.inst? queue.val index.toNat (fun x => x.phase == .issued && entOpcode x.entry == 0x07) with
    | some x => s.runPost queue.val x
    | none => s)

/-- COPY and ZERO (R265, R399): a length of 0 completes at once; else an INSTR channel takes it. -/
def actMove (q : Nat) (x : QInst) : Act QInst := do
  let (bay, _) := (← Act.ctl).queCtx q
  let e := x.entry
  if entC e = 0 then return x.ok
  let _ ← Act.addr (entA e)
  if entOpcode e = 0x10 then let _ ← Act.addr (entB e)
  match ← Act.channel bay q x with
  | none => return x
  | some _ => return { x with phase := .running }

def execCopy (queue : Fin 16384) (index : BitVec 32) (s : State) : Host.Outcome State Fault Refusal :=
  done (s.startInst queue.val index.toNat 0x10 (actMove queue.val))

def execZero (queue : Fin 16384) (index : BitVec 32) (s : State) : Host.Outcome State Fault Refusal :=
  done (s.startInst queue.val index.toNat 0x15 (actMove queue.val))

/-- STREAM (R211, R266, Table 10.5): the block is read and clamped, the 2W counters are set to 0, the slot pages hinted. -/
def actStream (q : Nat) (x : QInst) : Act QInst := do
  let (bay, ep) := (← Act.ctl).queCtx q
  let p ← Act.param bay ep (entA x.entry) 64
  let w ← Act.range (leAt p 0 2) 1 64
  let n ← Act.range (leAt p 2 2) 1 4095
  let layers ← Act.range (leAt p 4 4) 1 65535
  let sz ← Act.clamp (leAt p 8 8) (clampNat 65536 (2 ^ 30) (leAt p 8 8) / 65536 * 65536)
  let base0 ← Act.addr (leAt p 16 8)
  let base ← Act.clamp base0 (base0 / 65536 * 65536)
  let tab ← Act.addr (leAt p 32 8)
  Act.zero (leAt p 40 24)
  let ready := leAt p 24 4
  let rel := leAt p 28 4
  let _ ← Act.counter bay (ready + w - 1)
  let _ ← Act.counter bay (rel + w - 1)
  let r0 ← Act.counter bay ready
  let f0 ← Act.counter bay rel
  Act.onCtl (fun c => (List.range w).foldl (fun d i => (d.putCounter (r0 + i) 0).putCounter (f0 + i) 0) c)
  if !bitOf base 63 then Act.onCtl (fun c => (c.hintRange bay base (w * sz) 5).1)
  let c ← Act.ctl
  return { x with phase := .running, step := 0, waitFrom := c.now,
                  param := leBytes 2 w ++ leBytes 2 n ++ leBytes 4 layers ++ leBytes 8 sz ++ leBytes 8 base ++ leBytes 4 ready
                           ++ leBytes 4 rel ++ leBytes 8 tab ++ zeros 24 }

def execStream (queue : Fin 16384) (index : BitVec 32) (s : State) : Host.Outcome State Fault Refusal :=
  done (s.startInst queue.val index.toNat 0x11 (actStream queue.val))

/-- A STREAM between fills. -/
def Ctl.streaming? (c : Ctl) (q index : Nat) : Option QInst :=
  c.inst? q index (fun x => x.phase == .running && entOpcode x.entry == 0x11 && x.step == 0)

/-- The release condition of the next fill (R212): Fs ≥ k × C. -/
def Ctl.released (c : Ctl) (q : Nat) (x : QInst) : Bool :=
  let w := leAt x.param 0 2
  let i := leAt x.param 28 4 + x.pos % w
  let bay := c.rd (Reg.queBay q)
  i < c.rd (Reg.winCount bay) && x.pos / w * leAt x.param 2 2 ≤ (c.counter (c.rd (Reg.winFirst bay) + i)).toNat

/-- STREAM_FILL: the next layer's fill starts on an INSTR channel (R212, R399). -/
def execStreamFill (queue : Fin 16384) (index : BitVec 32) (s : State) : Host.Outcome State Fault Refusal :=
  done (match s.ctl.streaming? queue.val index.toNat with
    | some x =>
      if s.ctl.released queue.val x then
        s.runInst queue.val x (fun x => do
          match ← Act.channel (s.ctl.rd (Reg.queBay queue.val)) queue.val x with
          | none => return x
          | some _ => return { x with step := 1 })
      else s
    | none => s)

def execStreamFillTimeout (queue : Fin 16384) (index : BitVec 32) (s : State) : Host.Outcome State Fault Refusal :=
  done (match s.ctl.streaming? queue.val index.toNat with
    | some x =>
      if !s.ctl.released queue.val x && s.ctl.waitLimit queue.val x ≤ s.ctl.now - x.waitFrom
      then s.onCtl (·.putInst queue.val (x.finish stTIMEOUT dWAITEXPIRED)) else s
    | none => s)

/-- HINT (R267): it completes once its migrations are queued, or done under WAITMIG. -/
def actHint (q : Nat) (x : QInst) : Act QInst := do
  let c ← Act.ctl
  let bay := c.rd (Reg.queBay q)
  let a ← Act.addr (entA x.entry)
  let code ← Act.clamp (field (entC x.entry) 0 3) (if field (entC x.entry) 0 3 < 6 then field (entC x.entry) 0 3 else 0)
  let r := c.hintRange bay a (entB x.entry) code
  Act.onCtl (fun _ => r.1)
  let y := { x with count := r.2.1.length, info := r.2.2, todo := r.2.1 }
  return (if bitOf (entOpf x.entry) 0 && !r.2.1.isEmpty then { y with phase := .running } else y.ok)

def execHint (queue : Fin 16384) (index : BitVec 32) (s : State) : Host.Outcome State Fault Refusal :=
  done (s.startInst queue.val index.toNat 0x12 (actHint queue.val))

/-- PUBLISH on the owner's behalf (R216, R217, R268). -/
def actPublish (q : Nat) (x : QInst) : Act QInst := do
  let c ← Act.ctl
  let (bay, ep) := c.queCtx q
  let r := field (entA x.entry) 0 16
  match (c.bay bay).cur.bind (·.classOf ep) with
  | none => Act.stop stREMAP dNONE
  | some k =>
    if (c.bay bay).halted then Act.stop stPOISONED dFATALHALT
    else if !c.regionOk bay k r rightP then Act.stop stACCESS dNONE
    else
      let p := c.publish ep r (field (entB x.entry) 0 32)
      Act.onCtl (fun _ => p.1)
      let v := p.1.rd (Reg.regionVersion r)
      return (if p.2 then { x with info := v }.ok
        else { x with info := v + p.1.rd (Reg.regionLastEp r) * 2 ^ 32 }.finish stCONFLICT dNONE)

def execPublishInstr (queue : Fin 16384) (index : BitVec 32) (s : State) : Host.Outcome State Fault Refusal :=
  done (s.startInst queue.val index.toNat 0x13 (actPublish queue.val))

/-- One entry of ATOMICS: its atomic (R162-R165, R190, R269), without a Peg entry. Answers status, detail, OLD and AFLAGS;
a RETRY stops the action, so that the entry is tried again. -/
def atomicEntry (bay ep : Nat) (e : List Byte) : Act (Byte × Byte × Nat × Byte) := do
  let a ← Act.addr (leAt e 0 8)
  let op := atomicOf (e.drop 8)
  let aw : Word := BitVec.ofNat 64 a
  let n := atomicSize op.ty
  if !atomicTypeOk op.op op.ty || !op.zeroOk || a % n ≠ 0 then return (stACCESS, dMALFORMED, 0, 0)
  let x ← get
  let s := x.s
  let home : Bool := isNode aw && (nodeOf aw == 0xFFF || !s.ctl.isTray (nodeOf aw))
  match s.ctl.checkUnit bay ep aw n (if home then none else some rightA) with
  | .fail st d _ job =>
    if home && !reservedBits aw && st = stACCESS then return (stACCESS, dNOHOME, 0, 0)
    match job with
    | some j => Act.onCtl (·.jobFault bay j)
    | none => pure ()
    return (st, d, 0, 0)
  | .pass t _ _ =>
    if home then return (stACCESS, dNOHOME, 0, 0)
    let ei := match t with | .flat i => i | .node _ i => i | _ => 0
    match s.unitHome bay (s.ctl.ext ei) aw n true with
    | some (s', st, d) =>
      set { x with s := s' }
      if st = stRETRY then Act.stop st d
      return (st, d, 0, 0)
    | none =>
      if (s.ctl.lockedLine (s.ctl.targetSegs bay t aw n)).isSome then Act.stop stRETRY dLINEHELD
      match s.atomic bay t aw op with
      | .done s' old applied _ =>
        set { x with s := s'.onCtl (fun c => c.markDirty (c.targetSegs bay t aw n)) }
        return (stOK, dNONE, old, if applied then afAPPLIED else 0)
      | .full => Act.onCtl (·.tierFull bay); return (stACCESS, dNONE, 0, 0)
      | .refused => return (stACCESS, dNONE, 0, 0)
      | .lost =>
        let r := s.ctl.memLost bay ep (s.ctl.targetFatal bay t)
        set { x with s := { s with ctl := r.1 } }
        return (stPOISONED, r.2, 0, 0)

/-- ATOMICS (R269): the entries in ascending order from where it stands. `data` holds the first failure (status, detail,
index) under 0 and, under 1, the result of an entry whose atomic is done and whose result is still to be written. -/
def actAtomics (q : Nat) (x : QInst) : Act QInst := do
  let (bay, ep) := (← Act.ctl).queCtx q
  let n := clampNat 1 4096 (entCount x.entry)
  if x.pos = 0 && x.data.isEmpty then
    let _ ← Act.clamp (entCount x.entry) n
    let _ ← Act.addr (entA x.entry)
    let _ ← Act.addr (entB x.entry)
  let src := (clearReserved (BitVec.ofNat 64 (entA x.entry))).toNat
  let dst := (clearReserved (BitVec.ofNat 64 (entB x.entry))).toNat
  let mut y := { x with phase := .running }
  for j in (List.range n).drop x.pos do
    match y.data.find? 1 with
    | some _ => pure ()
    | none =>
      let e ← Act.read bay ep (src + 48 * j) 48 rightR
      let (st, d, old, af) ← atomicEntry bay ep e
      y := { y with data := y.data.put 1 [st.toNat, d.toNat, old, af.toNat] }
      Act.save q y
    let r := (y.data.find? 1).getD []
    let body := leBytes 16 (natAt r 2) ++ leBytes 1 (natAt r 3) ++ leBytes 1 (natAt r 0) ++ zeros 6
    let a ← get
    let (s, wst, wd) : State × Byte × Byte := match (Act.write bay ep (dst + 24 * j) body).run a with
      | .ok r => (r.2.s, stOK, dNONE)
      | .error e => (e.ax.s, e.status, e.detail)
    set { a with s := s }
    if wst = stRETRY then Act.stop wst wd
    let bad := if natAt r 0 ≠ 0 then some (natAt r 0, natAt r 1) else if wst ≠ stOK then some (wst.toNat, wd.toNat) else none
    y := { y with pos := j + 1, data := y.data.del 1 }
    match bad with
    | none => y := { y with count := y.count + 1 }
    | some (st, d) => if (y.data.find? 0).isNone then y := { y with data := y.data.put 0 [st, d, j] }
    Act.save q y
  match y.data.find? 0 with
  | none => return { y with info := 2 ^ 64 - 1 }.ok
  | some f => return { y with info := natAt f 2 }.finish (BitVec.ofNat 8 (natAt f 0)) (BitVec.ofNat 8 (natAt f 1))

def execAtomics (queue : Fin 16384) (index : BitVec 32) (s : State) : Host.Outcome State Fault Refusal :=
  done (s.startInst queue.val index.toNat 0x14 (actAtomics queue.val))

end Sys2Proof.Machine
end

