-- ==== Sys2Proof/Machine/Late.lean ====
section
/-! DEFINITION. What ends later than it began: internal retries and limits (R248), the second phase of two-phase
instructions (R256, R308, R323), the test bar's verdicts (R467, R468), spare Crucibles (R469). -/

namespace Sys2Proof.Machine

/-! ### Internal RETRY -/

/-- The effect that an opcode has when it is issued, as its own row gives it (Table 9.3). -/
def actOf (q : Nat) (x : QInst) : Act QInst :=
  match entOpcode x.entry with
  | 0x01 => actWait q x
  | 0x02 => actSignal q x
  | 0x04 => actTap q x
  | 0x10 => actMove q x
  | 0x11 => actStream q x
  | 0x12 => actHint q x
  | 0x13 => actPublish q x
  | 0x14 => actAtomics q x
  | 0x15 => actMove q x
  | 0x20 => actPost q 0x20 x
  | 0x21 => actPost q 0x21 x
  | 0x22 => actPost q 0x22 x
  | 0x23 => actPost q 0x23 x
  | 0x24 => actPost q 0x24 x
  | 0x28 => actIndexed q x
  | 0x29 => actIndexed q x
  | 0x2A => actDispatch q x
  | 0x2B => actCombine q x
  | 0x30 => actFilter q x
  | 0x31 => actTopk q x
  | 0x32 => actCompact q x
  | 0x40 => actAttend q x
  | 0x41 => actAppend q x
  | 0x42 => (do
      let y ← actPrefix q 0 x
      if y.phase == .issued then actPrefix q 1 y else return y)
  | 0x43 => actFork q x
  | 0x50 => actLaunch q x
  | 0x51 => actPlace q x
  | 0x58 => actPack q x
  | 0x59 => actUnpack q x
  | 0x60 => actSelftest q x
  | _ => actNop x

/-- The limit on an instruction's internal RETRY (Table 9.7): its own, or the transport give-up (R89). -/
def Ctl.retryLimit (c : Ctl) (q : Nat) (x : QInst) : Nat :=
  let o := entOpcode x.entry
  if o = 0x01 then c.waitLimit q x
  else if 0x20 ≤ o && o ≤ 0x24 then c.rd Reg.straggler
  else c.rd Reg.rtxTimeout * (c.rd Reg.rtxLimit + 1)

/-- INTERNAL_RETRY: the operation answered RETRY is made again; past the limit the last RETRY is the outcome. Pieces,
fills and passes are made again by their own events. -/
def execInternalRetry (queue : Fin 16384) (index : BitVec 32) (s : State) : Host.Outcome State Fault Refusal :=
  let q := queue.val
  done (match s.ctl.inst? q index.toNat (fun x => x.retry.isSome) with
    | none => s
    | some x =>
      match x.retry with
      | none => s
      | some r =>
        let o := entOpcode x.entry
        if s.ctl.retryLimit q x ≤ s.ctl.now - r.2.2 then s.onCtl (fun c => c.putInst q (x.finish r.1 r.2.1))
        else if x.phase == .issued && s.ctl.rd Reg.glbState == 3 then s.onCtl (fun c => c.putInst q (x.finish stBUSY dNONE))
        else if x.phase == .issued || o == 0x14 || o == 0x23 || o == 0x24 then s.runInst q x (actOf q)
        else s)

/-! ### Phase 2 -/

/-- A bay's request-state area is lost (R256). -/
def Ctl.rsaLost (c : Ctl) (bay : Nat) : Bool := (c.rsa bay).groups.any c.rsaGroupLost

/-- The detail PHASE_LOST. -/
def dPHASELOST : Byte := 0x34

/-- End a two-phase instruction for which the request-state area was lost after so many phases. -/
def State.phaseLost (s : State) (q : Nat) (x : QInst) (phases : Nat) : State :=
  s.onCtl (fun c => (c.putInst q ({ x with info := phases }.finish stPOISONED dPHASELOST)).bump (Reg.cruCtr 4))

/-- The same for every participant of an ALLREDUCE. -/
def State.collLost (s : State) (k : Coll) : State :=
  let n := (k.posts.filter (fun (p : CollPost) => match s.ctl.instOf p.queue p.serial with
    | some x => (match x.phase with | .finished _ _ => false | _ => true)
    | none => false)).length
  s.onCtl (fun c => (c.failColl k stPOISONED dPHASELOST).bumpBy (Reg.cruCtr 4) n)

/-- The two-phase collective of an instruction. -/
def Ctl.twoPhaseOf (c : Ctl) (x : QInst) : Option (Coll × CollPost) :=
  c.colls.findSome? (fun (k : Coll) =>
    if k.twoPhase && k.failed.isNone then (k.posts.find? (fun (p : CollPost) => p.serial == x.serial)).map (fun p => (k, p)) else none)

/-- PHASE_TWO: TOPK, ATTEND with INSERT and ALLREDUCE go on from the request-state area, or lose it. -/
def execPhaseTwo (queue : Fin 16384) (index : BitVec 32) (s : State) : Host.Outcome State Fault Refusal :=
  let q := queue.val
  done (match s.ctl.inst? q index.toNat (fun x => x.phase == .running) with
    | none => s
    | some x =>
      let lost := s.ctl.rsaLost (s.ctl.queCtx q).1
      let o := entOpcode x.entry
      if o = 0x31 then
        if topkSegs x.param ≤ 1 then s
        else if lost then s.phaseLost q x (b2n x.todo.isEmpty)
        else if x.todo.isEmpty then s.runInst q x (actTopkTwo q)
        else s
      else if o = 0x40 && bitOf (entOpf x.entry) 0 then
        if lost then s.phaseLost q x x.step
        else if x.step = 1 then s.runInst q x (actAttendTwo q)
        else s
      else
        match s.ctl.twoPhaseOf x with
        | none => s
        | some (k, p) =>
          if !k.begun then s
          else if lost then s.collLost k
          else if k.phase = 1 then s.runInst q x (actAllgather k p)
          else s)

/-- REQUEST_STATE_TIMEOUT (R248, R308, R323): the wait for request-state space has lasted SEQ_CFG.STRAGGLER. -/
def execRequestStateTimeout (queue : Fin 16384) (index : BitVec 32) (s : State) : Host.Outcome State Fault Refusal :=
  let q := queue.val
  let late (x : QInst) : Bool := decide (s.ctl.rd Reg.straggler ≤ s.ctl.now - x.since)
  done (match s.ctl.inst? q index.toNat late with
    | none => s
    | some x =>
      if x.phase == .issued && x.step == stepWaits then s.onCtl (fun c => c.putInst q (x.finish stBUSY dNONE))
      else
        match s.ctl.twoPhaseOf x with
        | some (k, _) =>
          if !k.begun && k.members.all (fun e => k.posts.any (fun (p : CollPost) => p.ep == e))
          then s.onCtl (·.failColl k stBUSY dNONE) else s
        | none => s)

/-! ### The test bar's verdicts -/

/-- The waiting recheck of an item. -/
def Ctl.recheck? (c : Ctl) (item : Nat) (kind : ItemKind) : Option Recheck :=
  c.rechecks.find? (fun (r : Recheck) => r.item == item && r.kind == kind)

def Ctl.dropRecheck (c : Ctl) (r : Recheck) : Ctl :=
  { c with rechecks := c.rechecks.filter (fun (y : Recheck) => !(y.item == r.item && y.kind == r.kind)) }

/-- The second and third unit that compute an item (R467): a hash of the item number picks among those in service. -/
def Ctl.checkers (c : Ctl) (r : Recheck) : List Nat :=
  let l := c.others r.kind r.first
  match l[Config.unitHash r.item 0 0 % l.length]? with
  | none => []
  | some u =>
    let m := l.filter (· != u)
    match m[Config.unitHash r.item 0 0 % m.length]? with
    | none => [u]
    | some v => [u, v]

/-- Set CHECKED when the item was rechecked. -/
def Act.checked (b : Bool) : Act Unit := if b then Act.flag crCHECKED else pure ()

/-- The instruction that an item belongs to, while it runs. -/
def Ctl.ownerInst (c : Ctl) (r : Recheck) : Option QInst :=
  match c.instOf r.queue r.owner with
  | some x => if x.phase == .running then some x else none
  | none => none

/-- Release an item (R467): its writes are made, its states counted; CHECKED is set when it was rechecked. -/
def State.releaseItem (s : State) (r : Recheck) (chk : Bool) : State :=
  match r.kind with
  | .chunk =>
    let s := match s.ctl.collOf r.owner with
      | some k => if chk then s.onCtl (fun c => c.onPosts k (fun _ x => { x with flags := Nat.lor x.flags crCHECKED })) else s
      | none => s
    s.runAct (actRelease r.owner r.piece r.outs.tail (match r.outs with | w :: _ => w.data | [] => []))
  | .combinePiece =>
    (match s.ctl.ownerInst r with
    | none => s
    | some x => s.runInst r.queue x (fun x => do
        Act.writeAll r.bay r.outs
        Act.tally (Reg.runCtr 3) r.nans
        Act.checked chk
        return { x with count := x.count + r.nans, held := x.held - 1 }.pieceDone r.piece))
  | .cupolaPass =>
    (match s.ctl.ownerInst r with
    | none => s
    | some x => s.runInst r.queue x (fun x => do
        Act.checked chk
        return { x with rows := putAll x.rows r.rows, held := x.held - 1 }))
  | .patternBlock =>
    if r.outs.isEmpty then
      s.onCtl (fun c =>
        let t := c.tile r.owner
        let b := t.buf r.piece
        let c := if b.src.isSome then c.putTile r.owner (t.putBuf r.piece { b with src := none, ready := true }) else c
        match c.runner? r.owner with
        | some p => if chk then c.launchFlag p crCHECKED else c
        | none => c)
    else
      match s.ctl.ownerInst r with
      | none => s
      | some x => s.runInst r.queue x (fun x => do
          Act.writeAll r.bay r.outs
          Act.checked chk
          return { x with count := x.count + 1, held := x.held - 1 }.unpackDone)

/-- The item is still held: its release met RETRY and is made again. -/
def Ctl.stillHeld (c : Ctl) (r : Recheck) : Bool :=
  match r.kind with
  | .chunk => (match c.collOf r.owner with | some k => k.held.contains r.piece | none => false)
  | _ => (match c.ownerInst r with | some x => x.retry.isSome | none => false)

/-- No two results agree (R467): what the item belongs to ends POISONED. -/
def Ctl.poisonItem (c : Ctl) (r : Recheck) : Ctl :=
  match r.kind with
  | .chunk => (match c.collOf r.owner with | some k => c.failColl k stPOISONED dNONE | none => c)
  | .patternBlock =>
    if r.outs.isEmpty then (match c.runner? r.owner with | some p => c.stopPlace p stPOISONED dNONE | none => c)
    else c.endInst r.queue r.owner stPOISONED dNONE
  | _ => c.endInst r.queue r.owner stPOISONED dNONE

/-- Charge a unit under R467; where R468 takes it out of service its running work is run again, and a LAUNCH on it ends. -/
def Ctl.chargeFor (c : Ctl) (r : Recheck) (cls u : Nat) : Ctl :=
  let k := itemUnit r.kind
  let was := (c.unit k u).st
  let c := c.chargeUnit r.kind u cls
  if was = .inService && (c.unit k u).st ≠ .inService then
    let c := c.rerunHeld k u
    if k = .tile then (match c.runner? u with | some p => c.stopPlace p stPOISONED dNONE | none => c) else c
  else c

/-- The other units have done the item's work. -/
def Ctl.workedAll (c : Ctl) (r : Recheck) (us : List Nat) : Ctl := us.foldl (fun d u => d.worked (itemUnit r.kind) u r.bay) c

/-- A recheck ends with a release; a release that met RETRY leaves the recheck as it was. -/
def State.settleItem (s : State) (r : Recheck) (chk : Bool) (after : Ctl → Ctl) : State :=
  let t := s.releaseItem r chk
  if t.ctl.stillHeld r then t else t.onCtl (fun c => after (c.dropRecheck r))

/-- RECHECK_RESULT (R467): the item is released, decided by a third unit, or poisoned. -/
def execRecheckResult (item : Nat) (kind : ItemKind) (found : RecheckOutcome) (s : State) : Host.Outcome State Fault Refusal :=
  done (match s.ctl.recheck? item kind with
    | none => s
    | some r =>
      let us := s.ctl.checkers r
      let need := if found = .agree then 1 else 2
      if us.length < need then s.settleItem r false (fun c => c.bump (Reg.tbrCtr 3))
      else
        let us := us.take need
        match found with
        | .agree => s.settleItem r true (fun c => (c.workedAll r us).bump (Reg.tbrCtr 0))
        | .dissent w =>
          s.settleItem r true (fun c =>
            (((c.workedAll r us).bump (Reg.tbrCtr 0)).bump (Reg.tbrCtr 1)).chargeFor r 0x12 ((r.first :: us).getD w.val r.first))
        | .allDiffer =>
          s.onCtl (fun c =>
            let c := ((((c.dropRecheck r).workedAll r us).bump (Reg.tbrCtr 0)).bump (Reg.tbrCtr 2)).poisonItem r
            (r.first :: us).foldl (fun d u => d.chargeFor r 0x13 u) c))

/-! ### Spares -/

/-- SPARE_IN (R469): what Crucibles out of service held is read again; the lowest-numbered spare joins. -/
def execSpareIn (s : State) : Host.Outcome State Fault Refusal :=
  done (s.whenMain (fun c =>
    ((List.range 136).foldl (fun (d : Ctl) u => if (d.unit .crucible u).st = .inService then d else d.rerunHeld .crucible u) c).fillCrucible))

end Sys2Proof.Machine
end

