-- ==== Sys2Proof/Machine/Pins.lean ====
section
/-! DEFINITION. Sensors, frames on the control ports, JTAG (spec/19 §19.3, spec/03 R94, spec/02 R29). -/

namespace Sys2Proof.Machine

/-! ### Sensors (R482) -/

/-- A temperature: the value and the highest since cold reset, both signed. -/
def Ctl.tempSample (c : Ctl) (i v : Nat) : Ctl :=
  let c := c.wr (Reg.snsTemp i) v
  if signed 16 (c.rd (Reg.snsTempMax i)) < signed 16 v then c.wr (Reg.snsTempMax i) v else c

/-- Store what a sensor reads; the third missed read of the coolant sensor clears its VALID bit. -/
def Ctl.sampled (c : Ctl) (x : SensorSel) (v : Nat) : Ctl :=
  let v := v % 65536
  match x with
  | .temp i => c.tempSample i.val v
  | .rail r => c.wr (Reg.snsRail r.val) v
  | .conv k => c.wr (Reg.snsConv k.val) v
  | .optTx l => c.wr (Reg.snsOptTx l.val) v
  | .optRx l => c.wr (Reg.snsOptRx l.val) v
  | .coolant => { (c.wr Reg.coolant v).wr Reg.coolantValid 1 with pwr := { c.pwr with coolMiss := 0 } }
  | .coolantMiss =>
    let c := { c with pwr := { c.pwr with coolMiss := c.pwr.coolMiss + 1 } }
    if 3 ≤ c.pwr.coolMiss then c.wr Reg.coolantValid 0 else c
  | .inputPower => c.wr Reg.inputW v
  | .mainCurrent => c.wr Reg.mainI v

/-- SENSOR_LIMIT for each condition of R482 that a sample brings about: alert bits 7 (coolant), 8 (optical power), 9 (missed reads). -/
def Ctl.sensorSample (c : Ctl) (x : SensorSel) (v : Nat) : Ctl :=
  let before := c.alertWord.toNat
  let c := c.sampled x v
  let now := c.alertWord.toNat
  [7, 8, 9].foldl (fun (d : Ctl) i => if bitOf now i && !bitOf before i then d.event evSensorLimit [i] else d) c

def execSensorSample (x : SensorSel) (value : BitVec 32) (s : State) : Host.Outcome State Fault Refusal :=
  done (s.onCtl (·.sensorSample x value.toNat))

/-! ### Frames on a control port (Table 3.10) -/

/-- An address leased to a port without a static one comes into force. -/
def Ctl.leased (c : Ctl) (p : Nat) (six : Bool) (data : List Byte) : Ctl :=
  let n := c.netOf p
  match Config.dhcpLease six data with
  | none => c
  | some a =>
    if six then (if n.ip6 = 0 then c.applyNet p { n with ip6 := a } else c)
    else (if n.ip4 = 0 then c.applyNet p { n with ip4 := a.setWidth 32 } else c)

/-- A UDP datagram that no command of its own carries: DHCP, or one to the JMP port that fails R476. -/
def Ctl.ctlUdp (c : Ctl) (p port : Nat) (data : List Byte) : Ctl :=
  if port = 68 then c.leased p false data
  else if port = 546 then c.leased p true data
  else if port = c.rd (Reg.ctlJmpPort p) then c.bump Reg.jmpDrop
  else c

/-- Answer or drop what a frame carries: only requests for an address in force are answered. -/
def Ctl.ctlProto (c : Ctl) (p : Nat) (x : CtlProto) : Ctl :=
  let n := c.netOf p
  match x with
  | .arp t => if n.ip4 ≠ 0 && t = n.ip4 then c.emit (.ctl p x) else c
  | .neighbour t => if n.ip6 ≠ 0 && t = n.ip6 then c.emit (.ctl p x) else c
  | .echo4 _ => if n.ip4 ≠ 0 then c.emit (.ctl p x) else c
  | .echo6 _ => if n.ip6 ≠ 0 then c.emit (.ctl p x) else c
  | .udp port data => c.ctlUdp p port.toNat data
  | .pause | .tcp | .fragment | .other => c

/-- A frame on a port that is UP, of at most 9,216 bytes and on the port's own VLAN. -/
def Ctl.ctlFrame (c : Ctl) (p : Nat) (f : CtlFrame) : Ctl :=
  let vid := c.rd (Reg.ctlVid p)
  let tagsOk := if vid = 0 then f.tags.isEmpty else decide (f.tags = [BitVec.ofNat 12 vid])
  if c.ctlIsUp p && (c.rd Reg.coresUp ≠ 0 || c.staging.recovering) && f.bytes ≤ 9216 && tagsOk then c.ctlProto p f.proto else c

def execControlPortFrame (port : Fin 2) (frame : CtlFrame) (s : State) : Host.Outcome State Fault Refusal :=
  done (s.onCtl (·.ctlFrame port.val frame))

/-! ### JTAG (R29) -/

/-- The bits of a word, lowest first. -/
def wordBits (n x : Nat) : List Bool := (List.range n).map (fun i => bitOf x i)

/-- A scan: the identity register and boundary scan are always open. Anything else needs a debug session; without one there
is no access, and what one does is not given. -/
def execJtagScan (dr : JtagScan) (s : State) : Host.Outcome State Fault Refusal :=
  match dr with
  | .idcode => done (s.onCtl (·.emit (.jtag (wordBits 32 Config.jtagId.toNat))))
  | .boundary bits => done (s.onCtl (·.emit (.jtag (Config.boundaryScan bits))))
  | .debug _ => if s.ctl.rd Reg.secDebugOpen = 1 then .fault .debugScan else done s

end Sys2Proof.Machine
end

