-- ==== Sys2Proof/Machine/Shutdown.lean ====
section
/-! DEFINITION. POWER_ON, the orderly power-down, data-plane and management reset by command, THERM_CLEAR (spec/02 Tables 2.6
and 2.9, R42, R52; spec/19 R487-R489). -/

namespace Sys2Proof.Machine

def execPowerOn (sid : Nat) (s : State) : Host.Outcome State Fault Refusal :=
  done (s.jmpCtl sid 0x10 (fun c =>
    if c.rd Reg.glbState = 0 && c.rd Reg.thermTrip = 0 then (c.assertPwrEn, ans rOK) else (c, ans rSTATE)))

/-- Steps 1 and 2 of Table 2.6: from now on nothing is fetched and requests are answered BUSY. -/
def execShutdown (sid test : Nat) (s : State) : Host.Outcome State Fault Refusal :=
  done (s.jmpCtl sid 0x11 (fun c =>
    if 1 < test then (c, ans rBAD_ARG)
    else if c.rd Reg.glbState ≠ 2 then (c, ans rSTATE)
    else ({ c.glb 3 2 with pwr := { c.pwr with shutTest := test == 1, shutAt := c.now } }, ans rOK)))

/-- The transport give-up time has passed since the shutdown began (Table 2.6 step 3). -/
def Ctl.gaveUp (c : Ctl) : Bool := c.pwr.shutAt + 70000 ≤ c.now

/-- What is still in flight ends PATH_LOST at the give-up time. -/
def Ctl.endFlight (c : Ctl) : Ctl :=
  let c := c.opens.foldl (fun (d : Ctl) (o : OpenReq) => d.failReq o.id o.frame stPATHLOST dNONE 0) c
  let c := c.fences.foldl (fun (d : Ctl) (w : FenceWait) => d.endFence w stPATHLOST dNONE 0) c
  { c with owns := [] }

/-- Step 3: in-flight requests have completed, or end now. -/
def Ctl.shutQuiesce (c : Ctl) : Ctl :=
  if c.rd Reg.glbState = 3 && c.rd Reg.glbStep = 2 then
    if c.opens.isEmpty && c.fences.isEmpty && c.owns.isEmpty then c.glb 3 3
    else if c.gaveUp then c.endFlight.glb 3 3 else c
  else c

def execShutdownQuiesce (s : State) : Host.Outcome State Fault Refusal := done (s.onCtl (·.shutQuiesce))

/-- The bay whose extent covers a node-form address. -/
def Ctl.bayOfNode (c : Ctl) (a : Word) : Nat :=
  match List.find? (fun (e : Nat × Extent) => isNode e.2.base && e.2.st != .empty && e.2.base.toNat ≤ a.toNat && a.toNat < e.2.limit.toNat) c.exts with
  | some e => e.2.bay
  | none => 0

/-- Write a dirty line back to its tray. -/
def State.writeLine (s : State) (line : Nat) : State :=
  let k := line * 128
  match keyTray k with
  | none => s
  | some tr =>
    let a := nodeAddr tr (k % 2 ^ 44)
    let (n, c) := s.ctl.fresh
    { s with ctl := c.sendOwn tr (withPayload { baseFrame with kind := kWrite, tc := 1, bay := BitVec.ofNat 12 (c.bayOfNode a), addr := a }
        (s.mem.read k 128)) (.write n k) }

/-- Step 4: the dirty lines are written back. -/
def State.shutWriteback (s : State) : State :=
  if s.ctl.rd Reg.glbState = 3 && s.ctl.rd Reg.glbStep = 3 then
    let t := s.ctl.homeDirty.foldl State.writeLine s
    t.onCtl (fun c => { c with homeDirty := [] }.glb 3 4)
  else s

def execShutdownWriteback (s : State) : Host.Outcome State Fault Refusal := done s.shutWriteback

/-! ### The shutdown test (R487, R488) -/

/-- One item of the test's result in the new map. -/
def RepairMap.add (m : RepairMap) : RepairItem → RepairMap
  | .sram n => { m with repairs := m.repairs + n }
  | .exhausted n => { m with exhausted := m.exhausted + n }
  | .unitFailed k n => if n < unitCount k && !m.failed.contains (k, n) then { m with failed := m.failed ++ [(k, n)] } else m
  | .flaskCells n => { m with flaskCells := m.flaskCells + n }
  | .cacheLines n => { m with cacheLines := m.cacheLines + n }
  | .moduleFault => m

def allKinds : List UnitKind := [.tile, .crucible, .cupola, .runner, .riddle]

/-- The units of every kind in a state. -/
def Ctl.unitsIn? (c : Ctl) (st : UnitState) : List (UnitKind × Nat) :=
  allKinds.flatMap (fun k => ((List.range (unitCount k)).filter (fun n => (c.unit k n).st == st)).map (fun n => (k, n)))

/-- The map that a test makes: what it found, and the units that are FAILED already. -/
def Ctl.newMap (c : Ctl) (items : List RepairItem) : RepairMap :=
  let m := items.foldl RepairMap.add RepairMap.init
  { m with failed := m.failed ++ (c.unitsIn? .failed).filter (fun u => !m.failed.contains u) }

/-- A unit's number among all units, for the map's hash. -/
def unitCode (u : UnitKind × Nat) : Nat := unitKey u.1 u.2

def RepairMap.hash (m : RepairMap) : BitVec 384 :=
  sha384 (Config.repairBytes m.repairs m.exhausted m.flaskCells m.cacheLines (m.failed.map unitCode))

/-- How many of the latest tests made the same map (BST_STATUS.AGREE). -/
def agreeOf (hs : List (BitVec 384)) : Nat :=
  match hs.reverse with
  | [] => 0
  | h :: t => 1 + (t.takeWhile (· == h)).length

/-- A tested unit: a quarantined one that passed is a spare, one that failed is FAILED (R468, R491). -/
def Ctl.tested (c : Ctl) (k : UnitKind) (n : Nat) (pass : Bool) : Ctl :=
  if !pass then c.failUnit k n
  else if (c.unit k n).st = .quarantined then c.putUnit k n { c.unit k n with st := .spare } else c

/-- Step 5: the test writes the map to flash and records its hash. -/
def Ctl.shutTested (c : Ctl) (items : List RepairItem) : Ctl :=
  if c.rd Reg.glbState = 3 && c.rd Reg.glbStep = 4 && c.pwr.shutTest then
    let m := c.newMap items
    let hs := (c.flash.hashes ++ [m.hash])
    let hs := hs.drop (hs.length - 3)
    let c := (c.unitsIn? .quarantined).foldl (fun (d : Ctl) u => d.tested u.1 u.2 (!m.failed.contains u)) c
    let c := m.failed.foldl (fun (d : Ctl) u => d.failUnit u.1 u.2) c
    let c := { c with flash := { c.flash with map := m, hashes := hs } }
    let pass := m.failed.isEmpty && m.exhausted = 0 && !items.contains .moduleFault
    let c := ((c.wr Reg.bstKind 1).wr Reg.bstLastPass (b2n pass)).wr Reg.bstAgree (agreeOf hs)
    (if items.contains .moduleFault then c.moduleReplace else c).glb 3 5
  else c

def execShutdownTest (map : List RepairItem) (s : State) : Host.Outcome State Fault Refusal := done (s.onCtl (·.shutTested map))

/-- Steps 6 and 7: the log is flushed and MAIN switches off. The write-backs have been answered, or have given up. -/
def State.shutOff (s : State) : State :=
  let c := s.ctl
  if c.rd Reg.glbState = 3 && c.rd Reg.glbStep = (if c.pwr.shutTest then 5 else 4) && (c.owns.isEmpty || c.gaveUp) then
    let t := (s.onCtl (·.flushLog)).mainOff 0 1
    t.onCtl (fun c => { c.waitIfManual with pwr := { c.pwr with pwrEn := false, shutTest := false } })
  else s

def execShutdownMainOff (s : State) : Host.Outcome State Fault Refusal := done s.shutOff

/-- FUSE_REPAIR (R489): burns the current map's repairs when the last three shutdown tests agree. -/
def execFuseRepair (sid : Nat) (s : State) : Host.Outcome State Fault Refusal :=
  done (s.jmpCtl sid 0x51 (fun c =>
    if agreeOf c.flash.hashes < 3 then (c, ans rSTATE)
    else if 4096 < c.fuses.repairs + c.flash.map.repairs then (c, ans rREFUSED)
    else ({ c with fuses := { c.fuses with repairs := c.fuses.repairs + c.flash.map.repairs },
                   flash := { c.flash with map := { c.flash.map with repairs := 0 } } }, ans rOK)))

/-! ### Resets by command (Table 2.9) -/

/-- A data-plane reset: MAIN is off and starts again at step 5. MAP_GIB as written takes effect (Tables 8.5, 14.4). -/
def State.dataReset (s : State) : State :=
  let m := s.ctl.rd Reg.mapGib
  let k := s.ctl.rd Reg.kvsMapGib
  let s := (s.onCtl (·.cause 2)).mainOff 1 8
  s.onCtl (fun c =>
    { c.glb 1 5 with phys := { c.phys with mapGib := m, kvsGib := k }, pwr := { c.pwr with d2dFailed := 0 } })

def execResetData (sid : Nat) (s : State) : Host.Outcome State Fault Refusal :=
  done (s.jmp sid 0x12 (fun t =>
    if t.ctl.rd Reg.glbState = 0 || t.ctl.rd Reg.glbState = 3 then (t, ans rSTATE) else (t.dataReset, ans rOK)))

def execResetMgmt (sid : Nat) (s : State) : Host.Outcome State Fault Refusal :=
  done (s.jmpThen sid 0x13 (fun _ => rOK) (·.onCtl (·.mgmtReset 3)))

/-- THERM_CLEAR (R52): refused while a junction site is at or above 100 °C. -/
def execThermClear (sid : Nat) (s : State) : Host.Outcome State Fault Refusal :=
  done (s.jmpCtl sid 0x14 (fun c =>
    if (List.range 96).any (fun t => decide (800 ≤ signed 16 (c.rd (Reg.snsTemp t)))) then (c, ans rSTATE)
    else (c.wr Reg.thermTrip 0, ans rOK)))

end Sys2Proof.Machine
end

