-- ==== Sys2Proof/Machine/Selftest.lean ====
section
/-! DEFINITION. The operator's self-test and the end of tests (spec/19 §19.6 R490, R491; spec/17 R428). -/

namespace Sys2Proof.Machine

/-- The logical tile (128 × die + index) that a resource names. -/
def testTile : TestRes → Option Nat
  | .tile d l => some (128 * d.val + l.val)
  | _ => none

/-- The unit a resource stands for: a tile through its mapping. -/
def Ctl.testUnit (c : Ctl) : TestRes → UnitKind × Nat
  | .tile d l => (.tile, c.physOf (128 * d.val + l.val))
  | .crucible n => (.crucible, n.val)
  | .cupola n => (.cupola, n.val)

/-- A resource's number in SELFTEST_RESULT: tiles as in LIST, Crucibles from 65,536, Cupolas from 131,072. -/
def testCode : TestRes → Nat
  | .tile d l => 32768 * d.val + l.val
  | .crucible n => 65536 + n.val
  | .cupola n => 131072 + n.val

/-- A unit carries work: items of its that await their recheck. -/
def Ctl.unitWorks (c : Ctl) (u : UnitKind × Nat) : Bool :=
  c.rechecks.any (fun (r : Recheck) => itemUnit r.kind == u.1 && r.first == u.2)

/-- A tile of the list runs a LAUNCH. -/
def Ctl.tileRuns (c : Ctl) (l : Nat) : Bool := (c.holders l).any (fun (p : Place) => p.launch.isSome)

/-- The resource is assigned to a placement or carries work (R490). -/
def Ctl.testTaken (c : Ctl) (r : TestRes) : Bool :=
  c.unitWorks (c.testUnit r) || (match testTile r with | some l => !(c.holders l).isEmpty | none => false)

/-- The resource has work in flight. -/
def Ctl.testInFlight (c : Ctl) (r : TestRes) : Bool :=
  c.unitWorks (c.testUnit r) || (match testTile r with | some l => c.tileRuns l | none => false)

/-- The bays that hold named tiles. -/
def Ctl.testBays (c : Ctl) (l : List TestRes) : List Nat :=
  insertAll [] ((l.filterMap testTile).filterMap (fun t => if c.rd (Reg.trsAssigned t) = 1 then some (c.rd (Reg.trsOwner t)) else none))

/-- The fields of the block are in range (Table 10.16); JMP values are checked, never clamped. -/
def testBlockOk (b : List Byte) (n : Nat) : Bool :=
  b.length = 32 && leAt b 0 1 ≤ 2 && leAt b 1 1 = 0 && leAt b 2 2 = n && 1 ≤ n && n ≤ 272 && leAt b 4 4 ≤ 1 && leAt b 16 16 = 0

/-- JMP SELFTEST. -/
def Ctl.selftest (c : Ctl) (b : List Byte) (l : List TestRes) : Ctl × Nat :=
  let force := bitOf (leAt b 4 4) 0
  if !testBlockOk b l.length || l.any (fun r => (c.testUnit r).2 == absentTile) then (c, rBAD_ARG)
  else if !c.mainUp then (c, rSTATE)
  else if c.optest.isSome || (!force && l.any c.testTaken) then (c, rBUSY)
  else
    let t : OpTest := { force := force, kind := leAt b 0 1, list := l, bays := if force then c.testBays l else [],
                        draining := force, since := c.now }
    ({ c with optest := some t }.wr Reg.bstKind (leAt b 0 1), rOK)

def execJmpSelftest (sid : Nat) (block : List Byte) (list : List TestRes) (s : State) : Host.Outcome State Fault Refusal :=
  done (s.jmpCtl sid 0x50 (fun c => let r := c.selftest block list; (r.1, ans r.2)))

/-- The physical tiles named. -/
def Ctl.testTiles (c : Ctl) (l : List TestRes) : List Nat := (l.filterMap testTile).map c.physOf

/-- The drain ends: the tiles' scratchpads are copied to the save area and the test starts. -/
def State.drained (s : State) : State :=
  match s.ctl.optest with
  | none => s
  | some t =>
    if !t.draining || t.list.any s.ctl.testInFlight then s
    else
      let m := (s.ctl.testTiles t.list).foldl (fun (m : Mem) p => m.copy (saveKey p 0) (scratchKey p 0) (2 ^ 21)) s.mem
      { s with mem := m, ctl := { s.ctl with optest := some { t with draining := false } } }

def execSelftestDrained (s : State) : Host.Outcome State Fault Refusal := done s.drained

/-- DRAIN_MS passes first: the test is not run and the bays resume. The event's first value is 2, DRAIN_TIMEOUT. -/
def execDrainTimeout (s : State) : Host.Outcome State Fault Refusal :=
  done (s.onCtl (fun c =>
    match c.optest with
    | some t =>
      if t.draining && t.since + c.rd Reg.drainMs * 100000 ≤ c.now then { c with optest := none }.event evSelftestResult [2] else c
    | none => c))

/-- A resource's unit after its test (R491). A failed tile leaves service with the LAUNCH that uses it; a Cupola's spare
follows at once. -/
def Ctl.testedRes (c : Ctl) (u : UnitKind × Nat) (pass : Bool) : Ctl :=
  if u.1 = .tile && !pass then (c.tileOut u.2 true).failUnit .tile u.2
  else
    let c := c.tested u.1 u.2 pass
    if u.1 = .cupola && !pass then c.fillCupola else c

/-- Copy back a tile whose bay still waits, and free the save area. -/
def State.restoreTile (s : State) (bays : List Nat) (l : Nat) : State :=
  let p := s.ctl.physOf l
  let keep := s.ctl.rd (Reg.trsAssigned l) = 1 && bays.contains (s.ctl.rd (Reg.trsOwner l))
  let m := if keep then s.mem.copy (scratchKey p 0) (saveKey p 0) (2 ^ 21) else s.mem
  { s with mem := m.clear (saveKey p 0) (2 ^ 21) }

/-- SELFTEST_RESULT: PASS (1) or FAIL (0) for each resource, then for each stalled bay its stall in µs. -/
def resultArgs (codes : List Nat) (passed : List Bool) (stalls : List (Nat × Nat)) : List Nat :=
  [1, codes.length] ++ (codes.zip passed).flatMap (fun e => [e.1, b2n e.2]) ++ stalls.flatMap (fun e => [e.1, e.2])

/-- The operator's test ends. -/
def State.opTestDone (s : State) (t : OpTest) (passed : List Bool) : State :=
  if t.draining || passed.length ≠ t.list.length then s
  else
    let s := if t.force then (t.list.filterMap testTile).foldl (fun (u : State) l => u.restoreTile t.bays l) s else s
    s.onCtl (fun c =>
      let units := t.list.map c.testUnit
      let c := { c with optest := none }.wr Reg.bstLastPass (b2n (passed.all id))
      let c := (units.zip passed).foldl (fun (d : Ctl) e => d.testedRes e.1 e.2) c
      c.event evSelftestResult (resultArgs (t.list.map testCode) passed (t.bays.map (fun b => (b, (c.now - t.since) / 100)))))

/-- The tests that the first bay's SELFTESTs left end (R284, R428). -/
def Ctl.bayTestDone (c : Ctl) (passed : List Bool) : Ctl :=
  match c.bayTests with
  | [] => c
  | (bay, _, _) :: _ =>
    let mine := c.bayTests.filter (fun x => x.1 == bay)
    if passed.length ≠ mine.length then c
    else
      let units := mine.map (fun x => (UnitKind.tile, c.physOf x.2.1))
      let c := { c with bayTests := c.bayTests.filter (fun x => x.1 != bay) }
      let c := (c.wr Reg.bstLastPass (b2n (passed.all id))).wr Reg.bstKind ((mine.getLast?.map (fun x => x.2.2)).getD 0)
      let c := (units.zip passed).foldl (fun (d : Ctl) e => d.testedRes e.1 e.2) c
      c.event evSelftestResult (resultArgs (mine.map (fun x => 32768 * (x.2.1 / 128) + x.2.1 % 128)) passed [])

def execSelftestDone (passed : List Bool) (s : State) : Host.Outcome State Fault Refusal :=
  done (match s.ctl.optest with
    | some t => if t.draining then s.onCtl (·.bayTestDone passed) else s.opTestDone t passed
    | none => s.onCtl (·.bayTestDone passed))

end Sys2Proof.Machine
end

