-- ==== Sys2Proof/Machine/Dispatch.lean ====
section
/-! DEFINITION. The dispatch: one arm per command, each a direct call of that command's meaning. -/

namespace Sys2Proof.Machine

def exec (i : Instr) (s : State) : Host.Outcome State Fault Refusal :=
  match i with
  | .feedGood feed => Sys2Proof.Machine.execFeedGood feed s
  | .feedLost feed => Sys2Proof.Machine.execFeedLost feed s
  | .coldReset => Sys2Proof.Machine.execColdReset s
  | .bootVerify => Sys2Proof.Machine.execBootVerify s
  | .pwrEnAssert => Sys2Proof.Machine.execPwrEnAssert s
  | .railSequence => Sys2Proof.Machine.execRailSequence s
  | .railFail rail => Sys2Proof.Machine.execRailFail rail s
  | .railOutOfRegulation rail => Sys2Proof.Machine.execRailOutOfRegulation rail s
  | .softRepair => Sys2Proof.Machine.execSoftRepair s
  | .quickBootCheck found => Sys2Proof.Machine.execQuickBootCheck found s
  | .memoryTrained unit ok slots => Sys2Proof.Machine.execMemoryTrained unit ok slots s
  | .dataReady => Sys2Proof.Machine.execDataReady s
  | .powerCapExceeded watts => Sys2Proof.Machine.execPowerCapExceeded watts s
  | .overCurrent current => Sys2Proof.Machine.execOverCurrent current s
  | .mainLost => Sys2Proof.Machine.execMainLost s
  | .auxLost => Sys2Proof.Machine.execAuxLost s
  | .clockFrequencyEvent clk => Sys2Proof.Machine.execClockFrequencyEvent clk s
  | .fabRefLost => Sys2Proof.Machine.execFabRefLost s
  | .coreRefLost => Sys2Proof.Machine.execCoreRefLost s
  | .coreRefRestored => Sys2Proof.Machine.execCoreRefRestored s
  | .throttleStepDown => Sys2Proof.Machine.execThrottleStepDown s
  | .throttleStepUp => Sys2Proof.Machine.execThrottleStepUp s
  | .thermalLimit => Sys2Proof.Machine.execThermalLimit s
  | .thermTrip => Sys2Proof.Machine.execThermTrip s
  | .pinReset => Sys2Proof.Machine.execPinReset s
  | .watchdogExpiry => Sys2Proof.Machine.execWatchdogExpiry s
  | .mgmtResetEnd => Sys2Proof.Machine.execMgmtResetEnd s
  | .d2dFail link => Sys2Proof.Machine.execD2dFail link s
  | .laserFail elm fibre => Sys2Proof.Machine.execLaserFail elm fibre s
  | .laserSwitch elm fibre => Sys2Proof.Machine.execLaserSwitch elm fibre s
  | .lnkModeChange port v => Sys2Proof.Machine.execLnkModeChange port v s
  | .lnkDisable port => Sys2Proof.Machine.execLnkDisable port s
  | .unquar port => Sys2Proof.Machine.execUnquar port s
  | .linkSignalDetect port sub => Sys2Proof.Machine.execLinkSignalDetect port sub s
  | .trainComplete port sub lanes => Sys2Proof.Machine.execTrainComplete port sub lanes s
  | .trainTimeout port sub => Sys2Proof.Machine.execTrainTimeout port sub s
  | .trainRetry port sub => Sys2Proof.Machine.execTrainRetry port sub s
  | .subportAligned port sub => Sys2Proof.Machine.execSubportAligned port sub s
  | .alignTimeout port sub => Sys2Proof.Machine.execAlignTimeout port sub s
  | .linkInit port sub payload => Sys2Proof.Machine.execLinkInit port sub payload s
  | .keyAccept port sub ciphertext => Sys2Proof.Machine.execKeyAccept port sub ciphertext s
  | .rekey port sub => Sys2Proof.Machine.execRekey port sub s
  | .laneFail port lane => Sys2Proof.Machine.execLaneFail port lane s
  | .widthChange port sub lanes => Sys2Proof.Machine.execWidthChange port sub lanes s
  | .laneReadd port lane => Sys2Proof.Machine.execLaneReadd port lane s
  | .laneRecalibration port lane => Sys2Proof.Machine.execLaneRecalibration port lane s
  | .nak port sub lseq => Sys2Proof.Machine.execNak port sub lseq s
  | .replayTimeout port sub => Sys2Proof.Machine.execReplayTimeout port sub s
  | .replayStallTimeout port sub => Sys2Proof.Machine.execReplayStallTimeout port sub s
  | .credit port sub tr => Sys2Proof.Machine.execCredit port sub tr s
  | .creditReturnWait port sub => Sys2Proof.Machine.execCreditReturnWait port sub s
  | .frameReceive port sub rx => Sys2Proof.Machine.execFrameReceive port sub rx s
  | .heldFrameRetry which => Sys2Proof.Machine.execHeldFrameRetry which s
  | .holdTimeout port sub cls => Sys2Proof.Machine.execHoldTimeout port sub cls s
  | .egressSend sched found => Sys2Proof.Machine.execEgressSend sched found s
  | .flaskSweep => Sys2Proof.Machine.execFlaskSweep s
  | .flkQcfgWrite queue v => Sys2Proof.Machine.execFlkQcfgWrite queue v s
  | .clear queue => Sys2Proof.Machine.execClear queue s
  | .clrMin => Sys2Proof.Machine.execClrMin s
  | .tack frame => Sys2Proof.Machine.execTack frame s
  | .tackSend peer => Sys2Proof.Machine.execTackSend peer s
  | .rtxTimeout peer seq => Sys2Proof.Machine.execRtxTimeout peer seq s
  | .seqfillRetransmit peer seq => Sys2Proof.Machine.execSeqfillRetransmit peer seq s
  | .seqfill frame => Sys2Proof.Machine.execSeqfill frame s
  | .read frame found => Sys2Proof.Machine.execRead frame found s
  | .write frame found => Sys2Proof.Machine.execWrite frame found s
  | .flaggedWrite frame found => Sys2Proof.Machine.execFlaggedWrite frame found s
  | .releaseProceed req => Sys2Proof.Machine.execReleaseProceed req s
  | .releaseTimeout req => Sys2Proof.Machine.execReleaseTimeout req s
  | .writeInv frame => Sys2Proof.Machine.execWriteInv frame s
  | .atomic frame found => Sys2Proof.Machine.execAtomic frame found s
  | .query frame => Sys2Proof.Machine.execQuery frame s
  | .atomicWriteback frame => Sys2Proof.Machine.execAtomicWriteback frame s
  | .fence frame => Sys2Proof.Machine.execFence frame s
  | .fenceComplete req => Sys2Proof.Machine.execFenceComplete req s
  | .fenceTimeout req => Sys2Proof.Machine.execFenceTimeout req s
  | .ctr frame => Sys2Proof.Machine.execCtr frame s
  | .readPub frame => Sys2Proof.Machine.execReadPub frame s
  | .publish frame => Sys2Proof.Machine.execPublish frame s
  | .response frame => Sys2Proof.Machine.execResponse frame s
  | .syncRsp frame => Sys2Proof.Machine.execSyncRsp frame s
  | .rds frame found => Sys2Proof.Machine.execRds frame found s
  | .rdx frame => Sys2Proof.Machine.execRdx frame s
  | .upg frame => Sys2Proof.Machine.execUpg frame s
  | .wbm frame => Sys2Proof.Machine.execWbm frame s
  | .wbe frame => Sys2Proof.Machine.execWbe frame s
  | .invack frame => Sys2Proof.Machine.execInvack frame s
  | .fwdack frame => Sys2Proof.Machine.execFwdack frame s
  | .data frame => Sys2Proof.Machine.execData frame s
  | .dirAckTimeout bay line slot => Sys2Proof.Machine.execDirAckTimeout bay line slot s
  | .create dom => Sys2Proof.Machine.execCreate dom s
  | .addAgent dom slot => Sys2Proof.Machine.execAddAgent dom slot s
  | .destroy dom => Sys2Proof.Machine.execDestroy dom s
  | .domainDrained dom => Sys2Proof.Machine.execDomainDrained dom s
  | .extInstall index => Sys2Proof.Machine.execExtInstall index s
  | .extRevoke index => Sys2Proof.Machine.execExtRevoke index s
  | .revokeDrained index => Sys2Proof.Machine.execRevokeDrained index s
  | .revokeTimeout index => Sys2Proof.Machine.execRevokeTimeout index s
  | .cmpInstall bay => Sys2Proof.Machine.execCmpInstall bay s
  | .oldMapRetire bay => Sys2Proof.Machine.execOldMapRetire bay s
  | .cmpGraceExpiry bay => Sys2Proof.Machine.execCmpGraceExpiry bay s
  | .retireNow bay => Sys2Proof.Machine.execRetireNow bay s
  | .bayEpCfgWrite ep v => Sys2Proof.Machine.execBayEpCfgWrite ep v s
  | .memCtrWinWrite bay v => Sys2Proof.Machine.execMemCtrWinWrite bay v s
  | .tirRegionWrite region word v => Sys2Proof.Machine.execTirRegionWrite region word v s
  | .migrationStart => Sys2Proof.Machine.execMigrationStart s
  | .migrationChunk page destFails => Sys2Proof.Machine.execMigrationChunk page destFails s
  | .sourceFree page => Sys2Proof.Machine.execSourceFree page s
  | .pageZeroed what => Sys2Proof.Machine.execPageZeroed what s
  | .zeroingFail what => Sys2Proof.Machine.execZeroingFail what s
  | .failureUnitLost unit => Sys2Proof.Machine.execFailureUnitLost unit s
  | .rebuild page => Sys2Proof.Machine.execRebuild page s
  | .reservedAreaRebuild copy => Sys2Proof.Machine.execReservedAreaRebuild copy s
  | .patrolScrub found => Sys2Proof.Machine.execPatrolScrub found s
  | .eccWriteback block => Sys2Proof.Machine.execEccWriteback block s
  | .hbmEvacuate stack => Sys2Proof.Machine.execHbmEvacuate stack s
  | .hbmRestore stack => Sys2Proof.Machine.execHbmRestore stack s
  | .hbmRestoreDone stack ok => Sys2Proof.Machine.execHbmRestoreDone stack ok s
  | .ddrEvacuate ch => Sys2Proof.Machine.execDdrEvacuate ch s
  | .ddrRestore ch => Sys2Proof.Machine.execDdrRestore ch s
  | .rebalance => Sys2Proof.Machine.execRebalance s
  | .kvDescriptorWrite frame => Sys2Proof.Machine.execKvDescriptorWrite frame s
  | .kvDestroyApplied bay entry => Sys2Proof.Machine.execKvDestroyApplied bay entry s
  | .copyOnWrite bay entry page => Sys2Proof.Machine.execCopyOnWrite bay entry page s
  | .kvsBayWrite bay word v => Sys2Proof.Machine.execKvsBayWrite bay word v s
  | .cruBayRsaWrite bay v => Sys2Proof.Machine.execCruBayRsaWrite bay v s
  | .queCfgWrite queue word v => Sys2Proof.Machine.execQueCfgWrite queue word v s
  | .doorbell frame => Sys2Proof.Machine.execDoorbell frame s
  | .resume frame => Sys2Proof.Machine.execResume frame s
  | .fetch queue => Sys2Proof.Machine.execFetch queue s
  | .issue queue => Sys2Proof.Machine.execIssue queue s
  | .completion queue index => Sys2Proof.Machine.execCompletion queue index s
  | .recordFail queue index => Sys2Proof.Machine.execRecordFail queue index s
  | .requestStateTimeout queue index => Sys2Proof.Machine.execRequestStateTimeout queue index s
  | .nop queue index => Sys2Proof.Machine.execNop queue index s
  | .wait queue index => Sys2Proof.Machine.execWait queue index s
  | .waitSatisfied queue index => Sys2Proof.Machine.execWaitSatisfied queue index s
  | .waitExpired queue index => Sys2Proof.Machine.execWaitExpired queue index s
  | .signal queue index => Sys2Proof.Machine.execSignal queue index s
  | .fenceInstr queue index => Sys2Proof.Machine.execFenceInstr queue index s
  | .tap queue index => Sys2Proof.Machine.execTap queue index s
  | .halt queue index => Sys2Proof.Machine.execHalt queue index s
  | .loop queue index => Sys2Proof.Machine.execLoop queue index s
  | .post queue index => Sys2Proof.Machine.execPost queue index s
  | .copy queue index => Sys2Proof.Machine.execCopy queue index s
  | .zero queue index => Sys2Proof.Machine.execZero queue index s
  | .stream queue index => Sys2Proof.Machine.execStream queue index s
  | .streamFill queue index => Sys2Proof.Machine.execStreamFill queue index s
  | .streamFillTimeout queue index => Sys2Proof.Machine.execStreamFillTimeout queue index s
  | .hint queue index => Sys2Proof.Machine.execHint queue index s
  | .publishInstr queue index => Sys2Proof.Machine.execPublishInstr queue index s
  | .atomics queue index => Sys2Proof.Machine.execAtomics queue index s
  | .reduce queue index => Sys2Proof.Machine.execReduce queue index s
  | .allreduce queue index => Sys2Proof.Machine.execAllreduce queue index s
  | .reducescatter queue index => Sys2Proof.Machine.execReducescatter queue index s
  | .allgather queue index => Sys2Proof.Machine.execAllgather queue index s
  | .broadcast queue index => Sys2Proof.Machine.execBroadcast queue index s
  | .chunkReadout bay group seqno chunk => Sys2Proof.Machine.execChunkReadout bay group seqno chunk s
  | .phaseTwo queue index => Sys2Proof.Machine.execPhaseTwo queue index s
  | .straggler bay group seqno => Sys2Proof.Machine.execStraggler bay group seqno s
  | .gather queue index => Sys2Proof.Machine.execGather queue index s
  | .scatter queue index => Sys2Proof.Machine.execScatter queue index s
  | .dispatch queue index => Sys2Proof.Machine.execDispatch queue index s
  | .combine queue index => Sys2Proof.Machine.execCombine queue index s
  | .filter queue index => Sys2Proof.Machine.execFilter queue index s
  | .topk queue index => Sys2Proof.Machine.execTopk queue index s
  | .compact queue index => Sys2Proof.Machine.execCompact queue index s
  | .pieceComplete queue index piece => Sys2Proof.Machine.execPieceComplete queue index piece s
  | .unitOutOfService unit => Sys2Proof.Machine.execUnitOutOfService unit s
  | .attend queue index => Sys2Proof.Machine.execAttend queue index s
  | .passComplete queue index pass => Sys2Proof.Machine.execPassComplete queue index pass s
  | .splitMerge queue index row => Sys2Proof.Machine.execSplitMerge queue index row s
  | .cupolaOut unit => Sys2Proof.Machine.execCupolaOut unit s
  | .kvappend queue index => Sys2Proof.Machine.execKvappend queue index s
  | .prefixLookup queue index => Sys2Proof.Machine.execPrefixLookup queue index s
  | .prefixInsert queue index => Sys2Proof.Machine.execPrefixInsert queue index s
  | .kvfork queue index => Sys2Proof.Machine.execKvfork queue index s
  | .place queue index => Sys2Proof.Machine.execPlace queue index s
  | .launch queue index => Sys2Proof.Machine.execLaunch queue index s
  | .launchComplete queue index => Sys2Proof.Machine.execLaunchComplete queue index s
  | .launchTimeout queue index => Sys2Proof.Machine.execLaunchTimeout queue index s
  | .pack queue index => Sys2Proof.Machine.execPack queue index s
  | .unpack queue index => Sys2Proof.Machine.execUnpack queue index s
  | .selftest queue index => Sys2Proof.Machine.execSelftest queue index s
  | .tileFail tile failed => Sys2Proof.Machine.execTileFail tile failed s
  | .columnRemap die column => Sys2Proof.Machine.execColumnRemap die column s
  | .trsOwnWrite tile v => Sys2Proof.Machine.execTrsOwnWrite tile v s
  | .tileCleared tile => Sys2Proof.Machine.execTileCleared tile s
  | .add tile w => Sys2Proof.Machine.execAdd tile w s
  | .sub tile w => Sys2Proof.Machine.execSub tile w s
  | .mul tile w => Sys2Proof.Machine.execMul tile w s
  | .and tile w => Sys2Proof.Machine.execAnd tile w s
  | .or tile w => Sys2Proof.Machine.execOr tile w s
  | .xor tile w => Sys2Proof.Machine.execXor tile w s
  | .shl tile w => Sys2Proof.Machine.execShl tile w s
  | .shr tile w => Sys2Proof.Machine.execShr tile w s
  | .sar tile w => Sys2Proof.Machine.execSar tile w s
  | .slt tile w => Sys2Proof.Machine.execSlt tile w s
  | .sltu tile w => Sys2Proof.Machine.execSltu tile w s
  | .min tile w => Sys2Proof.Machine.execMin tile w s
  | .max tile w => Sys2Proof.Machine.execMax tile w s
  | .jmp tile w => Sys2Proof.Machine.execJmp tile w s
  | .beq tile w => Sys2Proof.Machine.execBeq tile w s
  | .bne tile w => Sys2Proof.Machine.execBne tile w s
  | .blt tile w => Sys2Proof.Machine.execBlt tile w s
  | .bge tile w => Sys2Proof.Machine.execBge tile w s
  | .jr tile w => Sys2Proof.Machine.execJr tile w s
  | .call tile w => Sys2Proof.Machine.execCall tile w s
  | .getsys tile w => Sys2Proof.Machine.execGetsys tile w s
  | .ld tile w => Sys2Proof.Machine.execLd tile w s
  | .st tile w => Sys2Proof.Machine.execSt tile w s
  | .vadd tile w => Sys2Proof.Machine.execVadd tile w s
  | .vsub tile w => Sys2Proof.Machine.execVsub tile w s
  | .vmul tile w => Sys2Proof.Machine.execVmul tile w s
  | .vfma tile w => Sys2Proof.Machine.execVfma tile w s
  | .vmax tile w => Sys2Proof.Machine.execVmax tile w s
  | .vmin tile w => Sys2Proof.Machine.execVmin tile w s
  | .vexp2 tile w => Sys2Proof.Machine.execVexp2 tile w s
  | .vlog2 tile w => Sys2Proof.Machine.execVlog2 tile w s
  | .vrcp tile w => Sys2Proof.Machine.execVrcp tile w s
  | .vrsq tile w => Sys2Proof.Machine.execVrsq tile w s
  | .vcmplt tile w => Sys2Proof.Machine.execVcmplt tile w s
  | .vsel tile w => Sys2Proof.Machine.execVsel tile w s
  | .vcvt tile w => Sys2Proof.Machine.execVcvt tile w s
  | .vrsum tile w => Sys2Proof.Machine.execVrsum tile w s
  | .viadd tile w => Sys2Proof.Machine.execViadd tile w s
  | .vbcast tile w => Sys2Proof.Machine.execVbcast tile w s
  | .vld tile w => Sys2Proof.Machine.execVld tile w s
  | .vst tile w => Sys2Proof.Machine.execVst tile w s
  | .vlds tile w => Sys2Proof.Machine.execVlds tile w s
  | .vsts tile w => Sys2Proof.Machine.execVsts tile w s
  | .mzero tile w => Sys2Proof.Machine.execMzero tile w s
  | .mloadw tile w => Sys2Proof.Machine.execMloadw tile w s
  | .mma tile w => Sys2Proof.Machine.execMma tile w s
  | .mstore tile w => Sys2Proof.Machine.execMstore tile w s
  | .psel tile w => Sys2Proof.Machine.execPsel tile w s
  | .pselExpanded tile buf => Sys2Proof.Machine.execPselExpanded tile buf s
  | .ptile tile w => Sys2Proof.Machine.execPtile tile w s
  | .send tile w => Sys2Proof.Machine.execSend tile w s
  | .recv tile w => Sys2Proof.Machine.execRecv tile w s
  | .get tile w => Sys2Proof.Machine.execGet tile w s
  | .put tile w => Sys2Proof.Machine.execPut tile w s
  | .transferDone tile tag status => Sys2Proof.Machine.execTransferDone tile tag status s
  | .xwait tile w => Sys2Proof.Machine.execXwait tile w s
  | .xfence tile w => Sys2Proof.Machine.execXfence tile w s
  | .xsignal tile w => Sys2Proof.Machine.execXsignal tile w s
  | .tileHalt tile w => Sys2Proof.Machine.execTileHalt tile w s
  | .bar tile w => Sys2Proof.Machine.execBar tile w s
  | .sleep tile w => Sys2Proof.Machine.execSleep tile w s
  | .tileNop tile w => Sys2Proof.Machine.execTileNop tile w s
  | .chainStart engine ch => Sys2Proof.Machine.execChainStart engine ch s
  | .descriptorFetch engine ch => Sys2Proof.Machine.execDescriptorFetch engine ch s
  | .descriptorDone engine ch => Sys2Proof.Machine.execDescriptorDone engine ch s
  | .channelStop engine ch status detail => Sys2Proof.Machine.execChannelStop engine ch status detail s
  | .busError engine cause => Sys2Proof.Machine.execBusError engine cause s
  | .restart engine => Sys2Proof.Machine.execRestart engine s
  | .ldlChResume engine ch => Sys2Proof.Machine.execLdlChResume engine ch s
  | .ldlChCfgWrite engine ch head v => Sys2Proof.Machine.execLdlChCfgWrite engine ch head v s
  | .ldlEngCfgWrite engine v => Sys2Proof.Machine.execLdlEngCfgWrite engine v s
  | .mailboxPost frame => Sys2Proof.Machine.execMailboxPost frame s
  | .bind tile bay => Sys2Proof.Machine.execBind tile bay s
  | .unbind tile => Sys2Proof.Machine.execUnbind tile s
  | .ackw who code => Sys2Proof.Machine.execAckw who code s
  | .mailboxTimeout ep => Sys2Proof.Machine.execMailboxTimeout ep s
  | .echo ep => Sys2Proof.Machine.execEcho ep s
  | .identify ep => Sys2Proof.Machine.execIdentify ep s
  | .spdmMailbox ep => Sys2Proof.Machine.execSpdmMailbox ep s
  | .release bay => Sys2Proof.Machine.execRelease bay s
  | .shakeoutQuiesce bay => Sys2Proof.Machine.execShakeoutQuiesce bay s
  | .shakeoutClear bay => Sys2Proof.Machine.execShakeoutClear bay s
  | .shakeoutRevoke bay => Sys2Proof.Machine.execShakeoutRevoke bay s
  | .shakeoutDone bay => Sys2Proof.Machine.execShakeoutDone bay s
  | .keyRotate sid => Sys2Proof.Machine.execKeyRotate sid s
  | .svnCommit sid => Sys2Proof.Machine.execSvnCommit sid s
  | .spdm sid msg => Sys2Proof.Machine.execSpdm sid msg s
  | .collectorDrain ctx => Sys2Proof.Machine.execCollectorDrain ctx s
  | .flashBatch => Sys2Proof.Machine.execFlashBatch s
  | .healthDecay => Sys2Proof.Machine.execHealthDecay s
  | .errFirstClr v => Sys2Proof.Machine.execErrFirstClr v s
  | .beatSend => Sys2Proof.Machine.execBeatSend s
  | .beat frame => Sys2Proof.Machine.execBeat frame s
  | .mgmtBeat dg => Sys2Proof.Machine.execMgmtBeat dg s
  | .suspect ep => Sys2Proof.Machine.execSuspect ep s
  | .peerReport frame => Sys2Proof.Machine.execPeerReport frame s
  | .deadVerdict ep => Sys2Proof.Machine.execDeadVerdict ep s
  | .evict sid ep => Sys2Proof.Machine.execEvict sid ep s
  | .recheckResult item kind found => Sys2Proof.Machine.execRecheckResult item kind found s
  | .spareIn => Sys2Proof.Machine.execSpareIn s
  | .setup port body => Sys2Proof.Machine.execSetup port body s
  | .setupSignature sid body => Sys2Proof.Machine.execSetupSignature sid body s
  | .request sid seq op port => Sys2Proof.Machine.execRequest sid seq op port s
  | .regRead sid addr count => Sys2Proof.Machine.execRegRead sid addr count s
  | .regWrite sid addr values => Sys2Proof.Machine.execRegWrite sid addr values s
  | .memRead sid bay addr len => Sys2Proof.Machine.execMemRead sid bay addr len s
  | .memWrite sid bay addr data => Sys2Proof.Machine.execMemWrite sid bay addr data s
  | .logRead sid first count => Sys2Proof.Machine.execLogRead sid first count s
  | .sensors sid => Sys2Proof.Machine.execSensors sid s
  | .powerOn sid => Sys2Proof.Machine.execPowerOn sid s
  | .shutdown sid test => Sys2Proof.Machine.execShutdown sid test s
  | .shutdownQuiesce => Sys2Proof.Machine.execShutdownQuiesce s
  | .shutdownWriteback => Sys2Proof.Machine.execShutdownWriteback s
  | .shutdownTest map => Sys2Proof.Machine.execShutdownTest map s
  | .shutdownMainOff => Sys2Proof.Machine.execShutdownMainOff s
  | .resetData sid => Sys2Proof.Machine.execResetData sid s
  | .resetMgmt sid => Sys2Proof.Machine.execResetMgmt sid s
  | .thermClear sid => Sys2Proof.Machine.execThermClear sid s
  | .elmRelease sid elm => Sys2Proof.Machine.execElmRelease sid elm s
  | .elmRestore sid elm => Sys2Proof.Machine.execElmRestore sid elm s
  | .linkQuar sid port sub => Sys2Proof.Machine.execLinkQuar sid port sub s
  | .fwBegin sid len => Sys2Proof.Machine.execFwBegin sid len s
  | .fwData sid off data => Sys2Proof.Machine.execFwData sid off data s
  | .fwVerify sid => Sys2Proof.Machine.execFwVerify sid s
  | .fwWritten => Sys2Proof.Machine.execFwWritten s
  | .fwActivate sid => Sys2Proof.Machine.execFwActivate sid s
  | .anchorSet sid slot hash => Sys2Proof.Machine.execAnchorSet sid slot hash s
  | .netcfg sid cfg => Sys2Proof.Machine.execNetcfg sid cfg s
  | .debugOpen sid => Sys2Proof.Machine.execDebugOpen sid s
  | .debugClose sid => Sys2Proof.Machine.execDebugClose sid s
  | .tapTrigger sid => Sys2Proof.Machine.execTapTrigger sid s
  | .tapIn => Sys2Proof.Machine.execTapIn s
  | .tapArm sid => Sys2Proof.Machine.execTapArm sid s
  | .tapRead sid bank => Sys2Proof.Machine.execTapRead sid bank s
  | .jmpSelftest sid block list => Sys2Proof.Machine.execJmpSelftest sid block list s
  | .selftestDrained => Sys2Proof.Machine.execSelftestDrained s
  | .drainTimeout => Sys2Proof.Machine.execDrainTimeout s
  | .selftestDone passed => Sys2Proof.Machine.execSelftestDone passed s
  | .fuseRepair sid => Sys2Proof.Machine.execFuseRepair sid s
  | .subscribe sid addr0 addr1 => Sys2Proof.Machine.execSubscribe sid addr0 addr1 s
  | .eventAck sid evseq => Sys2Proof.Machine.execEventAck sid evseq s
  | .eventResend => Sys2Proof.Machine.execEventResend s
  | .sessionIdle sid => Sys2Proof.Machine.execSessionIdle sid s
  | .sensorSample sensor value => Sys2Proof.Machine.execSensorSample sensor value s
  | .recoveryBeacon => Sys2Proof.Machine.execRecoveryBeacon s
  | .recoveryImage off data last => Sys2Proof.Machine.execRecoveryImage off data last s
  | .glbAlertPendWrite v => Sys2Proof.Machine.execGlbAlertPendWrite v s
  | .glbAlertMaskWrite v => Sys2Proof.Machine.execGlbAlertMaskWrite v s
  | .pwrResetCauseWrite v => Sys2Proof.Machine.execPwrResetCauseWrite v s
  | .mbxViewRead sid ep word => Sys2Proof.Machine.execMbxViewRead sid ep word s
  | .resetNHigh => Sys2Proof.Machine.execResetNHigh s
  | .fabRefReturn => Sys2Proof.Machine.execFabRefReturn s
  | .railRegulationRestored rail => Sys2Proof.Machine.execRailRegulationRestored rail s
  | .forceDivWrite v => Sys2Proof.Machine.execForceDivWrite v s
  | .ddrRestoreDone ch ok slots => Sys2Proof.Machine.execDdrRestoreDone ch ok slots s
  | .internalRetry queue index => Sys2Proof.Machine.execInternalRetry queue index s
  | .unknown ep => Sys2Proof.Machine.execUnknown ep s
  | .jtagScan dr => Sys2Proof.Machine.execJtagScan dr s
  | .controlPortFrame port frame => Sys2Proof.Machine.execControlPortFrame port frame s

end Sys2Proof.Machine
end

