-- ==== Sys2Proof/Machine/Step.lean ====
section
/-! DEFINITION. One step: the command at the front of the queue, or the passing of one T-tick. -/

namespace Sys2Proof.Machine

/-- An idle step: no command waits, and one T-tick passes (DESIGN CHOICE, log entry 2). -/
def State.idle (s : State) : State := s.onCtl (fun c => { c with now := c.now + 1 })

/-- Take the command at the front of the queue and run it on the state with the queue's rest (DESIGN CHOICE, log entry 1). -/
def step (s : State) : Host.Outcome State Fault Refusal :=
  match s.pending with
  | [] => .next s.idle
  | c :: rest => exec c { s with pending := rest }

/-- The command a word spells, put at the front of the queue; unchanged where it spells none. -/
def State.withFetchWord (s : State) (nbits w : Nat) : State :=
  match decodeTableWord nbits w with
  | some c => { s with pending := c :: s.pending }
  | none => s

end Sys2Proof.Machine
end

