-- ==== Sys2Proof/WellFormed.lean ====
section
/-! DEFINITION. Which commands can arrive at all: a row's frame has the kind and the length that its name says, a JMP
message fits its fragments, a unit exists. The meanings are total and do not rest on it. -/

namespace Sys2Proof

/-- A frame whose LEN is its payload's length, at most 4,096 bytes (R74, R76). -/
def frameWf (f : Frame) : Bool := f.len.toNat == f.payload.length && decide (f.payload.length ≤ 4096)

/-- A frame of one kind (Table 3.7). -/
def carries (f : Frame) (kind : Nat) : Bool := frameWf f && f.kind.toNat == kind

/-- An ATOMIC payload's OP is QUERY (R168). -/
def isQuery (f : Frame) : Bool := f.payload.head? == some 0x0F

/-- A frame that R157 holds: WRITE, ATOMIC or CTR with RELEASE. -/
def isReleaseKind (f : Frame) : Bool := f.kind.toNat == 0x11 || f.kind.toNat == 0x13 || f.kind.toNat == 0x15

/-- A node-form address of node 0xFFF with an offset from lo up to hi (R124). -/
def toWindow (f : Frame) (lo hi : Nat) : Bool :=
  f.dst == 0xFFF && f.addr.toNat / 2 ^ 63 == 1 && f.addr.toNat / 2 ^ 44 % 2 ^ 12 == 0xFFF && decide (lo ≤ f.addr.toNat % 2 ^ 44) && decide (f.addr.toNat % 2 ^ 44 < hi)

/-- A JMP message body has at most 16 fragments of 8,192 bytes (Table 19.1). -/
def jmpFits (n : Nat) : Bool := decide (n ≤ 131072)

/-- How many units of a kind the SG7 has (Table 18.7). -/
def unitsOf : UnitKind → Nat
  | .tile => 272
  | .crucible => 136
  | .cupola => 34
  | .runner => 64
  | .riddle => 32

/-- A finding names a unit that exists. -/
def bootFaultWf : BootFault → Bool
  | .unitFailed k n => decide (n < unitsOf k)
  | .sramRepaired _ => true
  | .flaskCells _ => true
  | .cacheLines _ => true
  | .moduleFault => true

/-- A repair item names a unit that exists. -/
def repairItemWf : RepairItem → Bool
  | .unitFailed k n => decide (n < unitsOf k)
  | .sram _ => true
  | .exhausted _ => true
  | .flaskCells _ => true
  | .cacheLines _ => true
  | .moduleFault => true

/-- A DDR5 channel holds at most 128 GiB: 2^21 slots of 64 KiB (Table 1.2). -/
def slotsWf (n : Nat) : Bool := decide (n ≤ 2 ^ 21)

/-- The well-formed commands. -/
def wellFormed : Instr → Bool
  | .feedGood _ => true
  | .feedLost _ => true
  | .coldReset => true
  | .bootVerify => true
  | .pwrEnAssert => true
  | .railSequence => true
  | .railFail _ => true
  | .railOutOfRegulation _ => true
  | .softRepair => true
  | .quickBootCheck found => found.all bootFaultWf
  | .memoryTrained _ _ slots => slotsWf slots
  | .dataReady => true
  | .powerCapExceeded _ => true
  | .overCurrent _ => true
  | .mainLost => true
  | .auxLost => true
  | .clockFrequencyEvent _ => true
  | .fabRefLost => true
  | .coreRefLost => true
  | .coreRefRestored => true
  | .throttleStepDown => true
  | .throttleStepUp => true
  | .thermalLimit => true
  | .thermTrip => true
  | .pinReset => true
  | .watchdogExpiry => true
  | .mgmtResetEnd => true
  | .d2dFail _ => true
  | .laserFail _ _ => true
  | .laserSwitch _ _ => true
  | .lnkModeChange _ _ => true
  | .lnkDisable _ => true
  | .unquar _ => true
  | .linkSignalDetect _ _ => true
  | .trainComplete _ _ _ => true
  | .trainTimeout _ _ => true
  | .trainRetry _ _ => true
  | .subportAligned _ _ => true
  | .alignTimeout _ _ => true
  | .linkInit _ _ payload => decide (payload.length ≤ 4096)
  | .keyAccept _ _ ciphertext => decide (ciphertext.length ≤ 4096)
  | .rekey _ _ => true
  | .laneFail _ _ => true
  | .widthChange _ _ _ => true
  | .laneReadd _ _ => true
  | .laneRecalibration _ _ => true
  | .nak _ _ _ => true
  | .replayTimeout _ _ => true
  | .replayStallTimeout _ _ => true
  | .credit _ _ _ => true
  | .creditReturnWait _ _ => true
  | .frameReceive _ _ _ => true
  | .heldFrameRetry _ => true
  | .holdTimeout _ _ _ => true
  | .egressSend _ _ => true
  | .flaskSweep => true
  | .flkQcfgWrite _ _ => true
  | .clear _ => true
  | .clrMin => true
  | .tack frame => carries frame 0x01
  | .tackSend _ => true
  | .rtxTimeout _ _ => true
  | .seqfillRetransmit _ _ => true
  | .seqfill frame => carries frame 0x04
  | .read frame _ => carries frame 0x10
  | .write frame _ => carries frame 0x11
  | .flaggedWrite frame _ => frameWf frame && isReleaseKind frame
  | .releaseProceed _ => true
  | .releaseTimeout _ => true
  | .writeInv frame => carries frame 0x12
  | .atomic frame _ => carries frame 0x13 && !isQuery frame
  | .query frame => carries frame 0x13 && isQuery frame
  | .atomicWriteback frame => carries frame 0x41
  | .fence frame => carries frame 0x14
  | .fenceComplete _ => true
  | .fenceTimeout _ => true
  | .ctr frame => carries frame 0x15
  | .readPub frame => carries frame 0x16
  | .publish frame => carries frame 0x17
  | .response frame => frameWf frame && decide (0x40 ≤ frame.kind.toNat) && decide (frame.kind.toNat ≤ 0x47)
  | .syncRsp frame => carries frame 0x47
  | .rds frame _ => carries frame 0x70
  | .rdx frame => carries frame 0x71
  | .upg frame => carries frame 0x72
  | .wbm frame => carries frame 0x73
  | .wbe frame => carries frame 0x74
  | .invack frame => carries frame 0x79
  | .fwdack frame => carries frame 0x7B
  | .data frame => carries frame 0x80
  | .dirAckTimeout _ _ _ => true
  | .create _ => true
  | .addAgent _ _ => true
  | .destroy _ => true
  | .domainDrained _ => true
  | .extInstall _ => true
  | .extRevoke _ => true
  | .revokeDrained _ => true
  | .revokeTimeout _ => true
  | .cmpInstall _ => true
  | .oldMapRetire _ => true
  | .cmpGraceExpiry _ => true
  | .retireNow _ => true
  | .bayEpCfgWrite _ _ => true
  | .memCtrWinWrite _ _ => true
  | .tirRegionWrite _ _ _ => true
  | .migrationStart => true
  | .migrationChunk _ _ => true
  | .sourceFree _ => true
  | .pageZeroed _ => true
  | .zeroingFail _ => true
  | .failureUnitLost _ => true
  | .rebuild _ => true
  | .reservedAreaRebuild _ => true
  | .patrolScrub _ => true
  | .eccWriteback _ => true
  | .hbmEvacuate _ => true
  | .hbmRestore _ => true
  | .hbmRestoreDone _ _ => true
  | .ddrEvacuate _ => true
  | .ddrRestore _ => true
  | .rebalance => true
  | .kvDescriptorWrite frame => carries frame 0x11 && toWindow frame 0x10000 0x1000000
  | .kvDestroyApplied _ _ => true
  | .copyOnWrite _ _ _ => true
  | .kvsBayWrite _ _ _ => true
  | .cruBayRsaWrite _ _ => true
  | .queCfgWrite _ _ _ => true
  | .doorbell frame => carries frame 0x11 && toWindow frame 0 0x200
  | .resume frame => carries frame 0x11 && toWindow frame 0 0x200
  | .fetch _ => true
  | .issue _ => true
  | .completion _ _ => true
  | .recordFail _ _ => true
  | .requestStateTimeout _ _ => true
  | .nop _ _ => true
  | .wait _ _ => true
  | .waitSatisfied _ _ => true
  | .waitExpired _ _ => true
  | .signal _ _ => true
  | .fenceInstr _ _ => true
  | .tap _ _ => true
  | .halt _ _ => true
  | .loop _ _ => true
  | .post _ _ => true
  | .copy _ _ => true
  | .zero _ _ => true
  | .stream _ _ => true
  | .streamFill _ _ => true
  | .streamFillTimeout _ _ => true
  | .hint _ _ => true
  | .publishInstr _ _ => true
  | .atomics _ _ => true
  | .reduce _ _ => true
  | .allreduce _ _ => true
  | .reducescatter _ _ => true
  | .allgather _ _ => true
  | .broadcast _ _ => true
  | .chunkReadout _ _ _ _ => true
  | .phaseTwo _ _ => true
  | .straggler _ _ _ => true
  | .gather _ _ => true
  | .scatter _ _ => true
  | .dispatch _ _ => true
  | .combine _ _ => true
  | .filter _ _ => true
  | .topk _ _ => true
  | .compact _ _ => true
  | .pieceComplete _ _ _ => true
  | .unitOutOfService _ => true
  | .attend _ _ => true
  | .passComplete _ _ _ => true
  | .splitMerge _ _ _ => true
  | .cupolaOut _ => true
  | .kvappend _ _ => true
  | .prefixLookup _ _ => true
  | .prefixInsert _ _ => true
  | .kvfork _ _ => true
  | .place _ _ => true
  | .launch _ _ => true
  | .launchComplete _ _ => true
  | .launchTimeout _ _ => true
  | .pack _ _ => true
  | .unpack _ _ => true
  | .selftest _ _ => true
  | .tileFail _ _ => true
  | .columnRemap _ _ => true
  | .trsOwnWrite _ _ => true
  | .tileCleared _ => true
  | .add _ _ => true
  | .sub _ _ => true
  | .mul _ _ => true
  | .and _ _ => true
  | .or _ _ => true
  | .xor _ _ => true
  | .shl _ _ => true
  | .shr _ _ => true
  | .sar _ _ => true
  | .slt _ _ => true
  | .sltu _ _ => true
  | .min _ _ => true
  | .max _ _ => true
  | .jmp _ _ => true
  | .beq _ _ => true
  | .bne _ _ => true
  | .blt _ _ => true
  | .bge _ _ => true
  | .jr _ _ => true
  | .call _ _ => true
  | .getsys _ _ => true
  | .ld _ _ => true
  | .st _ _ => true
  | .vadd _ _ => true
  | .vsub _ _ => true
  | .vmul _ _ => true
  | .vfma _ _ => true
  | .vmax _ _ => true
  | .vmin _ _ => true
  | .vexp2 _ _ => true
  | .vlog2 _ _ => true
  | .vrcp _ _ => true
  | .vrsq _ _ => true
  | .vcmplt _ _ => true
  | .vsel _ _ => true
  | .vcvt _ _ => true
  | .vrsum _ _ => true
  | .viadd _ _ => true
  | .vbcast _ _ => true
  | .vld _ _ => true
  | .vst _ _ => true
  | .vlds _ _ => true
  | .vsts _ _ => true
  | .mzero _ _ => true
  | .mloadw _ _ => true
  | .mma _ _ => true
  | .mstore _ _ => true
  | .psel _ _ => true
  | .pselExpanded _ _ => true
  | .ptile _ _ => true
  | .send _ _ => true
  | .recv _ _ => true
  | .get _ _ => true
  | .put _ _ => true
  | .transferDone _ _ _ => true
  | .xwait _ _ => true
  | .xfence _ _ => true
  | .xsignal _ _ => true
  | .tileHalt _ _ => true
  | .bar _ _ => true
  | .sleep _ _ => true
  | .tileNop _ _ => true
  | .chainStart _ _ => true
  | .descriptorFetch _ _ => true
  | .descriptorDone _ _ => true
  | .channelStop _ _ _ _ => true
  | .busError _ _ => true
  | .restart _ => true
  | .ldlChResume _ _ => true
  | .ldlChCfgWrite _ _ _ _ => true
  | .ldlEngCfgWrite _ _ => true
  | .mailboxPost frame => carries frame 0x11 && toWindow frame 0x1040 0x1041
  | .bind _ _ => true
  | .unbind _ => true
  | .ackw _ _ => true
  | .mailboxTimeout _ => true
  | .echo _ => true
  | .identify _ => true
  | .spdmMailbox _ => true
  | .release _ => true
  | .shakeoutQuiesce _ => true
  | .shakeoutClear _ => true
  | .shakeoutRevoke _ => true
  | .shakeoutDone _ => true
  | .keyRotate _ => true
  | .svnCommit _ => true
  | .spdm _ msg => jmpFits msg.length
  | .collectorDrain _ => true
  | .flashBatch => true
  | .healthDecay => true
  | .errFirstClr _ => true
  | .beatSend => true
  | .beat frame => carries frame 0x03
  | .mgmtBeat _ => true
  | .suspect _ => true
  | .peerReport frame => carries frame 0x03
  | .deadVerdict _ => true
  | .evict _ _ => true
  | .recheckResult _ _ _ => true
  | .spareIn => true
  | .setup _ body => jmpFits body.length
  | .setupSignature _ body => jmpFits body.length
  | .request _ _ _ _ => true
  | .regRead _ _ _ => true
  | .regWrite _ _ values => jmpFits (8 + 8 * values.length)
  | .memRead _ _ _ _ => true
  | .memWrite _ _ _ data => jmpFits (10 + data.length)
  | .logRead _ _ _ => true
  | .sensors _ => true
  | .powerOn _ => true
  | .shutdown _ _ => true
  | .shutdownQuiesce => true
  | .shutdownWriteback => true
  | .shutdownTest map => map.all repairItemWf
  | .shutdownMainOff => true
  | .resetData _ => true
  | .resetMgmt _ => true
  | .thermClear _ => true
  | .elmRelease _ _ => true
  | .elmRestore _ _ => true
  | .linkQuar _ _ _ => true
  | .fwBegin _ _ => true
  | .fwData _ _ data => jmpFits (8 + data.length)
  | .fwVerify _ => true
  | .fwWritten => true
  | .fwActivate _ => true
  | .anchorSet _ _ hash => jmpFits (1 + hash.length)
  | .netcfg _ _ => true
  | .debugOpen _ => true
  | .debugClose _ => true
  | .tapTrigger _ => true
  | .tapIn => true
  | .tapArm _ => true
  | .tapRead _ _ => true
  | .jmpSelftest _ block list => jmpFits (block.length + 2 * list.length)
  | .selftestDrained => true
  | .drainTimeout => true
  | .selftestDone _ => true
  | .fuseRepair _ => true
  | .subscribe _ _ _ => true
  | .eventAck _ _ => true
  | .eventResend => true
  | .sessionIdle _ => true
  | .sensorSample _ _ => true
  | .recoveryBeacon => true
  | .recoveryImage _ data _ => jmpFits data.length
  | .glbAlertPendWrite _ => true
  | .glbAlertMaskWrite _ => true
  | .pwrResetCauseWrite _ => true
  | .mbxViewRead _ _ _ => true
  | .resetNHigh => true
  | .fabRefReturn => true
  | .railRegulationRestored _ => true
  | .forceDivWrite _ => true
  | .ddrRestoreDone _ _ slots => slotsWf slots
  | .internalRetry _ _ => true
  | .unknown _ => true
  | .jtagScan _ => true
  | .controlPortFrame _ frame => decide (64 ≤ frame.bytes)

end Sys2Proof
end

