-- ==== Sys2Proof/Safety.lean ====
section
/-! DEFINITION. The terms in which claims are stated: a command completes, what a state keeps, what is logged, answered and
sent, and what a safe state is. -/

namespace Sys2Proof.Machine

/-- A command completes from a state, and the next state has a property. -/
def Completes (i : Instr) (s : State) (P : State → Prop) : Prop := ∃ t, exec i s = .next t ∧ P t

/-- Memory and the queue of commands are as before. -/
def Keeps (s t : State) : Prop := t.mem = s.mem ∧ t.pending = s.pending

/-- Every register outside a list reads as before. -/
def RegsBut (l : List Nat) (s t : State) : Prop := ∀ a, a ∉ l → t.ctl.reg a = s.ctl.reg a

/-- Memory keeps its canonical form: addresses strictly rising, no zero byte listed. -/
def State.memWf (s : State) : Prop := Memory.wf s.mem = true

/-- Nothing but the registers of a list differs. -/
def OnlyRegs (l : List Nat) (s t : State) : Prop :=
  t = { s with ctl := { s.ctl with regs := t.ctl.regs } } ∧ RegsBut l s t

/-- A report waits in the collector queue (R447); FIRST is the collector's. -/
def Logged (t : State) (r : Report) : Prop := ∃ b, { r with first := b } ∈ t.ctl.err.queue

/-- The collector queue has room. -/
def LogRoom (s : State) : Prop := s.ctl.err.queue.length < 255

/-- Something was sent between two states. -/
def Sent (s t : State) (o : Output) : Prop := o ∈ t.ctl.out.drop s.ctl.out.length

/-- A session's request was answered with a RESULT of Table 19.3. -/
def Answered (s t : State) (sid r : Nat) : Prop := ∃ port x, Sent s t (.answer sid port x) ∧ x.result = r

/-- A session's request was answered with this RESULT and body (R480). -/
def Replies (s t : State) (sid r : Nat) (ws : List Word) (bs : List Byte) : Prop :=
  ∃ port x, Sent s t (.answer sid port x) ∧ x.result = r ∧ x.words = ws ∧ x.bytes = bs

/-- Nothing but the control records named differs, and the session's answer (R480). -/
def JmpOnly (s t : State) (f : Ctl → Ctl) : Prop :=
  t = { s with ctl := { f s.ctl with sessions := t.ctl.sessions, out := t.ctl.out } }

/-- No two sessions have the same SID (R477); an invariant of the runs. -/
def State.sidsDiffer (s : State) : Prop := (s.ctl.sessions.map (fun x => x.sid)).Nodup

/-- Nothing was done but the answer (R480). -/
def JustAnswered (s t : State) (sid r : Nat) : Prop := Answered s t sid r ∧ JmpOnly s t id

/-- The next state differs in the control records named and nowhere else: `f` puts the next state's records of those names
into the old ones. -/
def Only (s t : State) (f : Ctl → Ctl) : Prop := t = { s with ctl := f s.ctl }

/-- Fewer than seven entries of a sub-port to TRAIN lie in the last second, so that one more does not quarantine it (R72). -/
def TrainRoom (s : State) (p q : Nat) : Prop :=
  ((s.ctl.sub p q).trains.filter (fun x => decide (s.ctl.now < x + 100000000))).length < 7

/-- A sub-port is in a state of Table 3.4 and has been since this moment. -/
def Entered (t : State) (p q : Nat) (l : LinkState) : Prop := (t.ctl.sub p q).st = l ∧ (t.ctl.sub p q).since = t.ctl.now

/-- The sub-ports of the other ports are as before. -/
def OtherPorts (s t : State) (p : Nat) : Prop := ∀ r : Fin 128, r.val ≠ p → ∀ q : Fin 4, t.ctl.sub r.val q.val = s.ctl.sub r.val q.val

/-- A request that the SG7 itself serves: MAIN is up and serving, the source's incarnation is live, the frame has the form of R150
and is addressed to the SG7, its bay is ACTIVE and not halted. -/
structure Serves (s : State) (f : Frame) : Prop where
  up : s.ctl.mainUp = true
  serving : s.ctl.answersBusy = false
  live : s.ctl.liveInc f.src.toNat f.inc = true
  ours : f.dst = 0xFFF
  form : malformed f = false
  active : (s.ctl.bay f.bay.toNat).st = .active
  running : (s.ctl.bay f.bay.toNat).halted = false

/-- Such a request arrives while no other is open and nothing of its source is in a release tracker or the Peg table. -/
structure Arrives (s : State) (f : Frame) : Prop extends Serves s f where
  quiet : s.ctl.opens = []
  untracked : ∀ x ∈ s.ctl.tracker, x.src ≠ f.src.toNat
  pegless : s.ctl.peg = []

/-- A request's flat address lands, through extent i, in one page of the module's memory: its first byte has key k, its unit
serves, nothing there is poisoned, coherent, locked or being published. -/
def Lands (s : State) (f : Frame) (i k : Nat) : Prop :=
  (∃ p, s.ctl.targetSegs f.bay.toNat (.flat i) f.addr (spanOf f)
      = [{ key := some k, len := spanOf f, lost := false, copies := [], parity := none, page := p }])
  ∧ keyTray k = none ∧ s.mem.poison = [] ∧ s.ctl.locks = [] ∧ s.ctl.pubReads = [] ∧ (s.ctl.ext i).coh = false

/-- The SG7 answered a request addressed to it: under the pair's next SEQ stands a response of the request's kind and tag with
this status and payload. -/
def Replied (s t : State) (f : Frame) (status : Byte) (payload : List Byte) : Prop :=
  ∃ x ∈ (t.ctl.pair f.src.toNat).unack ++ (t.ctl.pair f.src.toNat).waiting,
    x.seq = (s.ctl.pair f.src.toNat).txSeq ∧ x.frame.kind = rspKind f.kind ∧ x.frame.tag = f.tag
    ∧ x.frame.status = status ∧ x.frame.payload = payload

/-- The tables that say who may reach what are as before: bays, extents, endpoints, regions of KV memory. -/
def SameRights (s t : State) : Prop :=
  t.ctl.bays = s.ctl.bays ∧ t.ctl.exts = s.ctl.exts ∧ t.ctl.eps = s.ctl.eps ∧ t.ctl.kvRegions = s.ctl.kvRegions

/-- An agent asks home for a line of a coherent extent that nobody holds, in a set with a way to spare; b are the line's bytes. -/
structure FirstGrant (s : State) (f : Frame) (i slot cls : Nat) (old : Bool) (b : List Byte) : Prop extends Arrives s f where
  passes : s.ctl.check59 f 128 (rightFor f) = .pass (.flat i) cls old
  coherent : (s.ctl.ext i).coh = true
  domain : (s.ctl.dom (s.ctl.ext i).cdom.toNat).st = .up ∧ (s.ctl.dom (s.ctl.ext i).cdom.toNat).bay = f.bay.toNat
  agent : (s.ctl.dom (s.ctl.ext i).cdom.toNat).slotOf f.src.toNat = some slot
  unheld : s.ctl.entOf (lineKeyOf f.bay.toNat f.addr) = none
  ways : s.ctl.openWays (dirSet f.bay.toNat f.addr) < 12 ∧ (s.ctl.freeWay (dirSet f.bay.toNat f.addr)).isSome = true
  bytes : s.rawRead f.bay.toNat (.flat i) f.addr 128 = some b
  unlocked : s.ctl.locks = []

/-- A frame's line lies in a coherent extent of an UP domain in which its source is an agent; e is the line's entry, k its key in
the module's memory; nothing waits in an allocation queue. -/
structure CohLine (s : State) (f : Frame) (i slot k : Nat) (e : DirEnt) : Prop where
  coherent : (s.ctl.ext i).coh = true
  domain : (s.ctl.dom (s.ctl.ext i).cdom.toNat).st = .up ∧ (s.ctl.dom (s.ctl.ext i).cdom.toNat).bay = f.bay.toNat
  agent : (s.ctl.dom (s.ctl.ext i).cdom.toNat).slotOf f.src.toNat = some slot
  entry : s.ctl.entOf (lineKeyOf f.bay.toNat f.addr) = some e
  place : ∃ p, s.ctl.targetSegs f.bay.toNat (.flat i) f.addr 128
    = [{ key := some k, len := 128, lost := false, copies := [], parity := none, page := p }]
  near : keyTray k = none
  clean : s.mem.poison = []
  idle : s.ctl.dirQ = []

/-- Home awaits this agent's answer, and only it, on the line that a frame names; no request is open, no queue has one. -/
structure Awaited (s : State) (f : Frame) (slot : Nat) (e : DirEnt) (tr : Trans) : Prop where
  up : s.ctl.mainUp = true
  ours : f.dst = 0xFFF
  live : s.ctl.liveInc f.src.toNat f.inc = true
  entry : s.ctl.entOf (lineKeyOf f.bay.toNat (BitVec.ofNat 64 (f.addr.toNat / 128 * 128))) = some e
  trans : e.trans = some tr
  agent : (s.ctl.dom e.dom).slotOf f.src.toNat = some slot
  waits : tr.granted = false ∧ tr.await = [slot] ∧ tr.awaitWb = []
  quiet : s.ctl.opens = [] ∧ s.ctl.dirQ = []

/-- An instruction of a queue has issued under an opcode and awaits its effect; the device is not shutting down (R252). -/
structure Issued (s : State) (q i op : Nat) (x : QInst) : Prop where
  found : s.ctl.inst? q i (fun y => y.phase == .issued && y.retry.isNone && entOpcode y.entry == op) = some x
  own : s.ctl.instOf q x.serial = some x
  serving : s.ctl.rd Reg.glbState ≠ 3

/-- One instruction of queue q is now y; every other instruction and every other queue is as before, and so is the rest of q. -/
def InstNow (s t : State) (q : Nat) (y : QInst) : Prop :=
  t.ctl.instOf q y.serial = some y
  ∧ (∀ n, n ≠ y.serial → t.ctl.instOf q n = s.ctl.instOf q n)
  ∧ (∀ p, p ≠ q → t.ctl.que p = s.ctl.que p)
  ∧ t.ctl.que q = { s.ctl.que q with insts := (t.ctl.que q).insts }

/-- Nothing but one instruction of queue q differs. -/
def JustInst (s t : State) (q : Nat) (y : QInst) : Prop :=
  InstNow s t q y ∧ Only s t (fun c => { c with ques := t.ctl.ques })

/-- n bytes at a node address read as a member of a bay: they are b, and reading them changes nothing. -/
def Reads (s : State) (bay ep a n right : Nat) (b : List Byte) : Prop :=
  ∀ fl, (Act.read bay ep a n right).run { s := s, fl := fl } = .ok (b, { s := s, fl := fl })

/-- A write of bytes as a member of a bay is applied and leaves the state t. -/
def Writes (s : State) (bay ep a : Nat) (b : List Byte) (t : State) : Prop :=
  ∀ fl, (Act.write bay ep a b).run { s := s, fl := fl } = .ok ((), { s := t, fl := fl })

/-- The parameter block of an instruction reads as p, and nothing of its pointer is clamped. -/
def Params (s : State) (q : Nat) (x : QInst) (n : Nat) (p : List Byte) : Prop :=
  ∀ fl, (Act.param (s.ctl.queCtx q).1 (s.ctl.queCtx q).2 (entA x.entry) n).run { s := s, fl := fl } = .ok (p, { s := s, fl := fl })

/-- An address has no reserved bit set (R123). -/
def CleanAddr (a : Nat) : Prop := (clearReserved (BitVec.ofNat 64 a)).toNat = a

/-- An instruction posts to a collective that nobody has opened, as a member of a group with another member (R272); no collective is
open, and its block reads as p. -/
structure FirstPost (s : State) (q i op : Nat) (x : QInst) (p : List Byte) (m : CMap) (g : Nat × List Nat) : Prop extends Issued s q i op x where
  none : s.ctl.colls = []
  block : Params s q x 64 p
  map : (s.ctl.bay (s.ctl.queCtx q).1).cur = some m
  group : m.groups.find? (fun g => g.1 == leAt p 0 1) = some g
  member : (s.ctl.queCtx q).2 ∈ g.2
  other : ∃ e ∈ g.2, e ≠ (s.ctl.queCtx q).2

/-- The collective is open, with one post, and waits for the others. -/
def Opened (s t : State) (q op : Nat) (x : QInst) (p : List Byte) (g : Nat × List Nat) : Prop :=
  (∃ k y, t.ctl.colls = [k] ∧ k.bay = (s.ctl.queCtx q).1 ∧ k.group = leAt p 0 1 ∧ k.seqno = leAt p 8 4 ∧ k.opcode = op ∧ k.members = g.2
    ∧ k.posts.map (fun z => (z.ep, z.queue, z.serial)) = [((s.ctl.queCtx q).2, q, x.serial)] ∧ k.openedAt = s.ctl.now ∧ k.failed = none
    ∧ t.ctl.instOf q x.serial = some y ∧ y.phase = .running ∧ y.index = x.index)
  ∧ (∀ r, r ≠ q → t.ctl.que r = s.ctl.que r) ∧ Keeps s t

/-- An instruction that runs in pieces has begun: its block is made legal, CLAMPED says whether that changed it (R246), n pieces
are to be done (Table 12.1). -/
def Begun (s t : State) (q : Nat) (x : QInst) (fs : List (List Byte → List Byte)) (p : List Byte) (pieces : List Byte → List Nat) : Prop :=
  JustInst s t q { x with phase := .running, param := cleaned fs p, todo := pieces (cleaned fs p),
                          flags := if cleaned fs p = p then x.flags else Nat.lor x.flags crCLAMPED }

/-- A KVBASE names a live region of a bay (R352, R353). -/
def NamesRegion (s : State) (bay a : Nat) (r : KvRegion) : Prop :=
  isNode (BitVec.ofNat 64 a) = true ∧ nodeOf (BitVec.ofNat 64 a) = 0xFFF ∧ s.ctl.kvBase bay (offsetOf (BitVec.ofNat 64 a)) = some r ∧ r.dying = none

/-- A member may write a region (R130, R350). -/
def MayWriteRegion (s : State) (bay ep : Nat) (r : KvRegion) : Prop :=
  ∃ t cls old, s.ctl.checkUnit bay ep (nodeAddr 0xFFF r.base) 1 (some rightW) = .pass t cls old ∧ cls ≤ 1

/-- An instruction with CLAMPED set when its block was not legal (R246). -/
def QInst.clampedIf (x : QInst) (p q : List Byte) : QInst :=
  { x with flags := if q = p then x.flags else Nat.lor x.flags crCLAMPED }

/-- Tile i is now x, and the other tiles are as before. -/
def TileNow (s t : State) (i : Nat) (x : Tile) : Prop := t.ctl.tile i = x ∧ ∀ j, j ≠ i → t.ctl.tile j = s.ctl.tile j

/-- Nothing but a tile differs, and the flags of the LAUNCH that runs it. -/
def TileStep (s t : State) (i : Nat) (x : Tile) : Prop :=
  TileNow s t i x ∧ Only s t (fun c => { c with tiles := t.ctl.tiles, ques := t.ctl.ques })

/-- A tile's scalar instruction stands at its PC: sD takes f of sA and sB (or IMM), the tile goes on to the next word, nothing else
differs (R378; s0 keeps 0). -/
def ScalarOp (op : TileOp) (mk : Fin 272 → TileFields → Instr) (f : Word → Word → Word) : Prop :=
  ∀ (i : Fin 272) (w : TileFields) (s : State) (p : Place),
    let x := s.ctl.tile i.val
    s.tileAt i.val [op] w = some p → Completes (mk i w) s (fun t =>
      TileNow s t i.val (x.setS w.d.toNat (f (x.sreg w.a.toNat) (saluB x w))).next ∧ Only s t (fun c => { c with tiles := t.ctl.tiles }))

/-- A shift: by less than 64 it is f; by 64 or more the value is open (DESIGN CHOICE, log entry 3). -/
def ShiftOp (op : TileOp) (mk : Fin 272 → TileFields → Instr) (f : Word → Nat → Word) : Prop :=
  ∀ (i : Fin 272) (w : TileFields) (s : State) (p : Place),
    let x := s.ctl.tile i.val
    s.tileAt i.val [op] w = some p → Completes (mk i w) s (fun t =>
      ∃ v, TileNow s t i.val (x.setS w.d.toNat v).next ∧ ((saluB x w).toNat < 64 → v = f (x.sreg w.a.toNat) (saluB x w).toNat)
        ∧ Only s t (fun c => { c with tiles := t.ctl.tiles, freeCtr := t.ctl.freeCtr }))

/-- A conditional branch: to PC + 8 × IMM, modulo IMEM and at a word, where f holds of sA and sB; else to the next word (R378). -/
def BranchOp (op : TileOp) (mk : Fin 272 → TileFields → Instr) (f : Word → Word → Bool) : Prop :=
  ∀ (i : Fin 272) (w : TileFields) (s : State) (p : Place),
    let x := s.ctl.tile i.val
    s.tileAt i.val [op] w = some p → Completes (mk i w) s (fun t =>
      TileStep s t i.val (if f (x.sreg w.a.toNat) (x.sreg w.b.toNat)
        then { x with pc := (BitVec.ofNat 64 x.pc + 8 * immOff w).toNat % p.imem / 8 * 8 } else x.next))

/-- A vector instruction: lane by lane, vD takes f of the lanes of vA, vB and vD (R379). -/
def VectorOp (op : TileOp) (mk : Fin 272 → TileFields → Instr) (f : BitVec 32 → BitVec 32 → BitVec 32 → BitVec 32) : Prop :=
  ∀ (i : Fin 272) (w : TileFields) (s : State) (p : Place),
    let x := s.ctl.tile i.val
    s.tileAt i.val [op] w = some p → Completes (mk i w) s (fun t =>
      TileStep s t i.val (x.setV (vfield w.d)
        (((x.vreg (vfield w.a)).zip (x.vreg (vfield w.b))).zip (x.vreg (vfield w.d)) |>.map (fun e => f e.1.1 e.1.2 e.2))).next)

/-- Bytes of the scratchpad of tile i outside n bytes from an offset, and all other memory, read as before. -/
def PadElse (s t : State) (i off n : Nat) : Prop :=
  ∀ k, (∀ j, j < n → k ≠ scratchKey i ((off + j) % 2 ^ 21)) → t.mem.byte k = s.mem.byte k

/-- A store from a tile (R378): the bytes that lie outside instruction memory are stored, no other byte changes; the tile goes on. -/
def PadStored (s t : State) (i imem off : Nat) (data : List Byte) (x : Tile) : Prop :=
  (s.memWf → data.length ≤ 2 ^ 21 → ∀ j, j < data.length → imem ≤ (off + j) % 2 ^ 21 → t.mem.byte (scratchKey i ((off + j) % 2 ^ 21)) = data.getD j 0)
  ∧ (∀ a, a < imem → a < 2 ^ 21 → t.mem.byte (scratchKey i a) = s.mem.byte (scratchKey i a))
  ∧ PadElse s t i off data.length ∧ TileNow s t i x
  ∧ t = { s with mem := t.mem, ctl := { s.ctl with tiles := t.ctl.tiles, ques := t.ctl.ques } }

/-- The LAUNCH of a placement, instruction x of queue q, runs. -/
def Launched (s : State) (p : Place) (q : Nat) (x : QInst) : Prop :=
  p.launch = some (q, x.serial) ∧ s.ctl.instOf q x.serial = some x ∧ x.phase = .running

/-- An incarnation is retired (R119, R169, R420, R461): it is not live, no map lists it as LIVE, nothing of it is in a Peg or tracker
entry or a fence, its transport and its mailbox are empty; of the other endpoints nothing changed. -/
def Retired (s t : State) (ep cause : Nat) : Prop :=
  (t.ctl.ep ep).live = false ∧ (t.ctl.ep ep).plumb = .dead ∧ (t.ctl.ep ep).cause = cause ∧ (t.ctl.ep ep).inc = (s.ctl.ep ep).inc
  ∧ (t.ctl.ep ep).verdicts = min 255 ((s.ctl.ep ep).verdicts + 1) ∧ (∀ j, j ≠ ep → t.ctl.ep j = s.ctl.ep j)
  ∧ (∀ b m, ((t.ctl.bay b).cur = some m ∨ (t.ctl.bay b).old = some m) → m.classOf ep = none)
  ∧ (∀ p ∈ t.ctl.peg, p.src ≠ ep) ∧ (∀ x ∈ t.ctl.tracker, x.src ≠ ep) ∧ (∀ w ∈ t.ctl.fences, w.frame.src.toNat ≠ ep)
  ∧ t.ctl.pair ep = Pair.init ∧ t.ctl.mbx ep = Mbx.init ∧ s.ctl.evseq < t.ctl.evseq

/-- A Tap trigger of a source was accepted (R485): the banks hold what they showed then, they are disarmed, TAP_OUT pulsed. -/
def TapLatched (s t : State) (src : Nat) : Prop :=
  let u := s.onCtl (fun c => ((((c.wr Reg.tapArmed 0).wr Reg.tapSource src).wr Reg.tapClass 0).wr Reg.tapBay 0).bumpF Reg.tapAccepted 1)
  (∀ k, k < 64 * 89 → t.ctl.reg (Reg.tapBank 0 k) = (u.bankList.flatMap u.ctl.bankWords).getD k 0)
  ∧ t.ctl.rd Reg.tapArmed = 0 ∧ t.ctl.rd Reg.tapSource = src ∧ t.ctl.rd Reg.tapAccepted = min (s.ctl.rd Reg.tapAccepted + 1) 65535
  ∧ t.ctl.rd Reg.tapMissed = s.ctl.rd Reg.tapMissed ∧ Sent s t .tapOut ∧ s.ctl.evseq < t.ctl.evseq ∧ Keeps s t

/-- A control port takes a frame (Table 3.10): it is UP, something runs that answers, the frame's size and tags are the port's. -/
structure TakesFrame (s : State) (p : Nat) (f : CtlFrame) : Prop where
  up : s.ctl.ctlIsUp p = true
  runs : s.ctl.rd Reg.coresUp ≠ 0 ∨ s.ctl.staging.recovering = true
  size : f.bytes ≤ 9216
  tags : f.tags = if s.ctl.rd (Reg.ctlVid p) = 0 then [] else [BitVec.ofNat 12 (s.ctl.rd (Reg.ctlVid p))]

/-- A unit after its test (R468, R491): FAILED, or fit again as a spare when it was quarantined. -/
def UnitRec.after (u : UnitRec) (pass : Bool) : UnitRec :=
  if !pass then { u with st := .failed } else if u.st = .quarantined then { u with st := .spare } else u

/-- A run of n steps stops nowhere. -/
def RunsOn : Nat → State → Prop
  | 0, _ => True
  | n + 1, s => ∃ t, step s = .next t ∧ RunsOn n t

/-- Everything that MAIN holds is gone (R44): its memories read 0, no request, page, instruction or tile state is left. -/
def MainGone (t : State) : Prop :=
  (∀ k, k < 2 ^ 60 → t.mem.byte k = 0) ∧ t.ctl.opens = [] ∧ t.ctl.tier = [] ∧ t.ctl.ques = [] ∧ t.ctl.tiles = []
    ∧ t.ctl.homeDirty = [] ∧ t.ctl.flask = [] ∧ t.ctl.mainUp = false

end Sys2Proof.Machine
end

