-- ==== Sys2Proof/Certificates/Slice0/Obligations.lean ====
section
/-! DEFINITION. The statements for the provers. -/

open Sys2Proof Sys2Proof.Machine

/-- A step takes the command at the front of the queue and runs it on the state with the queue's rest; on an empty queue only
the tick counter moves (the model's choice, log entries 1 and 2). -/
def Obligations.StepRunsFront : Prop :=
  (∀ (c : Instr) (s : State), step { s with pending := c :: s.pending } = exec c s)
  ∧ (∀ (s : State), s.pending = [] → step s = .next { s with ctl := { s.ctl with now := s.ctl.now + 1 } })

/-- Feeds and rails (R35, R39, R40): FEED_OK follows each feed alone; the loss of one feed of a pair while the other is good is
logged naming the feed and asserts ALERT_N; MAIN_GOOD and AUX_GOOD follow the rails. Memory stays. External laser modules, and the alert and cause registers (R33, R34, R56, R502): W1C bits clear, the mask is stored.
Choices and readings of the model in it: log entries 19 and 96. -/
def Obligations.FeedsLasersAlerts : Prop :=
  (∀ (f : Fin 4) (s : State), Completes (.feedGood f) s (fun t =>
    t.ctl.rd ⟨0x01001000, f.val, 1⟩ = 1
    ∧ (∀ g : Fin 4, g ≠ f → t.ctl.rd ⟨0x01001000, g.val, 1⟩ = s.ctl.rd ⟨0x01001000, g.val, 1⟩) ∧ Keeps s t))
  ∧ (∀ (f : Fin 4) (s : State), bitOf (s.ctl.rd Reg.feedOk) f.val = true → bitOf (s.ctl.rd Reg.feedOk) (otherFeed f.val) = true →
      LogRoom s → Completes (.feedLost f) s (fun t =>
    t.ctl.rd ⟨0x01001000, f.val, 1⟩ = 0
    ∧ (∀ g : Fin 4, g ≠ f → t.ctl.rd ⟨0x01001000, g.val, 1⟩ = s.ctl.rd ⟨0x01001000, g.val, 1⟩)
    ∧ Logged t (powerEvent 0 f.val) ∧ t.ctl.rd (Reg.alertPend 0) = 1 ∧ Keeps s t))
  ∧ (∀ (r : Fin 13) (s : State), Completes (.railOutOfRegulation r) s (fun t =>
    (r.val < 9 → t.ctl.rd Reg.mainGood = 0) ∧ (9 ≤ r.val → t.ctl.pwr.auxGood = false) ∧ RegsBut [0x01001000] s t ∧ Keeps s t))
  ∧ (∀ (r : Fin 13) (s : State), s.ctl.pwr.railDrops = BitVec.ofNat 13 (2 ^ r.val) → Completes (.railRegulationRestored r) s (fun t =>
    t.ctl.pwr.auxGood = true ∧ (s.ctl.pwr.railsUp = true → t.ctl.rd Reg.mainGood = 1) ∧ RegsBut [0x01001000] s t ∧ Keeps s t))
  ∧ (∀ (e : Fin 8) (f : Fin 16) (s : State), Completes (.laserFail e f) s (fun t =>
    f.val ∈ (t.ctl.elm e.val).failed ∧ (∀ d : Fin 8, d ≠ e → t.ctl.elm d.val = s.ctl.elm d.val) ∧ Keeps s t))
  ∧ (∀ (e : Fin 8) (f : Fin 16) (s : State), f.val ∈ (s.ctl.elm e.val).failed → (s.ctl.elm e.val).spares < 2 →
      Completes (.laserSwitch e f) s (fun t =>
    f.val ∉ (t.ctl.elm e.val).failed ∧ (t.ctl.elm e.val).spares = (s.ctl.elm e.val).spares + 1 ∧ Keeps s t))
  ∧ (∀ (v : Word) (s : State), Completes (.glbAlertPendWrite v) s (fun t =>
    (∀ i ∈ [0, 1, 2, 3, 4, 5, 11], bitOf v.toNat i = true → s.ctl.alertHeld i = false → t.ctl.rd (Reg.alertPend i) = 0)
    ∧ (∀ i ∈ [0, 1, 2, 3, 4, 5, 11], bitOf v.toNat i = false → t.ctl.rd (Reg.alertPend i) = s.ctl.rd (Reg.alertPend i))
    ∧ OnlyRegs [0x100] s t))
  ∧ (∀ (v : Word) (s : State), Completes (.glbAlertMaskWrite v) s (fun t => t.ctl.reg 0x108 = v &&& 0xFFF ∧ OnlyRegs [0x108] s t))
  ∧ (∀ (v : Word) (s : State), Completes (.pwrResetCauseWrite v) s (fun t =>
    t.ctl.reg 0x01001010 = s.ctl.reg 0x01001010 &&& ~~~ v ∧ OnlyRegs [0x01001010] s t))

/-- The steps of a power-up (Table 2.5, R40, R42, R43, R429, R488): each completes at its step and leaves the device at the
next one.
Choices and readings of the model in it: log entries 20, 101, 103 and 130. -/
def Obligations.PowerUp : Prop :=
  (∀ (s : State), s.ctl.rd Reg.glbWaitOn = 0 → s.ctl.rd Reg.glbState = 0 → s.ctl.rd Reg.coresUp ≠ 0 → s.ctl.pwr.resetLow = false →
      s.ctl.rd Reg.thermTrip = 0 → s.ctl.pwr.coreLost = false → Completes .pwrEnAssert s (fun t =>
    t.ctl.pwr.pwrEn = true ∧ t.ctl.rd Reg.glbState = 1 ∧ t.ctl.rd Reg.glbStep = (if 4 ≤ s.ctl.rd Reg.feedOk then 4 else 3)
    ∧ RegsBut [0x28] s t ∧ Keeps s t))
  ∧ (∀ (s : State), s.ctl.rd Reg.glbState = 1 → 3 ≤ s.ctl.rd Reg.glbStep → s.ctl.rd Reg.glbStep ≤ 5 → s.ctl.pwr.pwrEn = true →
      4 ≤ s.ctl.rd Reg.feedOk → Completes .railSequence s (fun t =>
    t.ctl.rd Reg.mainGood = 1 ∧ t.ctl.rd Reg.glbStep = 5 ∧ t.ctl.pwr.railsUp = true
    ∧ (s.ctl.pwr.fabLost = false → t.ctl.rd Reg.oeLock = 0xFFFF) ∧ Keeps s t))
  ∧ (∀ (rail : Fin 13) (s : State), s.ctl.rd Reg.glbState = 1 → s.ctl.rd Reg.glbStep ≤ 5 → s.ctl.pwr.railsUp = false → LogRoom s →
      Completes (.railFail rail) s (fun t =>
    t.ctl.pwr.pwrEn = false ∧ t.ctl.rd Reg.glbState = 0 ∧ t.ctl.rd Reg.glbWaitOn = 1 ∧ t.ctl.rd (Reg.resetCause 8) = 1
    ∧ Logged t (powerEvent 2 rail.val) ∧ Keeps s t))
  ∧ (∀ (s : State), s.ctl.rd Reg.glbState = 1 → s.ctl.rd Reg.glbStep = 5 → s.ctl.rd Reg.mainGood = 1 → s.ctl.rd Reg.coresUp ≠ 0 →
      (∀ u ∈ s.ctl.flash.map.failed, u.2 < unitsOf u.1) → Completes .softRepair s (fun t =>
    t.ctl.rd Reg.glbStep = 6 ∧ (∀ u ∈ s.ctl.flash.map.failed, (t.ctl.unit u.1 u.2).st = .failed) ∧ Keeps s t))
  ∧ (∀ (found : List BootFault) (s : State), s.ctl.rd Reg.glbState = 1 → s.ctl.rd Reg.glbStep = 6 →
      Completes (.quickBootCheck found) s (fun t =>
    t.ctl.rd Reg.glbStep = 7 ∧ (∀ k n, BootFault.unitFailed k n ∈ found → n < unitsOf k → (t.ctl.unit k n).st = .failed) ∧ Keeps s t))
  ∧ (∀ (u : MemUnit) (ok : Bool) (slots : Nat) (s : State), s.ctl.rd Reg.glbState = 1 → 7 ≤ s.ctl.rd Reg.glbStep → slots < 2 ^ 22 →
      Completes (.memoryTrained u ok slots) s (fun t =>
    (match u with
      | .hbm x => t.ctl.rd (Reg.hbmState x.val) = b2n ok ∧ (ok = false → reducedCode 0x06 x.val ∈ t.ctl.pwr.reduced)
      | .ddr x => t.ctl.rd (Reg.ddrState x.val) = b2n ok ∧ (ok = true → t.ctl.rd (Reg.ddrSlots x.val) = slots)
          ∧ (ok = false → reducedCode 0x07 x.val ∈ t.ctl.pwr.reduced)) ∧ Keeps s t))
  ∧ (∀ (s : State), s.ctl.rd Reg.glbState = 1 → 8 ≤ s.ctl.rd Reg.glbStep → Completes .dataReady s (fun t =>
    t.ctl.rd Reg.dataReady = 1 ∧ t.ctl.rd Reg.glbState = 2 ∧ t.ctl.rd Reg.glbReduced = b2n (!s.ctl.pwr.reduced.isEmpty)
    ∧ s.ctl.evseq < t.ctl.evseq ∧ Keeps s t))

/-- Every loss of MAIN empties it and sets its cause (R37, R44, R45, R49, R52, R55, R56, R445); fuses stay, and flash but where
a firmware write was under way.
Choices and readings of the model in it: log entries 33, 94, 99, 100 and 117. -/
def Obligations.LossOfMain : Prop :=
  (∀ (w : BitVec 16) (s : State), 8000 < w.toNat → s.ctl.pwr.railsUp = true → Completes (.overCurrent w) s (fun t =>
    MainGone t ∧ t.ctl.rd (Reg.resetCause 6) = 1 ∧ t.ctl.rd Reg.glbOffCause = 2 ∧ t.ctl.rd Reg.mainI = w.toNat ∧ t.ctl.fuses = s.ctl.fuses))
  ∧ (∀ (s : State), s.ctl.pwr.railsUp = true → Completes .mainLost s (fun t =>
    MainGone t ∧ t.ctl.rd (Reg.resetCause 6) = 1 ∧ t.ctl.rd Reg.glbOffCause = 2 ∧ t.ctl.fuses = s.ctl.fuses ∧ t.ctl.flash = s.ctl.flash))
  ∧ (∀ (s : State), Completes .auxLost s (fun t =>
    MainGone t ∧ t.ctl.rd Reg.coresUp = 0 ∧ t.ctl.sessions = [] ∧ t.ctl.pwr.auxGood = false ∧ t.ctl.fuses = s.ctl.fuses))
  ∧ (∀ (s : State), Completes .thermTrip s (fun t =>
    MainGone t ∧ t.ctl.rd Reg.thermTrip = 1 ∧ t.ctl.rd (Reg.resetCause 5) = 1 ∧ t.ctl.rd Reg.glbOffCause = 3
    ∧ t.ctl.pwr.pwrEn = false ∧ t.ctl.fuses = s.ctl.fuses ∧ t.ctl.flash = s.ctl.flash))
  ∧ (∀ (s : State), Completes .coreRefLost s (fun t =>
    MainGone t ∧ t.ctl.rd (Reg.resetCause 7) = 1 ∧ t.ctl.rd Reg.glbOffCause = 4 ∧ t.ctl.rd (Reg.alertPend 4) = 1
    ∧ t.ctl.rd (Reg.ctlState 0) = 0 ∧ t.ctl.rd (Reg.ctlState 1) = 0 ∧ t.ctl.fuses = s.ctl.fuses ∧ t.ctl.flash = s.ctl.flash))
  ∧ (∀ (link : Fin 3) (s : State), s.ctl.pwr.railsUp = true → Completes (.d2dFail link) s (fun t =>
    MainGone t ∧ t.ctl.rd (Reg.resetCause 9) = 1 ∧ t.ctl.rd Reg.glbState = 4 ∧ t.ctl.err.moduleReplace = true
    ∧ t.ctl.fuses = s.ctl.fuses ∧ t.ctl.flash = s.ctl.flash))
  ∧ (∀ (s : State), Completes .pinReset s (fun t =>
    MainGone t ∧ t.ctl.rd (Reg.resetCause 1) = 1 ∧ t.ctl.pwr.pwrEn = false ∧ t.ctl.pwr.resetLow = true ∧ t.ctl.sessions = []
    ∧ t.ctl.rd Reg.coresUp = 0 ∧ t.ctl.fuses = s.ctl.fuses))
  ∧ (∀ (s : State), Completes .coldReset s (fun t =>
    MainGone t ∧ t.ctl.reg Reg.resetCauseAddr = 1 ∧ t.ctl.sessions = [] ∧ t.ctl.rd Reg.coresUp = 0
    ∧ t.ctl.rd Reg.feedOk = s.ctl.rd Reg.feedOk ∧ t.ctl.fuses = s.ctl.fuses ∧ t.ctl.flash = s.ctl.flash))

/-- Clocks and the A-clock (R47-R51, R41, Table 2.8): the reference clocks' flags and alerts, the throttle steps.
Choices and readings of the model in it: log entry 99. -/
def Obligations.ClocksAndThrottle : Prop :=
  (∀ (k : RefClk) (s : State), LogRoom s → Completes (.clockFrequencyEvent k) s (fun t =>
    t.ctl.rd (match k with | .core => Reg.coreRefOk | .fab => Reg.fabRefOk) = 0 ∧ t.ctl.rd (Reg.alertPend 3) = 1
    ∧ (∃ r ∈ t.ctl.err.queue, r.cls = 0x1B) ∧ Keeps s t))
  ∧ (∀ (s : State), Completes .fabRefLost s (fun t =>
    t.ctl.pwr.fabLost = true ∧ t.ctl.rd (Reg.alertPend 11) = 1 ∧ (∀ p q, (t.ctl.sub p q).st ≠ .up ∧ (t.ctl.sub p q).st ≠ .degraded)
    ∧ t.ctl.exts = s.ctl.exts ∧ t.ctl.bays = s.ctl.bays ∧ t.ctl.opens = s.ctl.opens ∧ Keeps s t))
  ∧ (∀ (s : State), Completes .fabRefReturn s (fun t =>
    t.ctl.pwr.fabLost = false ∧ t.ctl.rd Reg.fabRefOk = 1 ∧ (s.ctl.pwr.railsUp = true → t.ctl.rd Reg.oeLock = 0xFFFF)
    ∧ RegsBut [0x01000000] s t ∧ Keeps s t))
  ∧ (∀ (s : State), s.ctl.pwr.coreLost = true → Completes .coreRefRestored s (fun t =>
    t.ctl.pwr.coreLost = false ∧ t.ctl.rd Reg.coreRefOk = 1 ∧ t.ctl.rd Reg.coresUp = 0 ∧ t.ctl.sessions = [] ∧ Keeps s t))
  ∧ (∀ (s : State), 4 ≤ s.ctl.pwr.thermStep → s.ctl.pwr.thermStep < 6 → s.ctl.rd Reg.forceDiv ≤ 6 → Completes .throttleStepDown s (fun t =>
    t.ctl.pwr.thermStep = s.ctl.pwr.thermStep + 1 ∧ t.ctl.rd Reg.aDiv = max (s.ctl.pwr.thermStep + 1) (s.ctl.rd Reg.forceDiv) ∧ Keeps s t))
  ∧ (∀ (s : State), 4 < s.ctl.pwr.thermStep → s.ctl.pwr.thermStep ≤ 6 → s.ctl.rd Reg.forceDiv ≤ 6 → Completes .throttleStepUp s (fun t =>
    t.ctl.pwr.thermStep = s.ctl.pwr.thermStep - 1 ∧ t.ctl.rd Reg.aDiv = max (s.ctl.pwr.thermStep - 1) (s.ctl.rd Reg.forceDiv)
    ∧ t.ctl.rd Reg.capActive = 0 ∧ Keeps s t))
  ∧ (∀ (s : State), s.ctl.rd Reg.aDiv = 6 → LogRoom s → Completes .thermalLimit s (fun t =>
    Logged t (repInfo 0x13 0x1C 0 1) ∧ t.ctl.rd (Reg.alertPend 5) = 1 ∧ t.ctl.rd Reg.aDiv = 6 ∧ Keeps s t))
  ∧ (∀ (w : BitVec 16) (s : State), s.ctl.rd Reg.capW < w.toNat → s.ctl.pwr.railsUp = true → s.ctl.pwr.thermStep = 4 →
      s.ctl.rd Reg.forceDiv ≤ 6 → Completes (.powerCapExceeded w) s (fun t =>
    t.ctl.rd Reg.capActive = 1 ∧ t.ctl.rd Reg.inputW = w.toNat ∧ t.ctl.rd Reg.aDiv = max 5 (s.ctl.rd Reg.forceDiv) ∧ Keeps s t))
  ∧ (∀ (v : Word) (s : State), 4 ≤ s.ctl.pwr.thermStep → s.ctl.pwr.thermStep ≤ 6 → Completes (.forceDivWrite v) s (fun t =>
    let f := field v.toNat 0 3
    t.ctl.rd Reg.forceDiv = (if f = 5 ∨ f = 6 then f else 0)
    ∧ t.ctl.rd Reg.aDiv = max s.ctl.pwr.thermStep (if f = 5 ∨ f = 6 then f else 0) ∧ Keeps s t))

/-- The resets by command and by watchdog (R53, R54, R55, Table 2.9), RESET_N's release and the end of a management reset
(R475): a management reset stops the cores and ends the sessions and leaves the data plane alone.
Choices and readings of the model in it: log entries 101 and 115. -/
def Obligations.Resets : Prop :=
  (∀ (sid : Nat) (s : State), s.ctl.jmpRuns sid 0x12 = true → s.ctl.rd Reg.glbState ≠ 0 → s.ctl.rd Reg.glbState ≠ 3 →
      Completes (.resetData sid) s (fun t =>
    MainGone t ∧ t.ctl.rd Reg.glbState = 1 ∧ t.ctl.rd Reg.glbStep = 5 ∧ t.ctl.rd (Reg.resetCause 2) = 1 ∧ Answered s t sid 0
    ∧ t.ctl.flash = s.ctl.flash ∧ t.ctl.fuses = s.ctl.fuses ∧ t.ctl.fw = s.ctl.fw ∧ t.pending = s.pending))
  ∧ (∀ (sid : Nat) (s : State), s.ctl.jmpRuns sid 0x13 = true → Completes (.resetMgmt sid) s (fun t =>
    Answered s t sid 0 ∧ t.ctl.rd (Reg.resetCause 3) = 1 ∧ t.ctl.rd Reg.coresUp = 0 ∧ t.ctl.sessions = [] ∧ t.ctl.fw = []
    ∧ t.ctl.exts = s.ctl.exts ∧ t.ctl.opens = s.ctl.opens ∧ t.ctl.ques = s.ctl.ques ∧ t.ctl.tier = s.ctl.tier ∧ Keeps s t))
  ∧ (∀ (s : State), Completes .watchdogExpiry s (fun t =>
    t.ctl.rd (Reg.resetCause 4) = 1 ∧ t.ctl.rd Reg.coresUp = 0 ∧ t.ctl.sessions = [] ∧ t.ctl.fw = []
    ∧ t.ctl.exts = s.ctl.exts ∧ t.ctl.opens = s.ctl.opens ∧ t.ctl.ques = s.ctl.ques ∧ t.ctl.tier = s.ctl.tier ∧ Keeps s t))
  ∧ (∀ (img : List Byte) (s : State), s.ctl.pwr.mgmtReset = true → s.ctl.pwr.auxGood = true → s.ctl.pwr.resetLow = false →
      s.ctl.pwr.coreLost = false → s.ctl.rd Reg.coresUp = 0 → s.ctl.flash.image = some img → imageOk s.ctl.fuses img = true →
      Completes .mgmtResetEnd s (fun t =>
    t.ctl.pwr.mgmtReset = false ∧ t.ctl.fw = img ∧ t.ctl.rd Reg.coresUp = 0xF
    ∧ (∀ e, (s.ctl.ep e).winAt.isSome = true → (t.ctl.ep e).winAt = some s.ctl.now) ∧ Keeps s t))
  ∧ (∀ (s : State), Completes .resetNHigh s (fun t =>
    t.ctl.pwr.resetLow = false ∧ Only s t (fun c => { c with pwr := { c.pwr with resetLow := false } })))

/-- The boot ROM and the recovery path (R431, R484, Table 2.5 step 2): an image that passes the five checks runs; without one the
ROM recovers, sends a beacon each second to every server and starts a pushed image that passes.
Choices and readings of the model in it: log entries 13, 101 and 102. -/
def Obligations.BootAndRecovery : Prop :=
  (∀ (img : List Byte) (s : State), s.ctl.pwr.auxGood = true → s.ctl.pwr.resetLow = false → s.ctl.pwr.coreLost = false →
      s.ctl.rd Reg.coresUp = 0 → s.ctl.flash.image = some img → imageOk s.ctl.fuses img = true → Completes .bootVerify s (fun t =>
    t.ctl.fw = img ∧ t.ctl.rd Reg.coresUp = 0xF ∧ t.ctl.rd Reg.secBootOk = 1 ∧ t.ctl.rd Reg.secRecovery = 0
    ∧ t.ctl.rd (Reg.ctlState 0) = 3 ∧ t.ctl.rd (Reg.ctlState 1) = 3 ∧ t.ctl.rd Reg.rootLock = 1 ∧ Keeps s t))
  ∧ (∀ (s : State), s.ctl.pwr.auxGood = true → s.ctl.pwr.resetLow = false → s.ctl.pwr.coreLost = false → s.ctl.rd Reg.coresUp = 0 →
      s.ctl.flash.image = none → Completes .bootVerify s (fun t =>
    t.ctl.staging.recovering = true ∧ t.ctl.rd Reg.coresUp = 0 ∧ t.ctl.rd Reg.secBootOk = 0 ∧ Keeps s t))
  ∧ (∀ (s : State), s.ctl.staging.recovering = true → s.ctl.staging.beaconAt + 100000000 ≤ s.ctl.now → Completes .recoveryBeacon s (fun t =>
    t.ctl.staging.beaconAt = s.ctl.now
    ∧ (∀ p : Fin 2, s.ctl.ctlIsUp p.val = true → ∀ a ∈ netServers (s.ctl.netOf p.val), Sent s t (.beacon p.val a s.ctl.beaconBody))
    ∧ Only s t (fun c => { c with staging := t.ctl.staging, out := t.ctl.out })))
  ∧ (∀ (off : Nat) (data : List Byte) (s : State), s.ctl.staging.recovering = true → s.ctl.rd Reg.coresUp = 0 →
      off + data.length ≤ 2 ^ 25 → Completes (.recoveryImage off data false) s (fun t =>
    t.ctl.staging.recovery = stageBytes s.ctl.staging.recovery off data ∧ Only s t (fun c => { c with staging := t.ctl.staging })))
  ∧ (∀ (off : Nat) (data : List Byte) (s : State), s.ctl.staging.recovering = true → s.ctl.rd Reg.coresUp = 0 →
      off + data.length ≤ 2 ^ 25 →
      let area := stageBytes s.ctl.staging.recovery off data
      imageOk s.ctl.fuses (stagedImage area (stagedLen area)) = true → Completes (.recoveryImage off data true) s (fun t =>
    t.ctl.flash.image = some (stagedImage area (stagedLen area)) ∧ t.ctl.fw = stagedImage area (stagedLen area)
    ∧ t.ctl.rd Reg.coresUp = 0xF ∧ t.ctl.rd Reg.secRecovery = 1 ∧ Keeps s t))

/-- POWER_ON, the steps of an orderly power-down, FUSE_REPAIR and THERM_CLEAR (Table 2.6, R42, R52, R487-R489).
Choices and readings of the model in it: log entries 104 and 111. -/
def Obligations.PowerDown : Prop :=
  (∀ (sid : Nat) (s : State), s.ctl.jmpRuns sid 0x10 = true → s.ctl.rd Reg.glbState = 0 → s.ctl.rd Reg.thermTrip = 0 →
      s.ctl.rd Reg.coresUp ≠ 0 → s.ctl.pwr.resetLow = false → s.ctl.pwr.coreLost = false → Completes (.powerOn sid) s (fun t =>
    t.ctl.pwr.pwrEn = true ∧ t.ctl.rd Reg.glbState = 1 ∧ t.ctl.rd Reg.glbWaitOn = 0 ∧ Answered s t sid 0 ∧ Keeps s t))
  ∧ (∀ (sid test : Nat) (s : State), s.ctl.jmpRuns sid 0x11 = true → test ≤ 1 → s.ctl.rd Reg.glbState = 2 → Completes (.shutdown sid test) s (fun t =>
    t.ctl.rd Reg.glbState = 3 ∧ t.ctl.rd Reg.glbStep = 2 ∧ t.ctl.pwr.shutTest = (test == 1) ∧ Answered s t sid 0
    ∧ t.ctl.exts = s.ctl.exts ∧ t.ctl.opens = s.ctl.opens ∧ Keeps s t))
  ∧ (∀ (s : State), s.ctl.rd Reg.glbState = 3 → s.ctl.rd Reg.glbStep = 2 → s.ctl.opens = [] → s.ctl.fences = [] → s.ctl.owns = [] →
      Completes .shutdownQuiesce s (fun t => t.ctl.rd Reg.glbState = 3 ∧ t.ctl.rd Reg.glbStep = 3 ∧ OnlyRegs [0x28] s t))
  ∧ (∀ (s : State), s.ctl.rd Reg.glbState = 3 → s.ctl.rd Reg.glbStep = 3 → Completes .shutdownWriteback s (fun t =>
    t.ctl.homeDirty = [] ∧ t.ctl.rd Reg.glbStep = 4 ∧ t.ctl.exts = s.ctl.exts ∧ Keeps s t
    ∧ (∀ line ∈ s.ctl.homeDirty, ∀ tr, keyTray (line * 128) = some tr → ∃ o ∈ t.ctl.owns, o.ep = tr ∧ ∃ n, o.why = .write n (line * 128))))
  ∧ (∀ (map : List RepairItem) (s : State), s.ctl.rd Reg.glbState = 3 → s.ctl.rd Reg.glbStep = 4 → s.ctl.pwr.shutTest = true →
      Completes (.shutdownTest map) s (fun t =>
    t.ctl.rd Reg.glbStep = 5 ∧ t.ctl.flash.map = s.ctl.newMap map ∧ t.ctl.flash.hashes.length ≤ 3
    ∧ (s.ctl.newMap map).hash ∈ t.ctl.flash.hashes ∧ t.ctl.fuses = s.ctl.fuses ∧ Keeps s t))
  ∧ (∀ (s : State), s.ctl.rd Reg.glbState = 3 → s.ctl.rd Reg.glbStep = (if s.ctl.pwr.shutTest then 5 else 4) → s.ctl.owns = [] →
      Completes .shutdownMainOff s (fun t =>
    MainGone t ∧ t.ctl.rd Reg.glbState = 0 ∧ t.ctl.rd Reg.glbOffCause = 1 ∧ t.ctl.pwr.pwrEn = false
    ∧ (s.ctl.rd Reg.autoOn = 0 → t.ctl.rd Reg.glbWaitOn = 1) ∧ t.ctl.flash = s.ctl.flash ∧ t.ctl.fuses = s.ctl.fuses))
  ∧ (∀ (sid : Nat) (s : State), s.ctl.jmpRuns sid 0x51 = true → 3 ≤ agreeOf s.ctl.flash.hashes →
      s.ctl.fuses.repairs + s.ctl.flash.map.repairs ≤ 4096 → Completes (.fuseRepair sid) s (fun t =>
    t.ctl.fuses = { s.ctl.fuses with repairs := s.ctl.fuses.repairs + s.ctl.flash.map.repairs } ∧ Answered s t sid 0
    ∧ Only s t (fun c => { c with fuses := t.ctl.fuses, flash := t.ctl.flash, sessions := t.ctl.sessions, out := t.ctl.out })))
  ∧ (∀ (sid : Nat) (s : State), s.ctl.jmpRuns sid 0x14 = true → (∀ i, i < 96 → signed 16 (s.ctl.rd (Reg.snsTemp i)) < 800) →
      Completes (.thermClear sid) s (fun t =>
    t.ctl.rd Reg.thermTrip = 0 ∧ Answered s t sid 0
    ∧ Only s t (fun c => { c with regs := t.ctl.regs, sessions := t.ctl.sessions, out := t.ctl.out })))

/-- Configuration of a port (R62, R72, Table 3.13): fields are stored with their clamps; disabling, or a change of mode or
breakout, takes every sub-port DOWN; UNQUAR takes quarantined ones DOWN. Other ports keep their sub-ports. The same over JMP (R34, Table 3.5): ELM_RELEASE
takes a laser module's 16 ports DOWN, ELM_RESTORE lets them train again, LINK_QUAR quarantines one sub-port.
Choices and readings of the model in it: log entries 34 and 110. -/
def Obligations.LinkConfiguration : Prop :=
  (∀ (p : Fin 128) (v : Word) (s : State), s.ctl.mainUp = true → Completes (.lnkModeChange p v) s (fun t =>
    let b := if field v.toNat 2 2 = 3 then 0 else field v.toNat 2 2
    t.ctl.rd (Reg.cfgEnable p.val) = field v.toNat 0 1 ∧ t.ctl.rd (Reg.cfgMode p.val) = field v.toNat 1 1 ∧ t.ctl.rd (Reg.cfgBreakout p.val) = b
    ∧ (field v.toNat 1 1 ≠ s.ctl.rd (Reg.cfgMode p.val) ∨ b ≠ s.ctl.rd (Reg.cfgBreakout p.val) ∨ field v.toNat 0 1 = 0 →
        ∀ q : Fin 4, (t.ctl.sub p.val q.val).st = .down)
    ∧ OtherPorts s t p.val ∧ t.ctl.exts = s.ctl.exts ∧ t.ctl.opens = s.ctl.opens ∧ Keeps s t))
  ∧ (∀ (p : Fin 128) (s : State), s.ctl.mainUp = true → Completes (.lnkDisable p) s (fun t =>
    t.ctl.rd (Reg.cfgEnable p.val) = 0 ∧ (∀ q : Fin 4, (t.ctl.sub p.val q.val).st = .down)
    ∧ OtherPorts s t p.val ∧ t.ctl.exts = s.ctl.exts ∧ t.ctl.opens = s.ctl.opens ∧ Keeps s t))
  ∧ (∀ (p : Fin 128) (s : State), s.ctl.mainUp = true → Completes (.unquar p) s (fun t =>
    (∀ q : Fin 4, (s.ctl.sub p.val q.val).st = .quarantined → (t.ctl.sub p.val q.val).st = .down)
    ∧ (s.ctl.rd (Reg.cfgEnable p.val) = 1 → s.ctl.rd (Reg.cfgBreakout p.val) ≠ 3 →
        ∀ q : Fin 4, (s.ctl.sub p.val q.val).st ≠ .quarantined → t.ctl.sub p.val q.val = s.ctl.sub p.val q.val)
    ∧ OtherPorts s t p.val ∧ t.ctl.exts = s.ctl.exts ∧ t.ctl.opens = s.ctl.opens ∧ Keeps s t))
  ∧ (∀ (sid e : Nat) (s : State), s.ctl.jmpRuns sid 0x21 = true → e < 8 → Completes (.elmRelease sid e) s (fun t =>
    t.ctl.elm e = { s.ctl.elm e with released := true } ∧ (∀ j, j ≠ e → t.ctl.elm j = s.ctl.elm j)
    ∧ (∀ p q, 16 * e ≤ p → p < 16 * e + 16 → q < 4 → (t.ctl.sub p q).st = .down ∧ (t.ctl.sub p q).replay = [])
    ∧ (∀ p q, (p < 16 * e ∨ 16 * e + 16 ≤ p) → q < 4 → t.ctl.sub p q = s.ctl.sub p q) ∧ Answered s t sid rOK ∧ Keeps s t))
  ∧ (∀ (sid e : Nat) (s : State), s.ctl.jmpRuns sid 0x22 = true → e < 8 → Completes (.elmRestore sid e) s (fun t =>
    t.ctl.elm e = Elm.init ∧ (∀ j, j ≠ e → t.ctl.elm j = s.ctl.elm j) ∧ Answered s t sid rOK ∧ JmpOnly s t (fun c => { c with elms := t.ctl.elms })))
  ∧ (∀ (sid e : Nat) (s : State), 8 ≤ e → (s.ctl.jmpRuns sid 0x21 = true → Completes (.elmRelease sid e) s (fun t => JustAnswered s t sid rBAD_ARG))
      ∧ (s.ctl.jmpRuns sid 0x22 = true → Completes (.elmRestore sid e) s (fun t => JustAnswered s t sid rBAD_ARG)))
  ∧ (∀ (sid p q : Nat) (s : State), s.ctl.jmpRuns sid 0x23 = true → p < 128 → q < 4 → s.ctl.mainUp = true → s.ctl.cfgLanes p q ≠ 0 → Completes (.linkQuar sid p q) s (fun t =>
    (t.ctl.sub p q).st = .quarantined ∧ (t.ctl.sub p q).since = s.ctl.now ∧ (t.ctl.sub p q).lanes = 0 ∧ (t.ctl.sub p q).replay = [] ∧ (t.ctl.sub p q).keyed = false
    ∧ (∀ a b, b < 4 → (a ≠ p ∨ b ≠ q) → t.ctl.sub a b = s.ctl.sub a b) ∧ Answered s t sid rOK ∧ Keeps s t))
  ∧ (∀ (sid p q : Nat) (s : State), s.ctl.jmpRuns sid 0x23 = true → (128 ≤ p ∨ 4 ≤ q) → Completes (.linkQuar sid p q) s (fun t => JustAnswered s t sid rBAD_ARG))

/-- Training (Table 3.5, R63, R72, R73): the steps DOWN, TRAIN, ALIGN and their timeouts.
Choices and readings of the model in it: log entries 34 and 36. -/
def Obligations.LinkTraining : Prop :=
  (∀ (p : Fin 128) (q : Fin 4) (s : State), s.ctl.mainUp = true → s.ctl.trains? p.val q.val = true → TrainRoom s p.val q.val →
      Completes (.linkSignalDetect p q) s (fun t => Entered t p.val q.val .train ∧ OtherPorts s t p.val ∧ Keeps s t))
  ∧ (∀ (p : Fin 128) (q : Fin 4) (lanes : BitVec 4) (s : State), s.ctl.mainUp = true → (s.ctl.sub p.val q.val).st = .train →
      s.ctl.cfgLanes p.val q.val ≠ 0 → s.ctl.cfgLanes p.val q.val &&& ~~~ lanes = 0 → Completes (.trainComplete p q lanes) s (fun t =>
    Entered t p.val q.val .align ∧ (t.ctl.sub p.val q.val).lanes = s.ctl.cfgLanes p.val q.val ∧ (t.ctl.sub p.val q.val).firstAlign = true
    ∧ (t.ctl.sub p.val q.val).aligned = false ∧ OtherPorts s t p.val
    ∧ Only s t (fun c => { c with subs := t.ctl.subs, lanes := t.ctl.lanes })))
  ∧ (∀ (p : Fin 128) (q : Fin 4) (s : State), s.ctl.mainUp = true → (s.ctl.sub p.val q.val).st = .train →
      (s.ctl.sub p.val q.val).since + 5000000 ≤ s.ctl.now → Completes (.trainTimeout p q) s (fun t =>
    Entered t p.val q.val .down ∧ (t.ctl.sub p.val q.val).stalledAt = some s.ctl.now ∧ OtherPorts s t p.val ∧ Keeps s t))
  ∧ (∀ (p : Fin 128) (q : Fin 4) (s : State), s.ctl.mainUp = true → (s.ctl.sub p.val q.val).stalledAt.isSome = true →
      s.ctl.trains? p.val q.val = true → TrainRoom s p.val q.val →
      Completes (.trainRetry p q) s (fun t => Entered t p.val q.val .train ∧ OtherPorts s t p.val ∧ Keeps s t))
  ∧ (∀ (p : Fin 128) (q : Fin 4) (s : State), s.ctl.mainUp = true → (s.ctl.sub p.val q.val).st = .align →
      (s.ctl.sub p.val q.val).since + 1000000 ≤ s.ctl.now → TrainRoom s p.val q.val →
      Completes (.alignTimeout p q) s (fun t => Entered t p.val q.val .train ∧ OtherPorts s t p.val ∧ Keeps s t))
  ∧ (∀ (p : Fin 128) (q : Fin 4) (s : State), s.ctl.mainUp = true → (s.ctl.sub p.val q.val).st = .align →
      (s.ctl.sub p.val q.val).aligned = false → (s.ctl.sub p.val q.val).firstAlign = true → Completes (.subportAligned p q) s (fun t =>
    t.ctl.sub p.val q.val = { s.ctl.sub p.val q.val with aligned := true }
    ∧ Sent s t (.linkCtl p.val q.val 1 0 (s.ctl.ownInit p.val q.val)) ∧ OtherPorts s t p.val
    ∧ Only s t (fun c => { c with subs := t.ctl.subs, out := t.ctl.out })))

/-- The LINK_INIT exchange and the link's keys (R73, R91, R92, R116): an acceptable LINK_INIT is answered LINK_ACCEPT and sets the
far end's credits; keys derive from the accepted ciphertext; REKEY offers a new one.
Choices and readings of the model in it: log entries 13, 35 and 37. -/
def Obligations.LinkInitAndKeys : Prop :=
  (∀ (p : Fin 128) (q : Fin 4) (b : List Byte) (s : State), s.ctl.mainUp = true →
      ((s.ctl.sub p.val q.val).carries = true ∨ ((s.ctl.sub p.val q.val).st = .align ∧ (s.ctl.sub p.val q.val).aligned = true)) →
      s.ctl.initReject p.val b = 0 → Completes (.linkInit p q b) s (fun t =>
    (t.ctl.sub p.val q.val).accepted = true ∧ (∃ r, Sent s t (.linkCtl p.val q.val 2 0 r))
    ∧ (∀ k, k < 8 → natAt (t.ctl.sub p.val q.val).credits k = leAt b (8 + 2 * k) 2)
    ∧ (t.ctl.sub p.val q.val).share = leAt b 4 4 ∧ t.pending = s.pending))
  ∧ (∀ (p : Fin 128) (q : Fin 4) (ct : List Byte) (n : Nat) (s : State), s.ctl.mainUp = true → (s.ctl.sub p.val q.val).kem = some n →
      ct.length = 1088 → ((s.ctl.sub p.val q.val).carries = true ∨ (s.ctl.sub p.val q.val).st = .align) → Completes (.keyAccept p q ct) s (fun t =>
    let h := sha384 (leBytes 32 (Config.kemDecap n ct).toNat ++ leBytes 6 (s.ctl.ownMac p.val q.val)
      ++ leBytes 6 (s.ctl.sub p.val q.val).peerMac.toNat ++ Config.linkNumber p.val q.val)
    (t.ctl.sub p.val q.val).keyed = true ∧ (t.ctl.sub p.val q.val).kem = none ∧ (t.ctl.sub p.val q.val).key = h.setWidth 256
    ∧ (t.ctl.sub p.val q.val).salt = h.extractLsb' 256 32 ∧ (t.ctl.sub p.val q.val).txNonce = 0 ∧ (t.ctl.sub p.val q.val).rxCount = 0
    ∧ OtherPorts s t p.val ∧ Keeps s t))
  ∧ (∀ (p : Fin 128) (q : Fin 4) (s : State), s.ctl.mainUp = true → (s.ctl.sub p.val q.val).carries = true → (s.ctl.sub p.val q.val).enc = true →
      Completes (.rekey p q) s (fun t =>
    Sent s t (.linkCtl p.val q.val 8 0 []) ∧ Sent s t (.linkCtl p.val q.val 6 0x100 (Config.kemKey s.ctl.freeCtr))
    ∧ (t.ctl.sub p.val q.val).kem = some s.ctl.freeCtr ∧ OtherPorts s t p.val
    ∧ Only s t (fun c => { c with subs := t.ctl.subs, out := t.ctl.out, freeCtr := t.ctl.freeCtr })))

/-- Lanes and width (R63-R67): a failed lane is dark until it is re-added, a width change gives the sub-port its new lanes, a
re-calibration is deferred where the width may not change.
Choices and readings of the model in it: log entries 34, 35 and 99. -/
def Obligations.LanesAndWidth : Prop :=
  (∀ (p : Fin 128) (m : Fin 4) (s : State), s.ctl.mainUp = true → bitOf (s.ctl.lane p.val).failed.toNat m.val = false →
      Completes (.laneFail p m) s (fun t =>
    (t.ctl.lane p.val).failed = (s.ctl.lane p.val).failed ||| BitVec.ofNat 4 (2 ^ m.val)
    ∧ (∀ r : Fin 128, r ≠ p → t.ctl.lane r.val = s.ctl.lane r.val) ∧ OtherPorts s t p.val ∧ Keeps s t))
  ∧ (∀ (p : Fin 128) (q : Fin 4) (lanes : BitVec 4) (s : State), s.ctl.mainUp = true → (s.ctl.sub p.val q.val).st = .align →
      (s.ctl.sub p.val q.val).aligned = true → (s.ctl.sub p.val q.val).firstAlign = false → lanes &&& s.ctl.usable p.val q.val ≠ 0 →
      Completes (.widthChange p q lanes) s (fun t =>
    (t.ctl.sub p.val q.val).accepted = true ∧ (t.ctl.sub p.val q.val).lanes = lanes &&& s.ctl.usable p.val q.val
    ∧ ((s.ctl.sub p.val q.val).enc = false → (t.ctl.sub p.val q.val).carries = true) ∧ OtherPorts s t p.val ∧ Keeps s t))
  ∧ (∀ (p : Fin 128) (m : Fin 4) (s : State), s.ctl.mainUp = true → bitOf (s.ctl.lane p.val).failed.toNat m.val = true →
      Completes (.laneReadd p m) s (fun t =>
    (t.ctl.lane p.val).failed = (s.ctl.lane p.val).failed &&& ~~~ BitVec.ofNat 4 (2 ^ m.val)
    ∧ (t.ctl.lane p.val).recal = (s.ctl.lane p.val).recal &&& ~~~ BitVec.ofNat 4 (2 ^ m.val)
    ∧ Only s t (fun c => { c with subs := t.ctl.subs, lanes := t.ctl.lanes }) ∧ OtherPorts s t p.val))
  ∧ (∀ (p : Fin 128) (m q : Fin 4) (s : State), s.ctl.mainUp = true → s.ctl.subOfLane p.val m.val = some q.val →
      (s.ctl.sub p.val q.val).carries = true → (s.ctl.sub p.val q.val).lanes &&& BitVec.ofNat 4 (2 ^ m.val) ≠ 0 →
      Completes (.laneRecalibration p m) s (fun t =>
    (s.ctl.rd (Reg.cfgDegrade p.val) = 0 ∨ popCount 4 (s.ctl.sub p.val q.val).lanes.toNat = 1 →
      (t.ctl.lane p.val).deferred = (s.ctl.lane p.val).deferred ||| BitVec.ofNat 4 (2 ^ m.val) ∧ t.ctl.subs = s.ctl.subs)
    ∧ (s.ctl.rd (Reg.cfgDegrade p.val) ≠ 0 → popCount 4 (s.ctl.sub p.val q.val).lanes.toNat ≠ 1 →
      (t.ctl.lane p.val).recal = (s.ctl.lane p.val).recal ||| BitVec.ofNat 4 (2 ^ m.val) ∧ Entered t p.val q.val .align)
    ∧ OtherPorts s t p.val ∧ Keeps s t))

/-- Replay and credits (R79-R84): a NAK or a timeout sends the replay buffer again in order, a trailer adds credits and releases
what its LACK covers, a return that has waited goes out alone.
Choices and readings of the model in it: log entries 23 and 35. -/
def Obligations.ReplayAndCredits : Prop :=
  (∀ (p : Fin 128) (q : Fin 4) (lseq : BitVec 16) (s : State), s.ctl.mainUp = true → (s.ctl.sub p.val q.val).carries = true →
      (s.ctl.sub p.val q.val).replays < 8 → (∃ e ∈ (s.ctl.sub p.val q.val).replay, lseqBefore e.lseq lseq = false) →
      Completes (.nak p q lseq) s (fun t =>
    (∀ e ∈ (s.ctl.sub p.val q.val).replay, lseqBefore e.lseq lseq = false → ∃ tr, tr.lseq = e.lseq ∧ Sent s t (.frame p.val q.val tr e.frame))
    ∧ t.ctl.sub p.val q.val = { s.ctl.sub p.val q.val with replays := (s.ctl.sub p.val q.val).replays + 1, progressAt := s.ctl.now }
    ∧ Only s t (fun c => { c with subs := t.ctl.subs, out := t.ctl.out, regs := t.ctl.regs }) ∧ OtherPorts s t p.val))
  ∧ (∀ (p : Fin 128) (q : Fin 4) (e : ReplayEnt) (l : List ReplayEnt) (s : State), s.ctl.mainUp = true →
      (s.ctl.sub p.val q.val).carries = true → (s.ctl.sub p.val q.val).replays < 8 → (s.ctl.sub p.val q.val).replay = e :: l →
      (s.ctl.sub p.val q.val).progressAt + 200 ≤ s.ctl.now → Completes (.replayTimeout p q) s (fun t =>
    (∃ tr, tr.lseq = e.lseq ∧ Sent s t (.frame p.val q.val tr e.frame))
    ∧ t.ctl.sub p.val q.val = { s.ctl.sub p.val q.val with replays := (s.ctl.sub p.val q.val).replays + 1, progressAt := s.ctl.now }
    ∧ Only s t (fun c => { c with subs := t.ctl.subs, out := t.ctl.out, regs := t.ctl.regs }) ∧ OtherPorts s t p.val))
  ∧ (∀ (p : Fin 128) (q : Fin 4) (x : Nat) (s : State), s.ctl.mainUp = true → (s.ctl.sub p.val q.val).st = .align →
      (s.ctl.sub p.val q.val).stalledAt = some x → x + 100000 ≤ s.ctl.now → TrainRoom s p.val q.val →
      Completes (.replayStallTimeout p q) s (fun t => Entered t p.val q.val .train ∧ OtherPorts s t p.val ∧ Keeps s t))
  ∧ (∀ (p : Fin 128) (q : Fin 4) (tr : Trailer) (s : State), s.ctl.mainUp = true → (s.ctl.sub p.val q.val).carries = true →
      Completes (.credit p q tr) s (fun t =>
    (∀ k, k < 8 → natAt (t.ctl.sub p.val q.val).credits k = natAt (s.ctl.sub p.val q.val).credits k
      + (if k = tr.cr0tc.toNat then tr.cr0cnt.toNat else 0) + (if k = tr.cr1tc.toNat then tr.cr1cnt.toNat else 0))
    ∧ (t.ctl.sub p.val q.val).replay = (s.ctl.sub p.val q.val).replay.filter (fun (e : ReplayEnt) => !lseqBefore e.lseq tr.lack)
    ∧ Only s t (fun c => { c with subs := t.ctl.subs }) ∧ OtherPorts s t p.val))
  ∧ (∀ (p : Fin 128) (q : Fin 4) (x : Nat) (s : State), s.ctl.mainUp = true → (s.ctl.sub p.val q.val).carries = true →
      (s.ctl.sub p.val q.val).waitSince = some x → x + 10 ≤ s.ctl.now → Completes (.creditReturnWait p q) s (fun t =>
    (∃ tr, tr.lack = (s.ctl.sub p.val q.val).rxLseq ∧ Sent s t (.credit p.val q.val tr))
    ∧ (t.ctl.sub p.val q.val).lackSent = (s.ctl.sub p.val q.val).rxLseq
    ∧ Only s t (fun c => { c with subs := t.ctl.subs, out := t.ctl.out }) ∧ OtherPorts s t p.val))

/-- The end-to-end transport (R85-R89, R155, R170): acknowledgements release frames, an unacknowledged frame goes out again with RETX
and is given up at the limit as SEQFILL, which the receiver takes in its place.
Choices and readings of the model in it: log entry 40. -/
def Obligations.Transport : Prop :=
  (∀ (f : Frame) (s : State), s.ctl.mainUp = true → f.kind = kTack → s.ctl.liveInc f.src.toNat f.inc = true → f.dst = 0xFFF →
      (s.ctl.pair f.src.toNat).waiting = [] → (∀ x ∈ (s.ctl.pair f.src.toNat).unack, x.grant = none) → Completes (.tack f) s (fun t =>
    (∀ x ∈ (t.ctl.pair f.src.toNat).unack, seqBefore x.seq f.ackseq = false)
    ∧ (∀ x ∈ (s.ctl.pair f.src.toNat).unack, seqBefore x.seq f.ackseq = false → ∃ y ∈ (t.ctl.pair f.src.toNat).unack, y.seq = x.seq ∧ y.frame = x.frame)
    ∧ (∀ e, e ≠ f.src.toNat → t.ctl.pair e = s.ctl.pair e) ∧ Keeps s t))
  ∧ (∀ (e : Fin 4096) (x : Nat) (s : State), (s.ctl.pair e.val).ackSince = some x → x + 50 ≤ s.ctl.now → Completes (.tackSend e) s (fun t =>
    t.ctl = (s.ctl.putPair e.val { s.ctl.pair e.val with ackSince := none }).sendFrame
      { baseFrame with kind := kTack, tc := 0, dst := BitVec.ofNat 12 e.val, flags := flACKV, ackseq := (s.ctl.pair e.val).rxAck,
                       addr := BitVec.ofNat 64 (s.ctl.pair e.val).bitmap }
    ∧ (t.ctl.pair e.val).ackSince = none ∧ Keeps s t))
  ∧ (∀ (e : Fin 4096) (n : BitVec 24) (x : TxFrame) (s : State), s.ctl.tx? e.val n = some x → x.filled = false →
      x.sentAt + s.ctl.rd Reg.rtxTimeout ≤ s.ctl.now → x.tries < s.ctl.rd Reg.rtxLimit → Completes (.rtxTimeout e n) s (fun t =>
    t.ctl.tx? e.val n = some { x with sentAt := s.ctl.now, tries := x.tries + 1 } ∧ t.ctl.opens = s.ctl.opens ∧ t.ctl.owns = s.ctl.owns
    ∧ t.ctl.exts = s.ctl.exts ∧ Keeps s t))
  ∧ (∀ (e : Fin 4096) (n : BitVec 24) (x : TxFrame) (s : State), s.ctl.tx? e.val n = some x → x.filled = false →
      x.sentAt + s.ctl.rd Reg.rtxTimeout ≤ s.ctl.now → s.ctl.rd Reg.rtxLimit ≤ x.tries → x.frame.isRequest = false → Completes (.rtxTimeout e n) s (fun t =>
    t.ctl.tx? e.val n = some { x with frame := fillFrame x.frame, filled := true, sentAt := s.ctl.now } ∧ Keeps s t))
  ∧ (∀ (e : Fin 4096) (n : BitVec 24) (x : TxFrame) (s : State), s.ctl.tx? e.val n = some x → x.filled = true →
      x.sentAt + s.ctl.rd Reg.rtxTimeout ≤ s.ctl.now → Completes (.seqfillRetransmit e n) s (fun t =>
    t.ctl = (s.ctl.putTx e.val { x with sentAt := s.ctl.now }).sendFrame x.frame ∧ Keeps s t))
  ∧ (∀ (f : Frame) (s : State), s.ctl.mainUp = true → f.kind = kSeqfill → s.ctl.liveInc f.src.toNat f.inc = true → Completes (.seqfill f) s (fun t =>
    t.ctl.tracker = s.ctl.tracker.filter (fun (x : TrackEnt) => !(x.src == f.src.toNat && x.dst == f.dst.toNat && x.seq == f.seq))
    ∧ (f.dst = 0xFFF → Only s t (fun c => { c with tracker := t.ctl.tracker })) ∧ Keeps s t))

/-- Reception and the ingress buffer (R75-R77, R82, R103, R104): a frame of the expected LSEQ that passes its checks goes to its queue,
one with a bad FCS changes no queue; a held frame goes on when cells are free and is dropped at HOLD_TIMEOUT.
Choices and readings of the model in it: log entries 39 and 48. -/
def Obligations.Ingress : Prop :=
  (∀ (p : Fin 128) (q : Fin 4) (x : RxFrame) (s : State),
      let sub := s.ctl.sub p.val q.val
      let n := innerQueue (innerPort x.frame) x.frame.tc.toNat
      s.ctl.mainUp = true → sub.carries = true → x.fcsOk = true → x.etype.toNat = s.ctl.rd (Reg.cfgEtype p.val) → x.frame.kind ≠ kLinkCtl →
      x.encrypted = sub.enc → x.tagOk = true → x.trailer.lseq = sub.rxLseq → headerOk x = true → sub.eps.contains x.frame.src.toNat = true →
      s.ctl.liveInc x.frame.src.toNat x.frame.inc = true → x.frame.dst = 0xFFF →
      (x.frame.sequenced = true → (s.ctl.pair x.frame.src.toNat).fit x.frame.seq = .fresh) → 3 ≤ x.frame.tc.toNat →
      s.ctl.wouldAdmit n x.frame = true → Completes (.frameReceive p q x) s (fun t =>
    (t.ctl.sub p.val q.val).rxLseq = sub.rxLseq + 1
    ∧ (t.ctl.fq n).s0 = (s.ctl.fq n).s0 ++ [{ frame := x.frame, cells := cellsOf x.frame, stamp := s.ctl.now, via := some (4 * p.val + q.val) }]
    ∧ (∀ m, m ≠ n → t.ctl.fq m = s.ctl.fq m) ∧ SameRights s t ∧ t.ctl.opens = s.ctl.opens ∧ Keeps s t))
  ∧ (∀ (p : Fin 128) (q : Fin 4) (x : RxFrame) (s : State), s.ctl.mainUp = true → (s.ctl.sub p.val q.val).carries = true → x.fcsOk = false →
      Completes (.frameReceive p q x) s (fun t =>
    (t.ctl.sub p.val q.val).rxLseq = (s.ctl.sub p.val q.val).rxLseq
    ∧ t.ctl.reg (Reg.lnkCtr p.val q.val 0x10) = BitVec.ofNat 64 (min ((s.ctl.reg (Reg.lnkCtr p.val q.val 0x10)).toNat + 1) (2 ^ 64 - 1))
    ∧ Only s t (fun c => { c with subs := t.ctl.subs, regs := t.ctl.regs, out := t.ctl.out })))
  ∧ (∀ (p : Fin 128) (q : Fin 4) (k : Fin 3) (h : HeldFrame) (s : State),
      let n := innerQueue (innerPort h.frame) h.frame.tc.toNat
      s.ctl.mainUp = true → (s.ctl.sub p.val q.val).firstHeld k.val = some h → h.frame.dst = 0xFFF → s.ctl.wouldAdmit n h.frame = true →
      Completes (.heldFrameRetry (.ingress p q k)) s (fun t =>
    (t.ctl.sub p.val q.val).held = dropFirst (fun (y : HeldFrame) => y.cls == h.cls) (s.ctl.sub p.val q.val).held
    ∧ (t.ctl.fq n).s0 = (s.ctl.fq n).s0 ++ [{ frame := h.frame, cells := cellsOf h.frame, stamp := s.ctl.now, via := some (4 * p.val + q.val) }]
    ∧ (∀ m, m ≠ n → t.ctl.fq m = s.ctl.fq m) ∧ SameRights s t ∧ t.ctl.opens = s.ctl.opens ∧ Keeps s t))
  ∧ (∀ (i a b k : Nat) (f : Frame) (s : State), s.ctl.mainUp = true → s.ctl.intHeld[i]? = some (a, b, f) → f.kind ≠ kFenced →
      s.ctl.pathFor f.src.toNat f.dst.toNat f.tc.toNat = some k → s.ctl.wouldAdmit (portQueue (k / 4) f.tc.toNat) f = true →
      Completes (.heldFrameRetry (.inner i)) s (fun t =>
    t.ctl.intHeld = s.ctl.intHeld.take i ++ s.ctl.intHeld.drop (i + 1)
    ∧ (∃ e ∈ (t.ctl.fq (portQueue (k / 4) f.tc.toNat)).list (k % 4), e.frame = f)
    ∧ Only s t (fun c => { c with intHeld := t.ctl.intHeld, flask := t.ctl.flask, scheds := t.ctl.scheds, regs := t.ctl.regs })))
  ∧ (∀ (p : Fin 128) (q : Fin 4) (k : Fin 3) (h : HeldFrame) (s : State), s.ctl.mainUp = true →
      (s.ctl.sub p.val q.val).firstHeld k.val = some h → h.since + s.ctl.rd Reg.holdTimeout ≤ s.ctl.now → Completes (.holdTimeout p q k) s (fun t =>
    (t.ctl.sub p.val q.val).held = dropFirst (fun (y : HeldFrame) => y.cls == h.cls) (s.ctl.sub p.val q.val).held
    ∧ t.ctl.reg (Reg.queueBase h.queue + 0x30) = BitVec.ofNat 64 (min ((s.ctl.reg (Reg.queueBase h.queue + 0x30)).toNat + 1) (2 ^ 64 - 1))
    ∧ RegsBut [Reg.queueBase h.queue + 0x30] s t ∧ OtherPorts s t p.val ∧ Only s t (fun c => { c with subs := t.ctl.subs, regs := t.ctl.regs })))

/-- Egress and Flask's registers (R82, R101, R107-R110, R113): a scheduler sends the head of the class it picks under the next LSEQ
and keeps it for replay; the sweep returns lost cells; configuration and clears act on their queue alone.
Choices and readings of the model in it: log entry 24. -/
def Obligations.EgressAndFlask : Prop :=
  (∀ (p : Fin 128) (q : Fin 4) (k : Nat) (h : QFrame) (s : State),
      let n := 4 * p.val + q.val
      let sub := s.ctl.sub p.val q.val
      s.ctl.mainUp = true → (∀ b, (s.ctl.bay b).st ≠ .shakeout) → (∃ i, i < 8 ∧ s.ctl.headReady n i = true) →
      (s.ctl.pickClass n 1000).2 = some k → s.ctl.schedHead n k = some h → Completes (.egressSend (.port p q) .clean) s (fun t =>
    (∃ tr, tr.lseq = sub.txLseq ∧ tr.lack = sub.rxLseq ∧ Sent s t (.frame p.val q.val tr { h.frame with enc := sub.enc }))
    ∧ (t.ctl.sub p.val q.val).txLseq = sub.txLseq + 1
    ∧ (∃ m, (t.ctl.sub p.val q.val).replay = sub.replay ++ [{ lseq := sub.txLseq, frame := { h.frame with enc := sub.enc }, bytes := m }])
    ∧ OtherPorts s t p.val ∧ SameRights s t ∧ t.ctl.opens = s.ctl.opens ∧ Keeps s t))
  ∧ (∀ (s : State), s.ctl.mainUp = true → s.ctl.freeF + s.ctl.flaskLost < 2 ^ 20 → Completes .flaskSweep s (fun t =>
    t.ctl.freeF = s.ctl.freeF + s.ctl.flaskLost ∧ t.ctl.flaskLost = 0 ∧ RegsBut [0x04000000] s t
    ∧ Only s t (fun c => { c with regs := t.ctl.regs, flaskLost := 0 })))
  ∧ (∀ (q : Fin 1152) (v : Word) (s : State), s.ctl.mainUp = true → Completes (.flkQcfgWrite q v) s (fun t =>
    let k := field v.toNat 0 4
    t.ctl.rd (Reg.alphaK q.val) = (if k = 8 then 9 else if 4 ≤ k ∧ k < 8 then 3 else k)
    ∧ t.ctl.rd (Reg.quantum q.val) = min 262144 (max 64 (field v.toNat 8 19)) ∧ OnlyRegs [Reg.queueBase q.val] s t))
  ∧ (∀ (q : Fin 1152) (s : State), s.ctl.mainUp = true → Completes (.clear q) s (fun t =>
    (∀ o ∈ sampleOffsets, t.ctl.reg (Reg.queueBase q.val + o) = regReset (Reg.queueBase q.val + o))
    ∧ OnlyRegs (sampleOffsets.map (Reg.queueBase q.val + ·)) s t))
  ∧ (∀ (s : State), s.ctl.mainUp = true → Completes .clrMin s (fun t =>
    t.ctl.rd Reg.minFree = s.ctl.freeF ∧ t.ctl.freeF = s.ctl.freeF ∧ OnlyRegs [0x04000000] s t))

/-- Reads, writes and atomics of a bay's flat memory (R129, R148, R150, R152, R162, R163, Table 6.6): a read answers the bytes and leaves
memory alone, a write stores its payload at the page's place and nowhere else, an atomic stores its result and answers the old value.
Choices and readings of the model in it: log entries 28, 29 and 126. -/
def Obligations.MemoryRequests : Prop :=
  (∀ (f : Frame) (i k cls : Nat) (old : Bool) (s : State), Arrives s f → f.kind = kRead →
      s.ctl.check59 f (rlenOf f) (some rightR) = .pass (.flat i) cls old → Lands s f i k → rlenOf f ≤ 4096 → Completes (.read f .clean) s (fun t =>
    Replied s t f stOK (s.mem.read k (rlenOf f)) ∧ t.ctl.opens = [] ∧ SameRights s t ∧ t.ctl.tier = s.ctl.tier ∧ Keeps s t))
  ∧ (∀ (f : Frame) (i k cls : Nat) (old : Bool) (s : State), Arrives s f → f.kind = kWrite →
      s.ctl.check59 f f.payload.length (some rightW) = .pass (.flat i) cls old → Lands s f i k → Completes (.write f .clean) s (fun t =>
    Replied s t f stOK [] ∧ t.mem = s.mem.write k f.payload ∧ t.ctl.opens = [] ∧ SameRights s t ∧ t.ctl.tier = s.ctl.tier ∧ t.pending = s.pending))
  ∧ (∀ (f : Frame) (i k cls : Nat) (old : Bool) (s : State), Arrives s f → f.kind = kWrite → f.has flRELEASE = true →
      s.ctl.check59 f f.payload.length (some rightW) = .pass (.flat i) cls old → Lands s f i k → Completes (.flaggedWrite f .clean) s (fun t =>
    Replied s t f stOK [] ∧ t.mem = s.mem.write k f.payload ∧ t.ctl.opens = [] ∧ SameRights s t ∧ t.ctl.tier = s.ctl.tier ∧ t.pending = s.pending))
  ∧ (∀ (f : Frame) (i k cls : Nat) (old : Bool) (s : State), Arrives s f → f.kind = kWriteInv →
      s.ctl.check59 f f.payload.length (some rightW) = .pass (.flat i) cls old → Lands s f i k → Completes (.writeInv f) s (fun t =>
    Replied s t f stOK [] ∧ t.mem = s.mem.write k f.payload ∧ t.ctl.opens = [] ∧ SameRights s t ∧ t.ctl.tier = s.ctl.tier ∧ t.pending = s.pending))
  ∧ (∀ (f : Frame) (i k cls : Nat) (old : Bool) (s : State),
      let op := atomicOf f.payload
      let m := s.mem.read k (atomicSize op.ty)
      let r := atomicApply op.op op.ty (8 * atomicSize op.ty) (leNat m) op.opnd1 op.opnd2
      Arrives s f → f.kind = kAtomic → leAt f.payload 0 1 ≠ 0x0F →
      s.ctl.check59 f (atomicSize op.ty) (some rightA) = .pass (.flat i) cls old → Lands s f i k → Completes (.atomic f .clean) s (fun t =>
    Replied s t f stOK (leBytes 16 (leNat m) ++ [if r.2 then 1 else 0] ++ zeros 7)
    ∧ t.mem = (if r.2 then s.mem.write k (leBytes (atomicSize op.ty) r.1) else s.mem)
    ∧ t.ctl.opens = [] ∧ SameRights s t ∧ t.ctl.tier = s.ctl.tier ∧ t.pending = s.pending))
  ∧ (∀ (f : Frame) (m : CMap) (k : Nat) (old : Bool) (p : PegEntry) (s : State),
      let o1 := (atomicOf f.payload).opnd1
      Serves s f → s.ctl.opens = [] → (∀ x ∈ s.ctl.tracker, x.src ≠ f.src.toNat) → f.kind = kAtomic → leAt f.payload 0 1 = 0x0F →
      s.ctl.checkMember f.bay.toNat f.gen f.src.toNat = .ok (m, k, old) → s.ctl.liveInc f.src.toNat (BitVec.ofNat 8 (field o1 0 8)) = true →
      s.ctl.pegFind f.src.toNat (BitVec.ofNat 8 (field o1 0 8)) (BitVec.ofNat 16 (field o1 8 16)) = some p → p.done = true → p.status = stOK →
      Completes (.query f) s (fun t =>
    Replied s t f stOK (leBytes 16 p.old.toNat ++ [p.aflags] ++ zeros 7) ∧ t.ctl.peg = s.ctl.peg ∧ SameRights s t ∧ Keeps s t))

/-- Releases, fences, counters and publication (R155-R160, R215-R218): a release waits for its source's earlier writes and then acts, or
ends PATH_LOST at FENCE_TIMEOUT; a counter adds and saturates; PUBLISH of the next version takes effect.
Choices and readings of the model in it: log entry 44. -/
def Obligations.ReleasesAndFences : Prop :=
  (∀ (o : OpenReq) (mark i k cls : Nat) (old : Bool) (s : State), Serves s o.frame → s.ctl.opens = [o] → o.phase = .heldRelease mark →
      s.ctl.releaseWaits o mark = false → o.frame.kind = kWrite →
      s.ctl.check59 o.frame o.frame.payload.length (some rightW) = .pass (.flat i) cls old → Lands s o.frame i k →
      Completes (.releaseProceed o.id) s (fun t =>
    Replied s t o.frame stOK [] ∧ t.mem = s.mem.write k o.frame.payload ∧ t.ctl.opens = [] ∧ SameRights s t ∧ t.pending = s.pending))
  ∧ (∀ (o : OpenReq) (mark : Nat) (s : State), Serves s o.frame → s.ctl.open? o.id = some o → o.phase = .heldRelease mark →
      s.ctl.releaseWaits o mark = true → s.ctl.rd Reg.fenceTimeout ≤ s.ctl.now - o.since → o.frame.kind = kWrite →
      Completes (.releaseTimeout o.id) s (fun t =>
    Replied s t o.frame stPATHLOST [] ∧ t.ctl.open? o.id = none ∧ Keeps s t))
  ∧ (∀ (f : Frame) (m : CMap) (k : Nat) (old : Bool) (s : State), Arrives s f → f.kind = kFence →
      s.ctl.checkMember f.bay.toNat f.gen f.src.toNat = .ok (m, k, old) → Completes (.fence f) s (fun t =>
    (∃ w, t.ctl.fences = s.ctl.fences ++ [w] ∧ w.frame = f ∧ w.since = s.ctl.now) ∧ t.ctl.opens = [] ∧ SameRights s t ∧ Keeps s t))
  ∧ (∀ (id : Nat) (w : FenceWait) (s : State), s.ctl.fence? id = some w → s.ctl.fenceWaits w = [] → w.frame.kind = kFence → w.frame.dst = 0xFFF →
      s.ctl.liveInc w.frame.src.toNat w.frame.inc = true → Completes (.fenceComplete id) s (fun t =>
    Replied s t w.frame stOK [] ∧ t.ctl.fence? id = none ∧ t.ctl.opens = s.ctl.opens ∧ SameRights s t ∧ Keeps s t))
  ∧ (∀ (id : Nat) (w : FenceWait) (s : State), s.ctl.fence? id = some w → s.ctl.fenceWaits w ≠ [] → w.frame.kind = kFence → w.frame.dst = 0xFFF →
      s.ctl.liveInc w.frame.src.toNat w.frame.inc = true → s.ctl.rd Reg.fenceTimeout ≤ s.ctl.now - w.since → Completes (.fenceTimeout id) s (fun t =>
    Replied s t w.frame stPATHLOST [] ∧ t.ctl.fence? id = none ∧ Keeps s t))
  ∧ (∀ (f : Frame) (m : CMap) (k : Nat) (old : Bool) (s : State),
      let i := field f.addr.toNat 0 20
      let n := s.ctl.rd (Reg.winFirst f.bay.toNat) + i
      let v := (s.ctl.counter n).toNat
      let v' := if leAt f.payload 0 1 = 1 then min (v + leAt f.payload 8 8) (2 ^ 64 - 1) else v
      Arrives s f → f.kind = kCtr → s.ctl.checkMember f.bay.toNat f.gen f.src.toNat = .ok (m, k, old) → i < s.ctl.rd (Reg.winCount f.bay.toNat) →
      Completes (.ctr f) s (fun t =>
    (t.ctl.counter n).toNat = v' ∧ (∀ j, j ≠ n → t.ctl.counter j = s.ctl.counter j) ∧ Replied s t f stOK (leBytes 8 v') ∧ SameRights s t ∧ Keeps s t))
  ∧ (∀ (f : Frame) (m : CMap) (cls key : Nat) (old : Bool) (s : State),
      let r := pubRegion f
      let img0 := (s.ctl.regionImg r 0).toNat
      let a := (s.ctl.regionImg r (s.ctl.rd (Reg.regionVersion r))).toNat + (f.addr.toNat - img0)
      Arrives s f → f.kind = kReadPub → rlenOf f ≤ 4096 → s.ctl.checkMember f.bay.toNat f.gen f.src.toNat = .ok (m, cls, old) →
      s.ctl.regionOk f.bay.toNat cls r rightR = true → img0 ≤ f.addr.toNat → f.addr.toNat + rlenOf f ≤ img0 + s.ctl.regionBytes r →
      (∃ p, s.ctl.pubSegs f.bay.toNat a (rlenOf f) = [{ key := some key, len := rlenOf f, lost := false, copies := [], parity := none, page := p }]) →
      keyTray key = none → s.mem.poison = [] → s.ctl.locks = [] → Completes (.readPub f) s (fun t =>
    Replied s t f stOK (s.mem.read key (rlenOf f)) ∧ t.ctl.opens = [] ∧ SameRights s t ∧ Keeps s t))
  ∧ (∀ (f : Frame) (m : CMap) (cls : Nat) (old : Bool) (s : State),
      let r := leAt f.payload 0 2
      let w := leAt f.payload 4 4
      Arrives s f → f.kind = kPublish → s.ctl.checkMember f.bay.toNat f.gen f.src.toNat = .ok (m, cls, old) →
      s.ctl.regionOk f.bay.toNat cls r rightP = true → w = (s.ctl.rd (Reg.regionVersion r) + 1) % 2 ^ 32 → Completes (.publish f) s (fun t =>
    t.ctl.rd (Reg.regionVersion r) = w ∧ t.ctl.rd (Reg.regionLastEp r) = f.src.toNat ∧ Replied s t f stOK [] ∧ SameRights s t ∧ Keeps s t))

/-- Answers from endpoints, and writes to the windows of node 0xFFF (R85, R124, R131, R165, R234, R244, R351, R414): each ends what it
answers; each write reaches its own queue, region or mailbox.
Choices and readings of the model in it: log entry 128. -/
def Obligations.AnswersAndWindows : Prop :=
  (∀ (f : Frame) (o : OpenReq) (s : State), s.ctl.mainUp = true → f.isResponse = true → s.ctl.liveInc f.src.toNat f.inc = true → f.dst ≠ 0xFFF →
      s.ctl.passOf f = some o → s.ctl.isTray f.src.toNat = false → o.lastAnswer f = true → Completes (.response f) s (fun t =>
    t.ctl.open? o.id = none ∧ (∀ x ∈ t.ctl.tracker, ¬ (x.src = o.frame.src.toNat ∧ x.dst = o.frame.dst.toNat ∧ x.seq = o.frame.seq))
    ∧ SameRights s t ∧ Keeps s t))
  ∧ (∀ (f : Frame) (x : OwnReq) (req key : Nat) (o : OpenReq) (s : State), s.ctl.mainUp = true → f.isResponse = true → f.dst = 0xFFF →
      s.ctl.liveInc f.src.toNat f.inc = true → s.ctl.ownOf f = some x → x.why = .writeBack req key → f.status = stOK → s.ctl.opens = [o] → o.id = req →
      s.ctl.owns = [x] → o.frame.dst = 0xFFF → s.ctl.liveInc o.frame.src.toNat o.frame.inc = true → o.frame.kind = kAtomic → o.phase = .atomicWb →
      Completes (.atomicWriteback f) s (fun t =>
    Replied s t o.frame stOK (leBytes 16 (leNat ((o.parts.head?.map (·.2)).getD [])) ++ [1] ++ zeros 7)
    ∧ t.ctl.opens = [] ∧ t.ctl.owns = [] ∧ (∀ l ∈ t.ctl.locks, l.req ≠ req) ∧ SameRights s t ∧ Keeps s t))
  ∧ (∀ (f : Frame) (x : OwnReq) (i : Nat) (s : State), s.ctl.mainUp = true → f.kind = kSyncRsp → f.dst = 0xFFF → s.ctl.opens = [] →
      s.ctl.liveInc f.src.toNat f.inc = true → s.ctl.ownOf f = some x → x.why = .extSync i true → f.status = stOK → (s.ctl.ext i).st = .pending →
      Completes (.syncRsp f) s (fun t =>
    t.ctl.ext i = { s.ctl.ext i with st := .active } ∧ (∀ j, j ≠ i → t.ctl.ext j = s.ctl.ext j) ∧ t.ctl.rd Reg.extBusy = 0 ∧ t.ctl.rd Reg.extErr = 0
    ∧ t.ctl.bays = s.ctl.bays ∧ Keeps s t))
  ∧ (∀ (f : Frame) (i cls : Nat) (old : Bool) (s : State),
      let r := kvOfBytes f.bay.toNat i f.payload
      Arrives s f → windowFrame f (fun o => decide (0x10000 ≤ o) && decide (o < 0x1000000)) = true →
      s.ctl.check59 f f.payload.length (some rightW) = .pass (.kv (offsetOf f.addr)) cls old →
      s.ctl.checkKv f.bay.toNat cls (offsetOf f.addr) f.payload.length true = .table i → s.ctl.kvFind f.bay.toNat i = none → r.capb ≠ 0 →
      s.ctl.kvDescOk r f.payload = true → Completes (.kvDescriptorWrite f) s (fun t =>
    t.ctl.kvRegions = s.ctl.kvRegions ++ [r] ∧ Replied s t f stOK [] ∧ t.ctl.kvPages = s.ctl.kvPages ∧ t.ctl.exts = s.ctl.exts ∧ Keeps s t))
  ∧ (∀ (f : Frame) (n cls : Nat) (old : Bool) (s : State), Arrives s f → windowFrame f (fun o => decide (o < 0x200)) = true → f.payload.length = 8 →
      offsetOf f.addr % 8 = 0 → s.ctl.check59 f 8 (some rightW) = .pass (.window (offsetOf f.addr)) cls old →
      s.ctl.slotQueue f.bay.toNat (offsetOf f.addr / 8) = some n → Completes (.doorbell f) s (fun t =>
    t.ctl.que n = (s.ctl.doorbell n (leNat f.payload)).1.que n ∧ (∀ m, m ≠ n → t.ctl.que m = s.ctl.que m) ∧ Replied s t f stOK [] ∧ SameRights s t ∧ Keeps s t))
  ∧ (∀ (f : Frame) (n cls : Nat) (old : Bool) (s : State), Arrives s f → windowFrame f (fun o => decide (o < 0x200)) = true → f.payload.length = 8 →
      offsetOf f.addr % 8 = 0 → s.ctl.check59 f 8 (some rightW) = .pass (.window (offsetOf f.addr)) cls old →
      s.ctl.slotQueue f.bay.toNat (offsetOf f.addr / 8) = some n → bitOf (leAt f.payload 0 8) 32 = true → (s.ctl.que n).st = .stopped →
      Completes (.resume f) s (fun t =>
    (t.ctl.que n).st = .running ∧ (t.ctl.que n).head = (s.ctl.que n).head ∧ (t.ctl.que n).fetched = [] ∧ Replied s t f stOK [] ∧ SameRights s t ∧ Keeps s t))
  ∧ (∀ (f : Frame) (cls : Nat) (old : Bool) (s : State),
      let v := leNat f.payload
      Arrives s f → windowFrame f (fun o => o == 0x1040) = true → f.payload.length = 8 → bitOf (leAt f.payload 0 8) 0 = true →
      v = 1 + field v 16 16 * 65536 → s.ctl.check59 f 8 (some rightW) = .pass (.window 0x1040) cls old → (s.ctl.mbx f.src.toNat).go = false →
      Completes (.mailboxPost f) s (fun t =>
    t.ctl.mbx f.src.toNat = { s.ctl.mbx f.src.toNat with go := true, seq := BitVec.ofNat 16 (field v 16 16), bay := f.bay.toNat, since := s.ctl.now }
    ∧ (∀ e, e ≠ f.src.toNat → t.ctl.mbx e = s.ctl.mbx e) ∧ Replied s t f stOK [] ∧ SameRights s t ∧ Keeps s t))

/-- Grants and write-backs at home (R178, R179, R184-R188, Tables 7.4, 7.5): the first agent to ask for a line gets it, E for RdS and M
for RdX and Upg, with its data; an owner's WbM stores its data and frees the entry, WbE frees it.
Choices and readings of the model in it: log entries 21 and 40. -/
def Obligations.GrantsAndWriteBacks : Prop :=
  (∀ (f : Frame) (i slot cls : Nat) (old : Bool) (b : List Byte) (s : State), FirstGrant s f i slot cls old b → f.kind = kRdS →
      Completes (.rds f .clean) s (fun t =>
    Replied s t f stOK b ∧ (∃ e, t.ctl.entOf (lineKeyOf f.bay.toNat f.addr) = some e ∧ e.st = .E ∧ e.owner = slot ∧ e.pres = slotBit slot)
    ∧ SameRights s t ∧ Keeps s t))
  ∧ (∀ (f : Frame) (i slot cls : Nat) (old : Bool) (b : List Byte) (s : State), FirstGrant s f i slot cls old b → f.kind = kRdX →
      Completes (.rdx f) s (fun t =>
    Replied s t f stOK b ∧ (∃ e, t.ctl.entOf (lineKeyOf f.bay.toNat f.addr) = some e ∧ e.st = .M ∧ e.owner = slot ∧ e.pres = slotBit slot)
    ∧ SameRights s t ∧ Keeps s t))
  ∧ (∀ (f : Frame) (i slot cls : Nat) (old : Bool) (b : List Byte) (s : State), FirstGrant s f i slot cls old b → f.kind = kUpg →
      Completes (.upg f) s (fun t =>
    Replied s t f stOK b ∧ (∃ e, t.ctl.entOf (lineKeyOf f.bay.toNat f.addr) = some e ∧ e.st = .M ∧ e.owner = slot ∧ e.pres = slotBit slot)
    ∧ SameRights s t ∧ Keeps s t))
  ∧ (∀ (f : Frame) (i slot cls k : Nat) (old : Bool) (e : DirEnt) (s : State), Arrives s f → f.kind = kWbM →
      s.ctl.check59 f 128 (some rightW) = .pass (.flat i) cls old → CohLine s f i slot k e → e.st = .M → e.owner = slot → e.trans = none →
      Completes (.wbm f) s (fun t =>
    Replied s t f stOK [] ∧ t.mem = s.mem.write k f.payload ∧ t.ctl.entOf (lineKeyOf f.bay.toNat f.addr) = none ∧ t.pending = s.pending))
  ∧ (∀ (f : Frame) (i slot cls k : Nat) (old : Bool) (e : DirEnt) (s : State), Arrives s f → f.kind = kWbE →
      s.ctl.check59 f 128 none = .pass (.flat i) cls old → CohLine s f i slot k e → e.st = .E → e.owner = slot → e.trans = none →
      Completes (.wbe f) s (fun t =>
    Replied s t f stOK [] ∧ t.ctl.entOf (lineKeyOf f.bay.toNat f.addr) = none ∧ Keeps s t))

/-- Answers of agents to home (R185-R187, R189, R195, R196): the last InvAck of a removal frees the entry, a FwdAck leaves the owner a
sharer, the data of a recalled line goes to memory, an agent that does not answer in ACK_TIMEOUT takes its domain down. Coherent domains by command (R178, R198, Tables 7.7-7.9).
Choices and readings of the model in it: log entries 30, 41 and 42. -/
def Obligations.AnswersAndDomains : Prop :=
  (∀ (f : Frame) (slot : Nat) (e : DirEnt) (tr : Trans) (s : State), Awaited s f slot e tr → f.kind = kInvAck → tr.why = .removal → e.st = .S →
      e.pres = slotBit slot → f.payload = [] → Completes (.invack f) s (fun t =>
    t.ctl.entOf e.line = none ∧ t.ctl.opens = [] ∧ SameRights s t ∧ Keeps s t))
  ∧ (∀ (f : Frame) (slot : Nat) (e : DirEnt) (tr : Trans) (s : State), Awaited s f slot e tr → f.kind = kFwdAck → tr.why = .unitAccess → e.st = .E →
      e.owner = slot → slot < 64 → e.pres = slotBit slot → tr.wbp = false → bitOf f.addr.toNat 0 = false → f.payload = [] → Completes (.fwdack f) s (fun t =>
    (∃ x, t.ctl.entOf e.line = some x ∧ x.st = .S ∧ x.pres = slotBit slot) ∧ t.ctl.opens = [] ∧ SameRights s t ∧ Keeps s t))
  ∧ (∀ (f : Frame) (slot i k p : Nat) (e : DirEnt) (tr : Trans) (s : State), Awaited s f slot e tr → f.kind = kData → tr.why = .removal → e.st = .M →
      e.owner = slot → e.pres = slotBit slot → tr.wbp = false → bitOf f.addr.toNat 0 = false → f.payload.length = 128 →
      s.ctl.lineTarget e.line = some (.flat i) → lineBay e.line = f.bay.toNat →
      s.ctl.targetSegs f.bay.toNat (.flat i) (lineAddr e.line) 128 = [{ key := some k, len := 128, lost := false, copies := [], parity := none, page := p }] →
      keyTray k = none → s.mem.poison = [] → Completes (.data f) s (fun t =>
    t.ctl.entOf e.line = none ∧ t.mem = s.mem.write k f.payload ∧ t.ctl.opens = [] ∧ SameRights s t ∧ t.pending = s.pending))
  ∧ (∀ (bay : Fin 4096) (a : Word) (slot : Fin 64) (e : DirEnt) (tr : Trans) (s : State), s.ctl.mainUp = true → s.ctl.opens = [] →
      s.ctl.entOf (lineKeyOf bay.val (BitVec.ofNat 64 (a.toNat / 128 * 128))) = some e → e.trans = some tr → tr.await.contains slot.val = true →
      tr.since + s.ctl.rd Reg.ackTimeout ≤ s.ctl.now → (s.ctl.dom e.dom).st = .up → Completes (.dirAckTimeout bay a slot) s (fun t =>
    (t.ctl.dom e.dom).st = .failed ∧ (t.ctl.dom e.dom).cause = 2 ∧ (∀ x ∈ t.ctl.dir, x.dom ≠ e.dom) ∧ s.ctl.evseq < t.ctl.evseq ∧ t.pending = s.pending))
  ∧ (∀ (d : Fin 64) (s : State), s.ctl.mainUp = true → s.ctl.rd Reg.dirBusy = 0 → s.ctl.createErr d.val = 0 → Completes (.create d) s (fun t =>
    t.ctl.dom d.val = { st := .up, bay := s.ctl.rd (Reg.domBay d.val), cause := 0, causeEp := 0, agents := s.ctl.validSlots d.val }
    ∧ t.ctl.rd Reg.dirErr = 0 ∧ (∀ x, x ≠ d.val → t.ctl.dom x = s.ctl.dom x)
    ∧ Only s t (fun c => { c with regs := t.ctl.regs, doms := t.ctl.doms })))
  ∧ (∀ (d a : Fin 64) (s : State), s.ctl.mainUp = true → s.ctl.rd Reg.dirBusy = 0 → s.ctl.addAgentErr d.val a.val = 0 →
      (∀ x ∈ (s.ctl.dom d.val).agents, x.1 ≠ a.val) → Completes (.addAgent d a) s (fun t =>
    (t.ctl.dom d.val).epOf a.val = s.ctl.rd (Reg.agentEp d.val a.val) ∧ (t.ctl.dom d.val).st = .up ∧ t.ctl.rd Reg.dirErr = 0
    ∧ (∀ x, x ≠ d.val → t.ctl.dom x = s.ctl.dom x) ∧ Only s t (fun c => { c with regs := t.ctl.regs, doms := t.ctl.doms })))
  ∧ (∀ (d : Fin 64) (s : State), s.ctl.mainUp = true → s.ctl.rd Reg.dirBusy = 0 → (s.ctl.dom d.val).st = .up → Completes (.destroy d) s (fun t =>
    (t.ctl.dom d.val).st = .draining ∧ t.ctl.rd Reg.dirBusy = 1 ∧ (∀ x, x ≠ d.val → t.ctl.dom x = s.ctl.dom x) ∧ SameRights s t ∧ Keeps s t))
  ∧ (∀ (d : Fin 64) (s : State), s.ctl.mainUp = true → (s.ctl.dom d.val).st = .draining → (∀ x ∈ s.ctl.dir, x.dom ≠ d.val) →
      Completes (.domainDrained d) s (fun t =>
    (t.ctl.dom d.val).st = .free ∧ (t.ctl.dom d.val).agents = [] ∧ (s.ctl.rd Reg.dirDom = d.val → t.ctl.rd Reg.dirBusy = 0)
    ∧ (∀ x, x ≠ d.val → t.ctl.dom x = s.ctl.dom x) ∧ Only s t (fun c => { c with regs := t.ctl.regs, doms := t.ctl.doms })))

/-- Extent commands (R125, R131, R143-R145, Tables 5.14-5.17): INSTALL makes the staged entry ACTIVE, or PENDING while its tray has not
answered; REVOKE makes an ACTIVE one REVOKING; once nothing is in flight, or at the timeout, it is EMPTY.
Choices and readings of the model in it: log entries 21 and 30. -/
def Obligations.ExtentCommands : Prop :=
  (∀ (i : Fin 65536) (s : State),
      let e := s.ctl.stagedExt.1
      let far := isNode e.base && s.ctl.isTray (nodeOf e.base) && (s.ctl.ep (nodeOf e.base)).live
      s.ctl.mainUp = true → s.ctl.rd Reg.extBusy = 0 → s.ctl.extErrOf i.val e = 0 → Completes (.extInstall i) s (fun t =>
    t.ctl.ext i.val = { e with st := if far then .pending else .active } ∧ t.ctl.rd Reg.extBusy = b2n far ∧ t.ctl.rd Reg.extErr = 0
    ∧ (∀ j, j ≠ i.val → t.ctl.ext j = s.ctl.ext j) ∧ t.ctl.opens = s.ctl.opens ∧ t.ctl.tier = s.ctl.tier ∧ Keeps s t))
  ∧ (∀ (i : Fin 65536) (s : State), s.ctl.mainUp = true → s.ctl.rd Reg.extBusy = 0 → (s.ctl.ext i.val).st = .active → Completes (.extRevoke i) s (fun t =>
    t.ctl.ext i.val = { s.ctl.ext i.val with st := .revoking, revAt := s.ctl.now, dropped := false } ∧ t.ctl.rd Reg.extErr = 0
    ∧ (∀ j, j ≠ i.val → t.ctl.ext j = s.ctl.ext j) ∧ Only s t (fun c => { c with regs := t.ctl.regs, exts := t.ctl.exts, eps := t.ctl.eps })))
  ∧ (∀ (i : Fin 65536) (s : State), s.ctl.mainUp = true → (s.ctl.ext i.val).st = .revoking → s.ctl.inflight i.val = 0 → (s.ctl.ext i.val).dropped = false →
      (isNode (s.ctl.ext i.val).base && s.ctl.isTray (nodeOf (s.ctl.ext i.val).base) && (s.ctl.ep (nodeOf (s.ctl.ext i.val).base)).live) = false →
      Completes (.revokeDrained i) s (fun t => t.ctl.ext i.val = Extent.init ∧ s.ctl.evseq < t.ctl.evseq ∧ t.pending = s.pending))
  ∧ (∀ (i : Fin 65536) (s : State), s.ctl.mainUp = true → (s.ctl.ext i.val).st = .revoking → (s.ctl.ext i.val).dropped = false →
      (s.ctl.ext i.val).revAt + s.ctl.rd Reg.revokeTimeout ≤ s.ctl.now → s.ctl.opens = [] → isNode (s.ctl.ext i.val).base = true →
      (s.ctl.ext i.val).backing = false →
      (s.ctl.isTray (nodeOf (s.ctl.ext i.val).base) && (s.ctl.ep (nodeOf (s.ctl.ext i.val).base)).live) = false →
      Completes (.revokeTimeout i) s (fun t =>
    t.ctl.ext i.val = Extent.init ∧ (∀ j, j ≠ i.val → t.ctl.ext j = s.ctl.ext j) ∧ s.ctl.evseq < t.ctl.evseq ∧ Keeps s t))

/-- Composition maps and endpoint configuration (R138-R142, R176, Tables 5.10, 5.13, 6.11): a map that passes the checks becomes current
under the next generation; the old one goes when nothing is in flight under it, at the grace period's end, or by command.
Choices and readings of the model in it: log entries 30, 44 and 45. -/
def Obligations.MapsAndEndpoints : Prop :=
  (∀ (b : Fin 4096) (s : State), s.ctl.mainUp = true → s.ctl.rd Reg.cmpBusy = 0 → s.ctl.cmpErrOf b.val (parseMap s.mem) = 0 → s.ctl.opens = [] →
      Completes (.cmpInstall b) s (fun t =>
    (t.ctl.bay b.val).st = .active ∧ (t.ctl.bay b.val).gen = (s.ctl.bay b.val).gen + 1
    ∧ (t.ctl.bay b.val).cur = some { gen := (s.ctl.bay b.val).gen + 1, members := (parseMap s.mem).members, groups := (parseMap s.mem).groups }
    ∧ t.ctl.rd Reg.cmpErr = 0 ∧ s.ctl.evseq < t.ctl.evseq ∧ t.ctl.exts = s.ctl.exts ∧ Keeps s t))
  ∧ (∀ (b : Fin 4096) (s : State), s.ctl.mainUp = true → s.ctl.oldInflight b.val = 0 → s.ctl.opens = [] → (s.ctl.bay b.val).old.isSome = true →
      (s.ctl.bay b.val).cur.isSome = true → Completes (.oldMapRetire b) s (fun t =>
    t.ctl.bay b.val = { s.ctl.bay b.val with old := none } ∧ s.ctl.evseq < t.ctl.evseq ∧ t.ctl.exts = s.ctl.exts ∧ Keeps s t))
  ∧ (∀ (b : Fin 4096) (s : State), s.ctl.mainUp = true → (s.ctl.bay b.val).oldAt + s.ctl.rd Reg.cmpGrace ≤ s.ctl.now → s.ctl.opens = [] →
      (s.ctl.bay b.val).old.isSome = true → (s.ctl.bay b.val).cur.isSome = true → Completes (.cmpGraceExpiry b) s (fun t =>
    t.ctl.bay b.val = { s.ctl.bay b.val with old := none } ∧ s.ctl.evseq < t.ctl.evseq ∧ t.ctl.exts = s.ctl.exts ∧ Keeps s t))
  ∧ (∀ (b : Fin 4096) (s : State), s.ctl.mainUp = true → s.ctl.rd Reg.cmpBusy = 0 → s.ctl.opens = [] → (s.ctl.bay b.val).old.isSome = true →
      (s.ctl.bay b.val).cur.isSome = true → Completes (.retireNow b) s (fun t =>
    t.ctl.bay b.val = { s.ctl.bay b.val with old := none } ∧ t.ctl.rd Reg.cmpErr = 0 ∧ s.ctl.evseq < t.ctl.evseq ∧ t.ctl.exts = s.ctl.exts ∧ Keeps s t))
  ∧ (∀ (e : Fin 4095) (v : Word) (s : State), s.ctl.mainUp = true → bitOf v.toNat 0 = true → Completes (.bayEpCfgWrite e v) s (fun t =>
    t.ctl.rd (Reg.epEnable e.val) = 1 ∧ t.ctl.rd (Reg.epClass e.val) = (if field v.toNat 1 2 = 3 then 0 else field v.toNat 1 2)
    ∧ OnlyRegs [(Reg.epEnable e.val).addr] s t))
  ∧ (∀ (e : Fin 4095) (v : Word) (s : State), s.ctl.mainUp = true → bitOf v.toNat 0 = false → (s.ctl.ep e.val).live = false → s.ctl.opens = [] → Completes (.bayEpCfgWrite e v) s (fun t =>
    t.ctl.rd (Reg.epEnable e.val) = 0 ∧ (t.ctl.ep e.val).live = false ∧ t.pending = s.pending))
  ∧ (∀ (b : Fin 4096) (v : Word) (s : State),
      let first := field v.toNat 0 20
      let count := min (field v.toNat 32 21) (1048576 - first)
      s.ctl.mainUp = true → (s.ctl.bay b.val).st = .free →
      (∀ o : Fin 4096, o ≠ b → ¬ (first < s.ctl.rd (Reg.winFirst o.val) + s.ctl.rd (Reg.winCount o.val) ∧ s.ctl.rd (Reg.winFirst o.val) < first + count)) →
      Completes (.memCtrWinWrite b v) s (fun t =>
    t.ctl.rd (Reg.winFirst b.val) = first ∧ t.ctl.rd (Reg.winCount b.val) = count ∧ OnlyRegs [(Reg.winFirst b.val).addr] s t))

/-- Migration (R206-R210): the next migration of the queue starts with a place of its target tier, each chunk copies 512 bytes, after the
last the page is at its destination, whose old place is freed and awaits zeroing.
Choices and readings of the model in it: log entries 17, 50 and 51. -/
def Obligations.Migration : Prop :=
  (∀ (b : Fin 4096) (p : BitVec 36) (goal : Tier) (d : Ctl) (s : State),
      let m : Mig := { page := .flat b p, target := goal, urgent := false }
      let pg := s.ctl.page b.val p.toNat
      s.ctl.mainUp = true → s.ctl.migsRunning < 256 → s.ctl.migQ = [m] → s.ctl.refDegraded m.page = false → pg.loc.tier ≠ .none → pg.lost = false →
      pg.migrating = false → pg.dest.tier = .none → pg.loc.tier ≠ goal → s.ctl.startFlat m b.val p.toNat = some d → Completes .migrationStart s (fun t =>
    (t.ctl.page b.val p.toNat).migrating = true ∧ (t.ctl.page b.val p.toNat).copied = 0 ∧ (t.ctl.page b.val p.toNat).loc = pg.loc
    ∧ (t.ctl.page b.val p.toNat).dest.tier = goal ∧ t.ctl.migQ = [] ∧ Keeps s t))
  ∧ (∀ (b : Fin 4096) (p : BitVec 36) (d k : Nat) (s : State),
      let pg := s.ctl.page b.val p.toNat
      s.ctl.mainUp = true → pg.migrating = true → s.ctl.locKey pg.dest = some d → s.ctl.locKey pg.loc = some k →
      Completes (.migrationChunk (.flat b p) false) s (fun t =>
    t.mem = s.mem.copyChunk (d + pg.copied * 512) (k + pg.copied * 512) 512
    ∧ (pg.copied < 127 → t.ctl.page b.val p.toNat = { pg with copied := pg.copied + 1 })
    ∧ (127 ≤ pg.copied → t.ctl.page b.val p.toNat = { pg with loc := pg.dest, dest := pg.loc, migrating := false, copied := 0 })
    ∧ SameRights s t ∧ t.ctl.opens = s.ctl.opens ∧ t.pending = s.pending))
  ∧ (∀ (b : Fin 4096) (p : BitVec 36) (k : Nat) (s : State),
      let pg := s.ctl.page b.val p.toNat
      s.ctl.mainUp = true → pg.migrating = false → pg.dest.tier ≠ .none → s.ctl.locKey pg.dest = some k → s.ctl.owns = [] →
      Completes (.sourceFree (.flat b p)) s (fun t =>
    t.ctl.page b.val p.toNat = { pg with dest := Loc.none } ∧ k ∈ t.ctl.phys.dirty ∧ k ∉ t.ctl.phys.used ∧ SameRights s t ∧ Keeps s t))

/-- Zeroing, scrub, regions and rebuild (R205, R222, R223, R229, R429, R507, R508, Table 8.9).
Choices and readings of the model in it: log entries 17, 52, 54 and 127. -/
def Obligations.ZeroingAndScrub : Prop :=
  (∀ (k : Nat) (s : State), s.ctl.mainUp = true → k ∈ s.ctl.phys.dirty → k ∉ s.ctl.phys.failedZero → s.ctl.reachable k = true →
      Completes (.pageZeroed (.page k)) s (fun t =>
    (∀ a, k ≤ a → a < k + 65536 → t.mem.byte a = 0) ∧ (∀ a, a < k ∨ k + 65536 ≤ a → t.mem.byte a = s.mem.byte a)
    ∧ k ∉ t.ctl.phys.dirty ∧ SameRights s t ∧ t.ctl.tier = s.ctl.tier ∧ t.pending = s.pending))
  ∧ (∀ (k : Nat) (s : State), s.ctl.mainUp = true → k ∈ s.ctl.phys.dirty → Completes (.zeroingFail (.page k)) s (fun t =>
    k ∈ t.ctl.phys.failedZero ∧ k ∈ t.ctl.phys.dirty ∧ Only s t (fun c => { c with phys := t.ctl.phys })))
  ∧ (∀ (found : List ScrubFinding) (s : State), s.ctl.mainUp = true → Completes (.patrolScrub found) s (fun t =>
    t.mem.cells = s.mem.cells ∧ (∀ b, ScrubFinding.uncorr b ∈ found → b * 64 < 2 ^ 58 → b ∈ t.mem.poison) ∧ (∀ b ∈ s.mem.poison, b ∈ t.mem.poison)
    ∧ SameRights s t ∧ t.ctl.tier = s.ctl.tier ∧ t.pending = s.pending))
  ∧ (∀ (b : Nat) (s : State), Completes (.eccWriteback b) s (fun t => t = s))
  ∧ (∀ (r : Fin 65536) (v : Word) (s : State), s.ctl.mainUp = true → s.ctl.rd (Reg.regionValid r.val) = 0 → Completes (.tirRegionWrite r 2 v) s (fun t =>
    t.ctl.rd (Reg.regionBay r.val) = field v.toNat 0 12 ∧ t.ctl.rd (Reg.regionLen r.val) = max 1 (field v.toNat 12 20)
    ∧ t.ctl.rd (Reg.regionValid r.val) = field v.toNat 63 1 ∧ (field v.toNat 63 1 = 1 → t.ctl.rd (Reg.regionVersion r.val) = 0)
    ∧ OnlyRegs [Reg.regionWord r.val 2, Reg.regionWord r.val 3] s t))
  ∧ (∀ (r : Fin 65536) (w : Fin 3) (v : Word) (s : State), s.ctl.mainUp = true → s.ctl.rd (Reg.regionValid r.val) = 0 → w.val < 2 →
      Completes (.tirRegionWrite r w v) s (fun t =>
    t.ctl.reg (Reg.regionWord r.val w.val) = BitVec.ofNat 64 (v.toNat / 65536 * 65536) ∧ OnlyRegs [Reg.regionWord r.val w.val] s t))
  ∧ (∀ (page : PageRef) (s : State), s.ctl.mainUp = true → s.ctl.refDegraded page = true → (∃ m ∈ s.ctl.migQ, m.urgent = true ∧ m.page = page) →
      (s.rebuildPage page).ctl.refDegraded page = false → Completes (.rebuild page) s (fun t =>
    t.ctl.refDegraded page = false ∧ (∀ m ∈ t.ctl.migQ, m.urgent = true → m.page ≠ page) ∧ t.mem = (s.rebuildPage page).mem))
  ∧ (∀ (x y z : Nat) (s : State), s.ctl.mainUp = true → s.ctl.phys.copyA = some x → s.ctl.rd (Reg.hbmState x) = 0 → s.ctl.phys.copyB = some y →
      s.ctl.rd (Reg.hbmState y) ≠ 0 → s.ctl.copyStack false (some y) = some z → s.ctl.copyFits z = true → Completes (.reservedAreaRebuild 0) s (fun t =>
    t.ctl.phys.copyA = some z ∧ Only s t (fun c => { c with phys := { c.phys with copyA := t.ctl.phys.copyA } })))

/-- Loss, evacuation and restoration of stacks and channels (R222, R224-R226, Tables 8.10-8.13): an unprotected page on a lost stack is
LOST; an empty stack or channel goes OFFLINE as soon as it is evacuated; a restored one is ONLINE, its pages zero.
Choices and readings of the model in it: log entries 31, 32, 49 and 53. -/
def Obligations.StacksAndChannels : Prop :=
  (∀ (x : Fin 8) (b : Fin 4096) (p : BitVec 36) (pg : PageEntry) (s : State), s.ctl.mainUp = true → s.ctl.rd (Reg.hbmState x.val) ≠ 0 →
      s.ctl.tier = [(pageKey b.val p.toNat, pg)] → s.ctl.kvPages = [] → s.ctl.pageRedun b.val p.toNat = 0 → pg.loc.tier = .hbm → pg.loc.a = x.val →
      pg.loc.b < 2 ^ 20 → pg.dest.tier = .none → Completes (.failureUnitLost (.hbm x)) s (fun t =>
    (t.ctl.page b.val p.toNat).lost = true ∧ t.pending = s.pending))
  ∧ (∀ (x : Fin 8) (s : State), s.ctl.mainUp = true → s.ctl.rd Reg.hbmBusy = 0 → s.ctl.rd (Reg.hbmState x.val) = 1 → s.ctl.tier = [] →
      s.ctl.kvPages = [] → s.ctl.coded = [] → s.ctl.rsas = [] → s.ctl.phys.copyA ≠ some x.val → s.ctl.phys.copyB ≠ some x.val →
      (∀ k ∈ s.ctl.phys.used, s.ctl.onUnit (.hbm x) k = false) → Completes (.hbmEvacuate x) s (fun t =>
    t.ctl.rd (Reg.hbmState x.val) = 0 ∧ t.ctl.rd Reg.hbmBusy = 0 ∧ t.ctl.rd Reg.hbmErr = 0 ∧ SameRights s t ∧ Keeps s t))
  ∧ (∀ (x : Fin 8) (s : State), s.ctl.mainUp = true → s.ctl.rd Reg.hbmBusy = 0 → s.ctl.rd (Reg.hbmState x.val) = 0 → Completes (.hbmRestore x) s (fun t =>
    t.ctl.rd (Reg.hbmState x.val) = 3 ∧ t.ctl.rd Reg.hbmBusy = 1 ∧ t.ctl.rd Reg.hbmErr = 0 ∧ Only s t (fun c => { c with regs := t.ctl.regs })))
  ∧ (∀ (x : Fin 8) (s : State), s.ctl.mainUp = true → s.ctl.rd (Reg.hbmState x.val) = 3 → s.ctl.tier = [] → s.ctl.kvPages = [] →
      Completes (.hbmRestoreDone x true) s (fun t =>
    t.ctl.rd (Reg.hbmState x.val) = 1 ∧ t.ctl.rd Reg.hbmBusy = 0 ∧ t.ctl.rd Reg.hbmErr = 0
    ∧ (∀ k, k < 2 ^ 44 → k / 2 ^ 36 = x.val → k / 65536 * 65536 ∉ s.ctl.phys.used → t.mem.byte k = 0)
    ∧ (∀ k, 2 ^ 44 ≤ k ∨ k / 2 ^ 36 ≠ x.val → t.mem.byte k = s.mem.byte k) ∧ SameRights s t ∧ t.pending = s.pending))
  ∧ (∀ (x : Fin 8) (s : State), s.ctl.mainUp = true → s.ctl.rd (Reg.hbmState x.val) = 3 → Completes (.hbmRestoreDone x false) s (fun t =>
    t.ctl.rd (Reg.hbmState x.val) = 0 ∧ t.ctl.rd Reg.hbmErr = 2 ∧ t.ctl.rd Reg.hbmBusy = 0 ∧ SameRights s t ∧ Keeps s t))
  ∧ (∀ (x : Fin 12) (s : State), s.ctl.mainUp = true → s.ctl.rd Reg.ddrBusy = 0 → s.ctl.rd (Reg.ddrState x.val) = 1 → s.ctl.tier = [] →
      s.ctl.kvPages = [] → s.ctl.coded = [] → s.ctl.rsas = [] → (∀ k ∈ s.ctl.phys.used, k < 2 ^ 44 ∨ 2 ^ 58 ≤ k) → Completes (.ddrEvacuate x) s (fun t =>
    t.ctl.rd (Reg.ddrState x.val) = 0 ∧ t.ctl.rd Reg.ddrBusy = 0 ∧ t.ctl.rd Reg.ddrErr = 0 ∧ Sent s t (.slotPower x.val false) ∧ SameRights s t ∧ Keeps s t))
  ∧ (∀ (x : Fin 12) (s : State), s.ctl.mainUp = true → s.ctl.rd Reg.ddrBusy = 0 → s.ctl.rd (Reg.ddrState x.val) = 0 → Completes (.ddrRestore x) s (fun t =>
    t.ctl.phys.restoring = some x ∧ t.ctl.rd Reg.ddrBusy = 1 ∧ t.ctl.rd Reg.ddrErr = 0 ∧ Sent s t (.slotPower x.val true)
    ∧ Only s t (fun c => { c with regs := t.ctl.regs, phys := t.ctl.phys, out := t.ctl.out })))
  ∧ (∀ (x : Fin 12) (slots : Nat) (s : State), s.ctl.mainUp = true → s.ctl.phys.restoring = some x → s.ctl.tier = [] → s.ctl.kvPages = [] → slots < 2 ^ 22 →
      Completes (.ddrRestoreDone x true slots) s (fun t =>
    t.ctl.rd (Reg.ddrState x.val) = 1 ∧ t.ctl.rd (Reg.ddrSlots x.val) = slots ∧ t.ctl.rd Reg.ddrBusy = 0 ∧ t.ctl.phys.restoring = none
    ∧ SameRights s t ∧ Keeps s t))
  ∧ (∀ (s : State), s.ctl.mainUp = true → s.ctl.rd Reg.ddrBusy = 0 → s.ctl.tier = [] → s.ctl.kvPages = [] → s.ctl.coded = [] → s.ctl.rsas = [] →
      s.ctl.phys.evac = none → s.ctl.phys.restoring = none → (∀ k ∈ s.ctl.phys.used, k < 2 ^ 44 ∨ 2 ^ 58 ≤ k) → Completes .rebalance s (fun t =>
    t.ctl.rd Reg.ddrBusy = 0 ∧ t.ctl.rd Reg.ddrErr = 0 ∧ SameRights s t ∧ Keeps s t))

/-- Commands about regions of KV memory and bays' windows (R312, R352, R357, R367, Table 11.9): a destroy is applied once no
instruction names the region; a shared page is copied before it is written; windows and request-state areas change only in a FREE
bay.
Choices and readings of the model in it: log entries 78 and 86. -/
def Obligations.KvSpaceCommands : Prop :=
  (∀ (b : Fin 4096) (i : Nat) (s : State) (r : KvRegion), s.ctl.mainUp = true → s.ctl.kvFind b.val i = some r → r.dying.isSome = true →
      s.ctl.kvNamed b.val i = false → Completes (.kvDestroyApplied b i) s (fun t =>
    t.ctl.kvFind b.val i = none ∧ (∀ o ∈ t.ctl.opens, waitsDestroy b.val i o = false)
    ∧ t.ctl.bays = s.ctl.bays ∧ t.ctl.exts = s.ctl.exts ∧ t.ctl.ques = s.ctl.ques ∧ Keeps s t))
  ∧ (∀ (b : Fin 4096) (i p n : Nat) (s : State) (r : KvRegion) (g : KvPage), s.ctl.mainUp = true → s.ctl.kvFind b.val i = some r →
      r.pages.find? p = some n → s.ctl.kvPage? n = some g → 1 < g.count → g.ro = false → (s.kvCow r p n).isSome = true →
      s.ctl.freeRec ≠ n → r.redun = false → Completes (.copyOnWrite b i p) s (fun t =>
    t.ctl.kvPage? n = some { g with count := g.count - 1 }
    ∧ (∃ m h, m ≠ n ∧ (t.ctl.kvFind b.val i).bind (fun y => y.pages.find? p) = some m ∧ t.ctl.kvPage? m = some h ∧ h.count = 1 ∧ h.ro = false)
    ∧ t.ctl.ques = s.ctl.ques ∧ t.ctl.opens = s.ctl.opens ∧ t.pending = s.pending))
  ∧ (∀ (b : Fin 4096) (v : Word) (s : State),
      let first := field v.toNat 0 20
      let count := min (min (field v.toNat 32 21) 1044480) (1048576 - first)
      s.ctl.mainUp = true → (s.ctl.bay b.val).st = .free →
      (∀ o : Fin 4096, o ≠ b → s.ctl.rd (Reg.kvsCount o.val) ≠ 0 → count ≠ 0 →
        ¬ (first < s.ctl.rd (Reg.kvsFirst o.val) + s.ctl.rd (Reg.kvsCount o.val) ∧ s.ctl.rd (Reg.kvsFirst o.val) < first + count)) →
      Completes (.kvsBayWrite b 0 v) s (fun t =>
    t.ctl.rd (Reg.kvsFirst b.val) = first ∧ t.ctl.rd (Reg.kvsCount b.val) = count ∧ OnlyRegs [(Reg.kvsFirst b.val).addr] s t))
  ∧ (∀ (b : Fin 4096) (v : Word) (s : State), s.ctl.mainUp = true → (s.ctl.bay b.val).st ≠ .free → Completes (.kvsBayWrite b 0 v) s (fun t =>
    t.ctl.rd Reg.kvsWinRefused = 1 ∧ OnlyRegs [Reg.kvsWinRefused.addr, Reg.wrRefused] s t))
  ∧ (∀ (b : Fin 4096) (v : Word) (s : State), s.ctl.mainUp = true → (s.ctl.bay b.val).st = .free → Completes (.kvsBayWrite b 1 v) s (fun t =>
    t.ctl.rd (Reg.kvsSset b.val) = field v.toNat 0 8 ∧ t.ctl.rd (Reg.kvsFork b.val) = field v.toNat 8 1
    ∧ t.ctl.rd (Reg.kvsNodeQuota b.val) = min (field v.toNat 16 23) 4194304 ∧ OnlyRegs [(Reg.kvsSset b.val).addr] s t))
  ∧ (∀ (b : Fin 4096) (v : Word) (s : State), s.ctl.mainUp = true → (s.ctl.bay b.val).st = .free → Completes (.cruBayRsaWrite b v) s (fun t =>
    t.ctl.rd (Reg.rsaPages b.val) = field v.toNat 0 24 ∧ t.ctl.rd (Reg.rsaPlace b.val) = (if field v.toNat 24 2 = 1 then 1 else 0)
    ∧ t.ctl.rd (Reg.rsaRedun b.val) = (if field v.toNat 26 2 = 3 then 0 else field v.toNat 26 2) ∧ OnlyRegs [(Reg.rsaPages b.val).addr] s t))
  ∧ (∀ (b : Fin 4096) (v : Word) (s : State), (s.ctl.bay b.val).st ≠ .free → Completes (.cruBayRsaWrite b v) s (fun t => t = s))

/-- A queue's own commands (R230, R232, R236-R239, R243, R245, R248, R249): enabling and disabling, the fetch of the next entry, issue,
completion with and without a record, the record that cannot be written, the wait for request-state space, an internal RETRY up to its limit (R252).
Choices and readings of the model in it: log entries 81 and 121. -/
def Obligations.CommandQueues : Prop :=
  (∀ (q : Fin 16384) (v : Word) (s : State), s.ctl.mainUp = true → s.ctl.rd (Reg.queEnable q.val) = 0 → bitOf v.toNat 63 = true →
      s.ctl.enableWhy q.val (field v.toNat 8 6) (field v.toNat 16 12) (field v.toNat 32 12) = 0 → Completes (.queCfgWrite q 2 v) s (fun t =>
    t.ctl.rd (Reg.queEnable q.val) = 1 ∧ t.ctl.rd (Reg.queLog q.val) = clampNat 4 20 (field v.toNat 0 5) ∧ t.ctl.rd (Reg.queSlot q.val) = field v.toNat 8 6
    ∧ t.ctl.rd (Reg.queBay q.val) = field v.toNat 16 12 ∧ t.ctl.rd (Reg.queOwner q.val) = field v.toNat 32 12
    ∧ t.ctl.que q.val = { Que.init with st := .running, insts := (s.ctl.que q.val).insts } ∧ (∀ p, p ≠ q.val → t.ctl.que p = s.ctl.que p)
    ∧ RegsBut [Reg.queBase q.val + 16] s t ∧ Only s t (fun c => { c with regs := t.ctl.regs, ques := t.ctl.ques })))
  ∧ (∀ (q : Fin 16384) (v : Word) (s : State), s.ctl.mainUp = true → s.ctl.rd (Reg.queEnable q.val) = 0 → bitOf v.toNat 63 = true →
      s.ctl.enableWhy q.val (field v.toNat 8 6) (field v.toNat 16 12) (field v.toNat 32 12) ≠ 0 → Completes (.queCfgWrite q 2 v) s (fun t =>
    t.ctl.rd (Reg.queEnable q.val) = 0 ∧ t.ctl.rd Reg.cfgRefused = 1 ∧ OnlyRegs [Reg.cfgRefused.addr, Reg.wrRefused] s t))
  ∧ (∀ (q : Fin 16384) (v : Word) (s : State), s.ctl.mainUp = true → s.ctl.rd (Reg.queEnable q.val) = 1 → bitOf v.toNat 63 = false → (s.ctl.que q.val).insts = [] →
      Completes (.queCfgWrite q 2 v) s (fun t =>
    t.ctl.rd (Reg.queEnable q.val) = 0 ∧ t.ctl.que q.val = { s.ctl.que q.val with st := .disabled, fetched := [], loops := [] }
    ∧ (∀ p, p ≠ q.val → t.ctl.que p = s.ctl.que p) ∧ RegsBut [Reg.queBase q.val + 16] s t ∧ Keeps s t))
  ∧ (∀ (q : Fin 16384) (w : Fin 2) (v : Word) (s : State), s.ctl.mainUp = true → s.ctl.rd (Reg.queEnable q.val) = 0 → Completes (.queCfgWrite q ⟨w.val, by omega⟩ v) s (fun t =>
    t.ctl.reg (Reg.queBase q.val + 8 * w.val) = BitVec.ofNat 64 ((clearReserved v).toNat / 128 * 128) ∧ OnlyRegs [Reg.queBase q.val + 8 * w.val] s t))
  ∧ (∀ (q : Fin 16384) (s : State) (e : List Byte), s.ctl.queLive q.val = true → s.ctl.ownerLive q.val = true → (s.ctl.que q.val).fetched.length < (s.ctl.que q.val).avail →
      Reads s (s.ctl.queCtx q.val).1 (s.ctl.queCtx q.val).2
        ((s.ctl.reg (Reg.queRing q.val)).toNat + 32 * (((s.ctl.que q.val).head + (s.ctl.que q.val).fetched.length) % 2 ^ 32 % s.ctl.queSize q.val)) 32 rightX e →
      Completes (.fetch q) s (fun t =>
    t.ctl.que q.val = { s.ctl.que q.val with fetched := (s.ctl.que q.val).fetched ++ [e] } ∧ (∀ p, p ≠ q.val → t.ctl.que p = s.ctl.que p)
    ∧ Only s t (fun c => { c with ques := t.ctl.ques })))
  ∧ (∀ (q : Fin 16384) (s : State) (e : List Byte) (l : List (List Byte)), s.ctl.queLive q.val = true → s.ctl.ownerLive q.val = true → (s.ctl.que q.val).avail ≠ 0 →
      s.ctl.testHolds (s.ctl.rd (Reg.queBay q.val)) = false → (s.ctl.que q.val).fetched = e :: l → (s.ctl.que q.val).canIssue e = true → s.ctl.seqInflight q.val < 1024 →
      Completes (.issue q) s (fun t =>
    (∃ x, (t.ctl.que q.val).insts = (s.ctl.que q.val).insts ++ [x] ∧ x.serial = s.ctl.nextId ∧ x.index = (s.ctl.que q.val).head ∧ x.entry = e
      ∧ x.phase = .issued ∧ x.retry = none ∧ (bitOf x.flags 1 = true ↔ entClamped e = true))
    ∧ (t.ctl.que q.val).head = ((s.ctl.que q.val).head + 1) % 2 ^ 32 ∧ (t.ctl.que q.val).fetched = l ∧ (t.ctl.que q.val).tail = (s.ctl.que q.val).tail
    ∧ (∀ m, entSetm e = some m → entOpcode e ≠ 0x06 → (t.ctl.que q.val).marks.getLsbD m = false)
    ∧ (∀ p, p ≠ q.val → t.ctl.que p = s.ctl.que p) ∧ t.ctl.regs = s.ctl.regs ∧ Keeps s t))
  ∧ (∀ (q : Fin 16384) (i : BitVec 32) (s : State) (x : QInst) (d : Byte), s.ctl.finished? q.val i.toNat = some (x, stOK, d) → entNorec x.entry = true →
      entOpcode x.entry ≠ 0x05 → Completes (.completion q i) s (fun t =>
    t.ctl.instOf q.val x.serial = none
    ∧ (∀ m, entSetm x.entry = some m → (m, x.serial) ∈ (s.ctl.que q.val).namer → (t.ctl.que q.val).marks.getLsbD m = true)
    ∧ (t.ctl.que q.val).head = (s.ctl.que q.val).head ∧ (∀ p, p ≠ q.val → t.ctl.que p = s.ctl.que p) ∧ Keeps s t))
  ∧ (∀ (q : Fin 16384) (i : BitVec 32) (s u : State) (x : QInst) (st d : Byte), s.ctl.finished? q.val i.toNat = some (x, st, d) → st ≠ stOK →
      entCont x.entry = false → bitOf x.flags 8 = false → (u.ctl.que q.val).st = .running →
      s.writeRecord q.val x.index (recordOf q.val (s.ctl.queSize q.val) (leAt x.entry 0 1) x.index st d x.flags x.count x.info) = .ok u →
      Completes (.completion q i) s (fun t =>
    t.mem = u.mem ∧ t.ctl.instOf q.val x.serial = none ∧ (t.ctl.que q.val).stopStatus = st ∧ (t.ctl.que q.val).stopDetail = d
    ∧ (t.ctl.que q.val).stopIndex = x.index ∧ (t.ctl.que q.val).st ≠ .running ∧ (∀ p, p ≠ q.val → t.ctl.que p = u.ctl.que p)))
  ∧ (∀ (q : Fin 16384) (i : BitVec 32) (s u : State) (x : QInst) (st d rs rd : Byte), s.ctl.finished? q.val i.toNat = some (x, st, d) → x.index = i.toNat →
      bitOf x.flags 8 = false → (st = stOK → entNorec x.entry = false) → rs ≠ stRETRY → (u.ctl.que q.val).st = .running →
      s.writeRecord q.val x.index (recordOf q.val (s.ctl.queSize q.val) (leAt x.entry 0 1) x.index st d x.flags x.count x.info) = .fail u rs rd →
      Completes (.recordFail q i) s (fun t =>
    t.mem = u.mem ∧ t.ctl.instOf q.val x.serial = none ∧ (t.ctl.que q.val).stopStatus = rs ∧ (t.ctl.que q.val).stopDetail = dRECORDFAIL
    ∧ (t.ctl.que q.val).st ≠ .running ∧ u.ctl.evseq < t.ctl.evseq))
  ∧ (∀ (q : Fin 16384) (i : BitVec 32) (s : State) (x : QInst),
      s.ctl.inst? q.val i.toNat (fun y => decide (s.ctl.rd Reg.straggler ≤ s.ctl.now - y.since)) = some x → x.phase = .issued → x.step = stepWaits →
      Completes (.requestStateTimeout q i) s (fun t => JustInst s t q.val (x.finish stBUSY dNONE)))
  ∧ (∀ (q : Fin 16384) (i : BitVec 32) (s : State) (x : QInst) (st d : Byte) (at0 : Nat), s.ctl.inst? q.val i.toNat (fun y => y.retry.isSome) = some x → x.retry = some (st, d, at0) →
      s.ctl.retryLimit q.val x ≤ s.ctl.now - at0 → Completes (.internalRetry q i) s (fun t => JustInst s t q.val (x.finish st d)))
  ∧ (∀ (q : Fin 16384) (i : BitVec 32) (s : State) (x : QInst) (st d : Byte) (at0 : Nat), s.ctl.inst? q.val i.toNat (fun y => y.retry.isSome) = some x → x.retry = some (st, d, at0) →
      s.ctl.now - at0 < s.ctl.retryLimit q.val x → x.phase = .issued → s.ctl.rd Reg.glbState = 3 → Completes (.internalRetry q i) s (fun t => JustInst s t q.val (x.finish stBUSY dNONE)))
  ∧ (∀ (q : Fin 16384) (i : BitVec 32) (s u : State) (x y : QInst) (fl : Nat) (st d : Byte) (at0 : Nat), s.ctl.inst? q.val i.toNat (fun z => z.retry.isSome) = some x →
      x.retry = some (st, d, at0) → s.ctl.now - at0 < s.ctl.retryLimit q.val x → x.phase = .issued → s.ctl.rd Reg.glbState ≠ 3 →
      (actOf q.val x).run { s := s, fl := x.flags } = .ok (y, { s := u, fl := fl }) → (u.ctl.instOf q.val y.serial).isSome = true → Completes (.internalRetry q i) s (fun t =>
    t.mem = u.mem ∧ t.ctl.instOf q.val y.serial = some { y with flags := fl, retry := none } ∧ (∀ p, p ≠ q.val → t.ctl.que p = u.ctl.que p)
    ∧ Only u t (fun c => { c with ques := t.ctl.ques })))

/-- Voxhal's control instructions (R255-R264, R267, R268): each completes with its effect on marks, counters, its queue, a doorbell,
the Tap, the tier map or a published version, and nothing else changes.
Choices and readings of the model in it: log entries 18 and 121. -/
def Obligations.ControlInstructions : Prop :=
  (∀ (q : Fin 16384) (i : BitVec 32) (s : State) (x : QInst), Issued s q.val i.toNat 0x00 x → Completes (.nop q i) s (fun t => JustInst s t q.val x.ok))
  ∧ (∀ (q : Fin 16384) (i : BitVec 32) (s : State) (x : QInst), Issued s q.val i.toNat 0x03 x → Completes (.fenceInstr q i) s (fun t => JustInst s t q.val x.ok))
  ∧ (∀ (q : Fin 16384) (i : BitVec 32) (s : State) (x : QInst), Issued s q.val i.toNat 0x05 x → Completes (.halt q i) s (fun t => JustInst s t q.val x.ok))
  ∧ (∀ (q : Fin 16384) (i : BitVec 32) (s : State) (x : QInst),
      let w := s.ctl.rd (Reg.queBay q.val)
      let v := (s.ctl.counter (s.ctl.rd (Reg.winFirst w) + field (entA x.entry) 0 20)).toNat
      Issued s q.val i.toNat 0x01 x → field (entA x.entry) 0 20 < s.ctl.rd (Reg.winCount w) → Completes (.wait q i) s (fun t =>
        JustInst s t q.val (if entB x.entry ≤ v then { x with info := v }.ok else { x with phase := .running })))
  ∧ (∀ (q : Fin 16384) (i : BitVec 32) (s : State) (x : QInst), Issued s q.val i.toNat 0x01 x →
      s.ctl.rd (Reg.winCount (s.ctl.rd (Reg.queBay q.val))) ≤ field (entA x.entry) 0 20 →
      Completes (.wait q i) s (fun t => JustInst s t q.val (x.finish stACCESS dCTRRANGE)))
  ∧ (∀ (q : Fin 16384) (i : BitVec 32) (s : State) (x : QInst),
      let w := s.ctl.rd (Reg.queBay q.val)
      let v := (s.ctl.counter (s.ctl.rd (Reg.winFirst w) + field (entA x.entry) 0 20)).toNat
      s.ctl.waiting? q.val i.toNat = some x → field (entA x.entry) 0 20 < s.ctl.rd (Reg.winCount w) → entB x.entry ≤ v →
      Completes (.waitSatisfied q i) s (fun t => JustInst s t q.val { x with info := v }.ok))
  ∧ (∀ (q : Fin 16384) (i : BitVec 32) (s : State) (x : QInst), s.ctl.waiting? q.val i.toNat = some x → s.ctl.waitLimit q.val x ≤ s.ctl.now - x.since →
      Completes (.waitExpired q i) s (fun t => JustInst s t q.val (x.finish stTIMEOUT dWAITEXPIRED)))
  ∧ (∀ (q : Fin 16384) (i : BitVec 32) (s : State) (x : QInst),
      let w := s.ctl.rd (Reg.queBay q.val)
      let n := s.ctl.rd (Reg.winFirst w) + field (entA x.entry) 0 20
      let v := min ((s.ctl.counter n).toNat + entB x.entry) (2 ^ 64 - 1)
      Issued s q.val i.toNat 0x02 x → field (entA x.entry) 0 20 < s.ctl.rd (Reg.winCount w) → Completes (.signal q i) s (fun t =>
        (t.ctl.counter n).toNat = v ∧ (∀ m, m ≠ n → t.ctl.counter m = s.ctl.counter m) ∧ InstNow s t q.val { x with info := v }.ok
        ∧ Only s t (fun c => { c with ques := t.ctl.ques, ctrs := t.ctl.ctrs })))
  ∧ (∀ (q : Fin 16384) (i : BitVec 32) (s : State) (x : QInst), Issued s q.val i.toNat 0x04 x → s.ctl.rd Reg.tapArmed = 0 → Completes (.tap q i) s (fun t =>
        InstNow s t q.val { x with info := 0 }.ok ∧ t.ctl.rd Reg.tapMissed = min (s.ctl.rd Reg.tapMissed + 1) 65535
        ∧ RegsBut [Reg.tapMissed.addr] s t ∧ Only s t (fun c => { c with ques := t.ctl.ques, regs := t.ctl.regs })))
  ∧ (∀ (q : Fin 16384) (i : BitVec 32) (s : State) (x : QInst), Issued s q.val i.toNat 0x04 x → s.ctl.rd Reg.tapArmed = 1 → s.ctl.rd (Reg.tapSrc 0) = 1 →
      Completes (.tap q i) s (fun t =>
        t.ctl.instOf q.val x.serial = some { x with info := 1 }.ok ∧ t.ctl.rd Reg.tapArmed = 0 ∧ t.ctl.rd Reg.tapSource = 0 ∧ Sent s t .tapOut
        ∧ s.ctl.evseq < t.ctl.evseq ∧ Keeps s t))
  ∧ (∀ (q : Fin 16384) (i : BitVec 32) (s : State) (x : QInst),
      let y := s.ctl.que q.val
      let d := field (entB x.entry) 0 20
      s.ctl.inst? q.val i.toNat (fun z => z.phase == .issued && entOpcode z.entry == 0x06) = some x → 1 ≤ d → d ≤ s.ctl.queSize q.val - 1 →
      y.loops.find? (fun e => e.1 == x.index) = none → y.loops.length < 4 → entCount x.entry ≠ 0 → Completes (.loop q i) s (fun t =>
        t.ctl.instOf q.val x.serial = none ∧ (t.ctl.que q.val).head = (x.index + 2 ^ 32 - d) % 2 ^ 32 ∧ (t.ctl.que q.val).fetched = []
        ∧ (x.index, 1) ∈ (t.ctl.que q.val).loops ∧ (t.ctl.que q.val).marks = y.marks ∧ (∀ p, p ≠ q.val → t.ctl.que p = s.ctl.que p)
        ∧ Only s t (fun c => { c with ques := t.ctl.ques })))
  ∧ (∀ (q : Fin 16384) (i : BitVec 32) (n : Nat) (s : State) (x : QInst),
      let y := s.ctl.que q.val
      let d := field (entB x.entry) 0 20
      s.ctl.inst? q.val i.toNat (fun z => z.phase == .issued && entOpcode z.entry == 0x06) = some x → 1 ≤ d → d ≤ s.ctl.queSize q.val - 1 →
      y.loops.find? (fun e => e.1 == x.index) = some (x.index, n) → entCount x.entry ≤ n → Completes (.loop q i) s (fun t =>
        t.ctl.instOf q.val x.serial = some { x with count := n + 1 }.ok ∧ (t.ctl.que q.val).head = y.head
        ∧ (t.ctl.que q.val).loops.find? (fun e => e.1 == x.index) = none ∧ (∀ p, p ≠ q.val → t.ctl.que p = s.ctl.que p)
        ∧ Only s t (fun c => { c with ques := t.ctl.ques })))
  ∧ (∀ (q : Fin 16384) (i : BitVec 32) (p : Nat) (s : State) (x : QInst),
      let d := (entB x.entry + 2 ^ 32 - (s.ctl.que p).tail) % 2 ^ 32
      s.ctl.inst? q.val i.toNat (fun z => z.phase == .issued && entOpcode z.entry == 0x07) = some x →
      s.ctl.slotQueue (s.ctl.rd (Reg.queBay q.val)) (field (entA x.entry) 0 6) = some p → p ≠ q.val → entB x.entry < 2 ^ 32 → (s.ctl.que p).tail < 2 ^ 32 →
      0 < d → d < 2 ^ 31 → d ≤ ((s.ctl.que p).head + s.ctl.queSize p + 2 ^ 32 - (s.ctl.que p).tail) % 2 ^ 32 → Completes (.post q i) s (fun t =>
        t.ctl.que p = { s.ctl.que p with tail := entB x.entry } ∧ t.ctl.instOf q.val x.serial = some { x with info := entB x.entry }.ok
        ∧ (∀ m, m ≠ p → m ≠ q.val → t.ctl.que m = s.ctl.que m) ∧ Only s t (fun c => { c with ques := t.ctl.ques })))
  ∧ (∀ (q : Fin 16384) (i : BitVec 32) (k : Nat) (s : State) (x : QInst),
      let b := (s.ctl.queCtx q.val).1
      let r := field (entA x.entry) 0 16
      let v := field (entB x.entry) 0 32
      Issued s q.val i.toNat 0x13 x → (s.ctl.bay b).cur.bind (·.classOf (s.ctl.queCtx q.val).2) = some k → (s.ctl.bay b).halted = false →
      s.ctl.regionOk b k r rightP = true → v = (s.ctl.rd (Reg.regionVersion r) + 1) % 2 ^ 32 → Completes (.publishInstr q i) s (fun t =>
        t.ctl.rd (Reg.regionVersion r) = v ∧ t.ctl.rd (Reg.regionLastEp r) = (s.ctl.queCtx q.val).2 ∧ InstNow s t q.val { x with info := v }.ok
        ∧ RegsBut [Reg.regionWord r 3] s t ∧ Only s t (fun c => { c with ques := t.ctl.ques, regs := t.ctl.regs })))
  ∧ (∀ (q : Fin 16384) (i : BitVec 32) (k : Nat) (s : State) (x : QInst),
      let b := (s.ctl.queCtx q.val).1
      let r := field (entA x.entry) 0 16
      Issued s q.val i.toNat 0x13 x → (s.ctl.bay b).cur.bind (·.classOf (s.ctl.queCtx q.val).2) = some k → (s.ctl.bay b).halted = false →
      s.ctl.regionOk b k r rightP = true → field (entB x.entry) 0 32 ≠ (s.ctl.rd (Reg.regionVersion r) + 1) % 2 ^ 32 → Completes (.publishInstr q i) s (fun t =>
        JustInst s t q.val ({ x with info := s.ctl.rd (Reg.regionVersion r) + s.ctl.rd (Reg.regionLastEp r) * 2 ^ 32 }.finish stCONFLICT dNONE)))
  ∧ (∀ (q : Fin 16384) (i : BitVec 32) (s : State) (x : QInst),
      let b := s.ctl.rd (Reg.queBay q.val)
      let h := s.ctl.hintRange b (entA x.entry) (entB x.entry) (field (entC x.entry) 0 3)
      Issued s q.val i.toNat 0x12 x → CleanAddr (entA x.entry) → field (entC x.entry) 0 3 < 6 → bitOf (entOpf x.entry) 0 = false → Completes (.hint q i) s (fun t =>
        t.ctl.instOf q.val x.serial = some { x with count := h.2.1.length, info := h.2.2, todo := h.2.1 }.ok
        ∧ t.ctl.migQ = h.1.migQ ∧ t.ctl.tier = h.1.tier ∧ Keeps s t))

/-- Voxhal's memory instructions (R212, R265, R266, R269, R399): COPY and ZERO of no bytes complete at once, others take an INSTR
channel; STREAM clears its 2W counters and runs; a released slot's fill takes a channel; ATOMICS runs its entries in order.
Choices and readings of the model in it: log entries 14 and 121. -/
def Obligations.MemoryInstructions : Prop :=
  (∀ (q : Fin 16384) (i : BitVec 32) (s : State) (x : QInst), Issued s q.val i.toNat 0x10 x → entC x.entry = 0 →
      Completes (.copy q i) s (fun t => JustInst s t q.val x.ok))
  ∧ (∀ (q : Fin 16384) (i : BitVec 32) (s : State) (x : QInst), Issued s q.val i.toNat 0x15 x → entC x.entry = 0 →
      Completes (.zero q i) s (fun t => JustInst s t q.val x.ok))
  ∧ (∀ (q : Fin 16384) (i : BitVec 32) (k : Nat) (s : State) (x : QInst), Issued s q.val i.toNat 0x10 x → entC x.entry ≠ 0 → CleanAddr (entA x.entry) →
      CleanAddr (entB x.entry) → s.ctl.instrChans (s.ctl.queCtx q.val).1 = [k] → (s.ctl.chan k).st = .idle → (s.ctl.chan k).serve = none →
      Completes (.copy q i) s (fun t =>
        InstNow s t q.val { x with phase := .running } ∧ t.ctl.chan k = { s.ctl.chan k with st := .running, serve := some (q.val, x.serial) }
        ∧ (∀ j, j ≠ k → t.ctl.chan j = s.ctl.chan j) ∧ Only s t (fun c => { c with ques := t.ctl.ques, chans := t.ctl.chans })))
  ∧ (∀ (q : Fin 16384) (i : BitVec 32) (k : Nat) (s : State) (x : QInst), Issued s q.val i.toNat 0x15 x → entC x.entry ≠ 0 → CleanAddr (entA x.entry) →
      s.ctl.instrChans (s.ctl.queCtx q.val).1 = [k] → (s.ctl.chan k).st = .idle → (s.ctl.chan k).serve = none →
      Completes (.zero q i) s (fun t =>
        InstNow s t q.val { x with phase := .running } ∧ t.ctl.chan k = { s.ctl.chan k with st := .running, serve := some (q.val, x.serial) }
        ∧ (∀ j, j ≠ k → t.ctl.chan j = s.ctl.chan j) ∧ Only s t (fun c => { c with ques := t.ctl.ques, chans := t.ctl.chans })))
  ∧ (∀ (q : Fin 16384) (i : BitVec 32) (s : State) (x : QInst), Issued s q.val i.toNat 0x10 x → entC x.entry ≠ 0 → CleanAddr (entA x.entry) →
      CleanAddr (entB x.entry) → s.ctl.instrChans (s.ctl.queCtx q.val).1 = [] → Completes (.copy q i) s (fun t => JustInst s t q.val (x.finish stBUSY dNONE)))
  ∧ (∀ (q : Fin 16384) (i : BitVec 32) (s : State) (x : QInst) (p : List Byte),
      let b := (s.ctl.queCtx q.val).1
      let w := leAt p 0 2
      let sz := leAt p 8 8
      Issued s q.val i.toNat 0x11 x → Params s q.val x 64 p → 1 ≤ w → w ≤ 64 → 1 ≤ leAt p 2 2 → leAt p 2 2 ≤ 4095 → 1 ≤ leAt p 4 4 → leAt p 4 4 ≤ 65535 →
      65536 ≤ sz → sz ≤ 2 ^ 30 → sz % 65536 = 0 → CleanAddr (leAt p 16 8) → leAt p 16 8 % 65536 = 0 → CleanAddr (leAt p 32 8) → leAt p 40 24 = 0 →
      leAt p 24 4 + w ≤ s.ctl.rd (Reg.winCount b) → leAt p 28 4 + w ≤ s.ctl.rd (Reg.winCount b) → Completes (.stream q i) s (fun t =>
        (∃ y, t.ctl.instOf q.val x.serial = some y ∧ y.phase = .running ∧ y.step = 0 ∧ y.waitFrom = s.ctl.now ∧ y.flags = x.flags ∧ y.pos = x.pos)
        ∧ (∀ j, j < w → t.ctl.counter (s.ctl.rd (Reg.winFirst b) + leAt p 24 4 + j) = 0 ∧ t.ctl.counter (s.ctl.rd (Reg.winFirst b) + leAt p 28 4 + j) = 0)
        ∧ t.ctl.chans = s.ctl.chans ∧ Keeps s t))
  ∧ (∀ (q : Fin 16384) (i : BitVec 32) (k : Nat) (s : State) (x : QInst), s.ctl.streaming? q.val i.toNat = some x → s.ctl.released q.val x = true →
      s.ctl.instrChans (s.ctl.rd (Reg.queBay q.val)) = [k] → (s.ctl.chan k).st = .idle → (s.ctl.chan k).serve = none → Completes (.streamFill q i) s (fun t =>
        InstNow s t q.val { x with step := 1, retry := none } ∧ t.ctl.chan k = { s.ctl.chan k with st := .running, serve := some (q.val, x.serial) }
        ∧ (∀ j, j ≠ k → t.ctl.chan j = s.ctl.chan j) ∧ Only s t (fun c => { c with ques := t.ctl.ques, chans := t.ctl.chans })))
  ∧ (∀ (q : Fin 16384) (i : BitVec 32) (s : State) (x : QInst), s.ctl.streaming? q.val i.toNat = some x → s.ctl.released q.val x = false →
      s.ctl.waitLimit q.val x ≤ s.ctl.now - x.waitFrom → Completes (.streamFillTimeout q i) s (fun t => JustInst s t q.val (x.finish stTIMEOUT dWAITEXPIRED)))
  ∧ (∀ (q : Fin 16384) (i : BitVec 32) (s s' u : State) (x : QInst) (e : List Byte) (old : Nat) (af : Byte),
      let b := s.ctl.queCtx q.val
      Issued s q.val i.toNat 0x14 x → entCount x.entry = 1 → x.pos = 0 → x.data = [] → CleanAddr (entA x.entry) → CleanAddr (entB x.entry) →
      Reads s b.1 b.2 (entA x.entry) 48 rightR e →
      (atomicEntry b.1 b.2 e).run { s := s, fl := x.flags } = .ok ((stOK, dNONE, old, af), { s := s', fl := x.flags }) →
      Writes (s'.onCtl (·.putInst q.val { x with phase := .running, data := [(1, [0, 0, old, af.toNat])] })) b.1 b.2 (entB x.entry)
        (leBytes 16 old ++ leBytes 1 af.toNat ++ leBytes 1 0 ++ zeros 6) u → (u.ctl.instOf q.val x.serial).isSome = true →
      Completes (.atomics q i) s (fun t =>
        t.ctl.instOf q.val x.serial = some { x with pos := 1, count := x.count + 1, info := 2 ^ 64 - 1, data := [] }.ok ∧ t.mem = u.mem
        ∧ t.ctl.regs = u.ctl.regs))

/-- Collectives (R256, R272, R273, R306, R308, R310): the first post opens one; a chunk of a two-phase ALLREDUCE is read out into the
request-state area, or a contribution that fails ends the collective; phase 2 writes a member's results; a straggler ends it.
Choices and readings of the model in it: log entries 25, 58, 82, 84 and 85. -/
def Obligations.CollectiveCommands : Prop :=
  (∀ (q : Fin 16384) (i : BitVec 32) (s : State) (x : QInst) (p : List Byte) (m : CMap) (g : Nat × List Nat), FirstPost s q.val i.toNat 0x20 x p m g →
      Completes (.reduce q i) s (fun t => Opened s t q.val 0x20 x p g))
  ∧ (∀ (q : Fin 16384) (i : BitVec 32) (s : State) (x : QInst) (p : List Byte) (m : CMap) (g : Nat × List Nat), FirstPost s q.val i.toNat 0x21 x p m g →
      Completes (.allreduce q i) s (fun t => Opened s t q.val 0x21 x p g))
  ∧ (∀ (q : Fin 16384) (i : BitVec 32) (s : State) (x : QInst) (p : List Byte) (m : CMap) (g : Nat × List Nat), FirstPost s q.val i.toNat 0x22 x p m g →
      Completes (.reducescatter q i) s (fun t => Opened s t q.val 0x22 x p g))
  ∧ (∀ (q : Fin 16384) (i : BitVec 32) (s : State) (x : QInst) (p : List Byte) (m : CMap) (g : Nat × List Nat), FirstPost s q.val i.toNat 0x23 x p m g →
      Completes (.allgather q i) s (fun t => Opened s t q.val 0x23 x p g))
  ∧ (∀ (q : Fin 16384) (i : BitVec 32) (s : State) (x : QInst) (p : List Byte) (m : CMap) (g : Nat × List Nat), FirstPost s q.val i.toNat 0x24 x p m g →
      Completes (.broadcast q i) s (fun t => Opened s t q.val 0x24 x p g))
  ∧ (∀ (b : Fin 4096) (g : Fin 256) (n : BitVec 32) (chunk u : Nat) (s : State) (k : Coll), s.ctl.colls = [k] → k.bay = b.val → k.group = g.val → k.seqno = n.toNat →
      k.failed = none → k.begun = true → k.twoPhase = true → chunk ∈ k.todo → s.ctl.pickUnit .crucible k.id chunk 0 = some u →
      (∀ p ∈ k.posts, ∃ c, Reads s k.bay p.ep (p.src.toNat + chunk * 1024 * elemSize k.dtype) (min 1024 (k.elems - chunk * 1024) * elemSize k.dtype) rightR c) →
      (s.ctl.nextItem .chunk).2.1 = false → Completes (.chunkReadout b g n chunk) s (fun t =>
    (∃ y, t.ctl.colls = [y] ∧ y.id = k.id ∧ chunk ∉ y.todo ∧ (y.out.find? chunk).isSome = true ∧ y.failed = none ∧ y.posts = k.posts
      ∧ (y.phase = 1 ∨ y.phase = k.phase)) ∧ s.ctl.rechecks = t.ctl.rechecks ∧ Keeps s t))
  ∧ (∀ (b : Fin 4096) (g : Fin 256) (n : BitVec 32) (chunk u : Nat) (s : State) (k : Coll) (p : CollPost) (l : List CollPost) (st d : Byte), s.ctl.colls = [k] →
      k.bay = b.val → k.group = g.val → k.seqno = n.toNat → k.failed = none → k.begun = true → chunk ∈ k.todo → s.ctl.pickUnit .crucible k.id chunk 0 = some u →
      k.posts = p :: l → st ≠ stRETRY →
      (∀ fl, (Act.read k.bay p.ep (p.src.toNat + chunk * 1024 * elemSize k.dtype) (min 1024 (k.elems - chunk * 1024) * elemSize k.dtype) rightR).run { s := s, fl := fl }
        = .error { ax := { s := s, fl := fl }, status := st, detail := d }) →
      Completes (.chunkReadout b g n chunk) s (fun t =>
    t.ctl.colls = [{ k with failed := some (st, d), todo := [], held := [] }] ∧ Keeps s t))
  ∧ (∀ (q : Fin 16384) (i : BitVec 32) (s u : State) (x : QInst) (k : Coll) (p : CollPost), s.ctl.inst? q.val i.toNat (fun y => y.phase == .running) = some x →
      entOpcode x.entry = 0x21 → s.ctl.rsaLost (s.ctl.queCtx q.val).1 = false → s.ctl.twoPhaseOf x = some (k, p) → k.begun = true → k.phase = 1 →
      Writes s k.bay p.ep p.dst.toNat (k.out.flatMap (fun e => e.2)) u → (u.ctl.instOf q.val x.serial).isSome = true → Completes (.phaseTwo q i) s (fun t =>
    t.ctl.instOf q.val x.serial = some { x with count := k.elems, info := 2 }.ok ∧ t.mem = u.mem ∧ t.ctl.regs = u.ctl.regs))
  ∧ (∀ (q : Fin 16384) (i : BitVec 32) (s : State) (x : QInst), s.ctl.inst? q.val i.toNat (fun y => y.phase == .running) = some x →
      entOpcode x.entry = 0x31 → 1 < topkSegs x.param → s.ctl.rsaLost (s.ctl.queCtx q.val).1 = true → Completes (.phaseTwo q i) s (fun t =>
    InstNow s t q.val ({ x with info := b2n x.todo.isEmpty }.finish stPOISONED dPHASELOST) ∧ RegsBut [Reg.cruCtr 4] s t
    ∧ Only s t (fun c => { c with ques := t.ctl.ques, regs := t.ctl.regs })))
  ∧ (∀ (b : Fin 4096) (g : Fin 256) (n : BitVec 32) (s : State) (k : Coll), s.ctl.colls = [k] → k.bay = b.val → k.group = g.val → k.seqno = n.toNat → k.failed = none →
      (∃ e ∈ k.members, ∀ p ∈ k.posts, p.ep ≠ e) → s.ctl.rd Reg.straggler ≤ s.ctl.now - k.openedAt → Completes (.straggler b g n) s (fun t =>
    t.ctl.colls = [{ k with failed := some (stTIMEOUT, dSTRAGGLER), todo := [], held := [] }] ∧ t.ctl.regs = s.ctl.regs ∧ Keeps s t))

/-- Instructions that run in pieces (R246, R314-R317, R320-R324, R327, Tables 10.8-10.10, 12.1): each begins with its pieces counted from
its legal block; a piece is applied; a unit leaves service.
Choices and readings of the model in it: log entries 25, 59 and 84. -/
def Obligations.PieceInstructions : Prop :=
  (∀ (q : Fin 16384) (i : BitVec 32) (s : State) (x : QInst) (p : List Byte), Issued s q.val i.toNat 0x28 x → Params s q.val x 64 p → s.ctl.inService .runner ≠ [] →
      Completes (.gather q i) s (fun t => Begun s t q.val x cleanIndexed p (fun b => pieceList (leAt b 8 8) 256)))
  ∧ (∀ (q : Fin 16384) (i : BitVec 32) (s : State) (x : QInst) (p : List Byte), Issued s q.val i.toNat 0x29 x → Params s q.val x 64 p → s.ctl.inService .runner ≠ [] →
      Completes (.scatter q i) s (fun t => Begun s t q.val x cleanIndexed p (fun b => pieceList (leAt b 8 8) 256)))
  ∧ (∀ (q : Fin 16384) (i : BitVec 32) (s : State) (x : QInst) (p : List Byte), Issued s q.val i.toNat 0x2A x → Params s q.val x 80 p → s.ctl.inService .runner ≠ [] →
      Completes (.dispatch q i) s (fun t => Begun s t q.val x (cleanExperts ++ [fixAddr 64]) p (fun _ => [0])))
  ∧ (∀ (q : Fin 16384) (i : BitVec 32) (s : State) (x : QInst) (p : List Byte), Issued s q.val i.toNat 0x2B x → Params s q.val x 80 p → s.ctl.inService .runner ≠ [] →
      s.ctl.inService .crucible ≠ [] → Completes (.combine q i) s (fun t => Begun s t q.val x cleanCombine p (fun b => pieceList (leAt b 0 4) 64)))
  ∧ (∀ (q : Fin 16384) (i : BitVec 32) (s : State) (x : QInst) (p : List Byte), Issued s q.val i.toNat 0x30 x → Params s q.val x 64 p → s.ctl.inService .riddle ≠ [] →
      Completes (.filter q i) s (fun t => Begun s t q.val x cleanFilter p (fun b => pieceList (leAt b 4 4) 4096)))
  ∧ (∀ (q : Fin 16384) (i : BitVec 32) (s : State) (x : QInst) (p : List Byte), Issued s q.val i.toNat 0x32 x → Params s q.val x 64 p → s.ctl.inService .riddle ≠ [] →
      Completes (.compact q i) s (fun t => Begun s t q.val x cleanCompact p (fun b => pieceList (leAt b 4 4) 4096)))
  ∧ (∀ (q : Fin 16384) (i : BitVec 32) (s : State) (x : QInst) (p : List Byte), Issued s q.val i.toNat 0x31 x → Params s q.val x 64 p → s.ctl.inService .riddle ≠ [] →
      leAt (cleaned cleanTopk p) 8 4 ≤ 65536 → Completes (.topk q i) s (fun t => Begun s t q.val x cleanTopk p (fun b => List.range (leAt b 4 4))))
  ∧ (∀ (q : Fin 16384) (i : BitVec 32) (s : State) (x : QInst) (p : List Byte),
      let b := cleaned cleanTopk p
      Issued s q.val i.toNat 0x31 x → Params s q.val x 64 p → s.ctl.inService .riddle ≠ [] → 65536 < leAt b 8 4 →
      s.ctl.rd (Reg.rsaPages (s.ctl.queCtx q.val).1) < (leAt b 4 4 * topkSegs b * leAt b 2 2 * 8 + 65535) / 65536 → Completes (.topk q i) s (fun t =>
    JustInst s t q.val { x.finish stBUSY dNONE with flags := if b = p then x.flags else Nat.lor x.flags crCLAMPED }))
  ∧ (∀ (q : Fin 16384) (i : BitVec 32) (u : Nat) (s w : State) (x : QInst) (idx row : List Byte),
      let c := s.ctl.queCtx q.val
      let v := s.onCtl (·.worked .runner u c.1)
      let n := leAt x.param 4 4
      s.ctl.inst? q.val i.toNat (fun x => x.phase == .running && x.todo.contains 0 && 0x28 ≤ entOpcode x.entry && entOpcode x.entry ≤ 0x32) = some x →
      entOpcode x.entry = 0x28 → x.todo = [0] → x.held = 0 → leAt x.param 8 8 = 1 → s.ctl.pickUnit .runner q.val x.index 0 = some u → leAt x.param 0 1 = 0 →
      idx.length = 4 → leNat idx < leAt x.param 16 8 → Reads v c.1 c.2 (addrPlus (leAt x.param 24 8) 0) 4 rightR idx →
      Reads v c.1 c.2 (addrPlus (leAt x.param 32 8) (leNat idx * n)) n rightR row → Writes v c.1 c.2 (addrPlus (leAt x.param 40 8) 0) row w →
      (w.ctl.instOf q.val x.serial).isSome = true → Completes (.pieceComplete q i 0) s (fun t =>
    t.ctl.instOf q.val x.serial = some { x with count := x.count + 1, todo := [] }.ok ∧ t.mem = w.mem))
  ∧ (∀ (n : Fin 64) (s : State), s.ctl.mainUp = true → (s.ctl.unit .runner n.val).st = .inService → Completes (.unitOutOfService (.runner n)) s (fun t =>
    t.ctl.unit .runner n.val = { s.ctl.unit .runner n.val with st := .failed } ∧ t.ctl.ques = s.ctl.ques ∧ Only s t (fun c => { c with units := t.ctl.units })))
  ∧ (∀ (n : Fin 32) (s : State), s.ctl.mainUp = true → (s.ctl.unit .riddle n.val).st = .inService → Completes (.unitOutOfService (.riddle n)) s (fun t =>
    t.ctl.unit .riddle n.val = { s.ctl.unit .riddle n.val with st := .failed } ∧ t.ctl.ques = s.ctl.ques ∧ Only s t (fun c => { c with units := t.ctl.units })))

/-- ATTEND (R278, R331, R337-R344, R347, R348, R353, R468): it begins with its passes counted from the legal block; a pass gives the states of
its rows; a row whose splits are done is merged and written, or kept for phase 2; a Cupola that leaves service.
Choices and readings of the model in it: log entries 25, 79 and 80. -/
def Obligations.AttentionCommands : Prop :=
  (∀ (q : Fin 16384) (i : BitVec 32) (s : State) (x : QInst) (p t qb : List Byte) (r : KvRegion),
      let c := s.ctl.queCtx q.val
      let b := cleaned (cleanAttend false) p
      let w := b ++ cleaned (cleanSeq (atSegment b)) t
      Issued s q.val i.toNat 0x40 x → bitOf (entOpf x.entry) 0 = false → Params s q.val x 96 p → atNq b = 1 → atNq w = 1 → t.length = 32 →
      Reads s c.1 c.2 (leAt b 32 8) 32 rightR t → NamesRegion s c.1 (atBase w 0) r → r.hkv = atHkv w → r.dhead = atDh w → atLen w 0 ≤ 256 * r.capb →
      s.ctl.inService .cupola ≠ [] → Reads s c.1 c.2 (leAt w 24 8) (2 * atRows w * atDh w) rightR qb → Completes (.attend q i) s (fun u =>
    (∃ y, InstNow s u q.val y ∧ y.serial = x.serial ∧ y.phase = .running ∧ y.step = 0 ∧ y.param = w ∧ y.todo = List.range (attPasses w).length
      ∧ Tab.get y.data kvNames [] = [r.index]) ∧ Only s u (fun c => { c with ques := u.ctl.ques })))
  ∧ (∀ (q : Fin 16384) (i : BitVec 32) (n u fl : Nat) (s w : State) (x : QInst) (ps : AttPass) (rows : Tab RowState),
      let c := s.ctl.queCtx q.val
      s.ctl.attending? q.val i.toNat = some x → n ∈ x.todo → (attPasses x.param)[n]? = some ps → s.ctl.pickUnit .cupola q.val x.index n = some u →
      (Act.pass c.1 c.2 x.param ps).run { s := s.onCtl (·.worked .cupola u c.1), fl := x.flags } = .ok (rows, { s := w, fl := fl }) →
      (w.ctl.nextItem .cupolaPass).2.1 = false → (w.ctl.instOf q.val x.serial).isSome = true → Completes (.passComplete q i n) s (fun t =>
    (∃ y, t.ctl.instOf q.val x.serial = some y ∧ y.phase = .running ∧ y.todo = x.todo.filter (· != n) ∧ y.rows = putAll x.rows rows ∧ y.held = x.held)
    ∧ t.mem = w.mem))
  ∧ (∀ (q : Fin 16384) (i : BitVec 32) (row : Nat) (s u : State) (x : QInst) (l : List RowState),
      let c := s.ctl.queCtx q.val
      let res := ((mergeTree l.length l).getD (RowState.start (atDh x.param))).result
      s.ctl.attending? q.val i.toNat = some x → row < atRows x.param → row ∉ Tab.get x.data 0 [] → x.rowStates row = some l → bitOf (entOpf x.entry) 0 = false →
      leAt x.param 48 8 = 0 → leAt x.param 56 8 = 0 → (Tab.get x.data 0 []).length + 1 = atRows x.param →
      Writes s c.1 c.2 (addrPlus (leAt x.param 40 8) (2 * row * atDh x.param)) (res.1.flatMap (leBytes 2)) u → (u.ctl.instOf q.val x.serial).isSome = true →
      Completes (.splitMerge q i row) s (fun t =>
    (∃ y, t.ctl.instOf q.val x.serial = some y ∧ y.phase = .finished stOK dNONE ∧ y.count = atNq x.param
      ∧ y.info = (if res.2.2.2 then 1 else 0) + (Tab.get x.data 1 []).length) ∧ t.mem = u.mem))
  ∧ (∀ (q : Fin 16384) (i : BitVec 32) (row : Nat) (s : State) (x : QInst) (l : List RowState),
      s.ctl.attending? q.val i.toNat = some x → row < atRows x.param → row ∉ Tab.get x.data 0 [] → x.rowStates row = some l → bitOf (entOpf x.entry) 0 = true →
      (Tab.get x.data 0 []).length + 1 = atRows x.param → Completes (.splitMerge q i row) s (fun t =>
    (∃ y, t.ctl.instOf q.val x.serial = some y ∧ y.phase = .running ∧ y.step = 1) ∧ (∀ p, p ≠ q.val → t.ctl.que p = s.ctl.que p) ∧ Keeps s t))
  ∧ (∀ (n : Fin 34) (s : State), s.ctl.mainUp = true → (s.ctl.unit .cupola n.val).st = .inService → Completes (.cupolaOut n) s (fun t =>
    (t.ctl.unit .cupola n.val).st = .quarantined ∧ Keeps s t))

/-- Instructions on KV regions (R359, R361, R362, R365): KVAPPEND of one position, PREFIX with nothing cached and with an insert, KVFORK.
Choices and readings of the model in it: log entries 77 and 78. -/
def Obligations.KvInstructions : Prop :=
  (∀ (q : Fin 16384) (i : BitVec 32) (s u : State) (x : QInst) (p kb vb : List Byte) (r r' : KvRegion),
      let c := s.ctl.queCtx q.val
      let b := cleaned cleanAppend p
      let pos := leAt b 8 4
      let rb := 2 * r.dhead
      let pages := insertAll [] (List.map (·.1) (kvPieces r.psize (rb / r.psize + 2) (r.kOff pos 0) rb) ++ List.map (·.1) (kvPieces r.psize (rb / r.psize + 2) (r.vOff pos 0) rb))
      let ks := u.ctl.kvSegs r' (r.kOff pos 0) kb.length
      let vs := u.ctl.kvSegs r' (r.vOff pos 0) vb.length
      let m := u.mem.writeSegs ks kb
      Issued s q.val i.toNat 0x41 x → Params s q.val x 48 p → NamesRegion s c.1 (leAt b 0 8) r → r.hkv = leAt b 16 2 → r.dhead = leAt b 18 2 → r.hkv = 1 →
      leAt b 12 4 = 1 → pos < 256 * r.capb → MayWriteRegion s c.1 c.2 r →
      pages.any (fun k => match (r.pages.find? k).bind s.ctl.kvPage? with | some g => g.ro | none => false) = false →
      s.kvPrepare c.1 r.index pages = some u → u.ctl.kvFind c.1 r.index = some r' → Reads u c.1 c.2 (addrPlus (leAt b 24 8) 0) rb rightR kb →
      u.mem.writeBlocked ks = false → Reads { u with mem := m } c.1 c.2 (addrPlus (leAt b 32 8) 0) rb rightR vb → m.writeBlocked vs = false →
      (u.ctl.instOf q.val x.serial).isSome = true → Completes (.kvappend q i) s (fun t =>
    t.mem = m.writeSegs vs vb ∧ t.ctl.kvRegions = u.ctl.kvRegions
    ∧ t.ctl.instOf q.val x.serial = some (({ x with count := 1 }.naming [r.index]).clampedIf p b).ok))
  ∧ (∀ (q : Fin 16384) (i : BitVec 32) (s : State) (x : QInst) (p tok : List Byte) (r : KvRegion),
      let c := s.ctl.queCtx q.val
      let b := cleaned (cleanPrefix ++ [fun p => if leAt p 12 4 = 0 then fixAddr 40 p else p]) p
      let n := leAt b 8 4
      let h := s.ctl.prefixInsert c.1 r.index (slice b 32 8) tok n
      Issued s q.val i.toNat 0x42 x → Params s q.val x 48 p → leAt b 12 4 = 1 → NamesRegion s c.1 (leAt b 0 8) r → 1 ≤ n → n ≤ 256 * r.capb →
      Reads s c.1 c.2 (leAt b 24 8) (4 * (n / 256 * 256)) rightR tok → Completes (.prefixInsert q i) s (fun t =>
    t.ctl.instOf q.val x.serial = some (({ x with info := h.2 }.naming [r.index]).clampedIf p b).ok ∧ t.ctl.kvNodes = h.1.kvNodes
    ∧ t.ctl.kvBlocks = h.1.kvBlocks ∧ t.ctl.kvRegions = s.ctl.kvRegions ∧ Keeps s t))
  ∧ (∀ (q : Fin 16384) (i : BitVec 32) (s : State) (x : QInst) (p tok : List Byte) (r : KvRegion),
      let c := s.ctl.queCtx q.val
      let b := cleaned (cleanPrefix ++ [fun p => if leAt p 12 4 = 0 then fixAddr 40 p else p]) p
      let n := leAt b 8 4
      Issued s q.val i.toNat 0x42 x → Params s q.val x 48 p → leAt b 12 4 = 0 → NamesRegion s c.1 (leAt b 0 8) r → 1 ≤ n → n ≤ 256 * r.capb →
      Reads s c.1 c.2 (leAt b 24 8) (4 * (n / 16 * 16)) rightR tok → MayWriteRegion s c.1 c.2 r →
      s.ctl.matchKeys r (s.ctl.kvDomain c.1) (keysOf (slice b 32 8) tok n) = [] → Completes (.prefixLookup q i) s (fun t =>
    InstNow s t q.val (({ x with count := 0 }.naming [r.index]).clampedIf p b).ok ∧ RegsBut [] s t
    ∧ Only s t (fun c => { c with ques := t.ctl.ques, regs := t.ctl.regs })))
  ∧ (∀ (q : Fin 16384) (i : BitVec 32) (s u : State) (x : QInst) (p : List Byte) (a d : KvRegion) (out : Shared),
      let c := s.ctl.queCtx q.val
      let b := cleaned cleanFork p
      Issued s q.val i.toNat 0x43 x → Params s q.val x 48 p → s.ctl.rd (Reg.kvsFork c.1) = 1 → NamesRegion s c.1 (leAt b 0 8) a → NamesRegion s c.1 (leAt b 24 8) d →
      a.index ≠ d.index → a.hkv = d.hkv → a.dhead = d.dhead → a.page = d.page → leAt b 8 4 ≤ 256 * a.capb → leAt b 8 4 ≤ 256 * d.capb → MayWriteRegion s c.1 c.2 d →
      (Act.sharePositions c.1 c.2 d.index (leAt b 8 4) (fun k => (a.blockPages k).map (fun g => a.pages.find? g))).run
        { s := s, fl := (x.clampedIf p b).flags } = .ok (out, { s := u, fl := (x.clampedIf p b).flags }) → (u.ctl.instOf q.val x.serial).isSome = true → Completes (.kvfork q i) s (fun t =>
    t.ctl.instOf q.val x.serial = some (({ x with count := out.mapped, info := out.copied }.naming [a.index, d.index]).clampedIf p b).ok
    ∧ t.ctl.kvRegions = u.ctl.kvRegions ∧ t.ctl.kvPages = u.ctl.kvPages ∧ t.mem = u.mem))

/-- Placements and tests as instructions (R281-R284, R373-R376, R385, R392): PLACE of an image of one segment, LAUNCH, its end or timeout, PACK and UNPACK of
one block, SELFTEST of a bay's tiles.
Choices and readings of the model in it: log entry 76. -/
def Obligations.PlacementInstructions : Prop :=
  (∀ (q : Fin 16384) (i : BitVec 32) (s : State) (x : QInst) (p hd img : List Byte),
      let c := s.ctl.queCtx q.val
      let b := cleaned cleanPlace p
      let ls := rectTiles b
      let ts := ls.map s.ctl.physOf
      let v := ts.foldl State.clearTile s
      let e := slice img 64 32
      let pl : Place :=
        { bay := c.1, handle := leAt b 13 1, w := leAt b 11 1, h := leAt b 12 1, links := leAt b 14 1, entry := leAt hd 8 4, imem := leAt hd 12 4,
          tiles := ts, logical := ls, launch := none, latch := false }
      Issued s q.val i.toNat 0x51 x → Params s q.val x 32 p → s.ctl.places = [] →
      (∀ l ∈ ls, l ∈ s.ctl.bayTiles c.1 ∧ s.ctl.isClearing l = false ∧ s.ctl.tileIn (s.ctl.physOf l) = true) →
      Reads v c.1 c.2 (leAt b 0 8) 64 rightX hd → leAt hd 0 4 = 0x5452534B → cleaned cleanImage hd = hd → leAt hd 5 1 = 1 →
      Reads v c.1 c.2 (leAt b 0 8) (leAt hd 16 4) rightX img → cleaned (cleanSegment (leAt hd 16 4)) e = e → Completes (.place q i) s (fun t =>
    t.ctl.places = [pl]
    ∧ t.mem = (v.loadSegment (leAt b 11 1) ts img e).mem ∧ (∀ j ∈ ts, t.ctl.tile j = Tile.init)
    ∧ t.ctl.instOf q.val x.serial = some ({ x with count := ls.length, info := leAt b 13 1 }.clampedIf p b).ok))
  ∧ (∀ (q : Fin 16384) (i : BitVec 32) (s : State) (x : QInst) (p : Place), Issued s q.val i.toNat 0x50 x →
      s.ctl.placeOf (s.ctl.queCtx q.val).1 (field (entA x.entry) 0 4) = some p → p.launch = none → p.logical.any s.ctl.awaitsRemap = false → p.tiles.Nodup →
      Completes (.launch q i) s (fun t =>
    InstNow s t q.val { x with phase := .running }
    ∧ (∃ y ∈ t.ctl.places, y = { p with launch := some (q.val, x.serial) })
    ∧ (∀ n j, p.tiles[n]? = some j → t.ctl.tile j = Tile.launched p.entry n (BitVec.ofNat 64 (entB x.entry)))
    ∧ (∀ j, j ∉ p.tiles → t.ctl.tile j = s.ctl.tile j)
    ∧ Only s t (fun c => { c with ques := t.ctl.ques, places := t.ctl.places, tiles := t.ctl.tiles })))
  ∧ (∀ (q : Fin 16384) (i : BitVec 32) (s : State) (x : QInst) (p : Place), s.ctl.launched? q.val i.toNat = some (x, p) →
      (∀ j ∈ p.tiles, (s.ctl.tile j).run = false ∧ (s.ctl.tile j).putting = false) → Completes (.launchComplete q i) s (fun t =>
    InstNow s t q.val { x with info := s.ctl.exitCode p }.ok
    ∧ (∀ y ∈ t.ctl.places, y.bay = p.bay → y.handle = p.handle → y.launch = none) ∧ Keeps s t))
  ∧ (∀ (q : Fin 16384) (i : BitVec 32) (s : State) (x : QInst) (p : Place), s.ctl.launched? q.val i.toNat = some (x, p) → s.ctl.instOf q.val x.serial = some x →
      s.ctl.waitLimit q.val x ≤ s.ctl.now - x.since → Completes (.launchTimeout q i) s (fun t =>
    InstNow s t q.val (x.finish stTIMEOUT dNONE) ∧ (∀ j ∈ p.tiles, (t.ctl.tile j).run = false)
    ∧ (∀ y ∈ t.ctl.places, y.bay = p.bay → y.handle = p.handle → y.launch = none) ∧ Keeps s t))
  ∧ (∀ (q : Fin 16384) (i : BitVec 32) (s u : State) (x : QInst) (p eb : List Byte),
      let c := s.ctl.queCtx q.val
      let b := cleaned (cleanPack true) p
      let dt := leAt b 0 1
      let w := patWidth dt / 8
      let head := (streamHeader dt 0 1 []).length
      let blk := packBlock dt (leAt b 1 1) false ((chunksOf w 16385 eb).map leNat)
      let data := streamHeader dt 1 1 (blockOffs [blk] head) ++ blk
      Issued s q.val i.toNat 0x58 x → Params s q.val x 48 p → s.ctl.freeTiles c.1 ≠ [] → leAt b 4 4 = 1 →
      s.ctl.extCover c.1 (BitVec.ofNat 64 (leAt b 16 8)) 1 = none → Reads s c.1 c.2 (addrPlus (leAt b 8 8) 0) (16384 * w) rightR eb →
      head + blk.length ≤ leAt b 24 8 → Writes s c.1 c.2 (leAt b 16 8) data u → (u.ctl.instOf q.val x.serial).isSome = true → Completes (.pack q i) s (fun t =>
    t.mem = u.mem ∧ t.ctl.instOf q.val x.serial = some ({ x with count := data.length, info := if leAt blk 0 1 = 0 then 1 else 0 }.clampedIf p b).ok))
  ∧ (∀ (q : Fin 16384) (i : BitVec 32) (m : Nat) (s u : State) (x : QInst) (p hd ob bh blk : List Byte) (els : List Nat),
      let c := s.ctl.queCtx q.val
      let b := cleaned (cleanPack false) p
      let dt := leAt b 0 1
      let w := patWidth dt / 8
      let a := addrPlus (leAt b 8 8) (64 * leNat ob)
      let v := s.onCtl (fun k => (((((k.bumpBy (Reg.patCtr 0) 1).bumpBy (Reg.patCtr 4) blk.length).bumpBy (Reg.patCtr 5) (16384 * w)).tallyUp (64 + m / 136)).nextItem .patternBlock).2.2)
      Issued s q.val i.toNat 0x59 x → Params s q.val x 48 p → s.ctl.rechecks = [] → x.held = 0 → x.todo = [] → Tab.get x.data 0 [] = [] →
      Reads s c.1 c.2 (leAt b 8 8) 64 rightR hd → min (leAt b 4 4) (leAt hd 0 4) = 1 → 1 ≤ leAt b 24 8 / (16384 * w) →
      Reads s c.1 c.2 (addrPlus (leAt b 8 8) 64) 4 rightR ob → Reads s c.1 c.2 a 64 rightR bh → Reads s c.1 c.2 a (max 64 (min (leAt bh 4 4) (2 ^ 21))) rightR blk →
      leAt hd 4 1 = dt → expandBlock dt blk = some els → s.ctl.pickUnit .tile q.val x.index 0 = some m → (s.ctl.nextItem .patternBlock).2.1 = false →
      Writes v c.1 c.2 (addrPlus (leAt b 16 8) 0) (els.flatMap (leBytes w)) u → (u.ctl.instOf q.val x.serial).isSome = true → Completes (.unpack q i) s (fun t =>
    t.mem = u.mem ∧ t.ctl.instOf q.val x.serial = some ({ x with count := 1 }.clampedIf p b).ok))
  ∧ (∀ (q : Fin 16384) (i : BitVec 32) (s : State) (x : QInst) (p : List Byte),
      let c := s.ctl.queCtx q.val
      let b := cleaned cleanSelftest p
      let own := s.ctl.bayTiles c.1
      Issued s q.val i.toNat 0x60 x → Params s q.val x 32 p → leAt b 1 1 = 1 → Completes (.selftest q i) s (fun t =>
    (∀ l ∈ own, (l, leAt b 0 1) ∈ (t.ctl.bay c.1).tests) ∧ (t.ctl.bay c.1) = { s.ctl.bay c.1 with tests := (t.ctl.bay c.1).tests }
    ∧ InstNow s t q.val (({ x with count := (insertAll [] own).length }.clampedIf p b).finish stOK 0x3B)
    ∧ Only s t (fun k => { k with ques := t.ctl.ques, bays := t.ctl.bays })))

/-- Tiles leaving service, columns remapped, ownership (R371, R372, R374): a failed tile ends its LAUNCH; a column takes the tiles that serve, in row
order; a change of owner clears the tile first, and is refused while a placement runs on it.
Choices and readings of the model in it: log entry 75. -/
def Obligations.TileOwnership : Prop :=
  (∀ (i : Fin 272) (q : Nat) (s : State) (p : Place) (y : QInst), s.ctl.mainUp = true → (s.ctl.unit .tile i.val).st = .inService → s.ctl.runner? i.val = some p →
      Launched s p q y → Completes (.tileFail i true) s (fun t =>
    t.ctl.unit .tile i.val = { s.ctl.unit .tile i.val with st := .failed } ∧ InstNow s t q (y.finish stPOISONED dNONE) ∧ (∀ j ∈ p.tiles, (t.ctl.tile j).run = false)
    ∧ Keeps s t))
  ∧ (∀ (i : Fin 272) (s : State), s.ctl.mainUp = true → (s.ctl.unit .tile i.val).st = .inService → s.ctl.runner? i.val = none → Completes (.tileFail i false) s (fun t =>
    (t.ctl.unit .tile i.val).st = .quarantined ∧ t.ctl.tiles = s.ctl.tiles ∧ t.ctl.ques = s.ctl.ques ∧ Keeps s t))
  ∧ (∀ (d : Fin 2) (col : Fin 8) (y : Nat) (s : State), s.ctl.mainUp = true → s.ctl.failedRow d.val col.val = some y →
      (∀ p ∈ s.ctl.places, p.launch.isSome = true → ∀ l ∈ p.logical, ¬ (l / 128 = d.val ∧ l % 8 = col.val ∧ y ≤ l % 128 / 8)) → Completes (.columnRemap d col) s (fun t =>
    (∀ r : Fin 16, t.ctl.physOf (128 * d.val + 8 * r.val + col.val) = (s.ctl.columnTiles d.val col.val).getD r.val absentTile)
    ∧ s.ctl.evseq < t.ctl.evseq ∧ t.ctl.ques = s.ctl.ques ∧ Keeps s t))
  ∧ (∀ (l : Fin 256) (v : Word) (s : State), s.ctl.mainUp = true → field v.toNat 0 13 ≠ field (s.ctl.reg (0x0C001000 + 8 * l.val)).toNat 0 13 →
      (∀ p ∈ s.ctl.holders l.val, p.launch = none) → s.ctl.physOf l.val ≠ absentTile → Completes (.trsOwnWrite l v) s (fun t =>
    t.ctl.isClearing l.val = true ∧ ({ tile := l.val, own := some (BitVec.ofNat 64 (field v.toNat 0 13)) } : Clearing) ∈ t.ctl.clearing
    ∧ (∀ p ∈ t.ctl.places, l.val ∉ p.logical) ∧ Only s t (fun c => { c with clearing := t.ctl.clearing, places := t.ctl.places, mbxs := t.ctl.mbxs })))
  ∧ (∀ (l : Fin 256) (v : Word) (s : State), s.ctl.mainUp = true → field v.toNat 0 13 ≠ field (s.ctl.reg (0x0C001000 + 8 * l.val)).toNat 0 13 →
      (∃ p ∈ s.ctl.holders l.val, p.launch.isSome = true) → Completes (.trsOwnWrite l v) s (fun t =>
    t.ctl.rd Reg.trsOwnRefused = 1 ∧ OnlyRegs [Reg.trsOwnRefused.addr, Reg.wrRefused] s t))
  ∧ (∀ (l : Fin 256) (v : Word) (s : State) (x : Clearing), s.ctl.underTest l.val = false → s.ctl.clearing.find? (fun (y : Clearing) => y.tile == l.val) = some x →
      x.own = some v → s.ctl.physOf l.val ≠ absentTile → Completes (.tileCleared l) s (fun t =>
    t.ctl.reg (0x0C001000 + 8 * l.val) = v ∧ t.ctl.isClearing l.val = false ∧ t.ctl.tile (s.ctl.physOf l.val) = Tile.init
    ∧ (∀ a, a < 2 ^ 21 → t.mem.byte (scratchKey (s.ctl.physOf l.val) a) = 0)
    ∧ (∀ k, (∀ a, a < 2 ^ 21 → k ≠ scratchKey (s.ctl.physOf l.val) a) → t.mem.byte k = s.mem.byte k) ∧ RegsBut [0x0C001000 + 8 * l.val] s t))

/-- Scalar arithmetic of tiles (R378, Table 15.6): sD takes the result of sA and sB or IMM; comparisons give 1 or 0; MIN and MAX compare
signed (the model's reading, log entry 60); a shift by 64 or more gives an open value. Vector instructions of tiles (R379, Table 15.6): lane by lane; VRSUM writes lane 0 and clears the others, VBCAST gives one value to every
lane; what VCMPLT, VSEL, VCVT and VBCAST take from IMM or a condition is open (log entry 61).
Choices and readings of the model in it: log entries 3, 60, 61, 62, 67 and 68. -/
def Obligations.TileArithmetic : Prop :=
  ScalarOp .add .add (fun a b => a + b)
  ∧ ScalarOp .sub .sub (fun a b => a - b)
  ∧ ScalarOp .mul .mul (fun a b => a * b)
  ∧ ScalarOp .and .and (fun a b => a &&& b)
  ∧ ScalarOp .or .or (fun a b => a ||| b)
  ∧ ScalarOp .xor .xor (fun a b => a ^^^ b)
  ∧ ScalarOp .slt .slt (fun a b => if a.slt b then 1 else 0)
  ∧ ScalarOp .sltu .sltu (fun a b => if a.ult b then 1 else 0)
  ∧ ScalarOp .min .min (fun a b => if b.slt a then b else a)
  ∧ ScalarOp .max .max (fun a b => if a.slt b then b else a)
  ∧ ShiftOp .shl .shl (fun a n => a <<< n)
  ∧ ShiftOp .shr .shr (fun a n => a >>> n)
  ∧ ShiftOp .sar .sar (fun a n => a.sshiftRight n)
  ∧ VectorOp .vadd .vadd (fun a b _ => laneAdd a b)
  ∧ VectorOp .vsub .vsub (fun a b _ => laneSub a b)
  ∧ VectorOp .vmul .vmul (fun a b _ => laneMul a b)
  ∧ VectorOp .vmax .vmax (fun a b _ => laneMax a b)
  ∧ VectorOp .vmin .vmin (fun a b _ => laneMin a b)
  ∧ VectorOp .viadd .viadd (fun a b _ => a + b)
  ∧ VectorOp .vfma .vfma (fun a b d => laneFma a b d)
  ∧ VectorOp .vexp2 .vexp2 (fun a _ _ => toLane (exp2 a.toNat))
  ∧ VectorOp .vlog2 .vlog2 (fun a _ _ => toLane (log2Fn a.toNat))
  ∧ VectorOp .vrcp .vrcp (fun a _ _ => toLane (rcpFn a.toNat))
  ∧ VectorOp .vrsq .vrsq (fun a _ _ => toLane (rsqFn a.toNat))
  ∧ VectorOp .vcmplt .vcmplt (fun a b _ => Config.vcmpWord ((Fmt.fp32.decode a.toNat).lt (Fmt.fp32.decode b.toNat)))
  ∧ VectorOp .vsel .vsel (fun a b d => Config.vsel d a b)
  ∧ (∀ (i : Fin 272) (w : TileFields) (s : State) (p : Place), let x := s.ctl.tile i.val
      s.tileAt i.val [.vcvt] w = some p → Completes (.vcvt i w) s (fun t =>
    ∃ v, v.length = 64 ∧ TileStep s t i.val (x.setV (vfield w.d) v).next))
  ∧ (∀ (i : Fin 272) (w : TileFields) (s : State) (p : Place), let x := s.ctl.tile i.val
      s.tileAt i.val [.vrsum] w = some p → Completes (.vrsum i w) s (fun t =>
    ∃ v, TileStep s t i.val (x.setV (vfield w.d) (v :: List.replicate 63 0)).next))
  ∧ (∀ (i : Fin 272) (w : TileFields) (s : State) (p : Place), let x := s.ctl.tile i.val
      s.tileAt i.val [.vbcast] w = some p → Completes (.vbcast i w) s (fun t =>
    ∃ v, TileStep s t i.val (x.setV (vfield w.d) (List.replicate 64 v)).next))

/-- Control of tiles (R376, R378, R381, R416, Table 15.6): branches, jumps and CALL go to their target modulo IMEM; GETSYS, HALT, BAR, SLEEP,
NOP.
Choices and readings of the model in it: log entries 3 and 64. -/
def Obligations.TileControl : Prop :=
  BranchOp .beq .beq (fun a b => a == b)
  ∧ BranchOp .bne .bne (fun a b => a != b)
  ∧ BranchOp .blt .blt (fun a b => a.slt b)
  ∧ BranchOp .bge .bge (fun a b => !a.slt b)
  ∧ (∀ (i : Fin 272) (w : TileFields) (s : State) (p : Place), let x := s.ctl.tile i.val
      s.tileAt i.val [.jmp] w = some p → Completes (.jmp i w) s (fun t =>
    TileStep s t i.val { x with pc := (w.imm.setWidth 64 : Word).toNat % p.imem / 8 * 8 }))
  ∧ (∀ (i : Fin 272) (w : TileFields) (s : State) (p : Place), let x := s.ctl.tile i.val
      s.tileAt i.val [.jr] w = some p → Completes (.jr i w) s (fun t =>
    TileStep s t i.val { x with pc := (x.sreg w.a.toNat).toNat % p.imem / 8 * 8 }))
  ∧ (∀ (i : Fin 272) (w : TileFields) (s : State) (p : Place), let x := s.ctl.tile i.val
      s.tileAt i.val [.call] w = some p → Completes (.call i w) s (fun t =>
    TileStep s t i.val { x.setS w.d.toNat (BitVec.ofNat 64 (x.pc + 8)) with pc := (w.imm.setWidth 64 : Word).toNat % p.imem / 8 * 8 }))
  ∧ (∀ (i : Fin 272) (w : TileFields) (v : Nat) (s : State) (p : Place), let x := s.ctl.tile i.val
      s.tileAt i.val [.getsys] w = some p → p.sysValue x.rank w.imm.toNat = some v → Completes (.getsys i w) s (fun t =>
    TileStep s t i.val (x.setS w.d.toNat (BitVec.ofNat 64 v)).next))
  ∧ (∀ (i : Fin 272) (w : TileFields) (s : State) (p : Place), let x := s.ctl.tile i.val
      s.tileAt i.val [.getsys] w = some p → p.sysValue x.rank w.imm.toNat = none → Completes (.getsys i w) s (fun t =>
    ∃ v, TileNow s t i.val (x.setS w.d.toNat v).next ∧ Only s t (fun c => { c with tiles := t.ctl.tiles, freeCtr := t.ctl.freeCtr })))
  ∧ (∀ (i : Fin 272) (w : TileFields) (s : State) (p : Place), let x := s.ctl.tile i.val
      s.tileAt i.val [.halt] w = some p → Completes (.tileHalt i w) s (fun t =>
    TileStep s t i.val { x with run := false, exit := (x.sreg w.a.toNat).setWidth 32 }))
  ∧ (∀ (i : Fin 272) (w : TileFields) (s : State) (p : Place), let x := s.ctl.tile i.val
      s.tileAt i.val [.bar] w = some p → 
      (∀ j ∈ p.tiles, j ≠ i.val → (s.ctl.tile j).run = true → (if x.atBar then x.barCount else x.barCount + 1) ≤ (s.ctl.tile j).barCount) → Completes (.bar i w) s (fun t =>
    TileStep s t i.val { x with atBar := false, barCount := if x.atBar then x.barCount else x.barCount + 1 }.next))
  ∧ (∀ (i : Fin 272) (w : TileFields) (s : State) (p : Place), let x := s.ctl.tile i.val
      s.tileAt i.val [.bar] w = some p → 
      (∃ j ∈ p.tiles, j ≠ i.val ∧ (s.ctl.tile j).run = true ∧ (s.ctl.tile j).barCount < (if x.atBar then x.barCount else x.barCount + 1)) → Completes (.bar i w) s (fun t =>
    TileStep s t i.val { x with atBar := true, barCount := if x.atBar then x.barCount else x.barCount + 1 }))
  ∧ (∀ (i : Fin 272) (w : TileFields) (s : State) (p : Place), let x := s.ctl.tile i.val
      s.tileAt i.val [.sleep] w = some p → x.asleep = false → s.ctl.mbxs = [] → Completes (.sleep i w) s (fun t =>
    TileStep s t i.val x.next))
  ∧ (∀ (i : Fin 272) (w : TileFields) (s : State) (p : Place), let x := s.ctl.tile i.val
      s.tileAt i.val [.sleep] w = some p → x.asleep = false →
      s.ctl.mbxs.any (fun (e : Nat × Mbx) => e.2.bound == some (p.bay, p.handle)) = true → p.latch = true → Completes (.sleep i w) s (fun t =>
    TileNow s t i.val x.next ∧ (∀ y ∈ t.ctl.places, y.bay = p.bay → y.handle = p.handle → y.latch = false)
    ∧ Only s t (fun c => { c with tiles := t.ctl.tiles, places := t.ctl.places })))
  ∧ (∀ (i : Fin 272) (w : TileFields) (s : State) (p : Place), let x := s.ctl.tile i.val
      s.tileAt i.val [.sleep] w = some p → x.asleep = false →
      s.ctl.mbxs.any (fun (e : Nat × Mbx) => e.2.bound == some (p.bay, p.handle)) = true → p.latch = false → Completes (.sleep i w) s (fun t =>
    TileStep s t i.val { x with asleep := true }))
  ∧ (∀ (i : Fin 272) (w : TileFields) (s : State) (p : Place), s.tileAt i.val [.nop, .reserved] w = some p → Completes (.tileNop i w) s (fun t =>
    TileStep s t i.val (s.ctl.tile i.val).next))

/-- Loads and stores of tiles (R378, Table 15.6): the address is sA + IMM (or sA + lane × sB) modulo 2 MiB, rounded down to the access; bytes in
instruction memory are not written; no other byte of any memory changes.
Choices and readings of the model in it: log entries 63, 65 and 71. -/
def Obligations.TileMemory : Prop :=
  (∀ (i : Fin 272) (w : TileFields) (s : State) (p : Place), let x := s.ctl.tile i.val
      s.tileAt i.val [.ld] w = some p → Completes (.ld i w) s (fun t =>
    TileStep s t i.val (x.setS w.d.toNat (BitVec.ofNat 64 (leNat (s.padRead i.val (padAddr (x.sreg w.a.toNat + immOff w) (2 ^ w.sz.toNat)) (2 ^ w.sz.toNat))))).next))
  ∧ (∀ (i : Fin 272) (w : TileFields) (s : State) (p : Place), let x := s.ctl.tile i.val
      s.tileAt i.val [.st] w = some p → Completes (.st i w) s (fun t =>
    PadStored s t i.val p.imem (padAddr (x.sreg w.a.toNat + immOff w) (2 ^ w.sz.toNat)) (leBytes (2 ^ w.sz.toNat) (x.sreg w.d.toNat).toNat) x.next))
  ∧ (∀ (i : Fin 272) (w : TileFields) (s : State) (p : Place), let x := s.ctl.tile i.val
      s.tileAt i.val [.vld] w = some p → Completes (.vld i w) s (fun t =>
    TileStep s t i.val (x.setV (vfield w.d) (laneWords (s.padRead i.val (padAddr (x.sreg w.a.toNat + immOff w) 64) 256))).next))
  ∧ (∀ (i : Fin 272) (w : TileFields) (s : State) (p : Place), let x := s.ctl.tile i.val
      s.tileAt i.val [.vst] w = some p → Completes (.vst i w) s (fun t =>
    PadStored s t i.val p.imem (padAddr (x.sreg w.a.toNat + immOff w) 64) (x.vbytes (vfield w.d)) x.next))
  ∧ (∀ (i : Fin 272) (w : TileFields) (s : State) (p : Place), let x := s.ctl.tile i.val
      s.tileAt i.val [.vlds] w = some p → Completes (.vlds i w) s (fun t =>
    TileStep s t i.val (x.setV (vfield w.d)
      ((List.range 64).map (fun l => BitVec.ofNat 32 (leNat (s.padRead i.val (padAddr (laneAddr x w l) 4) 4))))).next))
  ∧ (∀ (i : Fin 272) (w : TileFields) (s : State) (p : Place), let x := s.ctl.tile i.val
      s.tileAt i.val [.vsts] w = some p → Completes (.vsts i w) s (fun t =>
    (∀ k, (∀ l, l < 64 → ∀ j, j < 4 → k ≠ scratchKey i.val ((padAddr (laneAddr x w l) 4 + j) % 2 ^ 21)) → t.mem.byte k = s.mem.byte k)
    ∧ (s.memWf → ∀ j, j < 4 → p.imem ≤ padAddr (laneAddr x w 63) 4 →
        t.mem.byte (scratchKey i.val (padAddr (laneAddr x w 63) 4 + j)) = (leBytes 4 (x.lane (vfield w.d) 63).toNat).getD j 0)
    ∧ (∀ a, a < p.imem → a < 2 ^ 21 → t.mem.byte (scratchKey i.val a) = s.mem.byte (scratchKey i.val a)) ∧ TileNow s t i.val x.next
    ∧ t = { s with mem := t.mem, ctl := { s.ctl with tiles := t.ctl.tiles, ques := t.ctl.ques } }))

/-- Matrix and Pattern instructions of tiles (R386, R387, R391, R394): the accumulator cleared, the operand buffer loaded, the products added, the
accumulator stored as FP32; a block expanded into a buffer, or its LAUNCH POISONED; a sub-tile taken from a buffer.
Choices and readings of the model in it: log entries 61, 66 and 68. -/
def Obligations.TileMatrix : Prop :=
  (∀ (i : Fin 272) (w : TileFields) (s : State) (p : Place), let x := s.ctl.tile i.val
      s.tileAt i.val [.mzero] w = some p → Completes (.mzero i w) s (fun t =>
    TileStep s t i.val (x.setAcc (afield w.d) (List.replicate 1024 0)).next))
  ∧ (∀ (i : Fin 272) (w : TileFields) (s : State) (p : Place), let x := s.ctl.tile i.val
      s.tileAt i.val [.mloadw] w = some p → Completes (.mloadw i w) s (fun t =>
    TileStep s t i.val { x with wob := s.padRead i.val (padAddr (x.sreg w.a.toNat + immOffTyped w) 64) (wobBytes (tileTypeOf w 9)) }.next))
  ∧ (∀ (i : Fin 272) (w : TileFields) (s : State) (p : Place), let x := s.ctl.tile i.val
      s.tileAt i.val [.mma] w = some p → Completes (.mma i w) s (fun t =>
    TileStep s t i.val (x.setAcc (afield w.d) ((List.range 32).flatMap (fun r => (List.range 32).map (fun c =>
      toLane (mmaElem (tileTypeOf w 9) (x.accAt (afield w.d) r c).toNat
        (operandNum (tileTypeOf w 9) ((List.range 8).flatMap (fun g => x.vbytes (vfield w.a / 8 * 8 + g))) (x.vbytes (vfield w.b)) r)
        (operandNum (tileTypeOf w 9) x.wob (x.wob.drop 2048) c)))))).next))
  ∧ (∀ (i : Fin 272) (w : TileFields) (s : State) (p : Place), let x := s.ctl.tile i.val
      s.tileAt i.val [.mstore] w = some p → w.sz = 0 → Completes (.mstore i w) s (fun t =>
    PadStored s t i.val p.imem (padAddr (x.sreg w.a.toNat + immOff w) 64)
      ((List.range 1024).flatMap (fun e => leBytes 4 (x.accAt (afield w.d) (e / 32) (e % 32)).toNat)) x.next))
  ∧ (∀ (i : Fin 272) (w : TileFields) (s : State) (p : Place), let x := s.ctl.tile i.val
      s.tileAt i.val [.psel] w = some p → (x.buf ((x.sreg w.b.toNat).toNat % 2)).src = none → Completes (.psel i w) s (fun t =>
    ∃ b, TileStep s t i.val (x.putBuf ((x.sreg w.b.toNat).toNat % 2) b).next ∧ b.ready = false ∧ b.elems = [] ∧ b.dtype = tileTypeOf w 4 ∧ b.src.isSome = true))
  ∧ (∀ (i : Fin 272) (w : TileFields) (s : State) (p : Place), let x := s.ctl.tile i.val
      s.tileAt i.val [.psel] w = some p → (x.buf ((x.sreg w.b.toNat).toNat % 2)).src.isSome = true → Completes (.psel i w) s (fun t =>
    t = s))
  ∧ (∀ (i : Fin 272) (b : Fin 2) (s : State) (p : Place) (src : List Byte) (els : List Nat), let x := s.ctl.tile i.val
      s.ctl.mainUp = true → s.ctl.tileIn i.val = true → s.ctl.runner? i.val = some p → (x.buf b.val).src = some src → (x.buf b.val).elems = [] →
      expandBlock (x.buf b.val).dtype src = some els → (s.ctl.nextItem .patternBlock).2.1 = false → Completes (.pselExpanded i b) s (fun t =>
    TileNow s t i.val (x.putBuf b.val { x.buf b.val with elems := els, src := none, ready := true }) ∧ t.ctl.ques = s.ctl.ques ∧ t.ctl.places = s.ctl.places ∧ Keeps s t))
  ∧ (∀ (i : Fin 272) (b : Fin 2) (q : Nat) (s : State) (p : Place) (y : QInst) (src : List Byte), let x := s.ctl.tile i.val
      s.ctl.mainUp = true → s.ctl.tileIn i.val = true → s.ctl.runner? i.val = some p → Launched s p q y → (x.buf b.val).src = some src → (x.buf b.val).elems = [] →
      expandBlock (x.buf b.val).dtype src = none → Completes (.pselExpanded i b) s (fun t =>
    InstNow s t q (y.finish stPOISONED dNONE) ∧ (∀ j ∈ p.tiles, (t.ctl.tile j).run = false) ∧ Keeps s t))
  ∧ (∀ (i : Fin 272) (w : TileFields) (s : State) (p : Place), let x := s.ctl.tile i.val
      s.tileAt i.val [.ptile] w = some p → (x.buf ((x.sreg w.b.toNat).toNat % 2)).ready = true → Completes (.ptile i w) s (fun t =>
    TileStep s t i.val { x with wob := subTile (x.buf ((x.sreg w.b.toNat).toNat % 2)).dtype (x.buf ((x.sreg w.b.toNat).toNat % 2)).elems (w.imm.toNat % 16) }.next))


/-- Streams and transfers of tiles (R375, R383-R385): SEND and RECV through the neighbour's queue; GET and PUT take a free tag, their transfers move
the bytes or end the LAUNCH; XWAIT, XFENCE and XSIGNAL.
Choices and readings of the model in it: log entries 69, 70 and 72. -/
def Obligations.TileTransfers : Prop :=
  (∀ (i : Fin 272) (w : TileFields) (s : State) (p : Place), let x := s.ctl.tile i.val
      s.tileAt i.val [.send] w = some p → p.peer x.rank (w.imm.toNat % 4) = none → Completes (.send i w) s (fun t =>
    TileStep s t i.val x.next))
  ∧ (∀ (i : Fin 272) (w : TileFields) (j k : Nat) (s : State) (p : Place), let x := s.ctl.tile i.val
      s.tileAt i.val [.send] w = some p → p.peer x.rank (w.imm.toNat % 4) = some (j, k) → j ≠ i.val → ((s.ctl.tile j).fifo k).length < 16 → Completes (.send i w) s (fun t =>
    t.ctl.tile j = { s.ctl.tile j with fin := setAt (s.ctl.tile j).fin k ((s.ctl.tile j).fifo k ++ [x.vreg (vfield w.a)]) } ∧ t.ctl.tile i.val = x.next
    ∧ (∀ m, m ≠ i.val → m ≠ j → t.ctl.tile m = s.ctl.tile m) ∧ Only s t (fun c => { c with tiles := t.ctl.tiles, ques := t.ctl.ques })))
  ∧ (∀ (i : Fin 272) (w : TileFields) (s : State) (p : Place), let x := s.ctl.tile i.val
      s.tileAt i.val [.recv] w = some p → p.peer x.rank (w.imm.toNat % 4) = none → Completes (.recv i w) s (fun t =>
    TileStep s t i.val (x.setV (vfield w.d) (List.replicate 64 0)).next))
  ∧ (∀ (i : Fin 272) (w : TileFields) (v : List (BitVec 32)) (l : List (List (BitVec 32))) (s : State) (p : Place), let x := s.ctl.tile i.val
      s.tileAt i.val [.recv] w = some p → (p.peer x.rank (w.imm.toNat % 4)).isSome = true → x.fifo (w.imm.toNat % 4) = v :: l → Completes (.recv i w) s (fun t =>
    TileStep s t i.val { x.setV (vfield w.d) v with fin := setAt x.fin (w.imm.toNat % 4) l }.next))
  ∧ (∀ (i : Fin 272) (w : TileFields) (g : Target) (cls : Nat) (old : Bool) (s : State) (p : Place), let x := s.ctl.tile i.val
      s.tileAt i.val [.get] w = some p → x.tags.find? (w.d.toNat % 16) = none →
      s.ctl.checkUnit (s.ctl.launchCtx p).1 (s.ctl.launchCtx p).2 (clearReserved (x.sreg w.b.toNat)) 1 (some rightR) = .pass g cls old → Completes (.get i w) s (fun t =>
    TileStep s t i.val { x with tags := x.tags.put (w.d.toNat % 16) ({ put := false, pad := (x.sreg w.a.toNat).toNat % 2 ^ 21, addr := clearReserved (x.sreg w.b.toNat), len := clampNat 1 65536 w.imm.toNat } : TileTag) }.next))
  ∧ (∀ (i : Fin 272) (w : TileFields) (g : Target) (cls : Nat) (old : Bool) (s : State) (p : Place), let x := s.ctl.tile i.val
      s.tileAt i.val [.put] w = some p → x.tags.find? (w.d.toNat % 16) = none →
      s.ctl.checkUnit (s.ctl.launchCtx p).1 (s.ctl.launchCtx p).2 (clearReserved (x.sreg w.b.toNat)) 1 (some rightW) = .pass g cls old → Completes (.put i w) s (fun t =>
    TileStep s t i.val { x with tags := x.tags.put (w.d.toNat % 16) ({ put := true, pad := (x.sreg w.a.toNat).toNat % 2 ^ 21, addr := clearReserved (x.sreg w.b.toNat), len := clampNat 1 65536 w.imm.toNat } : TileTag) }.next))
  ∧ (∀ (i : Fin 272) (k : Fin 16) (s : State) (p : Place) (g : TileTag) (b : List Byte), let x := s.ctl.tile i.val
      s.ctl.runner? i.val = some p → x.tags.find? k.val = some g → g.put = false →
      Reads s (s.ctl.launchCtx p).1 (s.ctl.launchCtx p).2 g.addr.toNat g.len rightR b → Completes (.transferDone i k stOK) s (fun t =>
    PadStored s t i.val p.imem g.pad b { x with tags := x.tags.del k.val }))
  ∧ (∀ (i : Fin 272) (k : Fin 16) (s u : State) (p : Place) (g : TileTag), let x := s.ctl.tile i.val
      s.ctl.runner? i.val = some p → x.tags.find? k.val = some g → g.put = true → (isNode g.addr && nodeOf g.addr = 0xFFF && offsetOf g.addr < 0x10000) = false →
      Writes s (s.ctl.launchCtx p).1 (s.ctl.launchCtx p).2 g.addr.toNat (s.padRead i.val g.pad g.len) u → Completes (.transferDone i k stOK) s (fun t =>
    t.mem = u.mem ∧ TileNow u t i.val { u.ctl.tile i.val with tags := (u.ctl.tile i.val).tags.del k.val } ∧ t.ctl.ques = u.ctl.ques))
  ∧ (∀ (i : Fin 272) (k : Fin 16) (q : Nat) (st : Byte) (s : State) (p : Place) (g : TileTag) (y : QInst),
      s.ctl.runner? i.val = some p → (s.ctl.tile i.val).tags.find? k.val = some g → Launched s p q y → st ≠ stOK → st ≠ stRETRY → Completes (.transferDone i k st) s (fun t =>
    InstNow s t q (y.finish st (if st = stACCESS then 0x39 else dNONE)) ∧ (∀ j ∈ p.tiles, (t.ctl.tile j).run = false) ∧ Keeps s t))
  ∧ (∀ (i : Fin 272) (w : TileFields) (s : State) (p : Place), let x := s.ctl.tile i.val
      s.tileAt i.val [.xwait] w = some p → x.tags.find? (w.d.toNat % 16) = none → Completes (.xwait i w) s (fun t =>
    TileStep s t i.val x.next))
  ∧ (∀ (i : Fin 272) (w : TileFields) (s : State) (p : Place), let x := s.ctl.tile i.val
      s.tileAt i.val [.xwait] w = some p → (x.tags.find? (w.d.toNat % 16)).isSome = true → Completes (.xwait i w) s (fun t =>
    t = s))
  ∧ (∀ (i : Fin 272) (w : TileFields) (s : State) (p : Place), let x := s.ctl.tile i.val
      s.tileAt i.val [.xfence] w = some p → x.putting = false → Completes (.xfence i w) s (fun t =>
    TileStep s t i.val x.next))
  ∧ (∀ (i : Fin 272) (w : TileFields) (g : Target) (cls : Nat) (old : Bool) (s : State) (p : Place), let x := s.ctl.tile i.val
      let b := (s.ctl.launchCtx p).1
      let n := s.ctl.rd (Reg.winFirst b) + (x.sreg w.a.toNat).toNat
      s.tileAt i.val [.xsignal] w = some p → x.putting = false → s.ctl.checkUnit b (s.ctl.launchCtx p).2 (nodeAddr 0xFFF 0) 1 none = .pass g cls old →
      (x.sreg w.a.toNat).toNat < s.ctl.rd (Reg.winCount b) → Completes (.xsignal i w) s (fun t =>
    (t.ctl.counter n).toNat = min ((s.ctl.counter n).toNat + (x.sreg w.b.toNat).toNat) (2 ^ 64 - 1) ∧ (∀ m, m ≠ n → t.ctl.counter m = s.ctl.counter m)
    ∧ TileNow s t i.val x.next ∧ Only s t (fun c => { c with tiles := t.ctl.tiles, ctrs := t.ctl.ctrs })))


/-- Ladle's chains (R400, R402-R407): a chain starts while KICK exceeds DONE; a descriptor is fetched and made legal; its elements are converted,
written and counted; the chain goes on at NEXT, ends at LAST, or stops after 65,536 descriptors; the transfer of a COPY, a ZERO or a STREAM slot
completes and frees its channel. -/
def Obligations.LadleTransfers : Prop :=
  (∀ (e : Fin 16) (ch : Fin 32) (s : State),
      let k := chanKey e.val ch.val
      let x := s.ctl.chan k
      s.ctl.chAssigned k = true → s.ctl.chChain k = true → x.st = .idle → (s.ctl.eng e.val).halted = false → s.ctl.kicked k = true → s.ctl.running = true →
      Completes (.chainStart e ch) s (fun t =>
    t.ctl.chan k = { x with st := .running, cur := x.head, steps := 1, desc := none } ∧ (∀ j, j ≠ k → t.ctl.chan j = s.ctl.chan j)
    ∧ Only s t (fun c => { c with chans := t.ctl.chans })))
  ∧ (∀ (e : Fin 16) (ch : Fin 32) (s : State) (d : List Byte),
      let k := chanKey e.val ch.val
      let x := s.ctl.chan k
      s.ctl.chAssigned k = true → s.ctl.chChain k = true → x.st = .running → x.desc = none → x.serve = none →
      Reads s (s.ctl.chBay k) (s.ctl.chEp k) x.cur.toNat 64 rightR d → Completes (.descriptorFetch e ch) s (fun t =>
    t.ctl.chan k = { x with desc := some (descClean d), clamps := if descClean d = d then x.clamps else min (2 ^ 32 - 1) (x.clamps + 1) }
    ∧ (descClean d ≠ d → (t.ctl.reg (Reg.bayClamp (s.ctl.chBay k))).toNat = min ((s.ctl.reg (Reg.bayClamp (s.ctl.chBay k))).toNat + 1) (2 ^ 64 - 1))
    ∧ (∀ j, j ≠ k → t.ctl.chan j = s.ctl.chan j) ∧ RegsBut (if descClean d = d then [] else [Reg.bayClamp (s.ctl.chBay k)]) s t
    ∧ Only s t (fun c => { c with chans := t.ctl.chans, regs := t.ctl.regs })))
  ∧ (∀ (e : Fin 16) (ch : Fin 32) (ci : Nat) (s u : State) (d b : List Byte),
      let k := chanKey e.val ch.val
      let x := u.ctl.chan k
      let sw := widthOf (field (leAt d 24 1) 0 3)
      let dw := widthOf (field (leAt d 24 1) 4 3)
      let fl := leAt d 26 1
      let n := leAt d 16 8
      let m := b2n (bitOf fl 1) * (n * dw) + b2n (bitOf fl 2)
      (s.ctl.chan k).st = .running → (s.ctl.chan k).serve = none → (s.ctl.chan k).desc = some d → x.steps < 65536 →
      (bitOf fl 1 = true ∨ bitOf fl 2 = true → leAt d 28 4 < s.ctl.rd (Reg.winCount (s.ctl.chBay k)) ∧ ci = s.ctl.rd (Reg.winFirst (s.ctl.chBay k)) + leAt d 28 4) →
      Reads s (s.ctl.chBay k) (s.ctl.chEp k) (leAt d 0 8) (n * sw) rightR b →
      Writes s (s.ctl.chBay k) (s.ctl.chEp k) (leAt d 8 8) (convAll sw dw (leAt d 25 1) b) u → Completes (.descriptorDone e ch) s (fun t =>
    t.mem = u.mem
    ∧ (bitOf fl 1 = true ∨ bitOf fl 2 = true → (t.ctl.counter ci).toNat = min ((u.ctl.counter ci).toNat + m) (2 ^ 64 - 1))
    ∧ (bitOf fl 1 = false → bitOf fl 2 = false → t.ctl.ctrs = u.ctl.ctrs) ∧ (∀ j, j ≠ ci → t.ctl.counter j = u.ctl.counter j)
    ∧ t.ctl.chan k = (if bitOf fl 3 then { x with st := .idle, head := BitVec.ofNat 64 (leAt d 32 8), done := x.done + 1, steps := 0, desc := none }
        else { x with cur := BitVec.ofNat 64 (leAt d 32 8), steps := x.steps + 1, desc := none })
    ∧ (t.ctl.reg (Reg.ldlCtr 0)).toNat = min ((u.ctl.reg (Reg.ldlCtr 0)).toNat + n * dw) (2 ^ 64 - 1)
    ∧ (t.ctl.reg (Reg.ldlCtr 1)).toNat = min ((u.ctl.reg (Reg.ldlCtr 1)).toNat + 1) (2 ^ 64 - 1)
    ∧ (∀ j, j ≠ k → t.ctl.chan j = u.ctl.chan j) ∧ RegsBut [Reg.ldlCtr 0, Reg.ldlCtr 1] u t
    ∧ Only u t (fun c => { c with chans := t.ctl.chans, regs := t.ctl.regs, ctrs := t.ctl.ctrs })))
  ∧ (∀ (e : Fin 16) (ch : Fin 32) (s u : State) (d b : List Byte),
      let k := chanKey e.val ch.val
      let sw := widthOf (field (leAt d 24 1) 0 3)
      let dw := widthOf (field (leAt d 24 1) 4 3)
      let fl := leAt d 26 1
      (s.ctl.chan k).st = .running → (s.ctl.chan k).serve = none → (s.ctl.chan k).desc = some d → (u.ctl.chan k).serve = none → 65536 ≤ (u.ctl.chan k).steps →
      bitOf fl 1 = false → bitOf fl 2 = false → bitOf fl 3 = false → Reads s (s.ctl.chBay k) (s.ctl.chEp k) (leAt d 0 8) (leAt d 16 8 * sw) rightR b →
      Writes s (s.ctl.chBay k) (s.ctl.chEp k) (leAt d 8 8) (convAll sw dw (leAt d 25 1) b) u → Completes (.descriptorDone e ch) s (fun t =>
    t.mem = u.mem ∧ (t.ctl.chan k).st = .stopped ∧ (t.ctl.chan k).lastStatus = stACCESS ∧ (t.ctl.chan k).lastDetail = dMALFORMED
    ∧ (t.ctl.chan k).done = (u.ctl.chan k).done ∧ u.ctl.evseq < t.ctl.evseq ∧ (∀ j, j ≠ k → t.ctl.chan j = u.ctl.chan j)))
  ∧ (∀ (e : Fin 16) (ch : Fin 32) (q m ci : Nat) (s u : State) (x : QInst) (b : List Byte),
      let k := chanKey e.val ch.val
      let bay := s.ctl.rd (Reg.queBay q)
      let own := s.ctl.rd (Reg.queOwner q)
      let n := entC x.entry
      let cnt := bitOf (entOpf x.entry) 0
      (s.ctl.chan k).st = .running → (s.ctl.chan k).serve = some (q, m) → s.ctl.instOf q m = some x → x.phase = .running →
      (entOpcode x.entry = 0x10 → Reads s bay own (clearReserved (BitVec.ofNat 64 (entA x.entry))).toNat n rightR b
        ∧ Writes s bay own (clearReserved (BitVec.ofNat 64 (entB x.entry))).toNat b u) →
      (entOpcode x.entry ≠ 0x10 → entOpcode x.entry = 0x15 ∧ Writes s bay own (clearReserved (BitVec.ofNat 64 (entA x.entry))).toNat (zeros n) u) →
      (cnt = true → entCount x.entry < s.ctl.rd (Reg.winCount bay) ∧ ci = s.ctl.rd (Reg.winFirst bay) + entCount x.entry) →
      (u.ctl.instOf q m).isSome = true → Completes (.descriptorDone e ch) s (fun t =>
    t.mem = u.mem ∧ t.ctl.instOf q m = some ({ x with count := n }.ok)
    ∧ (cnt = true → (t.ctl.counter ci).toNat = min ((u.ctl.counter ci).toNat + n) (2 ^ 64 - 1)) ∧ (cnt = false → t.ctl.ctrs = u.ctl.ctrs)
    ∧ (∀ j, j ≠ ci → t.ctl.counter j = u.ctl.counter j)
    ∧ t.ctl.chan k = { u.ctl.chan k with st := if (u.ctl.chan k).st = .running then .idle else (u.ctl.chan k).st, serve := none }
    ∧ (∀ j, j ≠ k → t.ctl.chan j = u.ctl.chan j) ∧ RegsBut [Reg.ldlCtr 0, Reg.ldlCtr 1] u t))
  ∧ (∀ (e : Fin 16) (ch : Fin 32) (q m : Nat) (s u : State) (x : QInst) (row b : List Byte),
      let k := chanKey e.val ch.val
      let bay := s.ctl.rd (Reg.queBay q)
      let own := s.ctl.rd (Reg.queOwner q)
      let p := x.param
      let w := leAt p 0 2
      let sz := leAt p 8 8
      let ci := s.ctl.rd (Reg.winFirst bay) + (leAt p 24 4 + x.pos % w)
      (s.ctl.chan k).st = .running → (s.ctl.chan k).serve = some (q, m) → s.ctl.instOf q m = some x → x.phase = .running → entOpcode x.entry = 0x11 →
      Reads s bay own (leAt p 32 8 + 16 * x.pos) 16 rightR row → CleanAddr (leAt row 0 8) → leAt row 8 8 ≤ sz →
      leAt p 24 4 + x.pos % w < s.ctl.rd (Reg.winCount bay) → Reads s bay own (leAt row 0 8) (leAt row 8 8) rightR b →
      Writes s bay own (leAt p 16 8 + x.pos % w * sz) b u → (u.ctl.instOf q m).isSome = true → Completes (.descriptorDone e ch) s (fun t =>
    t.mem = u.mem ∧ (t.ctl.counter ci).toNat = min ((u.ctl.counter ci).toNat + sz) (2 ^ 64 - 1) ∧ (∀ j, j ≠ ci → t.ctl.counter j = u.ctl.counter j)
    ∧ (∃ y, t.ctl.instOf q m = some y ∧ y.pos = x.pos + 1 ∧ y.count = x.pos + 1 ∧ y.step = 0 ∧ y.flags = x.flags
        ∧ (x.pos + 1 = leAt p 4 4 → y.phase = .finished stOK dNONE) ∧ (x.pos + 1 ≠ leAt p 4 4 → y.phase = .running ∧ y.waitFrom = u.ctl.now))
    ∧ (t.ctl.chan k).serve = none ∧ (∀ j, j ≠ k → t.ctl.chan j = u.ctl.chan j) ∧ RegsBut [Reg.ldlCtr 0, Reg.ldlCtr 1] u t))

/-- Ladle's stops and its configuration (R407-R410): a failed data access stops one channel; a bus error halts an engine, and says which channel
caused it; RESTART and RESUME; which writes of the configuration are refused. -/
def Obligations.LadleStops : Prop :=
  (∀ (e : Fin 16) (ch : Fin 32) (st dt : Byte) (s : State),
      let k := chanKey e.val ch.val
      let x := s.ctl.chan k
      x.st = .running → x.desc.isSome = true → x.serve = none → st ≠ stOK → Completes (.channelStop e ch st dt) s (fun t =>
    t.ctl.chan k = { x with st := .stopped, lastStatus := st, lastDetail := dt, desc := none } ∧ (∀ j, j ≠ k → t.ctl.chan j = s.ctl.chan j)
    ∧ (t.ctl.reg (Reg.ldlCtr 3)).toNat = min ((s.ctl.reg (Reg.ldlCtr 3)).toNat + 1) (2 ^ 64 - 1) ∧ s.ctl.evseq < t.ctl.evseq
    ∧ t.ctl.engs = s.ctl.engs ∧ t.ctl.ques = s.ctl.ques ∧ RegsBut [Reg.ldlCtr 3] s t ∧ Keeps s t))
  ∧ (∀ (e : Fin 16) (ch : Fin 32) (q n : Nat) (st dt : Byte) (s : State) (y : QInst),
      let k := chanKey e.val ch.val
      let x := s.ctl.chan k
      x.st = .running → x.serve = some (q, n) → s.ctl.instOf q n = some y → y.phase = .running → st ≠ stOK → Completes (.channelStop e ch st dt) s (fun t =>
    InstNow s t q (y.finish st dt) ∧ t.ctl.chan k = { x with st := .idle, serve := none } ∧ (∀ j, j ≠ k → t.ctl.chan j = s.ctl.chan j)
    ∧ (t.ctl.reg (Reg.ldlCtr 3)).toNat = min ((s.ctl.reg (Reg.ldlCtr 3)).toNat + 1) (2 ^ 64 - 1) ∧ RegsBut [Reg.ldlCtr 3] s t
    ∧ Only s t (fun c => { c with regs := t.ctl.regs, chans := t.ctl.chans, ques := t.ctl.ques })))
  ∧ (∀ (e : Fin 16) (ch : Fin 32) (st : Byte) (s : State),
      let k := chanKey e.val ch.val
      (s.ctl.eng e.val).halted = false → s.ctl.mainUp = true → s.ctl.chAssigned k = true → s.ctl.chChain k = true → (s.ctl.chan k).st = .running →
      (s.ctl.chan k).desc = none → (s.ctl.chan k).serve = none → st ≠ stOK → Completes (.busError e (.fetch ch st)) s (fun t =>
    t.ctl.eng e.val = { halted := true, causeValid := true, causeBay := s.ctl.chBay k, causeCh := ch.val } ∧ (t.ctl.chan k).st = .halted
    ∧ (∀ i : Fin 24, s.ctl.chAssigned (chanKey e.val i.val) = true → (s.ctl.chan (chanKey e.val i.val)).st ≠ .stopped →
        (t.ctl.chan (chanKey e.val i.val)).st = (if s.ctl.chBay (chanKey e.val i.val) = s.ctl.chBay k then .halted else .haltedByOther))
    ∧ (∀ i : Fin 24, (s.ctl.chan (chanKey e.val i.val)).st = .stopped → (t.ctl.chan (chanKey e.val i.val)).st = .stopped)
    ∧ (∀ j, j / 32 ≠ e.val → t.ctl.chan j = s.ctl.chan j) ∧ (∀ j, j ≠ e.val → t.ctl.eng j = s.ctl.eng j) ∧ s.ctl.evseq < t.ctl.evseq
    ∧ (t.ctl.reg (Reg.ldlCtr 2)).toNat = min ((s.ctl.reg (Reg.ldlCtr 2)).toNat + 1) (2 ^ 64 - 1) ∧ RegsBut [Reg.ldlCtr 2] s t ∧ Keeps s t))
  ∧ (∀ (e : Fin 16) (s : State), (s.ctl.eng e.val).halted = false → s.ctl.mainUp = true → LogRoom s → Completes (.busError e .inner) s (fun t =>
    t.ctl.eng e.val = { halted := true, causeValid := false, causeBay := 0, causeCh := 0 } ∧ Logged t (rep 0x0F 0x02 e.val)
    ∧ (∀ i : Fin 24, s.ctl.chAssigned (chanKey e.val i.val) = true → (s.ctl.chan (chanKey e.val i.val)).st ≠ .stopped →
        (t.ctl.chan (chanKey e.val i.val)).st = .haltedByOther)
    ∧ (∀ j, j / 32 ≠ e.val → t.ctl.chan j = s.ctl.chan j) ∧ s.ctl.evseq < t.ctl.evseq ∧ RegsBut [Reg.ldlCtr 2] s t ∧ Keeps s t))
  ∧ (∀ (e : Fin 16) (s : State), (s.ctl.eng e.val).halted = true → Completes (.restart e) s (fun t =>
    t.ctl.eng e.val = { s.ctl.eng e.val with halted := false } ∧ (∀ j, j ≠ e.val → t.ctl.eng j = s.ctl.eng j)
    ∧ (∀ i : Fin 24, let x := s.ctl.chan (chanKey e.val i.val)
        t.ctl.chan (chanKey e.val i.val) =
          if (x.st = .halted ∨ x.st = .haltedByOther) ∧ s.ctl.chChain (chanKey e.val i.val) = false then { x with st := .idle } else x)
    ∧ (∀ j, j / 32 ≠ e.val → t.ctl.chan j = s.ctl.chan j) ∧ Only s t (fun c => { c with engs := t.ctl.engs, chans := t.ctl.chans })))
  ∧ (∀ (e : Fin 16) (ch : Fin 32) (s : State),
      let k := chanKey e.val ch.val
      let x := s.ctl.chan k
      s.ctl.mainUp = true → (s.ctl.eng e.val).halted = false → (x.st = .stopped ∨ x.st = .halted ∨ x.st = .haltedByOther) → Completes (.ldlChResume e ch) s (fun t =>
    t.ctl.chan k = { x with st := if x.steps = 0 then .idle else .running, desc := none } ∧ (∀ j, j ≠ k → t.ctl.chan j = s.ctl.chan j)
    ∧ Only s t (fun c => { c with chans := t.ctl.chans })))
  ∧ (∀ (e : Fin 16) (ch : Fin 32) (v : Word) (s : State), s.ctl.mainUp = true → ch.val < 24 → s.ctl.rd (Reg.ldlChAssigned e.val ch.val) = 0 →
      s.ctl.rd (Reg.ldlEngExcl e.val) = 0 → Completes (.ldlChCfgWrite e ch false v) s (fun t =>
    t.ctl.rd (Reg.ldlChBay e.val ch.val) = field v.toNat 0 12 ∧ t.ctl.rd (Reg.ldlChAssigned e.val ch.val) = field v.toNat 12 1
    ∧ t.ctl.rd (Reg.ldlChMode e.val ch.val) = field v.toNat 13 1 ∧ t.ctl.rd (Reg.ldlChEp e.val ch.val) = field v.toNat 16 12
    ∧ t.ctl.rd (Reg.ldlChKick e.val ch.val) = field v.toNat 32 20 ∧ OnlyRegs [Reg.ldlChBase e.val ch.val] s t))
  ∧ (∀ (e : Fin 16) (ch : Fin 32) (v : Word) (s : State),
      let k := chanKey e.val ch.val
      s.ctl.mainUp = true → ch.val < 24 → s.ctl.rd (Reg.ldlChAssigned e.val ch.val) = 0 → Completes (.ldlChCfgWrite e ch true v) s (fun t =>
    t.ctl.chan k = { s.ctl.chan k with head := BitVec.ofNat 64 (v.toNat / 64 * 64) } ∧ (∀ j, j ≠ k → t.ctl.chan j = s.ctl.chan j)
    ∧ Only s t (fun c => { c with chans := t.ctl.chans })))
  ∧ (∀ (e : Fin 16) (ch : Fin 32) (h : Bool) (v : Word) (s : State), s.ctl.mainUp = true →
      (24 ≤ ch.val ∨ (s.ctl.rd (Reg.ldlChAssigned e.val ch.val) = 1 ∧ (s.ctl.bay (s.ctl.rd (Reg.ldlChBay e.val ch.val))).st ≠ .free)
        ∨ (h = false ∧ s.ctl.rd (Reg.ldlEngExcl e.val) = 1 ∧ bitOf v.toNat 12 = true ∧ field v.toNat 0 12 ≠ s.ctl.rd (Reg.ldlEngBay e.val))) →
      Completes (.ldlChCfgWrite e ch h v) s (fun t => t.ctl.rd ⟨0x0D000000, 0, 1⟩ = 1 ∧ OnlyRegs [0x0D000000, Reg.wrRefused] s t))
  ∧ (∀ (e : Fin 16) (v : Word) (s : State), s.ctl.mainUp = true →
      (bitOf v.toNat 0 = true → ∀ i : Fin 24, s.ctl.chAssigned (chanKey e.val i.val) = true → s.ctl.chBay (chanKey e.val i.val) = field v.toNat 16 12) →
      Completes (.ldlEngCfgWrite e v) s (fun t =>
    t.ctl.rd (Reg.ldlEngExcl e.val) = field v.toNat 0 1 ∧ t.ctl.rd (Reg.ldlEngBay e.val) = field v.toNat 16 12 ∧ OnlyRegs [0x0D001000 + 0x10 * e.val] s t))
  ∧ (∀ (e : Fin 16) (i : Fin 24) (v : Word) (s : State), s.ctl.mainUp = true → bitOf v.toNat 0 = true → s.ctl.chAssigned (chanKey e.val i.val) = true →
      s.ctl.chBay (chanKey e.val i.val) ≠ field v.toNat 16 12 → Completes (.ldlEngCfgWrite e v) s (fun t =>
    t.ctl.rd ⟨0x0D000000, 0, 1⟩ = 1 ∧ OnlyRegs [0x0D000000, Reg.wrRefused] s t))

/-- Mailboxes (R384, R413-R419, R437): a tile of a running placement binds and unbinds the mailbox of its LAUNCH queue's owner; the receiver of a
post acknowledges it, and so does the timeout; Jorren's services.
Choices and readings of the model in it: log entries 13, 73 and 74. -/
def Obligations.Mailboxes : Prop :=
  (∀ (i : Fin 272) (bay : Fin 4096) (s : State) (p : Place), s.ctl.mainUp = true → s.ctl.runner? i.val = some p → p.bay = bay.val → (s.ctl.tile i.val).run = true →
      Completes (.bind i bay) s (fun t =>
    t.ctl.mbx (s.ctl.launchCtx p).2 = { s.ctl.mbx (s.ctl.launchCtx p).2 with bound := some (p.bay, p.handle) }
    ∧ (∀ e, e ≠ (s.ctl.launchCtx p).2 → t.ctl.mbx e = s.ctl.mbx e) ∧ Only s t (fun c => { c with mbxs := t.ctl.mbxs })))
  ∧ (∀ (i : Fin 272) (s : State) (p : Place), s.ctl.mainUp = true → s.ctl.runner? i.val = some p → (s.ctl.tile i.val).run = true → Completes (.unbind i) s (fun t =>
    t.ctl.mbx (s.ctl.launchCtx p).2 = { s.ctl.mbx (s.ctl.launchCtx p).2 with bound := none }
    ∧ (∀ e, e ≠ (s.ctl.launchCtx p).2 → t.ctl.mbx e = s.ctl.mbx e) ∧ Only s t (fun c => { c with mbxs := t.ctl.mbxs })))
  ∧ (∀ (i : Fin 272) (e : BitVec 12) (code : BitVec 16) (s : State) (p : Place),
      let m := s.ctl.mbx e.toNat
      s.ctl.mainUp = true → s.ctl.runner? i.val = some p → (s.ctl.launchCtx p).2 = e.toNat → (s.ctl.tile i.val).run = true → m.go = true →
      m.bound = some (p.bay, p.handle) → m.bay = p.bay → Completes (.ackw (.tile i e) code) s (fun t =>
    t.ctl.mbx e.toNat = { m with go := false, ackCode := code, ackSeq := m.seq } ∧ (∀ j, j ≠ e.toNat → t.ctl.mbx j = s.ctl.mbx j)
    ∧ Only s t (fun c => { c with mbxs := t.ctl.mbxs })))
  ∧ (∀ (i : Fin 272) (e : BitVec 12) (code : BitVec 16) (s : State) (p : Place), s.ctl.mainUp = true → s.ctl.runner? i.val = some p →
      (s.ctl.launchCtx p).2 = e.toNat → (s.ctl.tile i.val).run = true → (s.ctl.mbx e.toNat).go = false → Completes (.ackw (.tile i e) code) s (fun t =>
    (t.ctl.reg (Reg.mbxCtr 3)).toNat = min ((s.ctl.reg (Reg.mbxCtr 3)).toNat + 1) (2 ^ 64 - 1) ∧ OnlyRegs [Reg.mbxCtr 3] s t))
  ∧ (∀ (e : Fin 4095) (code : BitVec 16) (s : State),
      let m := s.ctl.mbx e.val
      s.ctl.jorrenPost e.val = true → Completes (.ackw (.jorren e) code) s (fun t =>
    t.ctl.mbx e.val = { m with go := false, ackCode := code, ackSeq := m.seq } ∧ (∀ j, j ≠ e.val → t.ctl.mbx j = s.ctl.mbx j)
    ∧ Only s t (fun c => { c with mbxs := t.ctl.mbxs })))
  ∧ (∀ (e : Fin 4095) (code : BitVec 16) (s : State), s.ctl.mainUp = true → (s.ctl.mbx e.val).go = false → Completes (.ackw (.jorren e) code) s (fun t =>
    (t.ctl.reg (Reg.mbxCtr 3)).toNat = min ((s.ctl.reg (Reg.mbxCtr 3)).toNat + 1) (2 ^ 64 - 1) ∧ OnlyRegs [Reg.mbxCtr 3] s t))
  ∧ (∀ (e : Fin 4095) (s : State),
      let m := s.ctl.mbx e.val
      s.ctl.mainUp = true → m.go = true → m.since + s.ctl.rd Reg.mbxAckTimeout ≤ s.ctl.now → Completes (.mailboxTimeout e) s (fun t =>
    t.ctl.mbx e.val = { m with go := false, ackCode := 0xFFFF, ackSeq := m.seq } ∧ (∀ j, j ≠ e.val → t.ctl.mbx j = s.ctl.mbx j)
    ∧ (t.ctl.reg (Reg.mbxCtr 1)).toNat = min ((s.ctl.reg (Reg.mbxCtr 1)).toNat + 1) (2 ^ 64 - 1) ∧ RegsBut [Reg.mbxCtr 1] s t
    ∧ Only s t (fun c => { c with mbxs := t.ctl.mbxs, regs := t.ctl.regs })))
  ∧ (∀ (e : Fin 4095) (s : State),
      let m := s.ctl.mbx e.val
      s.ctl.jorrenPost e.val = true → m.service = 0x01 → Completes (.echo e) s (fun t =>
    t.ctl.mbx e.val = { m with go := false, ackCode := 0, ackSeq := m.seq } ∧ (∀ j, j ≠ e.val → t.ctl.mbx j = s.ctl.mbx j)
    ∧ Only s t (fun c => { c with mbxs := t.ctl.mbxs })))
  ∧ (∀ (e : Fin 4095) (s : State),
      let m := s.ctl.mbx e.val
      s.ctl.jorrenPost e.val = true → m.service = 0x02 → m.msg.length = 16 → Completes (.identify e) s (fun t =>
    t.ctl.mbx e.val = { m with go := false, ackCode := 0, ackSeq := m.seq, msg := (t.ctl.mbx e.val).msg }
    ∧ (t.ctl.mbx e.val).word 0 = m.word 0 ∧ (t.ctl.mbx e.val).word 1 + 2 ^ 32 * (t.ctl.mbx e.val).word 2 = (s.ctl.reg 0x00).toNat
    ∧ (t.ctl.mbx e.val).word 3 = (s.ctl.reg 0x10).toNat % 2 ^ 32 ∧ (t.ctl.mbx e.val).word 4 = s.ctl.runningSvn % 2 ^ 32
    ∧ (∀ j, 5 ≤ j → (t.ctl.mbx e.val).word j = m.word j) ∧ (∀ j, j ≠ e.val → t.ctl.mbx j = s.ctl.mbx j) ∧ Only s t (fun c => { c with mbxs := t.ctl.mbxs })))
  ∧ (∀ (e : Fin 4095) (s : State),
      let m := s.ctl.mbx e.val
      s.ctl.jorrenPost e.val = true → mbxService m.service = false → Completes (.unknown e) s (fun t =>
    t.ctl.mbx e.val = { m with go := false, ackCode := 1, ackSeq := m.seq } ∧ (∀ j, j ≠ e.val → t.ctl.mbx j = s.ctl.mbx j)
    ∧ Only s t (fun c => { c with mbxs := t.ctl.mbxs })))
  ∧ (∀ (e : Fin 4095) (s : State),
      let m := s.ctl.mbx e.val
      let off := field (m.word 1) 0 16
      let total := field (m.word 1) 16 16
      let req := (if off = 0 then [] else m.spdmReq) ++ (m.bytes.drop 8).take (min 56 (total - off))
      s.ctl.jorrenPost e.val = true → m.service = 0x10 → m.subcode = 0 → 0 < total → total ≤ 4096 → off < total → (off = 0 ∨ off = m.spdmReq.length) →
      Completes (.spdmMailbox e) s (fun t =>
    (req.length ≠ total → t.ctl.mbx e.val = { m with go := false, ackCode := 0, ackSeq := m.seq, spdmReq := req } ∧ Only s t (fun c => { c with mbxs := t.ctl.mbxs }))
    ∧ (req.length = total → (∃ r, t.ctl.mbx e.val = { m with go := false, ackCode := 0, ackSeq := m.seq, spdmReq := [], spdmRsp := r })
        ∧ (t.ctl.reg (Reg.secCtr 2)).toNat = min ((s.ctl.reg (Reg.secCtr 2)).toNat + 1) (2 ^ 64 - 1) ∧ RegsBut [Reg.secCtr 2] s t)
    ∧ (∀ j, j ≠ e.val → t.ctl.mbx j = s.ctl.mbx j) ∧ Keeps s t))
  ∧ (∀ (e : Fin 4095) (s : State),
      let m := s.ctl.mbx e.val
      let off := field (m.word 1) 0 16
      let part := (m.spdmRsp.drop off).take 56
      s.ctl.jorrenPost e.val = true → m.service = 0x10 → m.subcode = 1 → m.msg.length = 16 → off < m.spdmRsp.length → Completes (.spdmMailbox e) s (fun t =>
    t.ctl.mbx e.val = { m with go := false, ackCode := 0, ackSeq := m.seq, msg := (t.ctl.mbx e.val).msg } ∧ (t.ctl.mbx e.val).word 0 = m.word 0
    ∧ (t.ctl.mbx e.val).word 1 = off + m.spdmRsp.length % 65536 * 65536
    ∧ ((t.ctl.mbx e.val).bytes.drop 8).take part.length = part ∧ (∀ j, j ≠ e.val → t.ctl.mbx j = s.ctl.mbx j)
    ∧ Only s t (fun c => { c with mbxs := t.ctl.mbxs })))
  ∧ (∀ (e : Fin 4095) (s : State),
      let m := s.ctl.mbx e.val
      let off := field (m.word 1) 0 16
      let total := field (m.word 1) 16 16
      s.ctl.jorrenPost e.val = true → m.service = 0x10 →
      ((m.subcode = 0 ∧ (total = 0 ∨ 4096 < total ∨ total ≤ off ∨ (off ≠ 0 ∧ off ≠ m.spdmReq.length))) ∨ (m.subcode = 1 ∧ m.spdmRsp.length ≤ off) ∨ 2 ≤ m.subcode) →
      Completes (.spdmMailbox e) s (fun t =>
    t.ctl.mbx e.val = { m with go := false, ackCode := 2, ackSeq := m.seq } ∧ (∀ j, j ≠ e.val → t.ctl.mbx j = s.ctl.mbx j)
    ∧ Only s t (fun c => { c with mbxs := t.ctl.mbxs })))

/-- The shakeout of a bay (R139, R146, R245, R366, R411, R420, R425-R430, Table 17.3): RELEASE discards both maps and abandons the bay's work; quiesce empties the
trackers; clearing leaves nothing of the bay on the dies; its extents are revoked; at the end the bay is FREE and only its generation survives.
Choices and readings of the model in it: log entries 87, 88, 89 and 90. -/
def Obligations.Shakeout : Prop :=
  (∀ (b : Fin 4096) (s : State), s.ctl.mainUp = true → s.ctl.rd Reg.cmpBusy = 0 → (s.ctl.bay b.val).st = .active → s.ctl.opens = [] → s.ctl.fences = [] →
      Completes (.release b) s (fun t =>
    t.ctl.bay b.val = { s.ctl.bay b.val with st := .shakeout, cur := none, old := none, shake := some .released, shakeAt := s.ctl.now }
    ∧ (∀ d, d ≠ b.val → t.ctl.bay d = s.ctl.bay d) ∧ t.ctl.rd Reg.cmpBusy = 1 ∧ t.ctl.rd Reg.cmpErr = 0 ∧ t.ctl.rd Reg.cmpBay = b.val ∧ t.ctl.rd Reg.shakeActive = 1
    ∧ (∀ q, s.ctl.rd (Reg.queEnable q) = 1 → s.ctl.rd (Reg.queBay q) = b.val →
        (t.ctl.que q).insts = [] ∧ (t.ctl.que q).fetched = [] ∧ (t.ctl.que q).loops = [] ∧ (t.ctl.que q).head = (s.ctl.que q).head)
    ∧ (∀ p ∈ t.ctl.places, p.bay = b.val → p.launch = none)
    ∧ (∀ p ∈ s.ctl.places, p.bay = b.val → p.launch.isSome = true → ∀ j ∈ p.tiles, (t.ctl.tile j).run = false)
    ∧ t.ctl.colls = s.ctl.colls.filter (fun k => k.bay != b.val) ∧ t.ctl.rechecks = s.ctl.rechecks.filter (fun r => r.bay != b.val)
    ∧ t.ctl.exts = s.ctl.exts ∧ t.ctl.eps = s.ctl.eps ∧ RegsBut [Reg.cmpBusy.addr, Reg.shakeActive.addr, Reg.trsCtr 1] s t ∧ Keeps s t))
  ∧ (∀ (b : Fin 4096) (s : State), s.ctl.mainUp = true → s.ctl.rd Reg.cmpBusy = 0 → (s.ctl.bay b.val).st ≠ .active → s.ctl.opens = [] → Completes (.release b) s (fun t =>
    t.ctl.rd Reg.cmpErr = 7 ∧ t.ctl.rd Reg.cmpBusy = 0 ∧ OnlyRegs [Reg.cmpErr.addr] s t))
  ∧ (∀ (b : Fin 4096) (s : State), s.ctl.shaking b.val .released = true → (∀ o ∈ s.ctl.opens, o.frame.bay.toNat = b.val) → Completes (.shakeoutQuiesce b) s (fun t =>
    t.ctl.bay b.val = { s.ctl.bay b.val with shake := some .quiesced } ∧ t.ctl.opens = [] ∧ t.ctl.tracker = s.ctl.tracker.filter (fun x => x.bay != b.val)
    ∧ t.ctl.fences = s.ctl.fences.filter (fun w => w.frame.bay.toNat != b.val) ∧ t.ctl.peg = s.ctl.peg.filter (fun x => x.bay != b.val)
    ∧ (∀ l ∈ t.ctl.locks, l ∈ s.ctl.locks ∧ ∀ o ∈ s.ctl.opens, l.req ≠ o.id) ∧ (∀ d, d ≠ b.val → t.ctl.bay d = s.ctl.bay d)
    ∧ Only s t (fun c => { c with bays := t.ctl.bays, opens := t.ctl.opens, owns := t.ctl.owns, locks := t.ctl.locks, dirQ := t.ctl.dirQ, pubReads := t.ctl.pubReads, tracker := t.ctl.tracker, fences := t.ctl.fences, peg := t.ctl.peg })))
  ∧ (∀ (b : Fin 4096) (s : State), s.ctl.shaking b.val .quiesced = true → s.ctl.homeDirty = [] → s.ctl.dir = [] → Completes (.shakeoutClear b) s (fun t =>
    t.ctl.bay b.val = { s.ctl.bay b.val with shake := some .cleared, key := none, tests := [] } ∧ (∀ d, d ≠ b.val → t.ctl.bay d = s.ctl.bay d)
    ∧ (∀ p ∈ t.ctl.places, p.bay ≠ b.val) ∧ (∀ r ∈ t.ctl.kvRegions, r.bay ≠ b.val) ∧ (∀ n ∈ t.ctl.kvNodes, n.bay ≠ b.val)
    ∧ (∀ p ∈ s.ctl.places, p.bay = b.val → ∀ j ∈ p.tiles, t.ctl.tile j = Tile.init ∧ ∀ a, a < 2 ^ 21 → t.mem.byte (scratchKey j a) = 0)
    ∧ (∀ l ∈ s.ctl.bayTiles b.val, t.ctl.tile (s.ctl.physOf l) = Tile.init ∧ ∀ a, a < 2 ^ 21 → t.mem.byte (scratchKey (s.ctl.physOf l) a) = 0)
    ∧ (∀ q, s.ctl.rd (Reg.queBay q) = b.val → t.ctl.que q = Que.init) ∧ (∀ q, s.ctl.rd (Reg.queBay q) ≠ b.val → t.ctl.que q = s.ctl.que q)
    ∧ (∀ e, (((s.ctl.mbx e).go = true ∧ (s.ctl.mbx e).bay = b.val) ∨ ∃ h, (s.ctl.mbx e).bound = some (b.val, h)) → t.ctl.mbx e = Mbx.init)
    ∧ (∀ j, s.ctl.rd (Reg.winFirst b.val) ≤ j → j < s.ctl.rd (Reg.winFirst b.val) + s.ctl.rd (Reg.winCount b.val) → t.ctl.counter j = 0)
    ∧ (∀ j, ¬ (s.ctl.rd (Reg.winFirst b.val) ≤ j ∧ j < s.ctl.rd (Reg.winFirst b.val) + s.ctl.rd (Reg.winCount b.val)) → t.ctl.counter j = s.ctl.counter j)
    ∧ t.ctl.reg (Reg.bayClamp b.val) = 0 ∧ t.ctl.rsa b.val = Rsa.init
    ∧ (∀ k : Fin 512, s.ctl.rd (Reg.ldlChAssigned (k.val / 32) (k.val % 32)) = 1 → s.ctl.chBay k.val = b.val →
        t.ctl.chan k.val = { Chan.init with clamps := (s.ctl.chan k.val).clamps })
    ∧ (∀ x ∈ (s.ctl.bay b.val).tests, (b.val, x.1, x.2) ∈ t.ctl.bayTests) ∧ t.pending = s.pending))
  ∧ (∀ (b : Fin 4096) (s : State), (s.ctl.shaking b.val .cleared = true ∨ s.ctl.shaking b.val .revoked = true) →
      (∀ i ∈ s.ctl.bayExts b.val, isNode (s.ctl.ext i).base = false ∧ (s.ctl.ext i).backing = false) → Completes (.shakeoutRevoke b) s (fun t =>
    t.ctl.bay b.val = { s.ctl.bay b.val with shake := some .revoked } ∧ (∀ i ∈ s.ctl.bayExts b.val, t.ctl.ext i = Extent.init)
    ∧ (∀ i, i ∉ s.ctl.bayExts b.val → t.ctl.ext i = s.ctl.ext i) ∧ (s.ctl.bayExts b.val ≠ [] → s.ctl.evseq < t.ctl.evseq) ∧ Keeps s t))
  ∧ (∀ (b : Fin 4096) (i : Nat) (s : State), s.ctl.shaking b.val .cleared = true → s.ctl.bayExts b.val = [i] → isNode (s.ctl.ext i).base = true →
      s.ctl.isTray (nodeOf (s.ctl.ext i).base) = true → (s.ctl.ep (nodeOf (s.ctl.ext i).base)).live = true → Completes (.shakeoutRevoke b) s (fun t =>
    (t.ctl.ext i).st = .revoking ∧ (t.ctl.ext i).dropped = true ∧ (t.ctl.ext i).revAt = s.ctl.now ∧ (∃ x ∈ t.ctl.owns, x.why = .extDrop i) ∧ Keeps s t))
  ∧ (∀ (b : Fin 4096) (s : State),
      let us := min ((s.ctl.now - (s.ctl.bay b.val).shakeAt) / 100) (2 ^ 32 - 1)
      s.ctl.shaking b.val .revoked = true → (∀ e ∈ s.ctl.exts, e.2.bay = b.val → e.2.st = .empty) → Completes (.shakeoutDone b) s (fun t =>
    t.ctl.bay b.val = { BayRec.init with gen := (s.ctl.bay b.val).gen } ∧ (∀ d, d ≠ b.val → t.ctl.bay d = s.ctl.bay d) ∧ t.ctl.rd Reg.cmpBusy = 0
    ∧ t.ctl.rd Reg.shakeActive = 0 ∧ t.ctl.rd Reg.shakeBay = b.val ∧ t.ctl.rd Reg.shakeUs = us ∧ s.ctl.evseq < t.ctl.evseq
    ∧ (t.ctl.reg (Reg.secCtr 0)).toNat = min ((s.ctl.reg (Reg.secCtr 0)).toNat + 1) (2 ^ 64 - 1)
    ∧ RegsBut [Reg.cmpBusy.addr, Reg.shakeActive.addr, Reg.secCtr 0] s t ∧ Keeps s t))

/-- The error log (R448-R454, Table 18.4): the collector moves the oldest report into the ring under the next LSEQ; a batch goes to flash; health
scores halve and advisories lapse; FIRST records are cleared.
Choices and readings of the model in it: log entries 91 and 93. -/
def Obligations.ErrorLog : Prop :=
  (∀ (ctx : LogContext) (s : State) (r : Report) (l : List Report),
      let pend := s.ctl.rd (Reg.coalPending r.block r.cls)
      s.ctl.rd Reg.coresUp ≠ 0 → s.ctl.err.queue = r :: l → (s.ctl.err.wasFull = false ∨ l.length ≠ 128) → bitOf (s.ctl.rd Reg.tapMask) r.cls = false →
      Completes (.collectorDrain ctx) s (fun t =>
    t.ctl.err.queue = l ∧ t.ctl.err.lseq = s.ctl.err.lseq + 1 ∧ t.ctl.err.next = (s.ctl.ringIndex + 1) % 4096
    ∧ (∃ e, t.ctl.err.ring.find? s.ctl.ringIndex = some e ∧ e.lseq = s.ctl.err.lseq ∧ e.stamp = s.ctl.now % 2 ^ 48 ∧ e.rep = r ∧ (e.lost = true ↔ pend ≠ 0)
        ∧ e.nlost = pend ∧ e.free = s.ctl.freeF ∧ (classHasCtx r.cls = true → e.ctx = some ctx) ∧ (classHasCtx r.cls = false → r.cls ≠ 0x1F → e.ctx = none))
    ∧ (∀ i, i ≠ s.ctl.ringIndex → t.ctl.err.ring.find? i = s.ctl.err.ring.find? i) ∧ t.ctl.rd (Reg.coalPending r.block r.cls) = 0
    ∧ (2 ≤ classSev r.cls → s.ctl.evseq < t.ctl.evseq) ∧ (classSev r.cls < 2 → t.ctl.sessions = s.ctl.sessions ∧ t.ctl.evseq = s.ctl.evseq)
    ∧ RegsBut [(Reg.coalPending r.block r.cls).addr] s t ∧ Keeps s t))
  ∧ (∀ (ctx : LogContext) (s : State) (r : Report) (l : List Report), s.ctl.rd Reg.coresUp ≠ 0 → s.ctl.err.queue = r :: l → s.ctl.err.wasFull = true → l.length = 128 →
      s.ctl.rd Reg.tapMask = 0 → Completes (.collectorDrain ctx) s (fun t =>
    t.ctl.err.queue = l ∧ t.ctl.err.lseq = s.ctl.err.lseq + 2 ∧ t.ctl.err.wasFull = false ∧ t.ctl.err.coalesced = 0
    ∧ (∃ i e, t.ctl.err.ring.find? i = some e ∧ e.lseq = s.ctl.err.lseq + 1 ∧ e.rep.block = 0 ∧ e.rep.cls = 0x1E ∧ e.rep.info = BitVec.ofNat 128 (s.ctl.err.coalesced % 2 ^ 64))
    ∧ Keeps s t))
  ∧ (∀ (s : State) (z : LogEntry), s.ctl.rd Reg.coresUp ≠ 0 → (64 ≤ s.ctl.uncopied.length ∨ s.ctl.err.batchAt + 100000000 ≤ s.ctl.now) →
      (s.ctl.uncopied.take 64).getLast? = some z → Completes .flashBatch s (fun t =>
    t.ctl.err = { s.ctl.err with flash := s.ctl.trimFlash (s.ctl.err.flash ++ s.ctl.uncopied.take 64), copied := z.lseq + 1, batchAt := s.ctl.now }
    ∧ Only s t (fun c => { c with err := t.ctl.err, regs := t.ctl.regs }) ∧ RegsBut [Reg.flashBatches.addr] s t))
  ∧ (∀ s : State, s.ctl.regs.sorted = true → Completes .healthDecay s (fun t =>
    (∀ a, 0x0F040000 ≤ a → a < 0x0F100000 →
      let v := (s.ctl.reg a).toNat
      let w := (t.ctl.reg a).toNat
      field w 0 10 = field v 0 10 / 2 ∧ field w 16 10 = field v 16 10
      ∧ (bitOf w 26 = true ↔ bitOf v 26 = true ∧ s.ctl.rd Reg.hWarn ≤ 2 * (field v 0 10 / 2))
      ∧ (bitOf w 27 = true ↔ bitOf v 27 = true ∧ s.ctl.rd Reg.hReplace ≤ 2 * (field v 0 10 / 2)))
    ∧ (∀ a, ¬ (0x0F040000 ≤ a ∧ a < 0x0F100000) → t.ctl.reg a = s.ctl.reg a) ∧ Only s t (fun c => { c with regs := t.ctl.regs })))
  ∧ (∀ (v : Word) (s : State), Completes (.errFirstClr v) s (fun t =>
    (∀ k, t.ctl.err.firsts.find? k = if bitOf v.toNat 16 ∨ k = 32 * field v.toNat 0 5 + field v.toNat 8 5 then none else s.ctl.err.firsts.find? k)
    ∧ t.ctl.err = { s.ctl.err with firsts := t.ctl.err.firsts } ∧ Only s t (fun c => { c with err := t.ctl.err })))

/-- The test bar's verdicts and spare Crucibles (R466-R469): agreeing results are released with CHECKED; of three results the odd one charges its unit; where
no two agree the item is poisoned and every unit charged; without a second unit the item is released unchecked; a spare takes the place of a Crucible out
of service.
Choices and readings of the model in it: log entries 25 and 83. -/
def Obligations.TestBar : Prop :=
  (∀ (item v : Nat) (l : List Nat) (s : State) (r : Recheck) (x : QInst), s.ctl.recheck? item .cupolaPass = some r → s.ctl.checkers r = v :: l →
      s.ctl.ownerInst r = some x → Completes (.recheckResult item .cupolaPass .agree) s (fun t =>
    InstNow s t r.queue { x with rows := putAll x.rows r.rows, held := x.held - 1, flags := Nat.lor x.flags crCHECKED, retry := none }
    ∧ t.ctl.rechecks = s.ctl.rechecks.filter (fun y => !(y.item == item && y.kind == .cupolaPass))
    ∧ (t.ctl.unit .cupola v).work = (s.ctl.unit .cupola v).work + 1 ∧ (t.ctl.reg (Reg.tbrCtr 0)).toNat = min ((s.ctl.reg (Reg.tbrCtr 0)).toNat + 1) (2 ^ 64 - 1)
    ∧ RegsBut [Reg.tbrCtr 0] s t ∧ Only s t (fun c => { c with ques := t.ctl.ques, rechecks := t.ctl.rechecks, units := t.ctl.units, regs := t.ctl.regs })))
  ∧ (∀ (item a b u : Nat) (w : Fin 3) (s : State) (r : Recheck) (x : QInst), s.ctl.recheck? item .cupolaPass = some r → s.ctl.checkers r = [a, b] →
      s.ctl.ownerInst r = some x → [r.first, a, b][w.val]? = some u → LogRoom s → Completes (.recheckResult item .cupolaPass (.dissent w)) s (fun t =>
    (∃ y, t.ctl.instOf r.queue x.serial = some y ∧ y.flags = Nat.lor x.flags crCHECKED ∧ y.rows = putAll x.rows r.rows ∧ y.phase = x.phase)
    ∧ (∀ y ∈ t.ctl.rechecks, ¬ (y.item = item ∧ y.kind = .cupolaPass)) ∧ (t.ctl.unit .cupola u).mism = min 65535 ((s.ctl.unit .cupola u).mism + 1)
    ∧ Logged t (rep 0x0C 0x12 u) ∧ (t.ctl.reg (Reg.tbrCtr 1)).toNat = min ((s.ctl.reg (Reg.tbrCtr 1)).toNat + 1) (2 ^ 64 - 1) ∧ Keeps s t))
  ∧ (∀ (item a b : Nat) (s : State) (r : Recheck) (x : QInst), s.ctl.recheck? item .cupolaPass = some r → s.ctl.checkers r = [a, b] →
      s.ctl.ownerInst r = some x → LogRoom s → Completes (.recheckResult item .cupolaPass .allDiffer) s (fun t =>
    (∃ y, t.ctl.instOf r.queue x.serial = some y ∧ y.phase = .finished stPOISONED dNONE)
    ∧ (∀ y ∈ t.ctl.rechecks, ¬ (y.item = item ∧ y.kind = .cupolaPass)) ∧ (t.ctl.unit .cupola r.first).mism = min 65535 ((s.ctl.unit .cupola r.first).mism + 1)
    ∧ Logged t (rep 0x0C 0x13 r.first) ∧ (t.ctl.reg (Reg.tbrCtr 2)).toNat = min ((s.ctl.reg (Reg.tbrCtr 2)).toNat + 1) (2 ^ 64 - 1) ∧ Keeps s t))
  ∧ (∀ (item : Nat) (f : RecheckOutcome) (s : State) (r : Recheck) (x : QInst), s.ctl.recheck? item .cupolaPass = some r → s.ctl.checkers r = [] →
      s.ctl.ownerInst r = some x → Completes (.recheckResult item .cupolaPass f) s (fun t =>
    InstNow s t r.queue { x with rows := putAll x.rows r.rows, held := x.held - 1, retry := none }
    ∧ (t.ctl.reg (Reg.tbrCtr 3)).toNat = min ((s.ctl.reg (Reg.tbrCtr 3)).toNat + 1) (2 ^ 64 - 1) ∧ RegsBut [Reg.tbrCtr 3] s t
    ∧ t.ctl.rechecks = s.ctl.rechecks.filter (fun y => !(y.item == item && y.kind == .cupolaPass))
    ∧ Only s t (fun c => { c with ques := t.ctl.ques, rechecks := t.ctl.rechecks, regs := t.ctl.regs })))
  ∧ (∀ (item v : Nat) (l : List Nat) (s u : State) (r : Recheck) (x : QInst) (w : OutWrite), s.ctl.recheck? item .combinePiece = some r → s.ctl.checkers r = v :: l →
      s.ctl.ownerInst r = some x → r.outs = [w] → Writes s r.bay w.ep w.addr w.data u → (u.ctl.instOf r.queue x.serial).isSome = true →
      Completes (.recheckResult item .combinePiece .agree) s (fun t =>
    t.mem = u.mem ∧ (∀ y ∈ t.ctl.rechecks, ¬ (y.item = item ∧ y.kind = .combinePiece))
    ∧ t.ctl.instOf r.queue x.serial = some { { x with count := x.count + r.nans, held := x.held - 1 }.pieceDone r.piece with
        flags := Nat.lor x.flags crCHECKED, retry := none }))
  ∧ (∀ (item v : Nat) (l : List Nat) (s : State) (r : Recheck), s.ctl.recheck? item .patternBlock = some r → s.ctl.checkers r = v :: l →
      s.ctl.ownerInst r = none → r.outs = [] → ((s.ctl.tile r.owner).buf r.piece).src.isSome = true → Completes (.recheckResult item .patternBlock .agree) s (fun t =>
    t.ctl.tile r.owner = (s.ctl.tile r.owner).putBuf r.piece { (s.ctl.tile r.owner).buf r.piece with src := none, ready := true }
    ∧ (∀ j, j ≠ r.owner → t.ctl.tile j = s.ctl.tile j) ∧ (∀ y ∈ t.ctl.rechecks, ¬ (y.item = item ∧ y.kind = .patternBlock)) ∧ Keeps s t))
  ∧ (∀ (item a b : Nat) (s : State) (r : Recheck) (k : Coll), s.ctl.recheck? item .chunk = some r → s.ctl.checkers r = [a, b] → s.ctl.collOf r.owner = some k →
      Completes (.recheckResult item .chunk .allDiffer) s (fun t =>
    (∀ p ∈ k.posts, ∀ x, s.ctl.instOf p.queue p.serial = some x → x.phase = .running →
      ∃ y, t.ctl.instOf p.queue p.serial = some y ∧ y.phase = .finished stPOISONED dNONE)
    ∧ (∀ y ∈ t.ctl.rechecks, ¬ (y.item = item ∧ y.kind = .chunk)) ∧ (t.ctl.unit .crucible r.first).mism = min 65535 ((s.ctl.unit .crucible r.first).mism + 1) ∧ Keeps s t))
  ∧ (∀ (i : Nat) (s : State), s.ctl.mainUp = true → s.ctl.rechecks = [] → (s.ctl.inService .crucible).length < 128 → s.ctl.spareOf .crucible (List.range 136) = some i →
      LogRoom s → Completes .spareIn s (fun t =>
    t.ctl.unit .crucible i = { s.ctl.unit .crucible i with st := .inService } ∧ Logged t (rep 0x09 0x15 i)
    ∧ Only s t (fun c => { c with units := t.ctl.units, err := t.ctl.err })))

/-- Plumb (R119, R169, R420, R455-R465): beats go to the admitted endpoints; a beat, an ANSWER or a peer's report is evidence of life; silence makes a suspect; the end of the
probe window, or EVICT, retires the incarnation, after which nothing of it is held or listed as LIVE.
Choices and readings of the model in it: log entry 116. -/
def Obligations.Plumb : Prop :=
  (∀ (e k : Nat) (s : State) (d : Ctl), s.ctl.mainUp = true → s.ctl.liveList = [e] → s.ctl.pathFor 0xFFF (BitVec.ofNat 12 e).toNat 0 = some k →
      s.ctl.takeIn (portQueue (k / 4) 0) (k % 4) (beatFrame e 0 0 0 0 (s.ctl.rd Reg.plbBeat)) = some d → Completes .beatSend s (fun t =>
    t = { s with ctl := d }))
  ∧ (∀ s : State, s.ctl.mainUp = true → (∀ e, s.ctl.pathFor 0xFFF e 0 = none) → Completes .beatSend s (fun t => t = s))
  ∧ (∀ (f : Frame) (s : State),
      let x := s.ctl.ep f.src.toNat
      s.ctl.mainUp = true → f.kind = kBeat → f.dst = 0xFFF → field f.addr.toNat 0 2 ≠ 3 → field f.addr.toNat 0 2 ≠ 1 → s.ctl.liveInc f.src.toNat f.inc = true → LogRoom s →
      Completes (.beat f) s (fun t =>
    t.ctl.ep f.src.toNat = { x with lastBeat := s.ctl.now, run := 0, plumb := .alive, winAt := none, queried := [] }
    ∧ (∀ e, e ≠ f.src.toNat → t.ctl.ep e = s.ctl.ep e) ∧ (x.plumb = .suspect → Logged t (plumbRep f.src.toNat 1)) ∧ (x.plumb ≠ .suspect → t.ctl.err = s.ctl.err)
    ∧ Only s t (fun c => { c with eps := t.ctl.eps, err := t.ctl.err })))
  ∧ (∀ (g : MgmtBeat) (s : State),
      let e := g.ep.toNat
      let x := s.ctl.ep e
      s.ctl.mainUp = true → e < 0xFFF → s.ctl.rd (Reg.plbMgmt e) = 1 → g.udpPort.toNat = s.ctl.rd Reg.plbPort → g.restZero = true → g.kind.toNat ≤ 1 →
      g.srcAddr.toNat = (s.ctl.reg (Reg.plbAddrHi e)).toNat * 2 ^ 64 + (s.ctl.reg (Reg.plbAddrLo e)).toNat → s.ctl.liveInc e g.inc = true → LogRoom s → Completes (.mgmtBeat g) s (fun t =>
    t.ctl.ep e = { x with lastBeat := s.ctl.now, run := 0, plumb := .alive, winAt := none, queried := [] } ∧ (∀ j, j ≠ e → t.ctl.ep j = s.ctl.ep j)
    ∧ (x.plumb = .suspect → Logged t (plumbRep e 1)) ∧ Only s t (fun c => { c with eps := t.ctl.eps, err := t.ctl.err })))
  ∧ (∀ (f : Frame) (s : State),
      let e := field f.addr.toNat 4 12
      let x := s.ctl.ep e
      s.ctl.mainUp = true → f.kind = kBeat → f.dst = 0xFFF → field f.addr.toNat 0 2 = 3 → field f.addr.toNat 2 2 = 1 → s.ctl.liveInc f.src.toNat f.inc = true →
      x.live = true → x.inc = BitVec.ofNat 8 (field f.addr.toNat 16 8) → x.plumb = .suspect → f.src.toNat ∈ x.queried → x.run < 2 → LogRoom s →
      Completes (.peerReport f) s (fun t =>
    t.ctl.ep e = { x with lastBeat := s.ctl.now, run := x.run + 1, plumb := .alive, winAt := none, queried := [] } ∧ (∀ j, j ≠ e → t.ctl.ep j = s.ctl.ep j)
    ∧ Logged t (plumbRep e 2) ∧ (t.ctl.reg Reg.plbPeerClears).toNat = min ((s.ctl.reg Reg.plbPeerClears).toNat + 1) (2 ^ 64 - 1) ∧ RegsBut [Reg.plbPeerClears] s t
    ∧ Only s t (fun c => { c with eps := t.ctl.eps, err := t.ctl.err, regs := t.ctl.regs })))
  ∧ (∀ (e : Fin 4095) (s : State),
      let x := s.ctl.ep e.val
      let peers := (s.ctl.peersOf (s.ctl.listingBays e.val) e.val).take (s.ctl.rd Reg.plbPeers)
      s.ctl.mainUp = true → x.live = true → x.plumb = .alive → x.lastBeat + s.ctl.rd Reg.plbMiss * s.ctl.rd Reg.plbBeat ≤ s.ctl.now → LogRoom s → Completes (.suspect e) s (fun t =>
    t.ctl.ep e.val = { x with plumb := .suspect, winAt := some s.ctl.now, queried := peers } ∧ (∀ j, j ≠ e.val → t.ctl.ep j = s.ctl.ep j)
    ∧ Logged t (plumbRep e.val 0) ∧ (t.ctl.reg Reg.plbSuspects).toNat = min ((s.ctl.reg Reg.plbSuspects).toNat + 1) (2 ^ 64 - 1)
    ∧ (s.ctl.rd (Reg.plbMgmt e.val) = 1 → (s.ctl.ctlIsUp 0 = true ∨ s.ctl.ctlIsUp 1 = true) →
        Sent s t (.beat (s.ctl.reg (Reg.plbAddrHi e.val) ++ s.ctl.reg (Reg.plbAddrLo e.val)) (s.ctl.rd Reg.plbPort) e.val x.inc 2))
    ∧ SameRights { s with ctl := { s.ctl with eps := t.ctl.eps } } t ∧ Keeps s t))
  ∧ (∀ (e : Fin 4095) (w : Nat) (s : State),
      let x := s.ctl.ep e.val
      s.ctl.mainUp = true → x.live = true → x.plumb = .suspect → x.winAt = some w → w + s.ctl.rd Reg.plbProbe ≤ s.ctl.now → s.ctl.pwr.mgmtReset = false →
      s.ctl.opens = [] → s.ctl.owns = [] → s.ctl.doms = [] → s.ctl.colls = [] → s.ctl.chans = [] → s.ctl.isTray e.val = false → Completes (.deadVerdict e) s (fun t =>
    Retired s t e.val 1 ∧ (t.ctl.reg Reg.plbDead).toNat = min ((s.ctl.reg Reg.plbDead).toNat + 1) (2 ^ 64 - 1) ∧ Keeps s t))
  ∧ (∀ (sid : Nat) (e : BitVec 12) (s : State), s.sidsDiffer → s.ctl.jmpRuns sid 0x20 = true → s.ctl.mainUp = true → e ≠ 0xFFF → (s.ctl.ep e.toNat).live = true →
      s.ctl.opens = [] → s.ctl.owns = [] → s.ctl.doms = [] → s.ctl.colls = [] → s.ctl.chans = [] → s.ctl.isTray e.toNat = false → Completes (.evict sid e) s (fun t =>
    Retired s t e.toNat 2 ∧ Answered s t sid rOK ∧ (t.ctl.reg Reg.plbEvicts).toNat = min ((s.ctl.reg Reg.plbEvicts).toNat + 1) (2 ^ 64 - 1) ∧ Keeps s t))
  ∧ (∀ (sid : Nat) (e : BitVec 12) (s : State), s.ctl.jmpRuns sid 0x20 = true → s.ctl.mainUp = true → (e = 0xFFF ∨ (s.ctl.ep e.toNat).live = false) →
      Completes (.evict sid e) s (fun t => JustAnswered s t sid rREFUSED))

/-- JMP's operations on registers and memory (R442, R492-R497, R504, R505): reads answer the registers in order and log each MSG register read; a write stops at the
first refusal; memory is reached at addresses that an extent covers; what lies in MAIN is refused while MAIN is down; debug access is opened, closed and logged.
Choices and readings of the model in it: log entry 108. -/
def Obligations.DebugAccess : Prop :=
  (∀ (sid n : Nat) (a : BitVec 64) (s : State),
      let as := (List.range n).map (fun i => a.toNat + 8 * i)
      s.ctl.jmpRuns sid 0x01 = true → 0 < n → n ≤ 1024 → a.toNat % 8 = 0 → a.toNat + 8 * n ≤ regSpace → (s.ctl.mainUp = true ∨ ∀ x ∈ as, isMain x = false) →
      Completes (.regRead sid a n) s (fun t =>
    Replies s t sid rOK (as.map s.readReg) [] ∧ (t.ctl.reg (Reg.secCtr 1)).toNat = min ((s.ctl.reg (Reg.secCtr 1)).toNat + (as.filter isMsgView).length) (2 ^ 64 - 1)
    ∧ RegsBut [Reg.secCtr 1, (Reg.coalPending 0x11 0x1D).addr, (Reg.coalTotal 0x11 0x1D).addr] s t
    ∧ ((∀ x ∈ as, isMsgView x = false) → JmpOnly s t id) ∧ Keeps s t))
  ∧ (∀ (sid n : Nat) (a : BitVec 64) (s : State), s.ctl.jmpRuns sid 0x01 = true → (n = 0 ∨ 1024 < n ∨ a.toNat % 8 ≠ 0 ∨ regSpace < a.toNat + 8 * n) →
      Completes (.regRead sid a n) s (fun t => JustAnswered s t sid rBAD_ARG))
  ∧ (∀ (sid n i : Nat) (a : BitVec 64) (s : State), s.ctl.jmpRuns sid 0x01 = true → n ≤ 1024 → a.toNat % 8 = 0 → a.toNat + 8 * n ≤ regSpace → s.ctl.mainUp = false →
      i < n → isMain (a.toNat + 8 * i) = true → Completes (.regRead sid a n) s (fun t => JustAnswered s t sid rSTATE))
  ∧ (∀ (sid w : Nat) (e : Fin 4095) (s : State) (x : Session),
      let a := 0x0D820000 + 0x80 * e.val + 8 * w
      s.ctl.jmpRuns sid 0x01 = true → s.ctl.session? sid = some x → w < 8 → s.ctl.mainUp = true → LogRoom s → Completes (.mbxViewRead sid e w) s (fun t =>
    Replies s t sid rOK [s.readReg a] [] ∧ (t.ctl.reg (Reg.secCtr 1)).toNat = min ((s.ctl.reg (Reg.secCtr 1)).toNat + 1) (2 ^ 64 - 1)
    ∧ Logged t { rep 0x11 0x1D 0 with info := BitVec.ofNat 128 ((Config.subject x.chain).toNat * 256) } ∧ RegsBut [Reg.secCtr 1] s t ∧ Keeps s t))
  ∧ (∀ (sid w : Nat) (e : Fin 4095) (s : State), s.ctl.jmpRuns sid 0x01 = true → 8 ≤ w → w < 16 → s.ctl.mainUp = true → Completes (.mbxViewRead sid e w) s (fun t =>
    Replies s t sid rOK [s.readReg (0x0D820000 + 0x80 * e.val + 8 * w)] [] ∧ JmpOnly s t id))
  ∧ (∀ (sid : Nat) (a : BitVec 64) (v : Word) (l : List Word) (s u : State) (ref : Bool), s.ctl.jmpRuns sid 0x02 = true → a.toNat % 8 = 0 →
      a.toNat + 8 * (l.length + 1) ≤ regSpace → l.length < 1024 → (s.ctl.mainUp = true ∨ isMain a.toNat = false) → s.writeReg a.toNat v = (u, ref) → (ref = true ∨ l = []) →
      u.ctl.jmpRuns sid 0x02 = true → Completes (.regWrite sid a (v :: l)) s (fun t =>
    Answered u t sid (if ref then rREFUSED else rOK) ∧ JmpOnly u t id))
  ∧ (∀ (sid : Nat) (a : BitVec 64) (l : List Word) (s u : State) (r : Nat), s.ctl.jmpRuns sid 0x02 = true → a.toNat % 8 = 0 → a.toNat + 8 * l.length ≤ regSpace →
      0 < l.length → l.length ≤ 1024 → s.regWrites a.toNat l = (u, r) → u.ctl.jmpRuns sid 0x02 = true → Completes (.regWrite sid a l) s (fun t => Answered u t sid r ∧ JmpOnly u t id))
  ∧ (∀ (sid n i : Nat) (bay : BitVec 12) (a : Word) (s : State) (b : List Byte),
      let u := s.onCtl (·.debugAccess sid)
      s.ctl.jmpRuns sid 0x03 = true → 0 < n → n ≤ 8192 → s.ctl.mainUp = true → s.ctl.debugTarget bay.toNat a n = some (.flat i) →
      u.debugHome bay.toNat (.flat i) a n false = none → u.rawRead bay.toNat (.flat i) a n = some b → LogRoom s → Completes (.memRead sid bay a n) s (fun t =>
    Replies s t sid rOK [] b ∧ (t.ctl.reg (Reg.secCtr 1)).toNat = min ((s.ctl.reg (Reg.secCtr 1)).toNat + 1) (2 ^ 64 - 1) ∧ RegsBut [Reg.secCtr 1] s t
    ∧ (∃ r, Logged t r ∧ r.block = 0x11 ∧ r.cls = 0x1D) ∧ Keeps s t))
  ∧ (∀ (sid i : Nat) (bay : BitVec 12) (a : Word) (d : List Byte) (s w : State),
      let u := s.onCtl (·.debugAccess sid)
      s.ctl.jmpRuns sid 0x04 = true → d ≠ [] → d.length ≤ 8192 → s.ctl.mainUp = true → s.ctl.debugTarget bay.toNat a d.length = some (.flat i) →
      u.debugHome bay.toNat (.flat i) a d.length true = none → u.rawWrite bay.toNat (.flat i) a d = .done w → (s.ctl.ext i).coh = false →
      w.ctl.jmpRuns sid 0x04 = true → Completes (.memWrite sid bay a d) s (fun t =>
    Answered w t sid rOK ∧ JmpOnly w t id))
  ∧ (∀ (sid n : Nat) (bay : BitVec 12) (a : Word) (s : State), s.ctl.jmpRuns sid 0x03 = true →
      (n = 0 ∨ 8192 < n ∨ (s.ctl.mainUp = true ∧ s.ctl.debugTarget bay.toNat a n = none)) → Completes (.memRead sid bay a n) s (fun t => JustAnswered s t sid rBAD_ARG))
  ∧ (∀ (sid : Nat) (bay : BitVec 12) (a : Word) (d : List Byte) (s : State), s.ctl.jmpRuns sid 0x04 = true →
      (d = [] ∨ 8192 < d.length ∨ (s.ctl.mainUp = true ∧ s.ctl.debugTarget bay.toNat a d.length = none)) → Completes (.memWrite sid bay a d) s (fun t => JustAnswered s t sid rBAD_ARG))
  ∧ (∀ (sid n : Nat) (bay : BitVec 12) (a : Word) (s : State), s.ctl.jmpRuns sid 0x03 = true → 0 < n → n ≤ 8192 → s.ctl.mainUp = false →
      Completes (.memRead sid bay a n) s (fun t => JustAnswered s t sid rSTATE))
  ∧ (∀ (sid : Nat) (s : State) (x : Session), s.ctl.jmpRuns sid 0x39 = true → s.ctl.session? sid = some x → LogRoom s → Completes (.debugOpen sid) s (fun t =>
    t.ctl.rd Reg.secDebugOpen = 1 ∧ Answered s t sid rOK ∧ Logged t { rep 0x11 0x1D 0 with info := BitVec.ofNat 128 ((Config.subject x.chain).toNat * 256) }
    ∧ RegsBut [Reg.secDebugOpen.addr, Reg.secCtr 1] s t ∧ JmpOnly s t (fun c => { c with regs := t.ctl.regs, err := t.ctl.err })))
  ∧ (∀ (sid : Nat) (s : State), s.ctl.jmpRuns sid 0x3A = true → Completes (.debugClose sid) s (fun t =>
    t.ctl.rd Reg.secDebugOpen = 0 ∧ Answered s t sid rOK ∧ RegsBut [Reg.secDebugOpen.addr] s t ∧ JmpOnly s t (fun c => { c with regs := t.ctl.regs })))

/-- The log, the sensors and Tap over JMP, and the pin TAP_IN (R485, R486, R497): a trigger of an enabled source finds the banks armed, latches them, disarms, pulses TAP_OUT
and tells the operator; any other is counted.
Choices and readings of the model in it: log entries 95 and 109. -/
def Obligations.TapAndLog : Prop :=
  (∀ (sid n : Nat) (first : BitVec 64) (s : State), s.ctl.jmpRuns sid 0x05 = true → 0 < n → n ≤ 128 → Completes (.logRead sid first n) s (fun t =>
    Replies s t sid rOK [] ((s.ctl.logRange first.toNat n).flatMap LogEntry.bytes) ∧ JmpOnly s t id))
  ∧ (∀ (sid n : Nat) (first : BitVec 64) (s : State), s.ctl.jmpRuns sid 0x05 = true → (n = 0 ∨ 128 < n) → Completes (.logRead sid first n) s (fun t => JustAnswered s t sid rBAD_ARG))
  ∧ (∀ (sid : Nat) (s : State), s.ctl.jmpRuns sid 0x06 = true → Completes (.sensors sid) s (fun t => Replies s t sid rOK (sensorRegs.map s.readReg) [] ∧ JmpOnly s t id))
  ∧ (∀ (sid : Nat) (s : State), s.ctl.jmpRuns sid 0x41 = true → Completes (.tapArm sid) s (fun t =>
    t.ctl.rd Reg.tapArmed = 1 ∧ Answered s t sid rOK ∧ RegsBut [Reg.tapArmed.addr] s t ∧ JmpOnly s t (fun c => { c with regs := t.ctl.regs })))
  ∧ (∀ (sid b : Nat) (s : State), s.ctl.jmpRuns sid 0x42 = true → b < 89 → (s.ctl.mainUp = true ∨ auxBank b = true) → Completes (.tapRead sid b) s (fun t =>
    Replies s t sid rOK ((List.range 64).map (fun w => s.ctl.reg (Reg.tapBank b w))) [] ∧ JmpOnly s t id))
  ∧ (∀ (sid b : Nat) (s : State), s.ctl.jmpRuns sid 0x42 = true → b < 89 → s.ctl.mainUp = false → auxBank b = false → Completes (.tapRead sid b) s (fun t =>
    Replies s t sid rOK (List.replicate 64 0) [] ∧ JmpOnly s t id))
  ∧ (∀ (sid b : Nat) (s : State), s.ctl.jmpRuns sid 0x42 = true → 89 ≤ b → Completes (.tapRead sid b) s (fun t => JustAnswered s t sid rBAD_ARG))
  ∧ (∀ s : State, s.ctl.rd (Reg.tapSrc 3) = 1 → s.ctl.rd Reg.tapArmed = 1 → Completes .tapIn s (fun t => TapLatched s t 3))
  ∧ (∀ s : State, (s.ctl.rd (Reg.tapSrc 3) = 0 ∨ s.ctl.rd Reg.tapArmed = 0) → Completes .tapIn s (fun t =>
    t.ctl.rd Reg.tapMissed = min (s.ctl.rd Reg.tapMissed + 1) 65535 ∧ t.ctl.rd Reg.tapArmed = s.ctl.rd Reg.tapArmed ∧ OnlyRegs [Reg.tapMissed.addr] s t))
  ∧ (∀ (sid : Nat) (s : State), s.sidsDiffer → s.ctl.jmpRuns sid 0x40 = true → s.ctl.rd (Reg.tapSrc 1) = 1 → s.ctl.rd Reg.tapArmed = 1 → Completes (.tapTrigger sid) s (fun t =>
    TapLatched s t 1 ∧ Answered s t sid rOK))
  ∧ (∀ (sid : Nat) (s : State), s.ctl.jmpRuns sid 0x40 = true → (s.ctl.rd (Reg.tapSrc 1) = 0 ∨ s.ctl.rd Reg.tapArmed = 0) → Completes (.tapTrigger sid) s (fun t =>
    t.ctl.rd Reg.tapMissed = min (s.ctl.rd Reg.tapMissed + 1) 65535 ∧ Answered s t sid rOK ∧ RegsBut [Reg.tapMissed.addr] s t
    ∧ JmpOnly s t (fun c => { c with regs := t.ctl.regs })))

/-- JMP sessions (R477-R481): setting one up, requests new, repeated and unknown, the idle end, subscriptions and their events.
Choices and readings of the model in it: log entries 13, 105, 106 and 107. -/
def Obligations.JmpSessions : Prop :=
  (∀ (port : Fin 2) (body chain kem y h : List Byte) (s : State), s.ctl.rd Reg.coresUp ≠ 0 → s.ctl.ctlIsUp port.val = true → s.ctl.setupsLately port.val < 16 →
      s.ctl.sessions.length < 8 → Config.setupFields body = (chain, kem, y) → s.ctl.chainOk chain = some h → Completes (.setup port body) s (fun t =>
    (∃ part x, Sent s t (.setupReply port.val rOK s.ctl.nextSid (part ++ Config.aliasSign (bytes384 x.th))) ∧ t.ctl.setups = s.ctl.setups ++ [x] ∧ x.sid = s.ctl.nextSid
      ∧ x.port = port.val ∧ x.th = sha384 (body ++ part) ∧ x.chain = chain)
    ∧ t.ctl.nextSid = s.ctl.nextSid + 1 ∧ t.ctl.sessions = s.ctl.sessions ∧ t.ctl.flash = s.ctl.flash ∧ t.ctl.regs = s.ctl.regs ∧ Keeps s t))
  ∧ (∀ (port : Fin 2) (body : List Byte) (s : State), s.ctl.rd Reg.coresUp ≠ 0 → s.ctl.ctlIsUp port.val = true →
      (16 ≤ s.ctl.setupsLately port.val ∨ 8 ≤ s.ctl.sessions.length) → Completes (.setup port body) s (fun t =>
    Sent s t (.setupReply port.val rBUSY 0 []) ∧ t.ctl.sessions = s.ctl.sessions ∧ t.ctl.setups = s.ctl.setups ∧ t.ctl.regs = s.ctl.regs ∧ Keeps s t))
  ∧ (∀ (port : Fin 2) (body chain kem y : List Byte) (s : State), s.ctl.rd Reg.coresUp ≠ 0 → s.ctl.ctlIsUp port.val = true → s.ctl.setupsLately port.val < 16 →
      s.ctl.sessions.length < 8 → Config.setupFields body = (chain, kem, y) → s.ctl.chainOk chain = none → Completes (.setup port body) s (fun t =>
    Sent s t (.setupReply port.val rAUTH 0 []) ∧ t.ctl.sessions = s.ctl.sessions ∧ t.ctl.setups = s.ctl.setups ∧ t.ctl.regs = s.ctl.regs ∧ Keeps s t))
  ∧ (∀ (sid : Nat) (body h : List Byte) (s : State) (x : Setup), s.ctl.setups.find? (fun z => z.sid == sid) = some x → s.ctl.sessions.length < 8 →
      s.ctl.chainOk x.chain = some h → Config.certVerify x.chain (bytes384 x.th) body = true → Completes (.setupSignature sid body) s (fun t =>
    t.ctl.sessions = s.ctl.sessions ++ [x.session h s.ctl.now] ∧ Sent s t (.setupReply x.port rOK sid []) ∧ (∀ z ∈ t.ctl.setups, z.sid ≠ sid)
    ∧ t.ctl.flash = { s.ctl.flash with anchors := if s.ctl.noAnchor then setAt s.ctl.flash.anchors 0 h else s.ctl.flash.anchors }
    ∧ Only s t (fun c => { c with sessions := t.ctl.sessions, setups := t.ctl.setups, flash := t.ctl.flash, out := t.ctl.out })))
  ∧ (∀ (sid : Nat) (body : List Byte) (s : State) (x : Setup), s.ctl.setups.find? (fun z => z.sid == sid) = some x → s.ctl.sessions.length < 8 →
      (s.ctl.chainOk x.chain = none ∨ Config.certVerify x.chain (bytes384 x.th) body = false) → Completes (.setupSignature sid body) s (fun t =>
    Sent s t (.setupReply x.port rAUTH sid []) ∧ (∀ z ∈ t.ctl.setups, z.sid ≠ sid) ∧ Only s t (fun c => { c with setups := t.ctl.setups, out := t.ctl.out })))
  ∧ (∀ (sid : Nat) (seq : BitVec 64) (op : BitVec 16) (port : Fin 2) (s : State) (x : Session), s.ctl.session? sid = some x → seq.toNat < 2 ^ 60 → x.running = none →
      (∀ l, x.lastSeq = some l → l < seq.toNat) → Completes (.request sid seq op port) s (fun t =>
    (op.toNat ∈ jmpOps → t.ctl.session? sid = some { x with idleAt := s.ctl.now, running := some (seq.toNat, op.toNat, port.val) } ∧ t.ctl.out = s.ctl.out)
    ∧ (op.toNat ∉ jmpOps → Answered s t sid rBAD_OP) ∧ (∀ r, r ≠ sid → t.ctl.session? r = s.ctl.session? r)
    ∧ Only s t (fun c => { c with sessions := t.ctl.sessions, out := t.ctl.out })))
  ∧ (∀ (sid : Nat) (seq : BitVec 64) (op : BitVec 16) (port : Fin 2) (s : State) (x : Session) (r : Response), s.ctl.session? sid = some x → seq.toNat < 2 ^ 60 →
      x.lastSeq = some seq.toNat → x.answer = some r → Completes (.request sid seq op port) s (fun t =>
    Sent s t (.answer sid port.val r) ∧ t.ctl.session? sid = some { x with idleAt := s.ctl.now } ∧ Only s t (fun c => { c with sessions := t.ctl.sessions, out := t.ctl.out })))
  ∧ (∀ (sid l : Nat) (seq : BitVec 64) (op : BitVec 16) (port : Fin 2) (s : State) (x : Session), s.ctl.session? sid = some x → seq.toNat < l → x.lastSeq = some l →
      seq.toNat < 2 ^ 60 → Completes (.request sid seq op port) s (fun t =>
    t.ctl.session? sid = some { x with idleAt := s.ctl.now } ∧ Only s t (fun c => { c with sessions := t.ctl.sessions })))
  ∧ (∀ (sid : Nat) (s : State), (∀ x ∈ s.ctl.sessions, x.sid = sid → x.idleAt + s.ctl.rd Reg.idleS * 100000000 ≤ s.ctl.now) → Completes (.sessionIdle sid) s (fun t =>
    t.ctl.session? sid = none ∧ (∀ r, r ≠ sid → t.ctl.session? r = s.ctl.session? r) ∧ Only s t (fun c => { c with sessions := t.ctl.sessions })))
  ∧ (∀ (sid : Nat) (s : State), (∀ x ∈ s.ctl.sessions, x.sid = sid → s.ctl.now < x.idleAt + s.ctl.rd Reg.idleS * 100000000) → Completes (.sessionIdle sid) s (fun t => t = s))
  ∧ (∀ (sid : Nat) (a0 a1 : Word) (s : State), s.ctl.jmpRuns sid 0x60 = true → Completes (.subscribe sid a0 a1) s (fun t =>
    (∃ y, t.ctl.session? sid = some y ∧ y.sub = some (a0, a1) ∧ y.running = none) ∧ Answered s t sid rOK ∧ JmpOnly s t id))
  ∧ (∀ (sid : Nat) (v : BitVec 64) (s : State) (x : Session), s.ctl.session? sid = some x → Completes (.eventAck sid v) s (fun t =>
    t.ctl.session? sid = some { x with events := x.events.filter (fun e => decide (v.toNat ≤ e.evseq)), idleAt := s.ctl.now }
    ∧ (∀ r, r ≠ sid → t.ctl.session? r = s.ctl.session? r) ∧ Only s t (fun c => { c with sessions := t.ctl.sessions })))
  ∧ (∀ s : State, s.ctl.rd Reg.coresUp ≠ 0 → Completes .eventResend s (fun t =>
    (∀ x ∈ s.ctl.sessions, x.sentAt + 1000000 ≤ s.ctl.now → ∀ e ∈ x.events, ∀ p, p < 2 → s.ctl.ctlIsUp p = true → Sent s t (.event x.sid p e))
    ∧ ((∀ x ∈ s.ctl.sessions, x.events = [] ∨ s.ctl.now < x.sentAt + 1000000) → t = s) ∧ Only s t (fun c => { c with sessions := t.ctl.sessions, out := t.ctl.out })))

/-- Firmware, keys, anchors and settings over JMP (R431-R433, R436, R479, R483, R484, Table 19.6): staging and verifying an image, writing and activating it, KEY_ROTATE, SVN_COMMIT,
SPDM, ANCHOR_SET, NETCFG.
Choices and readings of the model in it: log entries 13, 110 and 112. -/
def Obligations.FirmwareAndKeys : Prop :=
  (∀ (sid len : Nat) (s : State), s.ctl.jmpRuns sid 0x30 = true → s.ctl.fwBusy = false → 0 < len → len ≤ 2 ^ 25 → Completes (.fwBegin sid len) s (fun t =>
    t.ctl.staging = { s.ctl.staging with len := len, bytes := [], owner := sid } ∧ t.ctl.rd Reg.fwState = 1 ∧ Answered s t sid rOK ∧ RegsBut [Reg.fwState.addr] s t
    ∧ JmpOnly s t (fun c => { c with staging := t.ctl.staging, regs := t.ctl.regs })))
  ∧ (∀ (sid len : Nat) (s : State), s.ctl.jmpRuns sid 0x30 = true → s.ctl.fwBusy = true → Completes (.fwBegin sid len) s (fun t => JustAnswered s t sid rBUSY))
  ∧ (∀ (sid len : Nat) (s : State), s.ctl.jmpRuns sid 0x30 = true → s.ctl.fwBusy = false → (len = 0 ∨ 2 ^ 25 < len) → Completes (.fwBegin sid len) s (fun t => JustAnswered s t sid rBAD_ARG))
  ∧ (∀ (sid off : Nat) (d : List Byte) (s : State), s.ctl.jmpRuns sid 0x31 = true → s.ctl.fwOwner sid = true → off + d.length ≤ s.ctl.staging.len → Completes (.fwData sid off d) s (fun t =>
    (∀ i, i < d.length → Tab.get t.ctl.staging.bytes (off + i) 0 = d.getD i 0) ∧ (∀ i, i < off ∨ off + d.length ≤ i → Tab.get t.ctl.staging.bytes i 0 = Tab.get s.ctl.staging.bytes i 0)
    ∧ t.ctl.staging = { s.ctl.staging with bytes := t.ctl.staging.bytes } ∧ Answered s t sid rOK ∧ JmpOnly s t (fun c => { c with staging := t.ctl.staging })))
  ∧ (∀ (sid off : Nat) (d : List Byte) (s : State), s.ctl.jmpRuns sid 0x31 = true → s.ctl.fwOwner sid = false → Completes (.fwData sid off d) s (fun t => JustAnswered s t sid rSTATE))
  ∧ (∀ (sid : Nat) (s : State), s.sidsDiffer → s.ctl.jmpRuns sid 0x32 = true → s.ctl.fwOwner sid = true →
      imageOk s.ctl.fuses (stagedImage s.ctl.staging.bytes s.ctl.staging.len) = true → Completes (.fwVerify sid) s (fun t =>
    t.ctl.rd Reg.fwState = 3 ∧ t.ctl.flash = { s.ctl.flash with image := none } ∧ Answered s t sid rOK ∧ s.ctl.evseq < t.ctl.evseq ∧ t.ctl.staging = s.ctl.staging
    ∧ RegsBut [Reg.fwState.addr] s t ∧ Keeps s t))
  ∧ (∀ (sid : Nat) (s : State), s.ctl.jmpRuns sid 0x32 = true → s.ctl.fwOwner sid = true → LogRoom s →
      imageOk s.ctl.fuses (stagedImage s.ctl.staging.bytes s.ctl.staging.len) = false → Completes (.fwVerify sid) s (fun t =>
    t.ctl.rd Reg.fwState = 0 ∧ t.ctl.flash = s.ctl.flash ∧ Answered s t sid rREFUSED ∧ Logged t (repInfo 0x11 0x1D 0 1)
    ∧ (t.ctl.reg (Reg.secCtr 3)).toNat = min ((s.ctl.reg (Reg.secCtr 3)).toNat + 1) (2 ^ 64 - 1) ∧ RegsBut [Reg.fwState.addr, Reg.secCtr 3] s t
    ∧ JmpOnly s t (fun c => { c with regs := t.ctl.regs, err := t.ctl.err })))
  ∧ (∀ s : State, s.ctl.rd Reg.fwState = 3 → Completes .fwWritten s (fun t =>
    t.ctl.flash = { s.ctl.flash with image := some (stagedImage s.ctl.staging.bytes s.ctl.staging.len) } ∧ t.ctl.rd Reg.fwState = 4 ∧ s.ctl.evseq < t.ctl.evseq
    ∧ RegsBut [Reg.fwState.addr] s t ∧ Keeps s t))
  ∧ (∀ (sid : Nat) (s : State), s.ctl.jmpRuns sid 0x33 = true → s.ctl.rd Reg.fwState = 4 → Completes (.fwActivate sid) s (fun t =>
    Answered s t sid rOK ∧ t.ctl.rd Reg.coresUp = 0 ∧ t.ctl.rd (Reg.resetCause 3) = 1 ∧ t.ctl.sessions = [] ∧ t.ctl.flash.image = s.ctl.flash.image ∧ Keeps s t))
  ∧ (∀ (sid : Nat) (s : State), s.ctl.jmpRuns sid 0x33 = true → s.ctl.rd Reg.fwState ≠ 4 → Completes (.fwActivate sid) s (fun t => JustAnswered s t sid rSTATE))
  ∧ (∀ (sid : Nat) (s : State), s.ctl.jmpRuns sid 0x34 = true → s.ctl.rd Reg.secKeySlot = 0 → s.ctl.fuses.slot0Revoked = false → Completes (.keyRotate sid) s (fun t =>
    t.ctl.fuses = { s.ctl.fuses with slot0Revoked := true } ∧ Answered s t sid rOK ∧ JmpOnly s t (fun c => { c with fuses := t.ctl.fuses })))
  ∧ (∀ (sid : Nat) (s : State), s.ctl.jmpRuns sid 0x35 = true → s.ctl.fuses.svn < s.ctl.runningSvn → Completes (.svnCommit sid) s (fun t =>
    t.ctl.fuses = { s.ctl.fuses with svn := s.ctl.runningSvn } ∧ Answered s t sid rOK ∧ JmpOnly s t (fun c => { c with fuses := t.ctl.fuses })))
  ∧ (∀ (sid : Nat) (s : State), s.ctl.jmpRuns sid 0x35 = true → s.ctl.runningSvn ≤ s.ctl.fuses.svn → Completes (.svnCommit sid) s (fun t => JustAnswered s t sid rREFUSED))
  ∧ (∀ (sid : Nat) (m : List Byte) (s : State), s.ctl.jmpRuns sid 0x36 = true → Completes (.spdm sid m) s (fun t =>
    (∃ b, Replies s t sid rOK [] b) ∧ (t.ctl.reg (Reg.secCtr 2)).toNat = min ((s.ctl.reg (Reg.secCtr 2)).toNat + 1) (2 ^ 64 - 1) ∧ RegsBut [Reg.secCtr 2] s t
    ∧ JmpOnly s t (fun c => { c with regs := t.ctl.regs, freeCtr := t.ctl.freeCtr })))
  ∧ (∀ (sid slot : Nat) (h : List Byte) (s : State), s.ctl.jmpRuns sid 0x37 = true → slot < 4 → h.length = 48 → Completes (.anchorSet sid slot h) s (fun t =>
    t.ctl.flash = { s.ctl.flash with anchors := setAt s.ctl.flash.anchors slot (if h.all (· == 0) then [] else h) } ∧ Answered s t sid rOK
    ∧ (∀ x ∈ t.ctl.sessions, x.anchor ∈ t.ctl.flash.anchors) ∧ JmpOnly s t (fun c => { c with flash := t.ctl.flash })))
  ∧ (∀ (sid slot : Nat) (h : List Byte) (s : State), s.ctl.jmpRuns sid 0x37 = true → (4 ≤ slot ∨ h.length ≠ 48) → Completes (.anchorSet sid slot h) s (fun t => JustAnswered s t sid rBAD_ARG))
  ∧ (∀ (sid : Nat) (n : NetCfg) (s : State), s.ctl.jmpRuns sid 0x38 = true → n.vid ≠ 0xFFF → n.jmpPort ≠ 0 → Completes (.netcfg sid n) s (fun t =>
    t.ctl.flash = { s.ctl.flash with net := setAt s.ctl.flash.net n.port.val n } ∧ Answered s t sid rOK ∧ JmpOnly s t (fun c => { c with flash := t.ctl.flash })))

/-- The operator's self-test and the tests that a shakeout leaves (R284, R428, R468, R490, R491): what JMP SELFTEST accepts, the drain that saves the tiles' scratchpads or times out, the
verdicts on units and the tiles given back.
Choices and readings of the model in it: log entries 114 and 115. -/
def Obligations.OperatorTests : Prop :=
  (∀ (sid : Nat) (b : List Byte) (l : List TestRes) (s : State),
      let force := bitOf (leAt b 4 4) 0
      s.ctl.jmpRuns sid 0x50 = true → testBlockOk b l.length = true → (∀ r ∈ l, (s.ctl.testUnit r).2 ≠ absentTile) → s.ctl.mainUp = true → s.ctl.optest = none →
      (force = true ∨ ∀ r ∈ l, s.ctl.testTaken r = false) → Completes (.jmpSelftest sid b l) s (fun t =>
    t.ctl.optest = some ({ force := force, kind := leAt b 0 1, list := l, bays := if force then s.ctl.testBays l else [], draining := force, since := s.ctl.now } : OpTest)
    ∧ t.ctl.rd Reg.bstKind = leAt b 0 1 ∧ Answered s t sid rOK ∧ RegsBut [Reg.bstKind.addr] s t ∧ JmpOnly s t (fun c => { c with optest := t.ctl.optest, regs := t.ctl.regs })))
  ∧ (∀ (sid : Nat) (b : List Byte) (l : List TestRes) (s : State), s.ctl.jmpRuns sid 0x50 = true →
      (testBlockOk b l.length = false ∨ ∃ r ∈ l, (s.ctl.testUnit r).2 = absentTile) → Completes (.jmpSelftest sid b l) s (fun t => JustAnswered s t sid rBAD_ARG))
  ∧ (∀ (sid : Nat) (b : List Byte) (l : List TestRes) (s : State), s.ctl.jmpRuns sid 0x50 = true → testBlockOk b l.length = true → (∀ r ∈ l, (s.ctl.testUnit r).2 ≠ absentTile) →
      s.ctl.mainUp = true → (s.ctl.optest.isSome = true ∨ (bitOf (leAt b 4 4) 0 = false ∧ ∃ r ∈ l, s.ctl.testTaken r = true)) →
      Completes (.jmpSelftest sid b l) s (fun t => JustAnswered s t sid rBUSY))
  ∧ (∀ (s : State) (o : OpTest), s.ctl.optest = some o → o.draining = true → (∀ r ∈ o.list, s.ctl.testInFlight r = false) → (∀ p ∈ s.ctl.testTiles o.list, p < 272) →
      Completes .selftestDrained s (fun t =>
    t.ctl = { s.ctl with optest := some { o with draining := false } } ∧ t.pending = s.pending
    ∧ (s.memWf → ∀ p ∈ s.ctl.testTiles o.list, ∀ a, a < 2 ^ 21 → t.mem.byte (saveKey p a) = s.mem.byte (scratchKey p a))
    ∧ (∀ k, (∀ p ∈ s.ctl.testTiles o.list, ∀ a, a < 2 ^ 21 → k ≠ saveKey p a) → t.mem.byte k = s.mem.byte k)))
  ∧ (∀ (s : State) (o : OpTest), s.ctl.optest = some o → o.draining = true → o.since + s.ctl.rd Reg.drainMs * 100000 ≤ s.ctl.now → Completes .drainTimeout s (fun t =>
    t.ctl.optest = none ∧ s.ctl.evseq < t.ctl.evseq ∧ t.ctl.units = s.ctl.units ∧ t.ctl.regs = s.ctl.regs ∧ t.ctl.ques = s.ctl.ques ∧ Keeps s t))
  ∧ (∀ (n : Fin 136) (pass : Bool) (s : State) (o : OpTest), s.ctl.optest = some o → o.draining = false → o.force = false → o.list = [.crucible n] → Completes (.selftestDone [pass]) s (fun t =>
    t.ctl.optest = none ∧ t.ctl.unit .crucible n.val = (s.ctl.unit .crucible n.val).after pass ∧ t.ctl.rd Reg.bstLastPass = b2n pass ∧ s.ctl.evseq < t.ctl.evseq
    ∧ RegsBut [Reg.bstLastPass.addr] s t ∧ Keeps s t))
  ∧ (∀ (n : Fin 34) (s : State) (o : OpTest), s.ctl.optest = some o → o.draining = false → o.force = false → o.list = [.cupola n] → Completes (.selftestDone [true]) s (fun t =>
    t.ctl.optest = none ∧ t.ctl.unit .cupola n.val = (s.ctl.unit .cupola n.val).after true ∧ t.ctl.rd Reg.bstLastPass = 1 ∧ s.ctl.evseq < t.ctl.evseq ∧ Keeps s t))
  ∧ (∀ (d : Fin 2) (l : Fin 128) (pass : Bool) (s : State) (o : OpTest),
      let i := s.ctl.physOf (128 * d.val + l.val)
      s.ctl.optest = some o → o.draining = false → o.force = true → o.list = [.tile d l] → i < 272 → s.ctl.rd (Reg.trsAssigned (128 * d.val + l.val)) = 1 →
      s.ctl.rd (Reg.trsOwner (128 * d.val + l.val)) ∈ o.bays → Completes (.selftestDone [pass]) s (fun t =>
    t.ctl.optest = none ∧ (t.ctl.unit .tile i).st = ((s.ctl.unit .tile i).after pass).st ∧ s.ctl.evseq < t.ctl.evseq
    ∧ (s.memWf → ∀ a, a < 2 ^ 21 → t.mem.byte (scratchKey i a) = s.mem.byte (saveKey i a)) ∧ (∀ a, a < 2 ^ 21 → t.mem.byte (saveKey i a) = 0)
    ∧ (∀ k, (∀ a, a < 2 ^ 21 → k ≠ scratchKey i a ∧ k ≠ saveKey i a) → t.mem.byte k = s.mem.byte k)))
  ∧ (∀ (bay l kind : Nat) (pass : Bool) (s : State), s.ctl.optest = none → s.ctl.bayTests = [(bay, l, kind)] → kind < 4 → Completes (.selftestDone [pass]) s (fun t =>
    t.ctl.bayTests = [] ∧ (t.ctl.unit .tile (s.ctl.physOf l)).st = ((s.ctl.unit .tile (s.ctl.physOf l)).after pass).st ∧ t.ctl.rd Reg.bstLastPass = b2n pass ∧ t.ctl.rd Reg.bstKind = kind
    ∧ s.ctl.evseq < t.ctl.evseq ∧ Keeps s t))

/-- Sensors, control ports and JTAG (R29, R94, R482, Table 3.10): a sample is stored, a temperature's highest value kept, the third missed read of the coolant sensor clears its VALID bit; a port
answers for its own addresses only and takes a lease while it has no address; the identity register is always open, and no debug scan has access without a debug session (with one, the spec gives
none of its effects and the model stops).
Choices and readings of the model in it: log entries 97, 98, 113 and 118. -/
def Obligations.PinsAndPorts : Prop :=
  (∀ (i : Fin 104) (v : BitVec 32) (s : State),
      let w := v.toNat % 65536
      Completes (.sensorSample (.temp i) v) s (fun t =>
    t.ctl.rd (Reg.snsTemp i.val) = w
    ∧ t.ctl.rd (Reg.snsTempMax i.val) = (if signed 16 (s.ctl.rd (Reg.snsTempMax i.val)) < signed 16 w then w else s.ctl.rd (Reg.snsTempMax i.val))
    ∧ OnlyRegs [(Reg.snsTemp i.val).addr] s t))
  ∧ (∀ (r : Fin 13) (v : BitVec 32) (s : State), Completes (.sensorSample (.rail r) v) s (fun t =>
    t.ctl.rd (Reg.snsRail r.val) = v.toNat % 65536 ∧ OnlyRegs [(Reg.snsRail r.val).addr] s t))
  ∧ (∀ (k : Fin 9) (v : BitVec 32) (s : State), Completes (.sensorSample (.conv k) v) s (fun t =>
    t.ctl.rd (Reg.snsConv k.val) = v.toNat % 65536 ∧ OnlyRegs [(Reg.snsConv k.val).addr] s t))
  ∧ (∀ (l : Fin 520) (v : BitVec 32) (s : State), Completes (.sensorSample (.optTx l) v) s (fun t =>
    t.ctl.rd (Reg.snsOptTx l.val) = v.toNat % 65536 ∧ t.ctl.rd (Reg.snsOptRx l.val) = s.ctl.rd (Reg.snsOptRx l.val) ∧ RegsBut [(Reg.snsOptTx l.val).addr] s t ∧ Keeps s t))
  ∧ (∀ (l : Fin 520) (v : BitVec 32) (s : State), Completes (.sensorSample (.optRx l) v) s (fun t =>
    t.ctl.rd (Reg.snsOptRx l.val) = v.toNat % 65536 ∧ t.ctl.rd (Reg.snsOptTx l.val) = s.ctl.rd (Reg.snsOptTx l.val) ∧ RegsBut [(Reg.snsOptRx l.val).addr] s t
    ∧ (s.ctl.optLow = false → t.ctl.optLow = true → s.ctl.evseq < t.ctl.evseq) ∧ Keeps s t))
  ∧ (∀ (v : BitVec 32) (s : State), Completes (.sensorSample .coolant v) s (fun t =>
    t.ctl.rd Reg.coolant = v.toNat % 65536 ∧ t.ctl.rd Reg.coolantValid = 1 ∧ t.ctl.pwr = { s.ctl.pwr with coolMiss := 0 } ∧ RegsBut [Reg.coolant.addr] s t
    ∧ (s.ctl.coolantHigh = false → t.ctl.coolantHigh = true → s.ctl.evseq < t.ctl.evseq) ∧ Keeps s t))
  ∧ (∀ (v : BitVec 32) (s : State), Completes (.sensorSample .coolantMiss v) s (fun t =>
    t.ctl.pwr = { s.ctl.pwr with coolMiss := s.ctl.pwr.coolMiss + 1 } ∧ (2 ≤ s.ctl.pwr.coolMiss → t.ctl.rd Reg.coolantValid = 0)
    ∧ (s.ctl.pwr.coolMiss < 2 → t.ctl.regs = s.ctl.regs) ∧ (s.ctl.pwr.coolMiss = 2 → s.ctl.evseq < t.ctl.evseq) ∧ t.ctl.rd Reg.coolant = s.ctl.rd Reg.coolant ∧ Keeps s t))
  ∧ (∀ (v : BitVec 32) (s : State), Completes (.sensorSample .inputPower v) s (fun t => t.ctl.rd Reg.inputW = v.toNat % 65536 ∧ OnlyRegs [Reg.inputW.addr] s t))
  ∧ (∀ (v : BitVec 32) (s : State), Completes (.sensorSample .mainCurrent v) s (fun t => t.ctl.rd Reg.mainI = v.toNat % 65536 ∧ OnlyRegs [Reg.mainI.addr] s t))
  ∧ (∀ (p : Fin 2) (f : CtlFrame) (s : State), TakesFrame s p.val f →
      ((∃ a, f.proto = .arp a ∧ a = (s.ctl.netOf p.val).ip4 ∧ a ≠ 0) ∨ (∃ a, f.proto = .neighbour a ∧ a = (s.ctl.netOf p.val).ip6 ∧ a ≠ 0)
        ∨ ((∃ b, f.proto = .echo4 b) ∧ (s.ctl.netOf p.val).ip4 ≠ 0) ∨ ((∃ b, f.proto = .echo6 b) ∧ (s.ctl.netOf p.val).ip6 ≠ 0)) → Completes (.controlPortFrame p f) s (fun t =>
    Sent s t (.ctl p.val f.proto) ∧ Only s t (fun c => { c with out := t.ctl.out })))
  ∧ (∀ (p : Fin 2) (f : CtlFrame) (s : State),
      (f.proto = .pause ∨ f.proto = .tcp ∨ f.proto = .fragment ∨ f.proto = .other ∨ 9216 < f.bytes ∨ s.ctl.ctlIsUp p.val = false
        ∨ (∃ a, f.proto = .arp a ∧ a ≠ (s.ctl.netOf p.val).ip4) ∨ (∃ a, f.proto = .neighbour a ∧ a ≠ (s.ctl.netOf p.val).ip6)) →
      Completes (.controlPortFrame p f) s (fun t => t = s))
  ∧ (∀ (p : Fin 2) (f : CtlFrame) (b : List Byte) (a : BitVec 128) (s : State), TakesFrame s p.val f → f.proto = .udp 68 b → s.ctl.net.length = 2 → (s.ctl.netOf p.val).ip4 = 0 →
      Config.dhcpLease false b = some a → Completes (.controlPortFrame p f) s (fun t =>
    t.ctl.netOf p.val = { s.ctl.netOf p.val with ip4 := a.setWidth 32 } ∧ t.ctl.flash = s.ctl.flash ∧ Keeps s t))
  ∧ (∀ (p : Fin 2) (f : CtlFrame) (d : BitVec 16) (b : List Byte) (s : State), TakesFrame s p.val f → f.proto = .udp d b → d.toNat = s.ctl.rd (Reg.ctlJmpPort p.val) → d ≠ 68 → d ≠ 546 →
      Completes (.controlPortFrame p f) s (fun t =>
    (t.ctl.reg Reg.jmpDrop).toNat = min ((s.ctl.reg Reg.jmpDrop).toNat + 1) (2 ^ 64 - 1) ∧ OnlyRegs [Reg.jmpDrop] s t))
  ∧ (∀ s : State, Completes (.jtagScan .idcode) s (fun t => Sent s t (.jtag (wordBits 32 Config.jtagId.toNat)) ∧ Only s t (fun c => { c with out := t.ctl.out })))
  ∧ (∀ (b : List Bool) (s : State), Completes (.jtagScan (.boundary b)) s (fun t => (∃ o, Sent s t (.jtag o)) ∧ Only s t (fun c => { c with out := t.ctl.out })))
  ∧ (∀ (b : List Bool) (s : State), s.ctl.rd Reg.secDebugOpen = 0 → Completes (.jtagScan (.debug b)) s (fun t => t = s))
  ∧ (∀ (b : List Bool) (s : State), s.ctl.rd Reg.secDebugOpen = 1 → exec (.jtagScan (.debug b)) s = .fault .debugScan)

/-- R176: a write to MEM_CTR_WIN that would make the bay's window overlap another bay's, or that changes the window of a bay that is not FREE, is refused: the register keeps its value and
MEM_STATUS.CTR_REFUSED is set. The window is what Table 6.11 makes of the value: FIRST, and COUNT clamped so that FIRST + COUNT is at most 1,048,576. -/
def Obligations.CounterWindowRefused : Prop :=
  ∀ (b : Fin 4096) (v : Word) (s : State),
    let first := field v.toNat 0 20
    let count := min (field v.toNat 32 21) (1048576 - first)
    s.ctl.mainUp = true →
    ((∃ (o : Fin 4096) (j : Nat), o ≠ b ∧ first ≤ j ∧ j < first + count
        ∧ s.ctl.rd (Reg.winFirst o.val) ≤ j ∧ j < s.ctl.rd (Reg.winFirst o.val) + s.ctl.rd (Reg.winCount o.val))
      ∨ ((s.ctl.bay b.val).st ≠ .free ∧ (first ≠ s.ctl.rd (Reg.winFirst b.val) ∨ count ≠ s.ctl.rd (Reg.winCount b.val)))) →
    Completes (.memCtrWinWrite b v) s (fun t =>
      t.ctl.reg (0x06002000 + 8 * b.val) = s.ctl.reg (0x06002000 + 8 * b.val) ∧ t.ctl.rd Reg.ctrRefused = 1
      ∧ OnlyRegs [Reg.ctrRefused.addr, Reg.wrRefused] s t)

/-- R312: writes to PAGES, PLACE and REDUN of CRU_BAY_RSA are ignored while bay b is not FREE. -/
def Obligations.RequestStateAreaKept : Prop :=
  ∀ (b : Fin 4096) (v : Word) (s : State), (s.ctl.bay b.val).st ≠ .free → Completes (.cruBayRsaWrite b v) s (fun t => t = s)

/-- R421, for the channel registers of Ladle: a write to LDL_CH_CFG or LDL_CH_HEAD is refused unless ASSIGNED is 0 or the channel's bay is FREE, and so is every write to a reserved channel and every write that
R410 forbids; the register keeps its value and LDL_STATUS.CH_REFUSED is set. -/
def Obligations.ChannelWriteRefused : Prop :=
  ∀ (e : Fin 16) (ch : Fin 32) (head : Bool) (v : Word) (s : State),
    s.ctl.mainUp = true →
    ((s.ctl.rd (Reg.ldlChAssigned e.val ch.val) = 1 ∧ (s.ctl.bay (s.ctl.rd (Reg.ldlChBay e.val ch.val))).st ≠ .free)
      ∨ 24 ≤ ch.val
      ∨ (head = false ∧ s.ctl.rd (Reg.ldlEngExcl e.val) = 1 ∧ bitOf v.toNat 12 = true ∧ field v.toNat 0 12 ≠ s.ctl.rd (Reg.ldlEngBay e.val))) →
    Completes (.ldlChCfgWrite e ch head v) s (fun t =>
      t.ctl.reg (Reg.ldlChBase e.val ch.val) = s.ctl.reg (Reg.ldlChBase e.val ch.val) ∧ t.ctl.chan (chanKey e.val ch.val) = s.ctl.chan (chanKey e.val ch.val)
      ∧ t.ctl.rd ⟨0x0D000000, 0, 1⟩ = 1 ∧ OnlyRegs [0x0D000000, Reg.wrRefused] s t)

/-- Tile instruction words (Tables 15.5, 15.6): encoding an operation with any fields it can carry and decoding the word gives them back; and a word that decodes to a listed operation is the one
that its operation and fields encode to, so that no two words of listed operations mean the same. -/
def Obligations.TileWordsRoundTrip : Prop :=
  (∀ (o : TileOp) (w : TileFields), TileFields.fits w o = true → decodeTile (encodeTile o w) = (o, w))
  ∧ (∀ x : BitVec 64, (decodeTile x).1 ≠ .reserved → encodeTile (decodeTile x).1 (decodeTile x).2 = x ∧ TileFields.fits (decodeTile x).2 (decodeTile x).1 = true)

/-- Memory in its canonical form (addresses strictly rising, no zero byte listed) stays in it, whatever command a step runs. -/
def Obligations.MemoryFormKept : Prop := ∀ s t : State, s.memWf → step s = .next t → t.memWf

/-- Memory has its canonical form after reset.
Choices and readings of the model in it: log entry 5. -/
def Obligations.MemoryFormAtReset : Prop := State.reset.memWf
end

