-- ==== Sys2Proof/Laws/Act.lean ====
section
/-! SUPPORT. What the actions that read and write as a member of a bay can do: one lemma each. -/

namespace Sys2Proof.Machine

/-- The bytes of the pieces of an access, none where a piece fails. -/
def readBytes (s : State) (bay ep right : Nat) : List (Nat × Nat) → List Byte → Option (List Byte)
  | [], out => some out
  | p :: l, out =>
    match s.unitRead bay ep (BitVec.ofNat 64 p.1) p.2 right with
    | .data b => readBytes s bay ep right l (out ++ b)
    | .fail _ _ _ => none

/-- The state after the pieces of a write, none where a piece fails. -/
def writeBytes (s : State) (bay ep : Nat) : List (Nat × Nat) → List Byte → Option State
  | [], _ => some s
  | p :: l, rest =>
    match s.unitWrite bay ep (BitVec.ofNat 64 p.1) (rest.take p.2) with
    | .ok s => writeBytes s bay ep l (rest.drop p.2)
    | .fail _ _ _ => none

/-- A read whose pieces all succeed gives their bytes and changes nothing. -/
theorem Act.read_ok {s : State} {bay ep a n right : Nat} {b : List Byte}
    (h : readBytes s bay ep right (pieces128 (n / 128 + 2) a n) [] = some b) (fl : Nat) :
    (Act.read bay ep a n right).run { s := s, fl := fl } = .ok (b, { s := s, fl := fl }) := by
  unfold Act.read
  generalize pieces128 (n / 128 + 2) a n = l at h
  generalize ([] : List Byte) = out at h
  induction l generalizing out with
  | nil => simp_all [readBytes, StateT.run, bind, StateT.bind, pure, StateT.pure, Except.bind, Except.pure]
  | cons p l ih =>
    simp only [readBytes] at h
    split at h
    · rename_i c hc
      have := ih (out ++ c) h
      simp_all [StateT.run, bind, StateT.bind, pure, StateT.pure, Except.bind, Except.pure, get, getThe, MonadStateOf.get, StateT.get]
    · cases h

/-- A write whose pieces all succeed leaves the state they leave. -/
theorem Act.write_ok {s t : State} {bay ep a : Nat} {data : List Byte}
    (h : writeBytes s bay ep (pieces128 (data.length / 128 + 2) a data.length) data = some t) (fl : Nat) :
    (Act.write bay ep a data).run { s := s, fl := fl } = .ok ((), { s := t, fl := fl }) := by
  unfold Act.write
  generalize pieces128 (data.length / 128 + 2) a data.length = l at h
  generalize data = out at h
  induction l generalizing out s with
  | nil => simp_all [writeBytes, StateT.run, bind, StateT.bind, pure, StateT.pure, Except.bind, Except.pure]
  | cons p l ih =>
    simp only [writeBytes] at h
    split at h
    · rename_i c hc
      have := ih (out.drop p.2) h
      simp_all [StateT.run, bind, StateT.bind, pure, StateT.pure, Except.bind, Except.pure, get, getThe, MonadStateOf.get, StateT.get,
        set, MonadStateOf.set, StateT.set]
    · cases h

/-- A read whose first piece fails, and changes nothing, stops with that status and detail. -/
theorem Act.read_stops {s : State} {bay ep a n right : Nat} {p : Nat × Nat} {l : List (Nat × Nat)} {st d : Byte}
    (hl : pieces128 (n / 128 + 2) a n = p :: l) (h : s.unitRead bay ep (BitVec.ofNat 64 p.1) p.2 right = .fail s st d) (fl : Nat) :
    (Act.read bay ep a n right).run { s := s, fl := fl } = .error { ax := { s := s, fl := fl }, status := st, detail := d } := by
  unfold Act.read
  rw [hl]
  simp [StateT.run, bind, StateT.bind, Except.bind, get, getThe, MonadStateOf.get, StateT.get, set, MonadStateOf.set, pure, StateT.pure,
    Except.pure, h, StateT.set, Act.stop]

/-- What an action gives, as a check that evaluates. -/
theorem Act.gives {α β : Type} [DecidableEq β] {r : Except α β} {x : β}
    (h : (match r with | .ok y => decide (y = x) | .error _ => false) = true) : r = .ok x := by
  cases r with
  | ok y => simpa using h
  | error e => cases h

/-- A write that is done leaves a state with a property, as a check that evaluates. -/
theorem WriteRes.gives {r : WriteRes} {p : State → Bool} (h : (match r with | .done w => p w | _ => false) = true) :
    ∃ w, r = .done w ∧ p w = true := by
  cases r with
  | done w => exact ⟨w, rfl, h⟩
  | full => cases h
  | refused => cases h
  | lost => cases h

/-- The pieces of a read give these bytes: so it reads. -/
theorem Reads.of {s : State} {bay ep a n right : Nat} {b : List Byte}
    (h : readBytes s bay ep right (pieces128 (n / 128 + 2) a n) [] = some b) : Reads s bay ep a n right b := Act.read_ok h

/-- The pieces of a write leave this state: so it writes. -/
theorem Writes.of {s t : State} {bay ep a : Nat} {data : List Byte}
    (h : writeBytes s bay ep (pieces128 (data.length / 128 + 2) a data.length) data = some t) : Writes s bay ep a data t :=
  Act.write_ok h

/-- A value that is legal is returned as it is, and nothing is flagged (R246). -/
theorem Act.clamp_legal (v : Nat) (x : Ax) : (Act.clamp v v).run x = .ok (v, x) := by
  simp [Act.clamp, StateT.run, pure, StateT.pure, Except.pure]

/-- A parameter block under a legal pointer, whose pieces all read (R246). -/
theorem Params.of {s : State} {q n : Nat} {x : QInst} {p : List Byte} (ha : entA x.entry / 32 * 32 = entA x.entry)
    (hc : CleanAddr (entA x.entry))
    (h : readBytes s (s.ctl.queCtx q).1 (s.ctl.queCtx q).2 rightR (pieces128 (n / 128 + 2) (entA x.entry) n) [] = some p) :
    Params s q x n p := by
  intro fl
  have hr := Act.read_ok h fl
  have h1 := Act.clamp_legal (entA x.entry) { s := s, fl := fl }
  unfold CleanAddr at hc
  simp only [Act.param, Act.addr, ha]
  simp_all [StateT.run, bind, StateT.bind, Except.bind]

end Sys2Proof.Machine
end

