-- ==== Sys2Proof/Laws/Memory.lean ====
section
/-! SUPPORT. The laws of memory: a byte read after a write, and that every operation keeps the canonical form. -/

namespace Sys2Proof.Machine

/-- The first address of a list of cells lies above a bound. -/
def headAbove (b : Nat) (l : List Host.Cell) : Prop := ∀ c ∈ l.head?, b < c.1

theorem cellsWf_cons (a : Nat) (v : Byte) (t : List Host.Cell) :
    cellsWf ((a, v) :: t) = true ↔ v ≠ 0 ∧ headAbove a t ∧ cellsWf t = true := by
  cases t with
  | nil => simp [cellsWf, headAbove]
  | cons e t => obtain ⟨b, w⟩ := e; simp [cellsWf, headAbove, and_assoc]

theorem headAbove_mono {a b : Nat} {l : List Host.Cell} (h : headAbove b l) (hab : a ≤ b) : headAbove a l :=
  fun c hc => lt_of_le_of_lt hab (h c hc)

/-- In a canonical list every address lies above a bound that its first lies above. -/
theorem mem_above : ∀ (l : List Host.Cell) (b : Nat), cellsWf l = true → headAbove b l → ∀ c ∈ l, b < c.1
  | [], _, _, _, c, hc => by simp at hc
  | (a, v) :: t, b, hw, hb, c, hc => by
    rw [cellsWf_cons] at hw
    have hab : b < a := hb (a, v) (by simp)
    rcases List.mem_cons.mp hc with rfl | h
    · exact hab
    · exact lt_trans hab (mem_above t a hw.2.2 hw.2.1 c h)

/-- An address that a canonical list's cells all lie above reads 0. -/
theorem cellGet_below : ∀ (l : List Host.Cell) (k : Nat), (∀ c ∈ l, k < c.1) → cellGet l k = 0
  | [], _, _ => rfl
  | (a, v) :: t, k, h => by
    have h1 := h (a, v) (by simp)
    simp only [cellGet]
    rw [if_neg (by simp at h1; omega)]
    exact cellGet_below t k (fun c hc => h c (by simp [hc]))

theorem headAbove_cellPut (l : List Host.Cell) (b k : Nat) (v : Byte) (hw : cellsWf l = true) (h : headAbove b l) (hk : b < k) :
    headAbove b (cellPut l k v) := by
  intro c hc
  have : ∀ (l : List Host.Cell), (∀ c ∈ l, b < c.1) → ∀ c ∈ cellPut l k v, b < c.1 := by
    intro l
    induction l with
    | nil => intro _ c hc; simp only [cellPut] at hc; split at hc <;> simp at hc; subst hc; exact hk
    | cons e t ih =>
      obtain ⟨a, w⟩ := e
      intro hl c hc
      simp only [cellPut] at hc
      split at hc
      · split at hc
        · exact hl c hc
        · rcases List.mem_cons.mp hc with rfl | h
          · exact hk
          · exact hl c h
      · split at hc
        · split at hc
          · exact hl c (by simp [hc])
          · rcases List.mem_cons.mp hc with rfl | h
            · exact hk
            · exact hl c (by simp [h])
        · rcases List.mem_cons.mp hc with rfl | h
          · exact hl (a, w) (by simp)
          · exact ih (fun d hd => hl d (by simp [hd])) c h
  exact this l (mem_above l b hw h) c (List.mem_of_mem_head? hc)

/-- Writing one byte keeps the canonical form. -/
theorem cellsWf_cellPut : ∀ (l : List Host.Cell) (k : Nat) (v : Byte), cellsWf l = true → cellsWf (cellPut l k v) = true
  | [], k, v, _ => by
    simp only [cellPut]; split
    · rfl
    · rename_i h; simpa [cellsWf] using h
  | (a, w) :: t, k, v, hw => by
    have hw' := hw
    rw [cellsWf_cons] at hw'
    simp only [cellPut]
    split
    · split
      · exact hw
      · rename_i hk hv
        rw [cellsWf_cons]
        exact ⟨hv, fun c hc => by simp at hc; subst hc; exact hk, hw⟩
    · split
      · split
        · exact hw'.2.2
        · rename_i h1 h2 hv
          rw [cellsWf_cons]
          exact ⟨hv, headAbove_mono hw'.2.1 (by omega), hw'.2.2⟩
      · rename_i h1 h2
        rw [cellsWf_cons]
        exact ⟨hw'.1, headAbove_cellPut t a k v hw'.2.2 hw'.2.1 (by omega), cellsWf_cellPut t k v hw'.2.2⟩

/-- The byte written is read back. -/
theorem cellGet_cellPut_same : ∀ (l : List Host.Cell) (k : Nat) (v : Byte), cellsWf l = true → cellGet (cellPut l k v) k = v
  | [], k, v, _ => by simp only [cellPut]; split <;> simp_all [cellGet]
  | (a, w) :: t, k, v, hw => by
    have hw' := hw
    rw [cellsWf_cons] at hw'
    have habove := mem_above t a hw'.2.2 hw'.2.1
    simp only [cellPut]
    split
    · rename_i hk
      split
      · rename_i hv
        subst hv
        exact cellGet_below _ _ (fun c hc => by
          rcases List.mem_cons.mp hc with rfl | h
          · exact hk
          · exact lt_trans hk (habove c h))
      · simp [cellGet]
    · split
      · rename_i h1 h2
        split
        · rename_i hv
          subst hv h2
          exact cellGet_below _ _ habove
        · simp [cellGet]
      · rename_i h1 h2
        simp only [cellGet]
        rw [if_neg (by omega)]
        exact cellGet_cellPut_same t k v hw'.2.2

/-- Every other byte is left alone. -/
theorem cellGet_cellPut_ne : ∀ (l : List Host.Cell) (k j : Nat) (v : Byte), j ≠ k → cellGet (cellPut l k v) j = cellGet l j
  | [], k, j, v, h => by
    simp only [cellPut]; split
    · rfl
    · simp only [cellGet]; rw [if_neg (by omega)]
  | (a, w) :: t, k, j, v, h => by
    simp only [cellPut]
    split
    · split
      · rfl
      · simp only [cellGet]; rw [if_neg (by omega)]
    · split
      · rename_i h1 h2
        split
        · simp only [cellGet]; rw [if_neg (by omega)]
        · simp only [cellGet]; rw [if_neg (by omega), if_neg (by omega)]
      · simp only [cellGet]
        split
        · rfl
        · exact cellGet_cellPut_ne t k j v h

/-- A filter keeps the canonical form. -/
theorem cellsWf_filter (p : Host.Cell → Bool) : ∀ (l : List Host.Cell), cellsWf l = true → cellsWf (l.filter p) = true
  | [], _ => rfl
  | (a, v) :: t, hw => by
    have hw' := hw
    rw [cellsWf_cons] at hw'
    have ih := cellsWf_filter p t hw'.2.2
    by_cases hp : p (a, v) = true
    · rw [List.filter_cons_of_pos hp, cellsWf_cons]
      refine ⟨hw'.1, fun c hc => ?_, ih⟩
      exact mem_above t a hw'.2.2 hw'.2.1 c (List.mem_of_mem_filter (List.mem_of_mem_head? hc))
    · rw [List.filter_cons_of_neg hp]; exact ih

/-! ### The operations of memory -/

theorem Memory.wf_setByte (m : Mem) (k : Nat) (v : Byte) (h : Memory.wf m = true) : Memory.wf (m.setByte k v) = true :=
  cellsWf_cellPut m.cells k v h

@[simp] theorem Mem.byte_setByte_ne (m : Mem) (k j : Nat) (v : Byte) (h : j ≠ k) : (m.setByte k v).byte j = m.byte j :=
  cellGet_cellPut_ne m.cells k j v h

theorem Mem.byte_setByte_same (m : Mem) (k : Nat) (v : Byte) (h : Memory.wf m = true) : (m.setByte k v).byte k = v :=
  cellGet_cellPut_same m.cells k v h

theorem Memory.wf_write : ∀ (d : List Byte) (m : Mem) (k : Nat), Memory.wf m = true → Memory.wf (m.write k d) = true
  | [], _, _, h => h
  | v :: t, m, k, h => Memory.wf_write t (m.setByte k v) (k + 1) (Memory.wf_setByte m k v h)

/-- A write leaves every byte outside its range alone. -/
theorem Mem.byte_write_outside : ∀ (d : List Byte) (m : Mem) (k j : Nat), (j < k ∨ k + d.length ≤ j) →
    (m.write k d).byte j = m.byte j
  | [], _, _, _, _ => rfl
  | v :: t, m, k, j, h => by
    simp only [List.length_cons] at h
    simp only [Mem.write]
    rw [Mem.byte_write_outside t (m.setByte k v) (k + 1) j (by omega)]
    exact Mem.byte_setByte_ne m k j v (by omega)

/-- A write is read back. -/
theorem Mem.byte_write_inside : ∀ (d : List Byte) (m : Mem) (k i : Nat), Memory.wf m = true → (h : i < d.length) →
    (m.write k d).byte (k + i) = d[i]
  | [], _, _, _, _, h => by simp at h
  | v :: t, m, k, 0, hw, h => by
    simp only [Mem.write, Nat.add_zero, List.getElem_cons_zero]
    rw [Mem.byte_write_outside t _ (k + 1) k (by omega)]
    exact Mem.byte_setByte_same m k v hw
  | v :: t, m, k, i + 1, hw, h => by
    simp only [Mem.write, List.getElem_cons_succ]
    have := Mem.byte_write_inside t (m.setByte k v) (k + 1) i (Memory.wf_setByte m k v hw) (by simpa using h)
    rw [← this]; congr 1; omega

theorem Mem.length_read (m : Mem) (k n : Nat) : (m.read k n).length = n := by simp [Mem.read]

/-- Reading what was written. -/
theorem Mem.read_write (m : Mem) (k : Nat) (d : List Byte) (hw : Memory.wf m = true) : (m.write k d).read k d.length = d := by
  apply List.ext_getElem
  · simp [Mem.read]
  · intro i h1 h2
    simp only [Mem.read, List.getElem_map, List.getElem_range]
    exact Mem.byte_write_inside d m k i hw h2

theorem Memory.wf_clear (m : Mem) (k n : Nat) (h : Memory.wf m = true) : Memory.wf (m.clear k n) = true :=
  cellsWf_filter _ m.cells h

theorem Memory.wf_putCells : ∀ (l : List Host.Cell) (m : Mem), Memory.wf m = true → Memory.wf (m.putCells l) = true
  | [], _, h => h
  | c :: t, m, h => Memory.wf_putCells t _ (Memory.wf_setByte m c.1 c.2 h)

theorem Memory.wf_copy (m : Mem) (dst src n : Nat) (h : Memory.wf m = true) : Memory.wf (m.copy dst src n) = true :=
  Memory.wf_putCells _ _ (Memory.wf_clear m dst n h)

theorem Memory.wf_dropMain (m : Mem) (h : Memory.wf m = true) : Memory.wf m.dropMain = true := cellsWf_filter _ m.cells h

@[simp] theorem Memory.wf_addPoison (m : Mem) (k n : Nat) : Memory.wf (m.addPoison k n) = Memory.wf m := rfl
@[simp] theorem Memory.wf_healPoison (m : Mem) (k n : Nat) : Memory.wf (m.healPoison k n) = Memory.wf m := rfl
@[simp] theorem Mem.byte_addPoison (m : Mem) (k n j : Nat) : (m.addPoison k n).byte j = m.byte j := rfl
@[simp] theorem Mem.byte_healPoison (m : Mem) (k n j : Nat) : (m.healPoison k n).byte j = m.byte j := rfl

/-- A fold of memory operations that each keep the canonical form keeps it. -/
theorem Memory.wf_foldl {α : Type} (f : Mem → α → Mem) (hf : ∀ m a, Memory.wf m = true → Memory.wf (f m a) = true) :
    ∀ (l : List α) (m : Mem), Memory.wf m = true → Memory.wf (l.foldl f m) = true
  | [], _, h => h
  | a :: t, m, h => Memory.wf_foldl f hf t (f m a) (hf m a h)

theorem Memory.wf_copyKeys (m : Mem) (size : Nat) (dst src : List Nat) (h : Memory.wf m = true) :
    Memory.wf (copyKeys m size dst src) = true := by
  unfold copyKeys
  exact Memory.wf_foldl _ (fun m e hm => Memory.wf_copy m e.1 e.2 _ hm) _ m h

theorem Memory.wf_addParity (m : Mem) (kp kq i : Nat) (old data : List Byte) (h : Memory.wf m = true) :
    Memory.wf (m.addParity kp kq i old data) = true :=
  Memory.wf_write _ _ kq (Memory.wf_write _ m kp h)

theorem Memory.wf_writeSeg (m : Mem) (g : Seg) (d : List Byte) (h : Memory.wf m = true) :
    Memory.wf (m.writeSeg g d) = true := by
  unfold Mem.writeSeg
  split
  · exact h
  · rename_i k _
    have h1 : Memory.wf (List.foldl (fun (x : Mem) q => (x.write q d).healPoison q g.len) ((m.write k d).healPoison k g.len)
        g.copies) = true := by
      refine Memory.wf_foldl (fun (x : Mem) q => (x.write q d).healPoison q g.len) ?_ g.copies _ ?_
      · intro x q hx; exact Memory.wf_write d x q hx
      · exact Memory.wf_write d m k h
    dsimp only
    split
    · exact h1
    · exact Memory.wf_addParity _ _ _ _ _ _ h1

theorem Memory.wf_writeSegs : ∀ (l : List Seg) (d : List Byte) (m : Mem), Memory.wf m = true → Memory.wf (m.writeSegs l d) = true
  | [], _, _, h => h
  | g :: t, d, m, h => Memory.wf_writeSegs t (d.drop g.len) _ (Memory.wf_writeSeg m g _ h)

end Sys2Proof.Machine
end

