-- ==== Sys2Proof/Laws/Tab.lean ====
section
/-! SUPPORT. The laws of sparse tables: a read after a write, and that every operation keeps the keys rising. -/

namespace Sys2Proof.Machine

theorem Tab.find?_none {α : Type} {t : Tab α} {k : Nat} (h : ∀ e ∈ t, e.1 ≠ k) : t.find? k = none := by
  induction t with
  | nil => rfl
  | cons e t ih =>
    obtain ⟨j, w⟩ := e
    have hj : j ≠ k := h (j, w) (List.mem_cons_self ..)
    simp only [Tab.find?, hj, if_false]
    exact ih (fun e he => h e (List.mem_cons_of_mem _ he))

theorem Tab.find?_put_same {α : Type} (t : Tab α) (k : Nat) (v : α) : (Tab.put t k v).find? k = some v := by
  induction t with
  | nil => simp [Tab.put, Tab.find?]
  | cons e t ih =>
    obtain ⟨j, w⟩ := e
    simp only [Tab.put]
    split
    · simp [Tab.find?]
    · split
      · simp [Tab.find?]
      · rename_i h
        simp only [Tab.find?]
        split
        · omega
        · exact ih

theorem Tab.find?_put_ne {α : Type} (t : Tab α) (k j : Nat) (v : α) (h : j ≠ k) :
    (Tab.put t k v).find? j = t.find? j := by
  induction t with
  | nil => simp [Tab.put, Tab.find?]; omega
  | cons e t ih =>
    obtain ⟨i, w⟩ := e
    simp only [Tab.put]
    split
    · simp only [Tab.find?]
      split
      · omega
      · rfl
    · split
      · simp only [Tab.find?]
        subst_vars
        split
        · omega
        · rfl
      · simp only [Tab.find?]
        split
        · rfl
        · exact ih

theorem Tab.find?_del_same {α : Type} (t : Tab α) (k : Nat) : (Tab.del t k).find? k = none := by
  induction t with
  | nil => rfl
  | cons e t ih =>
    obtain ⟨j, w⟩ := e
    by_cases h : j = k
    · simp only [Tab.del, List.filter, h, bne_self_eq_false]; exact ih
    · have h' : (j != k) = true := by simp [h]
      simp only [Tab.del, List.filter, h', Tab.find?, h, if_false]; exact ih

theorem Tab.find?_del_ne {α : Type} (t : Tab α) (k j : Nat) (h : j ≠ k) : (Tab.del t k).find? j = t.find? j := by
  induction t with
  | nil => rfl
  | cons e t ih =>
    obtain ⟨i, w⟩ := e
    by_cases hi : i = k
    · have h2 : ¬ i = j := by omega
      simp only [Tab.del, List.filter, hi, bne_self_eq_false, Tab.find?]
      subst hi
      simp only [h2, if_false]; exact ih
    · have h' : (i != k) = true := by simp [hi]
      simp only [Tab.del, List.filter, h', Tab.find?]
      split
      · rfl
      · exact ih

@[simp] theorem Tab.get_put_same {α : Type} (t : Tab α) (k : Nat) (d v : α) : (Tab.put t k v).get k d = v := by
  simp [Tab.get, Tab.find?_put_same]

theorem Tab.get_put_ne {α : Type} (t : Tab α) (k j : Nat) (d v : α) (h : j ≠ k) : (Tab.put t k v).get j d = t.get j d := by
  simp [Tab.get, Tab.find?_put_ne _ _ _ _ h]

/-- A read after a write gives the value written. -/
@[simp] theorem Tab.get_set_same {α : Type} [DecidableEq α] (t : Tab α) (k : Nat) (d v : α) : (Tab.set t k d v).get k d = v := by
  unfold Tab.set
  split
  · simp [Tab.get, Tab.find?_del_same, *]
  · simp

/-- A write leaves every other key alone. -/
theorem Tab.get_set_ne {α : Type} [DecidableEq α] (t : Tab α) (k j : Nat) (d e v : α) (h : j ≠ k) :
    (Tab.set t k d v).get j e = t.get j e := by
  unfold Tab.set
  split
  · simp [Tab.get, Tab.find?_del_ne _ _ _ h]
  · simp [Tab.get, Tab.find?_put_ne _ _ _ _ h]

@[simp] theorem Tab.get_nil {α : Type} (k : Nat) (d : α) : Tab.get ([] : Tab α) k d = d := rfl

end Sys2Proof.Machine
end

