-- ==== Sys2Proof/Laws/Reg.lean ====
section
/-! SUPPORT. The laws of registers and their fields: a read after a write, in the same field, in another field of the same
register, in another register; and that register writes touch nothing else. -/

namespace Sys2Proof.Machine

/-- The number with one field replaced. -/
def setField (x lo w v : Nat) : Nat := x - field x lo w * 2 ^ lo + (v % 2 ^ w) * 2 ^ lo

theorem field_split (x lo w : Nat) : x = x / 2 ^ (lo + w) * 2 ^ (lo + w) + field x lo w * 2 ^ lo + x % 2 ^ lo := by
  unfold field
  have h1 := Nat.div_add_mod x (2 ^ lo)
  have h2 := Nat.div_add_mod (x / 2 ^ lo) (2 ^ w)
  have h3 : x / 2 ^ lo / 2 ^ w = x / 2 ^ (lo + w) := by rw [Nat.div_div_eq_div_mul, pow_add]
  rw [h3] at h2
  calc x = 2 ^ lo * (x / 2 ^ lo) + x % 2 ^ lo := h1.symm
    _ = 2 ^ lo * (2 ^ w * (x / 2 ^ (lo + w)) + x / 2 ^ lo % 2 ^ w) + x % 2 ^ lo := by rw [h2]
    _ = _ := by rw [pow_add]; ring

theorem setField_eq (x lo w v : Nat) :
    setField x lo w v = x / 2 ^ (lo + w) * 2 ^ (lo + w) + (v % 2 ^ w) * 2 ^ lo + x % 2 ^ lo := by
  have h := field_split x lo w
  unfold setField
  have h4 : field x lo w * 2 ^ lo ≤ x := by omega
  omega

theorem setField_low (x lo w v : Nat) : (v % 2 ^ w) * 2 ^ lo + x % 2 ^ lo < 2 ^ (lo + w) := by
  have h1 : x % 2 ^ lo < 2 ^ lo := Nat.mod_lt _ (by positivity)
  have h2 : v % 2 ^ w + 1 ≤ 2 ^ w := Nat.mod_lt _ (by positivity)
  have h3 : (v % 2 ^ w + 1) * 2 ^ lo ≤ 2 ^ w * 2 ^ lo := Nat.mul_le_mul_right _ h2
  have h4 : 2 ^ (lo + w) = 2 ^ w * 2 ^ lo := by rw [pow_add]; ring
  rw [h4]; nlinarith

theorem setField_lt (x lo w v : Nat) (hx : x < 2 ^ 64) (h : lo + w ≤ 64) : setField x lo w v < 2 ^ 64 := by
  rw [setField_eq]
  have h1 := setField_low x lo w v
  have h2 : x / 2 ^ (lo + w) < 2 ^ (64 - (lo + w)) := by
    rw [Nat.div_lt_iff_lt_mul (by positivity), ← pow_add]
    have : 64 - (lo + w) + (lo + w) = 64 := by omega
    rw [this]; exact hx
  have h3 : (x / 2 ^ (lo + w) + 1) * 2 ^ (lo + w) ≤ 2 ^ (64 - (lo + w)) * 2 ^ (lo + w) := Nat.mul_le_mul_right _ h2
  rw [← pow_add] at h3
  have : 64 - (lo + w) + (lo + w) = 64 := by omega
  rw [this] at h3
  nlinarith

theorem field_setField_same (x lo w v : Nat) : field (setField x lo w v) lo w = v % 2 ^ w := by
  rw [setField_eq]
  unfold field
  have h1 : x % 2 ^ lo < 2 ^ lo := Nat.mod_lt _ (by positivity)
  have e : x / 2 ^ (lo + w) * 2 ^ (lo + w) + v % 2 ^ w * 2 ^ lo + x % 2 ^ lo
      = x % 2 ^ lo + 2 ^ lo * (v % 2 ^ w + 2 ^ w * (x / 2 ^ (lo + w))) := by rw [pow_add]; ring
  rw [e, Nat.add_mul_div_left _ _ (by positivity), Nat.div_eq_of_lt h1, Nat.zero_add, Nat.add_mul_mod_self_left, Nat.mod_mod]

theorem field_setField_above (x lo w v l n : Nat) (h : lo + w ≤ l) : field (setField x lo w v) l n = field x l n := by
  rw [setField_eq]
  unfold field
  have h1 := setField_low x lo w v
  obtain ⟨d, rfl⟩ := Nat.exists_eq_add_of_le h
  rw [pow_add 2 (lo + w) d, ← Nat.div_div_eq_div_mul, ← Nat.div_div_eq_div_mul]
  have e : x / 2 ^ (lo + w) * 2 ^ (lo + w) + v % 2 ^ w * 2 ^ lo + x % 2 ^ lo
      = (v % 2 ^ w * 2 ^ lo + x % 2 ^ lo) + 2 ^ (lo + w) * (x / 2 ^ (lo + w)) := by ring
  rw [e, Nat.add_mul_div_left _ _ (by positivity), Nat.div_eq_of_lt h1, Nat.zero_add]

theorem field_setField_below (x lo w v l n : Nat) (h : l + n ≤ lo) : field (setField x lo w v) l n = field x l n := by
  have key : ∀ y : Nat, field y l n = (y % 2 ^ lo / 2 ^ l) % 2 ^ n := by
    intro y
    unfold field
    obtain ⟨d, rfl⟩ := Nat.exists_eq_add_of_le h
    have h2 : y % 2 ^ (l + n + d) / 2 ^ l = y / 2 ^ l % 2 ^ (n + d) := by
      rw [add_assoc, pow_add 2 l (n + d), Nat.mod_mul_right_div_self]
    rw [h2, pow_add 2 n d, Nat.mod_mul_right_mod]
  rw [key, key x]
  congr 2
  rw [setField_eq]
  have e : x / 2 ^ (lo + w) * 2 ^ (lo + w) + v % 2 ^ w * 2 ^ lo + x % 2 ^ lo
      = x % 2 ^ lo + 2 ^ lo * (v % 2 ^ w + 2 ^ w * (x / 2 ^ (lo + w))) := by rw [pow_add]; ring
  rw [e, Nat.add_mul_mod_self_left, Nat.mod_mod]

/-! ### Registers -/

@[simp] theorem Ctl.reg_putReg_same (c : Ctl) (a : Nat) (v : Word) : (c.putReg a v).reg a = v := by
  simp [Ctl.reg, Ctl.putReg]

theorem Ctl.reg_putReg_ne (c : Ctl) (a b : Nat) (v : Word) (h : b ≠ a) : (c.putReg a v).reg b = c.reg b := by
  simp [Ctl.reg, Ctl.putReg, Tab.get_set_ne _ _ _ _ _ _ h]

theorem Ctl.reg_wr_ne (c : Ctl) (f : Fld) (v b : Nat) (h : b ≠ f.addr) : (c.wr f v).reg b = c.reg b := by
  simp [Ctl.wr, Ctl.reg_putReg_ne _ _ _ _ h]

theorem Ctl.reg_wr_same (c : Ctl) (f : Fld) (v : Nat) :
    (c.wr f v).reg f.addr = BitVec.ofNat 64 (setField (c.reg f.addr).toNat f.lo f.w v) := by
  simp [Ctl.wr, setField]

theorem Ctl.toNat_reg_wr (c : Ctl) (f : Fld) (v : Nat) (h : f.lo + f.w ≤ 64) :
    ((c.wr f v).reg f.addr).toNat = setField (c.reg f.addr).toNat f.lo f.w v := by
  rw [Ctl.reg_wr_same, BitVec.toNat_ofNat, Nat.mod_eq_of_lt (setField_lt _ _ _ _ (c.reg f.addr).isLt h)]

/-- A field reads what was written to it. -/
theorem Ctl.rd_wr_same (c : Ctl) (f : Fld) (v : Nat) (h : f.lo + f.w ≤ 64) : (c.wr f v).rd f = v % 2 ^ f.w := by
  unfold Ctl.rd
  rw [Ctl.toNat_reg_wr _ _ _ h, field_setField_same]

/-- Fields of other registers keep their values. -/
theorem Ctl.rd_wr_ne (c : Ctl) (f g : Fld) (v : Nat) (h : g.addr ≠ f.addr) : (c.wr f v).rd g = c.rd g := by
  simp [Ctl.rd, Ctl.reg_wr_ne _ _ _ _ h]

/-- Other fields of the same register keep their values. -/
theorem Ctl.rd_wr_disjoint (c : Ctl) (f g : Fld) (v : Nat) (ha : g.addr = f.addr) (hf : f.lo + f.w ≤ 64)
    (h : g.lo + g.w ≤ f.lo ∨ f.lo + f.w ≤ g.lo) : (c.wr f v).rd g = c.rd g := by
  unfold Ctl.rd
  rw [ha, Ctl.toNat_reg_wr _ _ _ hf]
  rcases h with h | h
  · rw [field_setField_below _ _ _ _ _ _ h]
  · rw [field_setField_above _ _ _ _ _ _ h]

theorem Ctl.rd_putReg_ne (c : Ctl) (a : Nat) (v : Word) (g : Fld) (h : g.addr ≠ a) : (c.putReg a v).rd g = c.rd g := by
  simp [Ctl.rd, Ctl.reg_putReg_ne _ _ _ _ h]

theorem Ctl.reg_bumpBy_ne (c : Ctl) (a n b : Nat) (h : b ≠ a) : (c.bumpBy a n).reg b = c.reg b := by
  simp [Ctl.bumpBy, Ctl.reg_putReg_ne _ _ _ _ h]

/-- A 64-bit counter saturates. -/
theorem Ctl.reg_bump_same (c : Ctl) (a : Nat) :
    ((c.bump a).reg a).toNat = min ((c.reg a).toNat + 1) (2 ^ 64 - 1) := by
  simp only [Ctl.bump, Ctl.bumpBy, Ctl.reg_putReg_same, BitVec.toNat_ofNat]
  apply Nat.mod_eq_of_lt; omega

theorem Ctl.rd_bumpBy_ne (c : Ctl) (a n : Nat) (g : Fld) (h : g.addr ≠ a) : (c.bumpBy a n).rd g = c.rd g := by
  simp [Ctl.rd, Ctl.reg_bumpBy_ne _ _ _ _ h]

end Sys2Proof.Machine
end

