-- ==== Sys2Proof/Laws/State.lean ====
section
/-! SUPPORT. One lemma per field and update of the state, each true by definition: what an update leaves alone, and what an
accessor reads after it. -/

namespace Sys2Proof.Machine

@[simp] theorem State.onCtl_mem (s : State) (f : Ctl → Ctl) : (s.onCtl f).mem = s.mem := rfl
@[simp] theorem State.onCtl_pending (s : State) (f : Ctl → Ctl) : (s.onCtl f).pending = s.pending := rfl
@[simp] theorem State.onCtl_ctl (s : State) (f : Ctl → Ctl) : (s.onCtl f).ctl = f s.ctl := rfl

theorem State.whenMain_mem (s : State) (f : Ctl → Ctl) : (s.whenMain f).mem = s.mem := by
  unfold State.whenMain; split <;> rfl
theorem State.whenMain_pending (s : State) (f : Ctl → Ctl) : (s.whenMain f).pending = s.pending := by
  unfold State.whenMain; split <;> rfl
theorem State.whenMain_on (s : State) (f : Ctl → Ctl) (h : s.ctl.mainUp = true) : s.whenMain f = s.onCtl f := by
  simp [State.whenMain, h]
theorem State.whenMain_off (s : State) (f : Ctl → Ctl) (h : s.ctl.mainUp = false) : s.whenMain f = s := by
  simp [State.whenMain, h]

/-! ### Register writes leave every other record alone -/

@[simp] theorem Ctl.putReg_now (c : Ctl) (a : Nat) (v : Word) : (c.putReg a v).now = c.now := rfl
@[simp] theorem Ctl.putReg_freeCtr (c : Ctl) (a : Nat) (v : Word) : (c.putReg a v).freeCtr = c.freeCtr := rfl
@[simp] theorem Ctl.putReg_out (c : Ctl) (a : Nat) (v : Word) : (c.putReg a v).out = c.out := rfl
@[simp] theorem Ctl.putReg_pwr (c : Ctl) (a : Nat) (v : Word) : (c.putReg a v).pwr = c.pwr := rfl
@[simp] theorem Ctl.putReg_subs (c : Ctl) (a : Nat) (v : Word) : (c.putReg a v).subs = c.subs := rfl
@[simp] theorem Ctl.putReg_lanes (c : Ctl) (a : Nat) (v : Word) : (c.putReg a v).lanes = c.lanes := rfl
@[simp] theorem Ctl.putReg_elms (c : Ctl) (a : Nat) (v : Word) : (c.putReg a v).elms = c.elms := rfl
@[simp] theorem Ctl.putReg_pairs (c : Ctl) (a : Nat) (v : Word) : (c.putReg a v).pairs = c.pairs := rfl
@[simp] theorem Ctl.putReg_flask (c : Ctl) (a : Nat) (v : Word) : (c.putReg a v).flask = c.flask := rfl
@[simp] theorem Ctl.putReg_scheds (c : Ctl) (a : Nat) (v : Word) : (c.putReg a v).scheds = c.scheds := rfl
@[simp] theorem Ctl.putReg_flaskLost (c : Ctl) (a : Nat) (v : Word) : (c.putReg a v).flaskLost = c.flaskLost := rfl
@[simp] theorem Ctl.putReg_intHeld (c : Ctl) (a : Nat) (v : Word) : (c.putReg a v).intHeld = c.intHeld := rfl
@[simp] theorem Ctl.putReg_eps (c : Ctl) (a : Nat) (v : Word) : (c.putReg a v).eps = c.eps := rfl
@[simp] theorem Ctl.putReg_bays (c : Ctl) (a : Nat) (v : Word) : (c.putReg a v).bays = c.bays := rfl
@[simp] theorem Ctl.putReg_exts (c : Ctl) (a : Nat) (v : Word) : (c.putReg a v).exts = c.exts := rfl
@[simp] theorem Ctl.putReg_opens (c : Ctl) (a : Nat) (v : Word) : (c.putReg a v).opens = c.opens := rfl
@[simp] theorem Ctl.putReg_owns (c : Ctl) (a : Nat) (v : Word) : (c.putReg a v).owns = c.owns := rfl
@[simp] theorem Ctl.putReg_nextId (c : Ctl) (a : Nat) (v : Word) : (c.putReg a v).nextId = c.nextId := rfl
@[simp] theorem Ctl.putReg_tracker (c : Ctl) (a : Nat) (v : Word) : (c.putReg a v).tracker = c.tracker := rfl
@[simp] theorem Ctl.putReg_fences (c : Ctl) (a : Nat) (v : Word) : (c.putReg a v).fences = c.fences := rfl
@[simp] theorem Ctl.putReg_peg (c : Ctl) (a : Nat) (v : Word) : (c.putReg a v).peg = c.peg := rfl
@[simp] theorem Ctl.putReg_locks (c : Ctl) (a : Nat) (v : Word) : (c.putReg a v).locks = c.locks := rfl
@[simp] theorem Ctl.putReg_ctrs (c : Ctl) (a : Nat) (v : Word) : (c.putReg a v).ctrs = c.ctrs := rfl
@[simp] theorem Ctl.putReg_doms (c : Ctl) (a : Nat) (v : Word) : (c.putReg a v).doms = c.doms := rfl
@[simp] theorem Ctl.putReg_dir (c : Ctl) (a : Nat) (v : Word) : (c.putReg a v).dir = c.dir := rfl
@[simp] theorem Ctl.putReg_dirQ (c : Ctl) (a : Nat) (v : Word) : (c.putReg a v).dirQ = c.dirQ := rfl
@[simp] theorem Ctl.putReg_homeDirty (c : Ctl) (a : Nat) (v : Word) : (c.putReg a v).homeDirty = c.homeDirty := rfl
@[simp] theorem Ctl.putReg_tier (c : Ctl) (a : Nat) (v : Word) : (c.putReg a v).tier = c.tier := rfl
@[simp] theorem Ctl.putReg_coded (c : Ctl) (a : Nat) (v : Word) : (c.putReg a v).coded = c.coded := rfl
@[simp] theorem Ctl.putReg_phys (c : Ctl) (a : Nat) (v : Word) : (c.putReg a v).phys = c.phys := rfl
@[simp] theorem Ctl.putReg_migQ (c : Ctl) (a : Nat) (v : Word) : (c.putReg a v).migQ = c.migQ := rfl
@[simp] theorem Ctl.putReg_pubReads (c : Ctl) (a : Nat) (v : Word) : (c.putReg a v).pubReads = c.pubReads := rfl
@[simp] theorem Ctl.putReg_kvRegions (c : Ctl) (a : Nat) (v : Word) : (c.putReg a v).kvRegions = c.kvRegions := rfl
@[simp] theorem Ctl.putReg_kvPages (c : Ctl) (a : Nat) (v : Word) : (c.putReg a v).kvPages = c.kvPages := rfl
@[simp] theorem Ctl.putReg_kvBlocks (c : Ctl) (a : Nat) (v : Word) : (c.putReg a v).kvBlocks = c.kvBlocks := rfl
@[simp] theorem Ctl.putReg_kvNodes (c : Ctl) (a : Nat) (v : Word) : (c.putReg a v).kvNodes = c.kvNodes := rfl
@[simp] theorem Ctl.putReg_ques (c : Ctl) (a : Nat) (v : Word) : (c.putReg a v).ques = c.ques := rfl
@[simp] theorem Ctl.putReg_colls (c : Ctl) (a : Nat) (v : Word) : (c.putReg a v).colls = c.colls := rfl
@[simp] theorem Ctl.putReg_rsas (c : Ctl) (a : Nat) (v : Word) : (c.putReg a v).rsas = c.rsas := rfl
@[simp] theorem Ctl.putReg_places (c : Ctl) (a : Nat) (v : Word) : (c.putReg a v).places = c.places := rfl
@[simp] theorem Ctl.putReg_tiles (c : Ctl) (a : Nat) (v : Word) : (c.putReg a v).tiles = c.tiles := rfl
@[simp] theorem Ctl.putReg_tileMap (c : Ctl) (a : Nat) (v : Word) : (c.putReg a v).tileMap = c.tileMap := rfl
@[simp] theorem Ctl.putReg_clearing (c : Ctl) (a : Nat) (v : Word) : (c.putReg a v).clearing = c.clearing := rfl
@[simp] theorem Ctl.putReg_bayTests (c : Ctl) (a : Nat) (v : Word) : (c.putReg a v).bayTests = c.bayTests := rfl
@[simp] theorem Ctl.putReg_tally (c : Ctl) (a : Nat) (v : Word) : (c.putReg a v).tally = c.tally := rfl
@[simp] theorem Ctl.putReg_chans (c : Ctl) (a : Nat) (v : Word) : (c.putReg a v).chans = c.chans := rfl
@[simp] theorem Ctl.putReg_engs (c : Ctl) (a : Nat) (v : Word) : (c.putReg a v).engs = c.engs := rfl
@[simp] theorem Ctl.putReg_mbxs (c : Ctl) (a : Nat) (v : Word) : (c.putReg a v).mbxs = c.mbxs := rfl
@[simp] theorem Ctl.putReg_seedAt (c : Ctl) (a : Nat) (v : Word) : (c.putReg a v).seedAt = c.seedAt := rfl
@[simp] theorem Ctl.putReg_units (c : Ctl) (a : Nat) (v : Word) : (c.putReg a v).units = c.units := rfl
@[simp] theorem Ctl.putReg_rechecks (c : Ctl) (a : Nat) (v : Word) : (c.putReg a v).rechecks = c.rechecks := rfl
@[simp] theorem Ctl.putReg_items (c : Ctl) (a : Nat) (v : Word) : (c.putReg a v).items = c.items := rfl
@[simp] theorem Ctl.putReg_err (c : Ctl) (a : Nat) (v : Word) : (c.putReg a v).err = c.err := rfl
@[simp] theorem Ctl.putReg_evseq (c : Ctl) (a : Nat) (v : Word) : (c.putReg a v).evseq = c.evseq := rfl
@[simp] theorem Ctl.putReg_sessions (c : Ctl) (a : Nat) (v : Word) : (c.putReg a v).sessions = c.sessions := rfl
@[simp] theorem Ctl.putReg_setups (c : Ctl) (a : Nat) (v : Word) : (c.putReg a v).setups = c.setups := rfl
@[simp] theorem Ctl.putReg_setupTimes (c : Ctl) (a : Nat) (v : Word) : (c.putReg a v).setupTimes = c.setupTimes := rfl
@[simp] theorem Ctl.putReg_nextSid (c : Ctl) (a : Nat) (v : Word) : (c.putReg a v).nextSid = c.nextSid := rfl
@[simp] theorem Ctl.putReg_flash (c : Ctl) (a : Nat) (v : Word) : (c.putReg a v).flash = c.flash := rfl
@[simp] theorem Ctl.putReg_fuses (c : Ctl) (a : Nat) (v : Word) : (c.putReg a v).fuses = c.fuses := rfl
@[simp] theorem Ctl.putReg_fw (c : Ctl) (a : Nat) (v : Word) : (c.putReg a v).fw = c.fw := rfl
@[simp] theorem Ctl.putReg_net (c : Ctl) (a : Nat) (v : Word) : (c.putReg a v).net = c.net := rfl
@[simp] theorem Ctl.putReg_staging (c : Ctl) (a : Nat) (v : Word) : (c.putReg a v).staging = c.staging := rfl
@[simp] theorem Ctl.putReg_optest (c : Ctl) (a : Nat) (v : Word) : (c.putReg a v).optest = c.optest := rfl
@[simp] theorem Ctl.wr_now (c : Ctl) (f : Fld) (v : Nat) : (c.wr f v).now = c.now := rfl
@[simp] theorem Ctl.wr_freeCtr (c : Ctl) (f : Fld) (v : Nat) : (c.wr f v).freeCtr = c.freeCtr := rfl
@[simp] theorem Ctl.wr_out (c : Ctl) (f : Fld) (v : Nat) : (c.wr f v).out = c.out := rfl
@[simp] theorem Ctl.wr_pwr (c : Ctl) (f : Fld) (v : Nat) : (c.wr f v).pwr = c.pwr := rfl
@[simp] theorem Ctl.wr_subs (c : Ctl) (f : Fld) (v : Nat) : (c.wr f v).subs = c.subs := rfl
@[simp] theorem Ctl.wr_lanes (c : Ctl) (f : Fld) (v : Nat) : (c.wr f v).lanes = c.lanes := rfl
@[simp] theorem Ctl.wr_elms (c : Ctl) (f : Fld) (v : Nat) : (c.wr f v).elms = c.elms := rfl
@[simp] theorem Ctl.wr_pairs (c : Ctl) (f : Fld) (v : Nat) : (c.wr f v).pairs = c.pairs := rfl
@[simp] theorem Ctl.wr_flask (c : Ctl) (f : Fld) (v : Nat) : (c.wr f v).flask = c.flask := rfl
@[simp] theorem Ctl.wr_scheds (c : Ctl) (f : Fld) (v : Nat) : (c.wr f v).scheds = c.scheds := rfl
@[simp] theorem Ctl.wr_flaskLost (c : Ctl) (f : Fld) (v : Nat) : (c.wr f v).flaskLost = c.flaskLost := rfl
@[simp] theorem Ctl.wr_intHeld (c : Ctl) (f : Fld) (v : Nat) : (c.wr f v).intHeld = c.intHeld := rfl
@[simp] theorem Ctl.wr_eps (c : Ctl) (f : Fld) (v : Nat) : (c.wr f v).eps = c.eps := rfl
@[simp] theorem Ctl.wr_bays (c : Ctl) (f : Fld) (v : Nat) : (c.wr f v).bays = c.bays := rfl
@[simp] theorem Ctl.wr_exts (c : Ctl) (f : Fld) (v : Nat) : (c.wr f v).exts = c.exts := rfl
@[simp] theorem Ctl.wr_opens (c : Ctl) (f : Fld) (v : Nat) : (c.wr f v).opens = c.opens := rfl
@[simp] theorem Ctl.wr_owns (c : Ctl) (f : Fld) (v : Nat) : (c.wr f v).owns = c.owns := rfl
@[simp] theorem Ctl.wr_nextId (c : Ctl) (f : Fld) (v : Nat) : (c.wr f v).nextId = c.nextId := rfl
@[simp] theorem Ctl.wr_tracker (c : Ctl) (f : Fld) (v : Nat) : (c.wr f v).tracker = c.tracker := rfl
@[simp] theorem Ctl.wr_fences (c : Ctl) (f : Fld) (v : Nat) : (c.wr f v).fences = c.fences := rfl
@[simp] theorem Ctl.wr_peg (c : Ctl) (f : Fld) (v : Nat) : (c.wr f v).peg = c.peg := rfl
@[simp] theorem Ctl.wr_locks (c : Ctl) (f : Fld) (v : Nat) : (c.wr f v).locks = c.locks := rfl
@[simp] theorem Ctl.wr_ctrs (c : Ctl) (f : Fld) (v : Nat) : (c.wr f v).ctrs = c.ctrs := rfl
@[simp] theorem Ctl.wr_doms (c : Ctl) (f : Fld) (v : Nat) : (c.wr f v).doms = c.doms := rfl
@[simp] theorem Ctl.wr_dir (c : Ctl) (f : Fld) (v : Nat) : (c.wr f v).dir = c.dir := rfl
@[simp] theorem Ctl.wr_dirQ (c : Ctl) (f : Fld) (v : Nat) : (c.wr f v).dirQ = c.dirQ := rfl
@[simp] theorem Ctl.wr_homeDirty (c : Ctl) (f : Fld) (v : Nat) : (c.wr f v).homeDirty = c.homeDirty := rfl
@[simp] theorem Ctl.wr_tier (c : Ctl) (f : Fld) (v : Nat) : (c.wr f v).tier = c.tier := rfl
@[simp] theorem Ctl.wr_coded (c : Ctl) (f : Fld) (v : Nat) : (c.wr f v).coded = c.coded := rfl
@[simp] theorem Ctl.wr_phys (c : Ctl) (f : Fld) (v : Nat) : (c.wr f v).phys = c.phys := rfl
@[simp] theorem Ctl.wr_migQ (c : Ctl) (f : Fld) (v : Nat) : (c.wr f v).migQ = c.migQ := rfl
@[simp] theorem Ctl.wr_pubReads (c : Ctl) (f : Fld) (v : Nat) : (c.wr f v).pubReads = c.pubReads := rfl
@[simp] theorem Ctl.wr_kvRegions (c : Ctl) (f : Fld) (v : Nat) : (c.wr f v).kvRegions = c.kvRegions := rfl
@[simp] theorem Ctl.wr_kvPages (c : Ctl) (f : Fld) (v : Nat) : (c.wr f v).kvPages = c.kvPages := rfl
@[simp] theorem Ctl.wr_kvBlocks (c : Ctl) (f : Fld) (v : Nat) : (c.wr f v).kvBlocks = c.kvBlocks := rfl
@[simp] theorem Ctl.wr_kvNodes (c : Ctl) (f : Fld) (v : Nat) : (c.wr f v).kvNodes = c.kvNodes := rfl
@[simp] theorem Ctl.wr_ques (c : Ctl) (f : Fld) (v : Nat) : (c.wr f v).ques = c.ques := rfl
@[simp] theorem Ctl.wr_colls (c : Ctl) (f : Fld) (v : Nat) : (c.wr f v).colls = c.colls := rfl
@[simp] theorem Ctl.wr_rsas (c : Ctl) (f : Fld) (v : Nat) : (c.wr f v).rsas = c.rsas := rfl
@[simp] theorem Ctl.wr_places (c : Ctl) (f : Fld) (v : Nat) : (c.wr f v).places = c.places := rfl
@[simp] theorem Ctl.wr_tiles (c : Ctl) (f : Fld) (v : Nat) : (c.wr f v).tiles = c.tiles := rfl
@[simp] theorem Ctl.wr_tileMap (c : Ctl) (f : Fld) (v : Nat) : (c.wr f v).tileMap = c.tileMap := rfl
@[simp] theorem Ctl.wr_clearing (c : Ctl) (f : Fld) (v : Nat) : (c.wr f v).clearing = c.clearing := rfl
@[simp] theorem Ctl.wr_bayTests (c : Ctl) (f : Fld) (v : Nat) : (c.wr f v).bayTests = c.bayTests := rfl
@[simp] theorem Ctl.wr_tally (c : Ctl) (f : Fld) (v : Nat) : (c.wr f v).tally = c.tally := rfl
@[simp] theorem Ctl.wr_chans (c : Ctl) (f : Fld) (v : Nat) : (c.wr f v).chans = c.chans := rfl
@[simp] theorem Ctl.wr_engs (c : Ctl) (f : Fld) (v : Nat) : (c.wr f v).engs = c.engs := rfl
@[simp] theorem Ctl.wr_mbxs (c : Ctl) (f : Fld) (v : Nat) : (c.wr f v).mbxs = c.mbxs := rfl
@[simp] theorem Ctl.wr_seedAt (c : Ctl) (f : Fld) (v : Nat) : (c.wr f v).seedAt = c.seedAt := rfl
@[simp] theorem Ctl.wr_units (c : Ctl) (f : Fld) (v : Nat) : (c.wr f v).units = c.units := rfl
@[simp] theorem Ctl.wr_rechecks (c : Ctl) (f : Fld) (v : Nat) : (c.wr f v).rechecks = c.rechecks := rfl
@[simp] theorem Ctl.wr_items (c : Ctl) (f : Fld) (v : Nat) : (c.wr f v).items = c.items := rfl
@[simp] theorem Ctl.wr_err (c : Ctl) (f : Fld) (v : Nat) : (c.wr f v).err = c.err := rfl
@[simp] theorem Ctl.wr_evseq (c : Ctl) (f : Fld) (v : Nat) : (c.wr f v).evseq = c.evseq := rfl
@[simp] theorem Ctl.wr_sessions (c : Ctl) (f : Fld) (v : Nat) : (c.wr f v).sessions = c.sessions := rfl
@[simp] theorem Ctl.wr_setups (c : Ctl) (f : Fld) (v : Nat) : (c.wr f v).setups = c.setups := rfl
@[simp] theorem Ctl.wr_setupTimes (c : Ctl) (f : Fld) (v : Nat) : (c.wr f v).setupTimes = c.setupTimes := rfl
@[simp] theorem Ctl.wr_nextSid (c : Ctl) (f : Fld) (v : Nat) : (c.wr f v).nextSid = c.nextSid := rfl
@[simp] theorem Ctl.wr_flash (c : Ctl) (f : Fld) (v : Nat) : (c.wr f v).flash = c.flash := rfl
@[simp] theorem Ctl.wr_fuses (c : Ctl) (f : Fld) (v : Nat) : (c.wr f v).fuses = c.fuses := rfl
@[simp] theorem Ctl.wr_fw (c : Ctl) (f : Fld) (v : Nat) : (c.wr f v).fw = c.fw := rfl
@[simp] theorem Ctl.wr_net (c : Ctl) (f : Fld) (v : Nat) : (c.wr f v).net = c.net := rfl
@[simp] theorem Ctl.wr_staging (c : Ctl) (f : Fld) (v : Nat) : (c.wr f v).staging = c.staging := rfl
@[simp] theorem Ctl.wr_optest (c : Ctl) (f : Fld) (v : Nat) : (c.wr f v).optest = c.optest := rfl
@[simp] theorem Ctl.bumpBy_now (c : Ctl) (a n : Nat) : (c.bumpBy a n).now = c.now := rfl
@[simp] theorem Ctl.bumpBy_freeCtr (c : Ctl) (a n : Nat) : (c.bumpBy a n).freeCtr = c.freeCtr := rfl
@[simp] theorem Ctl.bumpBy_out (c : Ctl) (a n : Nat) : (c.bumpBy a n).out = c.out := rfl
@[simp] theorem Ctl.bumpBy_pwr (c : Ctl) (a n : Nat) : (c.bumpBy a n).pwr = c.pwr := rfl
@[simp] theorem Ctl.bumpBy_subs (c : Ctl) (a n : Nat) : (c.bumpBy a n).subs = c.subs := rfl
@[simp] theorem Ctl.bumpBy_lanes (c : Ctl) (a n : Nat) : (c.bumpBy a n).lanes = c.lanes := rfl
@[simp] theorem Ctl.bumpBy_elms (c : Ctl) (a n : Nat) : (c.bumpBy a n).elms = c.elms := rfl
@[simp] theorem Ctl.bumpBy_pairs (c : Ctl) (a n : Nat) : (c.bumpBy a n).pairs = c.pairs := rfl
@[simp] theorem Ctl.bumpBy_flask (c : Ctl) (a n : Nat) : (c.bumpBy a n).flask = c.flask := rfl
@[simp] theorem Ctl.bumpBy_scheds (c : Ctl) (a n : Nat) : (c.bumpBy a n).scheds = c.scheds := rfl
@[simp] theorem Ctl.bumpBy_flaskLost (c : Ctl) (a n : Nat) : (c.bumpBy a n).flaskLost = c.flaskLost := rfl
@[simp] theorem Ctl.bumpBy_intHeld (c : Ctl) (a n : Nat) : (c.bumpBy a n).intHeld = c.intHeld := rfl
@[simp] theorem Ctl.bumpBy_eps (c : Ctl) (a n : Nat) : (c.bumpBy a n).eps = c.eps := rfl
@[simp] theorem Ctl.bumpBy_bays (c : Ctl) (a n : Nat) : (c.bumpBy a n).bays = c.bays := rfl
@[simp] theorem Ctl.bumpBy_exts (c : Ctl) (a n : Nat) : (c.bumpBy a n).exts = c.exts := rfl
@[simp] theorem Ctl.bumpBy_opens (c : Ctl) (a n : Nat) : (c.bumpBy a n).opens = c.opens := rfl
@[simp] theorem Ctl.bumpBy_owns (c : Ctl) (a n : Nat) : (c.bumpBy a n).owns = c.owns := rfl
@[simp] theorem Ctl.bumpBy_nextId (c : Ctl) (a n : Nat) : (c.bumpBy a n).nextId = c.nextId := rfl
@[simp] theorem Ctl.bumpBy_tracker (c : Ctl) (a n : Nat) : (c.bumpBy a n).tracker = c.tracker := rfl
@[simp] theorem Ctl.bumpBy_fences (c : Ctl) (a n : Nat) : (c.bumpBy a n).fences = c.fences := rfl
@[simp] theorem Ctl.bumpBy_peg (c : Ctl) (a n : Nat) : (c.bumpBy a n).peg = c.peg := rfl
@[simp] theorem Ctl.bumpBy_locks (c : Ctl) (a n : Nat) : (c.bumpBy a n).locks = c.locks := rfl
@[simp] theorem Ctl.bumpBy_ctrs (c : Ctl) (a n : Nat) : (c.bumpBy a n).ctrs = c.ctrs := rfl
@[simp] theorem Ctl.bumpBy_doms (c : Ctl) (a n : Nat) : (c.bumpBy a n).doms = c.doms := rfl
@[simp] theorem Ctl.bumpBy_dir (c : Ctl) (a n : Nat) : (c.bumpBy a n).dir = c.dir := rfl
@[simp] theorem Ctl.bumpBy_dirQ (c : Ctl) (a n : Nat) : (c.bumpBy a n).dirQ = c.dirQ := rfl
@[simp] theorem Ctl.bumpBy_homeDirty (c : Ctl) (a n : Nat) : (c.bumpBy a n).homeDirty = c.homeDirty := rfl
@[simp] theorem Ctl.bumpBy_tier (c : Ctl) (a n : Nat) : (c.bumpBy a n).tier = c.tier := rfl
@[simp] theorem Ctl.bumpBy_coded (c : Ctl) (a n : Nat) : (c.bumpBy a n).coded = c.coded := rfl
@[simp] theorem Ctl.bumpBy_phys (c : Ctl) (a n : Nat) : (c.bumpBy a n).phys = c.phys := rfl
@[simp] theorem Ctl.bumpBy_migQ (c : Ctl) (a n : Nat) : (c.bumpBy a n).migQ = c.migQ := rfl
@[simp] theorem Ctl.bumpBy_pubReads (c : Ctl) (a n : Nat) : (c.bumpBy a n).pubReads = c.pubReads := rfl
@[simp] theorem Ctl.bumpBy_kvRegions (c : Ctl) (a n : Nat) : (c.bumpBy a n).kvRegions = c.kvRegions := rfl
@[simp] theorem Ctl.bumpBy_kvPages (c : Ctl) (a n : Nat) : (c.bumpBy a n).kvPages = c.kvPages := rfl
@[simp] theorem Ctl.bumpBy_kvBlocks (c : Ctl) (a n : Nat) : (c.bumpBy a n).kvBlocks = c.kvBlocks := rfl
@[simp] theorem Ctl.bumpBy_kvNodes (c : Ctl) (a n : Nat) : (c.bumpBy a n).kvNodes = c.kvNodes := rfl
@[simp] theorem Ctl.bumpBy_ques (c : Ctl) (a n : Nat) : (c.bumpBy a n).ques = c.ques := rfl
@[simp] theorem Ctl.bumpBy_colls (c : Ctl) (a n : Nat) : (c.bumpBy a n).colls = c.colls := rfl
@[simp] theorem Ctl.bumpBy_rsas (c : Ctl) (a n : Nat) : (c.bumpBy a n).rsas = c.rsas := rfl
@[simp] theorem Ctl.bumpBy_places (c : Ctl) (a n : Nat) : (c.bumpBy a n).places = c.places := rfl
@[simp] theorem Ctl.bumpBy_tiles (c : Ctl) (a n : Nat) : (c.bumpBy a n).tiles = c.tiles := rfl
@[simp] theorem Ctl.bumpBy_tileMap (c : Ctl) (a n : Nat) : (c.bumpBy a n).tileMap = c.tileMap := rfl
@[simp] theorem Ctl.bumpBy_clearing (c : Ctl) (a n : Nat) : (c.bumpBy a n).clearing = c.clearing := rfl
@[simp] theorem Ctl.bumpBy_bayTests (c : Ctl) (a n : Nat) : (c.bumpBy a n).bayTests = c.bayTests := rfl
@[simp] theorem Ctl.bumpBy_tally (c : Ctl) (a n : Nat) : (c.bumpBy a n).tally = c.tally := rfl
@[simp] theorem Ctl.bumpBy_chans (c : Ctl) (a n : Nat) : (c.bumpBy a n).chans = c.chans := rfl
@[simp] theorem Ctl.bumpBy_engs (c : Ctl) (a n : Nat) : (c.bumpBy a n).engs = c.engs := rfl
@[simp] theorem Ctl.bumpBy_mbxs (c : Ctl) (a n : Nat) : (c.bumpBy a n).mbxs = c.mbxs := rfl
@[simp] theorem Ctl.bumpBy_seedAt (c : Ctl) (a n : Nat) : (c.bumpBy a n).seedAt = c.seedAt := rfl
@[simp] theorem Ctl.bumpBy_units (c : Ctl) (a n : Nat) : (c.bumpBy a n).units = c.units := rfl
@[simp] theorem Ctl.bumpBy_rechecks (c : Ctl) (a n : Nat) : (c.bumpBy a n).rechecks = c.rechecks := rfl
@[simp] theorem Ctl.bumpBy_items (c : Ctl) (a n : Nat) : (c.bumpBy a n).items = c.items := rfl
@[simp] theorem Ctl.bumpBy_err (c : Ctl) (a n : Nat) : (c.bumpBy a n).err = c.err := rfl
@[simp] theorem Ctl.bumpBy_evseq (c : Ctl) (a n : Nat) : (c.bumpBy a n).evseq = c.evseq := rfl
@[simp] theorem Ctl.bumpBy_sessions (c : Ctl) (a n : Nat) : (c.bumpBy a n).sessions = c.sessions := rfl
@[simp] theorem Ctl.bumpBy_setups (c : Ctl) (a n : Nat) : (c.bumpBy a n).setups = c.setups := rfl
@[simp] theorem Ctl.bumpBy_setupTimes (c : Ctl) (a n : Nat) : (c.bumpBy a n).setupTimes = c.setupTimes := rfl
@[simp] theorem Ctl.bumpBy_nextSid (c : Ctl) (a n : Nat) : (c.bumpBy a n).nextSid = c.nextSid := rfl
@[simp] theorem Ctl.bumpBy_flash (c : Ctl) (a n : Nat) : (c.bumpBy a n).flash = c.flash := rfl
@[simp] theorem Ctl.bumpBy_fuses (c : Ctl) (a n : Nat) : (c.bumpBy a n).fuses = c.fuses := rfl
@[simp] theorem Ctl.bumpBy_fw (c : Ctl) (a n : Nat) : (c.bumpBy a n).fw = c.fw := rfl
@[simp] theorem Ctl.bumpBy_net (c : Ctl) (a n : Nat) : (c.bumpBy a n).net = c.net := rfl
@[simp] theorem Ctl.bumpBy_staging (c : Ctl) (a n : Nat) : (c.bumpBy a n).staging = c.staging := rfl
@[simp] theorem Ctl.bumpBy_optest (c : Ctl) (a n : Nat) : (c.bumpBy a n).optest = c.optest := rfl
@[simp] theorem Ctl.bump_now (c : Ctl) (a : Nat) : (c.bump a).now = c.now := rfl
@[simp] theorem Ctl.bump_freeCtr (c : Ctl) (a : Nat) : (c.bump a).freeCtr = c.freeCtr := rfl
@[simp] theorem Ctl.bump_out (c : Ctl) (a : Nat) : (c.bump a).out = c.out := rfl
@[simp] theorem Ctl.bump_pwr (c : Ctl) (a : Nat) : (c.bump a).pwr = c.pwr := rfl
@[simp] theorem Ctl.bump_subs (c : Ctl) (a : Nat) : (c.bump a).subs = c.subs := rfl
@[simp] theorem Ctl.bump_lanes (c : Ctl) (a : Nat) : (c.bump a).lanes = c.lanes := rfl
@[simp] theorem Ctl.bump_elms (c : Ctl) (a : Nat) : (c.bump a).elms = c.elms := rfl
@[simp] theorem Ctl.bump_pairs (c : Ctl) (a : Nat) : (c.bump a).pairs = c.pairs := rfl
@[simp] theorem Ctl.bump_flask (c : Ctl) (a : Nat) : (c.bump a).flask = c.flask := rfl
@[simp] theorem Ctl.bump_scheds (c : Ctl) (a : Nat) : (c.bump a).scheds = c.scheds := rfl
@[simp] theorem Ctl.bump_flaskLost (c : Ctl) (a : Nat) : (c.bump a).flaskLost = c.flaskLost := rfl
@[simp] theorem Ctl.bump_intHeld (c : Ctl) (a : Nat) : (c.bump a).intHeld = c.intHeld := rfl
@[simp] theorem Ctl.bump_eps (c : Ctl) (a : Nat) : (c.bump a).eps = c.eps := rfl
@[simp] theorem Ctl.bump_bays (c : Ctl) (a : Nat) : (c.bump a).bays = c.bays := rfl
@[simp] theorem Ctl.bump_exts (c : Ctl) (a : Nat) : (c.bump a).exts = c.exts := rfl
@[simp] theorem Ctl.bump_opens (c : Ctl) (a : Nat) : (c.bump a).opens = c.opens := rfl
@[simp] theorem Ctl.bump_owns (c : Ctl) (a : Nat) : (c.bump a).owns = c.owns := rfl
@[simp] theorem Ctl.bump_nextId (c : Ctl) (a : Nat) : (c.bump a).nextId = c.nextId := rfl
@[simp] theorem Ctl.bump_tracker (c : Ctl) (a : Nat) : (c.bump a).tracker = c.tracker := rfl
@[simp] theorem Ctl.bump_fences (c : Ctl) (a : Nat) : (c.bump a).fences = c.fences := rfl
@[simp] theorem Ctl.bump_peg (c : Ctl) (a : Nat) : (c.bump a).peg = c.peg := rfl
@[simp] theorem Ctl.bump_locks (c : Ctl) (a : Nat) : (c.bump a).locks = c.locks := rfl
@[simp] theorem Ctl.bump_ctrs (c : Ctl) (a : Nat) : (c.bump a).ctrs = c.ctrs := rfl
@[simp] theorem Ctl.bump_doms (c : Ctl) (a : Nat) : (c.bump a).doms = c.doms := rfl
@[simp] theorem Ctl.bump_dir (c : Ctl) (a : Nat) : (c.bump a).dir = c.dir := rfl
@[simp] theorem Ctl.bump_dirQ (c : Ctl) (a : Nat) : (c.bump a).dirQ = c.dirQ := rfl
@[simp] theorem Ctl.bump_homeDirty (c : Ctl) (a : Nat) : (c.bump a).homeDirty = c.homeDirty := rfl
@[simp] theorem Ctl.bump_tier (c : Ctl) (a : Nat) : (c.bump a).tier = c.tier := rfl
@[simp] theorem Ctl.bump_coded (c : Ctl) (a : Nat) : (c.bump a).coded = c.coded := rfl
@[simp] theorem Ctl.bump_phys (c : Ctl) (a : Nat) : (c.bump a).phys = c.phys := rfl
@[simp] theorem Ctl.bump_migQ (c : Ctl) (a : Nat) : (c.bump a).migQ = c.migQ := rfl
@[simp] theorem Ctl.bump_pubReads (c : Ctl) (a : Nat) : (c.bump a).pubReads = c.pubReads := rfl
@[simp] theorem Ctl.bump_kvRegions (c : Ctl) (a : Nat) : (c.bump a).kvRegions = c.kvRegions := rfl
@[simp] theorem Ctl.bump_kvPages (c : Ctl) (a : Nat) : (c.bump a).kvPages = c.kvPages := rfl
@[simp] theorem Ctl.bump_kvBlocks (c : Ctl) (a : Nat) : (c.bump a).kvBlocks = c.kvBlocks := rfl
@[simp] theorem Ctl.bump_kvNodes (c : Ctl) (a : Nat) : (c.bump a).kvNodes = c.kvNodes := rfl
@[simp] theorem Ctl.bump_ques (c : Ctl) (a : Nat) : (c.bump a).ques = c.ques := rfl
@[simp] theorem Ctl.bump_colls (c : Ctl) (a : Nat) : (c.bump a).colls = c.colls := rfl
@[simp] theorem Ctl.bump_rsas (c : Ctl) (a : Nat) : (c.bump a).rsas = c.rsas := rfl
@[simp] theorem Ctl.bump_places (c : Ctl) (a : Nat) : (c.bump a).places = c.places := rfl
@[simp] theorem Ctl.bump_tiles (c : Ctl) (a : Nat) : (c.bump a).tiles = c.tiles := rfl
@[simp] theorem Ctl.bump_tileMap (c : Ctl) (a : Nat) : (c.bump a).tileMap = c.tileMap := rfl
@[simp] theorem Ctl.bump_clearing (c : Ctl) (a : Nat) : (c.bump a).clearing = c.clearing := rfl
@[simp] theorem Ctl.bump_bayTests (c : Ctl) (a : Nat) : (c.bump a).bayTests = c.bayTests := rfl
@[simp] theorem Ctl.bump_tally (c : Ctl) (a : Nat) : (c.bump a).tally = c.tally := rfl
@[simp] theorem Ctl.bump_chans (c : Ctl) (a : Nat) : (c.bump a).chans = c.chans := rfl
@[simp] theorem Ctl.bump_engs (c : Ctl) (a : Nat) : (c.bump a).engs = c.engs := rfl
@[simp] theorem Ctl.bump_mbxs (c : Ctl) (a : Nat) : (c.bump a).mbxs = c.mbxs := rfl
@[simp] theorem Ctl.bump_seedAt (c : Ctl) (a : Nat) : (c.bump a).seedAt = c.seedAt := rfl
@[simp] theorem Ctl.bump_units (c : Ctl) (a : Nat) : (c.bump a).units = c.units := rfl
@[simp] theorem Ctl.bump_rechecks (c : Ctl) (a : Nat) : (c.bump a).rechecks = c.rechecks := rfl
@[simp] theorem Ctl.bump_items (c : Ctl) (a : Nat) : (c.bump a).items = c.items := rfl
@[simp] theorem Ctl.bump_err (c : Ctl) (a : Nat) : (c.bump a).err = c.err := rfl
@[simp] theorem Ctl.bump_evseq (c : Ctl) (a : Nat) : (c.bump a).evseq = c.evseq := rfl
@[simp] theorem Ctl.bump_sessions (c : Ctl) (a : Nat) : (c.bump a).sessions = c.sessions := rfl
@[simp] theorem Ctl.bump_setups (c : Ctl) (a : Nat) : (c.bump a).setups = c.setups := rfl
@[simp] theorem Ctl.bump_setupTimes (c : Ctl) (a : Nat) : (c.bump a).setupTimes = c.setupTimes := rfl
@[simp] theorem Ctl.bump_nextSid (c : Ctl) (a : Nat) : (c.bump a).nextSid = c.nextSid := rfl
@[simp] theorem Ctl.bump_flash (c : Ctl) (a : Nat) : (c.bump a).flash = c.flash := rfl
@[simp] theorem Ctl.bump_fuses (c : Ctl) (a : Nat) : (c.bump a).fuses = c.fuses := rfl
@[simp] theorem Ctl.bump_fw (c : Ctl) (a : Nat) : (c.bump a).fw = c.fw := rfl
@[simp] theorem Ctl.bump_net (c : Ctl) (a : Nat) : (c.bump a).net = c.net := rfl
@[simp] theorem Ctl.bump_staging (c : Ctl) (a : Nat) : (c.bump a).staging = c.staging := rfl
@[simp] theorem Ctl.bump_optest (c : Ctl) (a : Nat) : (c.bump a).optest = c.optest := rfl
@[simp] theorem Ctl.bumpF_now (c : Ctl) (f : Fld) (n : Nat) : (c.bumpF f n).now = c.now := rfl
@[simp] theorem Ctl.bumpF_freeCtr (c : Ctl) (f : Fld) (n : Nat) : (c.bumpF f n).freeCtr = c.freeCtr := rfl
@[simp] theorem Ctl.bumpF_out (c : Ctl) (f : Fld) (n : Nat) : (c.bumpF f n).out = c.out := rfl
@[simp] theorem Ctl.bumpF_pwr (c : Ctl) (f : Fld) (n : Nat) : (c.bumpF f n).pwr = c.pwr := rfl
@[simp] theorem Ctl.bumpF_subs (c : Ctl) (f : Fld) (n : Nat) : (c.bumpF f n).subs = c.subs := rfl
@[simp] theorem Ctl.bumpF_lanes (c : Ctl) (f : Fld) (n : Nat) : (c.bumpF f n).lanes = c.lanes := rfl
@[simp] theorem Ctl.bumpF_elms (c : Ctl) (f : Fld) (n : Nat) : (c.bumpF f n).elms = c.elms := rfl
@[simp] theorem Ctl.bumpF_pairs (c : Ctl) (f : Fld) (n : Nat) : (c.bumpF f n).pairs = c.pairs := rfl
@[simp] theorem Ctl.bumpF_flask (c : Ctl) (f : Fld) (n : Nat) : (c.bumpF f n).flask = c.flask := rfl
@[simp] theorem Ctl.bumpF_scheds (c : Ctl) (f : Fld) (n : Nat) : (c.bumpF f n).scheds = c.scheds := rfl
@[simp] theorem Ctl.bumpF_flaskLost (c : Ctl) (f : Fld) (n : Nat) : (c.bumpF f n).flaskLost = c.flaskLost := rfl
@[simp] theorem Ctl.bumpF_intHeld (c : Ctl) (f : Fld) (n : Nat) : (c.bumpF f n).intHeld = c.intHeld := rfl
@[simp] theorem Ctl.bumpF_eps (c : Ctl) (f : Fld) (n : Nat) : (c.bumpF f n).eps = c.eps := rfl
@[simp] theorem Ctl.bumpF_bays (c : Ctl) (f : Fld) (n : Nat) : (c.bumpF f n).bays = c.bays := rfl
@[simp] theorem Ctl.bumpF_exts (c : Ctl) (f : Fld) (n : Nat) : (c.bumpF f n).exts = c.exts := rfl
@[simp] theorem Ctl.bumpF_opens (c : Ctl) (f : Fld) (n : Nat) : (c.bumpF f n).opens = c.opens := rfl
@[simp] theorem Ctl.bumpF_owns (c : Ctl) (f : Fld) (n : Nat) : (c.bumpF f n).owns = c.owns := rfl
@[simp] theorem Ctl.bumpF_nextId (c : Ctl) (f : Fld) (n : Nat) : (c.bumpF f n).nextId = c.nextId := rfl
@[simp] theorem Ctl.bumpF_tracker (c : Ctl) (f : Fld) (n : Nat) : (c.bumpF f n).tracker = c.tracker := rfl
@[simp] theorem Ctl.bumpF_fences (c : Ctl) (f : Fld) (n : Nat) : (c.bumpF f n).fences = c.fences := rfl
@[simp] theorem Ctl.bumpF_peg (c : Ctl) (f : Fld) (n : Nat) : (c.bumpF f n).peg = c.peg := rfl
@[simp] theorem Ctl.bumpF_locks (c : Ctl) (f : Fld) (n : Nat) : (c.bumpF f n).locks = c.locks := rfl
@[simp] theorem Ctl.bumpF_ctrs (c : Ctl) (f : Fld) (n : Nat) : (c.bumpF f n).ctrs = c.ctrs := rfl
@[simp] theorem Ctl.bumpF_doms (c : Ctl) (f : Fld) (n : Nat) : (c.bumpF f n).doms = c.doms := rfl
@[simp] theorem Ctl.bumpF_dir (c : Ctl) (f : Fld) (n : Nat) : (c.bumpF f n).dir = c.dir := rfl
@[simp] theorem Ctl.bumpF_dirQ (c : Ctl) (f : Fld) (n : Nat) : (c.bumpF f n).dirQ = c.dirQ := rfl
@[simp] theorem Ctl.bumpF_homeDirty (c : Ctl) (f : Fld) (n : Nat) : (c.bumpF f n).homeDirty = c.homeDirty := rfl
@[simp] theorem Ctl.bumpF_tier (c : Ctl) (f : Fld) (n : Nat) : (c.bumpF f n).tier = c.tier := rfl
@[simp] theorem Ctl.bumpF_coded (c : Ctl) (f : Fld) (n : Nat) : (c.bumpF f n).coded = c.coded := rfl
@[simp] theorem Ctl.bumpF_phys (c : Ctl) (f : Fld) (n : Nat) : (c.bumpF f n).phys = c.phys := rfl
@[simp] theorem Ctl.bumpF_migQ (c : Ctl) (f : Fld) (n : Nat) : (c.bumpF f n).migQ = c.migQ := rfl
@[simp] theorem Ctl.bumpF_pubReads (c : Ctl) (f : Fld) (n : Nat) : (c.bumpF f n).pubReads = c.pubReads := rfl
@[simp] theorem Ctl.bumpF_kvRegions (c : Ctl) (f : Fld) (n : Nat) : (c.bumpF f n).kvRegions = c.kvRegions := rfl
@[simp] theorem Ctl.bumpF_kvPages (c : Ctl) (f : Fld) (n : Nat) : (c.bumpF f n).kvPages = c.kvPages := rfl
@[simp] theorem Ctl.bumpF_kvBlocks (c : Ctl) (f : Fld) (n : Nat) : (c.bumpF f n).kvBlocks = c.kvBlocks := rfl
@[simp] theorem Ctl.bumpF_kvNodes (c : Ctl) (f : Fld) (n : Nat) : (c.bumpF f n).kvNodes = c.kvNodes := rfl
@[simp] theorem Ctl.bumpF_ques (c : Ctl) (f : Fld) (n : Nat) : (c.bumpF f n).ques = c.ques := rfl
@[simp] theorem Ctl.bumpF_colls (c : Ctl) (f : Fld) (n : Nat) : (c.bumpF f n).colls = c.colls := rfl
@[simp] theorem Ctl.bumpF_rsas (c : Ctl) (f : Fld) (n : Nat) : (c.bumpF f n).rsas = c.rsas := rfl
@[simp] theorem Ctl.bumpF_places (c : Ctl) (f : Fld) (n : Nat) : (c.bumpF f n).places = c.places := rfl
@[simp] theorem Ctl.bumpF_tiles (c : Ctl) (f : Fld) (n : Nat) : (c.bumpF f n).tiles = c.tiles := rfl
@[simp] theorem Ctl.bumpF_tileMap (c : Ctl) (f : Fld) (n : Nat) : (c.bumpF f n).tileMap = c.tileMap := rfl
@[simp] theorem Ctl.bumpF_clearing (c : Ctl) (f : Fld) (n : Nat) : (c.bumpF f n).clearing = c.clearing := rfl
@[simp] theorem Ctl.bumpF_bayTests (c : Ctl) (f : Fld) (n : Nat) : (c.bumpF f n).bayTests = c.bayTests := rfl
@[simp] theorem Ctl.bumpF_tally (c : Ctl) (f : Fld) (n : Nat) : (c.bumpF f n).tally = c.tally := rfl
@[simp] theorem Ctl.bumpF_chans (c : Ctl) (f : Fld) (n : Nat) : (c.bumpF f n).chans = c.chans := rfl
@[simp] theorem Ctl.bumpF_engs (c : Ctl) (f : Fld) (n : Nat) : (c.bumpF f n).engs = c.engs := rfl
@[simp] theorem Ctl.bumpF_mbxs (c : Ctl) (f : Fld) (n : Nat) : (c.bumpF f n).mbxs = c.mbxs := rfl
@[simp] theorem Ctl.bumpF_seedAt (c : Ctl) (f : Fld) (n : Nat) : (c.bumpF f n).seedAt = c.seedAt := rfl
@[simp] theorem Ctl.bumpF_units (c : Ctl) (f : Fld) (n : Nat) : (c.bumpF f n).units = c.units := rfl
@[simp] theorem Ctl.bumpF_rechecks (c : Ctl) (f : Fld) (n : Nat) : (c.bumpF f n).rechecks = c.rechecks := rfl
@[simp] theorem Ctl.bumpF_items (c : Ctl) (f : Fld) (n : Nat) : (c.bumpF f n).items = c.items := rfl
@[simp] theorem Ctl.bumpF_err (c : Ctl) (f : Fld) (n : Nat) : (c.bumpF f n).err = c.err := rfl
@[simp] theorem Ctl.bumpF_evseq (c : Ctl) (f : Fld) (n : Nat) : (c.bumpF f n).evseq = c.evseq := rfl
@[simp] theorem Ctl.bumpF_sessions (c : Ctl) (f : Fld) (n : Nat) : (c.bumpF f n).sessions = c.sessions := rfl
@[simp] theorem Ctl.bumpF_setups (c : Ctl) (f : Fld) (n : Nat) : (c.bumpF f n).setups = c.setups := rfl
@[simp] theorem Ctl.bumpF_setupTimes (c : Ctl) (f : Fld) (n : Nat) : (c.bumpF f n).setupTimes = c.setupTimes := rfl
@[simp] theorem Ctl.bumpF_nextSid (c : Ctl) (f : Fld) (n : Nat) : (c.bumpF f n).nextSid = c.nextSid := rfl
@[simp] theorem Ctl.bumpF_flash (c : Ctl) (f : Fld) (n : Nat) : (c.bumpF f n).flash = c.flash := rfl
@[simp] theorem Ctl.bumpF_fuses (c : Ctl) (f : Fld) (n : Nat) : (c.bumpF f n).fuses = c.fuses := rfl
@[simp] theorem Ctl.bumpF_fw (c : Ctl) (f : Fld) (n : Nat) : (c.bumpF f n).fw = c.fw := rfl
@[simp] theorem Ctl.bumpF_net (c : Ctl) (f : Fld) (n : Nat) : (c.bumpF f n).net = c.net := rfl
@[simp] theorem Ctl.bumpF_staging (c : Ctl) (f : Fld) (n : Nat) : (c.bumpF f n).staging = c.staging := rfl
@[simp] theorem Ctl.bumpF_optest (c : Ctl) (f : Fld) (n : Nat) : (c.bumpF f n).optest = c.optest := rfl

/-! ### Records: what an update of one leaves alone, and reading it back -/

@[simp] theorem Ctl.emit_now (c : Ctl) (o : Output) : (c.emit o).now = c.now := rfl
@[simp] theorem Ctl.emit_freeCtr (c : Ctl) (o : Output) : (c.emit o).freeCtr = c.freeCtr := rfl
@[simp] theorem Ctl.emit_regs (c : Ctl) (o : Output) : (c.emit o).regs = c.regs := rfl
@[simp] theorem Ctl.emit_pwr (c : Ctl) (o : Output) : (c.emit o).pwr = c.pwr := rfl
@[simp] theorem Ctl.emit_subs (c : Ctl) (o : Output) : (c.emit o).subs = c.subs := rfl
@[simp] theorem Ctl.emit_lanes (c : Ctl) (o : Output) : (c.emit o).lanes = c.lanes := rfl
@[simp] theorem Ctl.emit_elms (c : Ctl) (o : Output) : (c.emit o).elms = c.elms := rfl
@[simp] theorem Ctl.emit_pairs (c : Ctl) (o : Output) : (c.emit o).pairs = c.pairs := rfl
@[simp] theorem Ctl.emit_flask (c : Ctl) (o : Output) : (c.emit o).flask = c.flask := rfl
@[simp] theorem Ctl.emit_scheds (c : Ctl) (o : Output) : (c.emit o).scheds = c.scheds := rfl
@[simp] theorem Ctl.emit_flaskLost (c : Ctl) (o : Output) : (c.emit o).flaskLost = c.flaskLost := rfl
@[simp] theorem Ctl.emit_intHeld (c : Ctl) (o : Output) : (c.emit o).intHeld = c.intHeld := rfl
@[simp] theorem Ctl.emit_eps (c : Ctl) (o : Output) : (c.emit o).eps = c.eps := rfl
@[simp] theorem Ctl.emit_bays (c : Ctl) (o : Output) : (c.emit o).bays = c.bays := rfl
@[simp] theorem Ctl.emit_exts (c : Ctl) (o : Output) : (c.emit o).exts = c.exts := rfl
@[simp] theorem Ctl.emit_opens (c : Ctl) (o : Output) : (c.emit o).opens = c.opens := rfl
@[simp] theorem Ctl.emit_owns (c : Ctl) (o : Output) : (c.emit o).owns = c.owns := rfl
@[simp] theorem Ctl.emit_nextId (c : Ctl) (o : Output) : (c.emit o).nextId = c.nextId := rfl
@[simp] theorem Ctl.emit_tracker (c : Ctl) (o : Output) : (c.emit o).tracker = c.tracker := rfl
@[simp] theorem Ctl.emit_fences (c : Ctl) (o : Output) : (c.emit o).fences = c.fences := rfl
@[simp] theorem Ctl.emit_peg (c : Ctl) (o : Output) : (c.emit o).peg = c.peg := rfl
@[simp] theorem Ctl.emit_locks (c : Ctl) (o : Output) : (c.emit o).locks = c.locks := rfl
@[simp] theorem Ctl.emit_ctrs (c : Ctl) (o : Output) : (c.emit o).ctrs = c.ctrs := rfl
@[simp] theorem Ctl.emit_doms (c : Ctl) (o : Output) : (c.emit o).doms = c.doms := rfl
@[simp] theorem Ctl.emit_dir (c : Ctl) (o : Output) : (c.emit o).dir = c.dir := rfl
@[simp] theorem Ctl.emit_dirQ (c : Ctl) (o : Output) : (c.emit o).dirQ = c.dirQ := rfl
@[simp] theorem Ctl.emit_homeDirty (c : Ctl) (o : Output) : (c.emit o).homeDirty = c.homeDirty := rfl
@[simp] theorem Ctl.emit_tier (c : Ctl) (o : Output) : (c.emit o).tier = c.tier := rfl
@[simp] theorem Ctl.emit_coded (c : Ctl) (o : Output) : (c.emit o).coded = c.coded := rfl
@[simp] theorem Ctl.emit_phys (c : Ctl) (o : Output) : (c.emit o).phys = c.phys := rfl
@[simp] theorem Ctl.emit_migQ (c : Ctl) (o : Output) : (c.emit o).migQ = c.migQ := rfl
@[simp] theorem Ctl.emit_pubReads (c : Ctl) (o : Output) : (c.emit o).pubReads = c.pubReads := rfl
@[simp] theorem Ctl.emit_kvRegions (c : Ctl) (o : Output) : (c.emit o).kvRegions = c.kvRegions := rfl
@[simp] theorem Ctl.emit_kvPages (c : Ctl) (o : Output) : (c.emit o).kvPages = c.kvPages := rfl
@[simp] theorem Ctl.emit_kvBlocks (c : Ctl) (o : Output) : (c.emit o).kvBlocks = c.kvBlocks := rfl
@[simp] theorem Ctl.emit_kvNodes (c : Ctl) (o : Output) : (c.emit o).kvNodes = c.kvNodes := rfl
@[simp] theorem Ctl.emit_ques (c : Ctl) (o : Output) : (c.emit o).ques = c.ques := rfl
@[simp] theorem Ctl.emit_colls (c : Ctl) (o : Output) : (c.emit o).colls = c.colls := rfl
@[simp] theorem Ctl.emit_rsas (c : Ctl) (o : Output) : (c.emit o).rsas = c.rsas := rfl
@[simp] theorem Ctl.emit_places (c : Ctl) (o : Output) : (c.emit o).places = c.places := rfl
@[simp] theorem Ctl.emit_tiles (c : Ctl) (o : Output) : (c.emit o).tiles = c.tiles := rfl
@[simp] theorem Ctl.emit_tileMap (c : Ctl) (o : Output) : (c.emit o).tileMap = c.tileMap := rfl
@[simp] theorem Ctl.emit_clearing (c : Ctl) (o : Output) : (c.emit o).clearing = c.clearing := rfl
@[simp] theorem Ctl.emit_bayTests (c : Ctl) (o : Output) : (c.emit o).bayTests = c.bayTests := rfl
@[simp] theorem Ctl.emit_tally (c : Ctl) (o : Output) : (c.emit o).tally = c.tally := rfl
@[simp] theorem Ctl.emit_chans (c : Ctl) (o : Output) : (c.emit o).chans = c.chans := rfl
@[simp] theorem Ctl.emit_engs (c : Ctl) (o : Output) : (c.emit o).engs = c.engs := rfl
@[simp] theorem Ctl.emit_mbxs (c : Ctl) (o : Output) : (c.emit o).mbxs = c.mbxs := rfl
@[simp] theorem Ctl.emit_seedAt (c : Ctl) (o : Output) : (c.emit o).seedAt = c.seedAt := rfl
@[simp] theorem Ctl.emit_units (c : Ctl) (o : Output) : (c.emit o).units = c.units := rfl
@[simp] theorem Ctl.emit_rechecks (c : Ctl) (o : Output) : (c.emit o).rechecks = c.rechecks := rfl
@[simp] theorem Ctl.emit_items (c : Ctl) (o : Output) : (c.emit o).items = c.items := rfl
@[simp] theorem Ctl.emit_err (c : Ctl) (o : Output) : (c.emit o).err = c.err := rfl
@[simp] theorem Ctl.emit_evseq (c : Ctl) (o : Output) : (c.emit o).evseq = c.evseq := rfl
@[simp] theorem Ctl.emit_sessions (c : Ctl) (o : Output) : (c.emit o).sessions = c.sessions := rfl
@[simp] theorem Ctl.emit_setups (c : Ctl) (o : Output) : (c.emit o).setups = c.setups := rfl
@[simp] theorem Ctl.emit_setupTimes (c : Ctl) (o : Output) : (c.emit o).setupTimes = c.setupTimes := rfl
@[simp] theorem Ctl.emit_nextSid (c : Ctl) (o : Output) : (c.emit o).nextSid = c.nextSid := rfl
@[simp] theorem Ctl.emit_flash (c : Ctl) (o : Output) : (c.emit o).flash = c.flash := rfl
@[simp] theorem Ctl.emit_fuses (c : Ctl) (o : Output) : (c.emit o).fuses = c.fuses := rfl
@[simp] theorem Ctl.emit_fw (c : Ctl) (o : Output) : (c.emit o).fw = c.fw := rfl
@[simp] theorem Ctl.emit_net (c : Ctl) (o : Output) : (c.emit o).net = c.net := rfl
@[simp] theorem Ctl.emit_staging (c : Ctl) (o : Output) : (c.emit o).staging = c.staging := rfl
@[simp] theorem Ctl.emit_optest (c : Ctl) (o : Output) : (c.emit o).optest = c.optest := rfl
@[simp] theorem Ctl.emit_out (c : Ctl) (o : Output) : (c.emit o).out = c.out ++ [o] := rfl
@[simp] theorem Ctl.emit_reg (c : Ctl) (o : Output) (a : Nat) : (c.emit o).reg a = c.reg a := rfl
@[simp] theorem Ctl.emit_rd (c : Ctl) (o : Output) (f : Fld) : (c.emit o).rd f = c.rd f := rfl
@[simp] theorem Ctl.putSub_now (c : Ctl) (p s : Nat) (v : SubPort) : (c.putSub p s v).now = c.now := rfl
@[simp] theorem Ctl.putSub_freeCtr (c : Ctl) (p s : Nat) (v : SubPort) : (c.putSub p s v).freeCtr = c.freeCtr := rfl
@[simp] theorem Ctl.putSub_out (c : Ctl) (p s : Nat) (v : SubPort) : (c.putSub p s v).out = c.out := rfl
@[simp] theorem Ctl.putSub_regs (c : Ctl) (p s : Nat) (v : SubPort) : (c.putSub p s v).regs = c.regs := rfl
@[simp] theorem Ctl.putSub_pwr (c : Ctl) (p s : Nat) (v : SubPort) : (c.putSub p s v).pwr = c.pwr := rfl
@[simp] theorem Ctl.putSub_lanes (c : Ctl) (p s : Nat) (v : SubPort) : (c.putSub p s v).lanes = c.lanes := rfl
@[simp] theorem Ctl.putSub_elms (c : Ctl) (p s : Nat) (v : SubPort) : (c.putSub p s v).elms = c.elms := rfl
@[simp] theorem Ctl.putSub_pairs (c : Ctl) (p s : Nat) (v : SubPort) : (c.putSub p s v).pairs = c.pairs := rfl
@[simp] theorem Ctl.putSub_flask (c : Ctl) (p s : Nat) (v : SubPort) : (c.putSub p s v).flask = c.flask := rfl
@[simp] theorem Ctl.putSub_scheds (c : Ctl) (p s : Nat) (v : SubPort) : (c.putSub p s v).scheds = c.scheds := rfl
@[simp] theorem Ctl.putSub_flaskLost (c : Ctl) (p s : Nat) (v : SubPort) : (c.putSub p s v).flaskLost = c.flaskLost := rfl
@[simp] theorem Ctl.putSub_intHeld (c : Ctl) (p s : Nat) (v : SubPort) : (c.putSub p s v).intHeld = c.intHeld := rfl
@[simp] theorem Ctl.putSub_eps (c : Ctl) (p s : Nat) (v : SubPort) : (c.putSub p s v).eps = c.eps := rfl
@[simp] theorem Ctl.putSub_bays (c : Ctl) (p s : Nat) (v : SubPort) : (c.putSub p s v).bays = c.bays := rfl
@[simp] theorem Ctl.putSub_exts (c : Ctl) (p s : Nat) (v : SubPort) : (c.putSub p s v).exts = c.exts := rfl
@[simp] theorem Ctl.putSub_opens (c : Ctl) (p s : Nat) (v : SubPort) : (c.putSub p s v).opens = c.opens := rfl
@[simp] theorem Ctl.putSub_owns (c : Ctl) (p s : Nat) (v : SubPort) : (c.putSub p s v).owns = c.owns := rfl
@[simp] theorem Ctl.putSub_nextId (c : Ctl) (p s : Nat) (v : SubPort) : (c.putSub p s v).nextId = c.nextId := rfl
@[simp] theorem Ctl.putSub_tracker (c : Ctl) (p s : Nat) (v : SubPort) : (c.putSub p s v).tracker = c.tracker := rfl
@[simp] theorem Ctl.putSub_fences (c : Ctl) (p s : Nat) (v : SubPort) : (c.putSub p s v).fences = c.fences := rfl
@[simp] theorem Ctl.putSub_peg (c : Ctl) (p s : Nat) (v : SubPort) : (c.putSub p s v).peg = c.peg := rfl
@[simp] theorem Ctl.putSub_locks (c : Ctl) (p s : Nat) (v : SubPort) : (c.putSub p s v).locks = c.locks := rfl
@[simp] theorem Ctl.putSub_ctrs (c : Ctl) (p s : Nat) (v : SubPort) : (c.putSub p s v).ctrs = c.ctrs := rfl
@[simp] theorem Ctl.putSub_doms (c : Ctl) (p s : Nat) (v : SubPort) : (c.putSub p s v).doms = c.doms := rfl
@[simp] theorem Ctl.putSub_dir (c : Ctl) (p s : Nat) (v : SubPort) : (c.putSub p s v).dir = c.dir := rfl
@[simp] theorem Ctl.putSub_dirQ (c : Ctl) (p s : Nat) (v : SubPort) : (c.putSub p s v).dirQ = c.dirQ := rfl
@[simp] theorem Ctl.putSub_homeDirty (c : Ctl) (p s : Nat) (v : SubPort) : (c.putSub p s v).homeDirty = c.homeDirty := rfl
@[simp] theorem Ctl.putSub_tier (c : Ctl) (p s : Nat) (v : SubPort) : (c.putSub p s v).tier = c.tier := rfl
@[simp] theorem Ctl.putSub_coded (c : Ctl) (p s : Nat) (v : SubPort) : (c.putSub p s v).coded = c.coded := rfl
@[simp] theorem Ctl.putSub_phys (c : Ctl) (p s : Nat) (v : SubPort) : (c.putSub p s v).phys = c.phys := rfl
@[simp] theorem Ctl.putSub_migQ (c : Ctl) (p s : Nat) (v : SubPort) : (c.putSub p s v).migQ = c.migQ := rfl
@[simp] theorem Ctl.putSub_pubReads (c : Ctl) (p s : Nat) (v : SubPort) : (c.putSub p s v).pubReads = c.pubReads := rfl
@[simp] theorem Ctl.putSub_kvRegions (c : Ctl) (p s : Nat) (v : SubPort) : (c.putSub p s v).kvRegions = c.kvRegions := rfl
@[simp] theorem Ctl.putSub_kvPages (c : Ctl) (p s : Nat) (v : SubPort) : (c.putSub p s v).kvPages = c.kvPages := rfl
@[simp] theorem Ctl.putSub_kvBlocks (c : Ctl) (p s : Nat) (v : SubPort) : (c.putSub p s v).kvBlocks = c.kvBlocks := rfl
@[simp] theorem Ctl.putSub_kvNodes (c : Ctl) (p s : Nat) (v : SubPort) : (c.putSub p s v).kvNodes = c.kvNodes := rfl
@[simp] theorem Ctl.putSub_ques (c : Ctl) (p s : Nat) (v : SubPort) : (c.putSub p s v).ques = c.ques := rfl
@[simp] theorem Ctl.putSub_colls (c : Ctl) (p s : Nat) (v : SubPort) : (c.putSub p s v).colls = c.colls := rfl
@[simp] theorem Ctl.putSub_rsas (c : Ctl) (p s : Nat) (v : SubPort) : (c.putSub p s v).rsas = c.rsas := rfl
@[simp] theorem Ctl.putSub_places (c : Ctl) (p s : Nat) (v : SubPort) : (c.putSub p s v).places = c.places := rfl
@[simp] theorem Ctl.putSub_tiles (c : Ctl) (p s : Nat) (v : SubPort) : (c.putSub p s v).tiles = c.tiles := rfl
@[simp] theorem Ctl.putSub_tileMap (c : Ctl) (p s : Nat) (v : SubPort) : (c.putSub p s v).tileMap = c.tileMap := rfl
@[simp] theorem Ctl.putSub_clearing (c : Ctl) (p s : Nat) (v : SubPort) : (c.putSub p s v).clearing = c.clearing := rfl
@[simp] theorem Ctl.putSub_bayTests (c : Ctl) (p s : Nat) (v : SubPort) : (c.putSub p s v).bayTests = c.bayTests := rfl
@[simp] theorem Ctl.putSub_tally (c : Ctl) (p s : Nat) (v : SubPort) : (c.putSub p s v).tally = c.tally := rfl
@[simp] theorem Ctl.putSub_chans (c : Ctl) (p s : Nat) (v : SubPort) : (c.putSub p s v).chans = c.chans := rfl
@[simp] theorem Ctl.putSub_engs (c : Ctl) (p s : Nat) (v : SubPort) : (c.putSub p s v).engs = c.engs := rfl
@[simp] theorem Ctl.putSub_mbxs (c : Ctl) (p s : Nat) (v : SubPort) : (c.putSub p s v).mbxs = c.mbxs := rfl
@[simp] theorem Ctl.putSub_seedAt (c : Ctl) (p s : Nat) (v : SubPort) : (c.putSub p s v).seedAt = c.seedAt := rfl
@[simp] theorem Ctl.putSub_units (c : Ctl) (p s : Nat) (v : SubPort) : (c.putSub p s v).units = c.units := rfl
@[simp] theorem Ctl.putSub_rechecks (c : Ctl) (p s : Nat) (v : SubPort) : (c.putSub p s v).rechecks = c.rechecks := rfl
@[simp] theorem Ctl.putSub_items (c : Ctl) (p s : Nat) (v : SubPort) : (c.putSub p s v).items = c.items := rfl
@[simp] theorem Ctl.putSub_err (c : Ctl) (p s : Nat) (v : SubPort) : (c.putSub p s v).err = c.err := rfl
@[simp] theorem Ctl.putSub_evseq (c : Ctl) (p s : Nat) (v : SubPort) : (c.putSub p s v).evseq = c.evseq := rfl
@[simp] theorem Ctl.putSub_sessions (c : Ctl) (p s : Nat) (v : SubPort) : (c.putSub p s v).sessions = c.sessions := rfl
@[simp] theorem Ctl.putSub_setups (c : Ctl) (p s : Nat) (v : SubPort) : (c.putSub p s v).setups = c.setups := rfl
@[simp] theorem Ctl.putSub_setupTimes (c : Ctl) (p s : Nat) (v : SubPort) : (c.putSub p s v).setupTimes = c.setupTimes := rfl
@[simp] theorem Ctl.putSub_nextSid (c : Ctl) (p s : Nat) (v : SubPort) : (c.putSub p s v).nextSid = c.nextSid := rfl
@[simp] theorem Ctl.putSub_flash (c : Ctl) (p s : Nat) (v : SubPort) : (c.putSub p s v).flash = c.flash := rfl
@[simp] theorem Ctl.putSub_fuses (c : Ctl) (p s : Nat) (v : SubPort) : (c.putSub p s v).fuses = c.fuses := rfl
@[simp] theorem Ctl.putSub_fw (c : Ctl) (p s : Nat) (v : SubPort) : (c.putSub p s v).fw = c.fw := rfl
@[simp] theorem Ctl.putSub_net (c : Ctl) (p s : Nat) (v : SubPort) : (c.putSub p s v).net = c.net := rfl
@[simp] theorem Ctl.putSub_staging (c : Ctl) (p s : Nat) (v : SubPort) : (c.putSub p s v).staging = c.staging := rfl
@[simp] theorem Ctl.putSub_optest (c : Ctl) (p s : Nat) (v : SubPort) : (c.putSub p s v).optest = c.optest := rfl
@[simp] theorem Ctl.putSub_reg (c : Ctl) (p s : Nat) (v : SubPort) (a : Nat) : (c.putSub p s v).reg a = c.reg a := rfl
@[simp] theorem Ctl.putSub_rd (c : Ctl) (p s : Nat) (v : SubPort) (f : Fld) : (c.putSub p s v).rd f = c.rd f := rfl
@[simp] theorem Ctl.sub_putSub (c : Ctl) (p s : Nat) (v : SubPort) : (c.putSub p s v).sub p s = v := by simp [Ctl.sub, Ctl.putSub]
@[simp] theorem Ctl.putLane_now (c : Ctl) (p : Nat) (v : PortLanes) : (c.putLane p v).now = c.now := rfl
@[simp] theorem Ctl.putLane_freeCtr (c : Ctl) (p : Nat) (v : PortLanes) : (c.putLane p v).freeCtr = c.freeCtr := rfl
@[simp] theorem Ctl.putLane_out (c : Ctl) (p : Nat) (v : PortLanes) : (c.putLane p v).out = c.out := rfl
@[simp] theorem Ctl.putLane_regs (c : Ctl) (p : Nat) (v : PortLanes) : (c.putLane p v).regs = c.regs := rfl
@[simp] theorem Ctl.putLane_pwr (c : Ctl) (p : Nat) (v : PortLanes) : (c.putLane p v).pwr = c.pwr := rfl
@[simp] theorem Ctl.putLane_subs (c : Ctl) (p : Nat) (v : PortLanes) : (c.putLane p v).subs = c.subs := rfl
@[simp] theorem Ctl.putLane_elms (c : Ctl) (p : Nat) (v : PortLanes) : (c.putLane p v).elms = c.elms := rfl
@[simp] theorem Ctl.putLane_pairs (c : Ctl) (p : Nat) (v : PortLanes) : (c.putLane p v).pairs = c.pairs := rfl
@[simp] theorem Ctl.putLane_flask (c : Ctl) (p : Nat) (v : PortLanes) : (c.putLane p v).flask = c.flask := rfl
@[simp] theorem Ctl.putLane_scheds (c : Ctl) (p : Nat) (v : PortLanes) : (c.putLane p v).scheds = c.scheds := rfl
@[simp] theorem Ctl.putLane_flaskLost (c : Ctl) (p : Nat) (v : PortLanes) : (c.putLane p v).flaskLost = c.flaskLost := rfl
@[simp] theorem Ctl.putLane_intHeld (c : Ctl) (p : Nat) (v : PortLanes) : (c.putLane p v).intHeld = c.intHeld := rfl
@[simp] theorem Ctl.putLane_eps (c : Ctl) (p : Nat) (v : PortLanes) : (c.putLane p v).eps = c.eps := rfl
@[simp] theorem Ctl.putLane_bays (c : Ctl) (p : Nat) (v : PortLanes) : (c.putLane p v).bays = c.bays := rfl
@[simp] theorem Ctl.putLane_exts (c : Ctl) (p : Nat) (v : PortLanes) : (c.putLane p v).exts = c.exts := rfl
@[simp] theorem Ctl.putLane_opens (c : Ctl) (p : Nat) (v : PortLanes) : (c.putLane p v).opens = c.opens := rfl
@[simp] theorem Ctl.putLane_owns (c : Ctl) (p : Nat) (v : PortLanes) : (c.putLane p v).owns = c.owns := rfl
@[simp] theorem Ctl.putLane_nextId (c : Ctl) (p : Nat) (v : PortLanes) : (c.putLane p v).nextId = c.nextId := rfl
@[simp] theorem Ctl.putLane_tracker (c : Ctl) (p : Nat) (v : PortLanes) : (c.putLane p v).tracker = c.tracker := rfl
@[simp] theorem Ctl.putLane_fences (c : Ctl) (p : Nat) (v : PortLanes) : (c.putLane p v).fences = c.fences := rfl
@[simp] theorem Ctl.putLane_peg (c : Ctl) (p : Nat) (v : PortLanes) : (c.putLane p v).peg = c.peg := rfl
@[simp] theorem Ctl.putLane_locks (c : Ctl) (p : Nat) (v : PortLanes) : (c.putLane p v).locks = c.locks := rfl
@[simp] theorem Ctl.putLane_ctrs (c : Ctl) (p : Nat) (v : PortLanes) : (c.putLane p v).ctrs = c.ctrs := rfl
@[simp] theorem Ctl.putLane_doms (c : Ctl) (p : Nat) (v : PortLanes) : (c.putLane p v).doms = c.doms := rfl
@[simp] theorem Ctl.putLane_dir (c : Ctl) (p : Nat) (v : PortLanes) : (c.putLane p v).dir = c.dir := rfl
@[simp] theorem Ctl.putLane_dirQ (c : Ctl) (p : Nat) (v : PortLanes) : (c.putLane p v).dirQ = c.dirQ := rfl
@[simp] theorem Ctl.putLane_homeDirty (c : Ctl) (p : Nat) (v : PortLanes) : (c.putLane p v).homeDirty = c.homeDirty := rfl
@[simp] theorem Ctl.putLane_tier (c : Ctl) (p : Nat) (v : PortLanes) : (c.putLane p v).tier = c.tier := rfl
@[simp] theorem Ctl.putLane_coded (c : Ctl) (p : Nat) (v : PortLanes) : (c.putLane p v).coded = c.coded := rfl
@[simp] theorem Ctl.putLane_phys (c : Ctl) (p : Nat) (v : PortLanes) : (c.putLane p v).phys = c.phys := rfl
@[simp] theorem Ctl.putLane_migQ (c : Ctl) (p : Nat) (v : PortLanes) : (c.putLane p v).migQ = c.migQ := rfl
@[simp] theorem Ctl.putLane_pubReads (c : Ctl) (p : Nat) (v : PortLanes) : (c.putLane p v).pubReads = c.pubReads := rfl
@[simp] theorem Ctl.putLane_kvRegions (c : Ctl) (p : Nat) (v : PortLanes) : (c.putLane p v).kvRegions = c.kvRegions := rfl
@[simp] theorem Ctl.putLane_kvPages (c : Ctl) (p : Nat) (v : PortLanes) : (c.putLane p v).kvPages = c.kvPages := rfl
@[simp] theorem Ctl.putLane_kvBlocks (c : Ctl) (p : Nat) (v : PortLanes) : (c.putLane p v).kvBlocks = c.kvBlocks := rfl
@[simp] theorem Ctl.putLane_kvNodes (c : Ctl) (p : Nat) (v : PortLanes) : (c.putLane p v).kvNodes = c.kvNodes := rfl
@[simp] theorem Ctl.putLane_ques (c : Ctl) (p : Nat) (v : PortLanes) : (c.putLane p v).ques = c.ques := rfl
@[simp] theorem Ctl.putLane_colls (c : Ctl) (p : Nat) (v : PortLanes) : (c.putLane p v).colls = c.colls := rfl
@[simp] theorem Ctl.putLane_rsas (c : Ctl) (p : Nat) (v : PortLanes) : (c.putLane p v).rsas = c.rsas := rfl
@[simp] theorem Ctl.putLane_places (c : Ctl) (p : Nat) (v : PortLanes) : (c.putLane p v).places = c.places := rfl
@[simp] theorem Ctl.putLane_tiles (c : Ctl) (p : Nat) (v : PortLanes) : (c.putLane p v).tiles = c.tiles := rfl
@[simp] theorem Ctl.putLane_tileMap (c : Ctl) (p : Nat) (v : PortLanes) : (c.putLane p v).tileMap = c.tileMap := rfl
@[simp] theorem Ctl.putLane_clearing (c : Ctl) (p : Nat) (v : PortLanes) : (c.putLane p v).clearing = c.clearing := rfl
@[simp] theorem Ctl.putLane_bayTests (c : Ctl) (p : Nat) (v : PortLanes) : (c.putLane p v).bayTests = c.bayTests := rfl
@[simp] theorem Ctl.putLane_tally (c : Ctl) (p : Nat) (v : PortLanes) : (c.putLane p v).tally = c.tally := rfl
@[simp] theorem Ctl.putLane_chans (c : Ctl) (p : Nat) (v : PortLanes) : (c.putLane p v).chans = c.chans := rfl
@[simp] theorem Ctl.putLane_engs (c : Ctl) (p : Nat) (v : PortLanes) : (c.putLane p v).engs = c.engs := rfl
@[simp] theorem Ctl.putLane_mbxs (c : Ctl) (p : Nat) (v : PortLanes) : (c.putLane p v).mbxs = c.mbxs := rfl
@[simp] theorem Ctl.putLane_seedAt (c : Ctl) (p : Nat) (v : PortLanes) : (c.putLane p v).seedAt = c.seedAt := rfl
@[simp] theorem Ctl.putLane_units (c : Ctl) (p : Nat) (v : PortLanes) : (c.putLane p v).units = c.units := rfl
@[simp] theorem Ctl.putLane_rechecks (c : Ctl) (p : Nat) (v : PortLanes) : (c.putLane p v).rechecks = c.rechecks := rfl
@[simp] theorem Ctl.putLane_items (c : Ctl) (p : Nat) (v : PortLanes) : (c.putLane p v).items = c.items := rfl
@[simp] theorem Ctl.putLane_err (c : Ctl) (p : Nat) (v : PortLanes) : (c.putLane p v).err = c.err := rfl
@[simp] theorem Ctl.putLane_evseq (c : Ctl) (p : Nat) (v : PortLanes) : (c.putLane p v).evseq = c.evseq := rfl
@[simp] theorem Ctl.putLane_sessions (c : Ctl) (p : Nat) (v : PortLanes) : (c.putLane p v).sessions = c.sessions := rfl
@[simp] theorem Ctl.putLane_setups (c : Ctl) (p : Nat) (v : PortLanes) : (c.putLane p v).setups = c.setups := rfl
@[simp] theorem Ctl.putLane_setupTimes (c : Ctl) (p : Nat) (v : PortLanes) : (c.putLane p v).setupTimes = c.setupTimes := rfl
@[simp] theorem Ctl.putLane_nextSid (c : Ctl) (p : Nat) (v : PortLanes) : (c.putLane p v).nextSid = c.nextSid := rfl
@[simp] theorem Ctl.putLane_flash (c : Ctl) (p : Nat) (v : PortLanes) : (c.putLane p v).flash = c.flash := rfl
@[simp] theorem Ctl.putLane_fuses (c : Ctl) (p : Nat) (v : PortLanes) : (c.putLane p v).fuses = c.fuses := rfl
@[simp] theorem Ctl.putLane_fw (c : Ctl) (p : Nat) (v : PortLanes) : (c.putLane p v).fw = c.fw := rfl
@[simp] theorem Ctl.putLane_net (c : Ctl) (p : Nat) (v : PortLanes) : (c.putLane p v).net = c.net := rfl
@[simp] theorem Ctl.putLane_staging (c : Ctl) (p : Nat) (v : PortLanes) : (c.putLane p v).staging = c.staging := rfl
@[simp] theorem Ctl.putLane_optest (c : Ctl) (p : Nat) (v : PortLanes) : (c.putLane p v).optest = c.optest := rfl
@[simp] theorem Ctl.putLane_reg (c : Ctl) (p : Nat) (v : PortLanes) (a : Nat) : (c.putLane p v).reg a = c.reg a := rfl
@[simp] theorem Ctl.putLane_rd (c : Ctl) (p : Nat) (v : PortLanes) (f : Fld) : (c.putLane p v).rd f = c.rd f := rfl
@[simp] theorem Ctl.lane_putLane (c : Ctl) (p : Nat) (v : PortLanes) : (c.putLane p v).lane p = v := by simp [Ctl.lane, Ctl.putLane]
theorem Ctl.lane_putLane_ne (c : Ctl) (p : Nat) (v : PortLanes) (j : Nat) (h : j ≠ p) : (c.putLane p v).lane j = c.lane j := by
  simp [Ctl.lane, Ctl.putLane, Tab.get_set_ne _ _ _ _ _ _ h]
@[simp] theorem Ctl.putElm_now (c : Ctl) (i : Nat) (v : Elm) : (c.putElm i v).now = c.now := rfl
@[simp] theorem Ctl.putElm_freeCtr (c : Ctl) (i : Nat) (v : Elm) : (c.putElm i v).freeCtr = c.freeCtr := rfl
@[simp] theorem Ctl.putElm_out (c : Ctl) (i : Nat) (v : Elm) : (c.putElm i v).out = c.out := rfl
@[simp] theorem Ctl.putElm_regs (c : Ctl) (i : Nat) (v : Elm) : (c.putElm i v).regs = c.regs := rfl
@[simp] theorem Ctl.putElm_pwr (c : Ctl) (i : Nat) (v : Elm) : (c.putElm i v).pwr = c.pwr := rfl
@[simp] theorem Ctl.putElm_subs (c : Ctl) (i : Nat) (v : Elm) : (c.putElm i v).subs = c.subs := rfl
@[simp] theorem Ctl.putElm_lanes (c : Ctl) (i : Nat) (v : Elm) : (c.putElm i v).lanes = c.lanes := rfl
@[simp] theorem Ctl.putElm_pairs (c : Ctl) (i : Nat) (v : Elm) : (c.putElm i v).pairs = c.pairs := rfl
@[simp] theorem Ctl.putElm_flask (c : Ctl) (i : Nat) (v : Elm) : (c.putElm i v).flask = c.flask := rfl
@[simp] theorem Ctl.putElm_scheds (c : Ctl) (i : Nat) (v : Elm) : (c.putElm i v).scheds = c.scheds := rfl
@[simp] theorem Ctl.putElm_flaskLost (c : Ctl) (i : Nat) (v : Elm) : (c.putElm i v).flaskLost = c.flaskLost := rfl
@[simp] theorem Ctl.putElm_intHeld (c : Ctl) (i : Nat) (v : Elm) : (c.putElm i v).intHeld = c.intHeld := rfl
@[simp] theorem Ctl.putElm_eps (c : Ctl) (i : Nat) (v : Elm) : (c.putElm i v).eps = c.eps := rfl
@[simp] theorem Ctl.putElm_bays (c : Ctl) (i : Nat) (v : Elm) : (c.putElm i v).bays = c.bays := rfl
@[simp] theorem Ctl.putElm_exts (c : Ctl) (i : Nat) (v : Elm) : (c.putElm i v).exts = c.exts := rfl
@[simp] theorem Ctl.putElm_opens (c : Ctl) (i : Nat) (v : Elm) : (c.putElm i v).opens = c.opens := rfl
@[simp] theorem Ctl.putElm_owns (c : Ctl) (i : Nat) (v : Elm) : (c.putElm i v).owns = c.owns := rfl
@[simp] theorem Ctl.putElm_nextId (c : Ctl) (i : Nat) (v : Elm) : (c.putElm i v).nextId = c.nextId := rfl
@[simp] theorem Ctl.putElm_tracker (c : Ctl) (i : Nat) (v : Elm) : (c.putElm i v).tracker = c.tracker := rfl
@[simp] theorem Ctl.putElm_fences (c : Ctl) (i : Nat) (v : Elm) : (c.putElm i v).fences = c.fences := rfl
@[simp] theorem Ctl.putElm_peg (c : Ctl) (i : Nat) (v : Elm) : (c.putElm i v).peg = c.peg := rfl
@[simp] theorem Ctl.putElm_locks (c : Ctl) (i : Nat) (v : Elm) : (c.putElm i v).locks = c.locks := rfl
@[simp] theorem Ctl.putElm_ctrs (c : Ctl) (i : Nat) (v : Elm) : (c.putElm i v).ctrs = c.ctrs := rfl
@[simp] theorem Ctl.putElm_doms (c : Ctl) (i : Nat) (v : Elm) : (c.putElm i v).doms = c.doms := rfl
@[simp] theorem Ctl.putElm_dir (c : Ctl) (i : Nat) (v : Elm) : (c.putElm i v).dir = c.dir := rfl
@[simp] theorem Ctl.putElm_dirQ (c : Ctl) (i : Nat) (v : Elm) : (c.putElm i v).dirQ = c.dirQ := rfl
@[simp] theorem Ctl.putElm_homeDirty (c : Ctl) (i : Nat) (v : Elm) : (c.putElm i v).homeDirty = c.homeDirty := rfl
@[simp] theorem Ctl.putElm_tier (c : Ctl) (i : Nat) (v : Elm) : (c.putElm i v).tier = c.tier := rfl
@[simp] theorem Ctl.putElm_coded (c : Ctl) (i : Nat) (v : Elm) : (c.putElm i v).coded = c.coded := rfl
@[simp] theorem Ctl.putElm_phys (c : Ctl) (i : Nat) (v : Elm) : (c.putElm i v).phys = c.phys := rfl
@[simp] theorem Ctl.putElm_migQ (c : Ctl) (i : Nat) (v : Elm) : (c.putElm i v).migQ = c.migQ := rfl
@[simp] theorem Ctl.putElm_pubReads (c : Ctl) (i : Nat) (v : Elm) : (c.putElm i v).pubReads = c.pubReads := rfl
@[simp] theorem Ctl.putElm_kvRegions (c : Ctl) (i : Nat) (v : Elm) : (c.putElm i v).kvRegions = c.kvRegions := rfl
@[simp] theorem Ctl.putElm_kvPages (c : Ctl) (i : Nat) (v : Elm) : (c.putElm i v).kvPages = c.kvPages := rfl
@[simp] theorem Ctl.putElm_kvBlocks (c : Ctl) (i : Nat) (v : Elm) : (c.putElm i v).kvBlocks = c.kvBlocks := rfl
@[simp] theorem Ctl.putElm_kvNodes (c : Ctl) (i : Nat) (v : Elm) : (c.putElm i v).kvNodes = c.kvNodes := rfl
@[simp] theorem Ctl.putElm_ques (c : Ctl) (i : Nat) (v : Elm) : (c.putElm i v).ques = c.ques := rfl
@[simp] theorem Ctl.putElm_colls (c : Ctl) (i : Nat) (v : Elm) : (c.putElm i v).colls = c.colls := rfl
@[simp] theorem Ctl.putElm_rsas (c : Ctl) (i : Nat) (v : Elm) : (c.putElm i v).rsas = c.rsas := rfl
@[simp] theorem Ctl.putElm_places (c : Ctl) (i : Nat) (v : Elm) : (c.putElm i v).places = c.places := rfl
@[simp] theorem Ctl.putElm_tiles (c : Ctl) (i : Nat) (v : Elm) : (c.putElm i v).tiles = c.tiles := rfl
@[simp] theorem Ctl.putElm_tileMap (c : Ctl) (i : Nat) (v : Elm) : (c.putElm i v).tileMap = c.tileMap := rfl
@[simp] theorem Ctl.putElm_clearing (c : Ctl) (i : Nat) (v : Elm) : (c.putElm i v).clearing = c.clearing := rfl
@[simp] theorem Ctl.putElm_bayTests (c : Ctl) (i : Nat) (v : Elm) : (c.putElm i v).bayTests = c.bayTests := rfl
@[simp] theorem Ctl.putElm_tally (c : Ctl) (i : Nat) (v : Elm) : (c.putElm i v).tally = c.tally := rfl
@[simp] theorem Ctl.putElm_chans (c : Ctl) (i : Nat) (v : Elm) : (c.putElm i v).chans = c.chans := rfl
@[simp] theorem Ctl.putElm_engs (c : Ctl) (i : Nat) (v : Elm) : (c.putElm i v).engs = c.engs := rfl
@[simp] theorem Ctl.putElm_mbxs (c : Ctl) (i : Nat) (v : Elm) : (c.putElm i v).mbxs = c.mbxs := rfl
@[simp] theorem Ctl.putElm_seedAt (c : Ctl) (i : Nat) (v : Elm) : (c.putElm i v).seedAt = c.seedAt := rfl
@[simp] theorem Ctl.putElm_units (c : Ctl) (i : Nat) (v : Elm) : (c.putElm i v).units = c.units := rfl
@[simp] theorem Ctl.putElm_rechecks (c : Ctl) (i : Nat) (v : Elm) : (c.putElm i v).rechecks = c.rechecks := rfl
@[simp] theorem Ctl.putElm_items (c : Ctl) (i : Nat) (v : Elm) : (c.putElm i v).items = c.items := rfl
@[simp] theorem Ctl.putElm_err (c : Ctl) (i : Nat) (v : Elm) : (c.putElm i v).err = c.err := rfl
@[simp] theorem Ctl.putElm_evseq (c : Ctl) (i : Nat) (v : Elm) : (c.putElm i v).evseq = c.evseq := rfl
@[simp] theorem Ctl.putElm_sessions (c : Ctl) (i : Nat) (v : Elm) : (c.putElm i v).sessions = c.sessions := rfl
@[simp] theorem Ctl.putElm_setups (c : Ctl) (i : Nat) (v : Elm) : (c.putElm i v).setups = c.setups := rfl
@[simp] theorem Ctl.putElm_setupTimes (c : Ctl) (i : Nat) (v : Elm) : (c.putElm i v).setupTimes = c.setupTimes := rfl
@[simp] theorem Ctl.putElm_nextSid (c : Ctl) (i : Nat) (v : Elm) : (c.putElm i v).nextSid = c.nextSid := rfl
@[simp] theorem Ctl.putElm_flash (c : Ctl) (i : Nat) (v : Elm) : (c.putElm i v).flash = c.flash := rfl
@[simp] theorem Ctl.putElm_fuses (c : Ctl) (i : Nat) (v : Elm) : (c.putElm i v).fuses = c.fuses := rfl
@[simp] theorem Ctl.putElm_fw (c : Ctl) (i : Nat) (v : Elm) : (c.putElm i v).fw = c.fw := rfl
@[simp] theorem Ctl.putElm_net (c : Ctl) (i : Nat) (v : Elm) : (c.putElm i v).net = c.net := rfl
@[simp] theorem Ctl.putElm_staging (c : Ctl) (i : Nat) (v : Elm) : (c.putElm i v).staging = c.staging := rfl
@[simp] theorem Ctl.putElm_optest (c : Ctl) (i : Nat) (v : Elm) : (c.putElm i v).optest = c.optest := rfl
@[simp] theorem Ctl.putElm_reg (c : Ctl) (i : Nat) (v : Elm) (a : Nat) : (c.putElm i v).reg a = c.reg a := rfl
@[simp] theorem Ctl.putElm_rd (c : Ctl) (i : Nat) (v : Elm) (f : Fld) : (c.putElm i v).rd f = c.rd f := rfl
@[simp] theorem Ctl.elm_putElm (c : Ctl) (i : Nat) (v : Elm) : (c.putElm i v).elm i = v := by simp [Ctl.elm, Ctl.putElm]
theorem Ctl.elm_putElm_ne (c : Ctl) (i : Nat) (v : Elm) (j : Nat) (h : j ≠ i) : (c.putElm i v).elm j = c.elm j := by
  simp [Ctl.elm, Ctl.putElm, Tab.get_set_ne _ _ _ _ _ _ h]
@[simp] theorem Ctl.putPair_now (c : Ctl) (e : Nat) (v : Pair) : (c.putPair e v).now = c.now := rfl
@[simp] theorem Ctl.putPair_freeCtr (c : Ctl) (e : Nat) (v : Pair) : (c.putPair e v).freeCtr = c.freeCtr := rfl
@[simp] theorem Ctl.putPair_out (c : Ctl) (e : Nat) (v : Pair) : (c.putPair e v).out = c.out := rfl
@[simp] theorem Ctl.putPair_regs (c : Ctl) (e : Nat) (v : Pair) : (c.putPair e v).regs = c.regs := rfl
@[simp] theorem Ctl.putPair_pwr (c : Ctl) (e : Nat) (v : Pair) : (c.putPair e v).pwr = c.pwr := rfl
@[simp] theorem Ctl.putPair_subs (c : Ctl) (e : Nat) (v : Pair) : (c.putPair e v).subs = c.subs := rfl
@[simp] theorem Ctl.putPair_lanes (c : Ctl) (e : Nat) (v : Pair) : (c.putPair e v).lanes = c.lanes := rfl
@[simp] theorem Ctl.putPair_elms (c : Ctl) (e : Nat) (v : Pair) : (c.putPair e v).elms = c.elms := rfl
@[simp] theorem Ctl.putPair_flask (c : Ctl) (e : Nat) (v : Pair) : (c.putPair e v).flask = c.flask := rfl
@[simp] theorem Ctl.putPair_scheds (c : Ctl) (e : Nat) (v : Pair) : (c.putPair e v).scheds = c.scheds := rfl
@[simp] theorem Ctl.putPair_flaskLost (c : Ctl) (e : Nat) (v : Pair) : (c.putPair e v).flaskLost = c.flaskLost := rfl
@[simp] theorem Ctl.putPair_intHeld (c : Ctl) (e : Nat) (v : Pair) : (c.putPair e v).intHeld = c.intHeld := rfl
@[simp] theorem Ctl.putPair_eps (c : Ctl) (e : Nat) (v : Pair) : (c.putPair e v).eps = c.eps := rfl
@[simp] theorem Ctl.putPair_bays (c : Ctl) (e : Nat) (v : Pair) : (c.putPair e v).bays = c.bays := rfl
@[simp] theorem Ctl.putPair_exts (c : Ctl) (e : Nat) (v : Pair) : (c.putPair e v).exts = c.exts := rfl
@[simp] theorem Ctl.putPair_opens (c : Ctl) (e : Nat) (v : Pair) : (c.putPair e v).opens = c.opens := rfl
@[simp] theorem Ctl.putPair_owns (c : Ctl) (e : Nat) (v : Pair) : (c.putPair e v).owns = c.owns := rfl
@[simp] theorem Ctl.putPair_nextId (c : Ctl) (e : Nat) (v : Pair) : (c.putPair e v).nextId = c.nextId := rfl
@[simp] theorem Ctl.putPair_tracker (c : Ctl) (e : Nat) (v : Pair) : (c.putPair e v).tracker = c.tracker := rfl
@[simp] theorem Ctl.putPair_fences (c : Ctl) (e : Nat) (v : Pair) : (c.putPair e v).fences = c.fences := rfl
@[simp] theorem Ctl.putPair_peg (c : Ctl) (e : Nat) (v : Pair) : (c.putPair e v).peg = c.peg := rfl
@[simp] theorem Ctl.putPair_locks (c : Ctl) (e : Nat) (v : Pair) : (c.putPair e v).locks = c.locks := rfl
@[simp] theorem Ctl.putPair_ctrs (c : Ctl) (e : Nat) (v : Pair) : (c.putPair e v).ctrs = c.ctrs := rfl
@[simp] theorem Ctl.putPair_doms (c : Ctl) (e : Nat) (v : Pair) : (c.putPair e v).doms = c.doms := rfl
@[simp] theorem Ctl.putPair_dir (c : Ctl) (e : Nat) (v : Pair) : (c.putPair e v).dir = c.dir := rfl
@[simp] theorem Ctl.putPair_dirQ (c : Ctl) (e : Nat) (v : Pair) : (c.putPair e v).dirQ = c.dirQ := rfl
@[simp] theorem Ctl.putPair_homeDirty (c : Ctl) (e : Nat) (v : Pair) : (c.putPair e v).homeDirty = c.homeDirty := rfl
@[simp] theorem Ctl.putPair_tier (c : Ctl) (e : Nat) (v : Pair) : (c.putPair e v).tier = c.tier := rfl
@[simp] theorem Ctl.putPair_coded (c : Ctl) (e : Nat) (v : Pair) : (c.putPair e v).coded = c.coded := rfl
@[simp] theorem Ctl.putPair_phys (c : Ctl) (e : Nat) (v : Pair) : (c.putPair e v).phys = c.phys := rfl
@[simp] theorem Ctl.putPair_migQ (c : Ctl) (e : Nat) (v : Pair) : (c.putPair e v).migQ = c.migQ := rfl
@[simp] theorem Ctl.putPair_pubReads (c : Ctl) (e : Nat) (v : Pair) : (c.putPair e v).pubReads = c.pubReads := rfl
@[simp] theorem Ctl.putPair_kvRegions (c : Ctl) (e : Nat) (v : Pair) : (c.putPair e v).kvRegions = c.kvRegions := rfl
@[simp] theorem Ctl.putPair_kvPages (c : Ctl) (e : Nat) (v : Pair) : (c.putPair e v).kvPages = c.kvPages := rfl
@[simp] theorem Ctl.putPair_kvBlocks (c : Ctl) (e : Nat) (v : Pair) : (c.putPair e v).kvBlocks = c.kvBlocks := rfl
@[simp] theorem Ctl.putPair_kvNodes (c : Ctl) (e : Nat) (v : Pair) : (c.putPair e v).kvNodes = c.kvNodes := rfl
@[simp] theorem Ctl.putPair_ques (c : Ctl) (e : Nat) (v : Pair) : (c.putPair e v).ques = c.ques := rfl
@[simp] theorem Ctl.putPair_colls (c : Ctl) (e : Nat) (v : Pair) : (c.putPair e v).colls = c.colls := rfl
@[simp] theorem Ctl.putPair_rsas (c : Ctl) (e : Nat) (v : Pair) : (c.putPair e v).rsas = c.rsas := rfl
@[simp] theorem Ctl.putPair_places (c : Ctl) (e : Nat) (v : Pair) : (c.putPair e v).places = c.places := rfl
@[simp] theorem Ctl.putPair_tiles (c : Ctl) (e : Nat) (v : Pair) : (c.putPair e v).tiles = c.tiles := rfl
@[simp] theorem Ctl.putPair_tileMap (c : Ctl) (e : Nat) (v : Pair) : (c.putPair e v).tileMap = c.tileMap := rfl
@[simp] theorem Ctl.putPair_clearing (c : Ctl) (e : Nat) (v : Pair) : (c.putPair e v).clearing = c.clearing := rfl
@[simp] theorem Ctl.putPair_bayTests (c : Ctl) (e : Nat) (v : Pair) : (c.putPair e v).bayTests = c.bayTests := rfl
@[simp] theorem Ctl.putPair_tally (c : Ctl) (e : Nat) (v : Pair) : (c.putPair e v).tally = c.tally := rfl
@[simp] theorem Ctl.putPair_chans (c : Ctl) (e : Nat) (v : Pair) : (c.putPair e v).chans = c.chans := rfl
@[simp] theorem Ctl.putPair_engs (c : Ctl) (e : Nat) (v : Pair) : (c.putPair e v).engs = c.engs := rfl
@[simp] theorem Ctl.putPair_mbxs (c : Ctl) (e : Nat) (v : Pair) : (c.putPair e v).mbxs = c.mbxs := rfl
@[simp] theorem Ctl.putPair_seedAt (c : Ctl) (e : Nat) (v : Pair) : (c.putPair e v).seedAt = c.seedAt := rfl
@[simp] theorem Ctl.putPair_units (c : Ctl) (e : Nat) (v : Pair) : (c.putPair e v).units = c.units := rfl
@[simp] theorem Ctl.putPair_rechecks (c : Ctl) (e : Nat) (v : Pair) : (c.putPair e v).rechecks = c.rechecks := rfl
@[simp] theorem Ctl.putPair_items (c : Ctl) (e : Nat) (v : Pair) : (c.putPair e v).items = c.items := rfl
@[simp] theorem Ctl.putPair_err (c : Ctl) (e : Nat) (v : Pair) : (c.putPair e v).err = c.err := rfl
@[simp] theorem Ctl.putPair_evseq (c : Ctl) (e : Nat) (v : Pair) : (c.putPair e v).evseq = c.evseq := rfl
@[simp] theorem Ctl.putPair_sessions (c : Ctl) (e : Nat) (v : Pair) : (c.putPair e v).sessions = c.sessions := rfl
@[simp] theorem Ctl.putPair_setups (c : Ctl) (e : Nat) (v : Pair) : (c.putPair e v).setups = c.setups := rfl
@[simp] theorem Ctl.putPair_setupTimes (c : Ctl) (e : Nat) (v : Pair) : (c.putPair e v).setupTimes = c.setupTimes := rfl
@[simp] theorem Ctl.putPair_nextSid (c : Ctl) (e : Nat) (v : Pair) : (c.putPair e v).nextSid = c.nextSid := rfl
@[simp] theorem Ctl.putPair_flash (c : Ctl) (e : Nat) (v : Pair) : (c.putPair e v).flash = c.flash := rfl
@[simp] theorem Ctl.putPair_fuses (c : Ctl) (e : Nat) (v : Pair) : (c.putPair e v).fuses = c.fuses := rfl
@[simp] theorem Ctl.putPair_fw (c : Ctl) (e : Nat) (v : Pair) : (c.putPair e v).fw = c.fw := rfl
@[simp] theorem Ctl.putPair_net (c : Ctl) (e : Nat) (v : Pair) : (c.putPair e v).net = c.net := rfl
@[simp] theorem Ctl.putPair_staging (c : Ctl) (e : Nat) (v : Pair) : (c.putPair e v).staging = c.staging := rfl
@[simp] theorem Ctl.putPair_optest (c : Ctl) (e : Nat) (v : Pair) : (c.putPair e v).optest = c.optest := rfl
@[simp] theorem Ctl.putPair_reg (c : Ctl) (e : Nat) (v : Pair) (a : Nat) : (c.putPair e v).reg a = c.reg a := rfl
@[simp] theorem Ctl.putPair_rd (c : Ctl) (e : Nat) (v : Pair) (f : Fld) : (c.putPair e v).rd f = c.rd f := rfl
@[simp] theorem Ctl.pair_putPair (c : Ctl) (e : Nat) (v : Pair) : (c.putPair e v).pair e = v := by simp [Ctl.pair, Ctl.putPair]
theorem Ctl.pair_putPair_ne (c : Ctl) (e : Nat) (v : Pair) (j : Nat) (h : j ≠ e) : (c.putPair e v).pair j = c.pair j := by
  simp [Ctl.pair, Ctl.putPair, Tab.get_set_ne _ _ _ _ _ _ h]
@[simp] theorem Ctl.putFq_now (c : Ctl) (q : Nat) (v : FlaskQ) : (c.putFq q v).now = c.now := rfl
@[simp] theorem Ctl.putFq_freeCtr (c : Ctl) (q : Nat) (v : FlaskQ) : (c.putFq q v).freeCtr = c.freeCtr := rfl
@[simp] theorem Ctl.putFq_out (c : Ctl) (q : Nat) (v : FlaskQ) : (c.putFq q v).out = c.out := rfl
@[simp] theorem Ctl.putFq_regs (c : Ctl) (q : Nat) (v : FlaskQ) : (c.putFq q v).regs = c.regs := rfl
@[simp] theorem Ctl.putFq_pwr (c : Ctl) (q : Nat) (v : FlaskQ) : (c.putFq q v).pwr = c.pwr := rfl
@[simp] theorem Ctl.putFq_subs (c : Ctl) (q : Nat) (v : FlaskQ) : (c.putFq q v).subs = c.subs := rfl
@[simp] theorem Ctl.putFq_lanes (c : Ctl) (q : Nat) (v : FlaskQ) : (c.putFq q v).lanes = c.lanes := rfl
@[simp] theorem Ctl.putFq_elms (c : Ctl) (q : Nat) (v : FlaskQ) : (c.putFq q v).elms = c.elms := rfl
@[simp] theorem Ctl.putFq_pairs (c : Ctl) (q : Nat) (v : FlaskQ) : (c.putFq q v).pairs = c.pairs := rfl
@[simp] theorem Ctl.putFq_scheds (c : Ctl) (q : Nat) (v : FlaskQ) : (c.putFq q v).scheds = c.scheds := rfl
@[simp] theorem Ctl.putFq_flaskLost (c : Ctl) (q : Nat) (v : FlaskQ) : (c.putFq q v).flaskLost = c.flaskLost := rfl
@[simp] theorem Ctl.putFq_intHeld (c : Ctl) (q : Nat) (v : FlaskQ) : (c.putFq q v).intHeld = c.intHeld := rfl
@[simp] theorem Ctl.putFq_eps (c : Ctl) (q : Nat) (v : FlaskQ) : (c.putFq q v).eps = c.eps := rfl
@[simp] theorem Ctl.putFq_bays (c : Ctl) (q : Nat) (v : FlaskQ) : (c.putFq q v).bays = c.bays := rfl
@[simp] theorem Ctl.putFq_exts (c : Ctl) (q : Nat) (v : FlaskQ) : (c.putFq q v).exts = c.exts := rfl
@[simp] theorem Ctl.putFq_opens (c : Ctl) (q : Nat) (v : FlaskQ) : (c.putFq q v).opens = c.opens := rfl
@[simp] theorem Ctl.putFq_owns (c : Ctl) (q : Nat) (v : FlaskQ) : (c.putFq q v).owns = c.owns := rfl
@[simp] theorem Ctl.putFq_nextId (c : Ctl) (q : Nat) (v : FlaskQ) : (c.putFq q v).nextId = c.nextId := rfl
@[simp] theorem Ctl.putFq_tracker (c : Ctl) (q : Nat) (v : FlaskQ) : (c.putFq q v).tracker = c.tracker := rfl
@[simp] theorem Ctl.putFq_fences (c : Ctl) (q : Nat) (v : FlaskQ) : (c.putFq q v).fences = c.fences := rfl
@[simp] theorem Ctl.putFq_peg (c : Ctl) (q : Nat) (v : FlaskQ) : (c.putFq q v).peg = c.peg := rfl
@[simp] theorem Ctl.putFq_locks (c : Ctl) (q : Nat) (v : FlaskQ) : (c.putFq q v).locks = c.locks := rfl
@[simp] theorem Ctl.putFq_ctrs (c : Ctl) (q : Nat) (v : FlaskQ) : (c.putFq q v).ctrs = c.ctrs := rfl
@[simp] theorem Ctl.putFq_doms (c : Ctl) (q : Nat) (v : FlaskQ) : (c.putFq q v).doms = c.doms := rfl
@[simp] theorem Ctl.putFq_dir (c : Ctl) (q : Nat) (v : FlaskQ) : (c.putFq q v).dir = c.dir := rfl
@[simp] theorem Ctl.putFq_dirQ (c : Ctl) (q : Nat) (v : FlaskQ) : (c.putFq q v).dirQ = c.dirQ := rfl
@[simp] theorem Ctl.putFq_homeDirty (c : Ctl) (q : Nat) (v : FlaskQ) : (c.putFq q v).homeDirty = c.homeDirty := rfl
@[simp] theorem Ctl.putFq_tier (c : Ctl) (q : Nat) (v : FlaskQ) : (c.putFq q v).tier = c.tier := rfl
@[simp] theorem Ctl.putFq_coded (c : Ctl) (q : Nat) (v : FlaskQ) : (c.putFq q v).coded = c.coded := rfl
@[simp] theorem Ctl.putFq_phys (c : Ctl) (q : Nat) (v : FlaskQ) : (c.putFq q v).phys = c.phys := rfl
@[simp] theorem Ctl.putFq_migQ (c : Ctl) (q : Nat) (v : FlaskQ) : (c.putFq q v).migQ = c.migQ := rfl
@[simp] theorem Ctl.putFq_pubReads (c : Ctl) (q : Nat) (v : FlaskQ) : (c.putFq q v).pubReads = c.pubReads := rfl
@[simp] theorem Ctl.putFq_kvRegions (c : Ctl) (q : Nat) (v : FlaskQ) : (c.putFq q v).kvRegions = c.kvRegions := rfl
@[simp] theorem Ctl.putFq_kvPages (c : Ctl) (q : Nat) (v : FlaskQ) : (c.putFq q v).kvPages = c.kvPages := rfl
@[simp] theorem Ctl.putFq_kvBlocks (c : Ctl) (q : Nat) (v : FlaskQ) : (c.putFq q v).kvBlocks = c.kvBlocks := rfl
@[simp] theorem Ctl.putFq_kvNodes (c : Ctl) (q : Nat) (v : FlaskQ) : (c.putFq q v).kvNodes = c.kvNodes := rfl
@[simp] theorem Ctl.putFq_ques (c : Ctl) (q : Nat) (v : FlaskQ) : (c.putFq q v).ques = c.ques := rfl
@[simp] theorem Ctl.putFq_colls (c : Ctl) (q : Nat) (v : FlaskQ) : (c.putFq q v).colls = c.colls := rfl
@[simp] theorem Ctl.putFq_rsas (c : Ctl) (q : Nat) (v : FlaskQ) : (c.putFq q v).rsas = c.rsas := rfl
@[simp] theorem Ctl.putFq_places (c : Ctl) (q : Nat) (v : FlaskQ) : (c.putFq q v).places = c.places := rfl
@[simp] theorem Ctl.putFq_tiles (c : Ctl) (q : Nat) (v : FlaskQ) : (c.putFq q v).tiles = c.tiles := rfl
@[simp] theorem Ctl.putFq_tileMap (c : Ctl) (q : Nat) (v : FlaskQ) : (c.putFq q v).tileMap = c.tileMap := rfl
@[simp] theorem Ctl.putFq_clearing (c : Ctl) (q : Nat) (v : FlaskQ) : (c.putFq q v).clearing = c.clearing := rfl
@[simp] theorem Ctl.putFq_bayTests (c : Ctl) (q : Nat) (v : FlaskQ) : (c.putFq q v).bayTests = c.bayTests := rfl
@[simp] theorem Ctl.putFq_tally (c : Ctl) (q : Nat) (v : FlaskQ) : (c.putFq q v).tally = c.tally := rfl
@[simp] theorem Ctl.putFq_chans (c : Ctl) (q : Nat) (v : FlaskQ) : (c.putFq q v).chans = c.chans := rfl
@[simp] theorem Ctl.putFq_engs (c : Ctl) (q : Nat) (v : FlaskQ) : (c.putFq q v).engs = c.engs := rfl
@[simp] theorem Ctl.putFq_mbxs (c : Ctl) (q : Nat) (v : FlaskQ) : (c.putFq q v).mbxs = c.mbxs := rfl
@[simp] theorem Ctl.putFq_seedAt (c : Ctl) (q : Nat) (v : FlaskQ) : (c.putFq q v).seedAt = c.seedAt := rfl
@[simp] theorem Ctl.putFq_units (c : Ctl) (q : Nat) (v : FlaskQ) : (c.putFq q v).units = c.units := rfl
@[simp] theorem Ctl.putFq_rechecks (c : Ctl) (q : Nat) (v : FlaskQ) : (c.putFq q v).rechecks = c.rechecks := rfl
@[simp] theorem Ctl.putFq_items (c : Ctl) (q : Nat) (v : FlaskQ) : (c.putFq q v).items = c.items := rfl
@[simp] theorem Ctl.putFq_err (c : Ctl) (q : Nat) (v : FlaskQ) : (c.putFq q v).err = c.err := rfl
@[simp] theorem Ctl.putFq_evseq (c : Ctl) (q : Nat) (v : FlaskQ) : (c.putFq q v).evseq = c.evseq := rfl
@[simp] theorem Ctl.putFq_sessions (c : Ctl) (q : Nat) (v : FlaskQ) : (c.putFq q v).sessions = c.sessions := rfl
@[simp] theorem Ctl.putFq_setups (c : Ctl) (q : Nat) (v : FlaskQ) : (c.putFq q v).setups = c.setups := rfl
@[simp] theorem Ctl.putFq_setupTimes (c : Ctl) (q : Nat) (v : FlaskQ) : (c.putFq q v).setupTimes = c.setupTimes := rfl
@[simp] theorem Ctl.putFq_nextSid (c : Ctl) (q : Nat) (v : FlaskQ) : (c.putFq q v).nextSid = c.nextSid := rfl
@[simp] theorem Ctl.putFq_flash (c : Ctl) (q : Nat) (v : FlaskQ) : (c.putFq q v).flash = c.flash := rfl
@[simp] theorem Ctl.putFq_fuses (c : Ctl) (q : Nat) (v : FlaskQ) : (c.putFq q v).fuses = c.fuses := rfl
@[simp] theorem Ctl.putFq_fw (c : Ctl) (q : Nat) (v : FlaskQ) : (c.putFq q v).fw = c.fw := rfl
@[simp] theorem Ctl.putFq_net (c : Ctl) (q : Nat) (v : FlaskQ) : (c.putFq q v).net = c.net := rfl
@[simp] theorem Ctl.putFq_staging (c : Ctl) (q : Nat) (v : FlaskQ) : (c.putFq q v).staging = c.staging := rfl
@[simp] theorem Ctl.putFq_optest (c : Ctl) (q : Nat) (v : FlaskQ) : (c.putFq q v).optest = c.optest := rfl
@[simp] theorem Ctl.putFq_reg (c : Ctl) (q : Nat) (v : FlaskQ) (a : Nat) : (c.putFq q v).reg a = c.reg a := rfl
@[simp] theorem Ctl.putFq_rd (c : Ctl) (q : Nat) (v : FlaskQ) (f : Fld) : (c.putFq q v).rd f = c.rd f := rfl
@[simp] theorem Ctl.fq_putFq (c : Ctl) (q : Nat) (v : FlaskQ) : (c.putFq q v).fq q = v := by simp [Ctl.fq, Ctl.putFq]
theorem Ctl.fq_putFq_ne (c : Ctl) (q : Nat) (v : FlaskQ) (j : Nat) (h : j ≠ q) : (c.putFq q v).fq j = c.fq j := by
  simp [Ctl.fq, Ctl.putFq, Tab.get_set_ne _ _ _ _ _ _ h]
@[simp] theorem Ctl.putEp_now (c : Ctl) (e : Nat) (v : Endpoint) : (c.putEp e v).now = c.now := rfl
@[simp] theorem Ctl.putEp_freeCtr (c : Ctl) (e : Nat) (v : Endpoint) : (c.putEp e v).freeCtr = c.freeCtr := rfl
@[simp] theorem Ctl.putEp_out (c : Ctl) (e : Nat) (v : Endpoint) : (c.putEp e v).out = c.out := rfl
@[simp] theorem Ctl.putEp_regs (c : Ctl) (e : Nat) (v : Endpoint) : (c.putEp e v).regs = c.regs := rfl
@[simp] theorem Ctl.putEp_pwr (c : Ctl) (e : Nat) (v : Endpoint) : (c.putEp e v).pwr = c.pwr := rfl
@[simp] theorem Ctl.putEp_subs (c : Ctl) (e : Nat) (v : Endpoint) : (c.putEp e v).subs = c.subs := rfl
@[simp] theorem Ctl.putEp_lanes (c : Ctl) (e : Nat) (v : Endpoint) : (c.putEp e v).lanes = c.lanes := rfl
@[simp] theorem Ctl.putEp_elms (c : Ctl) (e : Nat) (v : Endpoint) : (c.putEp e v).elms = c.elms := rfl
@[simp] theorem Ctl.putEp_pairs (c : Ctl) (e : Nat) (v : Endpoint) : (c.putEp e v).pairs = c.pairs := rfl
@[simp] theorem Ctl.putEp_flask (c : Ctl) (e : Nat) (v : Endpoint) : (c.putEp e v).flask = c.flask := rfl
@[simp] theorem Ctl.putEp_scheds (c : Ctl) (e : Nat) (v : Endpoint) : (c.putEp e v).scheds = c.scheds := rfl
@[simp] theorem Ctl.putEp_flaskLost (c : Ctl) (e : Nat) (v : Endpoint) : (c.putEp e v).flaskLost = c.flaskLost := rfl
@[simp] theorem Ctl.putEp_intHeld (c : Ctl) (e : Nat) (v : Endpoint) : (c.putEp e v).intHeld = c.intHeld := rfl
@[simp] theorem Ctl.putEp_bays (c : Ctl) (e : Nat) (v : Endpoint) : (c.putEp e v).bays = c.bays := rfl
@[simp] theorem Ctl.putEp_exts (c : Ctl) (e : Nat) (v : Endpoint) : (c.putEp e v).exts = c.exts := rfl
@[simp] theorem Ctl.putEp_opens (c : Ctl) (e : Nat) (v : Endpoint) : (c.putEp e v).opens = c.opens := rfl
@[simp] theorem Ctl.putEp_owns (c : Ctl) (e : Nat) (v : Endpoint) : (c.putEp e v).owns = c.owns := rfl
@[simp] theorem Ctl.putEp_nextId (c : Ctl) (e : Nat) (v : Endpoint) : (c.putEp e v).nextId = c.nextId := rfl
@[simp] theorem Ctl.putEp_tracker (c : Ctl) (e : Nat) (v : Endpoint) : (c.putEp e v).tracker = c.tracker := rfl
@[simp] theorem Ctl.putEp_fences (c : Ctl) (e : Nat) (v : Endpoint) : (c.putEp e v).fences = c.fences := rfl
@[simp] theorem Ctl.putEp_peg (c : Ctl) (e : Nat) (v : Endpoint) : (c.putEp e v).peg = c.peg := rfl
@[simp] theorem Ctl.putEp_locks (c : Ctl) (e : Nat) (v : Endpoint) : (c.putEp e v).locks = c.locks := rfl
@[simp] theorem Ctl.putEp_ctrs (c : Ctl) (e : Nat) (v : Endpoint) : (c.putEp e v).ctrs = c.ctrs := rfl
@[simp] theorem Ctl.putEp_doms (c : Ctl) (e : Nat) (v : Endpoint) : (c.putEp e v).doms = c.doms := rfl
@[simp] theorem Ctl.putEp_dir (c : Ctl) (e : Nat) (v : Endpoint) : (c.putEp e v).dir = c.dir := rfl
@[simp] theorem Ctl.putEp_dirQ (c : Ctl) (e : Nat) (v : Endpoint) : (c.putEp e v).dirQ = c.dirQ := rfl
@[simp] theorem Ctl.putEp_homeDirty (c : Ctl) (e : Nat) (v : Endpoint) : (c.putEp e v).homeDirty = c.homeDirty := rfl
@[simp] theorem Ctl.putEp_tier (c : Ctl) (e : Nat) (v : Endpoint) : (c.putEp e v).tier = c.tier := rfl
@[simp] theorem Ctl.putEp_coded (c : Ctl) (e : Nat) (v : Endpoint) : (c.putEp e v).coded = c.coded := rfl
@[simp] theorem Ctl.putEp_phys (c : Ctl) (e : Nat) (v : Endpoint) : (c.putEp e v).phys = c.phys := rfl
@[simp] theorem Ctl.putEp_migQ (c : Ctl) (e : Nat) (v : Endpoint) : (c.putEp e v).migQ = c.migQ := rfl
@[simp] theorem Ctl.putEp_pubReads (c : Ctl) (e : Nat) (v : Endpoint) : (c.putEp e v).pubReads = c.pubReads := rfl
@[simp] theorem Ctl.putEp_kvRegions (c : Ctl) (e : Nat) (v : Endpoint) : (c.putEp e v).kvRegions = c.kvRegions := rfl
@[simp] theorem Ctl.putEp_kvPages (c : Ctl) (e : Nat) (v : Endpoint) : (c.putEp e v).kvPages = c.kvPages := rfl
@[simp] theorem Ctl.putEp_kvBlocks (c : Ctl) (e : Nat) (v : Endpoint) : (c.putEp e v).kvBlocks = c.kvBlocks := rfl
@[simp] theorem Ctl.putEp_kvNodes (c : Ctl) (e : Nat) (v : Endpoint) : (c.putEp e v).kvNodes = c.kvNodes := rfl
@[simp] theorem Ctl.putEp_ques (c : Ctl) (e : Nat) (v : Endpoint) : (c.putEp e v).ques = c.ques := rfl
@[simp] theorem Ctl.putEp_colls (c : Ctl) (e : Nat) (v : Endpoint) : (c.putEp e v).colls = c.colls := rfl
@[simp] theorem Ctl.putEp_rsas (c : Ctl) (e : Nat) (v : Endpoint) : (c.putEp e v).rsas = c.rsas := rfl
@[simp] theorem Ctl.putEp_places (c : Ctl) (e : Nat) (v : Endpoint) : (c.putEp e v).places = c.places := rfl
@[simp] theorem Ctl.putEp_tiles (c : Ctl) (e : Nat) (v : Endpoint) : (c.putEp e v).tiles = c.tiles := rfl
@[simp] theorem Ctl.putEp_tileMap (c : Ctl) (e : Nat) (v : Endpoint) : (c.putEp e v).tileMap = c.tileMap := rfl
@[simp] theorem Ctl.putEp_clearing (c : Ctl) (e : Nat) (v : Endpoint) : (c.putEp e v).clearing = c.clearing := rfl
@[simp] theorem Ctl.putEp_bayTests (c : Ctl) (e : Nat) (v : Endpoint) : (c.putEp e v).bayTests = c.bayTests := rfl
@[simp] theorem Ctl.putEp_tally (c : Ctl) (e : Nat) (v : Endpoint) : (c.putEp e v).tally = c.tally := rfl
@[simp] theorem Ctl.putEp_chans (c : Ctl) (e : Nat) (v : Endpoint) : (c.putEp e v).chans = c.chans := rfl
@[simp] theorem Ctl.putEp_engs (c : Ctl) (e : Nat) (v : Endpoint) : (c.putEp e v).engs = c.engs := rfl
@[simp] theorem Ctl.putEp_mbxs (c : Ctl) (e : Nat) (v : Endpoint) : (c.putEp e v).mbxs = c.mbxs := rfl
@[simp] theorem Ctl.putEp_seedAt (c : Ctl) (e : Nat) (v : Endpoint) : (c.putEp e v).seedAt = c.seedAt := rfl
@[simp] theorem Ctl.putEp_units (c : Ctl) (e : Nat) (v : Endpoint) : (c.putEp e v).units = c.units := rfl
@[simp] theorem Ctl.putEp_rechecks (c : Ctl) (e : Nat) (v : Endpoint) : (c.putEp e v).rechecks = c.rechecks := rfl
@[simp] theorem Ctl.putEp_items (c : Ctl) (e : Nat) (v : Endpoint) : (c.putEp e v).items = c.items := rfl
@[simp] theorem Ctl.putEp_err (c : Ctl) (e : Nat) (v : Endpoint) : (c.putEp e v).err = c.err := rfl
@[simp] theorem Ctl.putEp_evseq (c : Ctl) (e : Nat) (v : Endpoint) : (c.putEp e v).evseq = c.evseq := rfl
@[simp] theorem Ctl.putEp_sessions (c : Ctl) (e : Nat) (v : Endpoint) : (c.putEp e v).sessions = c.sessions := rfl
@[simp] theorem Ctl.putEp_setups (c : Ctl) (e : Nat) (v : Endpoint) : (c.putEp e v).setups = c.setups := rfl
@[simp] theorem Ctl.putEp_setupTimes (c : Ctl) (e : Nat) (v : Endpoint) : (c.putEp e v).setupTimes = c.setupTimes := rfl
@[simp] theorem Ctl.putEp_nextSid (c : Ctl) (e : Nat) (v : Endpoint) : (c.putEp e v).nextSid = c.nextSid := rfl
@[simp] theorem Ctl.putEp_flash (c : Ctl) (e : Nat) (v : Endpoint) : (c.putEp e v).flash = c.flash := rfl
@[simp] theorem Ctl.putEp_fuses (c : Ctl) (e : Nat) (v : Endpoint) : (c.putEp e v).fuses = c.fuses := rfl
@[simp] theorem Ctl.putEp_fw (c : Ctl) (e : Nat) (v : Endpoint) : (c.putEp e v).fw = c.fw := rfl
@[simp] theorem Ctl.putEp_net (c : Ctl) (e : Nat) (v : Endpoint) : (c.putEp e v).net = c.net := rfl
@[simp] theorem Ctl.putEp_staging (c : Ctl) (e : Nat) (v : Endpoint) : (c.putEp e v).staging = c.staging := rfl
@[simp] theorem Ctl.putEp_optest (c : Ctl) (e : Nat) (v : Endpoint) : (c.putEp e v).optest = c.optest := rfl
@[simp] theorem Ctl.putEp_reg (c : Ctl) (e : Nat) (v : Endpoint) (a : Nat) : (c.putEp e v).reg a = c.reg a := rfl
@[simp] theorem Ctl.putEp_rd (c : Ctl) (e : Nat) (v : Endpoint) (f : Fld) : (c.putEp e v).rd f = c.rd f := rfl
@[simp] theorem Ctl.ep_putEp (c : Ctl) (e : Nat) (v : Endpoint) : (c.putEp e v).ep e = v := by simp [Ctl.ep, Ctl.putEp]
theorem Ctl.ep_putEp_ne (c : Ctl) (e : Nat) (v : Endpoint) (j : Nat) (h : j ≠ e) : (c.putEp e v).ep j = c.ep j := by
  simp [Ctl.ep, Ctl.putEp, Tab.get_set_ne _ _ _ _ _ _ h]
@[simp] theorem Ctl.putBay_now (c : Ctl) (b : Nat) (v : BayRec) : (c.putBay b v).now = c.now := rfl
@[simp] theorem Ctl.putBay_freeCtr (c : Ctl) (b : Nat) (v : BayRec) : (c.putBay b v).freeCtr = c.freeCtr := rfl
@[simp] theorem Ctl.putBay_out (c : Ctl) (b : Nat) (v : BayRec) : (c.putBay b v).out = c.out := rfl
@[simp] theorem Ctl.putBay_regs (c : Ctl) (b : Nat) (v : BayRec) : (c.putBay b v).regs = c.regs := rfl
@[simp] theorem Ctl.putBay_pwr (c : Ctl) (b : Nat) (v : BayRec) : (c.putBay b v).pwr = c.pwr := rfl
@[simp] theorem Ctl.putBay_subs (c : Ctl) (b : Nat) (v : BayRec) : (c.putBay b v).subs = c.subs := rfl
@[simp] theorem Ctl.putBay_lanes (c : Ctl) (b : Nat) (v : BayRec) : (c.putBay b v).lanes = c.lanes := rfl
@[simp] theorem Ctl.putBay_elms (c : Ctl) (b : Nat) (v : BayRec) : (c.putBay b v).elms = c.elms := rfl
@[simp] theorem Ctl.putBay_pairs (c : Ctl) (b : Nat) (v : BayRec) : (c.putBay b v).pairs = c.pairs := rfl
@[simp] theorem Ctl.putBay_flask (c : Ctl) (b : Nat) (v : BayRec) : (c.putBay b v).flask = c.flask := rfl
@[simp] theorem Ctl.putBay_scheds (c : Ctl) (b : Nat) (v : BayRec) : (c.putBay b v).scheds = c.scheds := rfl
@[simp] theorem Ctl.putBay_flaskLost (c : Ctl) (b : Nat) (v : BayRec) : (c.putBay b v).flaskLost = c.flaskLost := rfl
@[simp] theorem Ctl.putBay_intHeld (c : Ctl) (b : Nat) (v : BayRec) : (c.putBay b v).intHeld = c.intHeld := rfl
@[simp] theorem Ctl.putBay_eps (c : Ctl) (b : Nat) (v : BayRec) : (c.putBay b v).eps = c.eps := rfl
@[simp] theorem Ctl.putBay_exts (c : Ctl) (b : Nat) (v : BayRec) : (c.putBay b v).exts = c.exts := rfl
@[simp] theorem Ctl.putBay_opens (c : Ctl) (b : Nat) (v : BayRec) : (c.putBay b v).opens = c.opens := rfl
@[simp] theorem Ctl.putBay_owns (c : Ctl) (b : Nat) (v : BayRec) : (c.putBay b v).owns = c.owns := rfl
@[simp] theorem Ctl.putBay_nextId (c : Ctl) (b : Nat) (v : BayRec) : (c.putBay b v).nextId = c.nextId := rfl
@[simp] theorem Ctl.putBay_tracker (c : Ctl) (b : Nat) (v : BayRec) : (c.putBay b v).tracker = c.tracker := rfl
@[simp] theorem Ctl.putBay_fences (c : Ctl) (b : Nat) (v : BayRec) : (c.putBay b v).fences = c.fences := rfl
@[simp] theorem Ctl.putBay_peg (c : Ctl) (b : Nat) (v : BayRec) : (c.putBay b v).peg = c.peg := rfl
@[simp] theorem Ctl.putBay_locks (c : Ctl) (b : Nat) (v : BayRec) : (c.putBay b v).locks = c.locks := rfl
@[simp] theorem Ctl.putBay_ctrs (c : Ctl) (b : Nat) (v : BayRec) : (c.putBay b v).ctrs = c.ctrs := rfl
@[simp] theorem Ctl.putBay_doms (c : Ctl) (b : Nat) (v : BayRec) : (c.putBay b v).doms = c.doms := rfl
@[simp] theorem Ctl.putBay_dir (c : Ctl) (b : Nat) (v : BayRec) : (c.putBay b v).dir = c.dir := rfl
@[simp] theorem Ctl.putBay_dirQ (c : Ctl) (b : Nat) (v : BayRec) : (c.putBay b v).dirQ = c.dirQ := rfl
@[simp] theorem Ctl.putBay_homeDirty (c : Ctl) (b : Nat) (v : BayRec) : (c.putBay b v).homeDirty = c.homeDirty := rfl
@[simp] theorem Ctl.putBay_tier (c : Ctl) (b : Nat) (v : BayRec) : (c.putBay b v).tier = c.tier := rfl
@[simp] theorem Ctl.putBay_coded (c : Ctl) (b : Nat) (v : BayRec) : (c.putBay b v).coded = c.coded := rfl
@[simp] theorem Ctl.putBay_phys (c : Ctl) (b : Nat) (v : BayRec) : (c.putBay b v).phys = c.phys := rfl
@[simp] theorem Ctl.putBay_migQ (c : Ctl) (b : Nat) (v : BayRec) : (c.putBay b v).migQ = c.migQ := rfl
@[simp] theorem Ctl.putBay_pubReads (c : Ctl) (b : Nat) (v : BayRec) : (c.putBay b v).pubReads = c.pubReads := rfl
@[simp] theorem Ctl.putBay_kvRegions (c : Ctl) (b : Nat) (v : BayRec) : (c.putBay b v).kvRegions = c.kvRegions := rfl
@[simp] theorem Ctl.putBay_kvPages (c : Ctl) (b : Nat) (v : BayRec) : (c.putBay b v).kvPages = c.kvPages := rfl
@[simp] theorem Ctl.putBay_kvBlocks (c : Ctl) (b : Nat) (v : BayRec) : (c.putBay b v).kvBlocks = c.kvBlocks := rfl
@[simp] theorem Ctl.putBay_kvNodes (c : Ctl) (b : Nat) (v : BayRec) : (c.putBay b v).kvNodes = c.kvNodes := rfl
@[simp] theorem Ctl.putBay_ques (c : Ctl) (b : Nat) (v : BayRec) : (c.putBay b v).ques = c.ques := rfl
@[simp] theorem Ctl.putBay_colls (c : Ctl) (b : Nat) (v : BayRec) : (c.putBay b v).colls = c.colls := rfl
@[simp] theorem Ctl.putBay_rsas (c : Ctl) (b : Nat) (v : BayRec) : (c.putBay b v).rsas = c.rsas := rfl
@[simp] theorem Ctl.putBay_places (c : Ctl) (b : Nat) (v : BayRec) : (c.putBay b v).places = c.places := rfl
@[simp] theorem Ctl.putBay_tiles (c : Ctl) (b : Nat) (v : BayRec) : (c.putBay b v).tiles = c.tiles := rfl
@[simp] theorem Ctl.putBay_tileMap (c : Ctl) (b : Nat) (v : BayRec) : (c.putBay b v).tileMap = c.tileMap := rfl
@[simp] theorem Ctl.putBay_clearing (c : Ctl) (b : Nat) (v : BayRec) : (c.putBay b v).clearing = c.clearing := rfl
@[simp] theorem Ctl.putBay_bayTests (c : Ctl) (b : Nat) (v : BayRec) : (c.putBay b v).bayTests = c.bayTests := rfl
@[simp] theorem Ctl.putBay_tally (c : Ctl) (b : Nat) (v : BayRec) : (c.putBay b v).tally = c.tally := rfl
@[simp] theorem Ctl.putBay_chans (c : Ctl) (b : Nat) (v : BayRec) : (c.putBay b v).chans = c.chans := rfl
@[simp] theorem Ctl.putBay_engs (c : Ctl) (b : Nat) (v : BayRec) : (c.putBay b v).engs = c.engs := rfl
@[simp] theorem Ctl.putBay_mbxs (c : Ctl) (b : Nat) (v : BayRec) : (c.putBay b v).mbxs = c.mbxs := rfl
@[simp] theorem Ctl.putBay_seedAt (c : Ctl) (b : Nat) (v : BayRec) : (c.putBay b v).seedAt = c.seedAt := rfl
@[simp] theorem Ctl.putBay_units (c : Ctl) (b : Nat) (v : BayRec) : (c.putBay b v).units = c.units := rfl
@[simp] theorem Ctl.putBay_rechecks (c : Ctl) (b : Nat) (v : BayRec) : (c.putBay b v).rechecks = c.rechecks := rfl
@[simp] theorem Ctl.putBay_items (c : Ctl) (b : Nat) (v : BayRec) : (c.putBay b v).items = c.items := rfl
@[simp] theorem Ctl.putBay_err (c : Ctl) (b : Nat) (v : BayRec) : (c.putBay b v).err = c.err := rfl
@[simp] theorem Ctl.putBay_evseq (c : Ctl) (b : Nat) (v : BayRec) : (c.putBay b v).evseq = c.evseq := rfl
@[simp] theorem Ctl.putBay_sessions (c : Ctl) (b : Nat) (v : BayRec) : (c.putBay b v).sessions = c.sessions := rfl
@[simp] theorem Ctl.putBay_setups (c : Ctl) (b : Nat) (v : BayRec) : (c.putBay b v).setups = c.setups := rfl
@[simp] theorem Ctl.putBay_setupTimes (c : Ctl) (b : Nat) (v : BayRec) : (c.putBay b v).setupTimes = c.setupTimes := rfl
@[simp] theorem Ctl.putBay_nextSid (c : Ctl) (b : Nat) (v : BayRec) : (c.putBay b v).nextSid = c.nextSid := rfl
@[simp] theorem Ctl.putBay_flash (c : Ctl) (b : Nat) (v : BayRec) : (c.putBay b v).flash = c.flash := rfl
@[simp] theorem Ctl.putBay_fuses (c : Ctl) (b : Nat) (v : BayRec) : (c.putBay b v).fuses = c.fuses := rfl
@[simp] theorem Ctl.putBay_fw (c : Ctl) (b : Nat) (v : BayRec) : (c.putBay b v).fw = c.fw := rfl
@[simp] theorem Ctl.putBay_net (c : Ctl) (b : Nat) (v : BayRec) : (c.putBay b v).net = c.net := rfl
@[simp] theorem Ctl.putBay_staging (c : Ctl) (b : Nat) (v : BayRec) : (c.putBay b v).staging = c.staging := rfl
@[simp] theorem Ctl.putBay_optest (c : Ctl) (b : Nat) (v : BayRec) : (c.putBay b v).optest = c.optest := rfl
@[simp] theorem Ctl.putBay_reg (c : Ctl) (b : Nat) (v : BayRec) (a : Nat) : (c.putBay b v).reg a = c.reg a := rfl
@[simp] theorem Ctl.putBay_rd (c : Ctl) (b : Nat) (v : BayRec) (f : Fld) : (c.putBay b v).rd f = c.rd f := rfl
@[simp] theorem Ctl.bay_putBay (c : Ctl) (b : Nat) (v : BayRec) : (c.putBay b v).bay b = v := by simp [Ctl.bay, Ctl.putBay]
theorem Ctl.bay_putBay_ne (c : Ctl) (b : Nat) (v : BayRec) (j : Nat) (h : j ≠ b) : (c.putBay b v).bay j = c.bay j := by
  simp [Ctl.bay, Ctl.putBay, Tab.get_set_ne _ _ _ _ _ _ h]
@[simp] theorem Ctl.putExt_now (c : Ctl) (i : Nat) (v : Extent) : (c.putExt i v).now = c.now := rfl
@[simp] theorem Ctl.putExt_freeCtr (c : Ctl) (i : Nat) (v : Extent) : (c.putExt i v).freeCtr = c.freeCtr := rfl
@[simp] theorem Ctl.putExt_out (c : Ctl) (i : Nat) (v : Extent) : (c.putExt i v).out = c.out := rfl
@[simp] theorem Ctl.putExt_regs (c : Ctl) (i : Nat) (v : Extent) : (c.putExt i v).regs = c.regs := rfl
@[simp] theorem Ctl.putExt_pwr (c : Ctl) (i : Nat) (v : Extent) : (c.putExt i v).pwr = c.pwr := rfl
@[simp] theorem Ctl.putExt_subs (c : Ctl) (i : Nat) (v : Extent) : (c.putExt i v).subs = c.subs := rfl
@[simp] theorem Ctl.putExt_lanes (c : Ctl) (i : Nat) (v : Extent) : (c.putExt i v).lanes = c.lanes := rfl
@[simp] theorem Ctl.putExt_elms (c : Ctl) (i : Nat) (v : Extent) : (c.putExt i v).elms = c.elms := rfl
@[simp] theorem Ctl.putExt_pairs (c : Ctl) (i : Nat) (v : Extent) : (c.putExt i v).pairs = c.pairs := rfl
@[simp] theorem Ctl.putExt_flask (c : Ctl) (i : Nat) (v : Extent) : (c.putExt i v).flask = c.flask := rfl
@[simp] theorem Ctl.putExt_scheds (c : Ctl) (i : Nat) (v : Extent) : (c.putExt i v).scheds = c.scheds := rfl
@[simp] theorem Ctl.putExt_flaskLost (c : Ctl) (i : Nat) (v : Extent) : (c.putExt i v).flaskLost = c.flaskLost := rfl
@[simp] theorem Ctl.putExt_intHeld (c : Ctl) (i : Nat) (v : Extent) : (c.putExt i v).intHeld = c.intHeld := rfl
@[simp] theorem Ctl.putExt_eps (c : Ctl) (i : Nat) (v : Extent) : (c.putExt i v).eps = c.eps := rfl
@[simp] theorem Ctl.putExt_bays (c : Ctl) (i : Nat) (v : Extent) : (c.putExt i v).bays = c.bays := rfl
@[simp] theorem Ctl.putExt_opens (c : Ctl) (i : Nat) (v : Extent) : (c.putExt i v).opens = c.opens := rfl
@[simp] theorem Ctl.putExt_owns (c : Ctl) (i : Nat) (v : Extent) : (c.putExt i v).owns = c.owns := rfl
@[simp] theorem Ctl.putExt_nextId (c : Ctl) (i : Nat) (v : Extent) : (c.putExt i v).nextId = c.nextId := rfl
@[simp] theorem Ctl.putExt_tracker (c : Ctl) (i : Nat) (v : Extent) : (c.putExt i v).tracker = c.tracker := rfl
@[simp] theorem Ctl.putExt_fences (c : Ctl) (i : Nat) (v : Extent) : (c.putExt i v).fences = c.fences := rfl
@[simp] theorem Ctl.putExt_peg (c : Ctl) (i : Nat) (v : Extent) : (c.putExt i v).peg = c.peg := rfl
@[simp] theorem Ctl.putExt_locks (c : Ctl) (i : Nat) (v : Extent) : (c.putExt i v).locks = c.locks := rfl
@[simp] theorem Ctl.putExt_ctrs (c : Ctl) (i : Nat) (v : Extent) : (c.putExt i v).ctrs = c.ctrs := rfl
@[simp] theorem Ctl.putExt_doms (c : Ctl) (i : Nat) (v : Extent) : (c.putExt i v).doms = c.doms := rfl
@[simp] theorem Ctl.putExt_dir (c : Ctl) (i : Nat) (v : Extent) : (c.putExt i v).dir = c.dir := rfl
@[simp] theorem Ctl.putExt_dirQ (c : Ctl) (i : Nat) (v : Extent) : (c.putExt i v).dirQ = c.dirQ := rfl
@[simp] theorem Ctl.putExt_homeDirty (c : Ctl) (i : Nat) (v : Extent) : (c.putExt i v).homeDirty = c.homeDirty := rfl
@[simp] theorem Ctl.putExt_tier (c : Ctl) (i : Nat) (v : Extent) : (c.putExt i v).tier = c.tier := rfl
@[simp] theorem Ctl.putExt_coded (c : Ctl) (i : Nat) (v : Extent) : (c.putExt i v).coded = c.coded := rfl
@[simp] theorem Ctl.putExt_phys (c : Ctl) (i : Nat) (v : Extent) : (c.putExt i v).phys = c.phys := rfl
@[simp] theorem Ctl.putExt_migQ (c : Ctl) (i : Nat) (v : Extent) : (c.putExt i v).migQ = c.migQ := rfl
@[simp] theorem Ctl.putExt_pubReads (c : Ctl) (i : Nat) (v : Extent) : (c.putExt i v).pubReads = c.pubReads := rfl
@[simp] theorem Ctl.putExt_kvRegions (c : Ctl) (i : Nat) (v : Extent) : (c.putExt i v).kvRegions = c.kvRegions := rfl
@[simp] theorem Ctl.putExt_kvPages (c : Ctl) (i : Nat) (v : Extent) : (c.putExt i v).kvPages = c.kvPages := rfl
@[simp] theorem Ctl.putExt_kvBlocks (c : Ctl) (i : Nat) (v : Extent) : (c.putExt i v).kvBlocks = c.kvBlocks := rfl
@[simp] theorem Ctl.putExt_kvNodes (c : Ctl) (i : Nat) (v : Extent) : (c.putExt i v).kvNodes = c.kvNodes := rfl
@[simp] theorem Ctl.putExt_ques (c : Ctl) (i : Nat) (v : Extent) : (c.putExt i v).ques = c.ques := rfl
@[simp] theorem Ctl.putExt_colls (c : Ctl) (i : Nat) (v : Extent) : (c.putExt i v).colls = c.colls := rfl
@[simp] theorem Ctl.putExt_rsas (c : Ctl) (i : Nat) (v : Extent) : (c.putExt i v).rsas = c.rsas := rfl
@[simp] theorem Ctl.putExt_places (c : Ctl) (i : Nat) (v : Extent) : (c.putExt i v).places = c.places := rfl
@[simp] theorem Ctl.putExt_tiles (c : Ctl) (i : Nat) (v : Extent) : (c.putExt i v).tiles = c.tiles := rfl
@[simp] theorem Ctl.putExt_tileMap (c : Ctl) (i : Nat) (v : Extent) : (c.putExt i v).tileMap = c.tileMap := rfl
@[simp] theorem Ctl.putExt_clearing (c : Ctl) (i : Nat) (v : Extent) : (c.putExt i v).clearing = c.clearing := rfl
@[simp] theorem Ctl.putExt_bayTests (c : Ctl) (i : Nat) (v : Extent) : (c.putExt i v).bayTests = c.bayTests := rfl
@[simp] theorem Ctl.putExt_tally (c : Ctl) (i : Nat) (v : Extent) : (c.putExt i v).tally = c.tally := rfl
@[simp] theorem Ctl.putExt_chans (c : Ctl) (i : Nat) (v : Extent) : (c.putExt i v).chans = c.chans := rfl
@[simp] theorem Ctl.putExt_engs (c : Ctl) (i : Nat) (v : Extent) : (c.putExt i v).engs = c.engs := rfl
@[simp] theorem Ctl.putExt_mbxs (c : Ctl) (i : Nat) (v : Extent) : (c.putExt i v).mbxs = c.mbxs := rfl
@[simp] theorem Ctl.putExt_seedAt (c : Ctl) (i : Nat) (v : Extent) : (c.putExt i v).seedAt = c.seedAt := rfl
@[simp] theorem Ctl.putExt_units (c : Ctl) (i : Nat) (v : Extent) : (c.putExt i v).units = c.units := rfl
@[simp] theorem Ctl.putExt_rechecks (c : Ctl) (i : Nat) (v : Extent) : (c.putExt i v).rechecks = c.rechecks := rfl
@[simp] theorem Ctl.putExt_items (c : Ctl) (i : Nat) (v : Extent) : (c.putExt i v).items = c.items := rfl
@[simp] theorem Ctl.putExt_err (c : Ctl) (i : Nat) (v : Extent) : (c.putExt i v).err = c.err := rfl
@[simp] theorem Ctl.putExt_evseq (c : Ctl) (i : Nat) (v : Extent) : (c.putExt i v).evseq = c.evseq := rfl
@[simp] theorem Ctl.putExt_sessions (c : Ctl) (i : Nat) (v : Extent) : (c.putExt i v).sessions = c.sessions := rfl
@[simp] theorem Ctl.putExt_setups (c : Ctl) (i : Nat) (v : Extent) : (c.putExt i v).setups = c.setups := rfl
@[simp] theorem Ctl.putExt_setupTimes (c : Ctl) (i : Nat) (v : Extent) : (c.putExt i v).setupTimes = c.setupTimes := rfl
@[simp] theorem Ctl.putExt_nextSid (c : Ctl) (i : Nat) (v : Extent) : (c.putExt i v).nextSid = c.nextSid := rfl
@[simp] theorem Ctl.putExt_flash (c : Ctl) (i : Nat) (v : Extent) : (c.putExt i v).flash = c.flash := rfl
@[simp] theorem Ctl.putExt_fuses (c : Ctl) (i : Nat) (v : Extent) : (c.putExt i v).fuses = c.fuses := rfl
@[simp] theorem Ctl.putExt_fw (c : Ctl) (i : Nat) (v : Extent) : (c.putExt i v).fw = c.fw := rfl
@[simp] theorem Ctl.putExt_net (c : Ctl) (i : Nat) (v : Extent) : (c.putExt i v).net = c.net := rfl
@[simp] theorem Ctl.putExt_staging (c : Ctl) (i : Nat) (v : Extent) : (c.putExt i v).staging = c.staging := rfl
@[simp] theorem Ctl.putExt_optest (c : Ctl) (i : Nat) (v : Extent) : (c.putExt i v).optest = c.optest := rfl
@[simp] theorem Ctl.putExt_reg (c : Ctl) (i : Nat) (v : Extent) (a : Nat) : (c.putExt i v).reg a = c.reg a := rfl
@[simp] theorem Ctl.putExt_rd (c : Ctl) (i : Nat) (v : Extent) (f : Fld) : (c.putExt i v).rd f = c.rd f := rfl
@[simp] theorem Ctl.ext_putExt (c : Ctl) (i : Nat) (v : Extent) : (c.putExt i v).ext i = v := by simp [Ctl.ext, Ctl.putExt]
theorem Ctl.ext_putExt_ne (c : Ctl) (i : Nat) (v : Extent) (j : Nat) (h : j ≠ i) : (c.putExt i v).ext j = c.ext j := by
  simp [Ctl.ext, Ctl.putExt, Tab.get_set_ne _ _ _ _ _ _ h]
@[simp] theorem Ctl.putDom_now (c : Ctl) (d : Nat) (v : Domain) : (c.putDom d v).now = c.now := rfl
@[simp] theorem Ctl.putDom_freeCtr (c : Ctl) (d : Nat) (v : Domain) : (c.putDom d v).freeCtr = c.freeCtr := rfl
@[simp] theorem Ctl.putDom_out (c : Ctl) (d : Nat) (v : Domain) : (c.putDom d v).out = c.out := rfl
@[simp] theorem Ctl.putDom_regs (c : Ctl) (d : Nat) (v : Domain) : (c.putDom d v).regs = c.regs := rfl
@[simp] theorem Ctl.putDom_pwr (c : Ctl) (d : Nat) (v : Domain) : (c.putDom d v).pwr = c.pwr := rfl
@[simp] theorem Ctl.putDom_subs (c : Ctl) (d : Nat) (v : Domain) : (c.putDom d v).subs = c.subs := rfl
@[simp] theorem Ctl.putDom_lanes (c : Ctl) (d : Nat) (v : Domain) : (c.putDom d v).lanes = c.lanes := rfl
@[simp] theorem Ctl.putDom_elms (c : Ctl) (d : Nat) (v : Domain) : (c.putDom d v).elms = c.elms := rfl
@[simp] theorem Ctl.putDom_pairs (c : Ctl) (d : Nat) (v : Domain) : (c.putDom d v).pairs = c.pairs := rfl
@[simp] theorem Ctl.putDom_flask (c : Ctl) (d : Nat) (v : Domain) : (c.putDom d v).flask = c.flask := rfl
@[simp] theorem Ctl.putDom_scheds (c : Ctl) (d : Nat) (v : Domain) : (c.putDom d v).scheds = c.scheds := rfl
@[simp] theorem Ctl.putDom_flaskLost (c : Ctl) (d : Nat) (v : Domain) : (c.putDom d v).flaskLost = c.flaskLost := rfl
@[simp] theorem Ctl.putDom_intHeld (c : Ctl) (d : Nat) (v : Domain) : (c.putDom d v).intHeld = c.intHeld := rfl
@[simp] theorem Ctl.putDom_eps (c : Ctl) (d : Nat) (v : Domain) : (c.putDom d v).eps = c.eps := rfl
@[simp] theorem Ctl.putDom_bays (c : Ctl) (d : Nat) (v : Domain) : (c.putDom d v).bays = c.bays := rfl
@[simp] theorem Ctl.putDom_exts (c : Ctl) (d : Nat) (v : Domain) : (c.putDom d v).exts = c.exts := rfl
@[simp] theorem Ctl.putDom_opens (c : Ctl) (d : Nat) (v : Domain) : (c.putDom d v).opens = c.opens := rfl
@[simp] theorem Ctl.putDom_owns (c : Ctl) (d : Nat) (v : Domain) : (c.putDom d v).owns = c.owns := rfl
@[simp] theorem Ctl.putDom_nextId (c : Ctl) (d : Nat) (v : Domain) : (c.putDom d v).nextId = c.nextId := rfl
@[simp] theorem Ctl.putDom_tracker (c : Ctl) (d : Nat) (v : Domain) : (c.putDom d v).tracker = c.tracker := rfl
@[simp] theorem Ctl.putDom_fences (c : Ctl) (d : Nat) (v : Domain) : (c.putDom d v).fences = c.fences := rfl
@[simp] theorem Ctl.putDom_peg (c : Ctl) (d : Nat) (v : Domain) : (c.putDom d v).peg = c.peg := rfl
@[simp] theorem Ctl.putDom_locks (c : Ctl) (d : Nat) (v : Domain) : (c.putDom d v).locks = c.locks := rfl
@[simp] theorem Ctl.putDom_ctrs (c : Ctl) (d : Nat) (v : Domain) : (c.putDom d v).ctrs = c.ctrs := rfl
@[simp] theorem Ctl.putDom_dir (c : Ctl) (d : Nat) (v : Domain) : (c.putDom d v).dir = c.dir := rfl
@[simp] theorem Ctl.putDom_dirQ (c : Ctl) (d : Nat) (v : Domain) : (c.putDom d v).dirQ = c.dirQ := rfl
@[simp] theorem Ctl.putDom_homeDirty (c : Ctl) (d : Nat) (v : Domain) : (c.putDom d v).homeDirty = c.homeDirty := rfl
@[simp] theorem Ctl.putDom_tier (c : Ctl) (d : Nat) (v : Domain) : (c.putDom d v).tier = c.tier := rfl
@[simp] theorem Ctl.putDom_coded (c : Ctl) (d : Nat) (v : Domain) : (c.putDom d v).coded = c.coded := rfl
@[simp] theorem Ctl.putDom_phys (c : Ctl) (d : Nat) (v : Domain) : (c.putDom d v).phys = c.phys := rfl
@[simp] theorem Ctl.putDom_migQ (c : Ctl) (d : Nat) (v : Domain) : (c.putDom d v).migQ = c.migQ := rfl
@[simp] theorem Ctl.putDom_pubReads (c : Ctl) (d : Nat) (v : Domain) : (c.putDom d v).pubReads = c.pubReads := rfl
@[simp] theorem Ctl.putDom_kvRegions (c : Ctl) (d : Nat) (v : Domain) : (c.putDom d v).kvRegions = c.kvRegions := rfl
@[simp] theorem Ctl.putDom_kvPages (c : Ctl) (d : Nat) (v : Domain) : (c.putDom d v).kvPages = c.kvPages := rfl
@[simp] theorem Ctl.putDom_kvBlocks (c : Ctl) (d : Nat) (v : Domain) : (c.putDom d v).kvBlocks = c.kvBlocks := rfl
@[simp] theorem Ctl.putDom_kvNodes (c : Ctl) (d : Nat) (v : Domain) : (c.putDom d v).kvNodes = c.kvNodes := rfl
@[simp] theorem Ctl.putDom_ques (c : Ctl) (d : Nat) (v : Domain) : (c.putDom d v).ques = c.ques := rfl
@[simp] theorem Ctl.putDom_colls (c : Ctl) (d : Nat) (v : Domain) : (c.putDom d v).colls = c.colls := rfl
@[simp] theorem Ctl.putDom_rsas (c : Ctl) (d : Nat) (v : Domain) : (c.putDom d v).rsas = c.rsas := rfl
@[simp] theorem Ctl.putDom_places (c : Ctl) (d : Nat) (v : Domain) : (c.putDom d v).places = c.places := rfl
@[simp] theorem Ctl.putDom_tiles (c : Ctl) (d : Nat) (v : Domain) : (c.putDom d v).tiles = c.tiles := rfl
@[simp] theorem Ctl.putDom_tileMap (c : Ctl) (d : Nat) (v : Domain) : (c.putDom d v).tileMap = c.tileMap := rfl
@[simp] theorem Ctl.putDom_clearing (c : Ctl) (d : Nat) (v : Domain) : (c.putDom d v).clearing = c.clearing := rfl
@[simp] theorem Ctl.putDom_bayTests (c : Ctl) (d : Nat) (v : Domain) : (c.putDom d v).bayTests = c.bayTests := rfl
@[simp] theorem Ctl.putDom_tally (c : Ctl) (d : Nat) (v : Domain) : (c.putDom d v).tally = c.tally := rfl
@[simp] theorem Ctl.putDom_chans (c : Ctl) (d : Nat) (v : Domain) : (c.putDom d v).chans = c.chans := rfl
@[simp] theorem Ctl.putDom_engs (c : Ctl) (d : Nat) (v : Domain) : (c.putDom d v).engs = c.engs := rfl
@[simp] theorem Ctl.putDom_mbxs (c : Ctl) (d : Nat) (v : Domain) : (c.putDom d v).mbxs = c.mbxs := rfl
@[simp] theorem Ctl.putDom_seedAt (c : Ctl) (d : Nat) (v : Domain) : (c.putDom d v).seedAt = c.seedAt := rfl
@[simp] theorem Ctl.putDom_units (c : Ctl) (d : Nat) (v : Domain) : (c.putDom d v).units = c.units := rfl
@[simp] theorem Ctl.putDom_rechecks (c : Ctl) (d : Nat) (v : Domain) : (c.putDom d v).rechecks = c.rechecks := rfl
@[simp] theorem Ctl.putDom_items (c : Ctl) (d : Nat) (v : Domain) : (c.putDom d v).items = c.items := rfl
@[simp] theorem Ctl.putDom_err (c : Ctl) (d : Nat) (v : Domain) : (c.putDom d v).err = c.err := rfl
@[simp] theorem Ctl.putDom_evseq (c : Ctl) (d : Nat) (v : Domain) : (c.putDom d v).evseq = c.evseq := rfl
@[simp] theorem Ctl.putDom_sessions (c : Ctl) (d : Nat) (v : Domain) : (c.putDom d v).sessions = c.sessions := rfl
@[simp] theorem Ctl.putDom_setups (c : Ctl) (d : Nat) (v : Domain) : (c.putDom d v).setups = c.setups := rfl
@[simp] theorem Ctl.putDom_setupTimes (c : Ctl) (d : Nat) (v : Domain) : (c.putDom d v).setupTimes = c.setupTimes := rfl
@[simp] theorem Ctl.putDom_nextSid (c : Ctl) (d : Nat) (v : Domain) : (c.putDom d v).nextSid = c.nextSid := rfl
@[simp] theorem Ctl.putDom_flash (c : Ctl) (d : Nat) (v : Domain) : (c.putDom d v).flash = c.flash := rfl
@[simp] theorem Ctl.putDom_fuses (c : Ctl) (d : Nat) (v : Domain) : (c.putDom d v).fuses = c.fuses := rfl
@[simp] theorem Ctl.putDom_fw (c : Ctl) (d : Nat) (v : Domain) : (c.putDom d v).fw = c.fw := rfl
@[simp] theorem Ctl.putDom_net (c : Ctl) (d : Nat) (v : Domain) : (c.putDom d v).net = c.net := rfl
@[simp] theorem Ctl.putDom_staging (c : Ctl) (d : Nat) (v : Domain) : (c.putDom d v).staging = c.staging := rfl
@[simp] theorem Ctl.putDom_optest (c : Ctl) (d : Nat) (v : Domain) : (c.putDom d v).optest = c.optest := rfl
@[simp] theorem Ctl.putDom_reg (c : Ctl) (d : Nat) (v : Domain) (a : Nat) : (c.putDom d v).reg a = c.reg a := rfl
@[simp] theorem Ctl.putDom_rd (c : Ctl) (d : Nat) (v : Domain) (f : Fld) : (c.putDom d v).rd f = c.rd f := rfl
@[simp] theorem Ctl.dom_putDom (c : Ctl) (d : Nat) (v : Domain) : (c.putDom d v).dom d = v := by simp [Ctl.dom, Ctl.putDom]
theorem Ctl.dom_putDom_ne (c : Ctl) (d : Nat) (v : Domain) (j : Nat) (h : j ≠ d) : (c.putDom d v).dom j = c.dom j := by
  simp [Ctl.dom, Ctl.putDom, Tab.get_set_ne _ _ _ _ _ _ h]
@[simp] theorem Ctl.putCounter_now (c : Ctl) (i : Nat) (v : Word) : (c.putCounter i v).now = c.now := rfl
@[simp] theorem Ctl.putCounter_freeCtr (c : Ctl) (i : Nat) (v : Word) : (c.putCounter i v).freeCtr = c.freeCtr := rfl
@[simp] theorem Ctl.putCounter_out (c : Ctl) (i : Nat) (v : Word) : (c.putCounter i v).out = c.out := rfl
@[simp] theorem Ctl.putCounter_regs (c : Ctl) (i : Nat) (v : Word) : (c.putCounter i v).regs = c.regs := rfl
@[simp] theorem Ctl.putCounter_pwr (c : Ctl) (i : Nat) (v : Word) : (c.putCounter i v).pwr = c.pwr := rfl
@[simp] theorem Ctl.putCounter_subs (c : Ctl) (i : Nat) (v : Word) : (c.putCounter i v).subs = c.subs := rfl
@[simp] theorem Ctl.putCounter_lanes (c : Ctl) (i : Nat) (v : Word) : (c.putCounter i v).lanes = c.lanes := rfl
@[simp] theorem Ctl.putCounter_elms (c : Ctl) (i : Nat) (v : Word) : (c.putCounter i v).elms = c.elms := rfl
@[simp] theorem Ctl.putCounter_pairs (c : Ctl) (i : Nat) (v : Word) : (c.putCounter i v).pairs = c.pairs := rfl
@[simp] theorem Ctl.putCounter_flask (c : Ctl) (i : Nat) (v : Word) : (c.putCounter i v).flask = c.flask := rfl
@[simp] theorem Ctl.putCounter_scheds (c : Ctl) (i : Nat) (v : Word) : (c.putCounter i v).scheds = c.scheds := rfl
@[simp] theorem Ctl.putCounter_flaskLost (c : Ctl) (i : Nat) (v : Word) : (c.putCounter i v).flaskLost = c.flaskLost := rfl
@[simp] theorem Ctl.putCounter_intHeld (c : Ctl) (i : Nat) (v : Word) : (c.putCounter i v).intHeld = c.intHeld := rfl
@[simp] theorem Ctl.putCounter_eps (c : Ctl) (i : Nat) (v : Word) : (c.putCounter i v).eps = c.eps := rfl
@[simp] theorem Ctl.putCounter_bays (c : Ctl) (i : Nat) (v : Word) : (c.putCounter i v).bays = c.bays := rfl
@[simp] theorem Ctl.putCounter_exts (c : Ctl) (i : Nat) (v : Word) : (c.putCounter i v).exts = c.exts := rfl
@[simp] theorem Ctl.putCounter_opens (c : Ctl) (i : Nat) (v : Word) : (c.putCounter i v).opens = c.opens := rfl
@[simp] theorem Ctl.putCounter_owns (c : Ctl) (i : Nat) (v : Word) : (c.putCounter i v).owns = c.owns := rfl
@[simp] theorem Ctl.putCounter_nextId (c : Ctl) (i : Nat) (v : Word) : (c.putCounter i v).nextId = c.nextId := rfl
@[simp] theorem Ctl.putCounter_tracker (c : Ctl) (i : Nat) (v : Word) : (c.putCounter i v).tracker = c.tracker := rfl
@[simp] theorem Ctl.putCounter_fences (c : Ctl) (i : Nat) (v : Word) : (c.putCounter i v).fences = c.fences := rfl
@[simp] theorem Ctl.putCounter_peg (c : Ctl) (i : Nat) (v : Word) : (c.putCounter i v).peg = c.peg := rfl
@[simp] theorem Ctl.putCounter_locks (c : Ctl) (i : Nat) (v : Word) : (c.putCounter i v).locks = c.locks := rfl
@[simp] theorem Ctl.putCounter_doms (c : Ctl) (i : Nat) (v : Word) : (c.putCounter i v).doms = c.doms := rfl
@[simp] theorem Ctl.putCounter_dir (c : Ctl) (i : Nat) (v : Word) : (c.putCounter i v).dir = c.dir := rfl
@[simp] theorem Ctl.putCounter_dirQ (c : Ctl) (i : Nat) (v : Word) : (c.putCounter i v).dirQ = c.dirQ := rfl
@[simp] theorem Ctl.putCounter_homeDirty (c : Ctl) (i : Nat) (v : Word) : (c.putCounter i v).homeDirty = c.homeDirty := rfl
@[simp] theorem Ctl.putCounter_tier (c : Ctl) (i : Nat) (v : Word) : (c.putCounter i v).tier = c.tier := rfl
@[simp] theorem Ctl.putCounter_coded (c : Ctl) (i : Nat) (v : Word) : (c.putCounter i v).coded = c.coded := rfl
@[simp] theorem Ctl.putCounter_phys (c : Ctl) (i : Nat) (v : Word) : (c.putCounter i v).phys = c.phys := rfl
@[simp] theorem Ctl.putCounter_migQ (c : Ctl) (i : Nat) (v : Word) : (c.putCounter i v).migQ = c.migQ := rfl
@[simp] theorem Ctl.putCounter_pubReads (c : Ctl) (i : Nat) (v : Word) : (c.putCounter i v).pubReads = c.pubReads := rfl
@[simp] theorem Ctl.putCounter_kvRegions (c : Ctl) (i : Nat) (v : Word) : (c.putCounter i v).kvRegions = c.kvRegions := rfl
@[simp] theorem Ctl.putCounter_kvPages (c : Ctl) (i : Nat) (v : Word) : (c.putCounter i v).kvPages = c.kvPages := rfl
@[simp] theorem Ctl.putCounter_kvBlocks (c : Ctl) (i : Nat) (v : Word) : (c.putCounter i v).kvBlocks = c.kvBlocks := rfl
@[simp] theorem Ctl.putCounter_kvNodes (c : Ctl) (i : Nat) (v : Word) : (c.putCounter i v).kvNodes = c.kvNodes := rfl
@[simp] theorem Ctl.putCounter_ques (c : Ctl) (i : Nat) (v : Word) : (c.putCounter i v).ques = c.ques := rfl
@[simp] theorem Ctl.putCounter_colls (c : Ctl) (i : Nat) (v : Word) : (c.putCounter i v).colls = c.colls := rfl
@[simp] theorem Ctl.putCounter_rsas (c : Ctl) (i : Nat) (v : Word) : (c.putCounter i v).rsas = c.rsas := rfl
@[simp] theorem Ctl.putCounter_places (c : Ctl) (i : Nat) (v : Word) : (c.putCounter i v).places = c.places := rfl
@[simp] theorem Ctl.putCounter_tiles (c : Ctl) (i : Nat) (v : Word) : (c.putCounter i v).tiles = c.tiles := rfl
@[simp] theorem Ctl.putCounter_tileMap (c : Ctl) (i : Nat) (v : Word) : (c.putCounter i v).tileMap = c.tileMap := rfl
@[simp] theorem Ctl.putCounter_clearing (c : Ctl) (i : Nat) (v : Word) : (c.putCounter i v).clearing = c.clearing := rfl
@[simp] theorem Ctl.putCounter_bayTests (c : Ctl) (i : Nat) (v : Word) : (c.putCounter i v).bayTests = c.bayTests := rfl
@[simp] theorem Ctl.putCounter_tally (c : Ctl) (i : Nat) (v : Word) : (c.putCounter i v).tally = c.tally := rfl
@[simp] theorem Ctl.putCounter_chans (c : Ctl) (i : Nat) (v : Word) : (c.putCounter i v).chans = c.chans := rfl
@[simp] theorem Ctl.putCounter_engs (c : Ctl) (i : Nat) (v : Word) : (c.putCounter i v).engs = c.engs := rfl
@[simp] theorem Ctl.putCounter_mbxs (c : Ctl) (i : Nat) (v : Word) : (c.putCounter i v).mbxs = c.mbxs := rfl
@[simp] theorem Ctl.putCounter_seedAt (c : Ctl) (i : Nat) (v : Word) : (c.putCounter i v).seedAt = c.seedAt := rfl
@[simp] theorem Ctl.putCounter_units (c : Ctl) (i : Nat) (v : Word) : (c.putCounter i v).units = c.units := rfl
@[simp] theorem Ctl.putCounter_rechecks (c : Ctl) (i : Nat) (v : Word) : (c.putCounter i v).rechecks = c.rechecks := rfl
@[simp] theorem Ctl.putCounter_items (c : Ctl) (i : Nat) (v : Word) : (c.putCounter i v).items = c.items := rfl
@[simp] theorem Ctl.putCounter_err (c : Ctl) (i : Nat) (v : Word) : (c.putCounter i v).err = c.err := rfl
@[simp] theorem Ctl.putCounter_evseq (c : Ctl) (i : Nat) (v : Word) : (c.putCounter i v).evseq = c.evseq := rfl
@[simp] theorem Ctl.putCounter_sessions (c : Ctl) (i : Nat) (v : Word) : (c.putCounter i v).sessions = c.sessions := rfl
@[simp] theorem Ctl.putCounter_setups (c : Ctl) (i : Nat) (v : Word) : (c.putCounter i v).setups = c.setups := rfl
@[simp] theorem Ctl.putCounter_setupTimes (c : Ctl) (i : Nat) (v : Word) : (c.putCounter i v).setupTimes = c.setupTimes := rfl
@[simp] theorem Ctl.putCounter_nextSid (c : Ctl) (i : Nat) (v : Word) : (c.putCounter i v).nextSid = c.nextSid := rfl
@[simp] theorem Ctl.putCounter_flash (c : Ctl) (i : Nat) (v : Word) : (c.putCounter i v).flash = c.flash := rfl
@[simp] theorem Ctl.putCounter_fuses (c : Ctl) (i : Nat) (v : Word) : (c.putCounter i v).fuses = c.fuses := rfl
@[simp] theorem Ctl.putCounter_fw (c : Ctl) (i : Nat) (v : Word) : (c.putCounter i v).fw = c.fw := rfl
@[simp] theorem Ctl.putCounter_net (c : Ctl) (i : Nat) (v : Word) : (c.putCounter i v).net = c.net := rfl
@[simp] theorem Ctl.putCounter_staging (c : Ctl) (i : Nat) (v : Word) : (c.putCounter i v).staging = c.staging := rfl
@[simp] theorem Ctl.putCounter_optest (c : Ctl) (i : Nat) (v : Word) : (c.putCounter i v).optest = c.optest := rfl
@[simp] theorem Ctl.putCounter_reg (c : Ctl) (i : Nat) (v : Word) (a : Nat) : (c.putCounter i v).reg a = c.reg a := rfl
@[simp] theorem Ctl.putCounter_rd (c : Ctl) (i : Nat) (v : Word) (f : Fld) : (c.putCounter i v).rd f = c.rd f := rfl
@[simp] theorem Ctl.counter_putCounter (c : Ctl) (i : Nat) (v : Word) : (c.putCounter i v).counter i = v := by simp [Ctl.counter, Ctl.putCounter]
theorem Ctl.counter_putCounter_ne (c : Ctl) (i : Nat) (v : Word) (j : Nat) (h : j ≠ i) : (c.putCounter i v).counter j = c.counter j := by
  simp [Ctl.counter, Ctl.putCounter, Tab.get_set_ne _ _ _ _ _ _ h]
@[simp] theorem Ctl.putQue_now (c : Ctl) (q : Nat) (v : Que) : (c.putQue q v).now = c.now := rfl
@[simp] theorem Ctl.putQue_freeCtr (c : Ctl) (q : Nat) (v : Que) : (c.putQue q v).freeCtr = c.freeCtr := rfl
@[simp] theorem Ctl.putQue_out (c : Ctl) (q : Nat) (v : Que) : (c.putQue q v).out = c.out := rfl
@[simp] theorem Ctl.putQue_regs (c : Ctl) (q : Nat) (v : Que) : (c.putQue q v).regs = c.regs := rfl
@[simp] theorem Ctl.putQue_pwr (c : Ctl) (q : Nat) (v : Que) : (c.putQue q v).pwr = c.pwr := rfl
@[simp] theorem Ctl.putQue_subs (c : Ctl) (q : Nat) (v : Que) : (c.putQue q v).subs = c.subs := rfl
@[simp] theorem Ctl.putQue_lanes (c : Ctl) (q : Nat) (v : Que) : (c.putQue q v).lanes = c.lanes := rfl
@[simp] theorem Ctl.putQue_elms (c : Ctl) (q : Nat) (v : Que) : (c.putQue q v).elms = c.elms := rfl
@[simp] theorem Ctl.putQue_pairs (c : Ctl) (q : Nat) (v : Que) : (c.putQue q v).pairs = c.pairs := rfl
@[simp] theorem Ctl.putQue_flask (c : Ctl) (q : Nat) (v : Que) : (c.putQue q v).flask = c.flask := rfl
@[simp] theorem Ctl.putQue_scheds (c : Ctl) (q : Nat) (v : Que) : (c.putQue q v).scheds = c.scheds := rfl
@[simp] theorem Ctl.putQue_flaskLost (c : Ctl) (q : Nat) (v : Que) : (c.putQue q v).flaskLost = c.flaskLost := rfl
@[simp] theorem Ctl.putQue_intHeld (c : Ctl) (q : Nat) (v : Que) : (c.putQue q v).intHeld = c.intHeld := rfl
@[simp] theorem Ctl.putQue_eps (c : Ctl) (q : Nat) (v : Que) : (c.putQue q v).eps = c.eps := rfl
@[simp] theorem Ctl.putQue_bays (c : Ctl) (q : Nat) (v : Que) : (c.putQue q v).bays = c.bays := rfl
@[simp] theorem Ctl.putQue_exts (c : Ctl) (q : Nat) (v : Que) : (c.putQue q v).exts = c.exts := rfl
@[simp] theorem Ctl.putQue_opens (c : Ctl) (q : Nat) (v : Que) : (c.putQue q v).opens = c.opens := rfl
@[simp] theorem Ctl.putQue_owns (c : Ctl) (q : Nat) (v : Que) : (c.putQue q v).owns = c.owns := rfl
@[simp] theorem Ctl.putQue_nextId (c : Ctl) (q : Nat) (v : Que) : (c.putQue q v).nextId = c.nextId := rfl
@[simp] theorem Ctl.putQue_tracker (c : Ctl) (q : Nat) (v : Que) : (c.putQue q v).tracker = c.tracker := rfl
@[simp] theorem Ctl.putQue_fences (c : Ctl) (q : Nat) (v : Que) : (c.putQue q v).fences = c.fences := rfl
@[simp] theorem Ctl.putQue_peg (c : Ctl) (q : Nat) (v : Que) : (c.putQue q v).peg = c.peg := rfl
@[simp] theorem Ctl.putQue_locks (c : Ctl) (q : Nat) (v : Que) : (c.putQue q v).locks = c.locks := rfl
@[simp] theorem Ctl.putQue_ctrs (c : Ctl) (q : Nat) (v : Que) : (c.putQue q v).ctrs = c.ctrs := rfl
@[simp] theorem Ctl.putQue_doms (c : Ctl) (q : Nat) (v : Que) : (c.putQue q v).doms = c.doms := rfl
@[simp] theorem Ctl.putQue_dir (c : Ctl) (q : Nat) (v : Que) : (c.putQue q v).dir = c.dir := rfl
@[simp] theorem Ctl.putQue_dirQ (c : Ctl) (q : Nat) (v : Que) : (c.putQue q v).dirQ = c.dirQ := rfl
@[simp] theorem Ctl.putQue_homeDirty (c : Ctl) (q : Nat) (v : Que) : (c.putQue q v).homeDirty = c.homeDirty := rfl
@[simp] theorem Ctl.putQue_tier (c : Ctl) (q : Nat) (v : Que) : (c.putQue q v).tier = c.tier := rfl
@[simp] theorem Ctl.putQue_coded (c : Ctl) (q : Nat) (v : Que) : (c.putQue q v).coded = c.coded := rfl
@[simp] theorem Ctl.putQue_phys (c : Ctl) (q : Nat) (v : Que) : (c.putQue q v).phys = c.phys := rfl
@[simp] theorem Ctl.putQue_migQ (c : Ctl) (q : Nat) (v : Que) : (c.putQue q v).migQ = c.migQ := rfl
@[simp] theorem Ctl.putQue_pubReads (c : Ctl) (q : Nat) (v : Que) : (c.putQue q v).pubReads = c.pubReads := rfl
@[simp] theorem Ctl.putQue_kvRegions (c : Ctl) (q : Nat) (v : Que) : (c.putQue q v).kvRegions = c.kvRegions := rfl
@[simp] theorem Ctl.putQue_kvPages (c : Ctl) (q : Nat) (v : Que) : (c.putQue q v).kvPages = c.kvPages := rfl
@[simp] theorem Ctl.putQue_kvBlocks (c : Ctl) (q : Nat) (v : Que) : (c.putQue q v).kvBlocks = c.kvBlocks := rfl
@[simp] theorem Ctl.putQue_kvNodes (c : Ctl) (q : Nat) (v : Que) : (c.putQue q v).kvNodes = c.kvNodes := rfl
@[simp] theorem Ctl.putQue_colls (c : Ctl) (q : Nat) (v : Que) : (c.putQue q v).colls = c.colls := rfl
@[simp] theorem Ctl.putQue_rsas (c : Ctl) (q : Nat) (v : Que) : (c.putQue q v).rsas = c.rsas := rfl
@[simp] theorem Ctl.putQue_places (c : Ctl) (q : Nat) (v : Que) : (c.putQue q v).places = c.places := rfl
@[simp] theorem Ctl.putQue_tiles (c : Ctl) (q : Nat) (v : Que) : (c.putQue q v).tiles = c.tiles := rfl
@[simp] theorem Ctl.putQue_tileMap (c : Ctl) (q : Nat) (v : Que) : (c.putQue q v).tileMap = c.tileMap := rfl
@[simp] theorem Ctl.putQue_clearing (c : Ctl) (q : Nat) (v : Que) : (c.putQue q v).clearing = c.clearing := rfl
@[simp] theorem Ctl.putQue_bayTests (c : Ctl) (q : Nat) (v : Que) : (c.putQue q v).bayTests = c.bayTests := rfl
@[simp] theorem Ctl.putQue_tally (c : Ctl) (q : Nat) (v : Que) : (c.putQue q v).tally = c.tally := rfl
@[simp] theorem Ctl.putQue_chans (c : Ctl) (q : Nat) (v : Que) : (c.putQue q v).chans = c.chans := rfl
@[simp] theorem Ctl.putQue_engs (c : Ctl) (q : Nat) (v : Que) : (c.putQue q v).engs = c.engs := rfl
@[simp] theorem Ctl.putQue_mbxs (c : Ctl) (q : Nat) (v : Que) : (c.putQue q v).mbxs = c.mbxs := rfl
@[simp] theorem Ctl.putQue_seedAt (c : Ctl) (q : Nat) (v : Que) : (c.putQue q v).seedAt = c.seedAt := rfl
@[simp] theorem Ctl.putQue_units (c : Ctl) (q : Nat) (v : Que) : (c.putQue q v).units = c.units := rfl
@[simp] theorem Ctl.putQue_rechecks (c : Ctl) (q : Nat) (v : Que) : (c.putQue q v).rechecks = c.rechecks := rfl
@[simp] theorem Ctl.putQue_items (c : Ctl) (q : Nat) (v : Que) : (c.putQue q v).items = c.items := rfl
@[simp] theorem Ctl.putQue_err (c : Ctl) (q : Nat) (v : Que) : (c.putQue q v).err = c.err := rfl
@[simp] theorem Ctl.putQue_evseq (c : Ctl) (q : Nat) (v : Que) : (c.putQue q v).evseq = c.evseq := rfl
@[simp] theorem Ctl.putQue_sessions (c : Ctl) (q : Nat) (v : Que) : (c.putQue q v).sessions = c.sessions := rfl
@[simp] theorem Ctl.putQue_setups (c : Ctl) (q : Nat) (v : Que) : (c.putQue q v).setups = c.setups := rfl
@[simp] theorem Ctl.putQue_setupTimes (c : Ctl) (q : Nat) (v : Que) : (c.putQue q v).setupTimes = c.setupTimes := rfl
@[simp] theorem Ctl.putQue_nextSid (c : Ctl) (q : Nat) (v : Que) : (c.putQue q v).nextSid = c.nextSid := rfl
@[simp] theorem Ctl.putQue_flash (c : Ctl) (q : Nat) (v : Que) : (c.putQue q v).flash = c.flash := rfl
@[simp] theorem Ctl.putQue_fuses (c : Ctl) (q : Nat) (v : Que) : (c.putQue q v).fuses = c.fuses := rfl
@[simp] theorem Ctl.putQue_fw (c : Ctl) (q : Nat) (v : Que) : (c.putQue q v).fw = c.fw := rfl
@[simp] theorem Ctl.putQue_net (c : Ctl) (q : Nat) (v : Que) : (c.putQue q v).net = c.net := rfl
@[simp] theorem Ctl.putQue_staging (c : Ctl) (q : Nat) (v : Que) : (c.putQue q v).staging = c.staging := rfl
@[simp] theorem Ctl.putQue_optest (c : Ctl) (q : Nat) (v : Que) : (c.putQue q v).optest = c.optest := rfl
@[simp] theorem Ctl.putQue_reg (c : Ctl) (q : Nat) (v : Que) (a : Nat) : (c.putQue q v).reg a = c.reg a := rfl
@[simp] theorem Ctl.putQue_rd (c : Ctl) (q : Nat) (v : Que) (f : Fld) : (c.putQue q v).rd f = c.rd f := rfl
@[simp] theorem Ctl.que_putQue (c : Ctl) (q : Nat) (v : Que) : (c.putQue q v).que q = v := by simp [Ctl.que, Ctl.putQue]
theorem Ctl.que_putQue_ne (c : Ctl) (q : Nat) (v : Que) (j : Nat) (h : j ≠ q) : (c.putQue q v).que j = c.que j := by
  simp [Ctl.que, Ctl.putQue, Tab.get_set_ne _ _ _ _ _ _ h]
@[simp] theorem Ctl.putRsa_now (c : Ctl) (b : Nat) (v : Rsa) : (c.putRsa b v).now = c.now := rfl
@[simp] theorem Ctl.putRsa_freeCtr (c : Ctl) (b : Nat) (v : Rsa) : (c.putRsa b v).freeCtr = c.freeCtr := rfl
@[simp] theorem Ctl.putRsa_out (c : Ctl) (b : Nat) (v : Rsa) : (c.putRsa b v).out = c.out := rfl
@[simp] theorem Ctl.putRsa_regs (c : Ctl) (b : Nat) (v : Rsa) : (c.putRsa b v).regs = c.regs := rfl
@[simp] theorem Ctl.putRsa_pwr (c : Ctl) (b : Nat) (v : Rsa) : (c.putRsa b v).pwr = c.pwr := rfl
@[simp] theorem Ctl.putRsa_subs (c : Ctl) (b : Nat) (v : Rsa) : (c.putRsa b v).subs = c.subs := rfl
@[simp] theorem Ctl.putRsa_lanes (c : Ctl) (b : Nat) (v : Rsa) : (c.putRsa b v).lanes = c.lanes := rfl
@[simp] theorem Ctl.putRsa_elms (c : Ctl) (b : Nat) (v : Rsa) : (c.putRsa b v).elms = c.elms := rfl
@[simp] theorem Ctl.putRsa_pairs (c : Ctl) (b : Nat) (v : Rsa) : (c.putRsa b v).pairs = c.pairs := rfl
@[simp] theorem Ctl.putRsa_flask (c : Ctl) (b : Nat) (v : Rsa) : (c.putRsa b v).flask = c.flask := rfl
@[simp] theorem Ctl.putRsa_scheds (c : Ctl) (b : Nat) (v : Rsa) : (c.putRsa b v).scheds = c.scheds := rfl
@[simp] theorem Ctl.putRsa_flaskLost (c : Ctl) (b : Nat) (v : Rsa) : (c.putRsa b v).flaskLost = c.flaskLost := rfl
@[simp] theorem Ctl.putRsa_intHeld (c : Ctl) (b : Nat) (v : Rsa) : (c.putRsa b v).intHeld = c.intHeld := rfl
@[simp] theorem Ctl.putRsa_eps (c : Ctl) (b : Nat) (v : Rsa) : (c.putRsa b v).eps = c.eps := rfl
@[simp] theorem Ctl.putRsa_bays (c : Ctl) (b : Nat) (v : Rsa) : (c.putRsa b v).bays = c.bays := rfl
@[simp] theorem Ctl.putRsa_exts (c : Ctl) (b : Nat) (v : Rsa) : (c.putRsa b v).exts = c.exts := rfl
@[simp] theorem Ctl.putRsa_opens (c : Ctl) (b : Nat) (v : Rsa) : (c.putRsa b v).opens = c.opens := rfl
@[simp] theorem Ctl.putRsa_owns (c : Ctl) (b : Nat) (v : Rsa) : (c.putRsa b v).owns = c.owns := rfl
@[simp] theorem Ctl.putRsa_nextId (c : Ctl) (b : Nat) (v : Rsa) : (c.putRsa b v).nextId = c.nextId := rfl
@[simp] theorem Ctl.putRsa_tracker (c : Ctl) (b : Nat) (v : Rsa) : (c.putRsa b v).tracker = c.tracker := rfl
@[simp] theorem Ctl.putRsa_fences (c : Ctl) (b : Nat) (v : Rsa) : (c.putRsa b v).fences = c.fences := rfl
@[simp] theorem Ctl.putRsa_peg (c : Ctl) (b : Nat) (v : Rsa) : (c.putRsa b v).peg = c.peg := rfl
@[simp] theorem Ctl.putRsa_locks (c : Ctl) (b : Nat) (v : Rsa) : (c.putRsa b v).locks = c.locks := rfl
@[simp] theorem Ctl.putRsa_ctrs (c : Ctl) (b : Nat) (v : Rsa) : (c.putRsa b v).ctrs = c.ctrs := rfl
@[simp] theorem Ctl.putRsa_doms (c : Ctl) (b : Nat) (v : Rsa) : (c.putRsa b v).doms = c.doms := rfl
@[simp] theorem Ctl.putRsa_dir (c : Ctl) (b : Nat) (v : Rsa) : (c.putRsa b v).dir = c.dir := rfl
@[simp] theorem Ctl.putRsa_dirQ (c : Ctl) (b : Nat) (v : Rsa) : (c.putRsa b v).dirQ = c.dirQ := rfl
@[simp] theorem Ctl.putRsa_homeDirty (c : Ctl) (b : Nat) (v : Rsa) : (c.putRsa b v).homeDirty = c.homeDirty := rfl
@[simp] theorem Ctl.putRsa_tier (c : Ctl) (b : Nat) (v : Rsa) : (c.putRsa b v).tier = c.tier := rfl
@[simp] theorem Ctl.putRsa_coded (c : Ctl) (b : Nat) (v : Rsa) : (c.putRsa b v).coded = c.coded := rfl
@[simp] theorem Ctl.putRsa_phys (c : Ctl) (b : Nat) (v : Rsa) : (c.putRsa b v).phys = c.phys := rfl
@[simp] theorem Ctl.putRsa_migQ (c : Ctl) (b : Nat) (v : Rsa) : (c.putRsa b v).migQ = c.migQ := rfl
@[simp] theorem Ctl.putRsa_pubReads (c : Ctl) (b : Nat) (v : Rsa) : (c.putRsa b v).pubReads = c.pubReads := rfl
@[simp] theorem Ctl.putRsa_kvRegions (c : Ctl) (b : Nat) (v : Rsa) : (c.putRsa b v).kvRegions = c.kvRegions := rfl
@[simp] theorem Ctl.putRsa_kvPages (c : Ctl) (b : Nat) (v : Rsa) : (c.putRsa b v).kvPages = c.kvPages := rfl
@[simp] theorem Ctl.putRsa_kvBlocks (c : Ctl) (b : Nat) (v : Rsa) : (c.putRsa b v).kvBlocks = c.kvBlocks := rfl
@[simp] theorem Ctl.putRsa_kvNodes (c : Ctl) (b : Nat) (v : Rsa) : (c.putRsa b v).kvNodes = c.kvNodes := rfl
@[simp] theorem Ctl.putRsa_ques (c : Ctl) (b : Nat) (v : Rsa) : (c.putRsa b v).ques = c.ques := rfl
@[simp] theorem Ctl.putRsa_colls (c : Ctl) (b : Nat) (v : Rsa) : (c.putRsa b v).colls = c.colls := rfl
@[simp] theorem Ctl.putRsa_places (c : Ctl) (b : Nat) (v : Rsa) : (c.putRsa b v).places = c.places := rfl
@[simp] theorem Ctl.putRsa_tiles (c : Ctl) (b : Nat) (v : Rsa) : (c.putRsa b v).tiles = c.tiles := rfl
@[simp] theorem Ctl.putRsa_tileMap (c : Ctl) (b : Nat) (v : Rsa) : (c.putRsa b v).tileMap = c.tileMap := rfl
@[simp] theorem Ctl.putRsa_clearing (c : Ctl) (b : Nat) (v : Rsa) : (c.putRsa b v).clearing = c.clearing := rfl
@[simp] theorem Ctl.putRsa_bayTests (c : Ctl) (b : Nat) (v : Rsa) : (c.putRsa b v).bayTests = c.bayTests := rfl
@[simp] theorem Ctl.putRsa_tally (c : Ctl) (b : Nat) (v : Rsa) : (c.putRsa b v).tally = c.tally := rfl
@[simp] theorem Ctl.putRsa_chans (c : Ctl) (b : Nat) (v : Rsa) : (c.putRsa b v).chans = c.chans := rfl
@[simp] theorem Ctl.putRsa_engs (c : Ctl) (b : Nat) (v : Rsa) : (c.putRsa b v).engs = c.engs := rfl
@[simp] theorem Ctl.putRsa_mbxs (c : Ctl) (b : Nat) (v : Rsa) : (c.putRsa b v).mbxs = c.mbxs := rfl
@[simp] theorem Ctl.putRsa_seedAt (c : Ctl) (b : Nat) (v : Rsa) : (c.putRsa b v).seedAt = c.seedAt := rfl
@[simp] theorem Ctl.putRsa_units (c : Ctl) (b : Nat) (v : Rsa) : (c.putRsa b v).units = c.units := rfl
@[simp] theorem Ctl.putRsa_rechecks (c : Ctl) (b : Nat) (v : Rsa) : (c.putRsa b v).rechecks = c.rechecks := rfl
@[simp] theorem Ctl.putRsa_items (c : Ctl) (b : Nat) (v : Rsa) : (c.putRsa b v).items = c.items := rfl
@[simp] theorem Ctl.putRsa_err (c : Ctl) (b : Nat) (v : Rsa) : (c.putRsa b v).err = c.err := rfl
@[simp] theorem Ctl.putRsa_evseq (c : Ctl) (b : Nat) (v : Rsa) : (c.putRsa b v).evseq = c.evseq := rfl
@[simp] theorem Ctl.putRsa_sessions (c : Ctl) (b : Nat) (v : Rsa) : (c.putRsa b v).sessions = c.sessions := rfl
@[simp] theorem Ctl.putRsa_setups (c : Ctl) (b : Nat) (v : Rsa) : (c.putRsa b v).setups = c.setups := rfl
@[simp] theorem Ctl.putRsa_setupTimes (c : Ctl) (b : Nat) (v : Rsa) : (c.putRsa b v).setupTimes = c.setupTimes := rfl
@[simp] theorem Ctl.putRsa_nextSid (c : Ctl) (b : Nat) (v : Rsa) : (c.putRsa b v).nextSid = c.nextSid := rfl
@[simp] theorem Ctl.putRsa_flash (c : Ctl) (b : Nat) (v : Rsa) : (c.putRsa b v).flash = c.flash := rfl
@[simp] theorem Ctl.putRsa_fuses (c : Ctl) (b : Nat) (v : Rsa) : (c.putRsa b v).fuses = c.fuses := rfl
@[simp] theorem Ctl.putRsa_fw (c : Ctl) (b : Nat) (v : Rsa) : (c.putRsa b v).fw = c.fw := rfl
@[simp] theorem Ctl.putRsa_net (c : Ctl) (b : Nat) (v : Rsa) : (c.putRsa b v).net = c.net := rfl
@[simp] theorem Ctl.putRsa_staging (c : Ctl) (b : Nat) (v : Rsa) : (c.putRsa b v).staging = c.staging := rfl
@[simp] theorem Ctl.putRsa_optest (c : Ctl) (b : Nat) (v : Rsa) : (c.putRsa b v).optest = c.optest := rfl
@[simp] theorem Ctl.putRsa_reg (c : Ctl) (b : Nat) (v : Rsa) (a : Nat) : (c.putRsa b v).reg a = c.reg a := rfl
@[simp] theorem Ctl.putRsa_rd (c : Ctl) (b : Nat) (v : Rsa) (f : Fld) : (c.putRsa b v).rd f = c.rd f := rfl
@[simp] theorem Ctl.rsa_putRsa (c : Ctl) (b : Nat) (v : Rsa) : (c.putRsa b v).rsa b = v := by simp [Ctl.rsa, Ctl.putRsa]
theorem Ctl.rsa_putRsa_ne (c : Ctl) (b : Nat) (v : Rsa) (j : Nat) (h : j ≠ b) : (c.putRsa b v).rsa j = c.rsa j := by
  simp [Ctl.rsa, Ctl.putRsa, Tab.get_set_ne _ _ _ _ _ _ h]
@[simp] theorem Ctl.putTile_now (c : Ctl) (t : Nat) (v : Tile) : (c.putTile t v).now = c.now := rfl
@[simp] theorem Ctl.putTile_freeCtr (c : Ctl) (t : Nat) (v : Tile) : (c.putTile t v).freeCtr = c.freeCtr := rfl
@[simp] theorem Ctl.putTile_out (c : Ctl) (t : Nat) (v : Tile) : (c.putTile t v).out = c.out := rfl
@[simp] theorem Ctl.putTile_regs (c : Ctl) (t : Nat) (v : Tile) : (c.putTile t v).regs = c.regs := rfl
@[simp] theorem Ctl.putTile_pwr (c : Ctl) (t : Nat) (v : Tile) : (c.putTile t v).pwr = c.pwr := rfl
@[simp] theorem Ctl.putTile_subs (c : Ctl) (t : Nat) (v : Tile) : (c.putTile t v).subs = c.subs := rfl
@[simp] theorem Ctl.putTile_lanes (c : Ctl) (t : Nat) (v : Tile) : (c.putTile t v).lanes = c.lanes := rfl
@[simp] theorem Ctl.putTile_elms (c : Ctl) (t : Nat) (v : Tile) : (c.putTile t v).elms = c.elms := rfl
@[simp] theorem Ctl.putTile_pairs (c : Ctl) (t : Nat) (v : Tile) : (c.putTile t v).pairs = c.pairs := rfl
@[simp] theorem Ctl.putTile_flask (c : Ctl) (t : Nat) (v : Tile) : (c.putTile t v).flask = c.flask := rfl
@[simp] theorem Ctl.putTile_scheds (c : Ctl) (t : Nat) (v : Tile) : (c.putTile t v).scheds = c.scheds := rfl
@[simp] theorem Ctl.putTile_flaskLost (c : Ctl) (t : Nat) (v : Tile) : (c.putTile t v).flaskLost = c.flaskLost := rfl
@[simp] theorem Ctl.putTile_intHeld (c : Ctl) (t : Nat) (v : Tile) : (c.putTile t v).intHeld = c.intHeld := rfl
@[simp] theorem Ctl.putTile_eps (c : Ctl) (t : Nat) (v : Tile) : (c.putTile t v).eps = c.eps := rfl
@[simp] theorem Ctl.putTile_bays (c : Ctl) (t : Nat) (v : Tile) : (c.putTile t v).bays = c.bays := rfl
@[simp] theorem Ctl.putTile_exts (c : Ctl) (t : Nat) (v : Tile) : (c.putTile t v).exts = c.exts := rfl
@[simp] theorem Ctl.putTile_opens (c : Ctl) (t : Nat) (v : Tile) : (c.putTile t v).opens = c.opens := rfl
@[simp] theorem Ctl.putTile_owns (c : Ctl) (t : Nat) (v : Tile) : (c.putTile t v).owns = c.owns := rfl
@[simp] theorem Ctl.putTile_nextId (c : Ctl) (t : Nat) (v : Tile) : (c.putTile t v).nextId = c.nextId := rfl
@[simp] theorem Ctl.putTile_tracker (c : Ctl) (t : Nat) (v : Tile) : (c.putTile t v).tracker = c.tracker := rfl
@[simp] theorem Ctl.putTile_fences (c : Ctl) (t : Nat) (v : Tile) : (c.putTile t v).fences = c.fences := rfl
@[simp] theorem Ctl.putTile_peg (c : Ctl) (t : Nat) (v : Tile) : (c.putTile t v).peg = c.peg := rfl
@[simp] theorem Ctl.putTile_locks (c : Ctl) (t : Nat) (v : Tile) : (c.putTile t v).locks = c.locks := rfl
@[simp] theorem Ctl.putTile_ctrs (c : Ctl) (t : Nat) (v : Tile) : (c.putTile t v).ctrs = c.ctrs := rfl
@[simp] theorem Ctl.putTile_doms (c : Ctl) (t : Nat) (v : Tile) : (c.putTile t v).doms = c.doms := rfl
@[simp] theorem Ctl.putTile_dir (c : Ctl) (t : Nat) (v : Tile) : (c.putTile t v).dir = c.dir := rfl
@[simp] theorem Ctl.putTile_dirQ (c : Ctl) (t : Nat) (v : Tile) : (c.putTile t v).dirQ = c.dirQ := rfl
@[simp] theorem Ctl.putTile_homeDirty (c : Ctl) (t : Nat) (v : Tile) : (c.putTile t v).homeDirty = c.homeDirty := rfl
@[simp] theorem Ctl.putTile_tier (c : Ctl) (t : Nat) (v : Tile) : (c.putTile t v).tier = c.tier := rfl
@[simp] theorem Ctl.putTile_coded (c : Ctl) (t : Nat) (v : Tile) : (c.putTile t v).coded = c.coded := rfl
@[simp] theorem Ctl.putTile_phys (c : Ctl) (t : Nat) (v : Tile) : (c.putTile t v).phys = c.phys := rfl
@[simp] theorem Ctl.putTile_migQ (c : Ctl) (t : Nat) (v : Tile) : (c.putTile t v).migQ = c.migQ := rfl
@[simp] theorem Ctl.putTile_pubReads (c : Ctl) (t : Nat) (v : Tile) : (c.putTile t v).pubReads = c.pubReads := rfl
@[simp] theorem Ctl.putTile_kvRegions (c : Ctl) (t : Nat) (v : Tile) : (c.putTile t v).kvRegions = c.kvRegions := rfl
@[simp] theorem Ctl.putTile_kvPages (c : Ctl) (t : Nat) (v : Tile) : (c.putTile t v).kvPages = c.kvPages := rfl
@[simp] theorem Ctl.putTile_kvBlocks (c : Ctl) (t : Nat) (v : Tile) : (c.putTile t v).kvBlocks = c.kvBlocks := rfl
@[simp] theorem Ctl.putTile_kvNodes (c : Ctl) (t : Nat) (v : Tile) : (c.putTile t v).kvNodes = c.kvNodes := rfl
@[simp] theorem Ctl.putTile_ques (c : Ctl) (t : Nat) (v : Tile) : (c.putTile t v).ques = c.ques := rfl
@[simp] theorem Ctl.putTile_colls (c : Ctl) (t : Nat) (v : Tile) : (c.putTile t v).colls = c.colls := rfl
@[simp] theorem Ctl.putTile_rsas (c : Ctl) (t : Nat) (v : Tile) : (c.putTile t v).rsas = c.rsas := rfl
@[simp] theorem Ctl.putTile_places (c : Ctl) (t : Nat) (v : Tile) : (c.putTile t v).places = c.places := rfl
@[simp] theorem Ctl.putTile_tileMap (c : Ctl) (t : Nat) (v : Tile) : (c.putTile t v).tileMap = c.tileMap := rfl
@[simp] theorem Ctl.putTile_clearing (c : Ctl) (t : Nat) (v : Tile) : (c.putTile t v).clearing = c.clearing := rfl
@[simp] theorem Ctl.putTile_bayTests (c : Ctl) (t : Nat) (v : Tile) : (c.putTile t v).bayTests = c.bayTests := rfl
@[simp] theorem Ctl.putTile_tally (c : Ctl) (t : Nat) (v : Tile) : (c.putTile t v).tally = c.tally := rfl
@[simp] theorem Ctl.putTile_chans (c : Ctl) (t : Nat) (v : Tile) : (c.putTile t v).chans = c.chans := rfl
@[simp] theorem Ctl.putTile_engs (c : Ctl) (t : Nat) (v : Tile) : (c.putTile t v).engs = c.engs := rfl
@[simp] theorem Ctl.putTile_mbxs (c : Ctl) (t : Nat) (v : Tile) : (c.putTile t v).mbxs = c.mbxs := rfl
@[simp] theorem Ctl.putTile_seedAt (c : Ctl) (t : Nat) (v : Tile) : (c.putTile t v).seedAt = c.seedAt := rfl
@[simp] theorem Ctl.putTile_units (c : Ctl) (t : Nat) (v : Tile) : (c.putTile t v).units = c.units := rfl
@[simp] theorem Ctl.putTile_rechecks (c : Ctl) (t : Nat) (v : Tile) : (c.putTile t v).rechecks = c.rechecks := rfl
@[simp] theorem Ctl.putTile_items (c : Ctl) (t : Nat) (v : Tile) : (c.putTile t v).items = c.items := rfl
@[simp] theorem Ctl.putTile_err (c : Ctl) (t : Nat) (v : Tile) : (c.putTile t v).err = c.err := rfl
@[simp] theorem Ctl.putTile_evseq (c : Ctl) (t : Nat) (v : Tile) : (c.putTile t v).evseq = c.evseq := rfl
@[simp] theorem Ctl.putTile_sessions (c : Ctl) (t : Nat) (v : Tile) : (c.putTile t v).sessions = c.sessions := rfl
@[simp] theorem Ctl.putTile_setups (c : Ctl) (t : Nat) (v : Tile) : (c.putTile t v).setups = c.setups := rfl
@[simp] theorem Ctl.putTile_setupTimes (c : Ctl) (t : Nat) (v : Tile) : (c.putTile t v).setupTimes = c.setupTimes := rfl
@[simp] theorem Ctl.putTile_nextSid (c : Ctl) (t : Nat) (v : Tile) : (c.putTile t v).nextSid = c.nextSid := rfl
@[simp] theorem Ctl.putTile_flash (c : Ctl) (t : Nat) (v : Tile) : (c.putTile t v).flash = c.flash := rfl
@[simp] theorem Ctl.putTile_fuses (c : Ctl) (t : Nat) (v : Tile) : (c.putTile t v).fuses = c.fuses := rfl
@[simp] theorem Ctl.putTile_fw (c : Ctl) (t : Nat) (v : Tile) : (c.putTile t v).fw = c.fw := rfl
@[simp] theorem Ctl.putTile_net (c : Ctl) (t : Nat) (v : Tile) : (c.putTile t v).net = c.net := rfl
@[simp] theorem Ctl.putTile_staging (c : Ctl) (t : Nat) (v : Tile) : (c.putTile t v).staging = c.staging := rfl
@[simp] theorem Ctl.putTile_optest (c : Ctl) (t : Nat) (v : Tile) : (c.putTile t v).optest = c.optest := rfl
@[simp] theorem Ctl.putTile_reg (c : Ctl) (t : Nat) (v : Tile) (a : Nat) : (c.putTile t v).reg a = c.reg a := rfl
@[simp] theorem Ctl.putTile_rd (c : Ctl) (t : Nat) (v : Tile) (f : Fld) : (c.putTile t v).rd f = c.rd f := rfl
@[simp] theorem Ctl.tile_putTile (c : Ctl) (t : Nat) (v : Tile) : (c.putTile t v).tile t = v := by simp [Ctl.tile, Ctl.putTile]
theorem Ctl.tile_putTile_ne (c : Ctl) (t : Nat) (v : Tile) (j : Nat) (h : j ≠ t) : (c.putTile t v).tile j = c.tile j := by
  simp [Ctl.tile, Ctl.putTile, Tab.get_set_ne _ _ _ _ _ _ h]
@[simp] theorem Ctl.putChan_now (c : Ctl) (k : Nat) (v : Chan) : (c.putChan k v).now = c.now := rfl
@[simp] theorem Ctl.putChan_freeCtr (c : Ctl) (k : Nat) (v : Chan) : (c.putChan k v).freeCtr = c.freeCtr := rfl
@[simp] theorem Ctl.putChan_out (c : Ctl) (k : Nat) (v : Chan) : (c.putChan k v).out = c.out := rfl
@[simp] theorem Ctl.putChan_regs (c : Ctl) (k : Nat) (v : Chan) : (c.putChan k v).regs = c.regs := rfl
@[simp] theorem Ctl.putChan_pwr (c : Ctl) (k : Nat) (v : Chan) : (c.putChan k v).pwr = c.pwr := rfl
@[simp] theorem Ctl.putChan_subs (c : Ctl) (k : Nat) (v : Chan) : (c.putChan k v).subs = c.subs := rfl
@[simp] theorem Ctl.putChan_lanes (c : Ctl) (k : Nat) (v : Chan) : (c.putChan k v).lanes = c.lanes := rfl
@[simp] theorem Ctl.putChan_elms (c : Ctl) (k : Nat) (v : Chan) : (c.putChan k v).elms = c.elms := rfl
@[simp] theorem Ctl.putChan_pairs (c : Ctl) (k : Nat) (v : Chan) : (c.putChan k v).pairs = c.pairs := rfl
@[simp] theorem Ctl.putChan_flask (c : Ctl) (k : Nat) (v : Chan) : (c.putChan k v).flask = c.flask := rfl
@[simp] theorem Ctl.putChan_scheds (c : Ctl) (k : Nat) (v : Chan) : (c.putChan k v).scheds = c.scheds := rfl
@[simp] theorem Ctl.putChan_flaskLost (c : Ctl) (k : Nat) (v : Chan) : (c.putChan k v).flaskLost = c.flaskLost := rfl
@[simp] theorem Ctl.putChan_intHeld (c : Ctl) (k : Nat) (v : Chan) : (c.putChan k v).intHeld = c.intHeld := rfl
@[simp] theorem Ctl.putChan_eps (c : Ctl) (k : Nat) (v : Chan) : (c.putChan k v).eps = c.eps := rfl
@[simp] theorem Ctl.putChan_bays (c : Ctl) (k : Nat) (v : Chan) : (c.putChan k v).bays = c.bays := rfl
@[simp] theorem Ctl.putChan_exts (c : Ctl) (k : Nat) (v : Chan) : (c.putChan k v).exts = c.exts := rfl
@[simp] theorem Ctl.putChan_opens (c : Ctl) (k : Nat) (v : Chan) : (c.putChan k v).opens = c.opens := rfl
@[simp] theorem Ctl.putChan_owns (c : Ctl) (k : Nat) (v : Chan) : (c.putChan k v).owns = c.owns := rfl
@[simp] theorem Ctl.putChan_nextId (c : Ctl) (k : Nat) (v : Chan) : (c.putChan k v).nextId = c.nextId := rfl
@[simp] theorem Ctl.putChan_tracker (c : Ctl) (k : Nat) (v : Chan) : (c.putChan k v).tracker = c.tracker := rfl
@[simp] theorem Ctl.putChan_fences (c : Ctl) (k : Nat) (v : Chan) : (c.putChan k v).fences = c.fences := rfl
@[simp] theorem Ctl.putChan_peg (c : Ctl) (k : Nat) (v : Chan) : (c.putChan k v).peg = c.peg := rfl
@[simp] theorem Ctl.putChan_locks (c : Ctl) (k : Nat) (v : Chan) : (c.putChan k v).locks = c.locks := rfl
@[simp] theorem Ctl.putChan_ctrs (c : Ctl) (k : Nat) (v : Chan) : (c.putChan k v).ctrs = c.ctrs := rfl
@[simp] theorem Ctl.putChan_doms (c : Ctl) (k : Nat) (v : Chan) : (c.putChan k v).doms = c.doms := rfl
@[simp] theorem Ctl.putChan_dir (c : Ctl) (k : Nat) (v : Chan) : (c.putChan k v).dir = c.dir := rfl
@[simp] theorem Ctl.putChan_dirQ (c : Ctl) (k : Nat) (v : Chan) : (c.putChan k v).dirQ = c.dirQ := rfl
@[simp] theorem Ctl.putChan_homeDirty (c : Ctl) (k : Nat) (v : Chan) : (c.putChan k v).homeDirty = c.homeDirty := rfl
@[simp] theorem Ctl.putChan_tier (c : Ctl) (k : Nat) (v : Chan) : (c.putChan k v).tier = c.tier := rfl
@[simp] theorem Ctl.putChan_coded (c : Ctl) (k : Nat) (v : Chan) : (c.putChan k v).coded = c.coded := rfl
@[simp] theorem Ctl.putChan_phys (c : Ctl) (k : Nat) (v : Chan) : (c.putChan k v).phys = c.phys := rfl
@[simp] theorem Ctl.putChan_migQ (c : Ctl) (k : Nat) (v : Chan) : (c.putChan k v).migQ = c.migQ := rfl
@[simp] theorem Ctl.putChan_pubReads (c : Ctl) (k : Nat) (v : Chan) : (c.putChan k v).pubReads = c.pubReads := rfl
@[simp] theorem Ctl.putChan_kvRegions (c : Ctl) (k : Nat) (v : Chan) : (c.putChan k v).kvRegions = c.kvRegions := rfl
@[simp] theorem Ctl.putChan_kvPages (c : Ctl) (k : Nat) (v : Chan) : (c.putChan k v).kvPages = c.kvPages := rfl
@[simp] theorem Ctl.putChan_kvBlocks (c : Ctl) (k : Nat) (v : Chan) : (c.putChan k v).kvBlocks = c.kvBlocks := rfl
@[simp] theorem Ctl.putChan_kvNodes (c : Ctl) (k : Nat) (v : Chan) : (c.putChan k v).kvNodes = c.kvNodes := rfl
@[simp] theorem Ctl.putChan_ques (c : Ctl) (k : Nat) (v : Chan) : (c.putChan k v).ques = c.ques := rfl
@[simp] theorem Ctl.putChan_colls (c : Ctl) (k : Nat) (v : Chan) : (c.putChan k v).colls = c.colls := rfl
@[simp] theorem Ctl.putChan_rsas (c : Ctl) (k : Nat) (v : Chan) : (c.putChan k v).rsas = c.rsas := rfl
@[simp] theorem Ctl.putChan_places (c : Ctl) (k : Nat) (v : Chan) : (c.putChan k v).places = c.places := rfl
@[simp] theorem Ctl.putChan_tiles (c : Ctl) (k : Nat) (v : Chan) : (c.putChan k v).tiles = c.tiles := rfl
@[simp] theorem Ctl.putChan_tileMap (c : Ctl) (k : Nat) (v : Chan) : (c.putChan k v).tileMap = c.tileMap := rfl
@[simp] theorem Ctl.putChan_clearing (c : Ctl) (k : Nat) (v : Chan) : (c.putChan k v).clearing = c.clearing := rfl
@[simp] theorem Ctl.putChan_bayTests (c : Ctl) (k : Nat) (v : Chan) : (c.putChan k v).bayTests = c.bayTests := rfl
@[simp] theorem Ctl.putChan_tally (c : Ctl) (k : Nat) (v : Chan) : (c.putChan k v).tally = c.tally := rfl
@[simp] theorem Ctl.putChan_engs (c : Ctl) (k : Nat) (v : Chan) : (c.putChan k v).engs = c.engs := rfl
@[simp] theorem Ctl.putChan_mbxs (c : Ctl) (k : Nat) (v : Chan) : (c.putChan k v).mbxs = c.mbxs := rfl
@[simp] theorem Ctl.putChan_seedAt (c : Ctl) (k : Nat) (v : Chan) : (c.putChan k v).seedAt = c.seedAt := rfl
@[simp] theorem Ctl.putChan_units (c : Ctl) (k : Nat) (v : Chan) : (c.putChan k v).units = c.units := rfl
@[simp] theorem Ctl.putChan_rechecks (c : Ctl) (k : Nat) (v : Chan) : (c.putChan k v).rechecks = c.rechecks := rfl
@[simp] theorem Ctl.putChan_items (c : Ctl) (k : Nat) (v : Chan) : (c.putChan k v).items = c.items := rfl
@[simp] theorem Ctl.putChan_err (c : Ctl) (k : Nat) (v : Chan) : (c.putChan k v).err = c.err := rfl
@[simp] theorem Ctl.putChan_evseq (c : Ctl) (k : Nat) (v : Chan) : (c.putChan k v).evseq = c.evseq := rfl
@[simp] theorem Ctl.putChan_sessions (c : Ctl) (k : Nat) (v : Chan) : (c.putChan k v).sessions = c.sessions := rfl
@[simp] theorem Ctl.putChan_setups (c : Ctl) (k : Nat) (v : Chan) : (c.putChan k v).setups = c.setups := rfl
@[simp] theorem Ctl.putChan_setupTimes (c : Ctl) (k : Nat) (v : Chan) : (c.putChan k v).setupTimes = c.setupTimes := rfl
@[simp] theorem Ctl.putChan_nextSid (c : Ctl) (k : Nat) (v : Chan) : (c.putChan k v).nextSid = c.nextSid := rfl
@[simp] theorem Ctl.putChan_flash (c : Ctl) (k : Nat) (v : Chan) : (c.putChan k v).flash = c.flash := rfl
@[simp] theorem Ctl.putChan_fuses (c : Ctl) (k : Nat) (v : Chan) : (c.putChan k v).fuses = c.fuses := rfl
@[simp] theorem Ctl.putChan_fw (c : Ctl) (k : Nat) (v : Chan) : (c.putChan k v).fw = c.fw := rfl
@[simp] theorem Ctl.putChan_net (c : Ctl) (k : Nat) (v : Chan) : (c.putChan k v).net = c.net := rfl
@[simp] theorem Ctl.putChan_staging (c : Ctl) (k : Nat) (v : Chan) : (c.putChan k v).staging = c.staging := rfl
@[simp] theorem Ctl.putChan_optest (c : Ctl) (k : Nat) (v : Chan) : (c.putChan k v).optest = c.optest := rfl
@[simp] theorem Ctl.putChan_reg (c : Ctl) (k : Nat) (v : Chan) (a : Nat) : (c.putChan k v).reg a = c.reg a := rfl
@[simp] theorem Ctl.putChan_rd (c : Ctl) (k : Nat) (v : Chan) (f : Fld) : (c.putChan k v).rd f = c.rd f := rfl
@[simp] theorem Ctl.chan_putChan (c : Ctl) (k : Nat) (v : Chan) : (c.putChan k v).chan k = v := by simp [Ctl.chan, Ctl.putChan]
theorem Ctl.chan_putChan_ne (c : Ctl) (k : Nat) (v : Chan) (j : Nat) (h : j ≠ k) : (c.putChan k v).chan j = c.chan j := by
  simp [Ctl.chan, Ctl.putChan, Tab.get_set_ne _ _ _ _ _ _ h]
@[simp] theorem Ctl.putEng_now (c : Ctl) (e : Nat) (v : LdlEng) : (c.putEng e v).now = c.now := rfl
@[simp] theorem Ctl.putEng_freeCtr (c : Ctl) (e : Nat) (v : LdlEng) : (c.putEng e v).freeCtr = c.freeCtr := rfl
@[simp] theorem Ctl.putEng_out (c : Ctl) (e : Nat) (v : LdlEng) : (c.putEng e v).out = c.out := rfl
@[simp] theorem Ctl.putEng_regs (c : Ctl) (e : Nat) (v : LdlEng) : (c.putEng e v).regs = c.regs := rfl
@[simp] theorem Ctl.putEng_pwr (c : Ctl) (e : Nat) (v : LdlEng) : (c.putEng e v).pwr = c.pwr := rfl
@[simp] theorem Ctl.putEng_subs (c : Ctl) (e : Nat) (v : LdlEng) : (c.putEng e v).subs = c.subs := rfl
@[simp] theorem Ctl.putEng_lanes (c : Ctl) (e : Nat) (v : LdlEng) : (c.putEng e v).lanes = c.lanes := rfl
@[simp] theorem Ctl.putEng_elms (c : Ctl) (e : Nat) (v : LdlEng) : (c.putEng e v).elms = c.elms := rfl
@[simp] theorem Ctl.putEng_pairs (c : Ctl) (e : Nat) (v : LdlEng) : (c.putEng e v).pairs = c.pairs := rfl
@[simp] theorem Ctl.putEng_flask (c : Ctl) (e : Nat) (v : LdlEng) : (c.putEng e v).flask = c.flask := rfl
@[simp] theorem Ctl.putEng_scheds (c : Ctl) (e : Nat) (v : LdlEng) : (c.putEng e v).scheds = c.scheds := rfl
@[simp] theorem Ctl.putEng_flaskLost (c : Ctl) (e : Nat) (v : LdlEng) : (c.putEng e v).flaskLost = c.flaskLost := rfl
@[simp] theorem Ctl.putEng_intHeld (c : Ctl) (e : Nat) (v : LdlEng) : (c.putEng e v).intHeld = c.intHeld := rfl
@[simp] theorem Ctl.putEng_eps (c : Ctl) (e : Nat) (v : LdlEng) : (c.putEng e v).eps = c.eps := rfl
@[simp] theorem Ctl.putEng_bays (c : Ctl) (e : Nat) (v : LdlEng) : (c.putEng e v).bays = c.bays := rfl
@[simp] theorem Ctl.putEng_exts (c : Ctl) (e : Nat) (v : LdlEng) : (c.putEng e v).exts = c.exts := rfl
@[simp] theorem Ctl.putEng_opens (c : Ctl) (e : Nat) (v : LdlEng) : (c.putEng e v).opens = c.opens := rfl
@[simp] theorem Ctl.putEng_owns (c : Ctl) (e : Nat) (v : LdlEng) : (c.putEng e v).owns = c.owns := rfl
@[simp] theorem Ctl.putEng_nextId (c : Ctl) (e : Nat) (v : LdlEng) : (c.putEng e v).nextId = c.nextId := rfl
@[simp] theorem Ctl.putEng_tracker (c : Ctl) (e : Nat) (v : LdlEng) : (c.putEng e v).tracker = c.tracker := rfl
@[simp] theorem Ctl.putEng_fences (c : Ctl) (e : Nat) (v : LdlEng) : (c.putEng e v).fences = c.fences := rfl
@[simp] theorem Ctl.putEng_peg (c : Ctl) (e : Nat) (v : LdlEng) : (c.putEng e v).peg = c.peg := rfl
@[simp] theorem Ctl.putEng_locks (c : Ctl) (e : Nat) (v : LdlEng) : (c.putEng e v).locks = c.locks := rfl
@[simp] theorem Ctl.putEng_ctrs (c : Ctl) (e : Nat) (v : LdlEng) : (c.putEng e v).ctrs = c.ctrs := rfl
@[simp] theorem Ctl.putEng_doms (c : Ctl) (e : Nat) (v : LdlEng) : (c.putEng e v).doms = c.doms := rfl
@[simp] theorem Ctl.putEng_dir (c : Ctl) (e : Nat) (v : LdlEng) : (c.putEng e v).dir = c.dir := rfl
@[simp] theorem Ctl.putEng_dirQ (c : Ctl) (e : Nat) (v : LdlEng) : (c.putEng e v).dirQ = c.dirQ := rfl
@[simp] theorem Ctl.putEng_homeDirty (c : Ctl) (e : Nat) (v : LdlEng) : (c.putEng e v).homeDirty = c.homeDirty := rfl
@[simp] theorem Ctl.putEng_tier (c : Ctl) (e : Nat) (v : LdlEng) : (c.putEng e v).tier = c.tier := rfl
@[simp] theorem Ctl.putEng_coded (c : Ctl) (e : Nat) (v : LdlEng) : (c.putEng e v).coded = c.coded := rfl
@[simp] theorem Ctl.putEng_phys (c : Ctl) (e : Nat) (v : LdlEng) : (c.putEng e v).phys = c.phys := rfl
@[simp] theorem Ctl.putEng_migQ (c : Ctl) (e : Nat) (v : LdlEng) : (c.putEng e v).migQ = c.migQ := rfl
@[simp] theorem Ctl.putEng_pubReads (c : Ctl) (e : Nat) (v : LdlEng) : (c.putEng e v).pubReads = c.pubReads := rfl
@[simp] theorem Ctl.putEng_kvRegions (c : Ctl) (e : Nat) (v : LdlEng) : (c.putEng e v).kvRegions = c.kvRegions := rfl
@[simp] theorem Ctl.putEng_kvPages (c : Ctl) (e : Nat) (v : LdlEng) : (c.putEng e v).kvPages = c.kvPages := rfl
@[simp] theorem Ctl.putEng_kvBlocks (c : Ctl) (e : Nat) (v : LdlEng) : (c.putEng e v).kvBlocks = c.kvBlocks := rfl
@[simp] theorem Ctl.putEng_kvNodes (c : Ctl) (e : Nat) (v : LdlEng) : (c.putEng e v).kvNodes = c.kvNodes := rfl
@[simp] theorem Ctl.putEng_ques (c : Ctl) (e : Nat) (v : LdlEng) : (c.putEng e v).ques = c.ques := rfl
@[simp] theorem Ctl.putEng_colls (c : Ctl) (e : Nat) (v : LdlEng) : (c.putEng e v).colls = c.colls := rfl
@[simp] theorem Ctl.putEng_rsas (c : Ctl) (e : Nat) (v : LdlEng) : (c.putEng e v).rsas = c.rsas := rfl
@[simp] theorem Ctl.putEng_places (c : Ctl) (e : Nat) (v : LdlEng) : (c.putEng e v).places = c.places := rfl
@[simp] theorem Ctl.putEng_tiles (c : Ctl) (e : Nat) (v : LdlEng) : (c.putEng e v).tiles = c.tiles := rfl
@[simp] theorem Ctl.putEng_tileMap (c : Ctl) (e : Nat) (v : LdlEng) : (c.putEng e v).tileMap = c.tileMap := rfl
@[simp] theorem Ctl.putEng_clearing (c : Ctl) (e : Nat) (v : LdlEng) : (c.putEng e v).clearing = c.clearing := rfl
@[simp] theorem Ctl.putEng_bayTests (c : Ctl) (e : Nat) (v : LdlEng) : (c.putEng e v).bayTests = c.bayTests := rfl
@[simp] theorem Ctl.putEng_tally (c : Ctl) (e : Nat) (v : LdlEng) : (c.putEng e v).tally = c.tally := rfl
@[simp] theorem Ctl.putEng_chans (c : Ctl) (e : Nat) (v : LdlEng) : (c.putEng e v).chans = c.chans := rfl
@[simp] theorem Ctl.putEng_mbxs (c : Ctl) (e : Nat) (v : LdlEng) : (c.putEng e v).mbxs = c.mbxs := rfl
@[simp] theorem Ctl.putEng_seedAt (c : Ctl) (e : Nat) (v : LdlEng) : (c.putEng e v).seedAt = c.seedAt := rfl
@[simp] theorem Ctl.putEng_units (c : Ctl) (e : Nat) (v : LdlEng) : (c.putEng e v).units = c.units := rfl
@[simp] theorem Ctl.putEng_rechecks (c : Ctl) (e : Nat) (v : LdlEng) : (c.putEng e v).rechecks = c.rechecks := rfl
@[simp] theorem Ctl.putEng_items (c : Ctl) (e : Nat) (v : LdlEng) : (c.putEng e v).items = c.items := rfl
@[simp] theorem Ctl.putEng_err (c : Ctl) (e : Nat) (v : LdlEng) : (c.putEng e v).err = c.err := rfl
@[simp] theorem Ctl.putEng_evseq (c : Ctl) (e : Nat) (v : LdlEng) : (c.putEng e v).evseq = c.evseq := rfl
@[simp] theorem Ctl.putEng_sessions (c : Ctl) (e : Nat) (v : LdlEng) : (c.putEng e v).sessions = c.sessions := rfl
@[simp] theorem Ctl.putEng_setups (c : Ctl) (e : Nat) (v : LdlEng) : (c.putEng e v).setups = c.setups := rfl
@[simp] theorem Ctl.putEng_setupTimes (c : Ctl) (e : Nat) (v : LdlEng) : (c.putEng e v).setupTimes = c.setupTimes := rfl
@[simp] theorem Ctl.putEng_nextSid (c : Ctl) (e : Nat) (v : LdlEng) : (c.putEng e v).nextSid = c.nextSid := rfl
@[simp] theorem Ctl.putEng_flash (c : Ctl) (e : Nat) (v : LdlEng) : (c.putEng e v).flash = c.flash := rfl
@[simp] theorem Ctl.putEng_fuses (c : Ctl) (e : Nat) (v : LdlEng) : (c.putEng e v).fuses = c.fuses := rfl
@[simp] theorem Ctl.putEng_fw (c : Ctl) (e : Nat) (v : LdlEng) : (c.putEng e v).fw = c.fw := rfl
@[simp] theorem Ctl.putEng_net (c : Ctl) (e : Nat) (v : LdlEng) : (c.putEng e v).net = c.net := rfl
@[simp] theorem Ctl.putEng_staging (c : Ctl) (e : Nat) (v : LdlEng) : (c.putEng e v).staging = c.staging := rfl
@[simp] theorem Ctl.putEng_optest (c : Ctl) (e : Nat) (v : LdlEng) : (c.putEng e v).optest = c.optest := rfl
@[simp] theorem Ctl.putEng_reg (c : Ctl) (e : Nat) (v : LdlEng) (a : Nat) : (c.putEng e v).reg a = c.reg a := rfl
@[simp] theorem Ctl.putEng_rd (c : Ctl) (e : Nat) (v : LdlEng) (f : Fld) : (c.putEng e v).rd f = c.rd f := rfl
@[simp] theorem Ctl.eng_putEng (c : Ctl) (e : Nat) (v : LdlEng) : (c.putEng e v).eng e = v := by simp [Ctl.eng, Ctl.putEng]
theorem Ctl.eng_putEng_ne (c : Ctl) (e : Nat) (v : LdlEng) (j : Nat) (h : j ≠ e) : (c.putEng e v).eng j = c.eng j := by
  simp [Ctl.eng, Ctl.putEng, Tab.get_set_ne _ _ _ _ _ _ h]
@[simp] theorem Ctl.putMbx_now (c : Ctl) (e : Nat) (v : Mbx) : (c.putMbx e v).now = c.now := rfl
@[simp] theorem Ctl.putMbx_freeCtr (c : Ctl) (e : Nat) (v : Mbx) : (c.putMbx e v).freeCtr = c.freeCtr := rfl
@[simp] theorem Ctl.putMbx_out (c : Ctl) (e : Nat) (v : Mbx) : (c.putMbx e v).out = c.out := rfl
@[simp] theorem Ctl.putMbx_regs (c : Ctl) (e : Nat) (v : Mbx) : (c.putMbx e v).regs = c.regs := rfl
@[simp] theorem Ctl.putMbx_pwr (c : Ctl) (e : Nat) (v : Mbx) : (c.putMbx e v).pwr = c.pwr := rfl
@[simp] theorem Ctl.putMbx_subs (c : Ctl) (e : Nat) (v : Mbx) : (c.putMbx e v).subs = c.subs := rfl
@[simp] theorem Ctl.putMbx_lanes (c : Ctl) (e : Nat) (v : Mbx) : (c.putMbx e v).lanes = c.lanes := rfl
@[simp] theorem Ctl.putMbx_elms (c : Ctl) (e : Nat) (v : Mbx) : (c.putMbx e v).elms = c.elms := rfl
@[simp] theorem Ctl.putMbx_pairs (c : Ctl) (e : Nat) (v : Mbx) : (c.putMbx e v).pairs = c.pairs := rfl
@[simp] theorem Ctl.putMbx_flask (c : Ctl) (e : Nat) (v : Mbx) : (c.putMbx e v).flask = c.flask := rfl
@[simp] theorem Ctl.putMbx_scheds (c : Ctl) (e : Nat) (v : Mbx) : (c.putMbx e v).scheds = c.scheds := rfl
@[simp] theorem Ctl.putMbx_flaskLost (c : Ctl) (e : Nat) (v : Mbx) : (c.putMbx e v).flaskLost = c.flaskLost := rfl
@[simp] theorem Ctl.putMbx_intHeld (c : Ctl) (e : Nat) (v : Mbx) : (c.putMbx e v).intHeld = c.intHeld := rfl
@[simp] theorem Ctl.putMbx_eps (c : Ctl) (e : Nat) (v : Mbx) : (c.putMbx e v).eps = c.eps := rfl
@[simp] theorem Ctl.putMbx_bays (c : Ctl) (e : Nat) (v : Mbx) : (c.putMbx e v).bays = c.bays := rfl
@[simp] theorem Ctl.putMbx_exts (c : Ctl) (e : Nat) (v : Mbx) : (c.putMbx e v).exts = c.exts := rfl
@[simp] theorem Ctl.putMbx_opens (c : Ctl) (e : Nat) (v : Mbx) : (c.putMbx e v).opens = c.opens := rfl
@[simp] theorem Ctl.putMbx_owns (c : Ctl) (e : Nat) (v : Mbx) : (c.putMbx e v).owns = c.owns := rfl
@[simp] theorem Ctl.putMbx_nextId (c : Ctl) (e : Nat) (v : Mbx) : (c.putMbx e v).nextId = c.nextId := rfl
@[simp] theorem Ctl.putMbx_tracker (c : Ctl) (e : Nat) (v : Mbx) : (c.putMbx e v).tracker = c.tracker := rfl
@[simp] theorem Ctl.putMbx_fences (c : Ctl) (e : Nat) (v : Mbx) : (c.putMbx e v).fences = c.fences := rfl
@[simp] theorem Ctl.putMbx_peg (c : Ctl) (e : Nat) (v : Mbx) : (c.putMbx e v).peg = c.peg := rfl
@[simp] theorem Ctl.putMbx_locks (c : Ctl) (e : Nat) (v : Mbx) : (c.putMbx e v).locks = c.locks := rfl
@[simp] theorem Ctl.putMbx_ctrs (c : Ctl) (e : Nat) (v : Mbx) : (c.putMbx e v).ctrs = c.ctrs := rfl
@[simp] theorem Ctl.putMbx_doms (c : Ctl) (e : Nat) (v : Mbx) : (c.putMbx e v).doms = c.doms := rfl
@[simp] theorem Ctl.putMbx_dir (c : Ctl) (e : Nat) (v : Mbx) : (c.putMbx e v).dir = c.dir := rfl
@[simp] theorem Ctl.putMbx_dirQ (c : Ctl) (e : Nat) (v : Mbx) : (c.putMbx e v).dirQ = c.dirQ := rfl
@[simp] theorem Ctl.putMbx_homeDirty (c : Ctl) (e : Nat) (v : Mbx) : (c.putMbx e v).homeDirty = c.homeDirty := rfl
@[simp] theorem Ctl.putMbx_tier (c : Ctl) (e : Nat) (v : Mbx) : (c.putMbx e v).tier = c.tier := rfl
@[simp] theorem Ctl.putMbx_coded (c : Ctl) (e : Nat) (v : Mbx) : (c.putMbx e v).coded = c.coded := rfl
@[simp] theorem Ctl.putMbx_phys (c : Ctl) (e : Nat) (v : Mbx) : (c.putMbx e v).phys = c.phys := rfl
@[simp] theorem Ctl.putMbx_migQ (c : Ctl) (e : Nat) (v : Mbx) : (c.putMbx e v).migQ = c.migQ := rfl
@[simp] theorem Ctl.putMbx_pubReads (c : Ctl) (e : Nat) (v : Mbx) : (c.putMbx e v).pubReads = c.pubReads := rfl
@[simp] theorem Ctl.putMbx_kvRegions (c : Ctl) (e : Nat) (v : Mbx) : (c.putMbx e v).kvRegions = c.kvRegions := rfl
@[simp] theorem Ctl.putMbx_kvPages (c : Ctl) (e : Nat) (v : Mbx) : (c.putMbx e v).kvPages = c.kvPages := rfl
@[simp] theorem Ctl.putMbx_kvBlocks (c : Ctl) (e : Nat) (v : Mbx) : (c.putMbx e v).kvBlocks = c.kvBlocks := rfl
@[simp] theorem Ctl.putMbx_kvNodes (c : Ctl) (e : Nat) (v : Mbx) : (c.putMbx e v).kvNodes = c.kvNodes := rfl
@[simp] theorem Ctl.putMbx_ques (c : Ctl) (e : Nat) (v : Mbx) : (c.putMbx e v).ques = c.ques := rfl
@[simp] theorem Ctl.putMbx_colls (c : Ctl) (e : Nat) (v : Mbx) : (c.putMbx e v).colls = c.colls := rfl
@[simp] theorem Ctl.putMbx_rsas (c : Ctl) (e : Nat) (v : Mbx) : (c.putMbx e v).rsas = c.rsas := rfl
@[simp] theorem Ctl.putMbx_places (c : Ctl) (e : Nat) (v : Mbx) : (c.putMbx e v).places = c.places := rfl
@[simp] theorem Ctl.putMbx_tiles (c : Ctl) (e : Nat) (v : Mbx) : (c.putMbx e v).tiles = c.tiles := rfl
@[simp] theorem Ctl.putMbx_tileMap (c : Ctl) (e : Nat) (v : Mbx) : (c.putMbx e v).tileMap = c.tileMap := rfl
@[simp] theorem Ctl.putMbx_clearing (c : Ctl) (e : Nat) (v : Mbx) : (c.putMbx e v).clearing = c.clearing := rfl
@[simp] theorem Ctl.putMbx_bayTests (c : Ctl) (e : Nat) (v : Mbx) : (c.putMbx e v).bayTests = c.bayTests := rfl
@[simp] theorem Ctl.putMbx_tally (c : Ctl) (e : Nat) (v : Mbx) : (c.putMbx e v).tally = c.tally := rfl
@[simp] theorem Ctl.putMbx_chans (c : Ctl) (e : Nat) (v : Mbx) : (c.putMbx e v).chans = c.chans := rfl
@[simp] theorem Ctl.putMbx_engs (c : Ctl) (e : Nat) (v : Mbx) : (c.putMbx e v).engs = c.engs := rfl
@[simp] theorem Ctl.putMbx_seedAt (c : Ctl) (e : Nat) (v : Mbx) : (c.putMbx e v).seedAt = c.seedAt := rfl
@[simp] theorem Ctl.putMbx_units (c : Ctl) (e : Nat) (v : Mbx) : (c.putMbx e v).units = c.units := rfl
@[simp] theorem Ctl.putMbx_rechecks (c : Ctl) (e : Nat) (v : Mbx) : (c.putMbx e v).rechecks = c.rechecks := rfl
@[simp] theorem Ctl.putMbx_items (c : Ctl) (e : Nat) (v : Mbx) : (c.putMbx e v).items = c.items := rfl
@[simp] theorem Ctl.putMbx_err (c : Ctl) (e : Nat) (v : Mbx) : (c.putMbx e v).err = c.err := rfl
@[simp] theorem Ctl.putMbx_evseq (c : Ctl) (e : Nat) (v : Mbx) : (c.putMbx e v).evseq = c.evseq := rfl
@[simp] theorem Ctl.putMbx_sessions (c : Ctl) (e : Nat) (v : Mbx) : (c.putMbx e v).sessions = c.sessions := rfl
@[simp] theorem Ctl.putMbx_setups (c : Ctl) (e : Nat) (v : Mbx) : (c.putMbx e v).setups = c.setups := rfl
@[simp] theorem Ctl.putMbx_setupTimes (c : Ctl) (e : Nat) (v : Mbx) : (c.putMbx e v).setupTimes = c.setupTimes := rfl
@[simp] theorem Ctl.putMbx_nextSid (c : Ctl) (e : Nat) (v : Mbx) : (c.putMbx e v).nextSid = c.nextSid := rfl
@[simp] theorem Ctl.putMbx_flash (c : Ctl) (e : Nat) (v : Mbx) : (c.putMbx e v).flash = c.flash := rfl
@[simp] theorem Ctl.putMbx_fuses (c : Ctl) (e : Nat) (v : Mbx) : (c.putMbx e v).fuses = c.fuses := rfl
@[simp] theorem Ctl.putMbx_fw (c : Ctl) (e : Nat) (v : Mbx) : (c.putMbx e v).fw = c.fw := rfl
@[simp] theorem Ctl.putMbx_net (c : Ctl) (e : Nat) (v : Mbx) : (c.putMbx e v).net = c.net := rfl
@[simp] theorem Ctl.putMbx_staging (c : Ctl) (e : Nat) (v : Mbx) : (c.putMbx e v).staging = c.staging := rfl
@[simp] theorem Ctl.putMbx_optest (c : Ctl) (e : Nat) (v : Mbx) : (c.putMbx e v).optest = c.optest := rfl
@[simp] theorem Ctl.putMbx_reg (c : Ctl) (e : Nat) (v : Mbx) (a : Nat) : (c.putMbx e v).reg a = c.reg a := rfl
@[simp] theorem Ctl.putMbx_rd (c : Ctl) (e : Nat) (v : Mbx) (f : Fld) : (c.putMbx e v).rd f = c.rd f := rfl
@[simp] theorem Ctl.mbx_putMbx (c : Ctl) (e : Nat) (v : Mbx) : (c.putMbx e v).mbx e = v := by simp [Ctl.mbx, Ctl.putMbx]
theorem Ctl.mbx_putMbx_ne (c : Ctl) (e : Nat) (v : Mbx) (j : Nat) (h : j ≠ e) : (c.putMbx e v).mbx j = c.mbx j := by
  simp [Ctl.mbx, Ctl.putMbx, Tab.get_set_ne _ _ _ _ _ _ h]

end Sys2Proof.Machine
end

