-- ==== Sys2Proof/Laws/Units.lean ====
section
/-! SUPPORT. What holds whatever the open hashes answer: the choice of a unit among few, an item's number, a register that is
not listed. -/

namespace Sys2Proof.Machine

/-- The hash has no choice among one unit. -/
theorem Ctl.pickUnit_one {c : Ctl} {k : UnitKind} {u : Nat} (h : c.workers k = [u]) (a b n : Nat) : c.pickUnit k a b n = some u := by
  simp [Ctl.pickUnit, h, Nat.mod_one]

/-- No other unit: nobody rechecks. -/
theorem Ctl.checkers_none {c : Ctl} {r : Recheck} (h : c.others r.kind r.first = []) : c.checkers r = [] := by
  simp [Ctl.checkers, h]

/-- One other unit rechecks. -/
theorem Ctl.checkers_one {c : Ctl} {r : Recheck} {u : Nat} (h : c.others r.kind r.first = [u]) : c.checkers r = [u] := by
  simp [Ctl.checkers, h, Nat.mod_one]

/-- Two other units recheck, in one order or the other. -/
theorem Ctl.checkers_two {c : Ctl} {r : Recheck} {u v : Nat} (h : c.others r.kind r.first = [u, v]) (huv : u ≠ v) :
    c.checkers r = [u, v] ∨ c.checkers r = [v, u] := by
  have hm : Config.unitHash r.item 0 0 % 2 = 0 ∨ Config.unitHash r.item 0 0 % 2 = 1 := by omega
  have huv' : (v == u) = false := by simpa using Ne.symm huv
  have hvu' : (u == v) = false := by simpa using huv
  rcases hm with hm | hm
  · left; simp [Ctl.checkers, h, hm, bne, huv', Nat.mod_one]
  · right; simp [Ctl.checkers, h, hm, bne, hvu', Nat.mod_one]

/-- A register without a listed value reads its reset value. -/
theorem Ctl.reg_unlisted {c : Ctl} {a : Nat} (h : ∀ e ∈ c.regs, e.1 ≠ a) : c.reg a = regReset a := by
  simp [Ctl.reg, Tab.get, Tab.find?_none h]

end Sys2Proof.Machine
end

