-- ==== Sys2Proof/Tests/Slice0.lean ====
section
/-! SUPPORT. The model's own tests: small states, a witness of the hypotheses of every clause of a statement, ill-formed commands,
words of tile instructions, single steps. -/

namespace Sys2Proof.Machine

/-- The state after reset with its control records changed. -/
def wS (f : Ctl → Ctl) : State := { State.reset with ctl := f State.reset.ctl }

/-- A session with SID 1 whose running request, number 1, has an operation. -/
def wSess (op : Nat) : Session :=
  { sid := 1, port := 0, secret := 0, th := 0, anchor := [], lastSeq := none, answer := none, running := some (1, op, 0),
    idleAt := 0, sub := none, events := [], droppedEv := 0, sentAt := 0, chain := [] }

def Ctl.wJmp (c : Ctl) (op : Nat) : Ctl := { c with sessions := [wSess op] }

/-- The cores run, both control ports are UP, GLB_STATE and STEP are these. -/
def Ctl.wAt (c : Ctl) (st step : Nat) : Ctl :=
  (((((c.wr Reg.coresUp 0xF).wr (Reg.ctlState 0) 3).wr (Reg.ctlState 1) 3).wr Reg.feedOk 15).wr Reg.glbState st).wr Reg.glbStep step

/-- MAIN is up and DATA_READY. -/
def Ctl.wUp (c : Ctl) : Ctl :=
  { ((c.wAt 2 0).wr Reg.mainGood 1).wr Reg.dataReady 1 with pwr := { c.pwr with pwrEn := true, railsUp := true } }

/-- A sub-port in a state on all four lanes, leading to endpoint 5, with credit. -/
def wSub (l : LinkState) : SubPort :=
  { SubPort.init with st := l, lanes := 15, eps := [5], credits := List.replicate 8 4000, firstAlign := true }

/-- MAIN is up, and sub-port 0 of port 3 is this. -/
def Ctl.wLink (c : Ctl) (x : SubPort) : Ctl := c.wUp.putSub 3 0 x

/-- Endpoint n lives. -/
def Ctl.wEp (c : Ctl) (n : Nat) : Ctl := c.putEp n { Endpoint.init with live := true, plumb := .alive }

/-- A frame in the replay buffer of a sub-port. -/
def wReplay (n : BitVec 16) : ReplayEnt := { lseq := n, frame := { baseFrame with kind := kTack, dst := 5 }, bytes := 104 }

/-- A request of the SG7 to endpoint 5 under SEQ 7, not acknowledged. -/
def wTx : TxFrame :=
  { seq := 7, frame := { baseFrame with kind := 0x40, dst := 5, seq := 7, tag := 1 }, sentAt := 0, tries := 1, filled := false, acked := false,
    peg := none, grant := none }

/-- A bay with members 5 (class 0) and 6 (class 1) under generation 4. -/
def wMap : CMap := { gen := 4, members := [{ ep := 5, cls := 0, dead := false }, { ep := 6, cls := 1, dead := false }], groups := [(1, [5, 6])] }

/-- An extent of bay 1 from 0x100000 with every right. -/
def wExt : Extent := { Extent.init with base := 0x100000, limit := 0x200000, bay := 1, rights := 0xFFFFF, st := .active }

/-- The page at 0x100000, on stack 2. -/
def wPage : PageEntry := { PageEntry.init with loc := { tier := .hbm, a := 2, b := 3 } }

/-- Bay 1 is ACTIVE with members 5 and 6 and the extent; its first page is on stack 2. -/
def Ctl.wBay (c : Ctl) : Ctl :=
  let c := ((c.wUp.wEp 5).wEp 6).putBay 1 { BayRec.init with st := .active, gen := 4, cur := some wMap }
  let c := (c.putExt 0 wExt).putPage 1 16 wPage
  let c := (((List.range 8).foldl (fun d i => d.wr (Reg.hbmState i) 1) c).wr (Reg.hbmQuota 1) 1000).wr (Reg.hbmUsed 1) 1
  { c with phys := { c.phys with used := [hbmKey 2 3], sweptHbm := List.replicate 8 100, copyA := some 0, copyB := some 4 } }

/-- A request of member 5 of the bay to the SG7. -/
def wReq (k : BitVec 8) (a : Word) (p : List Byte) : Frame :=
  { baseFrame with kind := k, tc := 3, bay := 1, src := 5, dst := 0xFFF, gen := 4, tag := 9, addr := a, payload := p, len := BitVec.ofNat 13 p.length }

/-- The bay with some bytes in its page. -/
def wB (f : Ctl → Ctl) : State := { wS (fun c => f c.wBay) with mem := { cells := [(hbmKey 2 3 + 16, 7), (hbmKey 2 3 + 17, 9)], poison := [] } }

/-- An open request. -/
def wOpen (f : Frame) (p : Phase) : OpenReq := { id := 0, frame := f, ext := some 0, old := false, since := 0, phase := p, parts := [], pos := 0 }

/-- The request of the SG7's own to endpoint 8. -/
def wOwn (k : BitVec 8) (w : OwnFor) : OwnReq := { tag := 3, ep := 8, frame := { baseFrame with kind := k, dst := 8, tag := 3 }, why := w, since := 0 }

/-- A queue of bay 1 owned by endpoint 5, in slot 2, is enabled. -/
def Ctl.wQue (c : Ctl) (n : Nat) (x : Que) : Ctl :=
  ((((c.wBay.wr (Reg.queBay n) 1).wr (Reg.queOwner n) 5).wr (Reg.queSlot n) 2).wr (Reg.queEnable n) 1).putQue n x

/-- The bay with its extent coherent in domain 9, an UP domain with agents 5 and 6 in slots 2 and 3. -/
def Ctl.wCoh (c : Ctl) : Ctl :=
  (c.wBay.putExt 0 { wExt with coh := true, cdom := 9 }).putDom 9 { st := .up, bay := 1, cause := 0, causeEp := 0, agents := [(2, 5), (3, 6)] }

/-- The directory entry of the line at 0x100000. -/
def wEnt (l : LineState) (tr : Option Trans) : DirEnt :=
  { line := lineKeyOf 1 0x100000, dset := dirSet 1 0x100000, way := 0, st := l, pres := slotBit 2, owner := 2, dom := 9, age := 0, trans := tr }

/-- A transaction that awaits slot 2. -/
def wTrans (w : TransFor) : Trans := { why := w, await := [2], awaitWb := [], since := 0, wbp := false, granted := false }

/-- The coherent bay with that entry. -/
def wC (l : LineState) (tr : Option Trans) : State :=
  { wS (fun c => { c.wCoh with dir := [wEnt l tr] }) with mem := { cells := [(hbmKey 2 3 + 16, 7), (hbmKey 2 3 + 17, 9)], poison := [] } }

/-- A frame of an agent about the line at 0x100000. -/
def wAck (k : BitVec 8) (p : List Byte) : Frame := wReq k 0x100000 p

/-- The bytes of the line at 0x100000. -/
def wLine : List Byte := List.replicate 16 0 ++ [7, 9] ++ List.replicate 110 0

/-- A region of KV memory of bay 1: 16 pages at 0x1000000. -/
def wKv : KvRegion :=
  { bay := 1, index := 3, base := 0x1000000, page := 0, hint := 0, redun := false, fatal := false, capb := 16, hkv := 1, dlog := 0, dying := none, pages := [] }

/-- A page of KV memory on stack 2. -/
def wKvPage : KvPage :=
  { tier := .hbm, keys := [hbmKey 2 4], alt := [], altTier := .none, size := 65536, count := 2, ro := false, lost := false, migrating := false,
    destTier := .none, dest := [], copied := 0, charged := 1, region := 3 }

/-- A ring entry: opcode, COUNT, A, B, C. -/
def wEntry (op : Byte) (n a b c : Nat) : List Byte := op :: zeros 3 ++ leBytes 4 n ++ leBytes 8 a ++ leBytes 8 b ++ leBytes 8 c

/-- The instruction of serial 11 and index 3 with an entry. -/
def wInst (e : List Byte) : QInst :=
  { serial := 11, index := 3, entry := e, phase := .issued, since := 0, flags := 0, count := 0, info := 0, param := [], pos := 0, todo := [],
    held := 0, step := 0, data := [], rows := [], retry := none, waitFrom := 0 }

/-- Queue 7 runs with an instruction in flight. Its rings lie in the bay's page. -/
def Ctl.wIn (c : Ctl) (x : QInst) : Ctl :=
  ((c.wQue 7 { Que.init with st := .running, head := 4, tail := 6, insts := [x] }).putReg (Reg.queRing 7) 0x101000).putReg (Reg.queCring 7) 0x102000

/-- That state, with some bytes in the bay's page. -/
def wI (x : QInst) : State := { wS (fun c => c.wIn x) with mem := { cells := [(hbmKey 2 3 + 16, 7), (hbmKey 2 3 + 17, 9)], poison := [] } }

/-- The state after a write as a member of bay 1. -/
def wWrite (s : State) (a : Nat) (b : List Byte) : State :=
  match (Act.write 1 5 a b).run { s := s, fl := 0 } with | .ok r => r.2.s | .error _ => State.reset

/-- The instruction with an entry, at its issue, in the bay; 32 counters of the bay's window are there. -/
def wIs (e : List Byte) : State := { wS (fun c => (c.wIn (wInst e)).wr (Reg.winCount 1) 32) with mem := (wI (wInst e)).mem }

/-- A region of the publication map. -/
def Ctl.wReg (c : Ctl) : Ctl :=
  ((((c.wr (Reg.regionValid 3) 1).wr (Reg.regionBay 3) 1).wr (Reg.regionLen 3) 1).putReg (Reg.regionWord 3 0) 0x100000).putReg (Reg.regionWord 3 1) 0x110000

/-- Channel 4 of engine 0 serves the instructions of bay 1. -/
def Ctl.wChan (c : Ctl) : Ctl := (c.wr (Reg.ldlChBay 0 4) 1).wr (Reg.ldlChAssigned 0 4) 1

/-- A state with an instruction and a parameter block at 0x100200. -/
def wPar (x : QInst) (p : List Byte) : State :=
  { wS (fun c => (c.wIn x).wr (Reg.winCount 1) 32) with mem := (wI x).mem.write (hbmKey 2 3 + 512) p }

/-- The parameter block of a STREAM. -/
def wStream : List Byte := leBytes 2 2 ++ leBytes 2 3 ++ leBytes 4 9 ++ leBytes 8 65536 ++ leBytes 8 0x110000 ++ leBytes 4 4 ++ leBytes 4 8 ++ leBytes 8 0x100400 ++ zeros 24

/-- A collective of group 1 with a post of member 5. -/
def wColl : Coll :=
  { id := 3, bay := 1, group := 1, seqno := 7, gen := 4, opcode := 0x21, dtype := 2, op := 0, round := 0, root := 0, elems := 2 ^ 20 + 1, seed := 0,
    members := [5, 6], posts := [{ ep := 5, queue := 7, serial := 11, src := 0x100000, dst := 0x100000, bad := none }], openedAt := 0,
    begun := true, todo := [0, 1], held := [], out := [], phase := 0, failed := none }

/-- That state with a region of KV memory, a second one, and a tile of bay 1. -/
def wKvS (x : QInst) (p : List Byte) : State :=
  (wPar x p).onCtl (fun c => { c.wr (Reg.kvsFork 1) 1 with kvRegions := [wKv, { wKv with index := 4, base := 0x2000000 }] })

/-- The parameter block of an ATTEND of one row, one head, 32 elements, over one position. -/
def wAtt : List Byte :=
  leBytes 4 1 ++ leBytes 2 1 ++ leBytes 2 1 ++ leBytes 2 32 ++ zeros 2 ++ leBytes 4 0x3F800000 ++ zeros 4 ++ leBytes 4 256 ++ leBytes 8 0x100800
  ++ leBytes 8 0x100600 ++ leBytes 8 0x100A00 ++ zeros 48

/-- Its sequence entry: the region of KV memory, one position. -/
def wSeq : List Byte := leBytes 8 (2 ^ 63 + 0xFFF * 2 ^ 44 + 0x1000000) ++ leBytes 4 1 ++ zeros 20

/-- The ATTEND, with its sequence entry, in a state. -/
def wAttS (x : QInst) : State :=
  let s := wKvS x wAtt
  { s with mem := s.mem.write (hbmKey 2 3 + 0x600) wSeq }

/-- The ATTEND under way. -/
def wAttX : QInst := { wInst (wEntry 0x40 0 0x100200 0 0) with phase := .running, param := wAtt ++ wSeq, todo := [0] }

/-- A placement of bay 1 on the first tile. -/
def wPlace : Place :=
  { bay := 1, handle := 2, w := 1, h := 1, links := 0, entry := 8, imem := 65536, tiles := [0], logical := [0], launch := none, latch := false }

/-- The first tile is bay 1's. -/
def Ctl.wTile (c : Ctl) : Ctl := c.putReg 0x0C001000 0x1001

/-- The parameter block of a PACK of one block into the region of KV memory. -/
def wPackP : List Byte :=
  [1, 4, 0, 0] ++ leBytes 4 1 ++ leBytes 8 0x100000 ++ leBytes 8 (2 ^ 63 + 0xFFF * 2 ^ 44 + 0x1000000) ++ leBytes 8 40000 ++ zeros 16

/-- The PACK at its issue. -/
def wPackS : State := (wKvS (wInst (wEntry 0x58 0 0x100200 0 0)) wPackP).onCtl (·.wTile)

/-- The parameter block of an UNPACK of one block of bytes. -/
def wUnpP : List Byte := [3, 0, 0, 0] ++ leBytes 4 1 ++ leBytes 8 0x101000 ++ leBytes 8 0x108000 ++ leBytes 8 16384 ++ zeros 16

/-- The header of its stream, of one block. -/
def wUnpHd : List Byte := leBytes 4 1 ++ [3] ++ zeros 59

/-- The header of its RAW block of zeros. -/
def wUnpBh : List Byte := [0, 3, 0, 0] ++ leBytes 4 16448 ++ zeros 56

/-- The UNPACK at its issue. -/
def wUnpS : State :=
  let s := (wPar (wInst (wEntry 0x59 0 0x100200 0 0)) wUnpP).onCtl (fun c => { c with items := [1, 1, 1, 1] })
  { s with mem := s.mem.write (hbmKey 2 3 + 0x1000) (wUnpHd ++ leBytes 4 2 ++ zeros 60 ++ wUnpBh) }

/-- Fields of a tile's instruction word. -/
def wF : TileFields := { d := 3, a := 1, b := 2, sz := 0, useImm := false, imm := 16 }

/-- A running tile. -/
def wX : Tile := { Tile.init with pc := 8, run := true, s := [(1, 0x20010), (2, 9), (3, 1)], v := [(64, 0x3F800000), (65, 0x40000000), (130, 0xC0000000)] }

/-- Tile 0 runs in the placement, as this, at an instruction word; tile 1 is the placement's second. -/
def wT (o : TileOp) (w : TileFields) (x : Tile) : State :=
  let s := wS (fun c => { (((c.wIn { wInst (wEntry 0x50 0 2 77 0) with phase := .running }).wTile.wr (Reg.winCount 1) 0x20100).putTile 0 x).putTile 1 { wX with rank := 1, barCount := 0 } with
    places := [{ wPlace with w := 2, links := 1, tiles := [0, 1], logical := [0, 1], launch := some (7, 11) }] })
  { s with mem := ({ cells := [(scratchKey 0 0x20020, 7), (scratchKey 0 0x20021, 8)], poison := [] } : Mem).write (scratchKey 0 8) (leBytes 8 (encodeTile o w).toNat) }

/-- The placement of that state. -/
def wP : Place := { wPlace with w := 2, links := 1, tiles := [0, 1], logical := [0, 1], launch := some (7, 11) }


/-- A descriptor of a chain: copy n elements of four bytes from one address to another, then flags and next. -/
def wDesc (n f : Nat) : List Byte :=
  leBytes 8 0x100000 ++ leBytes 8 0x100800 ++ leBytes 8 n ++ [0, 0] ++ leBytes 1 f ++ [0] ++ leBytes 4 4 ++ leBytes 8 0x100400 ++ zeros 24

/-- Channel 4 of engine 0 is a CHAIN channel of bay 1, like this; its descriptor lies at 0x100200. -/
def wCh (x : Chan) : State :=
  { wS (fun c => ((((((c.wBay.wr (Reg.ldlChBay 0 4) 1).wr (Reg.ldlChEp 0 4) 5).wr (Reg.ldlChMode 0 4) 1).wr (Reg.ldlChAssigned 0 4) 1).wr (Reg.winCount 1) 32).putCounter 0 1).putChan 4 x)
    with mem := ({ cells := [(hbmKey 2 3 + 16, 7), (hbmKey 2 3 + 17, 9)], poison := [] } : Mem).write (hbmKey 2 3 + 512) (wDesc 8 10) }

/-- The channel before its chain starts. -/
def wCh0 : Chan := { Chan.init with head := 0x100200, cur := 0x100200 }

/-- Channel 4 of engine 0 serves an instruction of queue 7. -/
def wSv (x : QInst) (p : List Byte) : State :=
  (wPar x p).onCtl (fun c => c.wChan.putChan 4 { Chan.init with st := .running, serve := some (7, 11) })

/-- The row of a STREAM's table. -/
def wSvT : State :=
  let s := wSv { wInst (wEntry 0x11 0 0x100200 0 0) with phase := .running, param := wStream } wStream
  { s with mem := s.mem.write (hbmKey 2 3 + 1024) (leBytes 8 0x100000 ++ leBytes 8 64) }

/-- A placement of bay 1 runs in tile 0 while a mailbox of endpoint 5 is like this. -/
def wMb (m : Mbx) : State := (wT .nop wF wX).onCtl (fun c => c.putMbx 5 m)

/-- A post to Jorren by endpoint 5. -/
def wPost (l : List (BitVec 32)) : Mbx := { Mbx.init with msg := l ++ List.replicate (16 - l.length) 0, go := true, seq := 3, bay := 1 }

/-- Bay 1 in shakeout. -/
def Ctl.wShake (c : Ctl) (p : ShakePhase) : Ctl :=
  { c with bays := c.bays.set 1 BayRec.init { c.bay 1 with st := .shakeout, cur := none, shake := some p } }

/-- A report waits in the collector. -/
def wErr (e : Err) : State := wS (fun c => { c.wAt 2 0 with err := e })

/-- Of some kinds of unit, in the order of their keys, only those with these numbers are in service. -/
def Ctl.wUnits (c : Ctl) (ks : List UnitKind) (l : List Nat) : Ctl :=
  { c with units := ks.flatMap (fun k => ((List.range (unitCount k)).filter (fun i => !l.contains i)).map (fun i =>
      (unitKey k i, { UnitRec.init (unitKey k i) with st := .failed }))) }

/-- An item of the instruction of queue 7 awaits its recheck. -/
def wRc (k : ItemKind) (w : List OutWrite) : Recheck :=
  { item := 5, kind := k, first := 0, owner := 11, queue := 7, piece := 0, bay := 1, flags := 0, outs := w, rows := [], nans := 0 }

/-- That item waits while these units are in service. -/
def wTb (ks : List UnitKind) (r : Recheck) (l : List Nat) : State :=
  (wI { wInst (wEntry 0x28 0 0x100200 0 0) with phase := .running, held := 1, todo := [0] }).onCtl
    (fun c => { c.wUnits ks l with rechecks := [r] })

/-- An idle endpoint 5 whose last beat came at time 0. -/
def Ctl.wPlb (c : Ctl) (f : Endpoint → Endpoint) : Ctl := c.wUp.putEp 5 (f { Endpoint.init with live := true, plumb := .alive })

/-- A session with SID 1 that is idle. -/
def wIdle : Session := { wSess 1 with running := none, lastSeq := some 4, answer := some { seq := 4, op := 1, result := 0, words := [], bytes := [] } }

/-- A setup that waits for the operator's signature. -/
def wSetup : Setup := { sid := 3, port := 0, secret := 0, th := 0, chain := [1], since := 0 }

/-- The block of a SELFTEST that names one resource. -/
def wTst (force : Nat) : List Byte := [0, 0, 1, 0] ++ leBytes 4 force ++ zeros 24

/-- An operator test of one resource. -/
def wOt (force dr : Bool) (l : List TestRes) : OpTest := { force := force, kind := 0, list := l, bays := [1], draining := dr, since := 0 }

/-- No bay of a state whose only listed bay is ACTIVE is in shakeout. -/
theorem Ctl.wNoShake {c : Ctl} {v : BayRec} (h : c.bays = [(1, v)]) (hv : v.st = .active) (b : Nat) : (c.bay b).st ≠ .shakeout := by
  unfold Ctl.bay
  by_cases hb : b = 1
  · subst hb; simp [h, Tab.get, Tab.find?, hv]
  · rw [Tab.get, Tab.find?_none (by rw [h]; intro e he; cases he with | head => exact Ne.symm hb | tail _ he => cases he)]
    decide

/-- A chain under another anchor than the one stored is not accepted. -/
theorem Ctl.wChainNot {c : Ctl} {chain a : List Byte} (ha : c.flash.anchors = [a, [], [], []]) (hn : a ≠ [])
    (h : Config.chainAnchor chain ≠ some a) : c.chainOk chain = none := by
  unfold Ctl.chainOk
  cases hc : Config.chainAnchor chain with
  | none => rfl
  | some x =>
    have hx : x ≠ a := fun e => h (by rw [hc, e])
    have hna : c.noAnchor = false := by cases a with
      | nil => exact absurd rfl hn
      | cons y l => simp [Ctl.noAnchor, ha]
    cases x with
    | nil => simp [hna]
    | cons y l => simp [hna, ha, hx]

/-- No register of a range is listed when every listed one lies below or above it. -/
theorem Ctl.wUnlisted {c : Ctl} {lo hi a : Nat} (h : ∀ e ∈ c.regs, e.1 < lo ∨ hi ≤ e.1) (h1 : lo ≤ a) (h2 : a < hi) :
    c.reg a = regReset a := Ctl.reg_unlisted (fun e he => by have := h e he; omega)

/-- The windows of counters and of KV memory are empty at reset. -/
theorem regReset_window {a : Nat} (h : (0x06002000 ≤ a ∧ a < 0x0600A000) ∨ (0x0B810000 ≤ a ∧ a < 0x0B820000)) : regReset a = 0 := by
  unfold regReset
  rcases h with ⟨h1, h2⟩ | ⟨h1, h2⟩
  · simp only [show ¬ a < 0x01000000 by omega, show ¬ a < 0x02000000 by omega, show ¬ a < 0x04000000 by omega, show ¬ a < 0x05000000 by omega,
      show a < 0x0A000000 by omega, if_true, if_false, inArray, show ¬ 0x09008000 ≤ a by omega, show ¬ 0x09010000 ≤ a by omega,
      decide_false, Bool.false_and]
    split <;> first | omega | rfl
  · simp only [show ¬ a < 0x01000000 by omega, show ¬ a < 0x02000000 by omega, show ¬ a < 0x04000000 by omega, show ¬ a < 0x05000000 by omega,
      show ¬ a < 0x0A000000 by omega, show a < 0x0F000000 by omega, if_true, if_false, inArray]
    have e1 : ¬ a < 0x0A010000 + 8 * 4096 := by omega
    have e2 : ¬ a < 0x0B010000 + 8 * 4096 := by omega
    have e3 : ¬ a = 0x0B800000 := by omega
    have e4 : ¬ a = 0x0D800000 := by omega
    simp [e1, e2, e3, e4]

/-- A RAW block of zeros: it expands. -/
theorem wRawBlock : ∃ els, expandBlock 3 (wUnpBh ++ zeros 16384) = some els := by
  have hl : (wUnpBh ++ zeros 16384).length = 16448 := by
    rw [List.length_append, zeros, List.length_replicate]; rfl
  have h1 : leAt (wUnpBh ++ zeros 16384) 4 4 = 16448 := by decide +kernel
  have h2 : leAt (wUnpBh ++ zeros 16384) 1 1 = 3 := by decide +kernel
  have h3 : leAt (wUnpBh ++ zeros 16384) 3 1 = 0 := by decide +kernel
  have h4 : leAt (wUnpBh ++ zeros 16384) 40 24 = 0 := by decide +kernel
  have h5 : leAt (wUnpBh ++ zeros 16384) 0 1 = 0 := by decide +kernel
  have h6 : leAt (wUnpBh ++ zeros 16384) 2 1 = 0 := by decide +kernel
  have h7 : ((List.range 8).map (fun i => leAt (wUnpBh ++ zeros 16384) (8 + 4 * i) 4)).any (· != 0) = false := by decide +kernel
  have h8 : rawBlen 3 = 16448 := by decide +kernel
  unfold expandBlock
  simp only [hl, h1, h2, h3, h4, h5, h6, h7, h8]
  exact ⟨_, rfl⟩

/-- A session's update is being staged. -/
def wFw : State := wS (fun c => { c with regs := [(0x10000000, 0x10F)], sessions := [wSess 0x32] })

theorem wFw_state : wFw.ctl.rd Reg.fwState = 1 := by decide +kernel

end Sys2Proof.Machine

namespace Sys2Proof.Tests
open Sys2Proof Sys2Proof.Machine
set_option Elab.async false
set_option linter.unusedVariables false

/-! ### Witnesses: states and operands that meet the hypotheses of each clause of a statement -/

theorem witness_StepRunsFront :
    ∃ (s : State), s.pending = [] :=
  ⟨State.reset, by decide +kernel⟩

theorem witness_FeedsLasersAlerts :
    (∃ (f : Fin 4) (s : State), bitOf (s.ctl.rd Reg.feedOk) f.val = true ∧ bitOf (s.ctl.rd Reg.feedOk) (otherFeed f.val) = true ∧ LogRoom s)
    ∧ (∃ (r : Fin 13) (s : State), s.ctl.pwr.railDrops = BitVec.ofNat 13 (2 ^ r.val))
    ∧ (∃ (e : Fin 8) (f : Fin 16) (s : State), f.val ∈ (s.ctl.elm e.val).failed ∧ (s.ctl.elm e.val).spares < 2) :=
  ⟨⟨1, wS (·.wUp), ⟨by decide +kernel, by decide +kernel, by unfold LogRoom; decide +kernel⟩⟩,
    ⟨4, wS (fun c => { c with pwr := { c.pwr with railDrops := 16 } }), by decide +kernel⟩,
    ⟨3, 7, wS (fun c => c.putElm 3 { Elm.init with failed := [7] }), ⟨by decide +kernel, by decide +kernel⟩⟩⟩

theorem witness_PowerUp :
    (∃ (s : State), s.ctl.rd Reg.glbWaitOn = 0 ∧ s.ctl.rd Reg.glbState = 0 ∧ s.ctl.rd Reg.coresUp ≠ 0 ∧ s.ctl.pwr.resetLow = false ∧ s.ctl.rd Reg.thermTrip = 0 ∧ s.ctl.pwr.coreLost = false)
    ∧ (∃ (s : State), s.ctl.rd Reg.glbState = 1 ∧ 3 ≤ s.ctl.rd Reg.glbStep ∧ s.ctl.rd Reg.glbStep ≤ 5 ∧ s.ctl.pwr.pwrEn = true ∧ 4 ≤ s.ctl.rd Reg.feedOk)
    ∧ (∃ (rail : Fin 13) (s : State), s.ctl.rd Reg.glbState = 1 ∧ s.ctl.rd Reg.glbStep ≤ 5 ∧ s.ctl.pwr.railsUp = false ∧ LogRoom s)
    ∧ (∃ (s : State), s.ctl.rd Reg.glbState = 1 ∧ s.ctl.rd Reg.glbStep = 5 ∧ s.ctl.rd Reg.mainGood = 1 ∧ s.ctl.rd Reg.coresUp ≠ 0 ∧ (∀ u ∈ s.ctl.flash.map.failed, u.2 < unitsOf u.1))
    ∧ (∃ (found : List BootFault) (s : State), s.ctl.rd Reg.glbState = 1 ∧ s.ctl.rd Reg.glbStep = 6)
    ∧ (∃ (u : MemUnit) (ok : Bool) (slots : Nat) (s : State), s.ctl.rd Reg.glbState = 1 ∧ 7 ≤ s.ctl.rd Reg.glbStep ∧ slots < 2 ^ 22)
    ∧ (∃ (s : State), s.ctl.rd Reg.glbState = 1 ∧ 8 ≤ s.ctl.rd Reg.glbStep) :=
  ⟨⟨wS (fun c => c.wAt 0 0), ⟨by decide +kernel, by decide +kernel, by decide +kernel, by decide +kernel, by decide +kernel, by decide +kernel⟩⟩,
    ⟨wS (fun c => { c.wAt 1 4 with pwr := { c.pwr with pwrEn := true } }), ⟨by decide +kernel, by decide +kernel, by decide +kernel, by decide +kernel, by decide +kernel⟩⟩,
    ⟨10, wS (fun c => c.wAt 1 4), ⟨by decide +kernel, by decide +kernel, by decide +kernel, by unfold LogRoom; decide +kernel⟩⟩,
    ⟨wS (fun c => { (c.wAt 1 5).wr Reg.mainGood 1 with flash := { c.flash with map := { c.flash.map with failed := [(.tile, 3)] } } }), ⟨by decide +kernel, by decide +kernel, by decide +kernel, by decide +kernel, by decide +kernel⟩⟩,
    ⟨[.unitFailed .cupola 5, .sramRepaired 2], wS (fun c => c.wAt 1 6), ⟨by decide +kernel, by decide +kernel⟩⟩,
    ⟨.ddr 3, true, 1000, wS (fun c => c.wAt 1 7), ⟨by decide +kernel, by decide +kernel, by decide +kernel⟩⟩,
    ⟨wS (fun c => c.wAt 1 8), ⟨by decide +kernel, by decide +kernel⟩⟩⟩

theorem witness_LossOfMain :
    (∃ (w : BitVec 16) (s : State), 8000 < w.toNat ∧ s.ctl.pwr.railsUp = true)
    ∧ (∃ (s : State), s.ctl.pwr.railsUp = true)
    ∧ (∃ (link : Fin 3) (s : State), s.ctl.pwr.railsUp = true) :=
  ⟨⟨8001, wS (fun c => c.wUp), ⟨by decide +kernel, by decide +kernel⟩⟩,
    ⟨wS (·.wUp), by decide +kernel⟩,
    ⟨2, wS (·.wUp), by decide +kernel⟩⟩

theorem witness_ClocksAndThrottle :
    (∃ (k : RefClk) (s : State), LogRoom s)
    ∧ (∃ (s : State), s.ctl.pwr.coreLost = true)
    ∧ (∃ (s : State), 4 ≤ s.ctl.pwr.thermStep ∧ s.ctl.pwr.thermStep < 6 ∧ s.ctl.rd Reg.forceDiv ≤ 6)
    ∧ (∃ (s : State), 4 < s.ctl.pwr.thermStep ∧ s.ctl.pwr.thermStep ≤ 6 ∧ s.ctl.rd Reg.forceDiv ≤ 6)
    ∧ (∃ (s : State), s.ctl.rd Reg.aDiv = 6 ∧ LogRoom s)
    ∧ (∃ (w : BitVec 16) (s : State), s.ctl.rd Reg.capW < w.toNat ∧ s.ctl.pwr.railsUp = true ∧ s.ctl.pwr.thermStep = 4 ∧ s.ctl.rd Reg.forceDiv ≤ 6)
    ∧ (∃ (v : Word) (s : State), 4 ≤ s.ctl.pwr.thermStep ∧ s.ctl.pwr.thermStep ≤ 6) :=
  ⟨⟨.fab, wS (·.wUp), by unfold LogRoom; decide +kernel⟩,
    ⟨wS (fun c => { c.wUp with pwr := { c.pwr with coreLost := true } }), by decide +kernel⟩,
    ⟨wS (·.wUp), ⟨by decide +kernel, by decide +kernel, by decide +kernel⟩⟩,
    ⟨wS (fun c => { c.wUp with pwr := { c.pwr with thermStep := 5 } }), ⟨by decide +kernel, by decide +kernel, by decide +kernel⟩⟩,
    ⟨wS (fun c => c.wUp.wr Reg.aDiv 6), ⟨by decide +kernel, by unfold LogRoom; decide +kernel⟩⟩,
    ⟨3701, wS (fun c => c.wUp), ⟨by decide +kernel, by decide +kernel, by decide +kernel, by decide +kernel⟩⟩,
    ⟨5, wS (·.wUp), ⟨by decide +kernel, by decide +kernel⟩⟩⟩

theorem witness_Resets :
    (∃ (sid : Nat) (s : State), s.ctl.jmpRuns sid 0x12 = true ∧ s.ctl.rd Reg.glbState ≠ 0 ∧ s.ctl.rd Reg.glbState ≠ 3)
    ∧ (∃ (sid : Nat) (s : State), s.ctl.jmpRuns sid 0x13 = true) :=
  ⟨⟨1, wS (fun c => c.wUp.wJmp 0x12), ⟨by decide +kernel, by decide +kernel, by decide +kernel⟩⟩,
    ⟨1, wS (fun c => c.wUp.wJmp 0x13), by decide +kernel⟩⟩

theorem witness_Resets_given_3 (img : List Byte) (h : imageOk Fuses.init img = true) : ∃ (img : List Byte) (s : State), s.ctl.pwr.mgmtReset = true ∧ s.ctl.pwr.auxGood = true ∧ s.ctl.pwr.resetLow = false ∧ s.ctl.pwr.coreLost = false ∧ s.ctl.rd Reg.coresUp = 0 ∧ s.ctl.flash.image = some img ∧ imageOk s.ctl.fuses img = true :=
  ⟨img, wS (fun c => { c with pwr := { c.pwr with mgmtReset := true }, flash := { c.flash with image := some img } }), ⟨rfl, rfl, rfl, rfl, (by show State.reset.ctl.rd Reg.coresUp = 0; decide +kernel), rfl, h⟩⟩

theorem witness_BootAndRecovery :
    (∃ (s : State), s.ctl.pwr.auxGood = true ∧ s.ctl.pwr.resetLow = false ∧ s.ctl.pwr.coreLost = false ∧ s.ctl.rd Reg.coresUp = 0 ∧ s.ctl.flash.image = none)
    ∧ (∃ (s : State), s.ctl.staging.recovering = true ∧ s.ctl.staging.beaconAt + 100000000 ≤ s.ctl.now)
    ∧ (∃ (off : Nat) (data : List Byte) (s : State), s.ctl.staging.recovering = true ∧ s.ctl.rd Reg.coresUp = 0 ∧ off + data.length ≤ 2 ^ 25) :=
  ⟨⟨wS id, ⟨by decide +kernel, by decide +kernel, by decide +kernel, by decide +kernel, by decide +kernel⟩⟩,
    ⟨wS (fun c => { (c.wr (Reg.ctlState 0) 3) with now := 100000000, staging := { c.staging with recovering := true } }), ⟨by decide +kernel, by decide +kernel⟩⟩,
    ⟨5, [1, 2], wS (fun c => { c with staging := { c.staging with recovering := true } }), ⟨by decide +kernel, by decide +kernel, by decide +kernel⟩⟩⟩

theorem witness_BootAndRecovery_given_0 (img : List Byte) (h : imageOk Fuses.init img = true) : ∃ (img : List Byte) (s : State), s.ctl.pwr.auxGood = true ∧ s.ctl.pwr.resetLow = false ∧ s.ctl.pwr.coreLost = false ∧ s.ctl.rd Reg.coresUp = 0 ∧ s.ctl.flash.image = some img ∧ imageOk s.ctl.fuses img = true :=
  ⟨img, wS (fun c => { c with flash := { c.flash with image := some img } }), ⟨rfl, rfl, rfl, (by show State.reset.ctl.rd Reg.coresUp = 0; decide +kernel), rfl, h⟩⟩

theorem witness_BootAndRecovery_given_4 (d : List Byte) (hd : d.length ≤ 2 ^ 25)
    (h : imageOk Fuses.init (stagedImage (stageBytes [] 0 d) (stagedLen (stageBytes [] 0 d))) = true) : ∃ (off : Nat) (data : List Byte) (s : State), let area := stageBytes s.ctl.staging.recovery off data; s.ctl.staging.recovering = true ∧ s.ctl.rd Reg.coresUp = 0 ∧ off + data.length ≤ 2 ^ 25 ∧ imageOk s.ctl.fuses (stagedImage area (stagedLen area)) = true :=
  ⟨0, d, wS (fun c => { c with staging := { c.staging with recovering := true } }), ⟨rfl, rfl, by omega, h⟩⟩

theorem witness_PowerDown :
    (∃ (sid : Nat) (s : State), s.ctl.jmpRuns sid 0x10 = true ∧ s.ctl.rd Reg.glbState = 0 ∧ s.ctl.rd Reg.thermTrip = 0 ∧ s.ctl.rd Reg.coresUp ≠ 0 ∧ s.ctl.pwr.resetLow = false ∧ s.ctl.pwr.coreLost = false)
    ∧ (∃ (sid : Nat) (test : Nat) (s : State), s.ctl.jmpRuns sid 0x11 = true ∧ test ≤ 1 ∧ s.ctl.rd Reg.glbState = 2)
    ∧ (∃ (s : State), s.ctl.rd Reg.glbState = 3 ∧ s.ctl.rd Reg.glbStep = 2 ∧ s.ctl.opens = [] ∧ s.ctl.fences = [] ∧ s.ctl.owns = [])
    ∧ (∃ (s : State), s.ctl.rd Reg.glbState = 3 ∧ s.ctl.rd Reg.glbStep = 3)
    ∧ (∃ (map : List RepairItem) (s : State), s.ctl.rd Reg.glbState = 3 ∧ s.ctl.rd Reg.glbStep = 4 ∧ s.ctl.pwr.shutTest = true)
    ∧ (∃ (s : State), s.ctl.rd Reg.glbState = 3 ∧ s.ctl.rd Reg.glbStep = (if s.ctl.pwr.shutTest then 5 else 4) ∧ s.ctl.owns = [])
    ∧ (∃ (sid : Nat) (s : State), s.ctl.jmpRuns sid 0x51 = true ∧ 3 ≤ agreeOf s.ctl.flash.hashes ∧ s.ctl.fuses.repairs + s.ctl.flash.map.repairs ≤ 4096)
    ∧ (∃ (sid : Nat) (s : State), s.ctl.jmpRuns sid 0x14 = true ∧ (∀ i, i < 96 → signed 16 (s.ctl.rd (Reg.snsTemp i)) < 800)) :=
  ⟨⟨1, wS (fun c => (c.wAt 0 0).wJmp 0x10), ⟨by decide +kernel, by decide +kernel, by decide +kernel, by decide +kernel, by decide +kernel, by decide +kernel⟩⟩,
    ⟨1, 1, wS (fun c => c.wUp.wJmp 0x11), ⟨by decide +kernel, by decide +kernel, by decide +kernel⟩⟩,
    ⟨wS (fun c => c.wUp.wAt 3 2), ⟨by decide +kernel, by decide +kernel, by decide +kernel, by decide +kernel, by decide +kernel⟩⟩,
    ⟨wS (fun c => { c.wUp.wAt 3 3 with homeDirty := [4, 2 ^ 52 + 7] }), ⟨by decide +kernel, by decide +kernel⟩⟩,
    ⟨[.sram 3, .unitFailed .tile 4], wS (fun c => { c.wUp.wAt 3 4 with pwr := { c.pwr with shutTest := true } }), ⟨by decide +kernel, by decide +kernel, by decide +kernel⟩⟩,
    ⟨wS (fun c => c.wUp.wAt 3 4), ⟨by decide +kernel, by decide +kernel, by decide +kernel⟩⟩,
    ⟨1, wS (fun c => { c.wUp.wJmp 0x51 with flash := { c.flash with hashes := [7, 7, 7], map := { c.flash.map with repairs := 40 } } }), ⟨by decide +kernel, by decide +kernel, by decide +kernel⟩⟩,
    ⟨1, wS (fun c => { c.wJmp 0x14 with regs := (List.range 96).map (fun i => (0x10400000 + 8 * i, 0x1F0)) }), ⟨by decide +kernel, by decide +kernel⟩⟩⟩

theorem witness_LinkConfiguration :
    (∃ (p : Fin 128) (v : Word) (s : State), s.ctl.mainUp = true)
    ∧ (∃ (p : Fin 128) (s : State), s.ctl.mainUp = true)
    ∧ (∃ (p : Fin 128) (s : State), s.ctl.mainUp = true)
    ∧ (∃ (sid : Nat) (e : Nat) (s : State), s.ctl.jmpRuns sid 0x21 = true ∧ e < 8)
    ∧ (∃ (sid : Nat) (e : Nat) (s : State), s.ctl.jmpRuns sid 0x22 = true ∧ e < 8)
    ∧ (∃ (sid : Nat) (e : Nat) (s : State), 8 ≤ e)
    ∧ (∃ (sid : Nat) (p : Nat) (q : Nat) (s : State), s.ctl.jmpRuns sid 0x23 = true ∧ p < 128 ∧ q < 4 ∧ s.ctl.mainUp = true ∧ s.ctl.cfgLanes p q ≠ 0)
    ∧ (∃ (sid : Nat) (p : Nat) (q : Nat) (s : State), s.ctl.jmpRuns sid 0x23 = true ∧ (128 ≤ p ∨ 4 ≤ q)) :=
  ⟨⟨3, 0x88B50007, wS (·.wLink (wSub .up)), by decide +kernel⟩,
    ⟨3, wS (·.wLink (wSub .up)), by decide +kernel⟩,
    ⟨3, wS (·.wLink (wSub .quarantined)), by decide +kernel⟩,
    ⟨1, 0, wS (fun c => (c.wLink { wSub .up with replay := [wReplay 4] }).wJmp 0x21), ⟨by decide +kernel, by decide +kernel⟩⟩,
    ⟨1, 7, wS (fun c => (c.wUp.wJmp 0x22).putElm 7 { Elm.init with released := true, spares := 1 }), ⟨by decide +kernel, by decide +kernel⟩⟩,
    ⟨1, 8, wS (fun c => c.wUp.wJmp 0x21), by decide +kernel⟩,
    ⟨1, 3, 0, wS (fun c => (c.wLink { wSub .up with replay := [wReplay 4], keyed := true }).wJmp 0x23), ⟨by decide +kernel, by decide +kernel, by decide +kernel, by decide +kernel, by decide +kernel⟩⟩,
    ⟨1, 3, 4, wS (fun c => c.wUp.wJmp 0x23), ⟨by decide +kernel, by decide +kernel⟩⟩⟩

theorem witness_LinkTraining :
    (∃ (p : Fin 128) (q : Fin 4) (s : State), s.ctl.mainUp = true ∧ s.ctl.trains? p.val q.val = true ∧ TrainRoom s p.val q.val)
    ∧ (∃ (p : Fin 128) (q : Fin 4) (lanes : BitVec 4) (s : State), s.ctl.mainUp = true ∧ (s.ctl.sub p.val q.val).st = .train ∧ s.ctl.cfgLanes p.val q.val ≠ 0 ∧ s.ctl.cfgLanes p.val q.val &&& ~~~ lanes = 0)
    ∧ (∃ (p : Fin 128) (q : Fin 4) (s : State), s.ctl.mainUp = true ∧ (s.ctl.sub p.val q.val).st = .train ∧ (s.ctl.sub p.val q.val).since + 5000000 ≤ s.ctl.now)
    ∧ (∃ (p : Fin 128) (q : Fin 4) (s : State), s.ctl.mainUp = true ∧ (s.ctl.sub p.val q.val).stalledAt.isSome = true ∧ s.ctl.trains? p.val q.val = true ∧ TrainRoom s p.val q.val)
    ∧ (∃ (p : Fin 128) (q : Fin 4) (s : State), s.ctl.mainUp = true ∧ (s.ctl.sub p.val q.val).st = .align ∧ (s.ctl.sub p.val q.val).since + 1000000 ≤ s.ctl.now ∧ TrainRoom s p.val q.val)
    ∧ (∃ (p : Fin 128) (q : Fin 4) (s : State), s.ctl.mainUp = true ∧ (s.ctl.sub p.val q.val).st = .align ∧ (s.ctl.sub p.val q.val).aligned = false ∧ (s.ctl.sub p.val q.val).firstAlign = true) :=
  ⟨⟨3, 0, wS (fun c => c.wUp), ⟨by decide +kernel, by decide +kernel, by unfold TrainRoom; decide +kernel⟩⟩,
    ⟨3, 0, 0xF, wS (fun c => { c.wLink (wSub .train) with now := 77 }), ⟨by decide +kernel, by decide +kernel, by decide +kernel, by decide +kernel⟩⟩,
    ⟨3, 0, wS (fun c => { c.wLink (wSub .train) with now := 5000000 }), ⟨by decide +kernel, by decide +kernel, by decide +kernel⟩⟩,
    ⟨3, 0, wS (fun c => { c.wLink { wSub .down with stalledAt := some 0 } with now := 100000000 }), ⟨by decide +kernel, by decide +kernel, by decide +kernel, by unfold TrainRoom; decide +kernel⟩⟩,
    ⟨3, 0, wS (fun c => { c.wLink (wSub .align) with now := 1000000 }), ⟨by decide +kernel, by decide +kernel, by decide +kernel, by unfold TrainRoom; decide +kernel⟩⟩,
    ⟨3, 0, wS (fun c => c.wLink (wSub .align)), ⟨by decide +kernel, by decide +kernel, by decide +kernel, by decide +kernel⟩⟩⟩

theorem witness_LinkInitAndKeys :
    (∃ (p : Fin 128) (q : Fin 4) (b : List Byte) (s : State), s.ctl.mainUp = true ∧ ((s.ctl.sub p.val q.val).carries = true ∨ ((s.ctl.sub p.val q.val).st = .align ∧ (s.ctl.sub p.val q.val).aligned = true)) ∧ s.ctl.initReject p.val b = 0)
    ∧ (∃ (p : Fin 128) (q : Fin 4) (ct : List Byte) (n : Nat) (s : State), s.ctl.mainUp = true ∧ (s.ctl.sub p.val q.val).kem = some n ∧ ct.length = 1088 ∧ ((s.ctl.sub p.val q.val).carries = true ∨ (s.ctl.sub p.val q.val).st = .align))
    ∧ (∃ (p : Fin 128) (q : Fin 4) (s : State), s.ctl.mainUp = true ∧ (s.ctl.sub p.val q.val).carries = true ∧ (s.ctl.sub p.val q.val).enc = true) :=
  ⟨⟨3, 0, [1, 0, 0, 0, 0, 0, 0, 0] ++ List.replicate 120 77, wS (fun c => c.wLink { wSub .align with aligned := true }), ⟨by decide +kernel, by decide +kernel, by decide +kernel⟩⟩,
    ⟨3, 0, List.replicate 1088 0, 3, wS (fun c => c.wLink { wSub .align with kem := some 3 }), ⟨by decide +kernel, by decide +kernel, by decide +kernel, by decide +kernel⟩⟩,
    ⟨3, 0, wS (fun c => c.wLink { wSub .up with enc := true }), ⟨by decide +kernel, by decide +kernel, by decide +kernel⟩⟩⟩

theorem witness_LanesAndWidth :
    (∃ (p : Fin 128) (m : Fin 4) (s : State), s.ctl.mainUp = true ∧ bitOf (s.ctl.lane p.val).failed.toNat m.val = false)
    ∧ (∃ (p : Fin 128) (q : Fin 4) (lanes : BitVec 4) (s : State), s.ctl.mainUp = true ∧ (s.ctl.sub p.val q.val).st = .align ∧ (s.ctl.sub p.val q.val).aligned = true ∧ (s.ctl.sub p.val q.val).firstAlign = false ∧ lanes &&& s.ctl.usable p.val q.val ≠ 0)
    ∧ (∃ (p : Fin 128) (m : Fin 4) (s : State), s.ctl.mainUp = true ∧ bitOf (s.ctl.lane p.val).failed.toNat m.val = true)
    ∧ (∃ (p : Fin 128) (m : Fin 4) (q : Fin 4) (s : State), s.ctl.mainUp = true ∧ s.ctl.subOfLane p.val m.val = some q.val ∧ (s.ctl.sub p.val q.val).carries = true ∧ (s.ctl.sub p.val q.val).lanes &&& BitVec.ofNat 4 (2 ^ m.val) ≠ 0) :=
  ⟨⟨3, 2, wS (fun c => c.wLink (wSub .up)), ⟨by decide +kernel, by decide +kernel⟩⟩,
    ⟨3, 0, 7, wS (fun c => c.wLink { wSub .align with aligned := true, firstAlign := false }), ⟨by decide +kernel, by decide +kernel, by decide +kernel, by decide +kernel, by decide +kernel⟩⟩,
    ⟨3, 2, wS (fun c => (c.wLink (wSub .degraded)).putLane 3 { PortLanes.init with failed := 4 }), ⟨by decide +kernel, by decide +kernel⟩⟩,
    ⟨3, 2, 0, wS (fun c => c.wLink (wSub .up)), ⟨by decide +kernel, by decide +kernel, by decide +kernel, by decide +kernel⟩⟩⟩

theorem witness_ReplayAndCredits :
    (∃ (p : Fin 128) (q : Fin 4) (lseq : BitVec 16) (s : State), s.ctl.mainUp = true ∧ (s.ctl.sub p.val q.val).carries = true ∧ (s.ctl.sub p.val q.val).replays < 8 ∧ (∃ e ∈ (s.ctl.sub p.val q.val).replay, lseqBefore e.lseq lseq = false))
    ∧ (∃ (p : Fin 128) (q : Fin 4) (e : ReplayEnt) (l : List ReplayEnt) (s : State), s.ctl.mainUp = true ∧ (s.ctl.sub p.val q.val).carries = true ∧ (s.ctl.sub p.val q.val).replays < 8 ∧ (s.ctl.sub p.val q.val).replay = e :: l ∧ (s.ctl.sub p.val q.val).progressAt + 200 ≤ s.ctl.now)
    ∧ (∃ (p : Fin 128) (q : Fin 4) (x : Nat) (s : State), s.ctl.mainUp = true ∧ (s.ctl.sub p.val q.val).st = .align ∧ (s.ctl.sub p.val q.val).stalledAt = some x ∧ x + 100000 ≤ s.ctl.now ∧ TrainRoom s p.val q.val)
    ∧ (∃ (p : Fin 128) (q : Fin 4) (tr : Trailer) (s : State), s.ctl.mainUp = true ∧ (s.ctl.sub p.val q.val).carries = true)
    ∧ (∃ (p : Fin 128) (q : Fin 4) (x : Nat) (s : State), s.ctl.mainUp = true ∧ (s.ctl.sub p.val q.val).carries = true ∧ (s.ctl.sub p.val q.val).waitSince = some x ∧ x + 10 ≤ s.ctl.now) :=
  ⟨⟨3, 0, 4, wS (fun c => c.wLink { wSub .up with replay := [wReplay 3, wReplay 4, wReplay 5] }), ⟨by decide +kernel, by decide +kernel, by decide +kernel, by decide +kernel⟩⟩,
    ⟨3, 0, wReplay 4, [wReplay 5], wS (fun c => { c.wLink { wSub .up with replay := [wReplay 4, wReplay 5] } with now := 200 }), ⟨by decide +kernel, by decide +kernel, by decide +kernel, by decide +kernel, by decide +kernel⟩⟩,
    ⟨3, 0, 0, wS (fun c => { c.wLink { wSub .align with stalledAt := some 0 } with now := 100000 }), ⟨by decide +kernel, by decide +kernel, by decide +kernel, by decide +kernel, by unfold TrainRoom; decide +kernel⟩⟩,
    ⟨3, 0, { lseq := 0, lack := 5, cr0tc := 1, cr0cnt := 9, cr1tc := 7, cr1cnt := 2 }, wS (fun c => c.wLink { wSub .up with replay := [wReplay 4, wReplay 5] }), ⟨by decide +kernel, by decide +kernel⟩⟩,
    ⟨3, 0, 0, wS (fun c => { c.wLink { wSub .up with waitSince := some 0, rxLseq := 9, owed := [3, 0, 0, 0, 0, 0, 0, 0] } with now := 10 }), ⟨by decide +kernel, by decide +kernel, by decide +kernel, by decide +kernel⟩⟩⟩

theorem witness_Transport :
    (∃ (f : Frame) (s : State), s.ctl.mainUp = true ∧ f.kind = kTack ∧ s.ctl.liveInc f.src.toNat f.inc = true ∧ f.dst = 0xFFF ∧ (s.ctl.pair f.src.toNat).waiting = [] ∧ (∀ x ∈ (s.ctl.pair f.src.toNat).unack, x.grant = none))
    ∧ (∃ (e : Fin 4096) (x : Nat) (s : State), (s.ctl.pair e.val).ackSince = some x ∧ x + 50 ≤ s.ctl.now)
    ∧ (∃ (e : Fin 4096) (n : BitVec 24) (x : TxFrame) (s : State), s.ctl.tx? e.val n = some x ∧ x.filled = false ∧ x.sentAt + s.ctl.rd Reg.rtxTimeout ≤ s.ctl.now ∧ x.tries < s.ctl.rd Reg.rtxLimit)
    ∧ (∃ (e : Fin 4096) (n : BitVec 24) (x : TxFrame) (s : State), s.ctl.tx? e.val n = some x ∧ x.filled = false ∧ x.sentAt + s.ctl.rd Reg.rtxTimeout ≤ s.ctl.now ∧ s.ctl.rd Reg.rtxLimit ≤ x.tries ∧ x.frame.isRequest = false)
    ∧ (∃ (e : Fin 4096) (n : BitVec 24) (x : TxFrame) (s : State), s.ctl.tx? e.val n = some x ∧ x.filled = true ∧ x.sentAt + s.ctl.rd Reg.rtxTimeout ≤ s.ctl.now)
    ∧ (∃ (f : Frame) (s : State), s.ctl.mainUp = true ∧ f.kind = kSeqfill ∧ s.ctl.liveInc f.src.toNat f.inc = true) :=
  ⟨⟨{ baseFrame with kind := kTack, src := 5, dst := 0xFFF, ackseq := 8 }, wS (fun c => (c.wLink (wSub .up)).wEp 5 |>.putPair 5 { Pair.init with unack := [wTx, { wTx with seq := 9 }] }), ⟨by decide +kernel, by decide +kernel, by decide +kernel, by decide +kernel, by decide +kernel, by decide +kernel⟩⟩,
    ⟨5, 0, wS (fun c => { (c.wLink (wSub .up)).wEp 5 |>.putPair 5 { Pair.init with ackSince := some 0, rxAck := 3 } with now := 50 }), ⟨by decide +kernel, by decide +kernel⟩⟩,
    ⟨5, 7, wTx, wS (fun c => { (c.wLink (wSub .up)).wEp 5 |>.putPair 5 { Pair.init with unack := [wTx] } with now := 1000000 }), ⟨by decide +kernel, by decide +kernel, by decide +kernel, by decide +kernel⟩⟩,
    ⟨5, 7, { wTx with tries := 200 }, wS (fun c => { (c.wLink (wSub .up)).wEp 5 |>.putPair 5 { Pair.init with unack := [{ wTx with tries := 200 }] } with now := 1000000 }), ⟨by decide +kernel, by decide +kernel, by decide +kernel, by decide +kernel, by decide +kernel⟩⟩,
    ⟨5, 7, { wTx with filled := true }, wS (fun c => { (c.wLink (wSub .up)).wEp 5 |>.putPair 5 { Pair.init with unack := [{ wTx with filled := true }] } with now := 1000000 }), ⟨by decide +kernel, by decide +kernel, by decide +kernel⟩⟩,
    ⟨{ baseFrame with kind := kSeqfill, src := 5, dst := 0xFFF, seq := 7 }, wS (fun c => { (c.wLink (wSub .up)).wEp 5 with tracker := [{ serial := 0, src := 5, bay := 1, dst := 0xFFF, seq := 7, ext := none }] }), ⟨by decide +kernel, by decide +kernel, by decide +kernel⟩⟩⟩

theorem witness_Ingress :
    (∃ (p : Fin 128) (q : Fin 4) (x : RxFrame) (s : State), let sub := s.ctl.sub p.val q.val; let n := innerQueue (innerPort x.frame) x.frame.tc.toNat; s.ctl.mainUp = true ∧ sub.carries = true ∧ x.fcsOk = true ∧ x.etype.toNat = s.ctl.rd (Reg.cfgEtype p.val) ∧ x.frame.kind ≠ kLinkCtl ∧ x.encrypted = sub.enc ∧ x.tagOk = true ∧ x.trailer.lseq = sub.rxLseq ∧ headerOk x = true ∧ sub.eps.contains x.frame.src.toNat = true ∧ s.ctl.liveInc x.frame.src.toNat x.frame.inc = true ∧ x.frame.dst = 0xFFF ∧ (x.frame.sequenced = true → (s.ctl.pair x.frame.src.toNat).fit x.frame.seq = .fresh) ∧ 3 ≤ x.frame.tc.toNat ∧ s.ctl.wouldAdmit n x.frame = true)
    ∧ (∃ (p : Fin 128) (q : Fin 4) (x : RxFrame) (s : State), s.ctl.mainUp = true ∧ (s.ctl.sub p.val q.val).carries = true ∧ x.fcsOk = false)
    ∧ (∃ (p : Fin 128) (q : Fin 4) (k : Fin 3) (h : HeldFrame) (s : State), let n := innerQueue (innerPort h.frame) h.frame.tc.toNat; s.ctl.mainUp = true ∧ (s.ctl.sub p.val q.val).firstHeld k.val = some h ∧ h.frame.dst = 0xFFF ∧ s.ctl.wouldAdmit n h.frame = true)
    ∧ (∃ (i : Nat) (a : Nat) (b : Nat) (k : Nat) (f : Frame) (s : State), s.ctl.mainUp = true ∧ s.ctl.intHeld[i]? = some (a, b, f) ∧ f.kind ≠ kFenced ∧ s.ctl.pathFor f.src.toNat f.dst.toNat f.tc.toNat = some k ∧ s.ctl.wouldAdmit (portQueue (k / 4) f.tc.toNat) f = true)
    ∧ (∃ (p : Fin 128) (q : Fin 4) (k : Fin 3) (h : HeldFrame) (s : State), s.ctl.mainUp = true ∧ (s.ctl.sub p.val q.val).firstHeld k.val = some h ∧ h.since + s.ctl.rd Reg.holdTimeout ≤ s.ctl.now) :=
  ⟨⟨3, 0, { fcsOk := true, tagOk := true, etype := 0x88B5, wireBytes := 66, encrypted := false, trailer := { lseq := 4, lack := 0, cr0tc := 0, cr0cnt := 0, cr1tc := 0, cr1cnt := 0 }, frame := wReq kWrite (nodeAddr 0xFFF 8) [1, 0, 0, 0, 0, 0, 0, 0] }, wS (fun c => c.wBay.putSub 3 0 { wSub .up with rxLseq := 4 }), ⟨by decide +kernel, by decide +kernel, by decide +kernel, by decide +kernel, by decide +kernel, by decide +kernel, by decide +kernel, by decide +kernel, by decide +kernel, by decide +kernel, by decide +kernel, by decide +kernel, by decide +kernel, by decide +kernel, by decide +kernel⟩⟩,
    ⟨3, 0, { fcsOk := false, tagOk := true, etype := 0x88B5, wireBytes := 66, encrypted := false, trailer := { lseq := 4, lack := 0, cr0tc := 0, cr0cnt := 0, cr1tc := 0, cr1cnt := 0 }, frame := wReq kWrite (nodeAddr 0xFFF 8) [1, 0, 0, 0, 0, 0, 0, 0] }, wS (fun c => c.wBay.putSub 3 0 { wSub .up with rxLseq := 4 }), ⟨by decide +kernel, by decide +kernel, by decide +kernel⟩⟩,
    ⟨3, 0, 1, { cls := 1, queue := 1025, sub := 0, frame := { baseFrame with kind := kUpg, tc := 1, src := 5, dst := 0xFFF }, wireBytes := 64, since := 3 }, wS (fun c => c.wBay.putSub 3 0 { wSub .up with held := [{ cls := 1, queue := 1025, sub := 0, frame := { baseFrame with kind := kUpg, tc := 1, src := 5, dst := 0xFFF }, wireBytes := 64, since := 3 }] }), ⟨by decide +kernel, by decide +kernel, by decide +kernel, by decide +kernel⟩⟩,
    ⟨1, 4, 1, 12, { baseFrame with kind := 0x41, tc := 3, dst := 5 }, wS (fun c => { c.wBay.putSub 3 0 (wSub .up) with intHeld := [(0, 0, { baseFrame with kind := 0x40, dst := 5 }), (4, 1, { baseFrame with kind := 0x41, tc := 3, dst := 5 })] }), ⟨by decide +kernel, by decide +kernel, by decide +kernel, by decide +kernel, by decide +kernel⟩⟩,
    ⟨3, 0, 1, { cls := 1, queue := 1025, sub := 0, frame := { baseFrame with kind := kUpg, tc := 1, src := 5, dst := 0xFFF }, wireBytes := 64, since := 3 }, wS (fun c => { c.wBay.putSub 3 0 { wSub .up with held := [{ cls := 1, queue := 1025, sub := 0, frame := { baseFrame with kind := kUpg, tc := 1, src := 5, dst := 0xFFF }, wireBytes := 64, since := 3 }] } with now := 1000000 }), ⟨by decide +kernel, by decide +kernel, by decide +kernel⟩⟩⟩

theorem witness_EgressAndFlask :
    (∃ (p : Fin 128) (q : Fin 4) (k : Nat) (h : QFrame) (s : State), let n := 4 * p.val + q.val; let sub := s.ctl.sub p.val q.val; s.ctl.mainUp = true ∧ (∀ b, (s.ctl.bay b).st ≠ .shakeout) ∧ (∃ i, i < 8 ∧ s.ctl.headReady n i = true) ∧ (s.ctl.pickClass n 1000).2 = some k ∧ s.ctl.schedHead n k = some h)
    ∧ (∃ (s : State), s.ctl.mainUp = true ∧ s.ctl.freeF + s.ctl.flaskLost < 2 ^ 20)
    ∧ (∃ (q : Fin 1152) (v : Word) (s : State), s.ctl.mainUp = true)
    ∧ (∃ (q : Fin 1152) (s : State), s.ctl.mainUp = true)
    ∧ (∃ (s : State), s.ctl.mainUp = true) :=
  ⟨⟨3, 0, 1, { frame := { baseFrame with kind := 0x41, tc := 1, dst := 5 }, cells := 1, stamp := 0, via := none }, wS (fun c => ({ c.wBay.putSub 3 0 { wSub .up with rxLseq := 4, txLseq := 6 } with scheds := Tab.put [] 12 { Sched.init with active := [1] } }).putFq (portQueue 3 1) { FlaskQ.init with s0 := [{ frame := { baseFrame with kind := 0x41, tc := 1, dst := 5 }, cells := 1, stamp := 0, via := none }] }), ⟨by decide +kernel, Ctl.wNoShake (v := { BayRec.init with st := .active, gen := 4, cur := some wMap }) (by decide +kernel) (by decide), ⟨1, by decide +kernel, by decide +kernel⟩, by decide +kernel, by decide +kernel⟩⟩,
    ⟨wS (fun c => { c.wUp.wr Reg.freeCells 1000 with flaskLost := 30 }), ⟨by decide +kernel, by decide +kernel⟩⟩,
    ⟨1000, 0x4005, wS (·.wUp), by decide +kernel⟩,
    ⟨1000, wS (fun c => c.wUp.putReg (Reg.queueBase 1000 + 0x48) 5), by decide +kernel⟩,
    ⟨wS (fun c => c.wUp.wr Reg.freeCells 1000), by decide +kernel⟩⟩

theorem witness_MemoryRequests :
    (∃ (f : Frame) (i : Nat) (k : Nat) (cls : Nat) (old : Bool) (s : State), Arrives s f ∧ f.kind = kRead ∧ s.ctl.check59 f (rlenOf f) (some rightR) = .pass (.flat i) cls old ∧ Lands s f i k ∧ rlenOf f ≤ 4096)
    ∧ (∃ (f : Frame) (i : Nat) (k : Nat) (cls : Nat) (old : Bool) (s : State), Arrives s f ∧ f.kind = kWrite ∧ s.ctl.check59 f f.payload.length (some rightW) = .pass (.flat i) cls old ∧ Lands s f i k)
    ∧ (∃ (f : Frame) (i : Nat) (k : Nat) (cls : Nat) (old : Bool) (s : State), Arrives s f ∧ f.kind = kWrite ∧ f.has flRELEASE = true ∧ s.ctl.check59 f f.payload.length (some rightW) = .pass (.flat i) cls old ∧ Lands s f i k)
    ∧ (∃ (f : Frame) (i : Nat) (k : Nat) (cls : Nat) (old : Bool) (s : State), Arrives s f ∧ f.kind = kWriteInv ∧ s.ctl.check59 f f.payload.length (some rightW) = .pass (.flat i) cls old ∧ Lands s f i k)
    ∧ (∃ (f : Frame) (i : Nat) (k : Nat) (cls : Nat) (old : Bool) (s : State), let op := atomicOf f.payload; let m := s.mem.read k (atomicSize op.ty); let r := atomicApply op.op op.ty (8 * atomicSize op.ty) (leNat m) op.opnd1 op.opnd2; Arrives s f ∧ f.kind = kAtomic ∧ leAt f.payload 0 1 ≠ 0x0F ∧ s.ctl.check59 f (atomicSize op.ty) (some rightA) = .pass (.flat i) cls old ∧ Lands s f i k)
    ∧ (∃ (f : Frame) (m : CMap) (k : Nat) (old : Bool) (p : PegEntry) (s : State), let o1 := (atomicOf f.payload).opnd1; Serves s f ∧ s.ctl.opens = [] ∧ (∀ x ∈ s.ctl.tracker, x.src ≠ f.src.toNat) ∧ f.kind = kAtomic ∧ leAt f.payload 0 1 = 0x0F ∧ s.ctl.checkMember f.bay.toNat f.gen f.src.toNat = .ok (m, k, old) ∧ s.ctl.liveInc f.src.toNat (BitVec.ofNat 8 (field o1 0 8)) = true ∧ s.ctl.pegFind f.src.toNat (BitVec.ofNat 8 (field o1 0 8)) (BitVec.ofNat 16 (field o1 8 16)) = some p ∧ p.done = true ∧ p.status = stOK) :=
  ⟨⟨wReq kRead 0x100010 [4, 0, 0, 0, 0, 0, 0, 0], 0, hbmKey 2 3 + 16, 0, false, wB id, ⟨⟨⟨by decide +kernel, by decide +kernel, by decide +kernel, by decide +kernel, by decide +kernel, by decide +kernel, by decide +kernel⟩, by decide +kernel, by decide +kernel, by decide +kernel⟩, by decide +kernel, by decide +kernel, ⟨⟨16, by decide +kernel⟩, by decide +kernel, by decide +kernel, by decide +kernel, by decide +kernel, by decide +kernel⟩, by decide +kernel⟩⟩,
    ⟨wReq kWrite 0x100010 [4, 5], 0, hbmKey 2 3 + 16, 0, false, wB id, ⟨⟨⟨by decide +kernel, by decide +kernel, by decide +kernel, by decide +kernel, by decide +kernel, by decide +kernel, by decide +kernel⟩, by decide +kernel, by decide +kernel, by decide +kernel⟩, by decide +kernel, by decide +kernel, ⟨⟨16, by decide +kernel⟩, by decide +kernel, by decide +kernel, by decide +kernel, by decide +kernel, by decide +kernel⟩⟩⟩,
    ⟨{ wReq kWrite 0x100010 [4, 5] with flags := flRELEASE }, 0, hbmKey 2 3 + 16, 0, false, wB id, ⟨⟨⟨by decide +kernel, by decide +kernel, by decide +kernel, by decide +kernel, by decide +kernel, by decide +kernel, by decide +kernel⟩, by decide +kernel, by decide +kernel, by decide +kernel⟩, by decide +kernel, by decide +kernel, by decide +kernel, ⟨⟨16, by decide +kernel⟩, by decide +kernel, by decide +kernel, by decide +kernel, by decide +kernel, by decide +kernel⟩⟩⟩,
    ⟨wReq kWriteInv 0x100010 [4, 5], 0, hbmKey 2 3 + 16, 0, false, wB id, ⟨⟨⟨by decide +kernel, by decide +kernel, by decide +kernel, by decide +kernel, by decide +kernel, by decide +kernel, by decide +kernel⟩, by decide +kernel, by decide +kernel, by decide +kernel⟩, by decide +kernel, by decide +kernel, ⟨⟨16, by decide +kernel⟩, by decide +kernel, by decide +kernel, by decide +kernel, by decide +kernel, by decide +kernel⟩⟩⟩,
    ⟨wReq kAtomic 0x100010 ([2, 3] ++ List.replicate 6 0 ++ [5] ++ List.replicate 31 0), 0, hbmKey 2 3 + 16, 0, false, wB id, ⟨⟨⟨by decide +kernel, by decide +kernel, by decide +kernel, by decide +kernel, by decide +kernel, by decide +kernel, by decide +kernel⟩, by decide +kernel, by decide +kernel, by decide +kernel⟩, by decide +kernel, by decide +kernel, by decide +kernel, ⟨⟨16, by decide +kernel⟩, by decide +kernel, by decide +kernel, by decide +kernel, by decide +kernel, by decide +kernel⟩⟩⟩,
    ⟨wReq kAtomic 0 ([0x0F, 0] ++ List.replicate 6 0 ++ [0, 9] ++ List.replicate 30 0), wMap, 0, false, { src := 5, inc := 0, tag := 9, bay := 1, done := true, status := stOK, old := 77, aflags := 1 }, wB (fun c => { c with peg := [{ src := 5, inc := 0, tag := 9, bay := 1, done := true, status := stOK, old := 77, aflags := 1 }] }), ⟨⟨by decide +kernel, by decide +kernel, by decide +kernel, by decide +kernel, by decide +kernel, by decide +kernel, by decide +kernel⟩, by decide +kernel, by decide +kernel, by decide +kernel, by decide +kernel, by rfl, by decide +kernel, by decide +kernel, by decide +kernel, by decide +kernel⟩⟩⟩

theorem witness_ReleasesAndFences :
    (∃ (o : OpenReq) (mark : Nat) (i : Nat) (k : Nat) (cls : Nat) (old : Bool) (s : State), Serves s o.frame ∧ s.ctl.opens = [o] ∧ o.phase = .heldRelease mark ∧ s.ctl.releaseWaits o mark = false ∧ o.frame.kind = kWrite ∧ s.ctl.check59 o.frame o.frame.payload.length (some rightW) = .pass (.flat i) cls old ∧ Lands s o.frame i k)
    ∧ (∃ (o : OpenReq) (mark : Nat) (s : State), Serves s o.frame ∧ s.ctl.open? o.id = some o ∧ o.phase = .heldRelease mark ∧ s.ctl.releaseWaits o mark = true ∧ s.ctl.rd Reg.fenceTimeout ≤ s.ctl.now - o.since ∧ o.frame.kind = kWrite)
    ∧ (∃ (f : Frame) (m : CMap) (k : Nat) (old : Bool) (s : State), Arrives s f ∧ f.kind = kFence ∧ s.ctl.checkMember f.bay.toNat f.gen f.src.toNat = .ok (m, k, old))
    ∧ (∃ (id : Nat) (w : FenceWait) (s : State), s.ctl.fence? id = some w ∧ s.ctl.fenceWaits w = [] ∧ w.frame.kind = kFence ∧ w.frame.dst = 0xFFF ∧ s.ctl.liveInc w.frame.src.toNat w.frame.inc = true)
    ∧ (∃ (id : Nat) (w : FenceWait) (s : State), s.ctl.fence? id = some w ∧ s.ctl.fenceWaits w ≠ [] ∧ w.frame.kind = kFence ∧ w.frame.dst = 0xFFF ∧ s.ctl.liveInc w.frame.src.toNat w.frame.inc = true ∧ s.ctl.rd Reg.fenceTimeout ≤ s.ctl.now - w.since)
    ∧ (∃ (f : Frame) (m : CMap) (k : Nat) (old : Bool) (s : State), let i := field f.addr.toNat 0 20; let n := s.ctl.rd (Reg.winFirst f.bay.toNat) + i; let v := (s.ctl.counter n).toNat; let v' := if leAt f.payload 0 1 = 1 then min (v + leAt f.payload 8 8) (2 ^ 64 - 1) else v; Arrives s f ∧ f.kind = kCtr ∧ s.ctl.checkMember f.bay.toNat f.gen f.src.toNat = .ok (m, k, old) ∧ i < s.ctl.rd (Reg.winCount f.bay.toNat))
    ∧ (∃ (f : Frame) (m : CMap) (cls : Nat) (key : Nat) (old : Bool) (s : State), let r := pubRegion f; let img0 := (s.ctl.regionImg r 0).toNat; let a := (s.ctl.regionImg r (s.ctl.rd (Reg.regionVersion r))).toNat + (f.addr.toNat - img0); Arrives s f ∧ f.kind = kReadPub ∧ rlenOf f ≤ 4096 ∧ s.ctl.checkMember f.bay.toNat f.gen f.src.toNat = .ok (m, cls, old) ∧ s.ctl.regionOk f.bay.toNat cls r rightR = true ∧ img0 ≤ f.addr.toNat ∧ f.addr.toNat + rlenOf f ≤ img0 + s.ctl.regionBytes r ∧ (∃ p, s.ctl.pubSegs f.bay.toNat a (rlenOf f) = [{ key := some key, len := rlenOf f, lost := false, copies := [], parity := none, page := p }]) ∧ keyTray key = none ∧ s.mem.poison = [] ∧ s.ctl.locks = [])
    ∧ (∃ (f : Frame) (m : CMap) (cls : Nat) (old : Bool) (s : State), let r := leAt f.payload 0 2; let w := leAt f.payload 4 4; Arrives s f ∧ f.kind = kPublish ∧ s.ctl.checkMember f.bay.toNat f.gen f.src.toNat = .ok (m, cls, old) ∧ s.ctl.regionOk f.bay.toNat cls r rightP = true ∧ w = (s.ctl.rd (Reg.regionVersion r) + 1) % 2 ^ 32) :=
  ⟨⟨wOpen (wReq kWrite 0x100010 [4, 5]) (.heldRelease 3), 3, 0, hbmKey 2 3 + 16, 0, false, wB (fun c => { c with opens := [wOpen (wReq kWrite 0x100010 [4, 5]) (.heldRelease 3)], tracker := [{ serial := 3, src := 5, bay := 1, dst := 8, seq := 1, ext := some 0 }] }), ⟨⟨by decide +kernel, by decide +kernel, by decide +kernel, by decide +kernel, by decide +kernel, by decide +kernel, by decide +kernel⟩, by decide +kernel, by decide +kernel, by decide +kernel, by decide +kernel, by decide +kernel, ⟨⟨16, by decide +kernel⟩, by decide +kernel, by decide +kernel, by decide +kernel, by decide +kernel, by decide +kernel⟩⟩⟩,
    ⟨wOpen (wReq kWrite 0x100010 [4, 5]) (.heldRelease 3), 3, wB (fun c => { c with now := 10000000, opens := [wOpen (wReq kWrite 0x100010 [4, 5]) (.heldRelease 3)], tracker := [{ serial := 2, src := 5, bay := 1, dst := 8, seq := 1, ext := some 0 }] }), ⟨⟨by decide +kernel, by decide +kernel, by decide +kernel, by decide +kernel, by decide +kernel, by decide +kernel, by decide +kernel⟩, by decide +kernel, by decide +kernel, by decide +kernel, by decide +kernel, by decide +kernel⟩⟩,
    ⟨wReq kFence 0 [], wMap, 0, false, wB id, ⟨⟨⟨by decide +kernel, by decide +kernel, by decide +kernel, by decide +kernel, by decide +kernel, by decide +kernel, by decide +kernel⟩, by decide +kernel, by decide +kernel, by decide +kernel⟩, by decide +kernel, by rfl⟩⟩,
    ⟨4, { id := 4, frame := wReq kFence 0 [], mark := 3, since := 0 }, wB (fun c => { c with fences := [{ id := 4, frame := wReq kFence 0 [], mark := 3, since := 0 }] }), ⟨by decide +kernel, by decide +kernel, by decide +kernel, by decide +kernel, by decide +kernel⟩⟩,
    ⟨4, { id := 4, frame := wReq kFence 0 [], mark := 3, since := 0 }, wB (fun c => { c with now := 10000000, fences := [{ id := 4, frame := wReq kFence 0 [], mark := 3, since := 0 }], tracker := [{ serial := 2, src := 5, bay := 1, dst := 8, seq := 1, ext := some 0 }] }), ⟨by decide +kernel, by decide +kernel, by decide +kernel, by decide +kernel, by decide +kernel, by decide +kernel⟩⟩,
    ⟨wReq kCtr 6 ([1] ++ List.replicate 7 0 ++ [5] ++ List.replicate 7 0), wMap, 0, false, wB (fun c => (c.wr (Reg.winFirst 1) 40).wr (Reg.winCount 1) 7), ⟨⟨⟨by decide +kernel, by decide +kernel, by decide +kernel, by decide +kernel, by decide +kernel, by decide +kernel, by decide +kernel⟩, by decide +kernel, by decide +kernel, by decide +kernel⟩, by decide +kernel, by rfl, by decide +kernel⟩⟩,
    ⟨wReq kReadPub 0x100010 [4, 0, 0, 0, 3, 0, 0, 0], wMap, 0, hbmKey 2 3 + 16, false, wB (fun c => (((((c.wr (Reg.regionValid 3) 1).wr (Reg.regionBay 3) 1).wr (Reg.regionLen 3) 1).putReg (Reg.regionWord 3 0) 0x100000).putReg (Reg.regionWord 3 1) 0x110000)), ⟨⟨⟨by decide +kernel, by decide +kernel, by decide +kernel, by decide +kernel, by decide +kernel, by decide +kernel, by decide +kernel⟩, by decide +kernel, by decide +kernel, by decide +kernel⟩, by decide +kernel, by decide +kernel, by rfl, by decide +kernel, by decide +kernel, by decide +kernel, ⟨16, by decide +kernel⟩, by decide +kernel, by decide +kernel, by decide +kernel⟩⟩,
    ⟨wReq kPublish 0 [3, 0, 0, 0, 1, 0, 0, 0], wMap, 0, false, wB (fun c => (((((c.wr (Reg.regionValid 3) 1).wr (Reg.regionBay 3) 1).wr (Reg.regionLen 3) 1).putReg (Reg.regionWord 3 0) 0x100000).putReg (Reg.regionWord 3 1) 0x110000)), ⟨⟨⟨by decide +kernel, by decide +kernel, by decide +kernel, by decide +kernel, by decide +kernel, by decide +kernel, by decide +kernel⟩, by decide +kernel, by decide +kernel, by decide +kernel⟩, by decide +kernel, by rfl, by decide +kernel, by decide +kernel⟩⟩⟩

theorem witness_AnswersAndWindows :
    (∃ (f : Frame) (o : OpenReq) (s : State), s.ctl.mainUp = true ∧ f.isResponse = true ∧ s.ctl.liveInc f.src.toNat f.inc = true ∧ f.dst ≠ 0xFFF ∧ s.ctl.passOf f = some o ∧ s.ctl.isTray f.src.toNat = false ∧ o.lastAnswer f = true)
    ∧ (∃ (f : Frame) (x : OwnReq) (req : Nat) (key : Nat) (o : OpenReq) (s : State), s.ctl.mainUp = true ∧ f.isResponse = true ∧ f.dst = 0xFFF ∧ s.ctl.liveInc f.src.toNat f.inc = true ∧ s.ctl.ownOf f = some x ∧ x.why = .writeBack req key ∧ f.status = stOK ∧ s.ctl.opens = [o] ∧ o.id = req ∧ s.ctl.owns = [x] ∧ o.frame.dst = 0xFFF ∧ s.ctl.liveInc o.frame.src.toNat o.frame.inc = true ∧ o.frame.kind = kAtomic ∧ o.phase = .atomicWb)
    ∧ (∃ (f : Frame) (x : OwnReq) (i : Nat) (s : State), s.ctl.mainUp = true ∧ f.kind = kSyncRsp ∧ f.dst = 0xFFF ∧ s.ctl.opens = [] ∧ s.ctl.liveInc f.src.toNat f.inc = true ∧ s.ctl.ownOf f = some x ∧ x.why = .extSync i true ∧ f.status = stOK ∧ (s.ctl.ext i).st = .pending)
    ∧ (∃ (f : Frame) (i : Nat) (cls : Nat) (old : Bool) (s : State), let r := kvOfBytes f.bay.toNat i f.payload; Arrives s f ∧ windowFrame f (fun o => decide (0x10000 ≤ o) && decide (o < 0x1000000)) = true ∧ s.ctl.check59 f f.payload.length (some rightW) = .pass (.kv (offsetOf f.addr)) cls old ∧ s.ctl.checkKv f.bay.toNat cls (offsetOf f.addr) f.payload.length true = .table i ∧ s.ctl.kvFind f.bay.toNat i = none ∧ r.capb ≠ 0 ∧ s.ctl.kvDescOk r f.payload = true)
    ∧ (∃ (f : Frame) (n : Nat) (cls : Nat) (old : Bool) (s : State), Arrives s f ∧ windowFrame f (fun o => decide (o < 0x200)) = true ∧ f.payload.length = 8 ∧ offsetOf f.addr % 8 = 0 ∧ s.ctl.check59 f 8 (some rightW) = .pass (.window (offsetOf f.addr)) cls old ∧ s.ctl.slotQueue f.bay.toNat (offsetOf f.addr / 8) = some n)
    ∧ (∃ (f : Frame) (n : Nat) (cls : Nat) (old : Bool) (s : State), Arrives s f ∧ windowFrame f (fun o => decide (o < 0x200)) = true ∧ f.payload.length = 8 ∧ offsetOf f.addr % 8 = 0 ∧ s.ctl.check59 f 8 (some rightW) = .pass (.window (offsetOf f.addr)) cls old ∧ s.ctl.slotQueue f.bay.toNat (offsetOf f.addr / 8) = some n ∧ bitOf (leAt f.payload 0 8) 32 = true ∧ (s.ctl.que n).st = .stopped)
    ∧ (∃ (f : Frame) (cls : Nat) (old : Bool) (s : State), let v := leNat f.payload; Arrives s f ∧ windowFrame f (fun o => o == 0x1040) = true ∧ f.payload.length = 8 ∧ bitOf (leAt f.payload 0 8) 0 = true ∧ v = 1 + field v 16 16 * 65536 ∧ s.ctl.check59 f 8 (some rightW) = .pass (.window 0x1040) cls old ∧ (s.ctl.mbx f.src.toNat).go = false) :=
  ⟨⟨{ baseFrame with kind := 0x41, tc := 3, src := 8, dst := 5, tag := 9 }, wOpen ({ wReq kWrite (nodeAddr 8 64) [1] with dst := 8 }) .passThrough, wB (fun c => { c.wEp 8 with opens := [wOpen ({ wReq kWrite (nodeAddr 8 64) [1] with dst := 8 }) .passThrough], tracker := [{ serial := 2, src := 5, bay := 1, dst := 8, seq := 0, ext := none }] }), ⟨by decide +kernel, by decide +kernel, by decide +kernel, by decide +kernel, by decide +kernel, by decide +kernel, by decide +kernel⟩⟩,
    ⟨{ baseFrame with kind := 0x41, tc := 3, src := 8, dst := 0xFFF, tag := 3 }, wOwn kWrite (.writeBack 0 77), 0, 77, { wOpen (wReq kAtomic 0x100010 ([2, 3] ++ List.replicate 38 0)) .atomicWb with parts := [(0, [4, 0, 0, 0, 0, 0, 0, 0])] }, wB (fun c => { c.wEp 8 with opens := [{ wOpen (wReq kAtomic 0x100010 ([2, 3] ++ List.replicate 38 0)) .atomicWb with parts := [(0, [4, 0, 0, 0, 0, 0, 0, 0])] }], owns := [wOwn kWrite (.writeBack 0 77)], locks := [{ line := 4, req := 0 }] }), ⟨by decide +kernel, by decide +kernel, by decide +kernel, by decide +kernel, by decide +kernel, by decide +kernel, by decide +kernel, by decide +kernel, by decide +kernel, by decide +kernel, by decide +kernel, by decide +kernel, by decide +kernel, by decide +kernel⟩⟩,
    ⟨{ baseFrame with kind := kSyncRsp, tc := 3, src := 8, dst := 0xFFF, tag := 3 }, wOwn 0x18 (.extSync 4 true), 4, wB (fun c => { (c.wEp 8).putExt 4 { wExt with st := .pending, base := nodeAddr 8 0, limit := nodeAddr 8 0x10000 } with owns := [wOwn 0x18 (.extSync 4 true)] }), ⟨by decide +kernel, by decide +kernel, by decide +kernel, by decide +kernel, by decide +kernel, by decide +kernel, by decide +kernel, by decide +kernel, by decide +kernel⟩⟩,
    ⟨wReq kWrite (nodeAddr 0xFFF 0x10030) [0, 0, 0, 1, 0, 0, 0, 0, 16, 0, 16, 0, 0, 0, 0, 0], 3, 0, false, wB (fun c => c.wr (Reg.kvsCount 1) 8), ⟨⟨⟨by decide +kernel, by decide +kernel, by decide +kernel, by decide +kernel, by decide +kernel, by decide +kernel, by decide +kernel⟩, by decide +kernel, by decide +kernel, by decide +kernel⟩, by decide +kernel, by decide +kernel, by decide +kernel, by decide +kernel, by decide +kernel, by decide +kernel⟩⟩,
    ⟨wReq kWrite (nodeAddr 0xFFF 16) [3, 0, 0, 0, 0, 0, 0, 0], 7, 0, false, wB (fun c => c.wQue 7 { Que.init with st := .running }), ⟨⟨⟨by decide +kernel, by decide +kernel, by decide +kernel, by decide +kernel, by decide +kernel, by decide +kernel, by decide +kernel⟩, by decide +kernel, by decide +kernel, by decide +kernel⟩, by decide +kernel, by decide +kernel, by decide +kernel, by decide +kernel, by decide +kernel⟩⟩,
    ⟨wReq kWrite (nodeAddr 0xFFF 16) [3, 0, 0, 0, 1, 0, 0, 0], 7, 0, false, wB (fun c => c.wQue 7 { Que.init with st := .stopped }), ⟨⟨⟨by decide +kernel, by decide +kernel, by decide +kernel, by decide +kernel, by decide +kernel, by decide +kernel, by decide +kernel⟩, by decide +kernel, by decide +kernel, by decide +kernel⟩, by decide +kernel, by decide +kernel, by decide +kernel, by decide +kernel, by decide +kernel, by decide +kernel, by decide +kernel⟩⟩,
    ⟨wReq kWrite (nodeAddr 0xFFF 0x1040) [1, 0, 5, 0, 0, 0, 0, 0], 0, false, wB id, ⟨⟨⟨by decide +kernel, by decide +kernel, by decide +kernel, by decide +kernel, by decide +kernel, by decide +kernel, by decide +kernel⟩, by decide +kernel, by decide +kernel, by decide +kernel⟩, by decide +kernel, by decide +kernel, by decide +kernel, by decide +kernel, by decide +kernel, by decide +kernel⟩⟩⟩

theorem witness_GrantsAndWriteBacks :
    (∃ (f : Frame) (i : Nat) (slot : Nat) (cls : Nat) (old : Bool) (b : List Byte) (s : State), FirstGrant s f i slot cls old b ∧ f.kind = kRdS)
    ∧ (∃ (f : Frame) (i : Nat) (slot : Nat) (cls : Nat) (old : Bool) (b : List Byte) (s : State), FirstGrant s f i slot cls old b ∧ f.kind = kRdX)
    ∧ (∃ (f : Frame) (i : Nat) (slot : Nat) (cls : Nat) (old : Bool) (b : List Byte) (s : State), FirstGrant s f i slot cls old b ∧ f.kind = kUpg)
    ∧ (∃ (f : Frame) (i : Nat) (slot : Nat) (cls : Nat) (k : Nat) (old : Bool) (e : DirEnt) (s : State), Arrives s f ∧ f.kind = kWbM ∧ s.ctl.check59 f 128 (some rightW) = .pass (.flat i) cls old ∧ CohLine s f i slot k e ∧ e.st = .M ∧ e.owner = slot ∧ e.trans = none)
    ∧ (∃ (f : Frame) (i : Nat) (slot : Nat) (cls : Nat) (k : Nat) (old : Bool) (e : DirEnt) (s : State), Arrives s f ∧ f.kind = kWbE ∧ s.ctl.check59 f 128 none = .pass (.flat i) cls old ∧ CohLine s f i slot k e ∧ e.st = .E ∧ e.owner = slot ∧ e.trans = none) :=
  ⟨⟨wAck kRdS [], 0, 2, 0, false, wLine, { wS (fun c => c.wCoh) with mem := { cells := [(hbmKey 2 3 + 16, 7), (hbmKey 2 3 + 17, 9)], poison := [] } }, ⟨⟨⟨⟨by decide +kernel, by decide +kernel, by decide +kernel, by decide +kernel, by decide +kernel, by decide +kernel, by decide +kernel⟩, by decide +kernel, by decide +kernel, by decide +kernel⟩, by decide +kernel, by decide +kernel, by decide +kernel, by decide +kernel, by decide +kernel, by decide +kernel, by decide +kernel, by decide +kernel⟩, by decide +kernel⟩⟩,
    ⟨wAck kRdX [], 0, 2, 0, false, wLine, { wS (fun c => c.wCoh) with mem := { cells := [(hbmKey 2 3 + 16, 7), (hbmKey 2 3 + 17, 9)], poison := [] } }, ⟨⟨⟨⟨by decide +kernel, by decide +kernel, by decide +kernel, by decide +kernel, by decide +kernel, by decide +kernel, by decide +kernel⟩, by decide +kernel, by decide +kernel, by decide +kernel⟩, by decide +kernel, by decide +kernel, by decide +kernel, by decide +kernel, by decide +kernel, by decide +kernel, by decide +kernel, by decide +kernel⟩, by decide +kernel⟩⟩,
    ⟨wAck kUpg [], 0, 2, 0, false, wLine, { wS (fun c => c.wCoh) with mem := { cells := [(hbmKey 2 3 + 16, 7), (hbmKey 2 3 + 17, 9)], poison := [] } }, ⟨⟨⟨⟨by decide +kernel, by decide +kernel, by decide +kernel, by decide +kernel, by decide +kernel, by decide +kernel, by decide +kernel⟩, by decide +kernel, by decide +kernel, by decide +kernel⟩, by decide +kernel, by decide +kernel, by decide +kernel, by decide +kernel, by decide +kernel, by decide +kernel, by decide +kernel, by decide +kernel⟩, by decide +kernel⟩⟩,
    ⟨wAck kWbM (List.replicate 128 3), 0, 2, 0, hbmKey 2 3, false, wEnt .M none, wC .M none, ⟨⟨⟨by decide +kernel, by decide +kernel, by decide +kernel, by decide +kernel, by decide +kernel, by decide +kernel, by decide +kernel⟩, by decide +kernel, by decide +kernel, by decide +kernel⟩, by decide +kernel, by decide +kernel, ⟨by decide +kernel, by decide +kernel, by decide +kernel, by decide +kernel, ⟨16, by decide +kernel⟩, by decide +kernel, by decide +kernel, by decide +kernel⟩, by decide +kernel, by decide +kernel, by decide +kernel⟩⟩,
    ⟨wAck kWbE [], 0, 2, 0, hbmKey 2 3, false, wEnt .E none, wC .E none, ⟨⟨⟨by decide +kernel, by decide +kernel, by decide +kernel, by decide +kernel, by decide +kernel, by decide +kernel, by decide +kernel⟩, by decide +kernel, by decide +kernel, by decide +kernel⟩, by decide +kernel, by decide +kernel, ⟨by decide +kernel, by decide +kernel, by decide +kernel, by decide +kernel, ⟨16, by decide +kernel⟩, by decide +kernel, by decide +kernel, by decide +kernel⟩, by decide +kernel, by decide +kernel, by decide +kernel⟩⟩⟩

theorem witness_AnswersAndDomains :
    (∃ (f : Frame) (slot : Nat) (e : DirEnt) (tr : Trans) (s : State), Awaited s f slot e tr ∧ f.kind = kInvAck ∧ tr.why = .removal ∧ e.st = .S ∧ e.pres = slotBit slot ∧ f.payload = [])
    ∧ (∃ (f : Frame) (slot : Nat) (e : DirEnt) (tr : Trans) (s : State), Awaited s f slot e tr ∧ f.kind = kFwdAck ∧ tr.why = .unitAccess ∧ e.st = .E ∧ e.owner = slot ∧ slot < 64 ∧ e.pres = slotBit slot ∧ tr.wbp = false ∧ bitOf f.addr.toNat 0 = false ∧ f.payload = [])
    ∧ (∃ (f : Frame) (slot : Nat) (i : Nat) (k : Nat) (p : Nat) (e : DirEnt) (tr : Trans) (s : State), Awaited s f slot e tr ∧ f.kind = kData ∧ tr.why = .removal ∧ e.st = .M ∧ e.owner = slot ∧ e.pres = slotBit slot ∧ tr.wbp = false ∧ bitOf f.addr.toNat 0 = false ∧ f.payload.length = 128 ∧ s.ctl.lineTarget e.line = some (.flat i) ∧ lineBay e.line = f.bay.toNat ∧ s.ctl.targetSegs f.bay.toNat (.flat i) (lineAddr e.line) 128 = [{ key := some k, len := 128, lost := false, copies := [], parity := none, page := p }] ∧ keyTray k = none ∧ s.mem.poison = [])
    ∧ (∃ (bay : Fin 4096) (a : Word) (slot : Fin 64) (e : DirEnt) (tr : Trans) (s : State), s.ctl.mainUp = true ∧ s.ctl.opens = [] ∧ s.ctl.entOf (lineKeyOf bay.val (BitVec.ofNat 64 (a.toNat / 128 * 128))) = some e ∧ e.trans = some tr ∧ tr.await.contains slot.val = true ∧ tr.since + s.ctl.rd Reg.ackTimeout ≤ s.ctl.now ∧ (s.ctl.dom e.dom).st = .up)
    ∧ (∃ (d : Fin 64) (s : State), s.ctl.mainUp = true ∧ s.ctl.rd Reg.dirBusy = 0 ∧ s.ctl.createErr d.val = 0)
    ∧ (∃ (d : Fin 64) (a : Fin 64) (s : State), s.ctl.mainUp = true ∧ s.ctl.rd Reg.dirBusy = 0 ∧ s.ctl.addAgentErr d.val a.val = 0 ∧ (∀ x ∈ (s.ctl.dom d.val).agents, x.1 ≠ a.val))
    ∧ (∃ (d : Fin 64) (s : State), s.ctl.mainUp = true ∧ s.ctl.rd Reg.dirBusy = 0 ∧ (s.ctl.dom d.val).st = .up)
    ∧ (∃ (d : Fin 64) (s : State), s.ctl.mainUp = true ∧ (s.ctl.dom d.val).st = .draining ∧ (∀ x ∈ s.ctl.dir, x.dom ≠ d.val)) :=
  ⟨⟨wAck kInvAck [], 2, wEnt .S (some (wTrans .removal)), wTrans .removal, wC .S (some (wTrans .removal)), ⟨⟨by decide +kernel, by decide +kernel, by decide +kernel, by decide +kernel, by decide +kernel, by decide +kernel, by decide +kernel, by decide +kernel⟩, by decide +kernel, by decide +kernel, by decide +kernel, by decide +kernel, by decide +kernel⟩⟩,
    ⟨wAck kFwdAck [], 2, wEnt .E (some (wTrans .unitAccess)), wTrans .unitAccess, wC .E (some (wTrans .unitAccess)), ⟨⟨by decide +kernel, by decide +kernel, by decide +kernel, by decide +kernel, by decide +kernel, by decide +kernel, by decide +kernel, by decide +kernel⟩, by decide +kernel, by decide +kernel, by decide +kernel, by decide +kernel, by decide +kernel, by decide +kernel, by decide +kernel, by decide +kernel, by decide +kernel⟩⟩,
    ⟨wAck kData (List.replicate 128 3), 2, 0, hbmKey 2 3, 16, wEnt .M (some (wTrans .removal)), wTrans .removal, wC .M (some (wTrans .removal)), ⟨⟨by decide +kernel, by decide +kernel, by decide +kernel, by decide +kernel, by decide +kernel, by decide +kernel, by decide +kernel, by decide +kernel⟩, by decide +kernel, by decide +kernel, by decide +kernel, by decide +kernel, by decide +kernel, by decide +kernel, by decide +kernel, by decide +kernel, by decide +kernel, by decide +kernel, by decide +kernel, by decide +kernel, by decide +kernel⟩⟩,
    ⟨1, 0x100000, 2, wEnt .M (some (wTrans .removal)), wTrans .removal, { wC .M (some (wTrans .removal)) with ctl := { (wC .M (some (wTrans .removal))).ctl with now := 10000000 } }, ⟨by decide +kernel, by decide +kernel, by decide +kernel, by decide +kernel, by decide +kernel, by decide +kernel, by decide +kernel⟩⟩,
    ⟨10, wS (fun c => (((c.wBay.wr (Reg.domBay 10) 1).wr (Reg.agentEp 10 4) 5).wr (Reg.agentValid 10 4) 1).wr (Reg.epClass 5) 0), ⟨by decide +kernel, by decide +kernel, by decide +kernel⟩⟩,
    ⟨9, 4, wS (fun c => ((c.wCoh.putDom 9 { st := .up, bay := 1, cause := 0, causeEp := 0, agents := [(3, 6)] }).wr (Reg.agentEp 9 4) 5).wr (Reg.agentValid 9 4) 1), ⟨by decide +kernel, by decide +kernel, by decide +kernel, by decide +kernel⟩⟩,
    ⟨9, wC .M none, ⟨by decide +kernel, by decide +kernel, by decide +kernel⟩⟩,
    ⟨9, wS (fun c => ((c.wCoh.putDom 9 { st := .draining, bay := 1, cause := 0, causeEp := 0, agents := [(3, 6)] }).wr Reg.dirDom 9).wr Reg.dirBusy 1), ⟨by decide +kernel, by decide +kernel, by decide +kernel⟩⟩⟩

theorem witness_ExtentCommands :
    (∃ (i : Fin 65536) (s : State), let e := s.ctl.stagedExt.1; let far := isNode e.base && s.ctl.isTray (nodeOf e.base) && (s.ctl.ep (nodeOf e.base)).live; s.ctl.mainUp = true ∧ s.ctl.rd Reg.extBusy = 0 ∧ s.ctl.extErrOf i.val e = 0)
    ∧ (∃ (i : Fin 65536) (s : State), s.ctl.mainUp = true ∧ s.ctl.rd Reg.extBusy = 0 ∧ (s.ctl.ext i.val).st = .active)
    ∧ (∃ (i : Fin 65536) (s : State), s.ctl.mainUp = true ∧ (s.ctl.ext i.val).st = .revoking ∧ s.ctl.inflight i.val = 0 ∧ (s.ctl.ext i.val).dropped = false ∧ (isNode (s.ctl.ext i.val).base && s.ctl.isTray (nodeOf (s.ctl.ext i.val).base) && (s.ctl.ep (nodeOf (s.ctl.ext i.val).base)).live) = false)
    ∧ (∃ (i : Fin 65536) (s : State), s.ctl.mainUp = true ∧ (s.ctl.ext i.val).st = .revoking ∧ (s.ctl.ext i.val).dropped = false ∧ (s.ctl.ext i.val).revAt + s.ctl.rd Reg.revokeTimeout ≤ s.ctl.now ∧ s.ctl.opens = [] ∧ isNode (s.ctl.ext i.val).base = true ∧ (s.ctl.ext i.val).backing = false ∧ (s.ctl.isTray (nodeOf (s.ctl.ext i.val).base) && (s.ctl.ep (nodeOf (s.ctl.ext i.val).base)).live) = false) :=
  ⟨⟨7, wS (fun c => ((c.wBay.putReg (Reg.extStage 0) 0x300000).putReg (Reg.extStage 1) 0x400000).putReg (Reg.extStage 2) 0xFFFFF001), ⟨by decide +kernel, by decide +kernel, by decide +kernel⟩⟩,
    ⟨0, wB id, ⟨by decide +kernel, by decide +kernel, by decide +kernel⟩⟩,
    ⟨0, wB (fun c => c.putExt 0 { wExt with st := .revoking }), ⟨by decide +kernel, by decide +kernel, by decide +kernel, by decide +kernel, by decide +kernel⟩⟩,
    ⟨4, wB (fun c => { c.putExt 4 { wExt with base := nodeAddr 8 0, limit := nodeAddr 8 0x10000, st := .revoking } with now := 100000000 }), ⟨by decide +kernel, by decide +kernel, by decide +kernel, by decide +kernel, by decide +kernel, by decide +kernel, by decide +kernel, by decide +kernel⟩⟩⟩

theorem witness_MapsAndEndpoints :
    (∃ (b : Fin 4096) (s : State), s.ctl.mainUp = true ∧ s.ctl.rd Reg.cmpBusy = 0 ∧ s.ctl.cmpErrOf b.val (parseMap s.mem) = 0 ∧ s.ctl.opens = [])
    ∧ (∃ (b : Fin 4096) (s : State), s.ctl.mainUp = true ∧ s.ctl.oldInflight b.val = 0 ∧ s.ctl.opens = [] ∧ (s.ctl.bay b.val).old.isSome = true ∧ (s.ctl.bay b.val).cur.isSome = true)
    ∧ (∃ (b : Fin 4096) (s : State), s.ctl.mainUp = true ∧ (s.ctl.bay b.val).oldAt + s.ctl.rd Reg.cmpGrace ≤ s.ctl.now ∧ s.ctl.opens = [] ∧ (s.ctl.bay b.val).old.isSome = true ∧ (s.ctl.bay b.val).cur.isSome = true)
    ∧ (∃ (b : Fin 4096) (s : State), s.ctl.mainUp = true ∧ s.ctl.rd Reg.cmpBusy = 0 ∧ s.ctl.opens = [] ∧ (s.ctl.bay b.val).old.isSome = true ∧ (s.ctl.bay b.val).cur.isSome = true)
    ∧ (∃ (e : Fin 4095) (v : Word) (s : State), s.ctl.mainUp = true ∧ bitOf v.toNat 0 = true)
    ∧ (∃ (e : Fin 4095) (v : Word) (s : State), s.ctl.mainUp = true ∧ bitOf v.toNat 0 = false ∧ (s.ctl.ep e.val).live = false ∧ s.ctl.opens = [])
    ∧ (∃ (b : Fin 4096) (v : Word) (s : State), let first := field v.toNat 0 20; let count := min (field v.toNat 32 21) (1048576 - first); s.ctl.mainUp = true ∧ (s.ctl.bay b.val).st = .free ∧ (∀ o : Fin 4096, o ≠ b → ¬ (first < s.ctl.rd (Reg.winFirst o.val) + s.ctl.rd (Reg.winCount o.val) ∧ s.ctl.rd (Reg.winFirst o.val) < first + count))) :=
  ⟨⟨1, { wS (fun c => (c.wBay.wr (Reg.epEnable 5) 1)) with mem := { cells := [(stageKey 0, 1), (stageKey 16, 5)], poison := [] } }, ⟨by decide +kernel, by decide +kernel, by decide +kernel, by decide +kernel⟩⟩,
    ⟨1, wS (fun c => { c.wBay.putBay 1 { BayRec.init with st := .active, gen := 4, cur := some wMap, old := some { wMap with gen := 3 } } with now := 100000000 }), ⟨by decide +kernel, by decide +kernel, by decide +kernel, by decide +kernel, by decide +kernel⟩⟩,
    ⟨1, wS (fun c => { c.wBay.putBay 1 { BayRec.init with st := .active, gen := 4, cur := some wMap, old := some { wMap with gen := 3 } } with now := 100000000 }), ⟨by decide +kernel, by decide +kernel, by decide +kernel, by decide +kernel, by decide +kernel⟩⟩,
    ⟨1, wS (fun c => { c.wBay.putBay 1 { BayRec.init with st := .active, gen := 4, cur := some wMap, old := some { wMap with gen := 3 } } with now := 100000000 }), ⟨by decide +kernel, by decide +kernel, by decide +kernel, by decide +kernel, by decide +kernel⟩⟩,
    ⟨8, 0x3, wS (·.wUp), ⟨by decide +kernel, by decide +kernel⟩⟩,
    ⟨8, 2, wS (fun c => c.wUp.wr (Reg.epEnable 8) 1), ⟨by decide +kernel, by decide +kernel, by decide +kernel, by decide +kernel⟩⟩,
    ⟨2, 0x700000003, wS (·.wUp), ⟨by decide +kernel, by decide +kernel, (by
    intro o _
    simp only [Ctl.rd, Reg.winFirst, Reg.winCount]
    rw [Ctl.wUnlisted (lo := 0x06002000) (hi := 0x0600A000) (by decide +kernel) (by omega) (by omega), regReset_window (by omega)]
    decide)⟩⟩⟩

theorem witness_Migration :
    (∃ (b : Fin 4096) (p : BitVec 36) (goal : Tier) (d : Ctl) (s : State), let m : Mig := { page := .flat b p, target := goal, urgent := false }; let pg := s.ctl.page b.val p.toNat; s.ctl.mainUp = true ∧ s.ctl.migsRunning < 256 ∧ s.ctl.migQ = [m] ∧ s.ctl.refDegraded m.page = false ∧ pg.loc.tier ≠ .none ∧ pg.lost = false ∧ pg.migrating = false ∧ pg.dest.tier = .none ∧ pg.loc.tier ≠ goal ∧ s.ctl.startFlat m b.val p.toNat = some d)
    ∧ (∃ (b : Fin 4096) (p : BitVec 36) (d : Nat) (k : Nat) (s : State), let pg := s.ctl.page b.val p.toNat; s.ctl.mainUp = true ∧ pg.migrating = true ∧ s.ctl.locKey pg.dest = some d ∧ s.ctl.locKey pg.loc = some k)
    ∧ (∃ (b : Fin 4096) (p : BitVec 36) (k : Nat) (s : State), let pg := s.ctl.page b.val p.toNat; s.ctl.mainUp = true ∧ pg.migrating = false ∧ pg.dest.tier ≠ .none ∧ s.ctl.locKey pg.dest = some k ∧ s.ctl.owns = []) :=
  ⟨⟨1, 16, .ddr, ((wB (fun c => { (c.wr (Reg.ddrQuota 1) 100).wr (Reg.ddrState 0) 1 |>.wr (Reg.ddrSlots 0) 1000 with migQ := [{ page := .flat 1 16, target := .ddr, urgent := false }], phys := { c.phys with sweptDdr := List.replicate 12 1000 } })).ctl.startFlat { page := .flat 1 16, target := .ddr, urgent := false } 1 16).getD (wB (fun c => { (c.wr (Reg.ddrQuota 1) 100).wr (Reg.ddrState 0) 1 |>.wr (Reg.ddrSlots 0) 1000 with migQ := [{ page := .flat 1 16, target := .ddr, urgent := false }], phys := { c.phys with sweptDdr := List.replicate 12 1000 } })).ctl, wB (fun c => { (c.wr (Reg.ddrQuota 1) 100).wr (Reg.ddrState 0) 1 |>.wr (Reg.ddrSlots 0) 1000 with migQ := [{ page := .flat 1 16, target := .ddr, urgent := false }], phys := { c.phys with sweptDdr := List.replicate 12 1000 } }), ⟨by decide +kernel, by decide +kernel, by decide +kernel, by decide +kernel, by decide +kernel, by decide +kernel, by decide +kernel, by decide +kernel, by decide +kernel, by decide +kernel⟩⟩,
    ⟨1, 16, ddrKey 0 0, hbmKey 2 3, wB (fun c => c.putPage 1 16 ({ wPage with migrating := true, dest := { tier := .ddr, a := 0, b := 0 } })), ⟨by decide +kernel, by decide +kernel, by decide +kernel, by decide +kernel⟩⟩,
    ⟨1, 16, ddrKey 0 0, wB (fun c => { c.putPage 1 16 { { wPage with migrating := true, dest := { tier := .ddr, a := 0, b := 0 } } with migrating := false } with phys := { c.phys with used := [hbmKey 2 3, ddrKey 0 0] } }), ⟨by decide +kernel, by decide +kernel, by decide +kernel, by decide +kernel, by decide +kernel⟩⟩⟩

theorem witness_ZeroingAndScrub :
    (∃ (k : Nat) (s : State), s.ctl.mainUp = true ∧ k ∈ s.ctl.phys.dirty ∧ k ∉ s.ctl.phys.failedZero ∧ s.ctl.reachable k = true)
    ∧ (∃ (k : Nat) (s : State), s.ctl.mainUp = true ∧ k ∈ s.ctl.phys.dirty)
    ∧ (∃ (found : List ScrubFinding) (s : State), s.ctl.mainUp = true)
    ∧ (∃ (r : Fin 65536) (v : Word) (s : State), s.ctl.mainUp = true ∧ s.ctl.rd (Reg.regionValid r.val) = 0)
    ∧ (∃ (r : Fin 65536) (w : Fin 3) (v : Word) (s : State), s.ctl.mainUp = true ∧ s.ctl.rd (Reg.regionValid r.val) = 0 ∧ w.val < 2)
    ∧ (∃ (page : PageRef) (s : State), s.ctl.mainUp = true ∧ s.ctl.refDegraded page = true ∧ (∃ m ∈ s.ctl.migQ, m.urgent = true ∧ m.page = page) ∧ (s.rebuildPage page).ctl.refDegraded page = false)
    ∧ (∃ (x : Nat) (y : Nat) (z : Nat) (s : State), s.ctl.mainUp = true ∧ s.ctl.phys.copyA = some x ∧ s.ctl.rd (Reg.hbmState x) = 0 ∧ s.ctl.phys.copyB = some y ∧ s.ctl.rd (Reg.hbmState y) ≠ 0 ∧ s.ctl.copyStack false (some y) = some z ∧ s.ctl.copyFits z = true) :=
  ⟨⟨hbmKey 2 3, wB (fun c => { c with phys := { c.phys with used := [], dirty := [hbmKey 2 3] } }), ⟨by decide +kernel, by decide +kernel, by decide +kernel, by decide +kernel⟩⟩,
    ⟨hbmKey 2 3, wB (fun c => { c with phys := { c.phys with used := [], dirty := [hbmKey 2 3] } }), ⟨by decide +kernel, by decide +kernel⟩⟩,
    ⟨[.uncorr 5, .corr 9], wB id, by decide +kernel⟩,
    ⟨77, 0x8000000000001001, wB id, ⟨by decide +kernel, by decide +kernel⟩⟩,
    ⟨77, 1, 0x123456, wB id, ⟨by decide +kernel, by decide +kernel, by decide +kernel⟩⟩,
    ⟨.flat 1 16, wB (fun c => { ((c.putPage 1 16 { wPage with alt := { tier := .hbm, a := 5, b := 0 } }).putExt 0 { wExt with redun := 1 }).wr (Reg.hbmState 2) 0 with migQ := [{ page := .flat 1 16, target := .hbm, urgent := true }], phys := { c.phys with used := [hbmKey 2 3, hbmKey 5 0] } }), ⟨by decide +kernel, by decide +kernel, by decide +kernel, by decide +kernel⟩⟩,
    ⟨0, 4, 1, wB (fun c => c.wr (Reg.hbmState 0) 0), ⟨by decide +kernel, by decide +kernel, by decide +kernel, by decide +kernel, by decide +kernel, by decide +kernel, by decide +kernel⟩⟩⟩

theorem witness_StacksAndChannels :
    (∃ (x : Fin 8) (b : Fin 4096) (p : BitVec 36) (pg : PageEntry) (s : State), s.ctl.mainUp = true ∧ s.ctl.rd (Reg.hbmState x.val) ≠ 0 ∧ s.ctl.tier = [(pageKey b.val p.toNat, pg)] ∧ s.ctl.kvPages = [] ∧ s.ctl.pageRedun b.val p.toNat = 0 ∧ pg.loc.tier = .hbm ∧ pg.loc.a = x.val ∧ pg.loc.b < 2 ^ 20 ∧ pg.dest.tier = .none)
    ∧ (∃ (x : Fin 8) (s : State), s.ctl.mainUp = true ∧ s.ctl.rd Reg.hbmBusy = 0 ∧ s.ctl.rd (Reg.hbmState x.val) = 1 ∧ s.ctl.tier = [] ∧ s.ctl.kvPages = [] ∧ s.ctl.coded = [] ∧ s.ctl.rsas = [] ∧ s.ctl.phys.copyA ≠ some x.val ∧ s.ctl.phys.copyB ≠ some x.val ∧ (∀ k ∈ s.ctl.phys.used, s.ctl.onUnit (.hbm x) k = false))
    ∧ (∃ (x : Fin 8) (s : State), s.ctl.mainUp = true ∧ s.ctl.rd Reg.hbmBusy = 0 ∧ s.ctl.rd (Reg.hbmState x.val) = 0)
    ∧ (∃ (x : Fin 8) (s : State), s.ctl.mainUp = true ∧ s.ctl.rd (Reg.hbmState x.val) = 3 ∧ s.ctl.tier = [] ∧ s.ctl.kvPages = [])
    ∧ (∃ (x : Fin 8) (s : State), s.ctl.mainUp = true ∧ s.ctl.rd (Reg.hbmState x.val) = 3)
    ∧ (∃ (x : Fin 12) (s : State), s.ctl.mainUp = true ∧ s.ctl.rd Reg.ddrBusy = 0 ∧ s.ctl.rd (Reg.ddrState x.val) = 1 ∧ s.ctl.tier = [] ∧ s.ctl.kvPages = [] ∧ s.ctl.coded = [] ∧ s.ctl.rsas = [] ∧ (∀ k ∈ s.ctl.phys.used, k < 2 ^ 44 ∨ 2 ^ 58 ≤ k))
    ∧ (∃ (x : Fin 12) (s : State), s.ctl.mainUp = true ∧ s.ctl.rd Reg.ddrBusy = 0 ∧ s.ctl.rd (Reg.ddrState x.val) = 0)
    ∧ (∃ (x : Fin 12) (slots : Nat) (s : State), s.ctl.mainUp = true ∧ s.ctl.phys.restoring = some x ∧ s.ctl.tier = [] ∧ s.ctl.kvPages = [] ∧ slots < 2 ^ 22) :=
  ⟨⟨2, 1, 16, wPage, wB id, ⟨by decide +kernel, by decide +kernel, by decide +kernel, by decide +kernel, by decide +kernel, by decide +kernel, by decide +kernel, by decide +kernel, by decide +kernel⟩⟩,
    ⟨6, wB (fun c => { c with tier := [] }), ⟨by decide +kernel, by decide +kernel, by decide +kernel, by decide +kernel, by decide +kernel, by decide +kernel, by decide +kernel, by decide +kernel, by decide +kernel, by decide +kernel⟩⟩,
    ⟨6, wB (fun c => c.wr (Reg.hbmState 6) 0), ⟨by decide +kernel, by decide +kernel, by decide +kernel⟩⟩,
    ⟨2, { wB (fun c => { c.wr (Reg.hbmState 2) 3 with tier := [], phys := { c.phys with used := [] } }) with pending := [] }, ⟨by decide +kernel, by decide +kernel, by decide +kernel, by decide +kernel⟩⟩,
    ⟨2, wB (fun c => { c.wr (Reg.hbmState 2) 3 with tier := [] }), ⟨by decide +kernel, by decide +kernel⟩⟩,
    ⟨3, wB (fun c => { c.wr (Reg.ddrState 3) 1 with tier := [] }), ⟨by decide +kernel, by decide +kernel, by decide +kernel, by decide +kernel, by decide +kernel, by decide +kernel, by decide +kernel, by decide +kernel⟩⟩,
    ⟨3, wB id, ⟨by decide +kernel, by decide +kernel, by decide +kernel⟩⟩,
    ⟨3, 1000, wB (fun c => { c with tier := [], phys := { c.phys with restoring := some 3 } }), ⟨by decide +kernel, by decide +kernel, by decide +kernel, by decide +kernel, by decide +kernel⟩⟩⟩

theorem witness_StacksAndChannels_2 :
    ∃ (s : State), s.ctl.mainUp = true ∧ s.ctl.rd Reg.ddrBusy = 0 ∧ s.ctl.tier = [] ∧ s.ctl.kvPages = [] ∧ s.ctl.coded = [] ∧ s.ctl.rsas = [] ∧ s.ctl.phys.evac = none ∧ s.ctl.phys.restoring = none ∧ (∀ k ∈ s.ctl.phys.used, k < 2 ^ 44 ∨ 2 ^ 58 ≤ k) :=
  ⟨wB (fun c => { c with tier := [] }), ⟨by decide +kernel, by decide +kernel, by decide +kernel, by decide +kernel, by decide +kernel, by decide +kernel, by decide +kernel, by decide +kernel, by decide +kernel⟩⟩

theorem witness_KvSpaceCommands :
    (∃ (b : Fin 4096) (i : Nat) (s : State) (r : KvRegion), s.ctl.mainUp = true ∧ s.ctl.kvFind b.val i = some r ∧ r.dying.isSome = true ∧ s.ctl.kvNamed b.val i = false)
    ∧ (∃ (b : Fin 4096) (i : Nat) (p : Nat) (n : Nat) (s : State) (r : KvRegion) (g : KvPage), s.ctl.mainUp = true ∧ s.ctl.kvFind b.val i = some r ∧ r.pages.find? p = some n ∧ s.ctl.kvPage? n = some g ∧ 1 < g.count ∧ g.ro = false ∧ (s.kvCow r p n).isSome = true ∧ s.ctl.freeRec ≠ n ∧ r.redun = false)
    ∧ (∃ (b : Fin 4096) (v : Word) (s : State), let first := field v.toNat 0 20; let count := min (min (field v.toNat 32 21) 1044480) (1048576 - first); s.ctl.mainUp = true ∧ (s.ctl.bay b.val).st = .free ∧ (∀ o : Fin 4096, o ≠ b → s.ctl.rd (Reg.kvsCount o.val) ≠ 0 → count ≠ 0 → ¬ (first < s.ctl.rd (Reg.kvsFirst o.val) + s.ctl.rd (Reg.kvsCount o.val) ∧ s.ctl.rd (Reg.kvsFirst o.val) < first + count)))
    ∧ (∃ (b : Fin 4096) (v : Word) (s : State), s.ctl.mainUp = true ∧ (s.ctl.bay b.val).st ≠ .free)
    ∧ (∃ (b : Fin 4096) (v : Word) (s : State), s.ctl.mainUp = true ∧ (s.ctl.bay b.val).st = .free)
    ∧ (∃ (b : Fin 4096) (v : Word) (s : State), s.ctl.mainUp = true ∧ (s.ctl.bay b.val).st = .free)
    ∧ (∃ (b : Fin 4096) (v : Word) (s : State), (s.ctl.bay b.val).st ≠ .free) :=
  ⟨⟨1, 3, wB (fun c => { c with kvRegions := [{ wKv with dying := some 0 }] }), { wKv with dying := some 0 }, ⟨by decide +kernel, by decide +kernel, by decide +kernel, by decide +kernel⟩⟩,
    ⟨1, 3, 0, 9, wB (fun c => { c with kvRegions := [{ wKv with pages := [(0, 9)] }], kvPages := [(9, wKvPage)], phys := { c.phys with used := [hbmKey 2 3, hbmKey 2 4] } }), { wKv with pages := [(0, 9)] }, wKvPage, ⟨by decide +kernel, by decide +kernel, by decide +kernel, by decide +kernel, by decide +kernel, by decide +kernel, by decide +kernel, by decide +kernel, by decide +kernel⟩⟩,
    ⟨2, 0x700000003, wB id, ⟨by decide +kernel, by decide +kernel, (by
    intro o _ h
    refine absurd ?_ h
    simp only [Ctl.rd, Reg.kvsCount]
    rw [Ctl.wUnlisted (lo := 0x0B810000) (hi := 0x0B820000) (by decide +kernel) (by omega) (by omega), regReset_window (by omega)]
    decide)⟩⟩,
    ⟨1, 0x700000003, wB id, ⟨by decide +kernel, by decide +kernel⟩⟩,
    ⟨2, 0x12345678, wB id, ⟨by decide +kernel, by decide +kernel⟩⟩,
    ⟨2, 0x12345678, wB id, ⟨by decide +kernel, by decide +kernel⟩⟩,
    ⟨1, 0x12345678, wB id, by decide +kernel⟩⟩

theorem witness_CommandQueues :
    (∃ (q : Fin 16384) (v : Word) (s : State), s.ctl.mainUp = true ∧ s.ctl.rd (Reg.queEnable q.val) = 0 ∧ bitOf v.toNat 63 = true ∧ s.ctl.enableWhy q.val (field v.toNat 8 6) (field v.toNat 16 12) (field v.toNat 32 12) = 0)
    ∧ (∃ (q : Fin 16384) (v : Word) (s : State), s.ctl.mainUp = true ∧ s.ctl.rd (Reg.queEnable q.val) = 0 ∧ bitOf v.toNat 63 = true ∧ s.ctl.enableWhy q.val (field v.toNat 8 6) (field v.toNat 16 12) (field v.toNat 32 12) ≠ 0)
    ∧ (∃ (q : Fin 16384) (v : Word) (s : State), s.ctl.mainUp = true ∧ s.ctl.rd (Reg.queEnable q.val) = 1 ∧ bitOf v.toNat 63 = false ∧ (s.ctl.que q.val).insts = [])
    ∧ (∃ (q : Fin 16384) (w : Fin 2) (v : Word) (s : State), s.ctl.mainUp = true ∧ s.ctl.rd (Reg.queEnable q.val) = 0)
    ∧ (∃ (q : Fin 16384) (s : State) (e : List Byte), s.ctl.queLive q.val = true ∧ s.ctl.ownerLive q.val = true ∧ (s.ctl.que q.val).fetched.length < (s.ctl.que q.val).avail ∧ Reads s (s.ctl.queCtx q.val).1 (s.ctl.queCtx q.val).2 ((s.ctl.reg (Reg.queRing q.val)).toNat + 32 * (((s.ctl.que q.val).head + (s.ctl.que q.val).fetched.length) % 2 ^ 32 % s.ctl.queSize q.val)) 32 rightX e)
    ∧ (∃ (q : Fin 16384) (s : State) (e : List Byte) (l : List (List Byte)), s.ctl.queLive q.val = true ∧ s.ctl.ownerLive q.val = true ∧ (s.ctl.que q.val).avail ≠ 0 ∧ s.ctl.testHolds (s.ctl.rd (Reg.queBay q.val)) = false ∧ (s.ctl.que q.val).fetched = e :: l ∧ (s.ctl.que q.val).canIssue e = true ∧ s.ctl.seqInflight q.val < 1024)
    ∧ (∃ (q : Fin 16384) (i : BitVec 32) (s : State) (x : QInst) (d : Byte), s.ctl.finished? q.val i.toNat = some (x, stOK, d) ∧ entNorec x.entry = true ∧ entOpcode x.entry ≠ 0x05)
    ∧ (∃ (q : Fin 16384) (i : BitVec 32) (s : State) (u : State) (x : QInst) (st : Byte) (d : Byte), s.ctl.finished? q.val i.toNat = some (x, st, d) ∧ st ≠ stOK ∧ entCont x.entry = false ∧ bitOf x.flags 8 = false ∧ (u.ctl.que q.val).st = .running ∧ s.writeRecord q.val x.index (recordOf q.val (s.ctl.queSize q.val) (leAt x.entry 0 1) x.index st d x.flags x.count x.info) = .ok u) :=
  ⟨⟨7, 0x8000000500010203, wB id, ⟨by decide +kernel, by decide +kernel, by decide +kernel, by decide +kernel⟩⟩,
    ⟨7, 0x8000000600020203, wB id, ⟨by decide +kernel, by decide +kernel, by decide +kernel, by decide +kernel⟩⟩,
    ⟨7, 0, wB (fun c => c.wQue 7 { Que.init with st := .running }), ⟨by decide +kernel, by decide +kernel, by decide +kernel, by decide +kernel⟩⟩,
    ⟨7, 1, 0x123456, wB id, ⟨by decide +kernel, by decide +kernel⟩⟩,
    ⟨7, wI (wInst (wEntry 3 0 0 0 0)), List.replicate 32 0, ⟨by decide +kernel, by decide +kernel, by decide +kernel, Reads.of (by decide +kernel)⟩⟩,
    ⟨7, wB (fun c => c.wQue 7 { Que.init with st := .running, head := 4, tail := 6, fetched := [wEntry 3 0 0 0 0] }), wEntry 3 0 0 0 0, [], ⟨by decide +kernel, by decide +kernel, by decide +kernel, by decide +kernel, by decide +kernel, by decide +kernel, by decide +kernel⟩⟩,
    ⟨7, 3, wI { wInst (3 :: 2 :: zeros 30) with phase := .finished 0 0 }, { wInst (3 :: 2 :: zeros 30) with phase := .finished 0 0 }, 0, ⟨by decide +kernel, by decide +kernel, by decide +kernel⟩⟩,
    ⟨7, 3, wI { wInst (wEntry 3 0 0 0 0) with phase := .finished 3 0 }, (match (wI { wInst (wEntry 3 0 0 0 0) with phase := .finished 3 0 }).writeRecord 7 3 (recordOf 7 16 3 3 3 0 0 0 0) with | .ok s => s | _ => State.reset), { wInst (wEntry 3 0 0 0 0) with phase := .finished 3 0 }, 3, 0, ⟨by decide +kernel, by decide +kernel, by decide +kernel, by decide +kernel, by decide +kernel, by decide +kernel⟩⟩⟩

theorem witness_CommandQueues_2 :
    (∃ (q : Fin 16384) (i : BitVec 32) (s : State) (u : State) (x : QInst) (st : Byte) (d : Byte) (rs : Byte) (rd : Byte), s.ctl.finished? q.val i.toNat = some (x, st, d) ∧ x.index = i.toNat ∧ bitOf x.flags 8 = false ∧ (st = stOK → entNorec x.entry = false) ∧ rs ≠ stRETRY ∧ (u.ctl.que q.val).st = .running ∧ s.writeRecord q.val x.index (recordOf q.val (s.ctl.queSize q.val) (leAt x.entry 0 1) x.index st d x.flags x.count x.info) = .fail u rs rd)
    ∧ (∃ (q : Fin 16384) (i : BitVec 32) (s : State) (x : QInst), s.ctl.inst? q.val i.toNat (fun y => decide (s.ctl.rd Reg.straggler ≤ s.ctl.now - y.since)) = some x ∧ x.phase = .issued ∧ x.step = stepWaits)
    ∧ (∃ (q : Fin 16384) (i : BitVec 32) (s : State) (x : QInst) (st : Byte) (d : Byte) (at0 : Nat), s.ctl.inst? q.val i.toNat (fun y => y.retry.isSome) = some x ∧ x.retry = some (st, d, at0) ∧ s.ctl.retryLimit q.val x ≤ s.ctl.now - at0)
    ∧ (∃ (q : Fin 16384) (i : BitVec 32) (s : State) (x : QInst) (st : Byte) (d : Byte) (at0 : Nat), s.ctl.inst? q.val i.toNat (fun y => y.retry.isSome) = some x ∧ x.retry = some (st, d, at0) ∧ s.ctl.now - at0 < s.ctl.retryLimit q.val x ∧ x.phase = .issued ∧ s.ctl.rd Reg.glbState = 3)
    ∧ (∃ (q : Fin 16384) (i : BitVec 32) (s : State) (u : State) (x : QInst) (y : QInst) (fl : Nat) (st : Byte) (d : Byte) (at0 : Nat), s.ctl.inst? q.val i.toNat (fun z => z.retry.isSome) = some x ∧ x.retry = some (st, d, at0) ∧ s.ctl.now - at0 < s.ctl.retryLimit q.val x ∧ x.phase = .issued ∧ s.ctl.rd Reg.glbState ≠ 3 ∧ (actOf q.val x).run { s := s, fl := x.flags } = .ok (y, { s := u, fl := fl }) ∧ (u.ctl.instOf q.val y.serial).isSome = true) :=
  ⟨⟨7, 3, wS (fun c => (c.wIn { wInst (wEntry 3 0 0 0 0) with phase := .finished 3 0 }).putReg (Reg.queCring 7) 0x900000), wS (fun c => (c.wIn { wInst (wEntry 3 0 0 0 0) with phase := .finished 3 0 }).putReg (Reg.queCring 7) 0x900000), { wInst (wEntry 3 0 0 0 0) with phase := .finished 3 0 }, 3, 0, stACCESS, 0, ⟨by decide +kernel, by decide +kernel, by decide +kernel, by decide +kernel, by decide +kernel, by decide +kernel, by decide +kernel⟩⟩,
    ⟨7, 3, { wI { wInst (wEntry 0x28 0 0 0 0) with step := stepWaits } with ctl := { (wI { wInst (wEntry 0x28 0 0 0 0) with step := stepWaits }).ctl with now := 100000000000 } }, { wInst (wEntry 0x28 0 0 0 0) with step := stepWaits }, ⟨by decide +kernel, by decide +kernel, by decide +kernel⟩⟩,
    ⟨7, 3, { wI { wInst (wEntry 1 0 0 5 0) with retry := some (1, 0, 0) } with ctl := { (wI { wInst (wEntry 1 0 0 5 0) with retry := some (1, 0, 0) }).ctl with now := 100000000000 } }, { wInst (wEntry 1 0 0 5 0) with retry := some (1, 0, 0) }, 1, 0, 0, ⟨by decide +kernel, by decide +kernel, by decide +kernel⟩⟩,
    ⟨7, 3, wS (fun c => (c.wIn { wInst (wEntry 2 0 0 5 0) with retry := some (1, 0, 0) }).wr Reg.glbState 3), { wInst (wEntry 2 0 0 5 0) with retry := some (1, 0, 0) }, 1, 0, 0, ⟨by decide +kernel, by decide +kernel, by decide +kernel, by decide +kernel, by decide +kernel⟩⟩,
    ⟨7, 3, wS (fun c => (c.wIn { wInst (wEntry 1 0 0 0 0) with retry := some (1, 0, 0) }).wr (Reg.winCount 1) 8), wS (fun c => (c.wIn { wInst (wEntry 1 0 0 0 0) with retry := some (1, 0, 0) }).wr (Reg.winCount 1) 8), { wInst (wEntry 1 0 0 0 0) with retry := some (1, 0, 0) }, { wInst (wEntry 1 0 0 0 0) with phase := .finished 0 0 }, 0, 1, 0, 0, ⟨by decide +kernel, by decide +kernel, by decide +kernel, by decide +kernel, by decide +kernel, Act.gives (by decide +kernel), by decide +kernel⟩⟩⟩

theorem witness_ControlInstructions :
    (∃ (q : Fin 16384) (i : BitVec 32) (s : State) (x : QInst), Issued s q.val i.toNat 0x00 x)
    ∧ (∃ (q : Fin 16384) (i : BitVec 32) (s : State) (x : QInst), Issued s q.val i.toNat 0x03 x)
    ∧ (∃ (q : Fin 16384) (i : BitVec 32) (s : State) (x : QInst), Issued s q.val i.toNat 0x05 x)
    ∧ (∃ (q : Fin 16384) (i : BitVec 32) (s : State) (x : QInst), let w := s.ctl.rd (Reg.queBay q.val); let v := (s.ctl.counter (s.ctl.rd (Reg.winFirst w) + field (entA x.entry) 0 20)).toNat; Issued s q.val i.toNat 0x01 x ∧ field (entA x.entry) 0 20 < s.ctl.rd (Reg.winCount w))
    ∧ (∃ (q : Fin 16384) (i : BitVec 32) (s : State) (x : QInst), Issued s q.val i.toNat 0x01 x ∧ s.ctl.rd (Reg.winCount (s.ctl.rd (Reg.queBay q.val))) ≤ field (entA x.entry) 0 20)
    ∧ (∃ (q : Fin 16384) (i : BitVec 32) (s : State) (x : QInst), let w := s.ctl.rd (Reg.queBay q.val); let v := (s.ctl.counter (s.ctl.rd (Reg.winFirst w) + field (entA x.entry) 0 20)).toNat; s.ctl.waiting? q.val i.toNat = some x ∧ field (entA x.entry) 0 20 < s.ctl.rd (Reg.winCount w) ∧ entB x.entry ≤ v)
    ∧ (∃ (q : Fin 16384) (i : BitVec 32) (s : State) (x : QInst), s.ctl.waiting? q.val i.toNat = some x ∧ s.ctl.waitLimit q.val x ≤ s.ctl.now - x.since)
    ∧ (∃ (q : Fin 16384) (i : BitVec 32) (s : State) (x : QInst), let w := s.ctl.rd (Reg.queBay q.val); let n := s.ctl.rd (Reg.winFirst w) + field (entA x.entry) 0 20; let v := min ((s.ctl.counter n).toNat + entB x.entry) (2 ^ 64 - 1); Issued s q.val i.toNat 0x02 x ∧ field (entA x.entry) 0 20 < s.ctl.rd (Reg.winCount w)) :=
  ⟨⟨7, 3, wIs (wEntry 0 0 0 0 0), wInst (wEntry 0 0 0 0 0), ⟨by decide +kernel, by decide +kernel, by decide +kernel⟩⟩,
    ⟨7, 3, wIs (wEntry 3 0 0 0 0), wInst (wEntry 3 0 0 0 0), ⟨by decide +kernel, by decide +kernel, by decide +kernel⟩⟩,
    ⟨7, 3, wIs (wEntry 5 0 0 0 0), wInst (wEntry 5 0 0 0 0), ⟨by decide +kernel, by decide +kernel, by decide +kernel⟩⟩,
    ⟨7, 3, wIs (wEntry 1 0 4 5 0), wInst (wEntry 1 0 4 5 0), ⟨⟨by decide +kernel, by decide +kernel, by decide +kernel⟩, by decide +kernel⟩⟩,
    ⟨7, 3, wIs (wEntry 1 0 32 5 0), wInst (wEntry 1 0 32 5 0), ⟨⟨by decide +kernel, by decide +kernel, by decide +kernel⟩, by decide +kernel⟩⟩,
    ⟨7, 3, wS (fun c => ((c.wIn ({ wInst (wEntry 1 0 4 5 0) with phase := .running })).wr (Reg.winCount 1) 32).putCounter 4 9), { wInst (wEntry 1 0 4 5 0) with phase := .running }, ⟨by decide +kernel, by decide +kernel, by decide +kernel⟩⟩,
    ⟨7, 3, { wI ({ wInst (wEntry 1 0 4 5 0) with phase := .running }) with ctl := { (wI ({ wInst (wEntry 1 0 4 5 0) with phase := .running })).ctl with now := 10 ^ 12 } }, { wInst (wEntry 1 0 4 5 0) with phase := .running }, ⟨by decide +kernel, by decide +kernel⟩⟩,
    ⟨7, 3, wIs (wEntry 2 0 4 5 0), wInst (wEntry 2 0 4 5 0), ⟨⟨by decide +kernel, by decide +kernel, by decide +kernel⟩, by decide +kernel⟩⟩⟩

theorem witness_ControlInstructions_2 :
    (∃ (q : Fin 16384) (i : BitVec 32) (s : State) (x : QInst), Issued s q.val i.toNat 0x04 x ∧ s.ctl.rd Reg.tapArmed = 0)
    ∧ (∃ (q : Fin 16384) (i : BitVec 32) (s : State) (x : QInst), Issued s q.val i.toNat 0x04 x ∧ s.ctl.rd Reg.tapArmed = 1 ∧ s.ctl.rd (Reg.tapSrc 0) = 1)
    ∧ (∃ (q : Fin 16384) (i : BitVec 32) (s : State) (x : QInst), let y := s.ctl.que q.val; let d := field (entB x.entry) 0 20; s.ctl.inst? q.val i.toNat (fun z => z.phase == .issued && entOpcode z.entry == 0x06) = some x ∧ 1 ≤ d ∧ d ≤ s.ctl.queSize q.val - 1 ∧ y.loops.find? (fun e => e.1 == x.index) = none ∧ y.loops.length < 4 ∧ entCount x.entry ≠ 0)
    ∧ (∃ (q : Fin 16384) (i : BitVec 32) (n : Nat) (s : State) (x : QInst), let y := s.ctl.que q.val; let d := field (entB x.entry) 0 20; s.ctl.inst? q.val i.toNat (fun z => z.phase == .issued && entOpcode z.entry == 0x06) = some x ∧ 1 ≤ d ∧ d ≤ s.ctl.queSize q.val - 1 ∧ y.loops.find? (fun e => e.1 == x.index) = some (x.index, n) ∧ entCount x.entry ≤ n)
    ∧ (∃ (q : Fin 16384) (i : BitVec 32) (p : Nat) (s : State) (x : QInst), let d := (entB x.entry + 2 ^ 32 - (s.ctl.que p).tail) % 2 ^ 32; s.ctl.inst? q.val i.toNat (fun z => z.phase == .issued && entOpcode z.entry == 0x07) = some x ∧ s.ctl.slotQueue (s.ctl.rd (Reg.queBay q.val)) (field (entA x.entry) 0 6) = some p ∧ p ≠ q.val ∧ entB x.entry < 2 ^ 32 ∧ (s.ctl.que p).tail < 2 ^ 32 ∧ 0 < d ∧ d < 2 ^ 31 ∧ d ≤ ((s.ctl.que p).head + s.ctl.queSize p + 2 ^ 32 - (s.ctl.que p).tail) % 2 ^ 32)
    ∧ (∃ (q : Fin 16384) (i : BitVec 32) (k : Nat) (s : State) (x : QInst), let b := (s.ctl.queCtx q.val).1; let r := field (entA x.entry) 0 16; let v := field (entB x.entry) 0 32; Issued s q.val i.toNat 0x13 x ∧ (s.ctl.bay b).cur.bind (·.classOf (s.ctl.queCtx q.val).2) = some k ∧ (s.ctl.bay b).halted = false ∧ s.ctl.regionOk b k r rightP = true ∧ v = (s.ctl.rd (Reg.regionVersion r) + 1) % 2 ^ 32)
    ∧ (∃ (q : Fin 16384) (i : BitVec 32) (k : Nat) (s : State) (x : QInst), let b := (s.ctl.queCtx q.val).1; let r := field (entA x.entry) 0 16; Issued s q.val i.toNat 0x13 x ∧ (s.ctl.bay b).cur.bind (·.classOf (s.ctl.queCtx q.val).2) = some k ∧ (s.ctl.bay b).halted = false ∧ s.ctl.regionOk b k r rightP = true ∧ field (entB x.entry) 0 32 ≠ (s.ctl.rd (Reg.regionVersion r) + 1) % 2 ^ 32)
    ∧ (∃ (q : Fin 16384) (i : BitVec 32) (s : State) (x : QInst), let b := s.ctl.rd (Reg.queBay q.val); let h := s.ctl.hintRange b (entA x.entry) (entB x.entry) (field (entC x.entry) 0 3); Issued s q.val i.toNat 0x12 x ∧ CleanAddr (entA x.entry) ∧ field (entC x.entry) 0 3 < 6 ∧ bitOf (entOpf x.entry) 0 = false) :=
  ⟨⟨7, 3, wS (fun c => (c.wIn (wInst (wEntry 4 0 0 0 0))).wr Reg.tapArmed 0), wInst (wEntry 4 0 0 0 0), ⟨⟨by decide +kernel, by decide +kernel, by decide +kernel⟩, by decide +kernel⟩⟩,
    ⟨7, 3, wS (fun c => ((c.wIn (wInst (wEntry 4 0 0 0 0))).wr Reg.tapArmed 1).wr (Reg.tapSrc 0) 1), wInst (wEntry 4 0 0 0 0), ⟨⟨by decide +kernel, by decide +kernel, by decide +kernel⟩, by decide +kernel, by decide +kernel⟩⟩,
    ⟨7, 3, wIs (wEntry 6 2 0 2 0), wInst (wEntry 6 2 0 2 0), ⟨by decide +kernel, by decide +kernel, by decide +kernel, by decide +kernel, by decide +kernel, by decide +kernel⟩⟩,
    ⟨7, 3, 2, wS (fun c => ((c.wIn (wInst (wEntry 6 2 0 2 0))).putQue 7 { (c.wIn (wInst (wEntry 6 2 0 2 0))).que 7 with loops := [(3, 2)] })), wInst (wEntry 6 2 0 2 0), ⟨by decide +kernel, by decide +kernel, by decide +kernel, by decide +kernel, by decide +kernel⟩⟩,
    ⟨7, 3, 9, wS (fun c => (((((c.wIn (wInst (wEntry 7 0 4 5 0))).wr (Reg.queBay 9) 1).wr (Reg.queOwner 9) 6).wr (Reg.queSlot 9) 4).wr (Reg.queEnable 9) 1).putQue 9 { Que.init with st := .running, tail := 2 }), wInst (wEntry 7 0 4 5 0), ⟨by decide +kernel, by decide +kernel, by decide +kernel, by decide +kernel, by decide +kernel, by decide +kernel, by decide +kernel, by decide +kernel⟩⟩,
    ⟨7, 3, 0, wS (fun c => (c.wIn (wInst (wEntry 19 0 3 1 0))).wReg), wInst (wEntry 19 0 3 1 0), ⟨⟨by decide +kernel, by decide +kernel, by decide +kernel⟩, by decide +kernel, by decide +kernel, by decide +kernel, by decide +kernel⟩⟩,
    ⟨7, 3, 0, wS (fun c => (c.wIn (wInst (wEntry 19 0 3 4 0))).wReg), wInst (wEntry 19 0 3 4 0), ⟨⟨by decide +kernel, by decide +kernel, by decide +kernel⟩, by decide +kernel, by decide +kernel, by decide +kernel, by decide +kernel⟩⟩,
    ⟨7, 3, wIs (wEntry 18 0 1048576 65536 2), wInst (wEntry 18 0 1048576 65536 2), ⟨⟨by decide +kernel, by decide +kernel, by decide +kernel⟩, by unfold CleanAddr; decide +kernel, by decide +kernel, by decide +kernel⟩⟩⟩

theorem witness_MemoryInstructions :
    (∃ (q : Fin 16384) (i : BitVec 32) (s : State) (x : QInst), Issued s q.val i.toNat 0x10 x ∧ entC x.entry = 0)
    ∧ (∃ (q : Fin 16384) (i : BitVec 32) (s : State) (x : QInst), Issued s q.val i.toNat 0x15 x ∧ entC x.entry = 0)
    ∧ (∃ (q : Fin 16384) (i : BitVec 32) (k : Nat) (s : State) (x : QInst), Issued s q.val i.toNat 0x10 x ∧ entC x.entry ≠ 0 ∧ CleanAddr (entA x.entry) ∧ CleanAddr (entB x.entry) ∧ s.ctl.instrChans (s.ctl.queCtx q.val).1 = [k] ∧ (s.ctl.chan k).st = .idle ∧ (s.ctl.chan k).serve = none)
    ∧ (∃ (q : Fin 16384) (i : BitVec 32) (k : Nat) (s : State) (x : QInst), Issued s q.val i.toNat 0x15 x ∧ entC x.entry ≠ 0 ∧ CleanAddr (entA x.entry) ∧ s.ctl.instrChans (s.ctl.queCtx q.val).1 = [k] ∧ (s.ctl.chan k).st = .idle ∧ (s.ctl.chan k).serve = none)
    ∧ (∃ (q : Fin 16384) (i : BitVec 32) (s : State) (x : QInst), Issued s q.val i.toNat 0x10 x ∧ entC x.entry ≠ 0 ∧ CleanAddr (entA x.entry) ∧ CleanAddr (entB x.entry) ∧ s.ctl.instrChans (s.ctl.queCtx q.val).1 = [])
    ∧ (∃ (q : Fin 16384) (i : BitVec 32) (s : State) (x : QInst) (p : List Byte), let b := (s.ctl.queCtx q.val).1; let w := leAt p 0 2; let sz := leAt p 8 8; Issued s q.val i.toNat 0x11 x ∧ Params s q.val x 64 p ∧ 1 ≤ w ∧ w ≤ 64 ∧ 1 ≤ leAt p 2 2 ∧ leAt p 2 2 ≤ 4095 ∧ 1 ≤ leAt p 4 4 ∧ leAt p 4 4 ≤ 65535 ∧ 65536 ≤ sz ∧ sz ≤ 2 ^ 30 ∧ sz % 65536 = 0 ∧ CleanAddr (leAt p 16 8) ∧ leAt p 16 8 % 65536 = 0 ∧ CleanAddr (leAt p 32 8) ∧ leAt p 40 24 = 0 ∧ leAt p 24 4 + w ≤ s.ctl.rd (Reg.winCount b) ∧ leAt p 28 4 + w ≤ s.ctl.rd (Reg.winCount b))
    ∧ (∃ (q : Fin 16384) (i : BitVec 32) (k : Nat) (s : State) (x : QInst), s.ctl.streaming? q.val i.toNat = some x ∧ s.ctl.released q.val x = true ∧ s.ctl.instrChans (s.ctl.rd (Reg.queBay q.val)) = [k] ∧ (s.ctl.chan k).st = .idle ∧ (s.ctl.chan k).serve = none)
    ∧ (∃ (q : Fin 16384) (i : BitVec 32) (s : State) (x : QInst), s.ctl.streaming? q.val i.toNat = some x ∧ s.ctl.released q.val x = false ∧ s.ctl.waitLimit q.val x ≤ s.ctl.now - x.waitFrom) :=
  ⟨⟨7, 3, wIs (wEntry 16 0 0 0 0), wInst (wEntry 16 0 0 0 0), ⟨⟨by decide +kernel, by decide +kernel, by decide +kernel⟩, by decide +kernel⟩⟩,
    ⟨7, 3, wIs (wEntry 21 0 0 0 0), wInst (wEntry 21 0 0 0 0), ⟨⟨by decide +kernel, by decide +kernel, by decide +kernel⟩, by decide +kernel⟩⟩,
    ⟨7, 3, 4, wS (fun c => (c.wIn (wInst (wEntry 16 0 1048576 1052672 64))).wChan), wInst (wEntry 16 0 1048576 1052672 64), ⟨⟨by decide +kernel, by decide +kernel, by decide +kernel⟩, by decide +kernel, by unfold CleanAddr; decide +kernel, by unfold CleanAddr; decide +kernel, by decide +kernel, by decide +kernel, by decide +kernel⟩⟩,
    ⟨7, 3, 4, wS (fun c => (c.wIn (wInst (wEntry 21 0 1048576 0 64))).wChan), wInst (wEntry 21 0 1048576 0 64), ⟨⟨by decide +kernel, by decide +kernel, by decide +kernel⟩, by decide +kernel, by unfold CleanAddr; decide +kernel, by decide +kernel, by decide +kernel, by decide +kernel⟩⟩,
    ⟨7, 3, wIs (wEntry 16 0 1048576 1052672 64), wInst (wEntry 16 0 1048576 1052672 64), ⟨⟨by decide +kernel, by decide +kernel, by decide +kernel⟩, by decide +kernel, by unfold CleanAddr; decide +kernel, by unfold CleanAddr; decide +kernel, by decide +kernel⟩⟩,
    ⟨7, 3, wPar (wInst (wEntry 17 0 1049088 0 0)) wStream, wInst (wEntry 17 0 1049088 0 0), wStream, ⟨⟨by decide +kernel, by decide +kernel, by decide +kernel⟩, Params.of (by decide +kernel) (by unfold CleanAddr; decide +kernel) (by decide +kernel), by decide +kernel, by decide +kernel, by decide +kernel, by decide +kernel, by decide +kernel, by decide +kernel, by decide +kernel, by decide +kernel, by decide +kernel, by unfold CleanAddr; decide +kernel, by decide +kernel, by unfold CleanAddr; decide +kernel, by decide +kernel, by decide +kernel, by decide +kernel⟩⟩,
    ⟨7, 3, 4, wS (fun c => ((c.wIn ({ wInst (wEntry 0x11 0 0x100200 0 0) with phase := .running, param := wStream })).wChan).wr (Reg.winCount 1) 32), { wInst (wEntry 0x11 0 0x100200 0 0) with phase := .running, param := wStream }, ⟨by decide +kernel, by decide +kernel, by decide +kernel, by decide +kernel, by decide +kernel⟩⟩,
    ⟨7, 3, { wS (fun c => (c.wIn ({ wInst (wEntry 0x11 0 0x100200 0 0) with phase := .running, param := wStream, pos := 2 })).wr (Reg.winCount 1) 32) with ctl := { (wS (fun c => (c.wIn ({ wInst (wEntry 0x11 0 0x100200 0 0) with phase := .running, param := wStream, pos := 2 })).wr (Reg.winCount 1) 32)).ctl with now := 10 ^ 12 } }, { wInst (wEntry 0x11 0 0x100200 0 0) with phase := .running, param := wStream, pos := 2 }, ⟨by decide +kernel, by decide +kernel, by decide +kernel⟩⟩⟩

theorem witness_MemoryInstructions_2 :
    ∃ (q : Fin 16384) (i : BitVec 32) (s : State) (s' : State) (u : State) (x : QInst) (e : List Byte) (old : Nat) (af : Byte), let b := s.ctl.queCtx q.val; Issued s q.val i.toNat 0x14 x ∧ entCount x.entry = 1 ∧ x.pos = 0 ∧ x.data = [] ∧ CleanAddr (entA x.entry) ∧ CleanAddr (entB x.entry) ∧ Reads s b.1 b.2 (entA x.entry) 48 rightR e ∧ (atomicEntry b.1 b.2 e).run { s := s, fl := x.flags } = .ok ((stOK, dNONE, old, af), { s := s', fl := x.flags }) ∧ Writes (s'.onCtl (·.putInst q.val { x with phase := .running, data := [(1, [0, 0, old, af.toNat])] })) b.1 b.2 (entB x.entry) (leBytes 16 old ++ leBytes 1 af.toNat ++ leBytes 1 0 ++ zeros 6) u ∧ (u.ctl.instOf q.val x.serial).isSome = true :=
  ⟨7, 3, (wPar (wInst (wEntry 0x14 1 0x100200 0x100300 0)) (leBytes 8 0x100010 ++ [2, 2] ++ zeros 6 ++ [5] ++ zeros 31)), (match (atomicEntry 1 5 (leBytes 8 0x100010 ++ [2, 2] ++ zeros 6 ++ [5] ++ zeros 31)).run { s := (wPar (wInst (wEntry 0x14 1 0x100200 0x100300 0)) (leBytes 8 0x100010 ++ [2, 2] ++ zeros 6 ++ [5] ++ zeros 31)), fl := 0 } with | .ok r => r.2.s | .error _ => State.reset), wWrite ((match (atomicEntry 1 5 (leBytes 8 0x100010 ++ [2, 2] ++ zeros 6 ++ [5] ++ zeros 31)).run { s := (wPar (wInst (wEntry 0x14 1 0x100200 0x100300 0)) (leBytes 8 0x100010 ++ [2, 2] ++ zeros 6 ++ [5] ++ zeros 31)), fl := 0 } with | .ok r => r.2.s | .error _ => State.reset).onCtl (·.putInst 7 { wInst (wEntry 0x14 1 0x100200 0x100300 0) with phase := .running, data := [(1, [0, 0, 0x907, 1])] })) 0x100300 (leBytes 16 0x907 ++ leBytes 1 1 ++ leBytes 1 0 ++ zeros 6), wInst (wEntry 0x14 1 0x100200 0x100300 0), (leBytes 8 0x100010 ++ [2, 2] ++ zeros 6 ++ [5] ++ zeros 31), 0x907, 1, ⟨⟨by decide +kernel, by decide +kernel, by decide +kernel⟩, by decide +kernel, by decide +kernel, by decide +kernel, by unfold CleanAddr; decide +kernel, by unfold CleanAddr; decide +kernel, Reads.of (by decide +kernel), Act.gives (by decide +kernel), Writes.of (by decide +kernel), by decide +kernel⟩⟩

theorem witness_CollectiveCommands :
    (∃ (q : Fin 16384) (i : BitVec 32) (s : State) (x : QInst) (p : List Byte) (m : CMap) (g : Nat × List Nat), FirstPost s q.val i.toNat 0x20 x p m g)
    ∧ (∃ (q : Fin 16384) (i : BitVec 32) (s : State) (x : QInst) (p : List Byte) (m : CMap) (g : Nat × List Nat), FirstPost s q.val i.toNat 0x21 x p m g)
    ∧ (∃ (q : Fin 16384) (i : BitVec 32) (s : State) (x : QInst) (p : List Byte) (m : CMap) (g : Nat × List Nat), FirstPost s q.val i.toNat 0x22 x p m g)
    ∧ (∃ (q : Fin 16384) (i : BitVec 32) (s : State) (x : QInst) (p : List Byte) (m : CMap) (g : Nat × List Nat), FirstPost s q.val i.toNat 0x23 x p m g)
    ∧ (∃ (q : Fin 16384) (i : BitVec 32) (s : State) (x : QInst) (p : List Byte) (m : CMap) (g : Nat × List Nat), FirstPost s q.val i.toNat 0x24 x p m g)
    ∧ (∃ (b : Fin 4096) (g : Fin 256) (n : BitVec 32) (chunk : Nat) (u : Nat) (s : State) (k : Coll) (p : CollPost) (l : List CollPost) (st : Byte) (d : Byte), s.ctl.colls = [k] ∧ k.bay = b.val ∧ k.group = g.val ∧ k.seqno = n.toNat ∧ k.failed = none ∧ k.begun = true ∧ chunk ∈ k.todo ∧ s.ctl.pickUnit .crucible k.id chunk 0 = some u ∧ k.posts = p :: l ∧ st ≠ stRETRY ∧ (∀ fl, (Act.read k.bay p.ep (p.src.toNat + chunk * 1024 * elemSize k.dtype) (min 1024 (k.elems - chunk * 1024) * elemSize k.dtype) rightR).run { s := s, fl := fl } = .error { ax := { s := s, fl := fl }, status := st, detail := d }))
    ∧ (∃ (q : Fin 16384) (i : BitVec 32) (s : State) (u : State) (x : QInst) (k : Coll) (p : CollPost), s.ctl.inst? q.val i.toNat (fun y => y.phase == .running) = some x ∧ entOpcode x.entry = 0x21 ∧ s.ctl.rsaLost (s.ctl.queCtx q.val).1 = false ∧ s.ctl.twoPhaseOf x = some (k, p) ∧ k.begun = true ∧ k.phase = 1 ∧ Writes s k.bay p.ep p.dst.toNat (k.out.flatMap (fun e => e.2)) u ∧ (u.ctl.instOf q.val x.serial).isSome = true)
    ∧ (∃ (q : Fin 16384) (i : BitVec 32) (s : State) (x : QInst), s.ctl.inst? q.val i.toNat (fun y => y.phase == .running) = some x ∧ entOpcode x.entry = 0x31 ∧ 1 < topkSegs x.param ∧ s.ctl.rsaLost (s.ctl.queCtx q.val).1 = true) :=
  ⟨⟨7, 3, wPar (wInst (wEntry 0x20 0 0x100200 0 0)) (leBytes 4 1 ++ leBytes 4 0 ++ leBytes 4 7 ++ zeros 52), wInst (wEntry 0x20 0 0x100200 0 0), (leBytes 4 1 ++ leBytes 4 0 ++ leBytes 4 7 ++ zeros 52), wMap, (1, [5, 6]), ⟨⟨by decide +kernel, by decide +kernel, by decide +kernel⟩, by decide +kernel, Params.of (by decide +kernel) (by unfold CleanAddr; decide +kernel) (by decide +kernel), by decide +kernel, by decide +kernel, by decide +kernel, by decide +kernel⟩⟩,
    ⟨7, 3, wPar (wInst (wEntry 0x21 0 0x100200 0 0)) (leBytes 4 1 ++ leBytes 4 0 ++ leBytes 4 7 ++ zeros 52), wInst (wEntry 0x21 0 0x100200 0 0), (leBytes 4 1 ++ leBytes 4 0 ++ leBytes 4 7 ++ zeros 52), wMap, (1, [5, 6]), ⟨⟨by decide +kernel, by decide +kernel, by decide +kernel⟩, by decide +kernel, Params.of (by decide +kernel) (by unfold CleanAddr; decide +kernel) (by decide +kernel), by decide +kernel, by decide +kernel, by decide +kernel, by decide +kernel⟩⟩,
    ⟨7, 3, wPar (wInst (wEntry 0x22 0 0x100200 0 0)) (leBytes 4 1 ++ leBytes 4 0 ++ leBytes 4 7 ++ zeros 52), wInst (wEntry 0x22 0 0x100200 0 0), (leBytes 4 1 ++ leBytes 4 0 ++ leBytes 4 7 ++ zeros 52), wMap, (1, [5, 6]), ⟨⟨by decide +kernel, by decide +kernel, by decide +kernel⟩, by decide +kernel, Params.of (by decide +kernel) (by unfold CleanAddr; decide +kernel) (by decide +kernel), by decide +kernel, by decide +kernel, by decide +kernel, by decide +kernel⟩⟩,
    ⟨7, 3, wPar (wInst (wEntry 0x23 0 0x100200 0 0)) (leBytes 4 1 ++ leBytes 4 0 ++ leBytes 4 7 ++ zeros 52), wInst (wEntry 0x23 0 0x100200 0 0), (leBytes 4 1 ++ leBytes 4 0 ++ leBytes 4 7 ++ zeros 52), wMap, (1, [5, 6]), ⟨⟨by decide +kernel, by decide +kernel, by decide +kernel⟩, by decide +kernel, Params.of (by decide +kernel) (by unfold CleanAddr; decide +kernel) (by decide +kernel), by decide +kernel, by decide +kernel, by decide +kernel, by decide +kernel⟩⟩,
    ⟨7, 3, wPar (wInst (wEntry 0x24 0 0x100200 0 0)) (leBytes 4 1 ++ leBytes 4 0 ++ leBytes 4 7 ++ zeros 52), wInst (wEntry 0x24 0 0x100200 0 0), (leBytes 4 1 ++ leBytes 4 0 ++ leBytes 4 7 ++ zeros 52), wMap, (1, [5, 6]), ⟨⟨by decide +kernel, by decide +kernel, by decide +kernel⟩, by decide +kernel, Params.of (by decide +kernel) (by unfold CleanAddr; decide +kernel) (by decide +kernel), by decide +kernel, by decide +kernel, by decide +kernel, by decide +kernel⟩⟩,
    ⟨1, 1, 7, 1, 0, wB (fun c => { c.wUnits [.crucible] [0] with colls := [{ wColl with posts := [{ ep := 5, queue := 7, serial := 11, src := 0x900000, dst := 0x100000, bad := none }] }] }), { wColl with posts := [{ ep := 5, queue := 7, serial := 11, src := 0x900000, dst := 0x100000, bad := none }] }, { ep := 5, queue := 7, serial := 11, src := 0x900000, dst := 0x100000, bad := none }, [], stACCESS, 0, ⟨by decide +kernel, by decide +kernel, by decide +kernel, by decide +kernel, by decide +kernel, by decide +kernel, by decide +kernel, Ctl.pickUnit_one (by decide +kernel) _ _ _, by decide +kernel, by decide +kernel, fun fl => Act.read_stops (p := (0x900800, 128)) (l := pieces128 17 0x900880 1920) (by decide +kernel) (by decide +kernel) fl⟩⟩,
    ⟨7, 3, wS (fun c => { c.wIn ({ wInst (wEntry 0x21 0 0x100200 0 0) with phase := .running }) with colls := [{ wColl with phase := 1, out := [(0, [1, 2])], todo := [] }] }), wWrite (wS (fun c => { c.wIn ({ wInst (wEntry 0x21 0 0x100200 0 0) with phase := .running }) with colls := [{ wColl with phase := 1, out := [(0, [1, 2])], todo := [] }] })) 0x100000 [1, 2], { wInst (wEntry 0x21 0 0x100200 0 0) with phase := .running }, { wColl with phase := 1, out := [(0, [1, 2])], todo := [] }, { ep := 5, queue := 7, serial := 11, src := 0x100000, dst := 0x100000, bad := none }, ⟨by decide +kernel, by decide +kernel, by decide +kernel, by decide +kernel, by decide +kernel, by decide +kernel, Writes.of (by decide +kernel), by decide +kernel⟩⟩,
    ⟨7, 3, wS (fun c => { (c.wIn ({ wInst (wEntry 0x31 0 0x100200 0 0) with phase := .running, param := zeros 8 ++ leBytes 4 65537 })).wr (Reg.hbmState 2) 0 with rsas := [(1, { groups := [(0, [{ tier := .hbm, a := 2, b := 3 }])], used := [] })] }), { wInst (wEntry 0x31 0 0x100200 0 0) with phase := .running, param := zeros 8 ++ leBytes 4 65537 }, ⟨by decide +kernel, by decide +kernel, by decide +kernel, by decide +kernel⟩⟩⟩

theorem witness_CollectiveCommands_2 :
    ∃ (b : Fin 4096) (g : Fin 256) (n : BitVec 32) (s : State) (k : Coll), s.ctl.colls = [k] ∧ k.bay = b.val ∧ k.group = g.val ∧ k.seqno = n.toNat ∧ k.failed = none ∧ (∃ e ∈ k.members, ∀ p ∈ k.posts, p.ep ≠ e) ∧ s.ctl.rd Reg.straggler ≤ s.ctl.now - k.openedAt :=
  ⟨1, 1, 7, { wB (fun c => { c with now := 10 ^ 12, colls := [wColl] }) with pending := [] }, wColl, ⟨by decide +kernel, by decide +kernel, by decide +kernel, by decide +kernel, by decide +kernel, by decide +kernel, by decide +kernel⟩⟩

theorem witness_CollectiveCommands_given_5 (h : ((wB (fun c => { c.wUnits [.crucible] [0] with items := [1, 1, 1, 1], colls := [{ wColl with elems := 2 ^ 20 + 1 }] })).ctl.nextItem .chunk).2.1 = false) : ∃ (b : Fin 4096) (g : Fin 256) (n : BitVec 32) (chunk : Nat) (u : Nat) (s : State) (k : Coll), s.ctl.colls = [k] ∧ k.bay = b.val ∧ k.group = g.val ∧ k.seqno = n.toNat ∧ k.failed = none ∧ k.begun = true ∧ k.twoPhase = true ∧ chunk ∈ k.todo ∧ s.ctl.pickUnit .crucible k.id chunk 0 = some u ∧ (∀ p ∈ k.posts, ∃ c, Reads s k.bay p.ep (p.src.toNat + chunk * 1024 * elemSize k.dtype) (min 1024 (k.elems - chunk * 1024) * elemSize k.dtype) rightR c) ∧ (s.ctl.nextItem .chunk).2.1 = false :=
  ⟨1, 1, 7, 1, 0, wB (fun c => { c.wUnits [.crucible] [0] with items := [1, 1, 1, 1], colls := [{ wColl with elems := 2 ^ 20 + 1 }] }), wColl, ⟨by decide +kernel, by decide +kernel, by decide +kernel, by decide +kernel, by decide +kernel, by decide +kernel, by decide +kernel, by decide +kernel, Ctl.pickUnit_one (by decide +kernel) _ _ _, (by intro p hp; cases hp with | head => exact ⟨zeros 2048, Reads.of (by decide +kernel)⟩ | tail _ hp => cases hp), h⟩⟩

theorem witness_PieceInstructions :
    (∃ (q : Fin 16384) (i : BitVec 32) (s : State) (x : QInst) (p : List Byte), Issued s q.val i.toNat 0x28 x ∧ Params s q.val x 64 p ∧ s.ctl.inService .runner ≠ [])
    ∧ (∃ (q : Fin 16384) (i : BitVec 32) (s : State) (x : QInst) (p : List Byte), Issued s q.val i.toNat 0x29 x ∧ Params s q.val x 64 p ∧ s.ctl.inService .runner ≠ [])
    ∧ (∃ (q : Fin 16384) (i : BitVec 32) (s : State) (x : QInst) (p : List Byte), Issued s q.val i.toNat 0x2A x ∧ Params s q.val x 80 p ∧ s.ctl.inService .runner ≠ [])
    ∧ (∃ (q : Fin 16384) (i : BitVec 32) (s : State) (x : QInst) (p : List Byte), Issued s q.val i.toNat 0x2B x ∧ Params s q.val x 80 p ∧ s.ctl.inService .runner ≠ [] ∧ s.ctl.inService .crucible ≠ [])
    ∧ (∃ (q : Fin 16384) (i : BitVec 32) (s : State) (x : QInst) (p : List Byte), Issued s q.val i.toNat 0x30 x ∧ Params s q.val x 64 p ∧ s.ctl.inService .riddle ≠ [])
    ∧ (∃ (q : Fin 16384) (i : BitVec 32) (s : State) (x : QInst) (p : List Byte), Issued s q.val i.toNat 0x32 x ∧ Params s q.val x 64 p ∧ s.ctl.inService .riddle ≠ [])
    ∧ (∃ (q : Fin 16384) (i : BitVec 32) (s : State) (x : QInst) (p : List Byte), Issued s q.val i.toNat 0x31 x ∧ Params s q.val x 64 p ∧ s.ctl.inService .riddle ≠ [] ∧ leAt (cleaned cleanTopk p) 8 4 ≤ 65536)
    ∧ (∃ (q : Fin 16384) (i : BitVec 32) (s : State) (x : QInst) (p : List Byte), let b := cleaned cleanTopk p; Issued s q.val i.toNat 0x31 x ∧ Params s q.val x 64 p ∧ s.ctl.inService .riddle ≠ [] ∧ 65536 < leAt b 8 4 ∧ s.ctl.rd (Reg.rsaPages (s.ctl.queCtx q.val).1) < (leAt b 4 4 * topkSegs b * leAt b 2 2 * 8 + 65535) / 65536) :=
  ⟨⟨7, 3, wPar (wInst (wEntry 0x28 0 0x100200 0 0)) (zeros 4 ++ leBytes 4 2 ++ leBytes 8 300 ++ leBytes 8 5 ++ leBytes 8 0x100400 ++ leBytes 8 0x100800 ++ leBytes 8 0x100C00 ++ zeros 16), wInst (wEntry 0x28 0 0x100200 0 0), (zeros 4 ++ leBytes 4 2 ++ leBytes 8 300 ++ leBytes 8 5 ++ leBytes 8 0x100400 ++ leBytes 8 0x100800 ++ leBytes 8 0x100C00 ++ zeros 16), ⟨⟨by decide +kernel, by decide +kernel, by decide +kernel⟩, Params.of (by decide +kernel) (by unfold CleanAddr; decide +kernel) (by decide +kernel), by decide +kernel⟩⟩,
    ⟨7, 3, wPar (wInst (wEntry 0x29 0 0x100200 0 0)) (zeros 4 ++ leBytes 4 2 ++ leBytes 8 300 ++ leBytes 8 5 ++ leBytes 8 0x100400 ++ leBytes 8 0x100800 ++ leBytes 8 0x100C00 ++ zeros 16), wInst (wEntry 0x29 0 0x100200 0 0), (zeros 4 ++ leBytes 4 2 ++ leBytes 8 300 ++ leBytes 8 5 ++ leBytes 8 0x100400 ++ leBytes 8 0x100800 ++ leBytes 8 0x100C00 ++ zeros 16), ⟨⟨by decide +kernel, by decide +kernel, by decide +kernel⟩, Params.of (by decide +kernel) (by unfold CleanAddr; decide +kernel) (by decide +kernel), by decide +kernel⟩⟩,
    ⟨7, 3, wPar (wInst (wEntry 0x2A 0 0x100200 0 0)) (zeros 80), wInst (wEntry 0x2A 0 0x100200 0 0), (zeros 80), ⟨⟨by decide +kernel, by decide +kernel, by decide +kernel⟩, Params.of (by decide +kernel) (by unfold CleanAddr; decide +kernel) (by decide +kernel), by decide +kernel⟩⟩,
    ⟨7, 3, wPar (wInst (wEntry 0x2B 0 0x100200 0 0)) (zeros 80), wInst (wEntry 0x2B 0 0x100200 0 0), (zeros 80), ⟨⟨by decide +kernel, by decide +kernel, by decide +kernel⟩, Params.of (by decide +kernel) (by unfold CleanAddr; decide +kernel) (by decide +kernel), by decide +kernel, by decide +kernel⟩⟩,
    ⟨7, 3, wPar (wInst (wEntry 0x30 0 0x100200 0 0)) (zeros 64), wInst (wEntry 0x30 0 0x100200 0 0), (zeros 64), ⟨⟨by decide +kernel, by decide +kernel, by decide +kernel⟩, Params.of (by decide +kernel) (by unfold CleanAddr; decide +kernel) (by decide +kernel), by decide +kernel⟩⟩,
    ⟨7, 3, wPar (wInst (wEntry 0x32 0 0x100200 0 0)) (zeros 64), wInst (wEntry 0x32 0 0x100200 0 0), (zeros 64), ⟨⟨by decide +kernel, by decide +kernel, by decide +kernel⟩, Params.of (by decide +kernel) (by unfold CleanAddr; decide +kernel) (by decide +kernel), by decide +kernel⟩⟩,
    ⟨7, 3, wPar (wInst (wEntry 0x31 0 0x100200 0 0)) (leBytes 4 0x40001 ++ leBytes 4 3 ++ leBytes 4 100 ++ zeros 52), wInst (wEntry 0x31 0 0x100200 0 0), (leBytes 4 0x40001 ++ leBytes 4 3 ++ leBytes 4 100 ++ zeros 52), ⟨⟨by decide +kernel, by decide +kernel, by decide +kernel⟩, Params.of (by decide +kernel) (by unfold CleanAddr; decide +kernel) (by decide +kernel), by decide +kernel, by decide +kernel⟩⟩,
    ⟨7, 3, (wPar (wInst (wEntry 0x31 0 0x100200 0 0)) (leBytes 4 0x40001 ++ leBytes 4 3 ++ leBytes 4 100000 ++ zeros 52)).onCtl (fun c => c.wr (Reg.rsaPages 1) 0), wInst (wEntry 0x31 0 0x100200 0 0), (leBytes 4 0x40001 ++ leBytes 4 3 ++ leBytes 4 100000 ++ zeros 52), ⟨⟨by decide +kernel, by decide +kernel, by decide +kernel⟩, Params.of (by decide +kernel) (by unfold CleanAddr; decide +kernel) (by decide +kernel), by decide +kernel, by decide +kernel, by decide +kernel⟩⟩⟩

theorem witness_PieceInstructions_2 :
    (∃ (q : Fin 16384) (i : BitVec 32) (u : Nat) (s : State) (w : State) (x : QInst) (idx : List Byte) (row : List Byte), let c := s.ctl.queCtx q.val; let v := s.onCtl (·.worked .runner u c.1); let n := leAt x.param 4 4; s.ctl.inst? q.val i.toNat (fun x => x.phase == .running && x.todo.contains 0 && 0x28 ≤ entOpcode x.entry && entOpcode x.entry ≤ 0x32) = some x ∧ entOpcode x.entry = 0x28 ∧ x.todo = [0] ∧ x.held = 0 ∧ leAt x.param 8 8 = 1 ∧ s.ctl.pickUnit .runner q.val x.index 0 = some u ∧ leAt x.param 0 1 = 0 ∧ idx.length = 4 ∧ leNat idx < leAt x.param 16 8 ∧ Reads v c.1 c.2 (addrPlus (leAt x.param 24 8) 0) 4 rightR idx ∧ Reads v c.1 c.2 (addrPlus (leAt x.param 32 8) (leNat idx * n)) n rightR row ∧ Writes v c.1 c.2 (addrPlus (leAt x.param 40 8) 0) row w ∧ (w.ctl.instOf q.val x.serial).isSome = true)
    ∧ (∃ (n : Fin 64) (s : State), s.ctl.mainUp = true ∧ (s.ctl.unit .runner n.val).st = .inService)
    ∧ (∃ (n : Fin 32) (s : State), s.ctl.mainUp = true ∧ (s.ctl.unit .riddle n.val).st = .inService) :=
  ⟨⟨7, 3, 0, (wI ({ wInst (wEntry 0x28 0 0x100200 0 0) with phase := .running, todo := [0], param := zeros 4 ++ leBytes 4 2 ++ leBytes 8 1 ++ leBytes 8 5 ++ leBytes 8 0x100400 ++ leBytes 8 0x100010 ++ leBytes 8 0x100C00 ++ zeros 16 })).onCtl (·.wUnits [.runner] [0]), wWrite (((wI ({ wInst (wEntry 0x28 0 0x100200 0 0) with phase := .running, todo := [0], param := zeros 4 ++ leBytes 4 2 ++ leBytes 8 1 ++ leBytes 8 5 ++ leBytes 8 0x100400 ++ leBytes 8 0x100010 ++ leBytes 8 0x100C00 ++ zeros 16 })).onCtl (·.wUnits [.runner] [0])).onCtl (·.worked .runner 0 1)) 0x100C00 [7, 9], { wInst (wEntry 0x28 0 0x100200 0 0) with phase := .running, todo := [0], param := zeros 4 ++ leBytes 4 2 ++ leBytes 8 1 ++ leBytes 8 5 ++ leBytes 8 0x100400 ++ leBytes 8 0x100010 ++ leBytes 8 0x100C00 ++ zeros 16 }, zeros 4, [7, 9], ⟨by decide +kernel, by decide +kernel, by decide +kernel, by decide +kernel, by decide +kernel, Ctl.pickUnit_one (by decide +kernel) _ _ _, by decide +kernel, by decide +kernel, by decide +kernel, Reads.of (by decide +kernel), Reads.of (by decide +kernel), Writes.of (by decide +kernel), by decide +kernel⟩⟩,
    ⟨5, wB id, ⟨by decide +kernel, by decide +kernel⟩⟩,
    ⟨5, wB id, ⟨by decide +kernel, by decide +kernel⟩⟩⟩

theorem witness_AttentionCommands :
    (∃ (q : Fin 16384) (i : BitVec 32) (s : State) (x : QInst) (p : List Byte) (t : List Byte) (qb : List Byte) (r : KvRegion), let c := s.ctl.queCtx q.val; let b := cleaned (cleanAttend false) p; let w := b ++ cleaned (cleanSeq (atSegment b)) t; Issued s q.val i.toNat 0x40 x ∧ bitOf (entOpf x.entry) 0 = false ∧ Params s q.val x 96 p ∧ atNq b = 1 ∧ atNq w = 1 ∧ t.length = 32 ∧ Reads s c.1 c.2 (leAt b 32 8) 32 rightR t ∧ NamesRegion s c.1 (atBase w 0) r ∧ r.hkv = atHkv w ∧ r.dhead = atDh w ∧ atLen w 0 ≤ 256 * r.capb ∧ s.ctl.inService .cupola ≠ [] ∧ Reads s c.1 c.2 (leAt w 24 8) (2 * atRows w * atDh w) rightR qb)
    ∧ (∃ (q : Fin 16384) (i : BitVec 32) (row : Nat) (s : State) (u : State) (x : QInst) (l : List RowState), let c := s.ctl.queCtx q.val; let res := ((mergeTree l.length l).getD (RowState.start (atDh x.param))).result; s.ctl.attending? q.val i.toNat = some x ∧ row < atRows x.param ∧ row ∉ Tab.get x.data 0 [] ∧ x.rowStates row = some l ∧ bitOf (entOpf x.entry) 0 = false ∧ leAt x.param 48 8 = 0 ∧ leAt x.param 56 8 = 0 ∧ (Tab.get x.data 0 []).length + 1 = atRows x.param ∧ Writes s c.1 c.2 (addrPlus (leAt x.param 40 8) (2 * row * atDh x.param)) (res.1.flatMap (leBytes 2)) u ∧ (u.ctl.instOf q.val x.serial).isSome = true)
    ∧ (∃ (q : Fin 16384) (i : BitVec 32) (row : Nat) (s : State) (x : QInst) (l : List RowState), s.ctl.attending? q.val i.toNat = some x ∧ row < atRows x.param ∧ row ∉ Tab.get x.data 0 [] ∧ x.rowStates row = some l ∧ bitOf (entOpf x.entry) 0 = true ∧ (Tab.get x.data 0 []).length + 1 = atRows x.param)
    ∧ (∃ (n : Fin 34) (s : State), s.ctl.mainUp = true ∧ (s.ctl.unit .cupola n.val).st = .inService) :=
  ⟨⟨7, 3, wAttS (wInst (wEntry 0x40 0 0x100200 0 0)), wInst (wEntry 0x40 0 0x100200 0 0), wAtt, wSeq, zeros 64, wKv, ⟨⟨by decide +kernel, by decide +kernel, by decide +kernel⟩, by decide +kernel, Params.of (by decide +kernel) (by unfold CleanAddr; decide +kernel) (by decide +kernel), by decide +kernel, by decide +kernel, by decide +kernel, Reads.of (by decide +kernel), by unfold NamesRegion; decide +kernel, by decide +kernel, by decide +kernel, by decide +kernel, by decide +kernel, Reads.of (by decide +kernel)⟩⟩,
    ⟨7, 3, 0, wAttS ({ wAttX with todo := [], rows := [(0, { RowState.start 32 with l := 0x3F800000, m := 0 })] }), wWrite (wAttS ({ wAttX with todo := [], rows := [(0, { RowState.start 32 with l := 0x3F800000, m := 0 })] })) 0x100A00 (((mergeTree 1 [{ RowState.start 32 with l := 0x3F800000, m := 0 }]).getD (RowState.start 32)).result.1.flatMap (leBytes 2)), { wAttX with todo := [], rows := [(0, { RowState.start 32 with l := 0x3F800000, m := 0 })] }, [{ RowState.start 32 with l := 0x3F800000, m := 0 }], ⟨by decide +kernel, by decide +kernel, by decide +kernel, by decide +kernel, by decide +kernel, by decide +kernel, by decide +kernel, by decide +kernel, Writes.of (by decide +kernel), by decide +kernel⟩⟩,
    ⟨7, 3, 0, wAttS ({ wAttX with entry := [0x40, 0x10] ++ zeros 30, todo := [], rows := [(0, { RowState.start 32 with l := 0x3F800000, m := 0 })] }), { wAttX with entry := [0x40, 0x10] ++ zeros 30, todo := [], rows := [(0, { RowState.start 32 with l := 0x3F800000, m := 0 })] }, [{ RowState.start 32 with l := 0x3F800000, m := 0 }], ⟨by decide +kernel, by decide +kernel, by decide +kernel, by decide +kernel, by decide +kernel, by decide +kernel⟩⟩,
    ⟨5, wB id, ⟨by decide +kernel, by decide +kernel⟩⟩⟩

theorem witness_AttentionCommands_given_1 (h : (((match (Act.pass 1 5 (wAtt ++ wSeq) { rows := [0], head := 0, split := 0 }).run { s := ((wAttS wAttX).onCtl (fun c => { c.wUnits [.cupola] [0] with items := [1, 1, 1, 1] })).onCtl (·.worked .cupola 0 1), fl := 0 } with | .ok r => r.2.s | .error _ => State.reset)).ctl.nextItem .cupolaPass).2.1 = false) : ∃ (q : Fin 16384) (i : BitVec 32) (n : Nat) (u : Nat) (fl : Nat) (s : State) (w : State) (x : QInst) (ps : AttPass) (rows : Tab RowState), let c := s.ctl.queCtx q.val; s.ctl.attending? q.val i.toNat = some x ∧ n ∈ x.todo ∧ (attPasses x.param)[n]? = some ps ∧ s.ctl.pickUnit .cupola q.val x.index n = some u ∧ (Act.pass c.1 c.2 x.param ps).run { s := s.onCtl (·.worked .cupola u c.1), fl := x.flags } = .ok (rows, { s := w, fl := fl }) ∧ (w.ctl.nextItem .cupolaPass).2.1 = false ∧ (w.ctl.instOf q.val x.serial).isSome = true :=
  ⟨7, 3, 0, 0, 0, (wAttS wAttX).onCtl (fun c => { c.wUnits [.cupola] [0] with items := [1, 1, 1, 1] }), (match (Act.pass 1 5 (wAtt ++ wSeq) { rows := [0], head := 0, split := 0 }).run { s := ((wAttS wAttX).onCtl (fun c => { c.wUnits [.cupola] [0] with items := [1, 1, 1, 1] })).onCtl (·.worked .cupola 0 1), fl := 0 } with | .ok r => r.2.s | .error _ => State.reset), wAttX, { rows := [0], head := 0, split := 0 }, (match (Act.pass 1 5 (wAtt ++ wSeq) { rows := [0], head := 0, split := 0 }).run { s := ((wAttS wAttX).onCtl (fun c => { c.wUnits [.cupola] [0] with items := [1, 1, 1, 1] })).onCtl (·.worked .cupola 0 1), fl := 0 } with | .ok r => r.1 | .error _ => []), ⟨by decide +kernel, by decide +kernel, by decide +kernel, Ctl.pickUnit_one (by decide +kernel) _ _ _, Act.gives (by decide +kernel), h, by decide +kernel⟩⟩

theorem witness_KvInstructions :
    (∃ (q : Fin 16384) (i : BitVec 32) (s : State) (u : State) (x : QInst) (p : List Byte) (kb : List Byte) (vb : List Byte) (r : KvRegion) (r' : KvRegion), let c := s.ctl.queCtx q.val; let b := cleaned cleanAppend p; let pos := leAt b 8 4; let rb := 2 * r.dhead; let pages := insertAll [] (List.map (·.1) (kvPieces r.psize (rb / r.psize + 2) (r.kOff pos 0) rb) ++ List.map (·.1) (kvPieces r.psize (rb / r.psize + 2) (r.vOff pos 0) rb)); let ks := u.ctl.kvSegs r' (r.kOff pos 0) kb.length; let vs := u.ctl.kvSegs r' (r.vOff pos 0) vb.length; let m := u.mem.writeSegs ks kb; Issued s q.val i.toNat 0x41 x ∧ Params s q.val x 48 p ∧ NamesRegion s c.1 (leAt b 0 8) r ∧ r.hkv = leAt b 16 2 ∧ r.dhead = leAt b 18 2 ∧ r.hkv = 1 ∧ leAt b 12 4 = 1 ∧ pos < 256 * r.capb ∧ MayWriteRegion s c.1 c.2 r ∧ pages.any (fun k => match (r.pages.find? k).bind s.ctl.kvPage? with | some g => g.ro | none => false) = false ∧ s.kvPrepare c.1 r.index pages = some u ∧ u.ctl.kvFind c.1 r.index = some r' ∧ Reads u c.1 c.2 (addrPlus (leAt b 24 8) 0) rb rightR kb ∧ u.mem.writeBlocked ks = false ∧ Reads { u with mem := m } c.1 c.2 (addrPlus (leAt b 32 8) 0) rb rightR vb ∧ m.writeBlocked vs = false ∧ (u.ctl.instOf q.val x.serial).isSome = true)
    ∧ (∃ (q : Fin 16384) (i : BitVec 32) (s : State) (x : QInst) (p : List Byte) (tok : List Byte) (r : KvRegion), let c := s.ctl.queCtx q.val; let b := cleaned (cleanPrefix ++ [fun p => if leAt p 12 4 = 0 then fixAddr 40 p else p]) p; let n := leAt b 8 4; let h := s.ctl.prefixInsert c.1 r.index (slice b 32 8) tok n; Issued s q.val i.toNat 0x42 x ∧ Params s q.val x 48 p ∧ leAt b 12 4 = 1 ∧ NamesRegion s c.1 (leAt b 0 8) r ∧ 1 ≤ n ∧ n ≤ 256 * r.capb ∧ Reads s c.1 c.2 (leAt b 24 8) (4 * (n / 256 * 256)) rightR tok)
    ∧ (∃ (q : Fin 16384) (i : BitVec 32) (s : State) (x : QInst) (p : List Byte) (tok : List Byte) (r : KvRegion), let c := s.ctl.queCtx q.val; let b := cleaned (cleanPrefix ++ [fun p => if leAt p 12 4 = 0 then fixAddr 40 p else p]) p; let n := leAt b 8 4; Issued s q.val i.toNat 0x42 x ∧ Params s q.val x 48 p ∧ leAt b 12 4 = 0 ∧ NamesRegion s c.1 (leAt b 0 8) r ∧ 1 ≤ n ∧ n ≤ 256 * r.capb ∧ Reads s c.1 c.2 (leAt b 24 8) (4 * (n / 16 * 16)) rightR tok ∧ MayWriteRegion s c.1 c.2 r ∧ s.ctl.matchKeys r (s.ctl.kvDomain c.1) (keysOf (slice b 32 8) tok n) = [])
    ∧ (∃ (q : Fin 16384) (i : BitVec 32) (s : State) (u : State) (x : QInst) (p : List Byte) (a : KvRegion) (d : KvRegion) (out : Shared), let c := s.ctl.queCtx q.val; let b := cleaned cleanFork p; Issued s q.val i.toNat 0x43 x ∧ Params s q.val x 48 p ∧ s.ctl.rd (Reg.kvsFork c.1) = 1 ∧ NamesRegion s c.1 (leAt b 0 8) a ∧ NamesRegion s c.1 (leAt b 24 8) d ∧ a.index ≠ d.index ∧ a.hkv = d.hkv ∧ a.dhead = d.dhead ∧ a.page = d.page ∧ leAt b 8 4 ≤ 256 * a.capb ∧ leAt b 8 4 ≤ 256 * d.capb ∧ MayWriteRegion s c.1 c.2 d ∧ (Act.sharePositions c.1 c.2 d.index (leAt b 8 4) (fun k => (a.blockPages k).map (fun g => a.pages.find? g))).run { s := s, fl := (x.clampedIf p b).flags } = .ok (out, { s := u, fl := (x.clampedIf p b).flags }) ∧ (u.ctl.instOf q.val x.serial).isSome = true) :=
  ⟨⟨7, 3, (wKvS (wInst (wEntry 0x41 0 0x100200 0 0)) (leBytes 8 (2 ^ 63 + 0xFFF * 2 ^ 44 + 0x1000000) ++ leBytes 4 0 ++ leBytes 4 1 ++ leBytes 2 1 ++ leBytes 2 32 ++ zeros 4 ++ leBytes 8 0x100000 ++ leBytes 8 0x100800 ++ zeros 8)), (((wKvS (wInst (wEntry 0x41 0 0x100200 0 0)) (leBytes 8 (2 ^ 63 + 0xFFF * 2 ^ 44 + 0x1000000) ++ leBytes 4 0 ++ leBytes 4 1 ++ leBytes 2 1 ++ leBytes 2 32 ++ zeros 4 ++ leBytes 8 0x100000 ++ leBytes 8 0x100800 ++ zeros 8)).kvPrepare 1 3 [0, 4]).getD State.reset), wInst (wEntry 0x41 0 0x100200 0 0), (leBytes 8 (2 ^ 63 + 0xFFF * 2 ^ 44 + 0x1000000) ++ leBytes 4 0 ++ leBytes 4 1 ++ leBytes 2 1 ++ leBytes 2 32 ++ zeros 4 ++ leBytes 8 0x100000 ++ leBytes 8 0x100800 ++ zeros 8), zeros 16 ++ [7, 9] ++ zeros 46, zeros 64, wKv, ((((wKvS (wInst (wEntry 0x41 0 0x100200 0 0)) (leBytes 8 (2 ^ 63 + 0xFFF * 2 ^ 44 + 0x1000000) ++ leBytes 4 0 ++ leBytes 4 1 ++ leBytes 2 1 ++ leBytes 2 32 ++ zeros 4 ++ leBytes 8 0x100000 ++ leBytes 8 0x100800 ++ zeros 8)).kvPrepare 1 3 [0, 4]).getD State.reset).ctl.kvFind 1 3).getD wKv, ⟨⟨by decide +kernel, by decide +kernel, by decide +kernel⟩, Params.of (by decide +kernel) (by unfold CleanAddr; decide +kernel) (by decide +kernel), by unfold NamesRegion; decide +kernel, by decide +kernel, by decide +kernel, by decide +kernel, by decide +kernel, by decide +kernel, ⟨.kv 16777216, 0, false, by decide +kernel, by decide +kernel⟩, by decide +kernel, by decide +kernel, by decide +kernel, Reads.of (by decide +kernel), by decide +kernel, Reads.of (by decide +kernel), by decide +kernel, by decide +kernel⟩⟩,
    ⟨7, 3, wKvS (wInst (wEntry 0x42 0 0x100200 0 0)) (leBytes 8 (2 ^ 63 + 0xFFF * 2 ^ 44 + 0x1000000) ++ leBytes 4 300 ++ leBytes 4 1 ++ zeros 8 ++ leBytes 8 0x100800 ++ leBytes 8 5 ++ leBytes 8 0x100C00), wInst (wEntry 0x42 0 0x100200 0 0), (leBytes 8 (2 ^ 63 + 0xFFF * 2 ^ 44 + 0x1000000) ++ leBytes 4 300 ++ leBytes 4 1 ++ zeros 8 ++ leBytes 8 0x100800 ++ leBytes 8 5 ++ leBytes 8 0x100C00), zeros 1024, wKv, ⟨⟨by decide +kernel, by decide +kernel, by decide +kernel⟩, Params.of (by decide +kernel) (by unfold CleanAddr; decide +kernel) (by decide +kernel), by decide +kernel, by unfold NamesRegion; decide +kernel, by decide +kernel, by decide +kernel, Reads.of (by decide +kernel)⟩⟩,
    ⟨7, 3, wKvS (wInst (wEntry 0x42 0 0x100200 0 0)) (leBytes 8 (2 ^ 63 + 0xFFF * 2 ^ 44 + 0x1000000) ++ leBytes 4 40 ++ leBytes 4 0 ++ zeros 8 ++ leBytes 8 0x100800 ++ leBytes 8 5 ++ leBytes 8 0x100C00), wInst (wEntry 0x42 0 0x100200 0 0), (leBytes 8 (2 ^ 63 + 0xFFF * 2 ^ 44 + 0x1000000) ++ leBytes 4 40 ++ leBytes 4 0 ++ zeros 8 ++ leBytes 8 0x100800 ++ leBytes 8 5 ++ leBytes 8 0x100C00), zeros 128, wKv, ⟨⟨by decide +kernel, by decide +kernel, by decide +kernel⟩, Params.of (by decide +kernel) (by unfold CleanAddr; decide +kernel) (by decide +kernel), by decide +kernel, by unfold NamesRegion; decide +kernel, by decide +kernel, by decide +kernel, Reads.of (by decide +kernel), ⟨.kv 16777216, 0, false, by decide +kernel, by decide +kernel⟩, by decide +kernel⟩⟩,
    ⟨7, 3, wKvS (wInst (wEntry 0x43 0 0x100200 0 0)) (leBytes 8 (2 ^ 63 + 0xFFF * 2 ^ 44 + 0x1000000) ++ leBytes 4 300 ++ zeros 12 ++ leBytes 8 (2 ^ 63 + 0xFFF * 2 ^ 44 + 0x2000000) ++ zeros 16), (match (Act.sharePositions 1 5 4 300 (fun k => (wKv.blockPages k).map (fun g => wKv.pages.find? g))).run { s := wKvS (wInst (wEntry 0x43 0 0x100200 0 0)) (leBytes 8 (2 ^ 63 + 0xFFF * 2 ^ 44 + 0x1000000) ++ leBytes 4 300 ++ zeros 12 ++ leBytes 8 (2 ^ 63 + 0xFFF * 2 ^ 44 + 0x2000000) ++ zeros 16), fl := 0 } with | .ok r => r.2.s | .error _ => State.reset), wInst (wEntry 0x43 0 0x100200 0 0), (leBytes 8 (2 ^ 63 + 0xFFF * 2 ^ 44 + 0x1000000) ++ leBytes 4 300 ++ zeros 12 ++ leBytes 8 (2 ^ 63 + 0xFFF * 2 ^ 44 + 0x2000000) ++ zeros 16), wKv, { wKv with index := 4, base := 0x2000000 }, (match (Act.sharePositions 1 5 4 300 (fun k => (wKv.blockPages k).map (fun g => wKv.pages.find? g))).run { s := wKvS (wInst (wEntry 0x43 0 0x100200 0 0)) (leBytes 8 (2 ^ 63 + 0xFFF * 2 ^ 44 + 0x1000000) ++ leBytes 4 300 ++ zeros 12 ++ leBytes 8 (2 ^ 63 + 0xFFF * 2 ^ 44 + 0x2000000) ++ zeros 16), fl := 0 } with | .ok r => r.1 | .error _ => { mapped := 0, copied := 0, refs := [] }), ⟨⟨by decide +kernel, by decide +kernel, by decide +kernel⟩, Params.of (by decide +kernel) (by unfold CleanAddr; decide +kernel) (by decide +kernel), by decide +kernel, by unfold NamesRegion; decide +kernel, by unfold NamesRegion; decide +kernel, by decide +kernel, by decide +kernel, by decide +kernel, by decide +kernel, by decide +kernel, by decide +kernel, ⟨.kv 33554432, 0, false, by decide +kernel, by decide +kernel⟩, Act.gives (by decide +kernel), by decide +kernel⟩⟩⟩

theorem witness_PlacementInstructions :
    (∃ (q : Fin 16384) (i : BitVec 32) (s : State) (x : QInst) (p : List Byte) (hd : List Byte) (img : List Byte), let c := s.ctl.queCtx q.val; let b := cleaned cleanPlace p; let ls := rectTiles b; let ts := ls.map s.ctl.physOf; let v := ts.foldl State.clearTile s; let e := slice img 64 32; let pl : Place := { bay := c.1, handle := leAt b 13 1, w := leAt b 11 1, h := leAt b 12 1, links := leAt b 14 1, entry := leAt hd 8 4, imem := leAt hd 12 4, tiles := ts, logical := ls, launch := none, latch := false }; Issued s q.val i.toNat 0x51 x ∧ Params s q.val x 32 p ∧ s.ctl.places = [] ∧ (∀ l ∈ ls, l ∈ s.ctl.bayTiles c.1 ∧ s.ctl.isClearing l = false ∧ s.ctl.tileIn (s.ctl.physOf l) = true) ∧ Reads v c.1 c.2 (leAt b 0 8) 64 rightX hd ∧ leAt hd 0 4 = 0x5452534B ∧ cleaned cleanImage hd = hd ∧ leAt hd 5 1 = 1 ∧ Reads v c.1 c.2 (leAt b 0 8) (leAt hd 16 4) rightX img ∧ cleaned (cleanSegment (leAt hd 16 4)) e = e)
    ∧ (∃ (q : Fin 16384) (i : BitVec 32) (s : State) (x : QInst) (p : Place), Issued s q.val i.toNat 0x50 x ∧ s.ctl.placeOf (s.ctl.queCtx q.val).1 (field (entA x.entry) 0 4) = some p ∧ p.launch = none ∧ p.logical.any s.ctl.awaitsRemap = false ∧ p.tiles.Nodup)
    ∧ (∃ (q : Fin 16384) (i : BitVec 32) (s : State) (x : QInst) (p : Place), s.ctl.launched? q.val i.toNat = some (x, p) ∧ (∀ j ∈ p.tiles, (s.ctl.tile j).run = false ∧ (s.ctl.tile j).putting = false))
    ∧ (∃ (q : Fin 16384) (i : BitVec 32) (s : State) (x : QInst) (p : Place), s.ctl.launched? q.val i.toNat = some (x, p) ∧ s.ctl.instOf q.val x.serial = some x ∧ s.ctl.waitLimit q.val x ≤ s.ctl.now - x.since)
    ∧ (∃ (q : Fin 16384) (i : BitVec 32) (s : State) (x : QInst) (p : List Byte), let c := s.ctl.queCtx q.val; let b := cleaned cleanSelftest p; let own := s.ctl.bayTiles c.1; Issued s q.val i.toNat 0x60 x ∧ Params s q.val x 32 p ∧ leAt b 1 1 = 1) :=
  ⟨⟨7, 3, (let s := (wPar (wInst (wEntry 0x51 0 0x100200 0 0)) (leBytes 8 0x100800 ++ [0, 0, 0, 1, 1, 2, 0] ++ zeros 17)).onCtl (·.wTile); { s with mem := s.mem.write (hbmKey 2 3 + 0x800) ((leBytes 4 0x5452534B ++ [1, 1, 0, 0] ++ leBytes 4 8 ++ leBytes 4 65536 ++ leBytes 4 128 ++ zeros 44) ++ (leBytes 4 0 ++ leBytes 4 32 ++ leBytes 4 32 ++ leBytes 4 64 ++ zeros 16) ++ zeros 32) }), wInst (wEntry 0x51 0 0x100200 0 0), (leBytes 8 0x100800 ++ [0, 0, 0, 1, 1, 2, 0] ++ zeros 17), (leBytes 4 0x5452534B ++ [1, 1, 0, 0] ++ leBytes 4 8 ++ leBytes 4 65536 ++ leBytes 4 128 ++ zeros 44), (leBytes 4 0x5452534B ++ [1, 1, 0, 0] ++ leBytes 4 8 ++ leBytes 4 65536 ++ leBytes 4 128 ++ zeros 44) ++ (leBytes 4 0 ++ leBytes 4 32 ++ leBytes 4 32 ++ leBytes 4 64 ++ zeros 16) ++ zeros 32, ⟨⟨by decide +kernel, by decide +kernel, by decide +kernel⟩, Params.of (by decide +kernel) (by unfold CleanAddr; decide +kernel) (by decide +kernel), by decide +kernel, by decide +kernel, Reads.of (by decide +kernel), by decide +kernel, by decide +kernel, by decide +kernel, Reads.of (by decide +kernel), by decide +kernel⟩⟩,
    ⟨7, 3, wS (fun c => { (c.wIn (wInst (wEntry 0x50 0 2 77 0))).wTile with places := [wPlace] }), wInst (wEntry 0x50 0 2 77 0), wPlace, ⟨⟨by decide +kernel, by decide +kernel, by decide +kernel⟩, by decide +kernel, by decide +kernel, by decide +kernel, by decide +kernel⟩⟩,
    ⟨7, 3, wS (fun c => { (c.wIn ({ wInst (wEntry 0x50 0 2 77 0) with phase := .running })).wTile with places := [{ wPlace with launch := some (7, 11) }] }), { wInst (wEntry 0x50 0 2 77 0) with phase := .running }, { wPlace with launch := some (7, 11) }, ⟨by decide +kernel, by decide +kernel⟩⟩,
    ⟨7, 3, wS (fun c => { (c.wIn ({ wInst (wEntry 0x50 0 2 77 0) with phase := .running })).wTile with now := 10 ^ 12, places := [{ wPlace with launch := some (7, 11) }] }), { wInst (wEntry 0x50 0 2 77 0) with phase := .running }, { wPlace with launch := some (7, 11) }, ⟨by decide +kernel, by decide +kernel, by decide +kernel⟩⟩,
    ⟨7, 3, (wPar (wInst (wEntry 0x60 0 0x100200 0 0)) ([1, 1] ++ zeros 30)).onCtl (·.wTile), wInst (wEntry 0x60 0 0x100200 0 0), [1, 1] ++ zeros 30, ⟨⟨by decide +kernel, by decide +kernel, by decide +kernel⟩, Params.of (by decide +kernel) (by unfold CleanAddr; decide +kernel) (by decide +kernel), by decide +kernel⟩⟩⟩

theorem witness_TileOwnership :
    (∃ (i : Fin 272) (q : Nat) (s : State) (p : Place) (y : QInst), s.ctl.mainUp = true ∧ (s.ctl.unit .tile i.val).st = .inService ∧ s.ctl.runner? i.val = some p ∧ Launched s p q y)
    ∧ (∃ (i : Fin 272) (s : State), s.ctl.mainUp = true ∧ (s.ctl.unit .tile i.val).st = .inService ∧ s.ctl.runner? i.val = none)
    ∧ (∃ (d : Fin 2) (col : Fin 8) (y : Nat) (s : State), s.ctl.mainUp = true ∧ s.ctl.failedRow d.val col.val = some y ∧ (∀ p ∈ s.ctl.places, p.launch.isSome = true → ∀ l ∈ p.logical, ¬ (l / 128 = d.val ∧ l % 8 = col.val ∧ y ≤ l % 128 / 8)))
    ∧ (∃ (l : Fin 256) (v : Word) (s : State), s.ctl.mainUp = true ∧ field v.toNat 0 13 ≠ field (s.ctl.reg (0x0C001000 + 8 * l.val)).toNat 0 13 ∧ (∀ p ∈ s.ctl.holders l.val, p.launch = none) ∧ s.ctl.physOf l.val ≠ absentTile)
    ∧ (∃ (l : Fin 256) (v : Word) (s : State), s.ctl.mainUp = true ∧ field v.toNat 0 13 ≠ field (s.ctl.reg (0x0C001000 + 8 * l.val)).toNat 0 13 ∧ (∃ p ∈ s.ctl.holders l.val, p.launch.isSome = true))
    ∧ (∃ (l : Fin 256) (v : Word) (s : State) (x : Clearing), s.ctl.underTest l.val = false ∧ s.ctl.clearing.find? (fun (y : Clearing) => y.tile == l.val) = some x ∧ x.own = some v ∧ s.ctl.physOf l.val ≠ absentTile) :=
  ⟨⟨0, 7, wS (fun c => { ((c.wIn ({ wInst (wEntry 0x50 0 2 77 0) with phase := .running })).wTile).putTile 0 { Tile.init with run := true } with places := [{ wPlace with launch := some (7, 11) }] }), { wPlace with launch := some (7, 11) }, { wInst (wEntry 0x50 0 2 77 0) with phase := .running }, ⟨by decide +kernel, by decide +kernel, by decide +kernel, by unfold Launched; decide +kernel⟩⟩,
    ⟨5, wB id, ⟨by decide +kernel, by decide +kernel, by decide +kernel⟩⟩,
    ⟨0, 3, 2, wS (fun c => c.wUp.putUnit .tile 19 { c.unit .tile 19 with st := .failed }), ⟨by decide +kernel, by decide +kernel, by decide +kernel⟩⟩,
    ⟨0, 0x1002, wS (fun c => { c.wBay.wTile with places := [wPlace] }), ⟨by decide +kernel, by decide +kernel, by decide +kernel, by decide +kernel⟩⟩,
    ⟨0, 0x1002, wS (fun c => { ((c.wIn ({ wInst (wEntry 0x50 0 2 77 0) with phase := .running })).wTile).putTile 0 { Tile.init with run := true } with places := [{ wPlace with launch := some (7, 11) }] }), ⟨by decide +kernel, by decide +kernel, by decide +kernel⟩⟩,
    ⟨0, 0x1002, wS (fun c => { c.wBay.wTile with clearing := [{ tile := 0, own := some 0x1002 }] }), { tile := 0, own := some 0x1002 }, ⟨by decide +kernel, by decide +kernel, by decide +kernel, by decide +kernel⟩⟩⟩

theorem witness_TileArithmetic :
    (∃ (i : Fin 272) (w : TileFields) (s : State) (p : Place), let x := s.ctl.tile i.val; s.tileAt i.val [.add] w = some p)
    ∧ (∃ (i : Fin 272) (w : TileFields) (s : State) (p : Place), let x := s.ctl.tile i.val; s.tileAt i.val [.sub] w = some p)
    ∧ (∃ (i : Fin 272) (w : TileFields) (s : State) (p : Place), let x := s.ctl.tile i.val; s.tileAt i.val [.mul] w = some p)
    ∧ (∃ (i : Fin 272) (w : TileFields) (s : State) (p : Place), let x := s.ctl.tile i.val; s.tileAt i.val [.and] w = some p)
    ∧ (∃ (i : Fin 272) (w : TileFields) (s : State) (p : Place), let x := s.ctl.tile i.val; s.tileAt i.val [.or] w = some p)
    ∧ (∃ (i : Fin 272) (w : TileFields) (s : State) (p : Place), let x := s.ctl.tile i.val; s.tileAt i.val [.xor] w = some p)
    ∧ (∃ (i : Fin 272) (w : TileFields) (s : State) (p : Place), let x := s.ctl.tile i.val; s.tileAt i.val [.slt] w = some p)
    ∧ (∃ (i : Fin 272) (w : TileFields) (s : State) (p : Place), let x := s.ctl.tile i.val; s.tileAt i.val [.sltu] w = some p) :=
  ⟨⟨0, wF, wT .add (wF) (wX), wP, by decide +kernel⟩,
    ⟨0, wF, wT .sub (wF) (wX), wP, by decide +kernel⟩,
    ⟨0, wF, wT .mul (wF) (wX), wP, by decide +kernel⟩,
    ⟨0, wF, wT .and (wF) (wX), wP, by decide +kernel⟩,
    ⟨0, wF, wT .or (wF) (wX), wP, by decide +kernel⟩,
    ⟨0, wF, wT .xor (wF) (wX), wP, by decide +kernel⟩,
    ⟨0, wF, wT .slt (wF) (wX), wP, by decide +kernel⟩,
    ⟨0, wF, wT .sltu (wF) (wX), wP, by decide +kernel⟩⟩

theorem witness_TileArithmetic_2 :
    (∃ (i : Fin 272) (w : TileFields) (s : State) (p : Place), let x := s.ctl.tile i.val; s.tileAt i.val [.min] w = some p)
    ∧ (∃ (i : Fin 272) (w : TileFields) (s : State) (p : Place), let x := s.ctl.tile i.val; s.tileAt i.val [.max] w = some p)
    ∧ (∃ (i : Fin 272) (w : TileFields) (s : State) (p : Place), let x := s.ctl.tile i.val; s.tileAt i.val [.shl] w = some p)
    ∧ (∃ (i : Fin 272) (w : TileFields) (s : State) (p : Place), let x := s.ctl.tile i.val; s.tileAt i.val [.shr] w = some p)
    ∧ (∃ (i : Fin 272) (w : TileFields) (s : State) (p : Place), let x := s.ctl.tile i.val; s.tileAt i.val [.sar] w = some p)
    ∧ (∃ (i : Fin 272) (w : TileFields) (s : State) (p : Place), let x := s.ctl.tile i.val; s.tileAt i.val [.vadd] w = some p)
    ∧ (∃ (i : Fin 272) (w : TileFields) (s : State) (p : Place), let x := s.ctl.tile i.val; s.tileAt i.val [.vsub] w = some p)
    ∧ (∃ (i : Fin 272) (w : TileFields) (s : State) (p : Place), let x := s.ctl.tile i.val; s.tileAt i.val [.vmul] w = some p) :=
  ⟨⟨0, wF, wT .min (wF) (wX), wP, by decide +kernel⟩,
    ⟨0, wF, wT .max (wF) (wX), wP, by decide +kernel⟩,
    ⟨0, wF, wT .shl (wF) (wX), wP, by decide +kernel⟩,
    ⟨0, wF, wT .shr (wF) (wX), wP, by decide +kernel⟩,
    ⟨0, wF, wT .sar (wF) (wX), wP, by decide +kernel⟩,
    ⟨0, wF, wT .vadd (wF) (wX), wP, by decide +kernel⟩,
    ⟨0, wF, wT .vsub (wF) (wX), wP, by decide +kernel⟩,
    ⟨0, wF, wT .vmul (wF) (wX), wP, by decide +kernel⟩⟩

theorem witness_TileArithmetic_3 :
    (∃ (i : Fin 272) (w : TileFields) (s : State) (p : Place), let x := s.ctl.tile i.val; s.tileAt i.val [.vmax] w = some p)
    ∧ (∃ (i : Fin 272) (w : TileFields) (s : State) (p : Place), let x := s.ctl.tile i.val; s.tileAt i.val [.vmin] w = some p)
    ∧ (∃ (i : Fin 272) (w : TileFields) (s : State) (p : Place), let x := s.ctl.tile i.val; s.tileAt i.val [.viadd] w = some p)
    ∧ (∃ (i : Fin 272) (w : TileFields) (s : State) (p : Place), let x := s.ctl.tile i.val; s.tileAt i.val [.vfma] w = some p)
    ∧ (∃ (i : Fin 272) (w : TileFields) (s : State) (p : Place), let x := s.ctl.tile i.val; s.tileAt i.val [.vexp2] w = some p)
    ∧ (∃ (i : Fin 272) (w : TileFields) (s : State) (p : Place), let x := s.ctl.tile i.val; s.tileAt i.val [.vlog2] w = some p)
    ∧ (∃ (i : Fin 272) (w : TileFields) (s : State) (p : Place), let x := s.ctl.tile i.val; s.tileAt i.val [.vrcp] w = some p)
    ∧ (∃ (i : Fin 272) (w : TileFields) (s : State) (p : Place), let x := s.ctl.tile i.val; s.tileAt i.val [.vrsq] w = some p) :=
  ⟨⟨0, wF, wT .vmax (wF) (wX), wP, by decide +kernel⟩,
    ⟨0, wF, wT .vmin (wF) (wX), wP, by decide +kernel⟩,
    ⟨0, wF, wT .viadd (wF) (wX), wP, by decide +kernel⟩,
    ⟨0, wF, wT .vfma (wF) (wX), wP, by decide +kernel⟩,
    ⟨0, wF, wT .vexp2 (wF) (wX), wP, by decide +kernel⟩,
    ⟨0, wF, wT .vlog2 (wF) (wX), wP, by decide +kernel⟩,
    ⟨0, wF, wT .vrcp (wF) (wX), wP, by decide +kernel⟩,
    ⟨0, wF, wT .vrsq (wF) (wX), wP, by decide +kernel⟩⟩

theorem witness_TileArithmetic_4 :
    (∃ (i : Fin 272) (w : TileFields) (s : State) (p : Place), let x := s.ctl.tile i.val; s.tileAt i.val [.vcmplt] w = some p)
    ∧ (∃ (i : Fin 272) (w : TileFields) (s : State) (p : Place), let x := s.ctl.tile i.val; s.tileAt i.val [.vsel] w = some p)
    ∧ (∃ (i : Fin 272) (w : TileFields) (s : State) (p : Place), let x := s.ctl.tile i.val; s.tileAt i.val [.vcvt] w = some p)
    ∧ (∃ (i : Fin 272) (w : TileFields) (s : State) (p : Place), let x := s.ctl.tile i.val; s.tileAt i.val [.vrsum] w = some p)
    ∧ (∃ (i : Fin 272) (w : TileFields) (s : State) (p : Place), let x := s.ctl.tile i.val; s.tileAt i.val [.vbcast] w = some p) :=
  ⟨⟨0, wF, wT .vcmplt (wF) (wX), wP, by decide +kernel⟩,
    ⟨0, wF, wT .vsel (wF) (wX), wP, by decide +kernel⟩,
    ⟨0, wF, wT .vcvt (wF) (wX), wP, by decide +kernel⟩,
    ⟨0, wF, wT .vrsum (wF) (wX), wP, by decide +kernel⟩,
    ⟨0, wF, wT .vbcast (wF) (wX), wP, by decide +kernel⟩⟩

theorem witness_TileControl :
    (∃ (i : Fin 272) (w : TileFields) (s : State) (p : Place), let x := s.ctl.tile i.val; s.tileAt i.val [.beq] w = some p)
    ∧ (∃ (i : Fin 272) (w : TileFields) (s : State) (p : Place), let x := s.ctl.tile i.val; s.tileAt i.val [.bne] w = some p)
    ∧ (∃ (i : Fin 272) (w : TileFields) (s : State) (p : Place), let x := s.ctl.tile i.val; s.tileAt i.val [.blt] w = some p)
    ∧ (∃ (i : Fin 272) (w : TileFields) (s : State) (p : Place), let x := s.ctl.tile i.val; s.tileAt i.val [.bge] w = some p)
    ∧ (∃ (i : Fin 272) (w : TileFields) (s : State) (p : Place), let x := s.ctl.tile i.val; s.tileAt i.val [.jmp] w = some p)
    ∧ (∃ (i : Fin 272) (w : TileFields) (s : State) (p : Place), let x := s.ctl.tile i.val; s.tileAt i.val [.jr] w = some p)
    ∧ (∃ (i : Fin 272) (w : TileFields) (s : State) (p : Place), let x := s.ctl.tile i.val; s.tileAt i.val [.call] w = some p)
    ∧ (∃ (i : Fin 272) (w : TileFields) (v : Nat) (s : State) (p : Place), let x := s.ctl.tile i.val; s.tileAt i.val [.getsys] w = some p ∧ p.sysValue x.rank w.imm.toNat = some v) :=
  ⟨⟨0, wF, wT .beq (wF) (wX), wP, by decide +kernel⟩,
    ⟨0, wF, wT .bne (wF) (wX), wP, by decide +kernel⟩,
    ⟨0, wF, wT .blt (wF) (wX), wP, by decide +kernel⟩,
    ⟨0, wF, wT .bge (wF) (wX), wP, by decide +kernel⟩,
    ⟨0, wF, wT .jmp (wF) (wX), wP, by decide +kernel⟩,
    ⟨0, wF, wT .jr (wF) (wX), wP, by decide +kernel⟩,
    ⟨0, wF, wT .call (wF) (wX), wP, by decide +kernel⟩,
    ⟨0, { wF with imm := 1 }, 2, wT .getsys { wF with imm := 1 } wX, wP, ⟨by decide +kernel, by decide +kernel⟩⟩⟩

theorem witness_TileControl_2 :
    (∃ (i : Fin 272) (w : TileFields) (s : State) (p : Place), let x := s.ctl.tile i.val; s.tileAt i.val [.getsys] w = some p ∧ p.sysValue x.rank w.imm.toNat = none)
    ∧ (∃ (i : Fin 272) (w : TileFields) (s : State) (p : Place), let x := s.ctl.tile i.val; s.tileAt i.val [.halt] w = some p)
    ∧ (∃ (i : Fin 272) (w : TileFields) (s : State) (p : Place), let x := s.ctl.tile i.val; s.tileAt i.val [.bar] w = some p ∧ (∀ j ∈ p.tiles, j ≠ i.val → (s.ctl.tile j).run = true → (if x.atBar then x.barCount else x.barCount + 1) ≤ (s.ctl.tile j).barCount))
    ∧ (∃ (i : Fin 272) (w : TileFields) (s : State) (p : Place), let x := s.ctl.tile i.val; s.tileAt i.val [.bar] w = some p ∧ (∃ j ∈ p.tiles, j ≠ i.val ∧ (s.ctl.tile j).run = true ∧ (s.ctl.tile j).barCount < (if x.atBar then x.barCount else x.barCount + 1)))
    ∧ (∃ (i : Fin 272) (w : TileFields) (s : State) (p : Place), let x := s.ctl.tile i.val; s.tileAt i.val [.sleep] w = some p ∧ x.asleep = false ∧ s.ctl.mbxs = [])
    ∧ (∃ (i : Fin 272) (w : TileFields) (s : State) (p : Place), let x := s.ctl.tile i.val; s.tileAt i.val [.sleep] w = some p ∧ x.asleep = false ∧ s.ctl.mbxs.any (fun (e : Nat × Mbx) => e.2.bound == some (p.bay, p.handle)) = true ∧ p.latch = true)
    ∧ (∃ (i : Fin 272) (w : TileFields) (s : State) (p : Place), let x := s.ctl.tile i.val; s.tileAt i.val [.sleep] w = some p ∧ x.asleep = false ∧ s.ctl.mbxs.any (fun (e : Nat × Mbx) => e.2.bound == some (p.bay, p.handle)) = true ∧ p.latch = false)
    ∧ (∃ (i : Fin 272) (w : TileFields) (s : State) (p : Place), s.tileAt i.val [.nop, .reserved] w = some p) :=
  ⟨⟨0, { wF with imm := 200 }, wT .getsys ({ wF with imm := 200 }) (wX), wP, ⟨by decide +kernel, by decide +kernel⟩⟩,
    ⟨0, wF, wT .halt (wF) (wX), wP, by decide +kernel⟩,
    ⟨0, wF, (wT .bar wF wX).onCtl (fun c => c.putTile 1 { wX with barCount := 4 }), wP, ⟨by decide +kernel, by decide +kernel⟩⟩,
    ⟨0, wF, wT .bar (wF) (wX), wP, ⟨by decide +kernel, by decide +kernel⟩⟩,
    ⟨0, wF, wT .sleep (wF) (wX), wP, ⟨by decide +kernel, by decide +kernel, by decide +kernel⟩⟩,
    ⟨0, wF, (wT .sleep wF wX).onCtl (fun c => { c.putMbx 5 { Mbx.init with bound := some (1, 2) } with places := [{ wP with latch := true }] }), { wP with latch := true }, ⟨by decide +kernel, by decide +kernel, by decide +kernel, by decide +kernel⟩⟩,
    ⟨0, wF, (wT .sleep wF wX).onCtl (fun c => c.putMbx 5 { Mbx.init with bound := some (1, 2) }), wP, ⟨by decide +kernel, by decide +kernel, by decide +kernel, by decide +kernel⟩⟩,
    ⟨0, wF, wT .nop (wF) (wX), wP, by decide +kernel⟩⟩

theorem witness_TileMemory :
    (∃ (i : Fin 272) (w : TileFields) (s : State) (p : Place), let x := s.ctl.tile i.val; s.tileAt i.val [.ld] w = some p)
    ∧ (∃ (i : Fin 272) (w : TileFields) (s : State) (p : Place), let x := s.ctl.tile i.val; s.tileAt i.val [.st] w = some p)
    ∧ (∃ (i : Fin 272) (w : TileFields) (s : State) (p : Place), let x := s.ctl.tile i.val; s.tileAt i.val [.vld] w = some p)
    ∧ (∃ (i : Fin 272) (w : TileFields) (s : State) (p : Place), let x := s.ctl.tile i.val; s.tileAt i.val [.vst] w = some p)
    ∧ (∃ (i : Fin 272) (w : TileFields) (s : State) (p : Place), let x := s.ctl.tile i.val; s.tileAt i.val [.vlds] w = some p)
    ∧ (∃ (i : Fin 272) (w : TileFields) (s : State) (p : Place), let x := s.ctl.tile i.val; s.tileAt i.val [.vsts] w = some p) :=
  ⟨⟨0, wF, wT .ld (wF) (wX), wP, by decide +kernel⟩,
    ⟨0, wF, wT .st (wF) (wX), wP, by decide +kernel⟩,
    ⟨0, wF, wT .vld (wF) (wX), wP, by decide +kernel⟩,
    ⟨0, wF, wT .vst (wF) (wX), wP, by decide +kernel⟩,
    ⟨0, wF, wT .vlds (wF) (wX), wP, by decide +kernel⟩,
    ⟨0, wF, wT .vsts (wF) (wX), wP, by decide +kernel⟩⟩

theorem witness_TileMatrix :
    (∃ (i : Fin 272) (w : TileFields) (s : State) (p : Place), let x := s.ctl.tile i.val; s.tileAt i.val [.mzero] w = some p)
    ∧ (∃ (i : Fin 272) (w : TileFields) (s : State) (p : Place), let x := s.ctl.tile i.val; s.tileAt i.val [.mloadw] w = some p)
    ∧ (∃ (i : Fin 272) (w : TileFields) (s : State) (p : Place), let x := s.ctl.tile i.val; s.tileAt i.val [.mma] w = some p)
    ∧ (∃ (i : Fin 272) (w : TileFields) (s : State) (p : Place), let x := s.ctl.tile i.val; s.tileAt i.val [.mstore] w = some p ∧ w.sz = 0)
    ∧ (∃ (i : Fin 272) (w : TileFields) (s : State) (p : Place), let x := s.ctl.tile i.val; s.tileAt i.val [.psel] w = some p ∧ (x.buf ((x.sreg w.b.toNat).toNat % 2)).src = none)
    ∧ (∃ (i : Fin 272) (w : TileFields) (s : State) (p : Place), let x := s.ctl.tile i.val; s.tileAt i.val [.psel] w = some p ∧ (x.buf ((x.sreg w.b.toNat).toNat % 2)).src.isSome = true)
    ∧ (∃ (i : Fin 272) (b : Fin 2) (q : Nat) (s : State) (p : Place) (y : QInst) (src : List Byte), let x := s.ctl.tile i.val; s.ctl.mainUp = true ∧ s.ctl.tileIn i.val = true ∧ s.ctl.runner? i.val = some p ∧ Launched s p q y ∧ (x.buf b.val).src = some src ∧ (x.buf b.val).elems = [] ∧ expandBlock (x.buf b.val).dtype src = none)
    ∧ (∃ (i : Fin 272) (w : TileFields) (s : State) (p : Place), let x := s.ctl.tile i.val; s.tileAt i.val [.ptile] w = some p ∧ (x.buf ((x.sreg w.b.toNat).toNat % 2)).ready = true) :=
  ⟨⟨0, wF, wT .mzero (wF) (wX), wP, by decide +kernel⟩,
    ⟨0, wF, wT .mloadw (wF) (wX), wP, by decide +kernel⟩,
    ⟨0, wF, wT .mma (wF) (wX), wP, by decide +kernel⟩,
    ⟨0, wF, wT .mstore (wF) (wX), wP, ⟨by decide +kernel, by decide +kernel⟩⟩,
    ⟨0, wF, wT .psel (wF) (wX), wP, ⟨by decide +kernel, by decide +kernel⟩⟩,
    ⟨0, wF, wT .psel wF { wX with buf1 := { BlockBuf.init with src := some wUnpBh, dtype := 3 } }, wP, ⟨by decide +kernel, by decide +kernel⟩⟩,
    ⟨0, 0, 7, wT .nop wF { wX with buf0 := { BlockBuf.init with src := some wUnpBh, dtype := 3 } }, wP, { wInst (wEntry 0x50 0 2 77 0) with phase := .running }, wUnpBh, ⟨by decide +kernel, by decide +kernel, by decide +kernel, by unfold Launched; decide +kernel, by decide +kernel, by decide +kernel, by decide +kernel⟩⟩,
    ⟨0, wF, wT .ptile wF { wX with buf1 := { BlockBuf.init with elems := List.replicate 16384 1, dtype := 3, ready := true } }, wP, ⟨by decide +kernel, by decide +kernel⟩⟩⟩

theorem witness_TileMatrix_given_6 (h : (((wT .nop wF { wX with buf0 := { BlockBuf.init with src := some (wUnpBh ++ zeros 16384), dtype := 3 } }).onCtl (fun c => { c with items := [1, 1, 1, 1] })).ctl.nextItem .patternBlock).2.1 = false) : ∃ (i : Fin 272) (b : Fin 2) (s : State) (p : Place) (src : List Byte) (els : List Nat), let x := s.ctl.tile i.val; s.ctl.mainUp = true ∧ s.ctl.tileIn i.val = true ∧ s.ctl.runner? i.val = some p ∧ (x.buf b.val).src = some src ∧ (x.buf b.val).elems = [] ∧ expandBlock (x.buf b.val).dtype src = some els ∧ (s.ctl.nextItem .patternBlock).2.1 = false := by
  obtain ⟨els, he⟩ := wRawBlock
  exact ⟨0, 0, (wT .nop wF { wX with buf0 := { BlockBuf.init with src := some (wUnpBh ++ zeros 16384), dtype := 3 } }).onCtl (fun c => { c with items := [1, 1, 1, 1] }), wP, wUnpBh ++ zeros 16384, els, ⟨by decide +kernel, by decide +kernel, by decide +kernel, rfl, by decide +kernel, he, h⟩⟩

theorem witness_TileTransfers :
    (∃ (i : Fin 272) (w : TileFields) (s : State) (p : Place), let x := s.ctl.tile i.val; s.tileAt i.val [.send] w = some p ∧ p.peer x.rank (w.imm.toNat % 4) = none)
    ∧ (∃ (i : Fin 272) (w : TileFields) (j : Nat) (k : Nat) (s : State) (p : Place), let x := s.ctl.tile i.val; s.tileAt i.val [.send] w = some p ∧ p.peer x.rank (w.imm.toNat % 4) = some (j, k) ∧ j ≠ i.val ∧ ((s.ctl.tile j).fifo k).length < 16)
    ∧ (∃ (i : Fin 272) (w : TileFields) (s : State) (p : Place), let x := s.ctl.tile i.val; s.tileAt i.val [.recv] w = some p ∧ p.peer x.rank (w.imm.toNat % 4) = none)
    ∧ (∃ (i : Fin 272) (w : TileFields) (v : List (BitVec 32)) (l : List (List (BitVec 32))) (s : State) (p : Place), let x := s.ctl.tile i.val; s.tileAt i.val [.recv] w = some p ∧ (p.peer x.rank (w.imm.toNat % 4)).isSome = true ∧ x.fifo (w.imm.toNat % 4) = v :: l)
    ∧ (∃ (i : Fin 272) (w : TileFields) (g : Target) (cls : Nat) (old : Bool) (s : State) (p : Place), let x := s.ctl.tile i.val; s.tileAt i.val [.get] w = some p ∧ x.tags.find? (w.d.toNat % 16) = none ∧ s.ctl.checkUnit (s.ctl.launchCtx p).1 (s.ctl.launchCtx p).2 (clearReserved (x.sreg w.b.toNat)) 1 (some rightR) = .pass g cls old)
    ∧ (∃ (i : Fin 272) (w : TileFields) (g : Target) (cls : Nat) (old : Bool) (s : State) (p : Place), let x := s.ctl.tile i.val; s.tileAt i.val [.put] w = some p ∧ x.tags.find? (w.d.toNat % 16) = none ∧ s.ctl.checkUnit (s.ctl.launchCtx p).1 (s.ctl.launchCtx p).2 (clearReserved (x.sreg w.b.toNat)) 1 (some rightW) = .pass g cls old)
    ∧ (∃ (i : Fin 272) (k : Fin 16) (s : State) (p : Place) (g : TileTag) (b : List Byte), let x := s.ctl.tile i.val; s.ctl.runner? i.val = some p ∧ x.tags.find? k.val = some g ∧ g.put = false ∧ Reads s (s.ctl.launchCtx p).1 (s.ctl.launchCtx p).2 g.addr.toNat g.len rightR b)
    ∧ (∃ (i : Fin 272) (k : Fin 16) (s : State) (u : State) (p : Place) (g : TileTag), let x := s.ctl.tile i.val; s.ctl.runner? i.val = some p ∧ x.tags.find? k.val = some g ∧ g.put = true ∧ (isNode g.addr && nodeOf g.addr = 0xFFF && offsetOf g.addr < 0x10000) = false ∧ Writes s (s.ctl.launchCtx p).1 (s.ctl.launchCtx p).2 g.addr.toNat (s.padRead i.val g.pad g.len) u) :=
  ⟨⟨0, { wF with imm := 3 }, wT .send ({ wF with imm := 3 }) (wX), wP, ⟨by decide +kernel, by decide +kernel⟩⟩,
    ⟨0, { wF with imm := 1 }, 1, 3, wT .send { wF with imm := 1 } wX, wP, ⟨by decide +kernel, by decide +kernel, by decide +kernel, by decide +kernel⟩⟩,
    ⟨0, { wF with imm := 3 }, wT .recv ({ wF with imm := 3 }) (wX), wP, ⟨by decide +kernel, by decide +kernel⟩⟩,
    ⟨0, { wF with imm := 1 }, List.replicate 64 9, [], wT .recv { wF with imm := 1 } { wX with fin := [[], [List.replicate 64 9], [], []] }, wP, ⟨by decide +kernel, by decide +kernel, by decide +kernel⟩⟩,
    ⟨0, wF, .flat 0, 0, false, wT .get wF ({ wX with s := [(1, 0x30000), (2, 0x100010)] }), wP, ⟨by decide +kernel, by decide +kernel, by decide +kernel⟩⟩,
    ⟨0, wF, .flat 0, 0, false, wT .put wF ({ wX with s := [(1, 0x30000), (2, 0x100010)] }), wP, ⟨by decide +kernel, by decide +kernel, by decide +kernel⟩⟩,
    ⟨0, 4, wT .nop wF { wX with tags := [(4, { put := false, pad := 0x30000, addr := 0x100010, len := 16 })] }, wP, { put := false, pad := 0x30000, addr := 0x100010, len := 16 }, zeros 16, ⟨by decide +kernel, by decide +kernel, by decide +kernel, Reads.of (by decide +kernel)⟩⟩,
    ⟨0, 4, wT .nop wF { wX with tags := [(4, { put := true, pad := 0x20020, addr := 0x100010, len := 16 })] }, wWrite (wT .nop wF { wX with tags := [(4, { put := true, pad := 0x20020, addr := 0x100010, len := 16 })] }) 0x100010 ((wT .nop wF { wX with tags := [(4, { put := true, pad := 0x20020, addr := 0x100010, len := 16 })] }).padRead 0 0x20020 16), wP, { put := true, pad := 0x20020, addr := 0x100010, len := 16 }, ⟨by decide +kernel, by decide +kernel, by decide +kernel, by decide +kernel, Writes.of (by decide +kernel)⟩⟩⟩

theorem witness_TileTransfers_2 :
    (∃ (i : Fin 272) (k : Fin 16) (q : Nat) (st : Byte) (s : State) (p : Place) (g : TileTag) (y : QInst), s.ctl.runner? i.val = some p ∧ (s.ctl.tile i.val).tags.find? k.val = some g ∧ Launched s p q y ∧ st ≠ stOK ∧ st ≠ stRETRY)
    ∧ (∃ (i : Fin 272) (w : TileFields) (s : State) (p : Place), let x := s.ctl.tile i.val; s.tileAt i.val [.xwait] w = some p ∧ x.tags.find? (w.d.toNat % 16) = none)
    ∧ (∃ (i : Fin 272) (w : TileFields) (s : State) (p : Place), let x := s.ctl.tile i.val; s.tileAt i.val [.xwait] w = some p ∧ (x.tags.find? (w.d.toNat % 16)).isSome = true)
    ∧ (∃ (i : Fin 272) (w : TileFields) (s : State) (p : Place), let x := s.ctl.tile i.val; s.tileAt i.val [.xfence] w = some p ∧ x.putting = false)
    ∧ (∃ (i : Fin 272) (w : TileFields) (g : Target) (cls : Nat) (old : Bool) (s : State) (p : Place), let x := s.ctl.tile i.val; let b := (s.ctl.launchCtx p).1; let n := s.ctl.rd (Reg.winFirst b) + (x.sreg w.a.toNat).toNat; s.tileAt i.val [.xsignal] w = some p ∧ x.putting = false ∧ s.ctl.checkUnit b (s.ctl.launchCtx p).2 (nodeAddr 0xFFF 0) 1 none = .pass g cls old ∧ (x.sreg w.a.toNat).toNat < s.ctl.rd (Reg.winCount b)) :=
  ⟨⟨0, 4, 7, stACCESS, wT .nop wF { wX with tags := [(4, { put := true, pad := 0x20020, addr := 0x100010, len := 16 })] }, wP, { put := true, pad := 0x20020, addr := 0x100010, len := 16 }, { wInst (wEntry 0x50 0 2 77 0) with phase := .running }, ⟨by decide +kernel, by decide +kernel, by unfold Launched; decide +kernel, by decide +kernel, by decide +kernel⟩⟩,
    ⟨0, wF, wT .xwait (wF) (wX), wP, ⟨by decide +kernel, by decide +kernel⟩⟩,
    ⟨0, { wF with d := 4 }, wT .xwait { wF with d := 4 } { wX with tags := [(4, { put := false, pad := 0x30000, addr := 0x100010, len := 16 })] }, wP, ⟨by decide +kernel, by decide +kernel⟩⟩,
    ⟨0, wF, wT .xfence (wF) (wX), wP, ⟨by decide +kernel, by decide +kernel⟩⟩,
    ⟨0, wF, .window 0, 0, false, wT .xsignal wF wX, wP, ⟨by decide +kernel, by decide +kernel, by decide +kernel, by decide +kernel⟩⟩⟩

theorem witness_LadleTransfers :
    (∃ (e : Fin 16) (ch : Fin 32) (s : State), let k := chanKey e.val ch.val; let x := s.ctl.chan k; s.ctl.chAssigned k = true ∧ s.ctl.chChain k = true ∧ x.st = .idle ∧ (s.ctl.eng e.val).halted = false ∧ s.ctl.kicked k = true ∧ s.ctl.running = true)
    ∧ (∃ (e : Fin 16) (ch : Fin 32) (s : State) (d : List Byte), let k := chanKey e.val ch.val; let x := s.ctl.chan k; s.ctl.chAssigned k = true ∧ s.ctl.chChain k = true ∧ x.st = .running ∧ x.desc = none ∧ x.serve = none ∧ Reads s (s.ctl.chBay k) (s.ctl.chEp k) x.cur.toNat 64 rightR d)
    ∧ (∃ (e : Fin 16) (ch : Fin 32) (ci : Nat) (s : State) (u : State) (d : List Byte) (b : List Byte), let k := chanKey e.val ch.val; let x := u.ctl.chan k; let sw := widthOf (field (leAt d 24 1) 0 3); let dw := widthOf (field (leAt d 24 1) 4 3); let fl := leAt d 26 1; let n := leAt d 16 8; let m := b2n (bitOf fl 1) * (n * dw) + b2n (bitOf fl 2); (s.ctl.chan k).st = .running ∧ (s.ctl.chan k).serve = none ∧ (s.ctl.chan k).desc = some d ∧ x.steps < 65536 ∧ (bitOf fl 1 = true ∨ bitOf fl 2 = true → leAt d 28 4 < s.ctl.rd (Reg.winCount (s.ctl.chBay k)) ∧ ci = s.ctl.rd (Reg.winFirst (s.ctl.chBay k)) + leAt d 28 4) ∧ Reads s (s.ctl.chBay k) (s.ctl.chEp k) (leAt d 0 8) (n * sw) rightR b ∧ Writes s (s.ctl.chBay k) (s.ctl.chEp k) (leAt d 8 8) (convAll sw dw (leAt d 25 1) b) u)
    ∧ (∃ (e : Fin 16) (ch : Fin 32) (s : State) (u : State) (d : List Byte) (b : List Byte), let k := chanKey e.val ch.val; let sw := widthOf (field (leAt d 24 1) 0 3); let dw := widthOf (field (leAt d 24 1) 4 3); let fl := leAt d 26 1; (s.ctl.chan k).st = .running ∧ (s.ctl.chan k).serve = none ∧ (s.ctl.chan k).desc = some d ∧ (u.ctl.chan k).serve = none ∧ 65536 ≤ (u.ctl.chan k).steps ∧ bitOf fl 1 = false ∧ bitOf fl 2 = false ∧ bitOf fl 3 = false ∧ Reads s (s.ctl.chBay k) (s.ctl.chEp k) (leAt d 0 8) (leAt d 16 8 * sw) rightR b ∧ Writes s (s.ctl.chBay k) (s.ctl.chEp k) (leAt d 8 8) (convAll sw dw (leAt d 25 1) b) u)
    ∧ (∃ (e : Fin 16) (ch : Fin 32) (q : Nat) (m : Nat) (ci : Nat) (s : State) (u : State) (x : QInst) (b : List Byte), let k := chanKey e.val ch.val; let bay := s.ctl.rd (Reg.queBay q); let own := s.ctl.rd (Reg.queOwner q); let n := entC x.entry; let cnt := bitOf (entOpf x.entry) 0; (s.ctl.chan k).st = .running ∧ (s.ctl.chan k).serve = some (q, m) ∧ s.ctl.instOf q m = some x ∧ x.phase = .running ∧ (entOpcode x.entry = 0x10 → Reads s bay own (clearReserved (BitVec.ofNat 64 (entA x.entry))).toNat n rightR b ∧ Writes s bay own (clearReserved (BitVec.ofNat 64 (entB x.entry))).toNat b u) ∧ (entOpcode x.entry ≠ 0x10 → entOpcode x.entry = 0x15 ∧ Writes s bay own (clearReserved (BitVec.ofNat 64 (entA x.entry))).toNat (zeros n) u) ∧ (cnt = true → entCount x.entry < s.ctl.rd (Reg.winCount bay) ∧ ci = s.ctl.rd (Reg.winFirst bay) + entCount x.entry) ∧ (u.ctl.instOf q m).isSome = true)
    ∧ (∃ (e : Fin 16) (ch : Fin 32) (q : Nat) (m : Nat) (s : State) (u : State) (x : QInst) (row : List Byte) (b : List Byte), let k := chanKey e.val ch.val; let bay := s.ctl.rd (Reg.queBay q); let own := s.ctl.rd (Reg.queOwner q); let p := x.param; let w := leAt p 0 2; let sz := leAt p 8 8; let ci := s.ctl.rd (Reg.winFirst bay) + (leAt p 24 4 + x.pos % w); (s.ctl.chan k).st = .running ∧ (s.ctl.chan k).serve = some (q, m) ∧ s.ctl.instOf q m = some x ∧ x.phase = .running ∧ entOpcode x.entry = 0x11 ∧ Reads s bay own (leAt p 32 8 + 16 * x.pos) 16 rightR row ∧ CleanAddr (leAt row 0 8) ∧ leAt row 8 8 ≤ sz ∧ leAt p 24 4 + x.pos % w < s.ctl.rd (Reg.winCount bay) ∧ Reads s bay own (leAt row 0 8) (leAt row 8 8) rightR b ∧ Writes s bay own (leAt p 16 8 + x.pos % w * sz) b u ∧ (u.ctl.instOf q m).isSome = true) :=
  ⟨⟨0, 4, wCh wCh0, ⟨by decide +kernel, by decide +kernel, by decide +kernel, by decide +kernel, by decide +kernel, by decide +kernel⟩⟩,
    ⟨0, 4, wCh { wCh0 with st := .running, steps := 1 }, wDesc 8 10, ⟨by decide +kernel, by decide +kernel, by decide +kernel, by decide +kernel, by decide +kernel, Reads.of (by decide +kernel)⟩⟩,
    ⟨0, 4, 4, wCh { wCh0 with st := .running, steps := 3, desc := some (wDesc 32 10) }, wWrite (wCh { wCh0 with st := .running, steps := 3, desc := some (wDesc 32 10) }) 0x100800 (List.replicate 16 0 ++ [7, 9] ++ List.replicate 14 0), wDesc 32 10, List.replicate 16 0 ++ [7, 9] ++ List.replicate 14 0, ⟨by decide +kernel, by decide +kernel, by decide +kernel, by decide +kernel, by decide +kernel, Reads.of (by decide +kernel), Writes.of (by decide +kernel)⟩⟩,
    ⟨0, 4, wCh { wCh0 with st := .running, steps := 65536, desc := some (wDesc 32 0) }, wWrite (wCh { wCh0 with st := .running, steps := 65536, desc := some (wDesc 32 0) }) 0x100800 (List.replicate 16 0 ++ [7, 9] ++ List.replicate 14 0), wDesc 32 0, List.replicate 16 0 ++ [7, 9] ++ List.replicate 14 0, ⟨by decide +kernel, by decide +kernel, by decide +kernel, by decide +kernel, by decide +kernel, by decide +kernel, by decide +kernel, by decide +kernel, Reads.of (by decide +kernel), Writes.of (by decide +kernel)⟩⟩,
    ⟨0, 4, 7, 11, 4, wSv { wInst ([0x10, 0x10, 0, 0] ++ (wEntry 0x10 4 0x100000 0x100800 64).drop 4) with phase := .running } [], wWrite (wSv { wInst ([0x10, 0x10, 0, 0] ++ (wEntry 0x10 4 0x100000 0x100800 64).drop 4) with phase := .running } []) 0x100800 (List.replicate 16 0 ++ [7, 9] ++ List.replicate 46 0), { wInst ([0x10, 0x10, 0, 0] ++ (wEntry 0x10 4 0x100000 0x100800 64).drop 4) with phase := .running }, List.replicate 16 0 ++ [7, 9] ++ List.replicate 46 0, ⟨by decide +kernel, by decide +kernel, by decide +kernel, by decide +kernel, fun _ => ⟨Reads.of (by decide +kernel), Writes.of (by decide +kernel)⟩, fun h => absurd (by decide +kernel) h, by decide +kernel, by decide +kernel⟩⟩,
    ⟨0, 4, 7, 11, wSvT, wWrite wSvT 0x110000 (List.replicate 16 0 ++ [7, 9] ++ List.replicate 46 0), { wInst (wEntry 0x11 0 0x100200 0 0) with phase := .running, param := wStream }, leBytes 8 0x100000 ++ leBytes 8 64, List.replicate 16 0 ++ [7, 9] ++ List.replicate 46 0, ⟨by decide +kernel, by decide +kernel, by decide +kernel, by decide +kernel, by decide +kernel, Reads.of (by decide +kernel), by unfold CleanAddr; decide +kernel, by decide +kernel, by decide +kernel, Reads.of (by decide +kernel), Writes.of (by decide +kernel), by decide +kernel⟩⟩⟩

theorem witness_LadleStops :
    (∃ (e : Fin 16) (ch : Fin 32) (st : Byte) (dt : Byte) (s : State), let k := chanKey e.val ch.val; let x := s.ctl.chan k; x.st = .running ∧ x.desc.isSome = true ∧ x.serve = none ∧ st ≠ stOK)
    ∧ (∃ (e : Fin 16) (ch : Fin 32) (q : Nat) (n : Nat) (st : Byte) (dt : Byte) (s : State) (y : QInst), let k := chanKey e.val ch.val; let x := s.ctl.chan k; x.st = .running ∧ x.serve = some (q, n) ∧ s.ctl.instOf q n = some y ∧ y.phase = .running ∧ st ≠ stOK)
    ∧ (∃ (e : Fin 16) (ch : Fin 32) (st : Byte) (s : State), let k := chanKey e.val ch.val; (s.ctl.eng e.val).halted = false ∧ s.ctl.mainUp = true ∧ s.ctl.chAssigned k = true ∧ s.ctl.chChain k = true ∧ (s.ctl.chan k).st = .running ∧ (s.ctl.chan k).desc = none ∧ (s.ctl.chan k).serve = none ∧ st ≠ stOK)
    ∧ (∃ (e : Fin 16) (s : State), (s.ctl.eng e.val).halted = false ∧ s.ctl.mainUp = true ∧ LogRoom s)
    ∧ (∃ (e : Fin 16) (s : State), (s.ctl.eng e.val).halted = true)
    ∧ (∃ (e : Fin 16) (ch : Fin 32) (s : State), let k := chanKey e.val ch.val; let x := s.ctl.chan k; s.ctl.mainUp = true ∧ (s.ctl.eng e.val).halted = false ∧ (x.st = .stopped ∨ x.st = .halted ∨ x.st = .haltedByOther))
    ∧ (∃ (e : Fin 16) (ch : Fin 32) (v : Word) (s : State), s.ctl.mainUp = true ∧ ch.val < 24 ∧ s.ctl.rd (Reg.ldlChAssigned e.val ch.val) = 0 ∧ s.ctl.rd (Reg.ldlEngExcl e.val) = 0)
    ∧ (∃ (e : Fin 16) (ch : Fin 32) (v : Word) (s : State), let k := chanKey e.val ch.val; s.ctl.mainUp = true ∧ ch.val < 24 ∧ s.ctl.rd (Reg.ldlChAssigned e.val ch.val) = 0) :=
  ⟨⟨0, 4, 3, 1, wCh { wCh0 with st := .running, steps := 3, desc := some (wDesc 8 0) }, ⟨by decide +kernel, by decide +kernel, by decide +kernel, by decide +kernel⟩⟩,
    ⟨0, 4, 7, 11, 3, 1, wSv { wInst (wEntry 0x10 64 0x100000 0x100800 4) with phase := .running } [], { wInst (wEntry 0x10 64 0x100000 0x100800 4) with phase := .running }, ⟨by decide +kernel, by decide +kernel, by decide +kernel, by decide +kernel, by decide +kernel⟩⟩,
    ⟨0, 4, 3, wCh { wCh0 with st := .running, steps := 1 }, ⟨by decide +kernel, by decide +kernel, by decide +kernel, by decide +kernel, by decide +kernel, by decide +kernel, by decide +kernel, by decide +kernel⟩⟩,
    ⟨0, wCh { wCh0 with st := .running, steps := 1 }, ⟨by decide +kernel, by decide +kernel, by unfold LogRoom; decide +kernel⟩⟩,
    ⟨0, (wCh { wCh0 with st := .halted }).onCtl (fun c => ((c.putEng 0 { LdlEng.init with halted := true }).putChan 5 { wCh0 with st := .haltedByOther }).wr (Reg.ldlChMode 0 4) 1), by decide +kernel⟩,
    ⟨0, 4, wCh { wCh0 with st := .stopped, steps := 2 }, ⟨by decide +kernel, by decide +kernel, by decide +kernel⟩⟩,
    ⟨0, 4, 0x51231007, wS (fun c => c.wUp), ⟨by decide +kernel, by decide +kernel, by decide +kernel, by decide +kernel⟩⟩,
    ⟨0, 4, 0x51231007, wS (fun c => c.wUp), ⟨by decide +kernel, by decide +kernel, by decide +kernel⟩⟩⟩

theorem witness_LadleStops_2 :
    (∃ (e : Fin 16) (ch : Fin 32) (h : Bool) (v : Word) (s : State), s.ctl.mainUp = true ∧ (24 ≤ ch.val ∨ (s.ctl.rd (Reg.ldlChAssigned e.val ch.val) = 1 ∧ (s.ctl.bay (s.ctl.rd (Reg.ldlChBay e.val ch.val))).st ≠ .free) ∨ (h = false ∧ s.ctl.rd (Reg.ldlEngExcl e.val) = 1 ∧ bitOf v.toNat 12 = true ∧ field v.toNat 0 12 ≠ s.ctl.rd (Reg.ldlEngBay e.val))))
    ∧ (∃ (e : Fin 16) (v : Word) (s : State), s.ctl.mainUp = true ∧ (bitOf v.toNat 0 = true → ∀ i : Fin 24, s.ctl.chAssigned (chanKey e.val i.val) = true → s.ctl.chBay (chanKey e.val i.val) = field v.toNat 16 12))
    ∧ (∃ (e : Fin 16) (i : Fin 24) (v : Word) (s : State), s.ctl.mainUp = true ∧ bitOf v.toNat 0 = true ∧ s.ctl.chAssigned (chanKey e.val i.val) = true ∧ s.ctl.chBay (chanKey e.val i.val) ≠ field v.toNat 16 12) :=
  ⟨⟨0, 4, false, 0x51231007, wCh wCh0, ⟨by decide +kernel, by decide +kernel⟩⟩,
    ⟨0, 0x10001, wCh wCh0, ⟨by decide +kernel, by decide +kernel⟩⟩,
    ⟨0, 4, 0x20001, wCh wCh0, ⟨by decide +kernel, by decide +kernel, by decide +kernel, by decide +kernel⟩⟩⟩

theorem witness_Mailboxes :
    (∃ (i : Fin 272) (bay : Fin 4096) (s : State) (p : Place), s.ctl.mainUp = true ∧ s.ctl.runner? i.val = some p ∧ p.bay = bay.val ∧ (s.ctl.tile i.val).run = true)
    ∧ (∃ (i : Fin 272) (s : State) (p : Place), s.ctl.mainUp = true ∧ s.ctl.runner? i.val = some p ∧ (s.ctl.tile i.val).run = true)
    ∧ (∃ (i : Fin 272) (e : BitVec 12) (code : BitVec 16) (s : State) (p : Place), let m := s.ctl.mbx e.toNat; s.ctl.mainUp = true ∧ s.ctl.runner? i.val = some p ∧ (s.ctl.launchCtx p).2 = e.toNat ∧ (s.ctl.tile i.val).run = true ∧ m.go = true ∧ m.bound = some (p.bay, p.handle) ∧ m.bay = p.bay)
    ∧ (∃ (i : Fin 272) (e : BitVec 12) (code : BitVec 16) (s : State) (p : Place), s.ctl.mainUp = true ∧ s.ctl.runner? i.val = some p ∧ (s.ctl.launchCtx p).2 = e.toNat ∧ (s.ctl.tile i.val).run = true ∧ (s.ctl.mbx e.toNat).go = false)
    ∧ (∃ (e : Fin 4095) (code : BitVec 16) (s : State), let m := s.ctl.mbx e.val; s.ctl.jorrenPost e.val = true)
    ∧ (∃ (e : Fin 4095) (code : BitVec 16) (s : State), s.ctl.mainUp = true ∧ (s.ctl.mbx e.val).go = false)
    ∧ (∃ (e : Fin 4095) (s : State), let m := s.ctl.mbx e.val; s.ctl.mainUp = true ∧ m.go = true ∧ m.since + s.ctl.rd Reg.mbxAckTimeout ≤ s.ctl.now)
    ∧ (∃ (e : Fin 4095) (s : State), let m := s.ctl.mbx e.val; s.ctl.jorrenPost e.val = true ∧ m.service = 0x01) :=
  ⟨⟨0, 1, wMb Mbx.init, wP, ⟨by decide +kernel, by decide +kernel, by decide +kernel, by decide +kernel⟩⟩,
    ⟨0, wMb { Mbx.init with bound := some (1, 2) }, wP, ⟨by decide +kernel, by decide +kernel, by decide +kernel⟩⟩,
    ⟨0, 5, 9, wMb { wPost [] with bound := some (1, 2) }, wP, ⟨by decide +kernel, by decide +kernel, by decide +kernel, by decide +kernel, by decide +kernel, by decide +kernel, by decide +kernel⟩⟩,
    ⟨0, 5, 9, wMb Mbx.init, wP, ⟨by decide +kernel, by decide +kernel, by decide +kernel, by decide +kernel, by decide +kernel⟩⟩,
    ⟨5, 9, wMb (wPost []), by decide +kernel⟩,
    ⟨5, 9, wMb Mbx.init, ⟨by decide +kernel, by decide +kernel⟩⟩,
    ⟨5, (wMb (wPost [])).onCtl (fun c => { c with now := 10000000000 }), ⟨by decide +kernel, by decide +kernel, by decide +kernel⟩⟩,
    ⟨5, wMb (wPost [1]), ⟨by decide +kernel, by decide +kernel⟩⟩⟩

theorem witness_Mailboxes_2 :
    (∃ (e : Fin 4095) (s : State), let m := s.ctl.mbx e.val; s.ctl.jorrenPost e.val = true ∧ m.service = 0x02 ∧ m.msg.length = 16)
    ∧ (∃ (e : Fin 4095) (s : State), let m := s.ctl.mbx e.val; s.ctl.jorrenPost e.val = true ∧ mbxService m.service = false)
    ∧ (∃ (e : Fin 4095) (s : State), let m := s.ctl.mbx e.val; let off := field (m.word 1) 0 16; let total := field (m.word 1) 16 16; let req := (if off = 0 then [] else m.spdmReq) ++ (m.bytes.drop 8).take (min 56 (total - off)); s.ctl.jorrenPost e.val = true ∧ m.service = 0x10 ∧ m.subcode = 0 ∧ 0 < total ∧ total ≤ 4096 ∧ off < total ∧ (off = 0 ∨ off = m.spdmReq.length))
    ∧ (∃ (e : Fin 4095) (s : State), let m := s.ctl.mbx e.val; let off := field (m.word 1) 0 16; let part := (m.spdmRsp.drop off).take 56; s.ctl.jorrenPost e.val = true ∧ m.service = 0x10 ∧ m.subcode = 1 ∧ m.msg.length = 16 ∧ off < m.spdmRsp.length)
    ∧ (∃ (e : Fin 4095) (s : State), let m := s.ctl.mbx e.val; let off := field (m.word 1) 0 16; let total := field (m.word 1) 16 16; s.ctl.jorrenPost e.val = true ∧ m.service = 0x10 ∧ ((m.subcode = 0 ∧ (total = 0 ∨ 4096 < total ∨ total ≤ off ∨ (off ≠ 0 ∧ off ≠ m.spdmReq.length))) ∨ (m.subcode = 1 ∧ m.spdmRsp.length ≤ off) ∨ 2 ≤ m.subcode)) :=
  ⟨⟨5, wMb (wPost [2]), ⟨by decide +kernel, by decide +kernel, by decide +kernel⟩⟩,
    ⟨5, wMb (wPost [3]), ⟨by decide +kernel, by decide +kernel⟩⟩,
    ⟨5, wMb (wPost [0x10, 0x00080000, 7, 8]), ⟨by decide +kernel, by decide +kernel, by decide +kernel, by decide +kernel, by decide +kernel, by decide +kernel, by decide +kernel⟩⟩,
    ⟨5, wMb { wPost [0x110, 0x2] with spdmRsp := [1, 2, 3, 4] }, ⟨by decide +kernel, by decide +kernel, by decide +kernel, by decide +kernel, by decide +kernel⟩⟩,
    ⟨5, wMb (wPost [0x210]), ⟨by decide +kernel, by decide +kernel, by decide +kernel⟩⟩⟩

theorem witness_Shakeout :
    (∃ (b : Fin 4096) (s : State), s.ctl.mainUp = true ∧ s.ctl.rd Reg.cmpBusy = 0 ∧ (s.ctl.bay b.val).st = .active ∧ s.ctl.opens = [] ∧ s.ctl.fences = [])
    ∧ (∃ (b : Fin 4096) (s : State), s.ctl.mainUp = true ∧ s.ctl.rd Reg.cmpBusy = 0 ∧ (s.ctl.bay b.val).st ≠ .active ∧ s.ctl.opens = [])
    ∧ (∃ (b : Fin 4096) (s : State), s.ctl.shaking b.val .released = true ∧ (∀ o ∈ s.ctl.opens, o.frame.bay.toNat = b.val))
    ∧ (∃ (b : Fin 4096) (s : State), s.ctl.shaking b.val .quiesced = true ∧ s.ctl.homeDirty = [] ∧ s.ctl.dir = [])
    ∧ (∃ (b : Fin 4096) (s : State), (s.ctl.shaking b.val .cleared = true ∨ s.ctl.shaking b.val .revoked = true) ∧ (∀ i ∈ s.ctl.bayExts b.val, isNode (s.ctl.ext i).base = false ∧ (s.ctl.ext i).backing = false))
    ∧ (∃ (b : Fin 4096) (i : Nat) (s : State), s.ctl.shaking b.val .cleared = true ∧ s.ctl.bayExts b.val = [i] ∧ isNode (s.ctl.ext i).base = true ∧ s.ctl.isTray (nodeOf (s.ctl.ext i).base) = true ∧ (s.ctl.ep (nodeOf (s.ctl.ext i).base)).live = true)
    ∧ (∃ (b : Fin 4096) (s : State), let us := min ((s.ctl.now - (s.ctl.bay b.val).shakeAt) / 100) (2 ^ 32 - 1); s.ctl.shaking b.val .revoked = true ∧ (∀ e ∈ s.ctl.exts, e.2.bay = b.val → e.2.st = .empty)) :=
  ⟨⟨1, wT .nop wF wX, ⟨by decide +kernel, by decide +kernel, by decide +kernel, by decide +kernel, by decide +kernel⟩⟩,
    ⟨2, wB id, ⟨by decide +kernel, by decide +kernel, by decide +kernel, by decide +kernel⟩⟩,
    ⟨1, wS (fun c => { c.wBay.wShake .released with opens := [wOpen (wReq 1 0x100000 []) .passThrough] }), ⟨by decide +kernel, by decide +kernel⟩⟩,
    ⟨1, (wT .nop wF wX).onCtl (·.wShake .quiesced), ⟨by decide +kernel, by decide +kernel, by decide +kernel⟩⟩,
    ⟨1, wS (fun c => c.wBay.wShake .cleared), ⟨by decide +kernel, by decide +kernel⟩⟩,
    ⟨1, 0, wS (fun c => (((c.wBay.wShake .cleared).wEp 8).wr (Reg.epClass 8) 1).putExt 0 { wExt with base := 0x8000000000000000 + 8 * 2 ^ 44, limit := 0x8000000000000000 + 8 * 2 ^ 44 + 0x100000, backing := true }), ⟨by decide +kernel, by decide +kernel, by decide +kernel, by decide +kernel, by decide +kernel⟩⟩,
    ⟨1, wS (fun c => { ((c.wUp.putBay 1 { BayRec.init with gen := 4 }).wShake .revoked) with now := 12345 }), ⟨by decide +kernel, by decide +kernel⟩⟩⟩

theorem witness_ErrorLog :
    (∃ (ctx : LogContext) (s : State) (r : Report) (l : List Report), let pend := s.ctl.rd (Reg.coalPending r.block r.cls); s.ctl.rd Reg.coresUp ≠ 0 ∧ s.ctl.err.queue = r :: l ∧ (s.ctl.err.wasFull = false ∨ l.length ≠ 128) ∧ bitOf (s.ctl.rd Reg.tapMask) r.cls = false)
    ∧ (∃ (ctx : LogContext) (s : State) (r : Report) (l : List Report), s.ctl.rd Reg.coresUp ≠ 0 ∧ s.ctl.err.queue = r :: l ∧ s.ctl.err.wasFull = true ∧ l.length = 128 ∧ s.ctl.rd Reg.tapMask = 0)
    ∧ (∃ (s : State) (z : LogEntry), s.ctl.rd Reg.coresUp ≠ 0 ∧ (64 ≤ s.ctl.uncopied.length ∨ s.ctl.err.batchAt + 100000000 ≤ s.ctl.now) ∧ (s.ctl.uncopied.take 64).getLast? = some z)
    ∧ (∃ (s : State), s.ctl.regs.sorted = true) :=
  ⟨⟨{ t1 := 1, t2 := 2, vlogic := 3, vsram := 4, util := 5 }, wErr { Err.init with queue := [rep 0x0F 0x02 1] }, rep 0x0F 0x02 1, [], ⟨by decide +kernel, by decide +kernel, by decide +kernel, by decide +kernel⟩⟩,
    ⟨{ t1 := 1, t2 := 2, vlogic := 3, vsram := 4, util := 5 }, wErr { Err.init with queue := List.replicate 129 (rep 0x0F 0x02 1), wasFull := true, coalesced := 7 }, rep 0x0F 0x02 1, List.replicate 128 (rep 0x0F 0x02 1), ⟨by decide +kernel, by decide +kernel, by decide +kernel, by decide +kernel, by decide +kernel⟩⟩,
    ⟨wS (fun c => { (c.wAt 2 0) with now := 100000000, err := { Err.init with ring := [(0, { lseq := 3, stamp := 0, rep := rep 0x0F 0x02 1, lost := false, nlost := 0, ctx := none, free := 0 })], next := 1, lseq := 4 } }), { lseq := 3, stamp := 0, rep := rep 0x0F 0x02 1, lost := false, nlost := 0, ctx := none, free := 0 }, ⟨by decide +kernel, by decide +kernel, by decide +kernel⟩⟩,
    ⟨wS (fun c => (((c.wAt 2 0).putReg 0x0F040008 0x0C0F00FF).putReg 0x0F040010 0x0C0F0003).putReg 0x0F040018 0xFFFFFFF), by decide +kernel⟩⟩

theorem witness_TestBar :
    (∃ (item : Nat) (v : Nat) (l : List Nat) (s : State) (r : Recheck) (x : QInst), s.ctl.recheck? item .cupolaPass = some r ∧ s.ctl.checkers r = v :: l ∧ s.ctl.ownerInst r = some x)
    ∧ (∃ (item : Nat) (f : RecheckOutcome) (s : State) (r : Recheck) (x : QInst), s.ctl.recheck? item .cupolaPass = some r ∧ s.ctl.checkers r = [] ∧ s.ctl.ownerInst r = some x)
    ∧ (∃ (item : Nat) (v : Nat) (l : List Nat) (s : State) (u : State) (r : Recheck) (x : QInst) (w : OutWrite), s.ctl.recheck? item .combinePiece = some r ∧ s.ctl.checkers r = v :: l ∧ s.ctl.ownerInst r = some x ∧ r.outs = [w] ∧ Writes s r.bay w.ep w.addr w.data u ∧ (u.ctl.instOf r.queue x.serial).isSome = true)
    ∧ (∃ (item : Nat) (v : Nat) (l : List Nat) (s : State) (r : Recheck), s.ctl.recheck? item .patternBlock = some r ∧ s.ctl.checkers r = v :: l ∧ s.ctl.ownerInst r = none ∧ r.outs = [] ∧ ((s.ctl.tile r.owner).buf r.piece).src.isSome = true)
    ∧ (∃ (i : Nat) (s : State), s.ctl.mainUp = true ∧ s.ctl.rechecks = [] ∧ (s.ctl.inService .crucible).length < 128 ∧ s.ctl.spareOf .crucible (List.range 136) = some i ∧ LogRoom s) :=
  ⟨⟨5, 1, [], wTb [.cupola] (wRc .cupolaPass []) [0, 1], wRc .cupolaPass [], { wInst (wEntry 0x28 0 0x100200 0 0) with phase := .running, held := 1, todo := [0] }, ⟨by decide +kernel, Ctl.checkers_one (by decide +kernel), by decide +kernel⟩⟩,
    ⟨5, .agree, wTb [.cupola] (wRc .cupolaPass []) [0], wRc .cupolaPass [], { wInst (wEntry 0x28 0 0x100200 0 0) with phase := .running, held := 1, todo := [0] }, ⟨by decide +kernel, Ctl.checkers_none (by decide +kernel), by decide +kernel⟩⟩,
    ⟨5, 1, [], wTb [.crucible] (wRc .combinePiece [{ ep := 5, addr := 0x100000, data := [1, 2] }]) [0, 1], wWrite (wTb [.crucible] (wRc .combinePiece [{ ep := 5, addr := 0x100000, data := [1, 2] }]) [0, 1]) 0x100000 [1, 2], wRc .combinePiece [{ ep := 5, addr := 0x100000, data := [1, 2] }], { wInst (wEntry 0x28 0 0x100200 0 0) with phase := .running, held := 1, todo := [0] }, { ep := 5, addr := 0x100000, data := [1, 2] }, ⟨by decide +kernel, Ctl.checkers_one (by decide +kernel), by decide +kernel, by decide +kernel, Writes.of (by decide +kernel), by decide +kernel⟩⟩,
    ⟨5, 1, [], (wT .nop wF { wX with buf1 := { BlockBuf.init with src := some wUnpBh } }).onCtl (fun c => { c.wUnits [.tile] [0, 1] with rechecks := [{ wRc .patternBlock [] with owner := 0, piece := 1 }] }), { wRc .patternBlock [] with owner := 0, piece := 1 }, ⟨by decide +kernel, Ctl.checkers_one (by decide +kernel), by decide +kernel, by decide +kernel, by decide +kernel⟩⟩,
    ⟨1, wS (fun c => (c.wUp.wUnits [.crucible] [0]).putUnit .crucible 1 { c.unit .crucible 1 with st := .spare }), ⟨by decide +kernel, by decide +kernel, by decide +kernel, by decide +kernel, by unfold LogRoom; decide +kernel⟩⟩⟩

theorem witness_TestBar_case_1 : ∃ (item : Nat) (a : Nat) (b : Nat) (u : Nat) (w : Fin 3) (s : State) (r : Recheck) (x : QInst), s.ctl.recheck? item .cupolaPass = some r ∧ s.ctl.checkers r = [a, b] ∧ s.ctl.ownerInst r = some x ∧ [r.first, a, b][w.val]? = some u ∧ LogRoom s := by
  have hc := Ctl.checkers_two (c := (wTb [.cupola] (wRc .cupolaPass []) [0, 1, 2]).ctl) (r := wRc .cupolaPass []) (u := 1) (v := 2) (by decide +kernel) (by decide)
  rcases hc with hc | hc
  · exact ⟨5, 1, 2, 0, 0, wTb [.cupola] (wRc .cupolaPass []) [0, 1, 2], wRc .cupolaPass [], { wInst (wEntry 0x28 0 0x100200 0 0) with phase := .running, held := 1, todo := [0] }, ⟨by decide +kernel, hc, by decide +kernel, by decide +kernel, by unfold LogRoom; decide +kernel⟩⟩
  · exact ⟨5, 2, 1, 0, 0, wTb [.cupola] (wRc .cupolaPass []) [0, 1, 2], wRc .cupolaPass [], { wInst (wEntry 0x28 0 0x100200 0 0) with phase := .running, held := 1, todo := [0] }, ⟨by decide +kernel, hc, by decide +kernel, by decide +kernel, by unfold LogRoom; decide +kernel⟩⟩

theorem witness_TestBar_case_2 : ∃ (item : Nat) (a : Nat) (b : Nat) (s : State) (r : Recheck) (x : QInst), s.ctl.recheck? item .cupolaPass = some r ∧ s.ctl.checkers r = [a, b] ∧ s.ctl.ownerInst r = some x ∧ LogRoom s := by
  have hc := Ctl.checkers_two (c := (wTb [.cupola] (wRc .cupolaPass []) [0, 1, 2]).ctl) (r := wRc .cupolaPass []) (u := 1) (v := 2) (by decide +kernel) (by decide)
  rcases hc with hc | hc
  · exact ⟨5, 1, 2, wTb [.cupola] (wRc .cupolaPass []) [0, 1, 2], wRc .cupolaPass [], { wInst (wEntry 0x28 0 0x100200 0 0) with phase := .running, held := 1, todo := [0] }, ⟨by decide +kernel, hc, by decide +kernel, by unfold LogRoom; decide +kernel⟩⟩
  · exact ⟨5, 2, 1, wTb [.cupola] (wRc .cupolaPass []) [0, 1, 2], wRc .cupolaPass [], { wInst (wEntry 0x28 0 0x100200 0 0) with phase := .running, held := 1, todo := [0] }, ⟨by decide +kernel, hc, by decide +kernel, by unfold LogRoom; decide +kernel⟩⟩

theorem witness_TestBar_case_6 : ∃ (item : Nat) (a : Nat) (b : Nat) (s : State) (r : Recheck) (k : Coll), s.ctl.recheck? item .chunk = some r ∧ s.ctl.checkers r = [a, b] ∧ s.ctl.collOf r.owner = some k := by
  have hc := Ctl.checkers_two (c := ((wTb [.crucible] ({ wRc .chunk [] with owner := 3 }) [0, 1, 2]).onCtl (fun c => { c with colls := [wColl] })).ctl) (r := { wRc .chunk [] with owner := 3 }) (u := 1) (v := 2) (by decide +kernel) (by decide)
  rcases hc with hc | hc
  · exact ⟨5, 1, 2, (wTb [.crucible] ({ wRc .chunk [] with owner := 3 }) [0, 1, 2]).onCtl (fun c => { c with colls := [wColl] }), { wRc .chunk [] with owner := 3 }, wColl, ⟨by decide +kernel, hc, by decide +kernel⟩⟩
  · exact ⟨5, 2, 1, (wTb [.crucible] ({ wRc .chunk [] with owner := 3 }) [0, 1, 2]).onCtl (fun c => { c with colls := [wColl] }), { wRc .chunk [] with owner := 3 }, wColl, ⟨by decide +kernel, hc, by decide +kernel⟩⟩

theorem witness_Plumb :
    (∃ (e : Nat) (k : Nat) (s : State) (d : Ctl), s.ctl.mainUp = true ∧ s.ctl.liveList = [e] ∧ s.ctl.pathFor 0xFFF (BitVec.ofNat 12 e).toNat 0 = some k ∧ s.ctl.takeIn (portQueue (k / 4) 0) (k % 4) (beatFrame e 0 0 0 0 (s.ctl.rd Reg.plbBeat)) = some d)
    ∧ (∃ (s : State), s.ctl.mainUp = true ∧ (∀ e, s.ctl.pathFor 0xFFF e 0 = none))
    ∧ (∃ (f : Frame) (s : State), let x := s.ctl.ep f.src.toNat; s.ctl.mainUp = true ∧ f.kind = kBeat ∧ f.dst = 0xFFF ∧ field f.addr.toNat 0 2 ≠ 3 ∧ field f.addr.toNat 0 2 ≠ 1 ∧ s.ctl.liveInc f.src.toNat f.inc = true ∧ LogRoom s)
    ∧ (∃ (g : MgmtBeat) (s : State), let e := g.ep.toNat; let x := s.ctl.ep e; s.ctl.mainUp = true ∧ e < 0xFFF ∧ s.ctl.rd (Reg.plbMgmt e) = 1 ∧ g.udpPort.toNat = s.ctl.rd Reg.plbPort ∧ g.restZero = true ∧ g.kind.toNat ≤ 1 ∧ g.srcAddr.toNat = (s.ctl.reg (Reg.plbAddrHi e)).toNat * 2 ^ 64 + (s.ctl.reg (Reg.plbAddrLo e)).toNat ∧ s.ctl.liveInc e g.inc = true ∧ LogRoom s)
    ∧ (∃ (f : Frame) (s : State), let e := field f.addr.toNat 4 12; let x := s.ctl.ep e; s.ctl.mainUp = true ∧ f.kind = kBeat ∧ f.dst = 0xFFF ∧ field f.addr.toNat 0 2 = 3 ∧ field f.addr.toNat 2 2 = 1 ∧ s.ctl.liveInc f.src.toNat f.inc = true ∧ x.live = true ∧ x.inc = BitVec.ofNat 8 (field f.addr.toNat 16 8) ∧ x.plumb = .suspect ∧ f.src.toNat ∈ x.queried ∧ x.run < 2 ∧ LogRoom s)
    ∧ (∃ (e : Fin 4095) (s : State), let x := s.ctl.ep e.val; let peers := (s.ctl.peersOf (s.ctl.listingBays e.val) e.val).take (s.ctl.rd Reg.plbPeers); s.ctl.mainUp = true ∧ x.live = true ∧ x.plumb = .alive ∧ x.lastBeat + s.ctl.rd Reg.plbMiss * s.ctl.rd Reg.plbBeat ≤ s.ctl.now ∧ LogRoom s)
    ∧ (∃ (e : Fin 4095) (w : Nat) (s : State), let x := s.ctl.ep e.val; s.ctl.mainUp = true ∧ x.live = true ∧ x.plumb = .suspect ∧ x.winAt = some w ∧ w + s.ctl.rd Reg.plbProbe ≤ s.ctl.now ∧ s.ctl.pwr.mgmtReset = false ∧ s.ctl.opens = [] ∧ s.ctl.owns = [] ∧ s.ctl.doms = [] ∧ s.ctl.colls = [] ∧ s.ctl.chans = [] ∧ s.ctl.isTray e.val = false)
    ∧ (∃ (sid : Nat) (e : BitVec 12) (s : State), s.sidsDiffer ∧ s.ctl.jmpRuns sid 0x20 = true ∧ s.ctl.mainUp = true ∧ e ≠ 0xFFF ∧ (s.ctl.ep e.toNat).live = true ∧ s.ctl.opens = [] ∧ s.ctl.owns = [] ∧ s.ctl.doms = [] ∧ s.ctl.colls = [] ∧ s.ctl.chans = [] ∧ s.ctl.isTray e.toNat = false) :=
  ⟨⟨5, 12, wS (fun c => (c.wLink (wSub .up)).wPlb id), (match ((wS (fun c => (c.wLink (wSub .up)).wPlb id)).ctl.takeIn (portQueue 3 0) 0 (beatFrame 5 0 0 0 0 ((wS (fun c => (c.wLink (wSub .up)).wPlb id)).ctl.rd Reg.plbBeat))) with | some d => d | none => State.reset.ctl), ⟨by decide +kernel, by decide +kernel, by decide +kernel, by decide +kernel⟩⟩,
    ⟨wS (fun c => c.wPlb id), ⟨by decide +kernel, fun _ => rfl⟩⟩,
    ⟨{ baseFrame with kind := kBeat, dst := 0xFFF, src := 5 }, wS (fun c => c.wPlb (fun e => { e with plumb := .suspect, winAt := some 0, queried := [6] })), ⟨by decide +kernel, by decide +kernel, by decide +kernel, by decide +kernel, by decide +kernel, by decide +kernel, by unfold LogRoom; decide +kernel⟩⟩,
    ⟨{ srcAddr := 0, udpPort := 9171, ep := 5, inc := 0, kind := 1, restZero := true }, (wS (fun c => c.wPlb (fun e => { e with plumb := .suspect, winAt := some 0, queried := [6] }))).onCtl (fun c => (c.wr (Reg.plbMgmt 5) 1).wr Reg.plbPort 9171), ⟨by decide +kernel, by decide +kernel, by decide +kernel, by decide +kernel, by decide +kernel, by decide +kernel, by decide +kernel, by decide +kernel, by unfold LogRoom; decide +kernel⟩⟩,
    ⟨{ baseFrame with kind := kBeat, dst := 0xFFF, src := 6, addr := BitVec.ofNat 64 (3 + 4 + 5 * 16) }, (wS (fun c => c.wPlb (fun e => { e with plumb := .suspect, winAt := some 0, queried := [6] }))).onCtl (·.wEp 6), ⟨by decide +kernel, by decide +kernel, by decide +kernel, by decide +kernel, by decide +kernel, by decide +kernel, by decide +kernel, by decide +kernel, by decide +kernel, by decide +kernel, by decide +kernel, by unfold LogRoom; decide +kernel⟩⟩,
    ⟨5, wB (fun c => { c with now := 10000000000 }), ⟨by decide +kernel, by decide +kernel, by decide +kernel, by decide +kernel, by unfold LogRoom; decide +kernel⟩⟩,
    ⟨5, 0, wS (fun c => { c.wPlb (fun e => { e with plumb := .suspect, winAt := some 0, queried := [6] }) with now := 10000000000 }), ⟨by decide +kernel, by decide +kernel, by decide +kernel, by decide +kernel, by decide +kernel, by decide +kernel, by decide +kernel, by decide +kernel, by decide +kernel, by decide +kernel, by decide +kernel, by decide +kernel⟩⟩,
    ⟨1, 5, (wB id).onCtl (·.wJmp 0x20), ⟨by unfold State.sidsDiffer; decide +kernel, by decide +kernel, by decide +kernel, by decide +kernel, by decide +kernel, by decide +kernel, by decide +kernel, by decide +kernel, by decide +kernel, by decide +kernel, by decide +kernel⟩⟩⟩

theorem witness_Plumb_2 :
    ∃ (sid : Nat) (e : BitVec 12) (s : State), s.ctl.jmpRuns sid 0x20 = true ∧ s.ctl.mainUp = true ∧ (e = 0xFFF ∨ (s.ctl.ep e.toNat).live = false) :=
  ⟨1, 0x77, (wB id).onCtl (·.wJmp 0x20), ⟨by decide +kernel, by decide +kernel, by decide +kernel⟩⟩

theorem witness_DebugAccess :
    (∃ (sid : Nat) (n : Nat) (a : BitVec 64) (s : State), let as := (List.range n).map (fun i => a.toNat + 8 * i); s.ctl.jmpRuns sid 0x01 = true ∧ 0 < n ∧ n ≤ 1024 ∧ a.toNat % 8 = 0 ∧ a.toNat + 8 * n ≤ regSpace ∧ (s.ctl.mainUp = true ∨ ∀ x ∈ as, isMain x = false))
    ∧ (∃ (sid : Nat) (n : Nat) (a : BitVec 64) (s : State), s.ctl.jmpRuns sid 0x01 = true ∧ (n = 0 ∨ 1024 < n ∨ a.toNat % 8 ≠ 0 ∨ regSpace < a.toNat + 8 * n))
    ∧ (∃ (sid : Nat) (n : Nat) (i : Nat) (a : BitVec 64) (s : State), s.ctl.jmpRuns sid 0x01 = true ∧ n ≤ 1024 ∧ a.toNat % 8 = 0 ∧ a.toNat + 8 * n ≤ regSpace ∧ s.ctl.mainUp = false ∧ i < n ∧ isMain (a.toNat + 8 * i) = true)
    ∧ (∃ (sid : Nat) (w : Nat) (e : Fin 4095) (s : State) (x : Session), let a := 0x0D820000 + 0x80 * e.val + 8 * w; s.ctl.jmpRuns sid 0x01 = true ∧ s.ctl.session? sid = some x ∧ w < 8 ∧ s.ctl.mainUp = true ∧ LogRoom s)
    ∧ (∃ (sid : Nat) (w : Nat) (e : Fin 4095) (s : State), s.ctl.jmpRuns sid 0x01 = true ∧ 8 ≤ w ∧ w < 16 ∧ s.ctl.mainUp = true)
    ∧ (∃ (sid : Nat) (a : BitVec 64) (v : Word) (l : List Word) (s : State) (u : State) (ref : Bool), s.ctl.jmpRuns sid 0x02 = true ∧ a.toNat % 8 = 0 ∧ a.toNat + 8 * (l.length + 1) ≤ regSpace ∧ l.length < 1024 ∧ (s.ctl.mainUp = true ∨ isMain a.toNat = false) ∧ s.writeReg a.toNat v = (u, ref) ∧ (ref = true ∨ l = []) ∧ u.ctl.jmpRuns sid 0x02 = true)
    ∧ (∃ (sid : Nat) (a : BitVec 64) (l : List Word) (s : State) (u : State) (r : Nat), s.ctl.jmpRuns sid 0x02 = true ∧ a.toNat % 8 = 0 ∧ a.toNat + 8 * l.length ≤ regSpace ∧ 0 < l.length ∧ l.length ≤ 1024 ∧ s.regWrites a.toNat l = (u, r) ∧ u.ctl.jmpRuns sid 0x02 = true)
    ∧ (∃ (sid : Nat) (n : Nat) (i : Nat) (bay : BitVec 12) (a : Word) (s : State) (b : List Byte), let u := s.onCtl (·.debugAccess sid); s.ctl.jmpRuns sid 0x03 = true ∧ 0 < n ∧ n ≤ 8192 ∧ s.ctl.mainUp = true ∧ s.ctl.debugTarget bay.toNat a n = some (.flat i) ∧ u.debugHome bay.toNat (.flat i) a n false = none ∧ u.rawRead bay.toNat (.flat i) a n = some b ∧ LogRoom s) :=
  ⟨⟨1, 3, 0x0D820000, (wB id).onCtl (·.wJmp 1), ⟨by decide +kernel, by decide +kernel, by decide +kernel, by decide +kernel, by decide +kernel, by decide +kernel⟩⟩,
    ⟨1, 0, 0, (wB id).onCtl (·.wJmp 1), ⟨by decide +kernel, by decide +kernel⟩⟩,
    ⟨1, 4, 1, 0x05040000, wS (fun c => (c.wAt 0 0).wJmp 1), ⟨by decide +kernel, by decide +kernel, by decide +kernel, by decide +kernel, by decide +kernel, by decide +kernel, by decide +kernel⟩⟩,
    ⟨1, 2, 5, (wB id).onCtl (·.wJmp 1), wSess 1, ⟨by decide +kernel, by decide +kernel, by decide +kernel, by decide +kernel, by unfold LogRoom; decide +kernel⟩⟩,
    ⟨1, 9, 5, (wB id).onCtl (·.wJmp 1), ⟨by decide +kernel, by decide +kernel, by decide +kernel, by decide +kernel⟩⟩,
    ⟨1, 0x05000000, 7, [], (wB id).onCtl (·.wJmp 2), (((wB id).onCtl (·.wJmp 2)).writeReg 0x05000000 7).1, (((wB id).onCtl (·.wJmp 2)).writeReg 0x05000000 7).2, ⟨by decide +kernel, by decide +kernel, by decide +kernel, by decide +kernel, by decide +kernel, by decide +kernel, by decide +kernel, by decide +kernel⟩⟩,
    ⟨1, 0x00000030, [7], (wB id).onCtl (·.wJmp 2), (((wB id).onCtl (·.wJmp 2)).regWrites 0x30 [7]).1, (((wB id).onCtl (·.wJmp 2)).regWrites 0x30 [7]).2, ⟨by decide +kernel, by decide +kernel, by decide +kernel, by decide +kernel, by decide +kernel, by decide +kernel, by decide +kernel⟩⟩,
    ⟨1, 4, 0, 1, 0x100010, (wB id).onCtl (·.wJmp 3), [7, 9, 0, 0], ⟨by decide +kernel, by decide +kernel, by decide +kernel, by decide +kernel, by decide +kernel, by decide +kernel, by decide +kernel, by unfold LogRoom; decide +kernel⟩⟩⟩

theorem witness_DebugAccess_2 :
    (∃ (sid : Nat) (n : Nat) (bay : BitVec 12) (a : Word) (s : State), s.ctl.jmpRuns sid 0x03 = true ∧ (n = 0 ∨ 8192 < n ∨ (s.ctl.mainUp = true ∧ s.ctl.debugTarget bay.toNat a n = none)))
    ∧ (∃ (sid : Nat) (bay : BitVec 12) (a : Word) (d : List Byte) (s : State), s.ctl.jmpRuns sid 0x04 = true ∧ (d = [] ∨ 8192 < d.length ∨ (s.ctl.mainUp = true ∧ s.ctl.debugTarget bay.toNat a d.length = none)))
    ∧ (∃ (sid : Nat) (n : Nat) (bay : BitVec 12) (a : Word) (s : State), s.ctl.jmpRuns sid 0x03 = true ∧ 0 < n ∧ n ≤ 8192 ∧ s.ctl.mainUp = false)
    ∧ (∃ (sid : Nat) (s : State) (x : Session), s.ctl.jmpRuns sid 0x39 = true ∧ s.ctl.session? sid = some x ∧ LogRoom s)
    ∧ (∃ (sid : Nat) (s : State), s.ctl.jmpRuns sid 0x3A = true) :=
  ⟨⟨1, 4, 1, 0x900000, (wB id).onCtl (·.wJmp 3), ⟨by decide +kernel, by decide +kernel⟩⟩,
    ⟨1, 1, 0x900000, [1], (wB id).onCtl (·.wJmp 4), ⟨by decide +kernel, by decide +kernel⟩⟩,
    ⟨1, 4, 1, 0, wS (fun c => (c.wAt 0 0).wJmp 3), ⟨by decide +kernel, by decide +kernel, by decide +kernel, by decide +kernel⟩⟩,
    ⟨1, (wB id).onCtl (·.wJmp 57), wSess 0x39, ⟨by decide +kernel, by decide +kernel, by unfold LogRoom; decide +kernel⟩⟩,
    ⟨1, ((wB id).onCtl (·.wJmp 58)).onCtl (·.wr Reg.secDebugOpen 1), by decide +kernel⟩⟩

theorem witness_DebugAccess_case_8 : ∃ (sid : Nat) (i : Nat) (bay : BitVec 12) (a : Word) (d : List Byte) (s : State) (w : State), let u := s.onCtl (·.debugAccess sid); s.ctl.jmpRuns sid 0x04 = true ∧ d ≠ [] ∧ d.length ≤ 8192 ∧ s.ctl.mainUp = true ∧ s.ctl.debugTarget bay.toNat a d.length = some (.flat i) ∧ u.debugHome bay.toNat (.flat i) a d.length true = none ∧ u.rawWrite bay.toNat (.flat i) a d = .done w ∧ (s.ctl.ext i).coh = false ∧ w.ctl.jmpRuns sid 0x04 = true := by
  obtain ⟨w, hw, hj⟩ := WriteRes.gives (p := fun w => w.ctl.jmpRuns 1 4)
    (r := (((wB id).onCtl (·.wJmp 4)).onCtl (·.debugAccess 1)).rawWrite 1 (.flat 0) 0x100010 [1, 2, 3]) (by decide +kernel)
  exact ⟨1, 0, 1, 0x100010, [1, 2, 3], (wB id).onCtl (·.wJmp 4), w, ⟨by decide +kernel, by decide +kernel, by decide +kernel, by decide +kernel, by decide +kernel, by decide +kernel, hw, by decide +kernel, hj⟩⟩

theorem witness_TapAndLog :
    (∃ (sid : Nat) (n : Nat) (first : BitVec 64) (s : State), s.ctl.jmpRuns sid 0x05 = true ∧ 0 < n ∧ n ≤ 128)
    ∧ (∃ (sid : Nat) (n : Nat) (first : BitVec 64) (s : State), s.ctl.jmpRuns sid 0x05 = true ∧ (n = 0 ∨ 128 < n))
    ∧ (∃ (sid : Nat) (s : State), s.ctl.jmpRuns sid 0x06 = true)
    ∧ (∃ (sid : Nat) (s : State), s.ctl.jmpRuns sid 0x41 = true)
    ∧ (∃ (sid : Nat) (b : Nat) (s : State), s.ctl.jmpRuns sid 0x42 = true ∧ b < 89 ∧ (s.ctl.mainUp = true ∨ auxBank b = true))
    ∧ (∃ (sid : Nat) (b : Nat) (s : State), s.ctl.jmpRuns sid 0x42 = true ∧ b < 89 ∧ s.ctl.mainUp = false ∧ auxBank b = false)
    ∧ (∃ (sid : Nat) (b : Nat) (s : State), s.ctl.jmpRuns sid 0x42 = true ∧ 89 ≤ b)
    ∧ (∃ (s : State), s.ctl.rd (Reg.tapSrc 3) = 1 ∧ s.ctl.rd Reg.tapArmed = 1) :=
  ⟨⟨1, 4, 0, (wErr { Err.init with ring := [(0, { lseq := 3, stamp := 0, rep := rep 0x0F 0x02 1, lost := false, nlost := 0, ctx := none, free := 0 })], next := 1, lseq := 4 }).onCtl (·.wJmp 5), ⟨by decide +kernel, by decide +kernel, by decide +kernel⟩⟩,
    ⟨1, 0, 0, (wB id).onCtl (·.wJmp 5), ⟨by decide +kernel, by decide +kernel⟩⟩,
    ⟨1, (wB id).onCtl (·.wJmp 6), by decide +kernel⟩,
    ⟨1, (wB id).onCtl (·.wJmp 65), by decide +kernel⟩,
    ⟨1, 7, (wB id).onCtl (·.wJmp 66), ⟨by decide +kernel, by decide +kernel, by decide +kernel⟩⟩,
    ⟨1, 7, wS (fun c => (c.wAt 0 0).wJmp 0x42), ⟨by decide +kernel, by decide +kernel, by decide +kernel, by decide +kernel⟩⟩,
    ⟨1, 89, (wB id).onCtl (·.wJmp 66), ⟨by decide +kernel, by decide +kernel⟩⟩,
    ⟨wS (fun c => (((c.wUp.wJmp 1).wr (Reg.tapSrc 3) 1).wr (Reg.tapSrc 1) 1).wr Reg.tapArmed 1), ⟨by decide +kernel, by decide +kernel⟩⟩⟩

theorem witness_TapAndLog_2 :
    (∃ (s : State), (s.ctl.rd (Reg.tapSrc 3) = 0 ∨ s.ctl.rd Reg.tapArmed = 0))
    ∧ (∃ (sid : Nat) (s : State), s.sidsDiffer ∧ s.ctl.jmpRuns sid 0x40 = true ∧ s.ctl.rd (Reg.tapSrc 1) = 1 ∧ s.ctl.rd Reg.tapArmed = 1)
    ∧ (∃ (sid : Nat) (s : State), s.ctl.jmpRuns sid 0x40 = true ∧ (s.ctl.rd (Reg.tapSrc 1) = 0 ∨ s.ctl.rd Reg.tapArmed = 0)) :=
  ⟨⟨(wS (fun c => ((c.wUp.wJmp 1).wr (Reg.tapSrc 3) 1).wr (Reg.tapSrc 1) 1)).onCtl (·.wr Reg.tapArmed 0), by decide +kernel⟩,
    ⟨1, wS (fun c => (((c.wUp.wJmp 64).wr (Reg.tapSrc 3) 1).wr (Reg.tapSrc 1) 1).wr Reg.tapArmed 1), ⟨by unfold State.sidsDiffer; decide +kernel, by decide +kernel, by decide +kernel, by decide +kernel⟩⟩,
    ⟨1, (wS (fun c => ((c.wUp.wJmp 64).wr (Reg.tapSrc 3) 1).wr (Reg.tapSrc 1) 1)).onCtl (·.wr Reg.tapArmed 0), ⟨by decide +kernel, by decide +kernel⟩⟩⟩

theorem witness_JmpSessions :
    (∃ (port : Fin 2) (body : List Byte) (s : State), s.ctl.rd Reg.coresUp ≠ 0 ∧ s.ctl.ctlIsUp port.val = true ∧ (16 ≤ s.ctl.setupsLately port.val ∨ 8 ≤ s.ctl.sessions.length))
    ∧ (∃ (sid : Nat) (seq : BitVec 64) (op : BitVec 16) (port : Fin 2) (s : State) (x : Session), s.ctl.session? sid = some x ∧ seq.toNat < 2 ^ 60 ∧ x.running = none ∧ (∀ l, x.lastSeq = some l → l < seq.toNat))
    ∧ (∃ (sid : Nat) (seq : BitVec 64) (op : BitVec 16) (port : Fin 2) (s : State) (x : Session) (r : Response), s.ctl.session? sid = some x ∧ seq.toNat < 2 ^ 60 ∧ x.lastSeq = some seq.toNat ∧ x.answer = some r)
    ∧ (∃ (sid : Nat) (l : Nat) (seq : BitVec 64) (op : BitVec 16) (port : Fin 2) (s : State) (x : Session), s.ctl.session? sid = some x ∧ seq.toNat < l ∧ x.lastSeq = some l ∧ seq.toNat < 2 ^ 60)
    ∧ (∃ (sid : Nat) (s : State), (∀ x ∈ s.ctl.sessions, x.sid = sid → x.idleAt + s.ctl.rd Reg.idleS * 100000000 ≤ s.ctl.now))
    ∧ (∃ (sid : Nat) (s : State), (∀ x ∈ s.ctl.sessions, x.sid = sid → s.ctl.now < x.idleAt + s.ctl.rd Reg.idleS * 100000000))
    ∧ (∃ (sid : Nat) (a0 : Word) (a1 : Word) (s : State), s.ctl.jmpRuns sid 0x60 = true)
    ∧ (∃ (sid : Nat) (v : BitVec 64) (s : State) (x : Session), s.ctl.session? sid = some x) :=
  ⟨⟨0, [1], wS (fun c => { c.wAt 2 0 with sessions := List.replicate 8 (wSess 1) }), ⟨by decide +kernel, by decide +kernel, by decide +kernel⟩⟩,
    ⟨1, 5, 0x41, 1, wS (fun c => { c.wAt 2 0 with sessions := [wIdle] }), wIdle, ⟨by decide +kernel, by decide +kernel, by decide +kernel, by decide +kernel⟩⟩,
    ⟨1, 4, 0x41, 1, wS (fun c => { c.wAt 2 0 with sessions := [wIdle] }), wIdle, { seq := 4, op := 1, result := 0, words := [], bytes := [] }, ⟨by decide +kernel, by decide +kernel, by decide +kernel, by decide +kernel⟩⟩,
    ⟨1, 4, 3, 0x41, 1, wS (fun c => { c.wAt 2 0 with sessions := [wIdle] }), wIdle, ⟨by decide +kernel, by decide +kernel, by decide +kernel, by decide +kernel⟩⟩,
    ⟨1, wS (fun c => { c.wAt 2 0 with sessions := [wIdle], now := 1000000000000 }), by decide +kernel⟩,
    ⟨1, wS (fun c => { c.wAt 2 0 with sessions := [wIdle] }), by decide +kernel⟩,
    ⟨1, 3, 4, wS (fun c => (c.wAt 2 0).wJmp 0x60), by decide +kernel⟩,
    ⟨1, 1, wS (fun c => { c.wAt 2 0 with sessions := [{ wIdle with events := [{ evseq := 0, code := 1, args := [] }, { evseq := 1, code := 1, args := [] }] }] }), { wIdle with events := [{ evseq := 0, code := 1, args := [] }, { evseq := 1, code := 1, args := [] }] }, by decide +kernel⟩⟩

theorem witness_JmpSessions_2 :
    ∃ (s : State), s.ctl.rd Reg.coresUp ≠ 0 :=
  ⟨wS (fun c => { c.wAt 2 0 with now := 10000000, sessions := [{ wIdle with events := [{ evseq := 0, code := 1, args := [] }] }] }), by decide +kernel⟩

theorem witness_JmpSessions_given_0 (body a : List Byte) (h : (wS (fun c => c.wAt 2 0)).ctl.chainOk (Config.setupFields body).1 = some a) : ∃ (port : Fin 2) (body : List Byte) (chain : List Byte) (kem : List Byte) (y : List Byte) (h : List Byte) (s : State), s.ctl.rd Reg.coresUp ≠ 0 ∧ s.ctl.ctlIsUp port.val = true ∧ s.ctl.setupsLately port.val < 16 ∧ s.ctl.sessions.length < 8 ∧ Config.setupFields body = (chain, kem, y) ∧ s.ctl.chainOk chain = some h :=
  ⟨0, body, (Config.setupFields body).1, (Config.setupFields body).2.1, (Config.setupFields body).2.2, a, wS (fun c => c.wAt 2 0), ⟨by decide +kernel, by decide +kernel, by decide +kernel, by decide +kernel, by rfl, h⟩⟩

theorem witness_JmpSessions_case_2 : ∃ (port : Fin 2) (body : List Byte) (chain : List Byte) (kem : List Byte) (y : List Byte) (s : State), s.ctl.rd Reg.coresUp ≠ 0 ∧ s.ctl.ctlIsUp port.val = true ∧ s.ctl.setupsLately port.val < 16 ∧ s.ctl.sessions.length < 8 ∧ Config.setupFields body = (chain, kem, y) ∧ s.ctl.chainOk chain = none := by
  by_cases h : Config.chainAnchor (Config.setupFields [1]).1 = some [1]
  · exact ⟨0, [1], (Config.setupFields [1]).1, (Config.setupFields [1]).2.1, (Config.setupFields [1]).2.2, wS (fun c => { c.wAt 2 0 with flash := { c.flash with anchors := [[2], [], [], []] } }), ⟨by decide +kernel, by decide +kernel, by decide +kernel, by decide +kernel, by rfl, Ctl.wChainNot (a := [2]) (by decide +kernel) (by decide) (by rw [h]; decide)⟩⟩
  · exact ⟨0, [1], (Config.setupFields [1]).1, (Config.setupFields [1]).2.1, (Config.setupFields [1]).2.2, wS (fun c => { c.wAt 2 0 with flash := { c.flash with anchors := [[1], [], [], []] } }), ⟨by decide +kernel, by decide +kernel, by decide +kernel, by decide +kernel, by rfl, Ctl.wChainNot (a := [1]) (by decide +kernel) (by decide) (h)⟩⟩

theorem witness_JmpSessions_given_3 (body a : List Byte) (h : (wS (fun c => { c.wAt 2 0 with setups := [wSetup] })).ctl.chainOk wSetup.chain = some a)
    (h' : Config.certVerify wSetup.chain (bytes384 wSetup.th) body = true) : ∃ (sid : Nat) (body : List Byte) (h : List Byte) (s : State) (x : Setup), s.ctl.setups.find? (fun z => z.sid == sid) = some x ∧ s.ctl.sessions.length < 8 ∧ s.ctl.chainOk x.chain = some h ∧ Config.certVerify x.chain (bytes384 x.th) body = true :=
  ⟨3, body, a, wS (fun c => { c.wAt 2 0 with setups := [wSetup] }), wSetup, ⟨by decide +kernel, by decide +kernel, h, h'⟩⟩

theorem witness_JmpSessions_case_4 : ∃ (sid : Nat) (body : List Byte) (s : State) (x : Setup), s.ctl.setups.find? (fun z => z.sid == sid) = some x ∧ s.ctl.sessions.length < 8 ∧ (s.ctl.chainOk x.chain = none ∨ Config.certVerify x.chain (bytes384 x.th) body = false) := by
  by_cases h : Config.chainAnchor wSetup.chain = some [1]
  · exact ⟨3, [9], wS (fun c => { c.wAt 2 0 with setups := [wSetup], flash := { c.flash with anchors := [[2], [], [], []] } }), wSetup, ⟨by decide +kernel, by decide +kernel, .inl (Ctl.wChainNot (a := [2]) (by decide +kernel) (by decide) (by rw [h]; decide))⟩⟩
  · exact ⟨3, [9], wS (fun c => { c.wAt 2 0 with setups := [wSetup], flash := { c.flash with anchors := [[1], [], [], []] } }), wSetup, ⟨by decide +kernel, by decide +kernel, .inl (Ctl.wChainNot (a := [1]) (by decide +kernel) (by decide) (h))⟩⟩

theorem witness_FirmwareAndKeys :
    (∃ (sid : Nat) (len : Nat) (s : State), s.ctl.jmpRuns sid 0x30 = true ∧ s.ctl.fwBusy = false ∧ 0 < len ∧ len ≤ 2 ^ 25)
    ∧ (∃ (sid : Nat) (len : Nat) (s : State), s.ctl.jmpRuns sid 0x30 = true ∧ s.ctl.fwBusy = true)
    ∧ (∃ (sid : Nat) (len : Nat) (s : State), s.ctl.jmpRuns sid 0x30 = true ∧ s.ctl.fwBusy = false ∧ (len = 0 ∨ 2 ^ 25 < len))
    ∧ (∃ (sid : Nat) (off : Nat) (d : List Byte) (s : State), s.ctl.jmpRuns sid 0x31 = true ∧ s.ctl.fwOwner sid = true ∧ off + d.length ≤ s.ctl.staging.len)
    ∧ (∃ (sid : Nat) (off : Nat) (d : List Byte) (s : State), s.ctl.jmpRuns sid 0x31 = true ∧ s.ctl.fwOwner sid = false)
    ∧ (∃ (sid : Nat) (s : State), s.ctl.jmpRuns sid 0x32 = true ∧ s.ctl.fwOwner sid = true ∧ LogRoom s ∧ imageOk s.ctl.fuses (stagedImage s.ctl.staging.bytes s.ctl.staging.len) = false)
    ∧ (∃ (s : State), s.ctl.rd Reg.fwState = 3)
    ∧ (∃ (sid : Nat) (s : State), s.ctl.jmpRuns sid 0x33 = true ∧ s.ctl.rd Reg.fwState = 4) :=
  ⟨⟨1, 4, wS (fun c => (c.wAt 2 0).wJmp 48), ⟨by decide +kernel, by decide +kernel, by decide +kernel, by decide +kernel⟩⟩,
    ⟨1, 4, (wS (fun c => (c.wAt 2 0).wJmp 48)).onCtl (·.wr Reg.fwState 3), ⟨by decide +kernel, by decide +kernel⟩⟩,
    ⟨1, 0, wS (fun c => (c.wAt 2 0).wJmp 48), ⟨by decide +kernel, by decide +kernel, by decide +kernel⟩⟩,
    ⟨1, 1, [7, 0], (wS (fun c => (c.wAt 2 0).wJmp 49)).onCtl (fun c => ({ c with staging := { c.staging with len := 4, owner := 1 } }).wr Reg.fwState 1), ⟨by decide +kernel, by decide +kernel, by decide +kernel⟩⟩,
    ⟨1, 1, [7, 0], wS (fun c => (c.wAt 2 0).wJmp 49), ⟨by decide +kernel, by decide +kernel⟩⟩,
    ⟨1, (wS (fun c => (c.wAt 2 0).wJmp 0x32)).onCtl (fun c => ({ c with staging := { c.staging with len := 4, owner := 1 } }).wr Reg.fwState 1), ⟨by decide +kernel, by decide +kernel, by unfold LogRoom; decide +kernel, by decide +kernel⟩⟩,
    ⟨(wS (fun c => (c.wAt 2 0).wJmp 51)).onCtl (·.wr Reg.fwState 3), by decide +kernel⟩,
    ⟨1, (wS (fun c => (c.wAt 2 0).wJmp 51)).onCtl (·.wr Reg.fwState 4), ⟨by decide +kernel, by decide +kernel⟩⟩⟩

theorem witness_FirmwareAndKeys_2 :
    (∃ (sid : Nat) (s : State), s.ctl.jmpRuns sid 0x33 = true ∧ s.ctl.rd Reg.fwState ≠ 4)
    ∧ (∃ (sid : Nat) (s : State), s.ctl.jmpRuns sid 0x34 = true ∧ s.ctl.rd Reg.secKeySlot = 0 ∧ s.ctl.fuses.slot0Revoked = false)
    ∧ (∃ (sid : Nat) (s : State), s.ctl.jmpRuns sid 0x35 = true ∧ s.ctl.fuses.svn < s.ctl.runningSvn)
    ∧ (∃ (sid : Nat) (s : State), s.ctl.jmpRuns sid 0x35 = true ∧ s.ctl.runningSvn ≤ s.ctl.fuses.svn)
    ∧ (∃ (sid : Nat) (m : List Byte) (s : State), s.ctl.jmpRuns sid 0x36 = true)
    ∧ (∃ (sid : Nat) (slot : Nat) (h : List Byte) (s : State), s.ctl.jmpRuns sid 0x37 = true ∧ slot < 4 ∧ h.length = 48)
    ∧ (∃ (sid : Nat) (slot : Nat) (h : List Byte) (s : State), s.ctl.jmpRuns sid 0x37 = true ∧ (4 ≤ slot ∨ h.length ≠ 48))
    ∧ (∃ (sid : Nat) (n : NetCfg) (s : State), s.ctl.jmpRuns sid 0x38 = true ∧ n.vid ≠ 0xFFF ∧ n.jmpPort ≠ 0) :=
  ⟨⟨1, wS (fun c => (c.wAt 2 0).wJmp 51), ⟨by decide +kernel, by decide +kernel⟩⟩,
    ⟨1, wS (fun c => (c.wAt 2 0).wJmp 52), ⟨by decide +kernel, by decide +kernel, by decide +kernel⟩⟩,
    ⟨1, (wS (fun c => (c.wAt 2 0).wJmp 53)).onCtl (fun c => c.wr Reg.secSvnImage 3), ⟨by decide +kernel, by decide +kernel⟩⟩,
    ⟨1, wS (fun c => (c.wAt 2 0).wJmp 53), ⟨by decide +kernel, by decide +kernel⟩⟩,
    ⟨1, [1], wS (fun c => (c.wAt 2 0).wJmp 54), by decide +kernel⟩,
    ⟨1, 2, List.replicate 48 7, wS (fun c => (c.wAt 2 0).wJmp 55), ⟨by decide +kernel, by decide +kernel, by decide +kernel⟩⟩,
    ⟨1, 4, [], wS (fun c => (c.wAt 2 0).wJmp 55), ⟨by decide +kernel, by decide +kernel⟩⟩,
    ⟨1, { NetCfg.init 1 with vid := 9 }, wS (fun c => (c.wAt 2 0).wJmp 56), ⟨by decide +kernel, by decide +kernel, by decide +kernel⟩⟩⟩

theorem witness_FirmwareAndKeys_given_5 (b : Tab Byte) (n : Nat) (h : imageOk Fuses.init (stagedImage b n) = true) : ∃ (sid : Nat) (s : State), s.sidsDiffer ∧ s.ctl.jmpRuns sid 0x32 = true ∧ s.ctl.fwOwner sid = true ∧ imageOk s.ctl.fuses (stagedImage s.ctl.staging.bytes s.ctl.staging.len) = true :=
  ⟨1, wFw.onCtl (fun c => { c with staging := { c.staging with len := n, bytes := b, owner := 1 } }), ⟨(by show List.Nodup [1]; decide), rfl, Bool.and_eq_true_iff.mpr ⟨decide_eq_true wFw_state, rfl⟩, h⟩⟩

theorem witness_OperatorTests :
    (∃ (sid : Nat) (b : List Byte) (l : List TestRes) (s : State), let force := bitOf (leAt b 4 4) 0; s.ctl.jmpRuns sid 0x50 = true ∧ testBlockOk b l.length = true ∧ (∀ r ∈ l, (s.ctl.testUnit r).2 ≠ absentTile) ∧ s.ctl.mainUp = true ∧ s.ctl.optest = none ∧ (force = true ∨ ∀ r ∈ l, s.ctl.testTaken r = false))
    ∧ (∃ (sid : Nat) (b : List Byte) (l : List TestRes) (s : State), s.ctl.jmpRuns sid 0x50 = true ∧ (testBlockOk b l.length = false ∨ ∃ r ∈ l, (s.ctl.testUnit r).2 = absentTile))
    ∧ (∃ (sid : Nat) (b : List Byte) (l : List TestRes) (s : State), s.ctl.jmpRuns sid 0x50 = true ∧ testBlockOk b l.length = true ∧ (∀ r ∈ l, (s.ctl.testUnit r).2 ≠ absentTile) ∧ s.ctl.mainUp = true ∧ (s.ctl.optest.isSome = true ∨ (bitOf (leAt b 4 4) 0 = false ∧ ∃ r ∈ l, s.ctl.testTaken r = true)))
    ∧ (∃ (s : State) (o : OpTest), s.ctl.optest = some o ∧ o.draining = true ∧ (∀ r ∈ o.list, s.ctl.testInFlight r = false) ∧ (∀ p ∈ s.ctl.testTiles o.list, p < 272))
    ∧ (∃ (s : State) (o : OpTest), s.ctl.optest = some o ∧ o.draining = true ∧ o.since + s.ctl.rd Reg.drainMs * 100000 ≤ s.ctl.now)
    ∧ (∃ (n : Fin 136) (pass : Bool) (s : State) (o : OpTest), s.ctl.optest = some o ∧ o.draining = false ∧ o.force = false ∧ o.list = [.crucible n])
    ∧ (∃ (n : Fin 34) (s : State) (o : OpTest), s.ctl.optest = some o ∧ o.draining = false ∧ o.force = false ∧ o.list = [.cupola n])
    ∧ (∃ (d : Fin 2) (l : Fin 128) (pass : Bool) (s : State) (o : OpTest), let i := s.ctl.physOf (128 * d.val + l.val); s.ctl.optest = some o ∧ o.draining = false ∧ o.force = true ∧ o.list = [.tile d l] ∧ i < 272 ∧ s.ctl.rd (Reg.trsAssigned (128 * d.val + l.val)) = 1 ∧ s.ctl.rd (Reg.trsOwner (128 * d.val + l.val)) ∈ o.bays) :=
  ⟨⟨1, wTst 0, [.crucible 3], wS (fun c => c.wUp.wJmp 0x50), ⟨by decide +kernel, by decide +kernel, by decide +kernel, by decide +kernel, by decide +kernel, by decide +kernel⟩⟩,
    ⟨1, wTst 2, [.crucible 3], wS (fun c => c.wUp.wJmp 0x50), ⟨by decide +kernel, by decide +kernel⟩⟩,
    ⟨1, wTst 1, [.crucible 3], wS (fun c => { c.wUp.wJmp 0x50 with optest := some (wOt false false [.crucible 3]) }), ⟨by decide +kernel, by decide +kernel, by decide +kernel, by decide +kernel, by decide +kernel⟩⟩,
    ⟨wB (fun c => { c with optest := some (wOt true true [.tile 0 2]) }), wOt true true [.tile 0 2], ⟨by decide +kernel, by decide +kernel, by decide +kernel, by decide +kernel⟩⟩,
    ⟨wB (fun c => { c with now := 100000000000, optest := some (wOt true true [.tile 0 2]) }), wOt true true [.tile 0 2], ⟨by decide +kernel, by decide +kernel, by decide +kernel⟩⟩,
    ⟨3, true, wB (fun c => { c with optest := some (wOt false false [.crucible 3]) }), wOt false false [.crucible 3], ⟨by decide +kernel, by decide +kernel, by decide +kernel, by decide +kernel⟩⟩,
    ⟨3, wB (fun c => { c with optest := some (wOt false false [.cupola 3]) }), wOt false false [.cupola 3], ⟨by decide +kernel, by decide +kernel, by decide +kernel, by decide +kernel⟩⟩,
    ⟨0, 0, true, wB (fun c => { c.wTile with optest := some (wOt true false [.tile 0 0]) }), wOt true false [.tile 0 0], ⟨by decide +kernel, by decide +kernel, by decide +kernel, by decide +kernel, by decide +kernel, by decide +kernel, by decide +kernel⟩⟩⟩

theorem witness_OperatorTests_2 :
    ∃ (bay : Nat) (l : Nat) (kind : Nat) (pass : Bool) (s : State), s.ctl.optest = none ∧ s.ctl.bayTests = [(bay, l, kind)] ∧ kind < 4 :=
  ⟨1, 2, 3, false, wB (fun c => { c with bayTests := [(1, 2, 3)] }), ⟨by decide +kernel, by decide +kernel, by decide +kernel⟩⟩

theorem witness_PinsAndPorts :
    (∃ (p : Fin 2) (f : CtlFrame) (s : State), TakesFrame s p.val f ∧ ((∃ a, f.proto = .arp a ∧ a = (s.ctl.netOf p.val).ip4 ∧ a ≠ 0) ∨ (∃ a, f.proto = .neighbour a ∧ a = (s.ctl.netOf p.val).ip6 ∧ a ≠ 0) ∨ ((∃ b, f.proto = .echo4 b) ∧ (s.ctl.netOf p.val).ip4 ≠ 0) ∨ ((∃ b, f.proto = .echo6 b) ∧ (s.ctl.netOf p.val).ip6 ≠ 0)))
    ∧ (∃ (p : Fin 2) (f : CtlFrame) (s : State), (f.proto = .pause ∨ f.proto = .tcp ∨ f.proto = .fragment ∨ f.proto = .other ∨ 9216 < f.bytes ∨ s.ctl.ctlIsUp p.val = false ∨ (∃ a, f.proto = .arp a ∧ a ≠ (s.ctl.netOf p.val).ip4) ∨ (∃ a, f.proto = .neighbour a ∧ a ≠ (s.ctl.netOf p.val).ip6)))
    ∧ (∃ (p : Fin 2) (f : CtlFrame) (d : BitVec 16) (b : List Byte) (s : State), TakesFrame s p.val f ∧ f.proto = .udp d b ∧ d.toNat = s.ctl.rd (Reg.ctlJmpPort p.val) ∧ d ≠ 68 ∧ d ≠ 546)
    ∧ (∃ (b : List Bool) (s : State), s.ctl.rd Reg.secDebugOpen = 0)
    ∧ (∃ (b : List Bool) (s : State), s.ctl.rd Reg.secDebugOpen = 1) :=
  ⟨⟨0, { bytes := 64, tags := [], proto := .arp 7 }, (wS (fun c => c.wAt 2 0)).onCtl (fun c => { c with net := [{ NetCfg.init 0 with ip4 := 7 }, NetCfg.init 1] }), ⟨⟨by decide +kernel, by decide +kernel, by decide +kernel, by decide +kernel⟩, .inl ⟨7, by decide +kernel, by decide +kernel, by decide +kernel⟩⟩⟩,
    ⟨0, { bytes := 64, tags := [], proto := .tcp }, wS (fun c => c.wAt 2 0), by decide +kernel⟩,
    ⟨0, { bytes := 64, tags := [], proto := .udp 9170 [1] }, 9170, [1], wS (fun c => c.wAt 2 0), ⟨⟨by decide +kernel, by decide +kernel, by decide +kernel, by decide +kernel⟩, by decide +kernel, by decide +kernel, by decide +kernel, by decide +kernel⟩⟩,
    ⟨[true], wS (fun c => c.wAt 2 0), by decide +kernel⟩,
    ⟨[true], (wS (fun c => c.wAt 2 0)).onCtl (·.wr Reg.secDebugOpen 1), by decide +kernel⟩⟩

theorem witness_PinsAndPorts_given_11 (b : List Byte) (a : BitVec 128) (h : Config.dhcpLease false b = some a) : ∃ (p : Fin 2) (f : CtlFrame) (b : List Byte) (a : BitVec 128) (s : State), TakesFrame s p.val f ∧ f.proto = .udp 68 b ∧ s.ctl.net.length = 2 ∧ (s.ctl.netOf p.val).ip4 = 0 ∧ Config.dhcpLease false b = some a :=
  ⟨0, { bytes := 64, tags := [], proto := .udp 68 b }, b, a, wS (fun c => c.wAt 2 0), ⟨⟨by decide +kernel, by decide +kernel, by show 64 ≤ 9216; decide, by show [] = _; decide +kernel⟩, rfl, by decide +kernel, by decide +kernel, h⟩⟩

theorem witness_CounterWindowRefused :
    ∃ (b : Fin 4096) (v : Word) (s : State), let first := field v.toNat 0 20; let count := min (field v.toNat 32 21) (1048576 - first); s.ctl.mainUp = true ∧ ((∃ (o : Fin 4096) (j : Nat), o ≠ b ∧ first ≤ j ∧ j < first + count ∧ s.ctl.rd (Reg.winFirst o.val) ≤ j ∧ j < s.ctl.rd (Reg.winFirst o.val) + s.ctl.rd (Reg.winCount o.val)) ∨ ((s.ctl.bay b.val).st ≠ .free ∧ (first ≠ s.ctl.rd (Reg.winFirst b.val) ∨ count ≠ s.ctl.rd (Reg.winCount b.val)))) :=
  ⟨1, 0x2000000000, wB id, ⟨by decide +kernel, .inr (by decide +kernel)⟩⟩

theorem witness_RequestStateAreaKept :
    ∃ (b : Fin 4096) (v : Word) (s : State), (s.ctl.bay b.val).st ≠ .free :=
  ⟨1, 7, wB id, by decide +kernel⟩

theorem witness_ChannelWriteRefused :
    ∃ (e : Fin 16) (ch : Fin 32) (head : Bool) (v : Word) (s : State), s.ctl.mainUp = true ∧ ((s.ctl.rd (Reg.ldlChAssigned e.val ch.val) = 1 ∧ (s.ctl.bay (s.ctl.rd (Reg.ldlChBay e.val ch.val))).st ≠ .free) ∨ 24 ≤ ch.val ∨ (head = false ∧ s.ctl.rd (Reg.ldlEngExcl e.val) = 1 ∧ bitOf v.toNat 12 = true ∧ field v.toNat 0 12 ≠ s.ctl.rd (Reg.ldlEngBay e.val))) :=
  ⟨0, 4, false, 0x51231007, wCh wCh0, ⟨by decide +kernel, by decide +kernel⟩⟩

/-! ### Well-formed commands: each check refuses an ill-formed term -/

theorem test_wf_read : wellFormed (.read (wReq kRead 0x100010 [4, 0, 0, 0, 0, 0, 0, 0]) .clean) = true := by decide +kernel
theorem test_ill_kind : wellFormed (.read (wReq kWrite 0x100010 [4]) .clean) = false := by decide +kernel
theorem test_ill_length : wellFormed (.write { wReq kWrite 0x100010 [4] with len := 2 } .clean) = false := by decide +kernel
theorem test_ill_flagged : wellFormed (.flaggedWrite (wReq kRead 0x100010 [4]) .clean) = false := by decide +kernel
theorem test_ill_query : wellFormed (.query (wReq kAtomic 0 [0x02])) = false := by decide +kernel
theorem test_ill_atomic : wellFormed (.atomic (wReq kAtomic 0 [0x0F]) .clean) = false := by decide +kernel
theorem test_ill_response : wellFormed (.response (wReq kRead 0 [])) = false := by decide +kernel
theorem test_ill_doorbell : wellFormed (.doorbell (wReq kWrite 0x100010 [4])) = false := by decide +kernel
theorem test_ill_post : wellFormed (.mailboxPost (wReq kWrite 0x8000FFF000001041 [4])) = false := by decide +kernel
theorem test_wf_post : wellFormed (.mailboxPost (wReq kWrite 0x80FFF00000001040 [4])) = true := by decide +kernel
theorem test_ill_kv : wellFormed (.kvDescriptorWrite (wReq kWrite 0x80FFF00000001040 [4])) = false := by decide +kernel
theorem test_ill_slots : wellFormed (.memoryTrained (.ddr 0) true (2 ^ 21 + 1)) = false := by decide +kernel
theorem test_ill_finding : wellFormed (.quickBootCheck [.unitFailed .riddle 32]) = false := by decide +kernel
theorem test_ill_map : wellFormed (.shutdownTest [.unitFailed .tile 272]) = false := by decide +kernel
theorem test_ill_words : wellFormed (.regWrite 1 0 (List.replicate 16384 0)) = false := by
  show jmpFits (8 + 8 * (List.replicate 16384 (0 : Word)).length) = false
  rw [List.length_replicate]; decide
theorem test_ill_small_frame : wellFormed (.controlPortFrame 0 { bytes := 63, tags := [], proto := .tcp }) = false := by decide +kernel

/-! ### Words of Truss instructions, written out from Tables 15.5 and 15.6 -/

/-- SALU ADD s3 := s1 + s2: CLS 0, OP 0x00, D 3, A 1, B 2. -/
theorem test_word_add : decodeTile (3#64 <<< 46 ||| 1#64 <<< 40 ||| 2#64 <<< 34) = (.add, { d := 3, a := 1, b := 2, sz := 0, useImm := false, imm := 0 }) := by
  decide +kernel
/-- SALU MAX with IMM: OP 0x0C + 0x80. -/
theorem test_word_max_imm : decodeTile (0x8C#64 <<< 52 ||| 5#64 <<< 46 ||| 0xFFFFFFFF#64) = (.max, { d := 5, a := 0, b := 0, sz := 0, useImm := true, imm := 0xFFFFFFFF }) := by
  decide +kernel
/-- SCTL BGE: CLS 1, OP 0x04. -/
theorem test_word_bge : (decodeTile (1#64 <<< 60 ||| 4#64 <<< 52 ||| 7#64)).1 = .bge := by decide +kernel
/-- SMEM LD of 8 bytes: CLS 2, OP 0x00, SZ 3. -/
theorem test_word_ld : decodeTile (2#64 <<< 60 ||| 3#64 <<< 32 ||| 16#64) = (.ld, { d := 0, a := 0, b := 0, sz := 3, useImm := false, imm := 16 }) := by
  decide +kernel
/-- VALU VSEL: CLS 3, OP 0x0B. -/
theorem test_word_vsel : (decodeTile (3#64 <<< 60 ||| 0x0B#64 <<< 52)).1 = .vsel := by decide +kernel
/-- VMEM VSTS: CLS 4, OP 0x03. -/
theorem test_word_vsts : (decodeTile (4#64 <<< 60 ||| 3#64 <<< 52)).1 = .vsts := by decide +kernel
/-- MAT MMA: CLS 5, OP 0x02. -/
theorem test_word_mma : (decodeTile (5#64 <<< 60 ||| 2#64 <<< 52)).1 = .mma := by decide +kernel
/-- STRM RECV, XMEM XSIGNAL, SYS HALT. -/
theorem test_word_recv : (decodeTile (7#64 <<< 60 ||| 1#64 <<< 52)).1 = .recv := by decide +kernel
theorem test_word_xsignal : (decodeTile (8#64 <<< 60 ||| 4#64 <<< 52)).1 = .xsignal := by decide +kernel
theorem test_word_halt : (decodeTile (9#64 <<< 60)).1 = .halt := by decide +kernel
/-- Class 10 is reserved. -/
theorem test_word_reserved : (decodeTile (10#64 <<< 60)).1 = .reserved := by decide +kernel

/-! ### One step each -/

/-- What a check says of the next state; nothing else counts. -/
def after (i : Instr) (s : State) (p : State → Bool) : Bool := match exec i s with | .next t => p t | _ => false

theorem test_idle_tick : (State.reset.idle).ctl.now = 1 := by decide +kernel
theorem test_step_takes_front : step { State.reset with pending := [.mainLost, .pinReset] } = exec .mainLost { State.reset with pending := [.pinReset] } := rfl

/-- A READ of two bytes returns what memory holds (R149). -/
theorem test_read : after (.read (wReq kRead 0x100010 [2, 0, 0, 0, 0, 0, 0, 0]) .clean) (wB id)
    (fun t => ((t.ctl.pair 5).unack.map (fun x => (x.frame.kind.toNat, x.frame.payload)) == [(0x40, [7, 9])])) = true := by decide +kernel
/-- A WRITE changes its bytes and no others. -/
theorem test_write : after (.write (wReq kWrite 0x100011 [4]) .clean) (wB id)
    (fun t => t.mem.read (hbmKey 2 3 + 16) 3 == [7, 4, 0]) = true := by decide +kernel
/-- A member's generation that is neither current nor old: STALE_GEN 0x03 (Table 5.9). -/
theorem test_stale : after (.write { wReq kWrite 0x100011 [4] with gen := 9 } .clean) (wB id)
    (fun t => t.mem == (wB id).mem) = true := by decide +kernel
/-- SALU ADD wraps at 64 bits. -/
theorem test_add_wraps : after (.add 0 wF) (wT .add wF { wX with s := [(1, 0xFFFFFFFFFFFFFFFF), (2, 2)] }) (fun t => (t.ctl.tile 0).sreg 3 == 1) = true := by
  decide +kernel
/-- SLT is signed, SLTU is not. -/
theorem test_slt : after (.slt 0 wF) (wT .slt wF { wX with s := [(1, 0xFFFFFFFFFFFFFFFF), (2, 2)] }) (fun t => (t.ctl.tile 0).sreg 3 == 1) = true := by
  decide +kernel
theorem test_sltu : after (.sltu 0 wF) (wT .sltu wF { wX with s := [(1, 0xFFFFFFFFFFFFFFFF), (2, 2)] }) (fun t => (t.ctl.tile 0).sreg 3 == 0) = true := by
  decide +kernel
/-- SAR keeps the sign. -/
theorem test_sar : after (.sar 0 wF) (wT .sar wF { wX with s := [(1, 0x8000000000000000), (2, 60)] }) (fun t => (t.ctl.tile 0).sreg 3 == 0xFFFFFFFFFFFFFFF8) = true := by
  decide +kernel
/-- s0 reads 0 (Table 15.1). -/
theorem test_s0 : after (.add 0 { wF with d := 0 }) (wT .add { wF with d := 0 } wX) (fun t => (t.ctl.tile 0).sreg 0 == 0) = true := by decide +kernel
/-- BEQ not taken goes on to the next word. -/
theorem test_beq : after (.beq 0 wF) (wT .beq wF wX) (fun t => (t.ctl.tile 0).pc == 16) = true := by decide +kernel
/-- An ACKW while no post pends counts in MBX_ACK_IDLE (R414). -/
theorem test_ackw_idle : after (.ackw (.jorren 5) 3) (wMb Mbx.init) (fun t => t.ctl.reg (Reg.mbxCtr 3) == 1) = true := by decide +kernel
/-- ECHO acknowledges with code 0. -/
theorem test_echo : after (.echo 5) (wMb (wPost [1])) (fun t => (t.ctl.mbx 5).ackSeq == 3 && !(t.ctl.mbx 5).go) = true := by decide +kernel
/-- A scan that needs a debug session, while one is open: the one stop. -/
theorem test_debug_scan : exec (.jtagScan (.debug [true])) (State.reset.onCtl (·.wr Reg.secDebugOpen 1)) = .fault .debugScan := rfl

end Sys2Proof.Tests
end

namespace Sys2Proof.Machine

/-! ### What one step does, by the shape of the queue -/

theorem step_of_pending_nil {s : State} (h : s.pending = []) : step s = .next s.idle := by
  simp only [step, h]

theorem step_of_pending_cons {s : State} {c : Instr} {rest : List Instr} (h : s.pending = c :: rest) :
    step s = exec c { s with pending := rest } := by
  simp only [step, h]

/-- Settles O1, by the two shapes of the queue. It rests on log entries 1 and 2, the model's choice: the queue and its order
are the model's own, and so is the idle step, in which only the tick counter moves. -/
theorem stepRunsFront : Obligations.StepRunsFront := by
  unfold Obligations.StepRunsFront
  constructor
  · intro c s
    exact step_of_pending_cons (s := { s with pending := c :: s.pending }) rfl
  · intro s hempty
    exact step_of_pending_nil hempty

end Sys2Proof.Machine

namespace Sys2Proof.Machine

/-! ### Fields of registers: a read after a write of a field that shares no bit with it -/

theorem Ctl.rd_congr {c d : Ctl} {f : Fld} (h : c.reg f.addr = d.reg f.addr) : c.rd f = d.rd f := by
  simp only [Ctl.rd, h]

/-- A field keeps its value when a field that shares no bit with it is written. -/
theorem Ctl.rd_wr_apart (c : Ctl) (f g : Fld) (v : Nat) (hf : f.lo + f.w ≤ 64)
    (h : g.addr ≠ f.addr ∨ g.lo + g.w ≤ f.lo ∨ f.lo + f.w ≤ g.lo) : (c.wr f v).rd g = c.rd g := by
  by_cases ha : g.addr = f.addr
  · exact Ctl.rd_wr_disjoint c f g v ha hf (h.resolve_left (not_not_intro ha))
  · exact Ctl.rd_wr_ne c f g v ha

/-- A value that fits its field is read back. -/
theorem Ctl.rd_wr_fits (c : Ctl) (f : Fld) (v : Nat) (hf : f.lo + f.w ≤ 64) (hv : v < 2 ^ f.w) : (c.wr f v).rd f = v := by
  rw [Ctl.rd_wr_same _ _ _ hf, Nat.mod_eq_of_lt hv]

theorem Ctl.rd_lt (c : Ctl) (f : Fld) : c.rd f < 2 ^ f.w := Nat.mod_lt _ (by positivity)

/-- Bit i of a field is the one-bit field at its place. -/
theorem bitOf_field (x lo w i : Nat) (h : i < w) : bitOf (field x lo w) i = decide (field x (lo + i) 1 = 1) := by
  have hd : x / 2 ^ lo % 2 ^ w / 2 ^ i % 2 = x / 2 ^ (lo + i) % 2 := by
    obtain ⟨d, rfl⟩ := Nat.exists_eq_add_of_lt h
    rw [show i + d + 1 = i + (d + 1) from rfl, pow_add, Nat.mod_mul_right_div_self, Nat.div_div_eq_div_mul, ← pow_add,
      pow_succ', Nat.mod_mul_right_mod]
  simp [bitOf, field, hd]

theorem Ctl.bitOf_rd (c : Ctl) (f : Fld) (i : Nat) (h : i < f.w) :
    bitOf (c.rd f) i = decide (c.rd ⟨f.addr, f.lo + i, 1⟩ = 1) := bitOf_field _ _ _ _ h

/-! ### The power record as a part of its own -/

/-- The control records with another power record. -/
def Ctl.setPwr (c : Ctl) (p : Pwr) : Ctl := { c with pwr := p }

@[simp] theorem Ctl.setPwr_pwr (c : Ctl) (p : Pwr) : (c.setPwr p).pwr = p := rfl
@[simp] theorem Ctl.setPwr_rd (c : Ctl) (p : Pwr) (f : Fld) : (c.setPwr p).rd f = c.rd f := rfl
@[simp] theorem Ctl.setPwr_reg (c : Ctl) (p : Pwr) (a : Nat) : (c.setPwr p).reg a = c.reg a := rfl
@[simp] theorem Ctl.setPwr_wr (c : Ctl) (p : Pwr) (f : Fld) (v : Nat) : (c.setPwr p).wr f v = (c.wr f v).setPwr p := rfl
@[simp] theorem Ctl.setPwr_err (c : Ctl) (p : Pwr) : (c.setPwr p).err = c.err := rfl
@[simp] theorem Ctl.setPwr_evseq (c : Ctl) (p : Pwr) : (c.setPwr p).evseq = c.evseq := rfl
@[simp] theorem Ctl.setPwr_flash (c : Ctl) (p : Pwr) : (c.setPwr p).flash = c.flash := rfl
@[simp] theorem Ctl.setPwr_fuses (c : Ctl) (p : Pwr) : (c.setPwr p).fuses = c.fuses := rfl

/-- A command that completes, by the state it leaves. -/
theorem Completes.of_done {i : Instr} {s t : State} {P : State → Prop} (h : exec i s = done t) (hp : P t) : Completes i s P :=
  ⟨t, h, hp⟩

/-- A command that changes the control records alone, by what becomes of them. -/
theorem Completes.onCtl {i : Instr} {s : State} {f : Ctl → Ctl} {c : Ctl} {P : State → Prop} (h : exec i s = done (s.onCtl f))
    (hf : f s.ctl = c) (hp : P { s with ctl := c }) : Completes i s P := by
  subst hf
  exact ⟨_, h, hp⟩

/-- A command that changes the control records alone keeps memory and the queue. -/
theorem Keeps.onCtl (s : State) (f : Ctl → Ctl) : Keeps s (s.onCtl f) := ⟨rfl, rfl⟩

end Sys2Proof.Machine

namespace Sys2Proof.Machine

/-! ### Events (R481): what giving events to the sessions may touch -/

/-- `c` with the records of `d` that sending an event touches. -/
def Ctl.withPost (c d : Ctl) : Ctl := { c with evseq := d.evseq, sessions := d.sessions, out := d.out }

/-- `d` is `c` after some events were given to the sessions. -/
structure Ctl.Posts (c d : Ctl) : Prop where
  same : d = c.withPost d
  evseq : c.evseq ≤ d.evseq

theorem Ctl.Posts.refl (c : Ctl) : c.Posts c := ⟨rfl, le_refl _⟩

theorem Ctl.Posts.trans {c d e : Ctl} (h : c.Posts d) (k : d.Posts e) : c.Posts e :=
  ⟨k.same.trans (congrArg (fun x : Ctl => x.withPost e) h.same :), h.evseq.trans k.evseq⟩

theorem Ctl.posts_emit (c : Ctl) (o : Output) : c.Posts (c.emit o) := ⟨rfl, le_refl _⟩
theorem Ctl.posts_putSession (c : Ctl) (x : Session) : c.Posts (c.putSession x) := ⟨rfl, le_refl _⟩
theorem Ctl.posts_evseq (c : Ctl) : c.Posts { c with evseq := c.evseq + 1 } := ⟨rfl, Nat.le_succ _⟩

theorem Ctl.posts_emitEvent (c : Ctl) (sid : Nat) (e : Event) : c.Posts (c.emitEvent sid e) := by
  have one : ∀ (d : Ctl) (p : Nat), d.Posts (if d.ctlIsUp p then d.emit (.event sid p e) else d) := by
    intro d p
    split
    · exact d.posts_emit _
    · exact Ctl.Posts.refl d
  exact (one c 0).trans (one _ 1)

theorem Ctl.posts_giveEvent (c : Ctl) (x : Session) (e : Event) : c.Posts (c.giveEvent x e) := by
  unfold Ctl.giveEvent
  split
  · exact Ctl.Posts.refl c
  · split
    · exact (c.posts_putSession _).trans (Ctl.posts_emitEvent _ _ _)
    · exact (((c.posts_putSession _).trans (Ctl.posts_evseq _)).trans (Ctl.posts_emitEvent _ _ _)).trans (Ctl.posts_emitEvent _ _ _)

/-- An event takes an EVSEQ, whatever the sessions make of it. -/
theorem Ctl.posts_event_succ (c : Ctl) (code : Nat) (args : List Nat) :
    ({ c with evseq := c.evseq + 1 } : Ctl).Posts (c.event code args) :=
  List.foldlRecOn (motive := fun d => Ctl.Posts _ d) c.sessions _ (Ctl.Posts.refl _)
    (fun d h x _ => h.trans (d.posts_giveEvent x _))

theorem Ctl.posts_event (c : Ctl) (code : Nat) (args : List Nat) : c.Posts (c.event code args) :=
  c.posts_evseq.trans (c.posts_event_succ code args)

theorem Ctl.evseq_lt_event (c : Ctl) (code : Nat) (args : List Nat) : c.evseq < (c.event code args).evseq :=
  (c.posts_event_succ code args).evseq

theorem Ctl.Posts.regs {c d : Ctl} (h : c.Posts d) : d.regs = c.regs := (congrArg Ctl.regs h.same :)
theorem Ctl.Posts.reg {c d : Ctl} (h : c.Posts d) (a : Nat) : d.reg a = c.reg a := (congrArg (fun x : Ctl => x.reg a) h.same :)
theorem Ctl.Posts.rd {c d : Ctl} (h : c.Posts d) (f : Fld) : d.rd f = c.rd f := Ctl.rd_congr (h.reg _)

/-! ### Reports (§18.2-§18.4): what a report may touch -/

/-- `c` with the records of `d` that the collector, health scores and events touch. -/
def Ctl.withLog (c d : Ctl) : Ctl :=
  { c.withPost d with freeCtr := d.freeCtr, regs := d.regs, units := d.units, err := d.err }

/-- `d` is `c` after reports and events: of the registers only those of chapter 18 and above moved, no unit that was FAILED
came back. -/
structure Ctl.Logs (c d : Ctl) : Prop where
  same : d = c.withLog d
  regs : ∀ a, a < 0x0F000000 → d.reg a = c.reg a
  evseq : c.evseq ≤ d.evseq
  failed : ∀ k n, (c.unit k n).st = .failed → (d.unit k n).st = .failed

theorem Ctl.Logs.refl (c : Ctl) : c.Logs c := ⟨rfl, fun _ _ => rfl, le_refl _, fun _ _ h => h⟩

theorem Ctl.Logs.trans {c d e : Ctl} (h : c.Logs d) (k : d.Logs e) : c.Logs e where
  same := k.same.trans (congrArg (fun x : Ctl => x.withLog e) h.same :)
  regs a ha := (k.regs a ha).trans (h.regs a ha)
  evseq := h.evseq.trans k.evseq
  failed u n hu := k.failed u n (h.failed u n hu)

theorem Ctl.Posts.logs {c d : Ctl} (h : c.Posts d) : c.Logs d where
  same := by
    have hfree : d.freeCtr = c.freeCtr := (congrArg Ctl.freeCtr h.same :)
    have hunits : d.units = c.units := (congrArg Ctl.units h.same :)
    have herr : d.err = c.err := (congrArg Ctl.err h.same :)
    rw [Ctl.withLog, hfree, hunits, herr, h.regs]
    exact h.same
  regs a _ := h.reg a
  evseq := h.evseq
  failed k n hu := (congrArg (fun x : Ctl => (x.unit k n).st) h.same :).trans hu

theorem Ctl.logs_wr (c : Ctl) (f : Fld) (v : Nat) (h : 0x0F000000 ≤ f.addr) : c.Logs (c.wr f v) :=
  ⟨rfl, fun a ha => Ctl.reg_wr_ne c f v a (by omega), le_refl _, fun _ _ hu => hu⟩

theorem Ctl.logs_bump (c : Ctl) (a : Nat) (h : 0x0F000000 ≤ a) : c.Logs (c.bump a) :=
  ⟨rfl, fun b hb => Ctl.reg_bumpBy_ne c a 1 b (by omega), le_refl _, fun _ _ hu => hu⟩

/-- The control records with another collector record. -/
def Ctl.setErr (c : Ctl) (e : Err) : Ctl := { c with err := e }

@[simp] theorem Ctl.setErr_err (c : Ctl) (e : Err) : (c.setErr e).err = e := rfl
@[simp] theorem Ctl.setErr_rd (c : Ctl) (e : Err) (f : Fld) : (c.setErr e).rd f = c.rd f := rfl
@[simp] theorem Ctl.setErr_pwr (c : Ctl) (e : Err) : (c.setErr e).pwr = c.pwr := rfl
@[simp] theorem Ctl.setErr_units (c : Ctl) (e : Err) : (c.setErr e).units = c.units := rfl

theorem Ctl.logs_setErr (c : Ctl) (e : Err) : c.Logs (c.setErr e) := ⟨rfl, fun _ _ => rfl, le_refl _, fun _ _ h => h⟩

theorem Ctl.logs_freeCtr (c : Ctl) (n : Nat) : c.Logs { c with freeCtr := n } := ⟨rfl, fun _ _ => rfl, le_refl _, fun _ _ h => h⟩

theorem Ctl.Logs.rd {c d : Ctl} (h : c.Logs d) (f : Fld) (hf : f.addr < 0x0F000000) : d.rd f = c.rd f := Ctl.rd_congr (h.regs _ hf)

end Sys2Proof.Machine

namespace Sys2Proof.Machine

/-! ### What each reporting operation touches -/

/-- The report as the collector takes it: FIRST when its (block, class) has no record yet (R447). -/
def Ctl.marked (c : Ctl) (r : Report) : Report := { r with first := (c.err.firsts.find? (32 * r.block + r.cls)).isNone }

/-- The FIRST record that a report would freeze. -/
def Ctl.firstEntry (c : Ctl) (r : Report) : LogEntry :=
  { lseq := 2 ^ 64, stamp := c.now % 2 ^ 48, rep := c.marked r, lost := false, nlost := 0, ctx := none, free := c.freeF }

/-- The FIRST record of a report is frozen, if it has none (R447). -/
def Ctl.freeze (c : Ctl) (r : Report) : Ctl :=
  if (c.marked r).first then c.setErr { c.err with firsts := c.err.firsts.put (32 * r.block + r.cls) (c.firstEntry r) } else c

/-- The collector with one report more in its queue. -/
def Err.push (e : Err) (r : Report) : Err :=
  { e with queue := e.queue ++ [r], wasFull := e.wasFull || e.queue.length + 1 == 256 }

/-- A report that finds the queue full is counted in its class's COAL registers (R449). -/
def Ctl.coalesce (c : Ctl) (r : Report) : Ctl := (c.bumpF (Reg.coalPending r.block r.cls) 1).bumpF (Reg.coalTotal r.block r.cls) 1

theorem Ctl.enqueue_eq (c : Ctl) (r : Report) : c.enqueue r =
    if (c.freeze r).err.queue.length < 256 then
      (c.freeze r).setErr ((c.freeze r).err.push (c.marked r))
    else ((c.freeze r).coalesce r).setErr { ((c.freeze r).coalesce r).err with coalesced := ((c.freeze r).coalesce r).err.coalesced + 1 } := rfl

theorem Ctl.freeze_spec (c : Ctl) (r : Report) : ∃ e, c.freeze r = c.setErr e ∧ e.queue = c.err.queue
    ∧ e.moduleReplace = c.err.moduleReplace := by
  unfold Ctl.freeze
  split
  · exact ⟨_, rfl, rfl, rfl⟩
  · exact ⟨c.err, rfl, rfl, rfl⟩

/-- With room in the queue a report waits there, and nothing but the collector moves (R447). -/
theorem Ctl.enqueue_room {c : Ctl} (h : c.err.queue.length < 256) (r : Report) : ∃ e, c.enqueue r = c.setErr e
    ∧ e.queue = c.err.queue ++ [c.marked r] ∧ e.moduleReplace = c.err.moduleReplace := by
  obtain ⟨e, he, hq, hm⟩ := c.freeze_spec r
  rw [Ctl.enqueue_eq, he, if_pos (show (c.setErr e).err.queue.length < 256 from hq ▸ h)]
  exact ⟨_, rfl, congrArg (· ++ [c.marked r]) hq, hm⟩

/-- With none it is counted in its class's COAL registers (R449). -/
theorem Ctl.enqueue_full {c : Ctl} (h : ¬ c.err.queue.length < 256) (r : Report) : ∃ e, c.enqueue r = (c.coalesce r).setErr e
    ∧ e.moduleReplace = c.err.moduleReplace := by
  obtain ⟨e, he, hq, hm⟩ := c.freeze_spec r
  rw [Ctl.enqueue_eq, he, if_neg (show ¬ (c.setErr e).err.queue.length < 256 from hq ▸ h)]
  exact ⟨_, rfl, hm⟩

theorem Ctl.logs_coalesce (c : Ctl) (r : Report) : c.Logs (c.coalesce r) :=
  (c.logs_wr _ _ (by simp only [Reg.coalPending]; omega)).trans (Ctl.logs_wr _ _ _ (by simp only [Reg.coalTotal]; omega))

theorem Ctl.logs_enqueue (c : Ctl) (r : Report) : c.Logs (c.enqueue r) := by
  by_cases h : c.err.queue.length < 256
  · obtain ⟨e, he, -⟩ := Ctl.enqueue_room h r
    exact he ▸ c.logs_setErr e
  · obtain ⟨e, he, -⟩ := Ctl.enqueue_full h r
    exact he ▸ (c.logs_coalesce r).trans (Ctl.logs_setErr _ e)

/-- The state of a unit that is not FAILED may change to any other. -/
theorem Ctl.logs_putUnit (c : Ctl) (k : UnitKind) (n : Nat) (u : UnitRec) (h : (c.unit k n).st ≠ .failed) :
    c.Logs (c.putUnit k n u) := by
  refine ⟨rfl, fun _ _ => rfl, le_refl _, fun j m hf => ?_⟩
  have hk : unitKey j m ≠ unitKey k n := by
    intro he
    simp only [Ctl.unit, he] at hf
    exact h hf
  simpa only [Ctl.unit, Ctl.putUnit, Tab.get_set_ne _ _ _ _ _ _ hk] using hf

/-- The block in whose name a quarantined unit is logged. -/
def quarBlock : UnitKind → Nat
  | .tile => 0x0D | .crucible => 0x09 | .cupola => 0x0C | .runner => 0x0A | .riddle => 0x0B

/-- A unit in service is quarantined and logged. -/
def Ctl.outOfService (c : Ctl) (k : UnitKind) (n : Nat) : Ctl :=
  ((c.putUnit k n { c.unit k n with st := .quarantined }).bump (Reg.tbrCtr 4)).enqueue (rep (quarBlock k) 0x14 n)

/-- What a quarantine can do: nothing; take the unit out; or, for a Cupola, put a spare in its place as well. -/
theorem Ctl.quarantine_cases (c : Ctl) (k : UnitKind) (n : Nat) :
    c.quarantine k n = c
    ∨ ((c.unit k n).st ≠ .failed ∧ (c.quarantine k n = c.outOfService k n
      ∨ ∃ i, ((c.outOfService k n).unit .cupola i).st = .spare ∧ c.quarantine k n
          = ((c.outOfService k n).putUnit .cupola i { (c.outOfService k n).unit .cupola i with st := .inService }).enqueue
              (rep 0x0C 0x15 i))) := by
  by_cases hst : (c.unit k n).st = .inService
  · refine .inr ⟨by rw [hst]; decide, ?_⟩
    have hin : ¬ (c.unit k n).st ≠ .inService := not_not_intro hst
    cases k
    case cupola =>
      simp only [Ctl.quarantine, if_neg hin]
      split
      · rename_i i hi
        exact .inr ⟨i, eq_of_beq (List.find?_some hi :), rfl⟩
      · exact .inl rfl
    all_goals exact .inl (by simp only [Ctl.quarantine, if_neg hin]; rfl)
  · exact .inl (by simp only [Ctl.quarantine, if_pos hst])

theorem Ctl.logs_outOfService (c : Ctl) (k : UnitKind) (n : Nat) (h : (c.unit k n).st ≠ .failed) : c.Logs (c.outOfService k n) :=
  ((c.logs_putUnit k n _ h).trans (Ctl.logs_bump _ _ (by decide))).trans (Ctl.logs_enqueue _ _)

theorem Ctl.logs_quarantine (c : Ctl) (k : UnitKind) (n : Nat) : c.Logs (c.quarantine k n) := by
  obtain h | ⟨hst, h | ⟨i, hi, h⟩⟩ := c.quarantine_cases k n <;> rw [h]
  · exact Ctl.Logs.refl c
  · exact c.logs_outOfService k n hst
  · exact ((c.logs_outOfService k n hst).trans (Ctl.logs_putUnit _ _ _ _ (by rw [hi]; decide))).trans (Ctl.logs_enqueue _ _)

/-! ### Health scores (R452, R454) -/

/-- The score and its peak after a report of weight w. -/
def Ctl.scoreStep (c : Ctl) (b u w : Nat) : Ctl :=
  let v := min 1000 (c.rd (Reg.score b u) + w)
  (c.wr (Reg.score b u) v).wr (Reg.peak b u) (max v (c.rd (Reg.peak b u)))

/-- An advisory: its bit, its log entry, its event. -/
def Ctl.advise (c : Ctl) (f : Fld) (b u kind : Nat) : Ctl :=
  ((c.wr f 1).enqueue (repInfo b 0x1F u kind)).event evAdvisory [b, u, kind]

/-- After the score, WARN is advised or not. -/
def Ctl.warnStep (c : Ctl) (b u w : Nat) : Ctl :=
  let d := c.scoreStep b u w
  if d.rd Reg.hWarn ≤ min 1000 (c.rd (Reg.score b u) + w) && d.rd (Reg.warnBit b u) == 0 && w ≠ 0 then
    d.advise (Reg.warnBit b u) b u 0
  else d

/-- The unit that a REPLACE advisory takes out of service, for the blocks that have such units (R468). -/
def Ctl.retire (c : Ctl) (b u : Nat) : Ctl :=
  match b with
  | 0x09 => c.quarantine .crucible u
  | 0x0C => c.quarantine .cupola u
  | 0x0D => c.quarantine .tile u
  | _ => c

/-- An added weight: the score, WARN or not, then REPLACE and the unit's retirement, or not. -/
theorem Ctl.addScore_eq (c : Ctl) (b u w : Nat) : c.addScore b u w =
    if (c.warnStep b u w).rd Reg.hReplace ≤ min 1000 (c.rd (Reg.score b u) + w)
        && (c.warnStep b u w).rd (Reg.replaceBit b u) == 0 && w ≠ 0 then
      ((c.warnStep b u w).advise (Reg.replaceBit b u) b u 1).retire b u
    else c.warnStep b u w := rfl

theorem Ctl.logs_health (c : Ctl) (b u lo w v : Nat) : c.Logs (c.wr ⟨Reg.health b u, lo, w⟩ v) :=
  c.logs_wr _ v (by simp only [Reg.health]; omega)

theorem Ctl.logs_advise (c : Ctl) (b u lo w kind : Nat) : c.Logs (c.advise ⟨Reg.health b u, lo, w⟩ b u kind) :=
  ((c.logs_health b u lo w 1).trans (Ctl.logs_enqueue _ _)).trans (Ctl.posts_event _ _ _).logs

theorem Ctl.logs_retire (c : Ctl) (b u : Nat) : c.Logs (c.retire b u) := by
  unfold Ctl.retire
  split
  · exact c.logs_quarantine _ _
  · exact c.logs_quarantine _ _
  · exact c.logs_quarantine _ _
  · exact Ctl.Logs.refl c

theorem Ctl.logs_warnStep (c : Ctl) (b u w : Nat) : c.Logs (c.warnStep b u w) := by
  have hscore : c.Logs (c.scoreStep b u w) := (c.logs_health b u 0 10 _).trans (Ctl.logs_health _ b u 16 10 _)
  unfold Ctl.warnStep
  dsimp only
  split
  · exact hscore.trans (Ctl.logs_advise _ b u 26 1 0)
  · exact hscore

theorem Ctl.logs_addScore (c : Ctl) (b u w : Nat) : c.Logs (c.addScore b u w) := by
  rw [Ctl.addScore_eq]
  split
  · exact ((c.logs_warnStep b u w).trans (Ctl.logs_advise _ b u 27 1 1)).trans (Ctl.logs_retire _ b u)
  · exact c.logs_warnStep b u w

/-- A report is queued, and adds to a health score where its block keeps them. -/
theorem Ctl.logs_report (c : Ctl) (r : Report) : c.Logs (c.report r) := by
  by_cases h : scoredBlock (if r.block = 0x0E then 0x0D else r.block) = true
  · simp only [Ctl.report, h, if_true]
    exact (c.logs_enqueue r).trans (Ctl.logs_addScore _ _ _ _)
  · simp only [Ctl.report, h, Bool.false_eq_true, if_false]
    exact c.logs_enqueue r

/-- A report of a block without health scores is queued and nothing else (R452). -/
theorem Ctl.report_unscored (c : Ctl) {r : Report} (h : scoredBlock (if r.block = 0x0E then 0x0D else r.block) = false) :
    c.report r = c.enqueue r := by
  simp only [Ctl.report, h, Bool.false_eq_true, if_false]

theorem Ctl.logs_moduleReplace (c : Ctl) : c.Logs c.moduleReplace :=
  ((c.logs_setErr _).trans (Ctl.logs_enqueue _ _)).trans (Ctl.posts_event _ _ _).logs

end Sys2Proof.Machine

namespace Sys2Proof.Machine

/-! ### The collector's log and its copy in flash (R448-R451) -/

theorem Ctl.logs_logEntry (c : Ctl) (r : Report) (ctx : Option LogContext) : c.Logs (c.logEntry r ctx) := by
  have hput : ∀ e, c.Logs ((c.setErr e).wr (Reg.coalPending r.block r.cls) 0) :=
    fun e => (c.logs_setErr e).trans (Ctl.logs_wr _ _ _ (by simp only [Reg.coalPending]; omega))
  by_cases h : 2 ≤ classSev r.cls
  · simp only [Ctl.logEntry, h, if_true]
    exact (hput _).trans (Ctl.posts_event _ _ _).logs
  · simp only [Ctl.logEntry, h, if_false]
    exact hput _

/-- The context recorded with a queued report (Table 18.4, R454). -/
def Ctl.drainCtx (c : Ctl) (r : Report) (ctx : LogContext) : Option LogContext :=
  if classHasCtx r.cls then some ctx else if r.cls = 0x1F then c.adviceCtx r else none

/-- The LOG_LOSS report of n coalesced reports. -/
def lossReport (n : Nat) : Report := { rep 0 0x1E 0 with info := BitVec.ofNat 128 (n % 2 ^ 64) }

/-- LOG_LOSS is recorded at 128 entries after a full queue (R449). -/
def Ctl.lossStep (c : Ctl) (k : Nat) : Ctl × List Nat :=
  if c.err.wasFull && c.err.queue.length = 128 then
    ((c.setErr { c.err with wasFull := false, coalesced := 0 }).logEntry (lossReport c.err.coalesced) none, [k, 0x1E])
  else (c, [k])

theorem Ctl.drainOne_cons {c : Ctl} {r : Report} {t : List Report} (h : c.err.queue = r :: t) (ctx : LogContext) : c.drainOne ctx =
    ((c.setErr { c.err with queue := t }).logEntry r ((c.setErr { c.err with queue := t }).drainCtx r ctx)).lossStep r.cls := by
  unfold Ctl.drainOne
  rw [h]
  rfl

theorem Ctl.logs_lossStep (c : Ctl) (k : Nat) : c.Logs (c.lossStep k).1 := by
  unfold Ctl.lossStep
  split
  · dsimp only
    exact (c.logs_setErr _).trans (Ctl.logs_logEntry _ _ _)
  · exact Ctl.Logs.refl c

theorem Ctl.logs_drainOne (c : Ctl) (ctx : LogContext) : c.Logs (c.drainOne ctx).1 := by
  cases h : c.err.queue with
  | nil => simpa only [Ctl.drainOne, h] using Ctl.Logs.refl c
  | cons r t =>
    rw [Ctl.drainOne_cons h]
    exact ((c.logs_setErr _).trans (Ctl.logs_logEntry _ _ _)).trans (Ctl.logs_lossStep _ _)

/-- Copying the log to flash touches the collector and its batch count, and no more (R451). -/
structure Ctl.Copies (c d : Ctl) : Prop where
  same : d = { c with regs := d.regs, err := d.err }
  regs : ∀ a, a ≠ Reg.flashBatches.addr → d.reg a = c.reg a

theorem Ctl.Copies.refl (c : Ctl) : c.Copies c := ⟨rfl, fun _ _ => rfl⟩

theorem Ctl.Copies.trans {c d e : Ctl} (h : c.Copies d) (k : d.Copies e) : c.Copies e :=
  ⟨k.same.trans (congrArg (fun x : Ctl => { x with regs := e.regs, err := e.err }) h.same :),
    fun a ha => (k.regs a ha).trans (h.regs a ha)⟩

theorem Ctl.copies_setErr (c : Ctl) (e : Err) : c.Copies (c.setErr e) := ⟨rfl, fun _ _ => rfl⟩

theorem Ctl.copies_wr (c : Ctl) (f : Fld) (v : Nat) (h : f.addr = Reg.flashBatches.addr) : c.Copies (c.wr f v) :=
  ⟨rfl, fun a ha => Ctl.reg_wr_ne c f v a (h ▸ ha)⟩

theorem Ctl.copies_flashBatch (c : Ctl) : c.Copies c.flashBatch := by
  cases h : (c.uncopied.take 64).getLast? with
  | none =>
    have he : c.flashBatch = c.setErr { c.err with batchAt := c.now } := by
      simp only [Ctl.flashBatch, h, Ctl.setErr]
    exact he ▸ c.copies_setErr _
  | some z =>
    have he : ∃ e, c.flashBatch = (c.bumpF Reg.flashBatches 1).setErr e := by
      simp only [Ctl.flashBatch, h]
      exact ⟨_, rfl⟩
    obtain ⟨e, he⟩ := he
    exact he ▸ (c.copies_wr Reg.flashBatches _ rfl).trans (Ctl.copies_setErr _ e)

theorem Ctl.copies_flushLog (c : Ctl) : c.Copies c.flushLog :=
  List.foldlRecOn (motive := fun d => c.Copies d) _ _ (Ctl.Copies.refl c) (fun d h _ _ => by
    split
    · exact h
    · exact h.trans d.copies_flashBatch)

theorem Ctl.reg_flushLog (c : Ctl) (a : Nat) (h : a ≠ Reg.flashBatches.addr) : c.flushLog.reg a = c.reg a :=
  c.copies_flushLog.regs a h
theorem Ctl.rd_flushLog (c : Ctl) (f : Fld) (h : f.addr ≠ Reg.flashBatches.addr) : c.flushLog.rd f = c.rd f :=
  Ctl.rd_congr (c.reg_flushLog _ h)

theorem Ctl.flushLog_eq (c : Ctl) : c.flushLog = { c with regs := c.flushLog.regs, err := c.flushLog.err } := c.copies_flushLog.same

@[simp] theorem Ctl.flushLog_flash (c : Ctl) : c.flushLog.flash = c.flash := (congrArg Ctl.flash c.flushLog_eq :)
@[simp] theorem Ctl.flushLog_fuses (c : Ctl) : c.flushLog.fuses = c.fuses := (congrArg Ctl.fuses c.flushLog_eq :)

end Sys2Proof.Machine

namespace Sys2Proof.Machine

/-! ### MAIN goes off (Table 2.9, R44) -/

/-- A table cut down to the keys of a set reads as before there and as unlisted elsewhere. -/
theorem Tab.get_filter {α : Type} (t : Tab α) (p : Nat → Bool) (k : Nat) (d : α) :
    Tab.get (t.filter (fun e => p e.1)) k d = if p k then t.get k d else d := by
  have hfind : Tab.find? (t.filter (fun e => p e.1)) k = if p k then t.find? k else none := by
    induction t with
    | nil => simp [Tab.find?]
    | cons e t ih =>
      obtain ⟨j, v⟩ := e
      by_cases hj : j = k
      · subst hj
        by_cases hp : p j <;> simp_all [Tab.find?]
      · by_cases hp : p j <;> simp_all [Tab.find?]
  unfold Tab.get
  rw [hfind]
  split <;> rfl

theorem Ctl.reg_dropMain (c : Ctl) (a : Nat) (h : isMain a = false) : c.dropMain.reg a = c.reg a := by
  have := Tab.get_filter c.regs (fun a => !isMain a || (0x0E010000 ≤ a && a < 0x0E018000)) a (regReset a)
  rw [if_pos (by simp [h])] at this
  exact this

theorem Ctl.rd_dropMain (c : Ctl) (f : Fld) (h : isMain f.addr = false) : c.dropMain.rd f = c.rd f :=
  Ctl.rd_congr (c.reg_dropMain _ h)

/-- Discarding dirty lines draws free values and writes trays' memory; of the control records nothing else moves. -/
theorem State.loseLine_spec (s : State) (line : Nat) : ∃ n m, s.loseLine line = { s with ctl := { s.ctl with freeCtr := n }, mem := m } :=
  List.foldlRecOn (motive := fun (t : State) => ∃ n m, t = { s with ctl := { s.ctl with freeCtr := n }, mem := m }) _ _ ⟨_, _, rfl⟩
    (fun t ht _ _ => by
      obtain ⟨n, m, rfl⟩ := ht
      exact ⟨_, _, rfl⟩)

theorem State.loseAll_spec (s : State) : ∃ n m,
    s.loseLines (fun _ => true) = { s with ctl := { s.ctl with freeCtr := n, homeDirty := [] }, mem := m } := by
  have h : ∃ n m, (s.ctl.homeDirty.filter (fun _ => true)).foldl State.loseLine s = { s with ctl := { s.ctl with freeCtr := n }, mem := m } :=
    List.foldlRecOn (motive := fun (t : State) => ∃ n m, t = { s with ctl := { s.ctl with freeCtr := n }, mem := m }) _ _ ⟨_, _, rfl⟩
      (fun t ht line _ => by
        obtain ⟨n, m, rfl⟩ := ht
        obtain ⟨n', m', h'⟩ := State.loseLine_spec { s with ctl := { s.ctl with freeCtr := n }, mem := m } line
        exact ⟨n', m', h'⟩)
  obtain ⟨n, m, h⟩ := h
  have hnone : s.ctl.homeDirty.filter (fun _ => !true) = [] := by simp
  refine ⟨n, m, ?_⟩
  unfold State.loseLines
  rw [h]
  dsimp only
  rw [hnone]

/-- Nothing of the data plane is left in the control records (R44). -/
structure Ctl.Emptied (c : Ctl) : Prop where
  opens : c.opens = []
  tier : c.tier = []
  ques : c.ques = []
  tiles : c.tiles = []
  homeDirty : c.homeDirty = []
  flask : c.flask = []

theorem Ctl.emptied_dropMain (c : Ctl) : c.dropMain.Emptied := ⟨rfl, rfl, rfl, rfl, rfl, rfl⟩
theorem Ctl.Emptied.wr {c : Ctl} (h : c.Emptied) (f : Fld) (v : Nat) : (c.wr f v).Emptied :=
  ⟨h.opens, h.tier, h.ques, h.tiles, h.homeDirty, h.flask⟩
theorem Ctl.Emptied.setPwr {c : Ctl} (h : c.Emptied) (p : Pwr) : (c.setPwr p).Emptied :=
  ⟨h.opens, h.tier, h.ques, h.tiles, h.homeDirty, h.flask⟩
theorem Ctl.Emptied.logs {c d : Ctl} (h : c.Emptied) (k : c.Logs d) : d.Emptied :=
  k.same ▸ ⟨h.opens, h.tier, h.ques, h.tiles, h.homeDirty, h.flask⟩

/-- No byte inside the module is left. -/
theorem Mem.byte_dropMain (m : Mem) (k : Nat) (h : k < 2 ^ 60) : m.dropMain.byte k = 0 :=
  cellGet_below _ k (fun c hc => by
    have : 2 ^ 60 ≤ c.1 := of_decide_eq_true (List.mem_filter.mp hc).2
    omega)

theorem MainGone.of {t : State} {m : Mem} (hm : t.mem = m.dropMain) (hc : t.ctl.Emptied) (hup : t.ctl.mainUp = false) : MainGone t :=
  ⟨fun k hk => hm ▸ m.byte_dropMain k hk, hc.opens, hc.tier, hc.ques, hc.tiles, hc.homeDirty, hc.flask, hup⟩

/-- The states of Table 20.4 in which MAIN is off: OFF, the wait after a link failure, and power-up before step 6. -/
theorem Ctl.mainUp_off {c : Ctl} (h : c.rd Reg.glbState = 0) : c.mainUp = false := by simp only [Ctl.mainUp, h]
theorem Ctl.mainUp_failed {c : Ctl} (h : c.rd Reg.glbState = 4) : c.mainUp = false := by simp only [Ctl.mainUp, h]
theorem Ctl.mainUp_starting {c : Ctl} (h : c.rd Reg.glbState = 1) (hs : c.rd Reg.glbStep = 5) : c.mainUp = false := by
  simp [Ctl.mainUp, h, hs]

/-! ### The status of a device whose MAIN is off (Tables 20.4, 2.12) -/

/-- The fields that switching MAIN off sets. -/
def offFields : List Fld :=
  [Reg.glbState, Reg.glbStep, Reg.glbOffCause, Reg.glbReduced, Reg.mainGood, Reg.dataReady, Reg.oeLock, Reg.capActive, Reg.aDiv]

/-- Two fields share no bit. -/
def Fld.apart (f g : Fld) : Bool := f.addr != g.addr || decide (f.lo + f.w ≤ g.lo) || decide (g.lo + g.w ≤ f.lo)

theorem Fld.apart_iff (f g : Fld) : f.apart g = true ↔ f.addr ≠ g.addr ∨ f.lo + f.w ≤ g.lo ∨ g.lo + g.w ≤ f.lo := by
  simp [Fld.apart, or_assoc]

theorem Ctl.rd_glb (c : Ctl) (st step : Nat) (g : Fld) (h : Reg.glbState.apart g = true) (h' : Reg.glbStep.apart g = true) :
    (c.glb st step).rd g = c.rd g := by
  rw [Fld.apart_iff] at h h'
  unfold Ctl.glb
  rw [Ctl.rd_wr_apart _ _ _ _ (by decide) (by tauto), Ctl.rd_wr_apart _ _ _ _ (by decide) (by tauto)]

/-- The registers when MAIN is off, before the power record follows. -/
def Ctl.offRegs (c : Ctl) (st off : Nat) : Ctl :=
  let c := ((c.glb st 0).wr Reg.glbOffCause off).wr Reg.glbReduced 0
  let c := ((c.wr Reg.mainGood 0).wr Reg.dataReady 0).wr Reg.oeLock 0
  (c.wr Reg.capActive 0).wr Reg.aDiv 4

theorem Ctl.offStatus_eq (c : Ctl) (st off : Nat) : c.offStatus st off =
    (c.offRegs st off).setPwr { (c.offRegs st off).pwr with railsUp := false, thermStep := 4, capSince := 0 } := rfl

/-- A field apart from those keeps its value. -/
theorem Ctl.rd_offStatus (c : Ctl) (st off : Nat) (g : Fld) (h : offFields.all g.apart = true) :
    (c.offStatus st off).rd g = c.rd g := by
  simp only [offFields, List.all_cons, List.all_nil, Bool.and_true, Bool.and_eq_true, Fld.apart_iff] at h
  obtain ⟨h1, h2, h3, h4, h5, h6, h7, h8, h9⟩ := h
  rw [Ctl.offStatus_eq, Ctl.setPwr_rd]
  unfold Ctl.offRegs Ctl.glb
  rw [Ctl.rd_wr_apart _ _ _ _ (by decide) h9, Ctl.rd_wr_apart _ _ _ _ (by decide) h8,
    Ctl.rd_wr_apart _ _ _ _ (by decide) h7, Ctl.rd_wr_apart _ _ _ _ (by decide) h6, Ctl.rd_wr_apart _ _ _ _ (by decide) h5,
    Ctl.rd_wr_apart _ _ _ _ (by decide) h4, Ctl.rd_wr_apart _ _ _ _ (by decide) h3, Ctl.rd_wr_apart _ _ _ _ (by decide) h2,
    Ctl.rd_wr_apart _ _ _ _ (by decide) h1]

theorem Ctl.glbState_offStatus (c : Ctl) {st : Nat} (off : Nat) (h : st < 8) : (c.offStatus st off).rd Reg.glbState = st := by
  rw [Ctl.offStatus_eq, Ctl.setPwr_rd]
  unfold Ctl.offRegs Ctl.glb
  simp (disch := decide) only [Ctl.rd_wr_apart]
  exact Ctl.rd_wr_fits _ _ _ (by decide) h

theorem Ctl.glbOffCause_offStatus (c : Ctl) (st : Nat) {off : Nat} (h : off < 16) : (c.offStatus st off).rd Reg.glbOffCause = off := by
  rw [Ctl.offStatus_eq, Ctl.setPwr_rd]
  unfold Ctl.offRegs Ctl.glb
  simp (disch := decide) only [Ctl.rd_wr_apart]
  exact Ctl.rd_wr_fits _ _ _ (by decide) h

theorem Ctl.Emptied.offStatus {c : Ctl} (h : c.Emptied) (st off : Nat) : (c.offStatus st off).Emptied := by
  rw [Ctl.offStatus_eq]
  exact (((((((((h.wr _ _).wr _ _).wr _ _).wr _ _).wr _ _).wr _ _).wr _ _).wr _ _).wr _ _).setPwr _

/-- The state after MAIN has been switched off: memory inside the module is gone, the control records are those of Table 2.9. -/
theorem State.mainOff_spec (s : State) (st off : Nat) : ∃ n m, s.mainOff st off
    = { s with ctl := (({ s.ctl with freeCtr := n, homeDirty := [] } : Ctl).dropMain).offStatus st off, mem := Mem.dropMain m } := by
  obtain ⟨n, m, h⟩ := s.loseAll_spec
  refine ⟨n, m, ?_⟩
  unfold State.mainOff State.dropMain
  rw [h]

end Sys2Proof.Machine

namespace Sys2Proof.Machine

/-! ### JMP operations: the answer (R480) -/

theorem Ctl.jmpRuns_iff (c : Ctl) (sid op : Nat) : c.jmpRuns sid op = true ↔
    ∃ x q p, c.session? sid = some x ∧ x.running = some (q, op, p) := by
  unfold Ctl.jmpRuns
  constructor
  · intro h
    split at h
    · rename_i x hx
      split at h
      · rename_i r hr
        obtain ⟨q, o, p⟩ := r
        have ho : o = op := eq_of_beq h
        exact ⟨x, q, p, hx, ho ▸ hr⟩
      · cases h
    · cases h
  · rintro ⟨x, q, p, hx, hr⟩
    simp [hx, hr]

/-- An answer changes the sessions and is sent; nothing else moves. -/
theorem Ctl.reply_same (c : Ctl) (sid : Nat) (a : Ans) :
    c.reply sid a = { c with sessions := (c.reply sid a).sessions, out := (c.reply sid a).out } := by
  unfold Ctl.reply
  split
  · rfl
  · split <;> rfl

theorem Ctl.reply_regs (c : Ctl) (sid : Nat) (a : Ans) : (c.reply sid a).regs = c.regs := (congrArg Ctl.regs (c.reply_same sid a) :)
theorem Ctl.reply_pwr (c : Ctl) (sid : Nat) (a : Ans) : (c.reply sid a).pwr = c.pwr := (congrArg Ctl.pwr (c.reply_same sid a) :)
theorem Ctl.reply_rd (c : Ctl) (sid : Nat) (a : Ans) (f : Fld) : (c.reply sid a).rd f = c.rd f :=
  (congrArg (fun x : Ctl => x.rd f) (c.reply_same sid a) :)

/-- Where the operation runs, its answer is the last thing sent. -/
theorem Ctl.out_reply {c : Ctl} {sid op : Nat} (h : c.jmpRuns sid op = true) (a : Ans) :
    ∃ port r, (c.reply sid a).out = c.out ++ [.answer sid port r] ∧ r.result = a.1 := by
  obtain ⟨x, q, p, hx, hr⟩ := (c.jmpRuns_iff sid op).mp h
  refine ⟨p, { seq := q, op := op, result := a.1, words := a.2.1, bytes := a.2.2 }, ?_, rfl⟩
  simp only [Ctl.reply, hx, hr]
  rfl

/-- Whether a request runs depends on the sessions alone. -/
theorem Ctl.jmpRuns_congr {c d : Ctl} (h : d.sessions = c.sessions) (sid op : Nat) : d.jmpRuns sid op = c.jmpRuns sid op := by
  simp only [Ctl.jmpRuns, Ctl.session?, h]

/-- A command that left sessions and output alone and then answers has answered. -/
theorem Answered.of_reply {s t : State} {c : Ctl} {sid op : Nat} {a : Ans} (h : s.ctl.jmpRuns sid op = true)
    (hs : c.sessions = s.ctl.sessions) (ho : c.out = s.ctl.out) (ht : t.ctl.out = (c.reply sid a).out) : Answered s t sid a.1 := by
  obtain ⟨port, r, hout, hr⟩ := Ctl.out_reply ((Ctl.jmpRuns_congr hs sid op).trans h) a
  refine ⟨port, r, ?_, hr⟩
  unfold Sent
  rw [ht, hout, ho, List.drop_left]
  exact List.mem_singleton_self _

theorem State.jmp_runs {s : State} {sid op : Nat} (h : s.ctl.jmpRuns sid op = true) (f : State → State × Ans) :
    s.jmp sid op f = (f s).1.onCtl (·.reply sid (f s).2) := by
  simp only [State.jmp, h, if_true]

/-- A running operation that changes the control records alone. -/
theorem State.jmpCtl_runs {s : State} {sid op : Nat} {f : Ctl → Ctl × Ans} {c : Ctl} {a : Ans} (h : s.ctl.jmpRuns sid op = true)
    (hf : f s.ctl = (c, a)) : s.jmpCtl sid op f = { s with ctl := c.reply sid a } := by
  simp only [State.jmpCtl, State.jmp_runs h, hf, State.onCtl]

theorem State.jmpThen_runs {s : State} {sid op : Nat} {check : Ctl → Nat} (h : s.ctl.jmpRuns sid op = true) (hc : check s.ctl = rOK)
    (f : State → State) : s.jmpThen sid op check f = f (s.onCtl (·.reply sid (ans rOK))) := by
  simp only [State.jmpThen, h, hc, if_true]

end Sys2Proof.Machine

namespace Sys2Proof.Machine

/-! ### Work on the links (spec/03 §3.1, §3.3): what a change of a sub-port's state may touch -/

/-- `c` with the records of `d` that work on sub-ports touches. -/
def Ctl.withLinks (c d : Ctl) : Ctl :=
  { c with evseq := d.evseq, sessions := d.sessions, out := d.out, freeCtr := d.freeCtr, regs := d.regs, units := d.units,
           err := d.err, subs := d.subs, lanes := d.lanes, flask := d.flask, scheds := d.scheds }

/-- `d` is `c` after work on sub-ports: of the registers only those of chapter 3 and above moved. -/
structure Ctl.LinkWork (c d : Ctl) : Prop where
  same : d = c.withLinks d
  regs : ∀ a, a < 0x02000000 → d.reg a = c.reg a

theorem Ctl.LinkWork.refl (c : Ctl) : c.LinkWork c := ⟨rfl, fun _ _ => rfl⟩

theorem Ctl.LinkWork.trans {c d e : Ctl} (h : c.LinkWork d) (k : d.LinkWork e) : c.LinkWork e :=
  ⟨k.same.trans (congrArg (fun x : Ctl => x.withLinks e) h.same :), fun a ha => (k.regs a ha).trans (h.regs a ha)⟩

theorem Ctl.Logs.links {c d : Ctl} (h : c.Logs d) : c.LinkWork d where
  same := by
    have hsubs : d.subs = c.subs := (congrArg Ctl.subs h.same :)
    have hlanes : d.lanes = c.lanes := (congrArg Ctl.lanes h.same :)
    have hflask : d.flask = c.flask := (congrArg Ctl.flask h.same :)
    have hscheds : d.scheds = c.scheds := (congrArg Ctl.scheds h.same :)
    rw [Ctl.withLinks, hsubs, hlanes, hflask, hscheds]
    exact h.same
  regs a ha := h.regs a (by omega)

theorem Ctl.links_wr (c : Ctl) (f : Fld) (v : Nat) (h : 0x02000000 ≤ f.addr) : c.LinkWork (c.wr f v) :=
  ⟨rfl, fun a ha => Ctl.reg_wr_ne c f v a (by omega)⟩
theorem Ctl.links_bumpBy (c : Ctl) (a n : Nat) (h : 0x02000000 ≤ a) : c.LinkWork (c.bumpBy a n) :=
  ⟨rfl, fun b hb => Ctl.reg_bumpBy_ne c a n b (by omega)⟩
theorem Ctl.links_putFq (c : Ctl) (q : Nat) (v : FlaskQ) : c.LinkWork (c.putFq q v) := ⟨rfl, fun _ _ => rfl⟩
theorem Ctl.links_putSub (c : Ctl) (p s : Nat) (v : SubPort) : c.LinkWork (c.putSub p s v) := ⟨rfl, fun _ _ => rfl⟩
theorem Ctl.links_putLane (c : Ctl) (p : Nat) (v : PortLanes) : c.LinkWork (c.putLane p v) := ⟨rfl, fun _ _ => rfl⟩

/-- Setting Flask's free count moves at most its minimum as well. -/
theorem Ctl.setFree_cases (c : Ctl) (n : Nat) :
    c.setFree n = c.wr Reg.freeCells n ∨ c.setFree n = (c.wr Reg.freeCells n).wr Reg.minFree n :=
  (ite_eq_or_eq _ _ _).symm

theorem Ctl.links_setFree (c : Ctl) (n : Nat) : c.LinkWork (c.setFree n) := by
  obtain h | h := c.setFree_cases n <;> rw [h]
  · exact c.links_wr _ _ (by decide)
  · exact (c.links_wr _ _ (by decide)).trans (Ctl.links_wr _ _ _ (by decide))

theorem Ctl.links_dropList (c : Ctl) (q s : Nat) : c.LinkWork (c.dropList q s false) :=
  (c.links_putFq q _).trans (Ctl.links_setFree _ _)

theorem Ctl.subs_setFree (c : Ctl) (n : Nat) : (c.setFree n).subs = c.subs := by
  obtain h | h := c.setFree_cases n
  · rw [h, Ctl.wr_subs]
  · rw [h, Ctl.wr_subs, Ctl.wr_subs]

theorem Ctl.subs_dropList (c : Ctl) (q s : Nat) : (c.dropList q s false).subs = c.subs := Ctl.subs_setFree _ _

/-- A scheduler starts afresh. -/
def Ctl.freshSched (c : Ctl) (k : Nat) : Ctl := { c with scheds := c.scheds.set k Sched.init Sched.init }

theorem Ctl.links_freshSched (c : Ctl) (k : Nat) : c.LinkWork (c.freshSched k) := ⟨rfl, fun _ _ => rfl⟩

/-- The frames queued for a sub-port are dropped and its scheduler starts afresh. -/
def Ctl.flushSub (c : Ctl) (p s : Nat) : Ctl :=
  ((List.range 8).foldl (fun (d : Ctl) k => d.dropList (portQueue p k) s false) c).freshSched (4 * p + s)

theorem Ctl.links_flushSub (c : Ctl) (p s : Nat) : c.LinkWork (c.flushSub p s) := by
  have hdrop : c.LinkWork ((List.range 8).foldl (fun (d : Ctl) k => d.dropList (portQueue p k) s false) c) :=
    List.foldlRecOn (motive := fun d => c.LinkWork d) _ _ (Ctl.LinkWork.refl c) (fun d h k _ => h.trans (d.links_dropList _ s))
  exact hdrop.trans (Ctl.links_freshSched _ _)

theorem Ctl.subs_flushSub (c : Ctl) (p s : Nat) : (c.flushSub p s).subs = c.subs :=
  List.foldlRecOn (motive := fun (d : Ctl) => d.subs = c.subs) (List.range 8) _ rfl (fun d h _ _ => (d.subs_dropList _ s).trans h)

/-- What is left of a sub-port when its link is dropped, and how many frames go uncounted. -/
theorem Ctl.linkDrop_spec (c : Ctl) (p s : Nat) : ∃ n x, x.st = (c.sub p s).st
    ∧ c.linkDrop p s = ((c.flushSub p s).bumpBy (Reg.lnkCtr p s 0x58) n).putSub p s x := by
  refine ⟨_, _, ?_, rfl⟩
  rfl

theorem Ctl.links_linkDrop (c : Ctl) (p s : Nat) : c.LinkWork (c.linkDrop p s) := by
  obtain ⟨n, x, -, h⟩ := c.linkDrop_spec p s
  exact h ▸ ((c.links_flushSub p s).trans (Ctl.links_bumpBy _ _ _ (by simp only [Reg.lnkCtr, Reg.portBase]; omega))).trans
    (Ctl.links_putSub _ _ _ _)

theorem Ctl.linkDown_spec (c : Ctl) (p s : Nat) : ∃ x l, x.st = .down ∧ c.linkDown p s = ((c.linkDrop p s).putSub p s x).putLane p l := by
  refine ⟨_, _, ?_, rfl⟩
  rfl

theorem Ctl.links_linkDown (c : Ctl) (p s : Nat) : c.LinkWork (c.linkDown p s) := by
  obtain ⟨x, l, -, h⟩ := c.linkDown_spec p s
  exact h ▸ ((c.links_linkDrop p s).trans (Ctl.links_putSub _ _ _ _)).trans (Ctl.links_putLane _ _ _)

theorem Ctl.links_linkQuar (c : Ctl) (p s : Nat) : c.LinkWork (c.linkQuar p s) := (c.links_linkDrop p s).trans (Ctl.links_putSub _ _ _ _)

theorem Ctl.links_linkAlign (c : Ctl) (p s : Nat) (l : BitVec 4) (first : Bool) : c.LinkWork (c.linkAlign p s l first) := c.links_putSub _ _ _

/-- A sub-port's entry to TRAIN as it is counted and reported, before the sub-port itself changes (R72). -/
def Ctl.countTrain (c : Ctl) (p s : Nat) : Ctl :=
  let c := (c.linkDrop p s).bumpF (Reg.retrainCnt p) 1
  ((List.range 4).filter (fun m => bitOf (c.cfgLanes p s).toNat m)).foldl (fun d m => d.report (rep 0x01 0x09 (4 * p + m))) c

theorem Ctl.links_countTrain (c : Ctl) (p s : Nat) : c.LinkWork (c.countTrain p s) := by
  have hbase : c.LinkWork ((c.linkDrop p s).bumpF (Reg.retrainCnt p) 1) :=
    (c.links_linkDrop p s).trans (Ctl.links_wr _ _ _ (by simp only [Reg.retrainCnt, Reg.portBase]; omega))
  exact List.foldlRecOn (motive := fun d => c.LinkWork d) _ _ hbase (fun d h m _ => h.trans (d.logs_report _).links)

/-- Entering TRAIN ends in TRAIN, or in QUARANTINED at the 8th entry within a second. -/
theorem Ctl.linkTrain_cases (c : Ctl) (p s : Nat) : ∃ x,
    c.linkTrain p s = (c.countTrain p s).putSub p s x ∨ c.linkTrain p s = ((c.countTrain p s).putSub p s x).linkQuar p s := by
  unfold Ctl.linkTrain
  dsimp only
  split
  · exact ⟨_, .inr rfl⟩
  · exact ⟨_, .inl rfl⟩

theorem Ctl.links_linkTrain (c : Ctl) (p s : Nat) : c.LinkWork (c.linkTrain p s) := by
  obtain ⟨x, h | h⟩ := c.linkTrain_cases p s <;> rw [h]
  · exact (c.links_countTrain p s).trans (Ctl.links_putSub _ _ _ _)
  · exact ((c.links_countTrain p s).trans (Ctl.links_putSub _ _ _ _)).trans (Ctl.links_linkQuar _ _ _)

/-- A lane is marked failed and reported (R64). -/
def Ctl.laneMarked (c : Ctl) (p m : Nat) : Ctl :=
  (c.putLane p { c.lane p with failed := (c.lane p).failed ||| BitVec.ofNat 4 (2 ^ m) }).report (rep 0x01 0x08 (4 * p + m))

/-- The sub-port that ran on a failed lane narrows or retrains (R63). -/
def Ctl.laneNarrow (c : Ctl) (p m : Nat) : Ctl :=
  match c.subOfLane p m with
  | none => c
  | some s =>
    if ((c.sub p s).carries || (c.sub p s).st == .align) && bitOf (c.sub p s).lanes.toNat m then
      if c.usable p s = 0 then c.linkTrain p s else c.linkAlign p s (c.usable p s) ((c.sub p s).st == .align && (c.sub p s).firstAlign)
    else c

theorem Ctl.laneFail_eq (c : Ctl) (p m : Nat) :
    c.laneFail p m = if bitOf (c.lane p).failed.toNat m then c else (c.laneMarked p m).laneNarrow p m := rfl

theorem Ctl.links_laneNarrow (c : Ctl) (p m : Nat) : c.LinkWork (c.laneNarrow p m) := by
  unfold Ctl.laneNarrow
  split
  · exact Ctl.LinkWork.refl c
  · split
    · split
      · exact c.links_linkTrain _ _
      · exact c.links_linkAlign _ _ _ _
    · exact Ctl.LinkWork.refl c

theorem Ctl.links_laneFail (c : Ctl) (p m : Nat) : c.LinkWork (c.laneFail p m) := by
  rw [Ctl.laneFail_eq]
  split
  · exact Ctl.LinkWork.refl c
  · exact ((c.links_putLane p _).trans (Ctl.logs_report _ _).links).trans (Ctl.links_laneNarrow _ p m)

theorem Ctl.LinkWork.rd {c d : Ctl} (h : c.LinkWork d) (f : Fld) (hf : f.addr < 0x02000000) : d.rd f = c.rd f := Ctl.rd_congr (h.regs _ hf)

end Sys2Proof.Machine

namespace Sys2Proof.Machine

/-! ### Reports that wait in the queue -/

/-- With room in the queue, a report of a block without health scores waits there; nothing but the collector moves. -/
theorem Ctl.report_waits {c : Ctl} (h : c.err.queue.length < 256) {r : Report}
    (hr : scoredBlock (if r.block = 0x0E then 0x0D else r.block) = false) :
    ∃ e, c.report r = c.setErr e ∧ ∃ b, { r with first := b } ∈ e.queue := by
  rw [c.report_unscored hr]
  obtain ⟨e, he, hq, -⟩ := Ctl.enqueue_room h r
  exact ⟨e, he, _, hq ▸ List.mem_append_right _ (List.mem_singleton_self _)⟩

/-! ### Feeds and rails (R35, R39, R40) -/

/-- The bit of PWR_STATUS.FEED_OK of a feed. -/
def Reg.feedBit (f : Nat) : Fld := ⟨0x01001000, f, 1⟩

theorem Ctl.rd_feedBit_wr_same (c : Ctl) (f : Fin 4) {v : Nat} (hv : v < 2) : (c.wr (Reg.feedBit f.val) v).rd (Reg.feedBit f.val) = v :=
  Ctl.rd_wr_fits c _ v (by simp only [Reg.feedBit]; omega) hv

theorem Ctl.rd_feedBit_wr_ne (c : Ctl) (f : Fin 4) (v : Nat) (g : Fin 4) (h : g ≠ f) :
    (c.wr (Reg.feedBit f.val) v).rd (Reg.feedBit g.val) = c.rd (Reg.feedBit g.val) :=
  Ctl.rd_wr_apart c _ _ v (by simp only [Reg.feedBit]; omega) (by simp only [Reg.feedBit]; omega)

/-- Bit i of FEED_OK is feed i's bit. -/
theorem Ctl.bitOf_feedOk (c : Ctl) (i : Nat) (h : i < 4) : bitOf (c.rd Reg.feedOk) i = decide (c.rd (Reg.feedBit i) = 1) := by
  have := c.bitOf_rd Reg.feedOk i h
  rwa [show Reg.feedOk.lo + i = i from Nat.zero_add i] at this

/-- A feed that comes back: its bit, and FEED_RESTORED when its loss was logged (R39). -/
def Ctl.feedBack (c : Ctl) (f : Nat) : Ctl :=
  let d := c.wr (Reg.feedBit f) 1
  if bitOf d.pwr.lostFeeds.toNat f then
    (d.setPwr { d.pwr with lostFeeds := d.pwr.lostFeeds &&& ~~~ BitVec.ofNat 4 (2 ^ f) }).report (powerEvent 1 f)
  else d

theorem Ctl.feedGood_eq (c : Ctl) (f : Nat) : c.feedGood f =
    if 2 ≤ f && (c.feedBack f).pwr.pwrEn && (c.feedBack f).rd Reg.glbState = 1 && (c.feedBack f).rd Reg.glbStep = 3 then
      (c.feedBack f).glb 1 4
    else c.feedBack f := rfl

theorem Ctl.rd_feedGood (c : Ctl) (f g : Nat) : (c.feedGood f).rd (Reg.feedBit g) = (c.wr (Reg.feedBit f) 1).rd (Reg.feedBit g) := by
  have hback : (c.feedBack f).rd (Reg.feedBit g) = (c.wr (Reg.feedBit f) 1).rd (Reg.feedBit g) := by
    unfold Ctl.feedBack
    dsimp only
    split
    · exact (Ctl.logs_report _ _).rd _ (show Reg.feedOk.addr < 0x0F000000 by decide)
    · rfl
  rw [Ctl.feedGood_eq]
  split
  · exact ((Ctl.rd_wr_ne _ _ (Reg.feedBit g) _ (show Reg.feedOk.addr ≠ Reg.glbStep.addr by decide)).trans
      (Ctl.rd_wr_ne _ _ (Reg.feedBit g) _ (show Reg.feedOk.addr ≠ Reg.glbState.addr by decide))).trans hback
  · exact hback

theorem feedGood_completes (f : Fin 4) (s : State) : Completes (.feedGood f) s (fun t =>
    t.ctl.rd ⟨0x01001000, f.val, 1⟩ = 1
    ∧ (∀ g : Fin 4, g ≠ f → t.ctl.rd ⟨0x01001000, g.val, 1⟩ = s.ctl.rd ⟨0x01001000, g.val, 1⟩) ∧ Keeps s t) :=
  Completes.of_done rfl ⟨(s.ctl.rd_feedGood f.val f.val).trans (s.ctl.rd_feedBit_wr_same f (by decide)),
    fun g hg => (s.ctl.rd_feedGood f.val g.val).trans (s.ctl.rd_feedBit_wr_ne f 1 g hg), Keeps.onCtl _ _⟩

theorem otherFeed_ne : ∀ f : Fin 4, otherFeed f.val < 4 ∧ otherFeed f.val ≠ f.val := by decide

/-- A feed lost while the other of its pair is good: its bit clears, FEED_LOST waits in the queue, ALERT_N bit 0 is set. -/
theorem Ctl.feedLost_pair (c : Ctl) (f : Fin 4) (h : bitOf (c.rd Reg.feedOk) f.val = true)
    (ho : bitOf (c.rd Reg.feedOk) (otherFeed f.val) = true) : ∃ p, c.feedLost f.val
      = (((c.wr (Reg.feedBit f.val) 0).setPwr p).report (powerEvent 0 f.val)).alert 0 := by
  obtain ⟨hlt, hne⟩ := otherFeed_ne f
  have hother : bitOf ((c.wr (Reg.feedBit f.val) 0).rd Reg.feedOk) (otherFeed f.val) = true := by
    rw [Ctl.bitOf_feedOk _ _ hlt, decide_eq_true_iff] at ho ⊢
    exact (c.rd_feedBit_wr_ne f 0 ⟨_, hlt⟩ (Fin.ne_of_val_ne hne)).trans ho
  unfold Ctl.feedLost
  rw [if_pos h]
  dsimp only
  rw [if_pos (show bitOf ((c.wr ⟨0x01001000, f.val, 1⟩ 0).rd Reg.feedOk) (otherFeed f.val) = true from hother)]
  exact ⟨_, rfl⟩

theorem feedLost_completes (f : Fin 4) (s : State) (h : bitOf (s.ctl.rd Reg.feedOk) f.val = true)
    (ho : bitOf (s.ctl.rd Reg.feedOk) (otherFeed f.val) = true) (hroom : LogRoom s) : Completes (.feedLost f) s (fun t =>
    t.ctl.rd ⟨0x01001000, f.val, 1⟩ = 0
    ∧ (∀ g : Fin 4, g ≠ f → t.ctl.rd ⟨0x01001000, g.val, 1⟩ = s.ctl.rd ⟨0x01001000, g.val, 1⟩)
    ∧ Logged t (powerEvent 0 f.val) ∧ t.ctl.rd (Reg.alertPend 0) = 1 ∧ Keeps s t) := by
  obtain ⟨p, hlost⟩ := s.ctl.feedLost_pair f h ho
  obtain ⟨e, he, b, hb⟩ := Ctl.report_waits (c := (s.ctl.wr (Reg.feedBit f.val) 0).setPwr p) (r := powerEvent 0 f.val)
    (Nat.lt_succ_of_lt hroom) (show scoredBlock 0x13 = false by decide)
  have hbit : ∀ g, (s.ctl.feedLost f.val).rd (Reg.feedBit g) = (s.ctl.wr (Reg.feedBit f.val) 0).rd (Reg.feedBit g) := by
    intro g
    rw [hlost, he]
    exact Ctl.rd_wr_ne _ _ _ _ (show Reg.feedOk.addr ≠ (Reg.alertPend 0).addr by decide)
  refine Completes.of_done rfl ⟨(hbit f.val).trans (s.ctl.rd_feedBit_wr_same f (by decide)),
    fun g hg => (hbit g.val).trans (s.ctl.rd_feedBit_wr_ne f 0 g hg), ⟨b, ?_⟩, ?_, Keeps.onCtl _ _⟩
  · show _ ∈ (s.ctl.feedLost f.val).err.queue
    rw [hlost, he]
    exact hb
  · show (s.ctl.feedLost f.val).rd (Reg.alertPend 0) = 1
    rw [hlost]
    exact Ctl.rd_wr_fits _ _ _ (by decide) (by decide)

/-! ### Rails -/

theorem b2n_lt (b : Bool) : b2n b < 2 := by cases b <;> decide

theorem Ctl.mainGood_railState (c : Ctl) (drops : BitVec 13) :
    (c.railState drops).rd Reg.mainGood = b2n (c.pwr.railsUp && drops.toNat % 512 == 0) :=
  Ctl.rd_wr_fits c Reg.mainGood _ (by decide) (b2n_lt _)

theorem Ctl.auxGood_railState (c : Ctl) (drops : BitVec 13) : (c.railState drops).pwr.auxGood = decide (drops.toNat < 512) := rfl

theorem regsBut_railState (s : State) (f : Ctl → BitVec 13) : RegsBut [0x01001000] s (s.onCtl (fun c => c.railState (f c))) :=
  fun a ha => Ctl.reg_wr_ne s.ctl Reg.mainGood _ a (List.ne_of_not_mem_cons ha)

/-- The drops with one more rail are 0 neither as a whole nor in that rail's half. -/
theorem railDrops_or (d : BitVec 13) (r : Fin 13) : (r.val < 9 → (d ||| BitVec.ofNat 13 (2 ^ r.val)).toNat % 512 ≠ 0)
    ∧ (9 ≤ r.val → 512 ≤ (d ||| BitVec.ofNat 13 (2 ^ r.val)).toNat) := by
  have hbit : (d ||| BitVec.ofNat 13 (2 ^ r.val)).toNat.testBit r.val = true := by
    rw [BitVec.toNat_or, Nat.testBit_or, BitVec.toNat_ofNat, Nat.mod_eq_of_lt (Nat.pow_lt_pow_right (by decide) r.isLt),
      Nat.testBit_two_pow_self, Bool.or_true]
  refine ⟨fun hr h0 => ?_, fun hr => le_trans (Nat.pow_le_pow_right (by decide) hr : 2 ^ 9 ≤ 2 ^ r.val) (Nat.ge_two_pow_of_testBit hbit)⟩
  have hlow : ((d ||| BitVec.ofNat 13 (2 ^ r.val)).toNat % 2 ^ 9).testBit r.val = true := by
    rw [Nat.testBit_mod_two_pow, hbit, decide_eq_true hr, Bool.true_and]
  rw [show (d ||| BitVec.ofNat 13 (2 ^ r.val)).toNat % 2 ^ 9 = 0 from h0, Nat.zero_testBit] at hlow
  cases hlow

theorem railOutOfRegulation_completes (r : Fin 13) (s : State) : Completes (.railOutOfRegulation r) s (fun t =>
    (r.val < 9 → t.ctl.rd Reg.mainGood = 0) ∧ (9 ≤ r.val → t.ctl.pwr.auxGood = false) ∧ RegsBut [0x01001000] s t ∧ Keeps s t) := by
  obtain ⟨hmain, haux⟩ := railDrops_or s.ctl.pwr.railDrops r
  refine Completes.of_done rfl ⟨fun hr => ?_, fun hr => decide_eq_false (Nat.not_lt.mpr (haux hr)), regsBut_railState s _, Keeps.onCtl _ _⟩
  refine (s.ctl.mainGood_railState _).trans ?_
  rw [beq_eq_false_iff_ne.mpr (hmain hr), Bool.and_false]
  rfl

theorem railRegulationRestored_completes (r : Fin 13) (s : State) (h : s.ctl.pwr.railDrops = BitVec.ofNat 13 (2 ^ r.val)) :
    Completes (.railRegulationRestored r) s (fun t =>
    t.ctl.pwr.auxGood = true ∧ (s.ctl.pwr.railsUp = true → t.ctl.rd Reg.mainGood = 1) ∧ RegsBut [0x01001000] s t ∧ Keeps s t) := by
  have hclear : s.ctl.pwr.railDrops &&& ~~~ BitVec.ofNat 13 (2 ^ r.val) = 0 := by rw [h]; exact BitVec.and_not_self _
  refine Completes.of_done rfl ⟨?_, fun hup => ?_, regsBut_railState s _, Keeps.onCtl _ _⟩
  · refine (s.ctl.auxGood_railState _).trans ?_
    rw [hclear]
    rfl
  · refine (s.ctl.mainGood_railState _).trans ?_
    rw [hclear, hup]
    rfl

/-! ### Lasers (R33) -/

theorem mem_insertNat (l : List Nat) (k : Nat) : k ∈ insertNat l k := by
  induction l with
  | nil => exact List.mem_singleton_self k
  | cons j t ih =>
    unfold insertNat
    split
    · exact List.mem_cons_self
    · split
      · rename_i h
        exact h ▸ List.mem_cons_self
      · exact List.mem_cons_of_mem j ih

theorem Ctl.elms_fibreLanes (c : Ctl) (e f : Nat) : (c.fibreLanes e f Ctl.laneFail).elms = c.elms :=
  List.foldlRecOn (motive := fun (d : Ctl) => d.elms = c.elms) (List.range 4) _ rfl
    (fun d h m _ => ((congrArg Ctl.elms (d.links_laneFail (16 * e + f) m).same :)).trans h)

theorem laserFail_completes (e : Fin 8) (f : Fin 16) (s : State) : Completes (.laserFail e f) s (fun t =>
    f.val ∈ (t.ctl.elm e.val).failed ∧ (∀ d : Fin 8, d ≠ e → t.ctl.elm d.val = s.ctl.elm d.val) ∧ Keeps s t) := by
  have helm : ∀ i, ((s.ctl.putElm e.val { s.ctl.elm e.val with failed := insertNat (s.ctl.elm e.val).failed f.val }).fibreLanes e.val f.val
      Ctl.laneFail).elm i = (s.ctl.putElm e.val { s.ctl.elm e.val with failed := insertNat (s.ctl.elm e.val).failed f.val }).elm i :=
    fun i => congrArg (fun t : Tab Elm => t.get i Elm.init) (Ctl.elms_fibreLanes _ _ _)
  refine Completes.of_done rfl ⟨?_, fun d hd => (helm d.val).trans (Ctl.elm_putElm_ne _ _ _ _ (Fin.val_ne_of_ne hd)), Keeps.onCtl _ _⟩
  exact (congrArg Elm.failed ((helm e.val).trans (Ctl.elm_putElm _ _ _))) ▸ mem_insertNat _ _

theorem laserSwitch_completes (e : Fin 8) (f : Fin 16) (s : State) (hf : f.val ∈ (s.ctl.elm e.val).failed)
    (hs : (s.ctl.elm e.val).spares < 2) : Completes (.laserSwitch e f) s (fun t =>
    f.val ∉ (t.ctl.elm e.val).failed ∧ (t.ctl.elm e.val).spares = (s.ctl.elm e.val).spares + 1 ∧ Keeps s t) := by
  have hcond : ((s.ctl.elm e.val).failed.contains f.val && decide ((s.ctl.elm e.val).spares < 2)) = true := by
    rw [List.contains_iff_mem.mpr hf, decide_eq_true hs]; rfl
  have helm : ∀ (x : Elm) (r : Report), ((s.ctl.putElm e.val x).report r).elm e.val = x := fun x r =>
    ((congrArg (fun c : Ctl => c.elm e.val) (Ctl.logs_report (s.ctl.putElm e.val x) r).same :)).trans (Ctl.elm_putElm _ _ _)
  refine Completes.onCtl rfl (if_pos hcond) ⟨?_, ?_, rfl, rfl⟩
  · show f.val ∉ (Ctl.elm _ _).failed
    rw [helm]
    simp [removeNat]
  · show (Ctl.elm _ _).spares = _
    rw [helm]

/-! ### The alert and cause registers (R56, R502) -/

/-- One latched bit, written 1, clears unless its cause holds (R502). -/
def Ctl.clearAlert (v : Word) (c : Ctl) (i : Nat) : Ctl :=
  if bitOf v.toNat i && !c.alertHeld i then c.wr (Reg.alertPend i) 0 else c

theorem Ctl.writeAlertPend_eq (c : Ctl) (v : Word) : c.writeAlertPend v = [0, 1, 2, 3, 4, 5, 11].foldl (Ctl.clearAlert v) c := rfl

/-- Nothing but GLB_ALERT_PEND moves, so no cause does; and of that register no bit that is written 0. -/
structure Ctl.ClearsOnly (v : Word) (c d : Ctl) : Prop where
  same : d = { c with regs := d.regs }
  regs : ∀ a, a ≠ 0x100 → d.reg a = c.reg a
  held : ∀ i, d.alertHeld i = c.alertHeld i
  kept : ∀ i, i < 12 → bitOf v.toNat i = false → d.rd (Reg.alertPend i) = c.rd (Reg.alertPend i)

theorem Ctl.ClearsOnly.refl (v : Word) (c : Ctl) : c.ClearsOnly v c := ⟨rfl, fun _ _ => rfl, fun _ => rfl, fun _ _ _ => rfl⟩

theorem Ctl.ClearsOnly.trans {v : Word} {c d e : Ctl} (h : c.ClearsOnly v d) (k : d.ClearsOnly v e) : c.ClearsOnly v e :=
  ⟨k.same.trans (congrArg (fun x : Ctl => { x with regs := e.regs }) h.same :), fun a ha => (k.regs a ha).trans (h.regs a ha),
    fun i => (k.held i).trans (h.held i), fun i hi hv => (k.kept i hi hv).trans (h.kept i hi hv)⟩

/-- Whether a cause holds depends on the power record and the sensors alone. -/
theorem Ctl.alertHeld_congr {c d : Ctl} (hp : d.pwr = c.pwr) (hr : ∀ a, a ≠ 0x100 → d.reg a = c.reg a) (i : Nat) :
    d.alertHeld i = c.alertHeld i := by
  have ht : ∀ t, d.rd (Reg.snsTemp t) = c.rd (Reg.snsTemp t) :=
    fun t => Ctl.rd_congr (hr _ (by simp only [Reg.snsTemp]; omega))
  simp only [Ctl.alertHeld, hp, ht]

theorem Ctl.clearsOnly_clearAlert (v : Word) (c : Ctl) {j : Nat} (hj : j < 12) : c.ClearsOnly v (c.clearAlert v j) := by
  unfold Ctl.clearAlert
  split
  · rename_i hset
    have hregs : ∀ a, a ≠ 0x100 → (c.wr (Reg.alertPend j) 0).reg a = c.reg a := fun a ha => Ctl.reg_wr_ne c _ 0 a ha
    refine ⟨rfl, hregs, Ctl.alertHeld_congr rfl hregs, fun i hi hv => Ctl.rd_wr_apart c _ _ 0 ?_ ?_⟩
    · simp only [Reg.alertPend]; omega
    · have hij : i ≠ j := by rintro rfl; simp [hv] at hset
      simp only [Reg.alertPend]; omega
  · exact Ctl.ClearsOnly.refl v c

/-- A bit that is 0 stays 0. -/
theorem Ctl.clearAlert_zero (v : Word) {c : Ctl} {i j : Nat} (hi : i < 12) (hj : j < 12) (h : c.rd (Reg.alertPend i) = 0) :
    (c.clearAlert v j).rd (Reg.alertPend i) = 0 := by
  unfold Ctl.clearAlert
  split
  · by_cases hij : i = j
    · subst hij
      exact Ctl.rd_wr_fits c _ 0 (by simp only [Reg.alertPend]; omega) (by simp only [Reg.alertPend]; decide)
    · exact (Ctl.rd_wr_apart c _ _ 0 (by simp only [Reg.alertPend]; omega) (by simp only [Reg.alertPend]; omega)).trans h
  · exact h

theorem Ctl.clearAlert_clears {v : Word} {c : Ctl} {i : Nat} (hi : i < 12) (hv : bitOf v.toNat i = true) (hh : c.alertHeld i = false) :
    (c.clearAlert v i).rd (Reg.alertPend i) = 0 := by
  simp only [Ctl.clearAlert, hv, hh, Bool.not_false, Bool.and_self, if_true]
  exact Ctl.rd_wr_fits c _ 0 (by simp only [Reg.alertPend]; omega) (by simp only [Reg.alertPend]; decide)

theorem Ctl.clearAlerts_only (v : Word) (c : Ctl) (l : List Nat) (hl : ∀ j ∈ l, j < 12) : c.ClearsOnly v (l.foldl (Ctl.clearAlert v) c) :=
  List.foldlRecOn (motive := fun d => c.ClearsOnly v d) l _ (Ctl.ClearsOnly.refl v c)
    (fun d h j hj => h.trans (d.clearsOnly_clearAlert v (hl j hj)))

/-- Clearing a list of bits clears each that is written 1 and whose cause has ended. -/
theorem Ctl.clearAlerts_clear {v : Word} {i : Nat} (hi : i < 12) (hv : bitOf v.toNat i = true) (l : List Nat) (hl : ∀ j ∈ l, j < 12)
    (c : Ctl) (hh : c.alertHeld i = false) (h : i ∈ l ∨ c.rd (Reg.alertPend i) = 0) :
    (l.foldl (Ctl.clearAlert v) c).rd (Reg.alertPend i) = 0 := by
  induction l generalizing c with
  | nil => exact h.resolve_left (List.not_mem_nil)
  | cons j t ih =>
    have hj := hl j List.mem_cons_self
    refine ih (fun k hk => hl k (List.mem_cons_of_mem j hk)) (c.clearAlert v j)
      (((c.clearsOnly_clearAlert v hj).held i).trans hh) ?_
    rcases h with h | h
    · rcases List.mem_cons.mp h with rfl | h
      · exact .inr (Ctl.clearAlert_clears hi hv hh)
      · exact .inl h
    · exact .inr (Ctl.clearAlert_zero v hi hj h)

theorem glbAlertPendWrite_completes (v : Word) (s : State) : Completes (.glbAlertPendWrite v) s (fun t =>
    (∀ i ∈ [0, 1, 2, 3, 4, 5, 11], bitOf v.toNat i = true → s.ctl.alertHeld i = false → t.ctl.rd (Reg.alertPend i) = 0)
    ∧ (∀ i ∈ [0, 1, 2, 3, 4, 5, 11], bitOf v.toNat i = false → t.ctl.rd (Reg.alertPend i) = s.ctl.rd (Reg.alertPend i))
    ∧ OnlyRegs [0x100] s t) := by
  have hlt : ∀ i ∈ [0, 1, 2, 3, 4, 5, 11], i < 12 := by decide
  have honly := Ctl.clearAlerts_only v s.ctl _ hlt
  exact Completes.onCtl rfl (s.ctl.writeAlertPend_eq v)
    ⟨fun i hi hv hh => Ctl.clearAlerts_clear (hlt i hi) hv _ hlt s.ctl hh (.inl hi), fun i hi hv => honly.kept i (hlt i hi) hv,
      congrArg (fun c : Ctl => { s with ctl := c }) honly.same, fun a ha => honly.regs a (List.ne_of_not_mem_cons ha)⟩

/-- A command that stores one register changes that register and nothing else. -/
theorem onlyRegs_putReg (s : State) (a : Nat) (v : Word) : OnlyRegs [a] s { s with ctl := s.ctl.putReg a v } :=
  ⟨rfl, fun b hb => Ctl.reg_putReg_ne s.ctl a b v (List.ne_of_not_mem_cons hb)⟩

/-- Settles O2: each clause is the command's own lemma. It rests on log entries 19 and 96, as the statement says. -/
theorem feedsLasersAlerts : Obligations.FeedsLasersAlerts := by
  unfold Obligations.FeedsLasersAlerts
  refine ⟨feedGood_completes, feedLost_completes, railOutOfRegulation_completes, railRegulationRestored_completes,
    laserFail_completes, laserSwitch_completes, glbAlertPendWrite_completes, fun v s => ?_, fun v s => ?_⟩
  · exact Completes.of_done rfl ⟨Ctl.reg_putReg_same _ _ _, onlyRegs_putReg s _ _⟩
  · exact Completes.of_done rfl ⟨Ctl.reg_putReg_same _ _ _, onlyRegs_putReg s _ _⟩

end Sys2Proof.Machine

namespace Sys2Proof.Machine

/-! ### GLB_STATE and PWR_STATUS as power-up moves them (Tables 2.5, 20.4) -/

theorem Ctl.setPwr_glb (c : Ctl) (p : Pwr) (st step : Nat) : (c.setPwr p).glb st step = (c.glb st step).setPwr p := rfl

theorem Ctl.glbState_glb (c : Ctl) {st : Nat} (step : Nat) (h : st < 8) : (c.glb st step).rd Reg.glbState = st := by
  unfold Ctl.glb
  rw [Ctl.rd_wr_apart _ _ _ _ (by decide) (by decide), Ctl.rd_wr_fits _ _ _ (by decide) h]

theorem Ctl.glbStep_glb (c : Ctl) (st : Nat) {step : Nat} (h : step < 16) : (c.glb st step).rd Reg.glbStep = step :=
  Ctl.rd_wr_fits _ _ _ (by decide) h

theorem Ctl.reg_glb (c : Ctl) (st step a : Nat) (h : a ≠ 0x28) : (c.glb st step).reg a = c.reg a :=
  (Ctl.reg_wr_ne _ Reg.glbStep step a h).trans (Ctl.reg_wr_ne c Reg.glbState st a h)

theorem Ctl.units_glb (c : Ctl) (st step : Nat) : (c.glb st step).units = c.units := by
  unfold Ctl.glb
  rw [Ctl.wr_units, Ctl.wr_units]

theorem Ctl.pwr_glb (c : Ctl) (st step : Nat) : (c.glb st step).pwr = c.pwr := by
  unfold Ctl.glb
  rw [Ctl.wr_pwr, Ctl.wr_pwr]

/-! ### Steps 3 to 5: PWR_EN and the rails (R38, R40, R42) -/

/-- What asserting PWR_EN does where Table 2.5 step 3 allows it. -/
theorem Ctl.assertPwrEn_on {c : Ctl} (hstate : c.rd Reg.glbState = 0) (hcores : c.rd Reg.coresUp ≠ 0) (hreset : c.pwr.resetLow = false)
    (htrip : c.rd Reg.thermTrip = 0) (hcore : c.pwr.coreLost = false) : c.assertPwrEn
      = ((c.setPwr { c.pwr with pwrEn := true }).wr Reg.glbWaitOn 0).glb 1 (if 4 ≤ c.rd Reg.feedOk then 4 else 3) :=
  if_pos (by simp [hstate, hcores, hreset, htrip, hcore])

/-- The power record and GLB_STATE after PWR_EN was asserted. -/
theorem Ctl.assertPwrEn_spec {c : Ctl} (hstate : c.rd Reg.glbState = 0) (hcores : c.rd Reg.coresUp ≠ 0) (hreset : c.pwr.resetLow = false)
    (htrip : c.rd Reg.thermTrip = 0) (hcore : c.pwr.coreLost = false) :
    c.assertPwrEn.pwr.pwrEn = true ∧ c.assertPwrEn.rd Reg.glbState = 1 ∧ c.assertPwrEn.rd Reg.glbWaitOn = 0
    ∧ c.assertPwrEn.rd Reg.glbStep = (if 4 ≤ c.rd Reg.feedOk then 4 else 3) ∧ ∀ a, a ≠ 0x28 → c.assertPwrEn.reg a = c.reg a := by
  rw [Ctl.assertPwrEn_on hstate hcores hreset htrip hcore, Ctl.setPwr_wr, Ctl.setPwr_glb, Ctl.setPwr_pwr, Ctl.setPwr_rd,
    Ctl.setPwr_rd, Ctl.setPwr_rd]
  refine ⟨rfl, Ctl.glbState_glb _ _ (by decide), ?_, Ctl.glbStep_glb _ _ (by split <;> decide), fun a ha => ?_⟩
  · exact (Ctl.rd_glb _ _ _ _ (by decide) (by decide)).trans (Ctl.rd_wr_fits _ _ _ (by decide) (by decide))
  · rw [Ctl.setPwr_reg]
    exact (Ctl.reg_glb _ _ _ a ha).trans (Ctl.reg_wr_ne c Reg.glbWaitOn 0 a ha)

theorem pwrEnAssert_completes (s : State) (hwait : s.ctl.rd Reg.glbWaitOn = 0) (hstate : s.ctl.rd Reg.glbState = 0)
    (hcores : s.ctl.rd Reg.coresUp ≠ 0) (hreset : s.ctl.pwr.resetLow = false) (htrip : s.ctl.rd Reg.thermTrip = 0)
    (hcore : s.ctl.pwr.coreLost = false) : Completes .pwrEnAssert s (fun t =>
    t.ctl.pwr.pwrEn = true ∧ t.ctl.rd Reg.glbState = 1 ∧ t.ctl.rd Reg.glbStep = (if 4 ≤ s.ctl.rd Reg.feedOk then 4 else 3)
    ∧ RegsBut [0x28] s t ∧ Keeps s t) := by
  obtain ⟨hen, hst, -, hstep, hregs⟩ := Ctl.assertPwrEn_spec hstate hcores hreset htrip hcore
  exact Completes.onCtl rfl (if_pos hwait) ⟨hen, hst, hstep, fun a ha => hregs a (List.ne_of_not_mem_cons ha), rfl, rfl⟩

/-- The MAIN rails are up: MAIN_GOOD, step 5, the drops of the MAIN rails forgotten. -/
def Ctl.railsOn (c : Ctl) : Ctl :=
  ((c.setPwr { c.pwr with railsUp := true, railDrops := c.pwr.railDrops &&& 0x1E00 }).glb 1 5).wr Reg.mainGood 1

theorem Ctl.railSequence_on {c : Ctl} (hstate : c.rd Reg.glbState = 1) (hlo : 3 ≤ c.rd Reg.glbStep) (hhi : c.rd Reg.glbStep ≤ 5)
    (hen : c.pwr.pwrEn = true) (hfeed : 4 ≤ c.rd Reg.feedOk) : c.railSequence
      = if c.pwr.fabLost then c.railsOn else (c.railsOn.wr Reg.oeLock 0xFFFF).wr Reg.fabRefOk 1 :=
  if_pos (by simp [hstate, hlo, hhi, hen, hfeed])

theorem Ctl.railsOn_spec (c : Ctl) : c.railsOn.rd Reg.mainGood = 1 ∧ c.railsOn.rd Reg.glbStep = 5 ∧ c.railsOn.pwr.railsUp = true := by
  unfold Ctl.railsOn
  rw [Ctl.setPwr_glb, Ctl.setPwr_wr, Ctl.setPwr_rd, Ctl.setPwr_rd, Ctl.setPwr_pwr]
  exact ⟨Ctl.rd_wr_fits _ _ _ (by decide) (by decide),
    (Ctl.rd_wr_ne _ Reg.mainGood Reg.glbStep 1 (by decide)).trans (Ctl.glbStep_glb _ _ (by decide)), rfl⟩

theorem railSequence_completes (s : State) (hstate : s.ctl.rd Reg.glbState = 1) (hlo : 3 ≤ s.ctl.rd Reg.glbStep)
    (hhi : s.ctl.rd Reg.glbStep ≤ 5) (hen : s.ctl.pwr.pwrEn = true) (hfeed : 4 ≤ s.ctl.rd Reg.feedOk) :
    Completes .railSequence s (fun t =>
    t.ctl.rd Reg.mainGood = 1 ∧ t.ctl.rd Reg.glbStep = 5 ∧ t.ctl.pwr.railsUp = true
    ∧ (s.ctl.pwr.fabLost = false → t.ctl.rd Reg.oeLock = 0xFFFF) ∧ Keeps s t) := by
  obtain ⟨hgood, hstep, hup⟩ := s.ctl.railsOn_spec
  refine Completes.onCtl rfl (Ctl.railSequence_on hstate hlo hhi hen hfeed) ?_
  cases hfab : s.ctl.pwr.fabLost
  · refine ⟨?_, ?_, ?_, fun _ => ?_, rfl, rfl⟩
    · exact ((Ctl.rd_wr_ne _ Reg.fabRefOk _ _ (by decide)).trans (Ctl.rd_wr_ne _ Reg.oeLock _ _ (by decide))).trans hgood
    · exact ((Ctl.rd_wr_ne _ Reg.fabRefOk _ _ (by decide)).trans (Ctl.rd_wr_ne _ Reg.oeLock _ _ (by decide))).trans hstep
    · exact (congrArg Pwr.railsUp ((Ctl.wr_pwr _ Reg.fabRefOk _).trans (Ctl.wr_pwr _ Reg.oeLock _))).trans hup
    · exact (Ctl.rd_wr_apart _ Reg.fabRefOk Reg.oeLock _ (by decide) (by decide)).trans (Ctl.rd_wr_fits _ _ _ (by decide) (by decide))
  · exact ⟨hgood, hstep, hup, fun h => absurd h (by decide), rfl, rfl⟩

/-- The registers when a rail has failed: MAIN off for RAIL_FAIL, waiting for POWER_ON. -/
def Ctl.railFailed (c : Ctl) : Ctl := ((c.offStatus 0 5).cause 8).wr Reg.glbWaitOn 1

theorem Ctl.railFail_on {c : Ctl} (rail : Nat) (hstate : c.rd Reg.glbState = 1) (hstep : c.rd Reg.glbStep ≤ 5) (hup : c.pwr.railsUp = false) :
    c.railFail rail
      = ((c.railFailed.setPwr { c.railFailed.pwr with pwrEn := false }).report (powerEvent 2 rail)).alert 2 :=
  if_pos (by simp [hstate, hstep, hup])

theorem Ctl.err_offStatus (c : Ctl) (st off : Nat) : (c.offStatus st off).err = c.err := by
  rw [Ctl.offStatus_eq, Ctl.setPwr_err]
  unfold Ctl.offRegs Ctl.glb
  repeat rw [Ctl.wr_err]

theorem Ctl.err_railFailed (c : Ctl) : c.railFailed.err = c.err := by
  unfold Ctl.railFailed Ctl.cause
  rw [Ctl.wr_err, Ctl.wr_err, Ctl.err_offStatus]

theorem Ctl.railFailed_spec (c : Ctl) :
    c.railFailed.rd Reg.glbState = 0 ∧ c.railFailed.rd Reg.glbWaitOn = 1 ∧ c.railFailed.rd (Reg.resetCause 8) = 1 := by
  unfold Ctl.railFailed Ctl.cause
  refine ⟨?_, Ctl.rd_wr_fits _ _ _ (by decide) (by decide), ?_⟩
  · exact ((Ctl.rd_wr_apart _ Reg.glbWaitOn _ _ (by decide) (by decide)).trans (Ctl.rd_wr_ne _ (Reg.resetCause 8) _ _ (by decide))).trans
      (Ctl.glbState_offStatus c 5 (by decide))
  · exact (Ctl.rd_wr_ne _ Reg.glbWaitOn _ _ (by decide)).trans (Ctl.rd_wr_fits _ _ _ (by decide) (by decide))

/-- The device after a rail has failed during sequencing. -/
theorem Ctl.railFail_spec {c : Ctl} (rail : Nat) (hstate : c.rd Reg.glbState = 1) (hstep : c.rd Reg.glbStep ≤ 5)
    (hup : c.pwr.railsUp = false) (hroom : c.err.queue.length < 256) : ∃ p e, p.pwrEn = false
      ∧ (∃ b, { powerEvent 2 rail with first := b } ∈ e.queue) ∧ c.railFail rail = ((c.railFailed.setPwr p).setErr e).alert 2 := by
  have hlen : (c.railFailed.setPwr { c.railFailed.pwr with pwrEn := false }).err.queue.length < 256 := by
    rw [Ctl.setPwr_err, Ctl.err_railFailed]
    exact hroom
  obtain ⟨e, he, hq⟩ := Ctl.report_waits hlen (r := powerEvent 2 rail) (show scoredBlock 0x13 = false by decide)
  refine ⟨{ c.railFailed.pwr with pwrEn := false }, e, rfl, hq, ?_⟩
  rw [← he]
  exact Ctl.railFail_on rail hstate hstep hup

theorem railFail_completes (rail : Fin 13) (s : State) (hstate : s.ctl.rd Reg.glbState = 1) (hstep : s.ctl.rd Reg.glbStep ≤ 5)
    (hup : s.ctl.pwr.railsUp = false) (hroom : LogRoom s) : Completes (.railFail rail) s (fun t =>
    t.ctl.pwr.pwrEn = false ∧ t.ctl.rd Reg.glbState = 0 ∧ t.ctl.rd Reg.glbWaitOn = 1 ∧ t.ctl.rd (Reg.resetCause 8) = 1
    ∧ Logged t (powerEvent 2 rail.val) ∧ Keeps s t) := by
  obtain ⟨hst, hwait, hcause⟩ := s.ctl.railFailed_spec
  obtain ⟨p, e, hp, hq, hc⟩ := Ctl.railFail_spec rail.val hstate hstep hup (Nat.lt_succ_of_lt hroom)
  have hrd : ∀ f : Fld, f.addr ≠ (Reg.alertPend 2).addr →
      (((s.ctl.railFailed.setPwr p).setErr e).alert 2).rd f = s.ctl.railFailed.rd f := by
    intro f hf
    unfold Ctl.alert
    rw [Ctl.rd_wr_ne _ _ _ _ hf, Ctl.setErr_rd, Ctl.setPwr_rd]
  exact Completes.onCtl rfl hc ⟨hp, (hrd _ (by decide)).trans hst, (hrd _ (by decide)).trans hwait, (hrd _ (by decide)).trans hcause,
    hq, rfl, rfl⟩

/-! ### Steps 6 and 7: units that are FAILED stay FAILED while spares take their places (R43, R488) -/

/-- A fold in which one element brings a property about and every step keeps it ends with the property. -/
theorem foldl_establishes {α β : Type} {f : β → α → β} {P : β → Prop} (hkeep : ∀ b a, P b → P (f b a)) {x : α}
    (hx : ∀ b, P (f b x)) (l : List α) (hl : x ∈ l) (b : β) : P (l.foldl f b) := by
  have hstay : ∀ (l : List α) (b : β), P b → P (l.foldl f b) :=
    fun l b hb => List.foldlRecOn (motive := P) l f hb (fun b hb a _ => hkeep b a hb)
  induction l generalizing b with
  | nil => cases hl
  | cons a t ih =>
    rcases List.mem_cons.mp hl with rfl | h
    · exact hstay t _ (hx b)
    · exact ih h _

/-- Every unit that is FAILED in `c` is FAILED in `d`. -/
def Ctl.KeepsFailed (c d : Ctl) : Prop := ∀ k n, (c.unit k n).st = .failed → (d.unit k n).st = .failed

theorem Ctl.KeepsFailed.refl (c : Ctl) : c.KeepsFailed c := fun _ _ h => h
theorem Ctl.KeepsFailed.trans {c d e : Ctl} (h : c.KeepsFailed d) (k : d.KeepsFailed e) : c.KeepsFailed e := fun u n hu => k u n (h u n hu)

theorem Ctl.unit_congr {c d : Ctl} (h : d.units = c.units) (k : UnitKind) (n : Nat) : d.unit k n = c.unit k n := by
  simp only [Ctl.unit, h]

theorem Ctl.keepsFailed_of_units {c d : Ctl} (h : d.units = c.units) : c.KeepsFailed d := fun k n hu => by rwa [Ctl.unit_congr h k n]

/-- Setting one unit leaves a unit as it was, or makes it the new record. -/
theorem Ctl.unit_putUnit_cases (c : Ctl) (k : UnitKind) (n : Nat) (u : UnitRec) (j : UnitKind) (m : Nat) :
    (c.putUnit k n u).unit j m = u ∨ (c.putUnit k n u).unit j m = c.unit j m := by
  by_cases h : unitKey j m = unitKey k n
  · left
    simp only [Ctl.unit, Ctl.putUnit, h, Tab.get_set_same]
  · right
    simp only [Ctl.unit, Ctl.putUnit, Tab.get_set_ne _ _ _ _ _ _ h]

theorem Ctl.unit_failUnit (c : Ctl) (k : UnitKind) (n : Nat) : ((c.failUnit k n).unit k n).st = .failed := by
  simp only [Ctl.failUnit, Ctl.unit, Ctl.putUnit, Tab.get_set_same]

theorem Ctl.keepsFailed_failUnit (c : Ctl) (k : UnitKind) (n : Nat) : c.KeepsFailed (c.failUnit k n) := by
  intro j m hu
  obtain h | h := c.unit_putUnit_cases k n { c.unit k n with st := .failed } j m
  · exact congrArg UnitRec.st h
  · exact (congrArg UnitRec.st h).trans hu

theorem Ctl.units_enqueue (c : Ctl) (r : Report) : (c.enqueue r).units = c.units := by
  by_cases h : c.err.queue.length < 256
  · obtain ⟨e, he, -⟩ := Ctl.enqueue_room h r
    rw [he, Ctl.setErr_units]
  · obtain ⟨e, he, -⟩ := Ctl.enqueue_full h r
    rw [he, Ctl.setErr_units]
    unfold Ctl.coalesce
    rw [Ctl.bumpF_units, Ctl.bumpF_units]

theorem Ctl.keepsFailed_spareIn {c : Ctl} {k : UnitKind} {n : Nat} (h : (c.unit k n).st ≠ .failed) : c.KeepsFailed (c.spareIn k n) :=
  ((c.logs_putUnit k n _ h).trans (Ctl.logs_enqueue _ _)).failed

theorem Ctl.spareOf_spare {c : Ctl} {k : UnitKind} {l : List Nat} {i : Nat} (h : c.spareOf k l = some i) : (c.unit k i).st ≠ .failed := by
  have hs : (c.unit k i).st = .spare := eq_of_beq (List.find?_some h :)
  rw [hs]
  decide

theorem Ctl.keepsFailed_fillCrucible (c : Ctl) : c.KeepsFailed c.fillCrucible := by
  unfold Ctl.fillCrucible
  split
  · split
    · rename_i i hi
      exact Ctl.keepsFailed_spareIn (Ctl.spareOf_spare hi)
    · exact Ctl.KeepsFailed.refl c
  · exact Ctl.KeepsFailed.refl c

theorem Ctl.keepsFailed_fillCupola (c : Ctl) : c.KeepsFailed c.fillCupola := by
  unfold Ctl.fillCupola
  dsimp only
  split
  · split
    · rename_i i hi
      exact Ctl.keepsFailed_spareIn (Ctl.spareOf_spare hi)
    · exact Ctl.KeepsFailed.refl c
  · exact Ctl.KeepsFailed.refl c

/-- One tile of a column in its new role: the first 16 serve, the next is a spare (R370). -/
def Ctl.columnRole (c : Ctl) (t : Nat × Nat) : Ctl :=
  if t.2 < 16 then (if (c.unit .tile t.1).st = .spare then c.spareIn .tile t.1 else c)
  else c.putUnit .tile t.1 { c.unit .tile t.1 with st := .spare }

/-- A tile's new role is not FAILED, and makes no other unit so. -/
theorem Ctl.columnRole_spec (c : Ctl) (t : Nat × Nat) (h : (c.unit .tile t.1).st ≠ .failed) : c.KeepsFailed (c.columnRole t)
    ∧ ∀ j m, (c.unit j m).st ≠ .failed → ((c.columnRole t).unit j m).st ≠ .failed := by
  have hput : ∀ (u : UnitRec), u.st ≠ .failed → ∀ j m, (c.unit j m).st ≠ .failed → ((c.putUnit .tile t.1 u).unit j m).st ≠ .failed := by
    intro u hu j m hj
    obtain he | he := c.unit_putUnit_cases .tile t.1 u j m <;> rw [he]
    · exact hu
    · exact hj
  unfold Ctl.columnRole
  split
  · split
    · refine ⟨Ctl.keepsFailed_spareIn h, fun j m hj => ?_⟩
      unfold Ctl.spareIn
      rw [Ctl.unit_congr (Ctl.units_enqueue _ _)]
      exact hput _ (show UnitState.inService ≠ .failed by decide) j m hj
    · exact ⟨Ctl.KeepsFailed.refl c, fun _ _ h => h⟩
  · exact ⟨(c.logs_putUnit _ _ _ h).failed, hput _ (show UnitState.spare ≠ .failed by decide)⟩

theorem Ctl.buildColumn_eq (c : Ctl) (die col : Nat) : c.buildColumn die col = ((c.columnTiles die col).zipIdx).foldl Ctl.columnRole
    ((List.range 16).foldl (fun (d : Ctl) y => d.putPhys (128 * die + 8 * y + col) ((c.columnTiles die col).getD y absentTile)) c) := rfl

theorem Ctl.columnTiles_serve {c : Ctl} {die col t : Nat} (h : t ∈ c.columnTiles die col) : (c.unit .tile t).st ≠ .failed := by
  intro hf
  have := (List.mem_filter.mp h).2
  rw [hf] at this
  cases this

theorem Ctl.keepsFailed_buildColumn (c : Ctl) (die col : Nat) : c.KeepsFailed (c.buildColumn die col) := by
  have hphys : ((List.range 16).foldl (fun (d : Ctl) y => d.putPhys (128 * die + 8 * y + col)
      ((c.columnTiles die col).getD y absentTile)) c).units = c.units :=
    List.foldlRecOn (motive := fun (d : Ctl) => d.units = c.units) _ _ rfl (fun d h y _ => h)
  rw [Ctl.buildColumn_eq]
  refine (List.foldlRecOn (motive := fun (d : Ctl) => c.KeepsFailed d ∧ ∀ t ∈ c.columnTiles die col, (d.unit .tile t).st ≠ .failed) _ _
    ⟨Ctl.keepsFailed_of_units hphys, fun t ht => ?_⟩ (fun d hd e he => ?_)).1
  · rw [Ctl.unit_congr hphys]
    exact Ctl.columnTiles_serve ht
  · obtain ⟨hkeep, hserve⟩ := hd
    obtain ⟨hrole, hothers⟩ := d.columnRole_spec e (hserve _ (List.fst_mem_of_mem_zipIdx he))
    exact ⟨hkeep.trans hrole, fun t ht => hothers _ _ (hserve t ht)⟩

theorem Ctl.keepsFailed_foldl {α : Type} {f : Ctl → α → Ctl} (h : ∀ (c : Ctl) a, c.KeepsFailed (f c a)) (l : List α) (c : Ctl) :
    c.KeepsFailed (l.foldl f c) :=
  List.foldlRecOn (motive := fun d => c.KeepsFailed d) l f (Ctl.KeepsFailed.refl c) (fun d hd a _ => hd.trans (h d a))

theorem Ctl.keepsFailed_fillSpares (c : Ctl) : c.KeepsFailed c.fillSpares :=
  ((Ctl.keepsFailed_foldl (fun d _ => Ctl.keepsFailed_fillCrucible d) _ c).trans
    (Ctl.keepsFailed_foldl (fun d _ => Ctl.keepsFailed_fillCupola d) _ _)).trans
    (Ctl.keepsFailed_foldl (fun d i => Ctl.keepsFailed_buildColumn d (i / 8) (i % 8)) _ _)

theorem Ctl.units_flaskLess (c : Ctl) (n : Nat) : (c.flaskLess n).units = c.units := by
  unfold Ctl.flaskLess
  dsimp only
  rw [Ctl.wr_units, Ctl.wr_units]

theorem softRepair_completes (s : State) (hstate : s.ctl.rd Reg.glbState = 1) (hstep : s.ctl.rd Reg.glbStep = 5)
    (hgood : s.ctl.rd Reg.mainGood = 1) (hcores : s.ctl.rd Reg.coresUp ≠ 0) : Completes .softRepair s (fun t =>
    t.ctl.rd Reg.glbStep = 6 ∧ (∀ u ∈ s.ctl.flash.map.failed, (t.ctl.unit u.1 u.2).st = .failed) ∧ Keeps s t) := by
  refine Completes.onCtl rfl (if_pos (by simp [hstate, hstep, hgood, hcores])) ⟨Ctl.glbStep_glb _ 1 (by decide), fun u hu => ?_, rfl, rfl⟩
  show ((Ctl.glb _ 1 6).unit u.1 u.2).st = .failed
  rw [Ctl.unit_congr (Ctl.units_glb _ _ _), Ctl.unit_congr (Ctl.units_flaskLess _ _)]
  refine Ctl.keepsFailed_fillSpares _ _ _ (foldl_establishes (P := fun (d : Ctl) => (d.unit u.1 u.2).st = .failed)
    (f := fun (d : Ctl) (v : UnitKind × Nat) => d.failUnit v.1 v.2) (x := u) (fun d x hd => ?_) (fun d => d.unit_failUnit u.1 u.2) _ hu _)
  exact d.keepsFailed_failUnit x.1 x.2 _ _ hd

theorem Ctl.keepsFailed_reduce (c : Ctl) (b u : Nat) : c.KeepsFailed (c.reduce b u) := Ctl.keepsFailed_of_units rfl

theorem Ctl.bootFault_unit (c : Ctl) {k : UnitKind} {n : Nat} (h : n < unitCount k) : c.bootFault (.unitFailed k n)
    = ((c.failUnit k n).report (rep (kindBlock k) 0x02 n)).reduce (kindBlock k) n := if_pos h

theorem Ctl.bootFault_flask (c : Ctl) (n : Nat) : c.bootFault (.flaskCells n) = ((c.flaskLess n).report (rep 0x02 0x02 0)).reduce 0x02 0 := rfl

theorem Ctl.keepsFailed_bootFault (c : Ctl) (x : BootFault) : c.KeepsFailed (c.bootFault x) := by
  cases x with
  | sramRepaired n => exact (c.logs_report (rep 0 2 0)).failed
  | unitFailed k n =>
    by_cases h : n < unitCount k
    · rw [Ctl.bootFault_unit c h]
      exact ((c.keepsFailed_failUnit k n).trans (Ctl.logs_report _ _).failed).trans (Ctl.keepsFailed_reduce _ _ _)
    · rw [show c.bootFault (.unitFailed k n) = c from if_neg h]
      exact Ctl.KeepsFailed.refl c
  | flaskCells n =>
    rw [Ctl.bootFault_flask]
    exact ((Ctl.keepsFailed_of_units (c.units_flaskLess n)).trans (Ctl.logs_report _ _).failed).trans (Ctl.keepsFailed_reduce _ _ _)
  | cacheLines n => exact Ctl.KeepsFailed.trans (c.logs_report (rep 4 2 0)).failed (Ctl.keepsFailed_reduce _ 4 0)
  | moduleFault => exact ((c.logs_report (rep 0 2 0)).trans (Ctl.logs_moduleReplace _)).failed

theorem Ctl.bootFault_fails (c : Ctl) {k : UnitKind} {n : Nat} (h : n < unitCount k) :
    ((c.bootFault (.unitFailed k n)).unit k n).st = .failed := by
  rw [Ctl.bootFault_unit c h]
  exact Ctl.keepsFailed_reduce _ _ _ k n ((Ctl.logs_report _ _).failed k n (c.unit_failUnit k n))

theorem unitCount_eq (k : UnitKind) : unitCount k = unitsOf k := by cases k <;> rfl

theorem quickBootCheck_completes (found : List BootFault) (s : State) (hstate : s.ctl.rd Reg.glbState = 1)
    (hstep : s.ctl.rd Reg.glbStep = 6) : Completes (.quickBootCheck found) s (fun t =>
    t.ctl.rd Reg.glbStep = 7 ∧ (∀ k n, BootFault.unitFailed k n ∈ found → n < unitsOf k → (t.ctl.unit k n).st = .failed) ∧ Keeps s t) := by
  refine Completes.onCtl rfl (if_pos (by simp [hstate, hstep])) ⟨Ctl.glbStep_glb _ 1 (by decide), fun k n hk hn => ?_, rfl, rfl⟩
  show ((Ctl.glb _ 1 7).unit k n).st = .failed
  rw [Ctl.unit_congr (Ctl.units_glb _ _ _)]
  exact Ctl.keepsFailed_fillSpares _ _ _ (foldl_establishes (P := fun (d : Ctl) => (d.unit k n).st = .failed)
    (fun d x hd => d.keepsFailed_bootFault x _ _ hd) (fun d => d.bootFault_fails (by rwa [unitCount_eq])) _ hk _)

/-! ### Steps 8 to 10: memory and DATA_READY (R43, R429) -/

/-- Step 8, and the unit's number among those that have trained. -/
def Ctl.atStep8 (c : Ctl) (unit : Nat) : Ctl :=
  let d := c.glb 1 (max 8 (c.rd Reg.glbStep))
  d.setPwr { d.pwr with trained := insertNat d.pwr.trained unit }

theorem Ctl.memoryTrained_hbm {c : Ctl} (x : Fin 8) (ok : Bool) (slots : Nat) (hstate : c.rd Reg.glbState = 1) (hstep : 7 ≤ c.rd Reg.glbStep) :
    c.memoryTrained (.hbm x) ok slots = if ok then ((c.atStep8 x.val).wr (Reg.hbmState x.val) 1).placeCopies
      else (((c.atStep8 x.val).wr (Reg.hbmState x.val) 0).report (rep 0x06 0x06 x.val)).reduce 0x06 x.val :=
  if_pos (by simp [hstate, hstep])

theorem Ctl.memoryTrained_ddr {c : Ctl} (x : Fin 12) (ok : Bool) (slots : Nat) (hstate : c.rd Reg.glbState = 1) (hstep : 7 ≤ c.rd Reg.glbStep) :
    c.memoryTrained (.ddr x) ok slots
      = if ok then ((c.atStep8 (16 + x.val)).wr (Reg.ddrState x.val) 1).wr (Reg.ddrSlots x.val) slots
      else (((c.atStep8 (16 + x.val)).wr (Reg.ddrState x.val) 0).report (rep 0x07 0x06 x.val)).reduce 0x07 x.val :=
  if_pos (by simp [hstate, hstep])

/-- A unit taken out is listed among the reduced resources; the registers below chapter 18 keep what was written before its report. -/
theorem Ctl.reduce_spec (c : Ctl) (r : Report) (b u : Nat) : reducedCode b u ∈ ((c.report r).reduce b u).pwr.reduced
    ∧ ∀ f : Fld, f.addr < 0x0F000000 → ((c.report r).reduce b u).rd f = c.rd f :=
  ⟨mem_insertNat _ _, fun f hf => (c.logs_report r).rd f hf⟩

theorem memoryTrained_hbm_completes (x : Fin 8) (ok : Bool) (slots : Nat) (s : State) (hstate : s.ctl.rd Reg.glbState = 1)
    (hstep : 7 ≤ s.ctl.rd Reg.glbStep) : Completes (.memoryTrained (.hbm x) ok slots) s (fun t =>
    (t.ctl.rd (Reg.hbmState x.val) = b2n ok ∧ (ok = false → reducedCode 0x06 x.val ∈ t.ctl.pwr.reduced)) ∧ Keeps s t) := by
  have hstored : ∀ (c : Ctl) v, v < 2 → (c.wr (Reg.hbmState x.val) v).rd (Reg.hbmState x.val) = v :=
    fun c v hv => Ctl.rd_wr_fits c _ v (show 0 + 2 ≤ 64 by decide) (show v < 2 ^ 2 by omega)
  have haddr : (Reg.hbmState x.val).addr < 0x0F000000 := by simp only [Reg.hbmState]; omega
  refine Completes.onCtl rfl (Ctl.memoryTrained_hbm x ok slots hstate hstep) ?_
  cases ok
  · obtain ⟨hin, hrd⟩ := ((s.ctl.atStep8 x.val).wr (Reg.hbmState x.val) 0).reduce_spec (rep 0x06 0x06 x.val) 0x06 x.val
    exact ⟨⟨(hrd _ haddr).trans (hstored _ 0 (by decide)), fun _ => hin⟩, rfl, rfl⟩
  · exact ⟨⟨hstored _ 1 (by decide), fun h => absurd h (by decide)⟩, rfl, rfl⟩

theorem memoryTrained_ddr_completes (x : Fin 12) (ok : Bool) (slots : Nat) (s : State) (hstate : s.ctl.rd Reg.glbState = 1)
    (hstep : 7 ≤ s.ctl.rd Reg.glbStep) (hslots : slots < 2 ^ 22) : Completes (.memoryTrained (.ddr x) ok slots) s (fun t =>
    (t.ctl.rd (Reg.ddrState x.val) = b2n ok ∧ (ok = true → t.ctl.rd (Reg.ddrSlots x.val) = slots)
      ∧ (ok = false → reducedCode 0x07 x.val ∈ t.ctl.pwr.reduced)) ∧ Keeps s t) := by
  have hstored : ∀ (c : Ctl) v, v < 2 → (c.wr (Reg.ddrState x.val) v).rd (Reg.ddrState x.val) = v :=
    fun c v hv => Ctl.rd_wr_fits c _ v (show 0 + 2 ≤ 64 by decide) (show v < 2 ^ 2 by omega)
  have haddr : (Reg.ddrState x.val).addr < 0x0F000000 := by simp only [Reg.ddrState]; omega
  refine Completes.onCtl rfl (Ctl.memoryTrained_ddr x ok slots hstate hstep) ?_
  cases ok
  · obtain ⟨hin, hrd⟩ := ((s.ctl.atStep8 (16 + x.val)).wr (Reg.ddrState x.val) 0).reduce_spec (rep 0x07 0x06 x.val) 0x07 x.val
    exact ⟨⟨(hrd _ haddr).trans (hstored _ 0 (by decide)), fun h => absurd h (by decide), fun _ => hin⟩, rfl, rfl⟩
  · refine ⟨⟨(Ctl.rd_wr_apart _ (Reg.ddrSlots x.val) _ _ (show 8 + 22 ≤ 64 by decide) (.inr (.inl (show 0 + 2 ≤ 8 by decide)))).trans
      (hstored _ 1 (by decide)), fun _ => ?_, fun h => absurd h (by decide)⟩, rfl, rfl⟩
    exact Ctl.rd_wr_fits _ (Reg.ddrSlots x.val) _ (show 8 + 22 ≤ 64 by decide) hslots

/-- The registers at DATA_READY. -/
def Ctl.readyRegs (c : Ctl) : Ctl :=
  let d := (c.glb 2 0).wr Reg.dataReady 1
  d.wr Reg.glbReduced (b2n (!d.pwr.reduced.isEmpty))

theorem Ctl.dataReadyNow_on {c : Ctl} (hstate : c.rd Reg.glbState = 1) (hstep : 8 ≤ c.rd Reg.glbStep) :
    c.dataReadyNow = c.readyRegs.event evDataReady c.readyRegs.pwr.reduced :=
  if_pos (by simp [hstate, hstep])

theorem Ctl.readyRegs_spec (c : Ctl) : c.readyRegs.rd Reg.dataReady = 1 ∧ c.readyRegs.rd Reg.glbState = 2
    ∧ c.readyRegs.rd Reg.glbReduced = b2n (!c.pwr.reduced.isEmpty) ∧ c.readyRegs.evseq = c.evseq := by
  unfold Ctl.readyRegs
  dsimp only
  rw [Ctl.wr_pwr, Ctl.pwr_glb]
  refine ⟨?_, ?_, Ctl.rd_wr_fits _ _ _ (by decide) (b2n_lt _), ?_⟩
  · exact (Ctl.rd_wr_ne _ Reg.glbReduced _ _ (by decide)).trans (Ctl.rd_wr_fits _ _ _ (by decide) (by decide))
  · exact ((Ctl.rd_wr_apart _ Reg.glbReduced _ _ (by decide) (by decide)).trans (Ctl.rd_wr_ne _ Reg.dataReady _ _ (by decide))).trans
      (Ctl.glbState_glb _ _ (by decide))
  · unfold Ctl.glb
    repeat rw [Ctl.wr_evseq]

theorem dataReady_completes (s : State) (hstate : s.ctl.rd Reg.glbState = 1) (hstep : 8 ≤ s.ctl.rd Reg.glbStep) :
    Completes .dataReady s (fun t =>
    t.ctl.rd Reg.dataReady = 1 ∧ t.ctl.rd Reg.glbState = 2 ∧ t.ctl.rd Reg.glbReduced = b2n (!s.ctl.pwr.reduced.isEmpty)
    ∧ s.ctl.evseq < t.ctl.evseq ∧ Keeps s t) := by
  obtain ⟨hready, hst, hred, hseq⟩ := s.ctl.readyRegs_spec
  have hpost := s.ctl.readyRegs.posts_event evDataReady s.ctl.readyRegs.pwr.reduced
  exact Completes.onCtl rfl (Ctl.dataReadyNow_on hstate hstep) ⟨(hpost.rd _).trans hready, (hpost.rd _).trans hst,
    (hpost.rd _).trans hred, hseq ▸ Ctl.evseq_lt_event _ _ _, rfl, rfl⟩

/-- Settles O3, step by step. It rests on log entries 20, 101, 103 and 130, as the statement says. -/
theorem powerUp : Obligations.PowerUp := by
  unfold Obligations.PowerUp
  refine ⟨pwrEnAssert_completes, railSequence_completes, railFail_completes,
    fun s hstate hstep hgood hcores _ => softRepair_completes s hstate hstep hgood hcores, quickBootCheck_completes,
    fun u ok slots s hstate hstep hslots => ?_, dataReady_completes⟩
  cases u with
  | hbm x => exact memoryTrained_hbm_completes x ok slots s hstate hstep
  | ddr x => exact memoryTrained_ddr_completes x ok slots s hstate hstep hslots

end Sys2Proof.Machine

namespace Sys2Proof.Machine

/-! ### Writes to registers alone -/

/-- `d` is `c` after writes to registers. -/
structure Ctl.Writes (c d : Ctl) : Prop where
  same : d = { c with regs := d.regs }

theorem Ctl.Writes.refl (c : Ctl) : c.Writes c := ⟨rfl⟩
theorem Ctl.writes_wr (c : Ctl) (f : Fld) (v : Nat) : c.Writes (c.wr f v) := ⟨rfl⟩
theorem Ctl.Writes.trans {c d e : Ctl} (h : c.Writes d) (k : d.Writes e) : c.Writes e :=
  ⟨k.same.trans (congrArg (fun x : Ctl => { x with regs := e.regs }) h.same :)⟩
theorem Ctl.Writes.wr {c d : Ctl} (h : c.Writes d) (f : Fld) (v : Nat) : c.Writes (d.wr f v) := h.trans (d.writes_wr f v)

theorem Ctl.writes_offRegs (c : Ctl) (st off : Nat) : c.Writes (c.offRegs st off) := by
  unfold Ctl.offRegs Ctl.glb
  exact (((((((((Ctl.Writes.refl c).wr _ _).wr _ _).wr _ _).wr _ _).wr _ _).wr _ _).wr _ _).wr _ _).wr _ _

theorem Ctl.Emptied.writes {c d : Ctl} (h : c.Emptied) (k : c.Writes d) : d.Emptied :=
  k.same ▸ ⟨h.opens, h.tier, h.ques, h.tiles, h.homeDirty, h.flask⟩

/-- The records of flash, fuses, sessions and firmware are the same: they stay when MAIN goes off. -/
structure Ctl.KeepsAux (c d : Ctl) : Prop where
  flash : d.flash = c.flash
  fuses : d.fuses = c.fuses
  sessions : d.sessions = c.sessions
  out : d.out = c.out
  fw : d.fw = c.fw

theorem Ctl.KeepsAux.trans {c d e : Ctl} (h : c.KeepsAux d) (k : d.KeepsAux e) : c.KeepsAux e :=
  ⟨k.flash.trans h.flash, k.fuses.trans h.fuses, k.sessions.trans h.sessions, k.out.trans h.out, k.fw.trans h.fw⟩

theorem Ctl.Writes.aux {c d : Ctl} (h : c.Writes d) : c.KeepsAux d :=
  ⟨(congrArg Ctl.flash h.same :), (congrArg Ctl.fuses h.same :), (congrArg Ctl.sessions h.same :), (congrArg Ctl.out h.same :),
    (congrArg Ctl.fw h.same :)⟩

theorem Ctl.keepsAux_setPwr (c : Ctl) (p : Pwr) : c.KeepsAux (c.setPwr p) := ⟨rfl, rfl, rfl, rfl, rfl⟩

/-! ### What is left after MAIN has gone off -/

theorem State.mainOff_keepsAux (s : State) (st off : Nat) : s.ctl.KeepsAux (s.mainOff st off).ctl := by
  obtain ⟨n, m, h⟩ := s.mainOff_spec st off
  rw [h]
  dsimp only
  have hdrop : s.ctl.KeepsAux ({ s.ctl with freeCtr := n, homeDirty := [] } : Ctl).dropMain := ⟨rfl, rfl, rfl, rfl, rfl⟩
  rw [Ctl.offStatus_eq]
  exact (hdrop.trans (Ctl.writes_offRegs _ _ _).aux).trans (Ctl.keepsAux_setPwr _ _)

/-- A register outside the MAIN domain keeps the fields that MAIN's status leaves alone. -/
theorem State.rd_mainOff (s : State) (st off : Nat) (g : Fld) (hm : isMain g.addr = false) (h : offFields.all g.apart = true) :
    (s.mainOff st off).ctl.rd g = s.ctl.rd g := by
  obtain ⟨n, m, hs⟩ := s.mainOff_spec st off
  rw [hs]
  dsimp only
  rw [Ctl.rd_offStatus _ _ _ _ h, Ctl.rd_dropMain _ _ hm]
  rfl

theorem State.glbState_mainOff (s : State) {st : Nat} (off : Nat) (h : st < 8) : (s.mainOff st off).ctl.rd Reg.glbState = st :=
  Ctl.glbState_offStatus _ off h

theorem State.glbOffCause_mainOff (s : State) (st : Nat) {off : Nat} (h : off < 16) : (s.mainOff st off).ctl.rd Reg.glbOffCause = off :=
  Ctl.glbOffCause_offStatus _ st h

theorem State.mainOff_emptied (s : State) (st off : Nat) : (s.mainOff st off).ctl.Emptied := (Ctl.emptied_dropMain _).offStatus st off

theorem State.mainOff_mem (s : State) (st off : Nat) : ∃ m : Mem, (s.mainOff st off).mem = m.dropMain := by
  obtain ⟨n, m, h⟩ := s.mainOff_spec st off
  exact ⟨m, congrArg State.mem h⟩

/-- A step after MAIN has gone off that writes registers, but not GLB_STATE.STATE. -/
theorem MainGone.mainOff {s t : State} {st off : Nat} (hst : st = 0 ∨ st = 4) (hmem : t.mem = (s.mainOff st off).mem) (hc : t.ctl.Emptied)
    (hstate : t.ctl.rd Reg.glbState = (s.mainOff st off).ctl.rd Reg.glbState) : MainGone t := by
  obtain ⟨m, hm⟩ := s.mainOff_mem st off
  obtain rfl | rfl := hst
  · exact MainGone.of (hmem.trans hm) hc (Ctl.mainUp_off (hstate.trans (s.glbState_mainOff off (by decide))))
  · exact MainGone.of (hmem.trans hm) hc (Ctl.mainUp_failed (hstate.trans (s.glbState_mainOff off (by decide))))

theorem Ctl.writes_waitIfManual (c : Ctl) : c.Writes c.waitIfManual := by
  unfold Ctl.waitIfManual
  split
  · exact c.writes_wr _ _
  · exact Ctl.Writes.refl c

theorem Ctl.rd_waitIfManual (c : Ctl) (g : Fld) (h : Reg.glbWaitOn.apart g = true) : c.waitIfManual.rd g = c.rd g := by
  rw [Fld.apart_iff] at h
  unfold Ctl.waitIfManual
  split
  · exact Ctl.rd_wr_apart _ _ _ _ (by decide) (by tauto)
  · rfl

/-- MAIN goes off for a reason after which Jorren may wait for POWER_ON. -/
def State.offAndWait (s : State) (off : Nat) : State := (s.mainOff 0 off).onCtl Ctl.waitIfManual

/-- Nothing of MAIN is left, the cause of the switch-off stands, and the records of the AUX domain stay. -/
theorem State.offAndWait_spec (s : State) {off : Nat} (h : off < 16) : MainGone (s.offAndWait off)
    ∧ (s.offAndWait off).ctl.rd Reg.glbOffCause = off ∧ s.ctl.KeepsAux (s.offAndWait off).ctl
    ∧ ∀ g : Fld, isMain g.addr = false → offFields.all g.apart = true → Reg.glbWaitOn.apart g = true →
      (s.offAndWait off).ctl.rd g = s.ctl.rd g := by
  unfold State.offAndWait
  rw [State.onCtl_ctl]
  have hw := (s.mainOff 0 off).ctl.writes_waitIfManual
  refine ⟨?_, ?_, (s.mainOff_keepsAux 0 off).trans hw.aux, fun g hm ho hg => ?_⟩
  · exact MainGone.mainOff (s := s) (st := 0) (off := off) (.inl rfl) (State.onCtl_mem _ _) ((s.mainOff_emptied 0 off).writes hw)
      (Ctl.rd_waitIfManual _ _ (by decide))
  · rw [Ctl.rd_waitIfManual _ _ (by decide)]
    exact s.glbOffCause_mainOff 0 h
  · rw [Ctl.rd_waitIfManual _ _ hg]
    exact s.rd_mainOff 0 off g hm ho

/-! ### Losses of MAIN (R37, R44, R49, R52, R445) -/

/-- The log's copy in flash is a matter of the collector's registers and records. -/
theorem Ctl.logs_flushLog (c : Ctl) : c.Logs c.flushLog where
  same := c.flushLog_eq ▸ rfl
  regs a ha := c.reg_flushLog a (by simp only [Reg.flashBatches]; omega)
  evseq := (congrArg Ctl.evseq c.flushLog_eq :).ge
  failed k n hu := (congrArg (fun x : Ctl => (x.unit k n).st) c.flushLog_eq :).trans hu

theorem Ctl.Logs.flash {c d : Ctl} (h : c.Logs d) : d.flash = c.flash := (congrArg Ctl.flash h.same :)
theorem Ctl.Logs.fuses {c d : Ctl} (h : c.Logs d) : d.fuses = c.fuses := (congrArg Ctl.fuses h.same :)
theorem Ctl.Logs.pwr {c d : Ctl} (h : c.Logs d) : d.pwr = c.pwr := (congrArg Ctl.pwr h.same :)

/-- A cause recorded before the log goes to flash is read afterwards. -/
theorem Ctl.rd_cause_flushLog (c : Ctl) (i : Nat) (h : i < 64) : (c.cause i).flushLog.rd (Reg.resetCause i) = 1 :=
  (c.cause i |>.rd_flushLog _ (show (0x01001010 : Nat) ≠ 0x0F000000 by decide)).trans
    (Ctl.rd_wr_fits _ (Reg.resetCause i) 1 (show i + 1 ≤ 64 from h) (show 1 < 2 ^ 1 by decide))

/-- What a loss of the MAIN input does before MAIN goes off: report, sensor snapshot, alert, cause, the log to flash. -/
def Ctl.mainFall (c : Ctl) : Ctl :=
  let d := c.report (repInfo 0x13 0x1A 0 3)
  let e := d.setErr { d.err with snapshot := d.regs.filter (fun e => 0x10400000 ≤ e.1 && e.1 < 0x10405000) }
  ((e.alert 1).cause 6).flushLog

theorem State.mainLost_eq (s : State) : s.mainLost = (s.onCtl Ctl.mainFall).offAndWait 2 := rfl

/-- A report and a copy of the log around writes of registers: flash and fuses stay. -/
theorem Ctl.flash_fuses_around {c d e f : Ctl} (h : c.Logs d) (hw : d.Writes e) (k : e.Logs f) : f.flash = c.flash ∧ f.fuses = c.fuses :=
  ⟨(k.flash.trans hw.aux.flash).trans h.flash, (k.fuses.trans hw.aux.fuses).trans h.fuses⟩

theorem Ctl.mainFall_spec (c : Ctl) : c.mainFall.rd (Reg.resetCause 6) = 1 ∧ c.mainFall.flash = c.flash ∧ c.mainFall.fuses = c.fuses
    ∧ c.mainFall.rd Reg.mainI = c.rd Reg.mainI := by
  unfold Ctl.mainFall
  dsimp only
  generalize hd : Ctl.setErr _ _ = d
  have hlog : c.Logs d := hd ▸ (c.logs_report _).trans (Ctl.logs_setErr _ _)
  have hflush := ((d.alert 1).cause 6).logs_flushLog
  have haux := Ctl.flash_fuses_around hlog (((Ctl.Writes.refl d).wr (Reg.alertPend 1) 1).wr (Reg.resetCause 6) 1) hflush
  refine ⟨Ctl.rd_cause_flushLog _ 6 (by decide), haux.1, haux.2, ?_⟩
  rw [hflush.rd _ (by decide)]
  unfold Ctl.cause Ctl.alert
  rw [Ctl.rd_wr_apart _ _ _ _ (by decide) (by decide), Ctl.rd_wr_apart _ _ _ _ (by decide) (by decide), hlog.rd _ (by decide)]

theorem State.mainLost_spec (s : State) : MainGone s.mainLost ∧ s.mainLost.ctl.rd (Reg.resetCause 6) = 1
    ∧ s.mainLost.ctl.rd Reg.glbOffCause = 2 ∧ s.mainLost.ctl.rd Reg.mainI = s.ctl.rd Reg.mainI ∧ s.mainLost.ctl.fuses = s.ctl.fuses
    ∧ s.mainLost.ctl.flash = s.ctl.flash := by
  rw [State.mainLost_eq]
  obtain ⟨hgone, hoff, haux, hrd⟩ := (s.onCtl Ctl.mainFall).offAndWait_spec (off := 2) (by decide)
  rw [State.onCtl_ctl] at haux hrd
  obtain ⟨hcause, hflash, hfuses, hmain⟩ := s.ctl.mainFall_spec
  exact ⟨hgone, (hrd _ (by decide) (by decide) (by decide)).trans hcause, hoff, (hrd _ (by decide) (by decide) (by decide)).trans hmain,
    haux.fuses.trans hfuses, haux.flash.trans hflash⟩

theorem overCurrent_completes (w : BitVec 16) (s : State) (hw : 8000 < w.toNat) (hup : s.ctl.pwr.railsUp = true) :
    Completes (.overCurrent w) s (fun t => MainGone t ∧ t.ctl.rd (Reg.resetCause 6) = 1 ∧ t.ctl.rd Reg.glbOffCause = 2
      ∧ t.ctl.rd Reg.mainI = w.toNat ∧ t.ctl.fuses = s.ctl.fuses) := by
  have hexec : execOverCurrent w s = done (s.onCtl (·.wr Reg.mainI w.toNat)).mainLost := by
    unfold execOverCurrent
    dsimp only
    rw [State.onCtl_ctl, Ctl.wr_pwr, hup, if_pos (by simp [hw])]
  obtain ⟨hgone, hcause, hoff, hmain, hfuses, -⟩ := (s.onCtl (·.wr Reg.mainI w.toNat)).mainLost_spec
  rw [State.onCtl_ctl] at hmain hfuses
  exact Completes.of_done hexec ⟨hgone, hcause, hoff, hmain.trans (Ctl.rd_wr_fits _ _ _ (by decide) w.isLt),
    hfuses.trans (Ctl.wr_fuses _ _ _)⟩

theorem mainLost_completes (s : State) (hup : s.ctl.pwr.railsUp = true) : Completes .mainLost s (fun t =>
    MainGone t ∧ t.ctl.rd (Reg.resetCause 6) = 1 ∧ t.ctl.rd Reg.glbOffCause = 2 ∧ t.ctl.fuses = s.ctl.fuses ∧ t.ctl.flash = s.ctl.flash) := by
  have hexec : execMainLost s = done s.mainLost := by
    unfold execMainLost
    rw [hup, Bool.true_or, if_pos rfl]
  obtain ⟨hgone, hcause, hoff, -, hfuses, hflash⟩ := s.mainLost_spec
  exact Completes.of_done hexec ⟨hgone, hcause, hoff, hfuses, hflash⟩

/-- The trip's latch, cause and report, and the log to flash (R52). -/
def Ctl.tripFall (c : Ctl) : Ctl := (((c.wr Reg.thermTrip 1).cause 5).report (repInfo 0x13 0x1C 0 2)).flushLog

/-- The trip leaves Jorren waiting and PWR_EN down. -/
def Ctl.tripWait (c : Ctl) : Ctl := (c.wr Reg.glbWaitOn 1).setPwr { c.pwr with pwrEn := false }

theorem State.thermTrip_eq (s : State) : s.thermTrip = ((s.onCtl Ctl.tripFall).mainOff 0 3).onCtl Ctl.tripWait := rfl

theorem Ctl.tripFall_spec (c : Ctl) : c.tripFall.rd Reg.thermTrip = 1 ∧ c.tripFall.rd (Reg.resetCause 5) = 1
    ∧ c.tripFall.flash = c.flash ∧ c.tripFall.fuses = c.fuses := by
  have hlog : ((c.wr Reg.thermTrip 1).cause 5).Logs c.tripFall := (Ctl.logs_report _ _).trans (Ctl.logs_flushLog _)
  have haux := Ctl.flash_fuses_around (Ctl.Logs.refl c) (((Ctl.Writes.refl c).wr Reg.thermTrip 1).wr (Reg.resetCause 5) 1) hlog
  refine ⟨?_, ?_, haux⟩
  · rw [hlog.rd _ (by decide)]
    exact (Ctl.rd_wr_ne _ (Reg.resetCause 5) _ _ (by decide)).trans (Ctl.rd_wr_fits _ _ _ (by decide) (by decide))
  · rw [hlog.rd _ (by decide)]
    exact Ctl.rd_wr_fits _ _ _ (by decide) (by decide)

theorem Ctl.rd_tripWait (c : Ctl) (g : Fld) (h : Reg.glbWaitOn.apart g = true) : c.tripWait.rd g = c.rd g := by
  rw [Fld.apart_iff] at h
  unfold Ctl.tripWait
  rw [Ctl.setPwr_rd]
  exact Ctl.rd_wr_apart _ _ _ _ (by decide) (by tauto)

theorem Ctl.keepsAux_tripWait (c : Ctl) : c.KeepsAux c.tripWait := (c.writes_wr Reg.glbWaitOn 1).aux.trans (Ctl.keepsAux_setPwr _ _)

theorem thermTrip_completes (s : State) : Completes .thermTrip s (fun t =>
    MainGone t ∧ t.ctl.rd Reg.thermTrip = 1 ∧ t.ctl.rd (Reg.resetCause 5) = 1 ∧ t.ctl.rd Reg.glbOffCause = 3
    ∧ t.ctl.pwr.pwrEn = false ∧ t.ctl.fuses = s.ctl.fuses ∧ t.ctl.flash = s.ctl.flash) := by
  refine Completes.of_done (congrArg done s.thermTrip_eq) ?_
  obtain ⟨htrip, hcause, hflash, hfuses⟩ := s.ctl.tripFall_spec
  have haux := ((s.onCtl Ctl.tripFall).mainOff_keepsAux 0 3).trans (Ctl.keepsAux_tripWait _)
  have hrd : ∀ g : Fld, isMain g.addr = false → offFields.all g.apart = true → Reg.glbWaitOn.apart g = true →
      ((s.onCtl Ctl.tripFall).mainOff 0 3).ctl.tripWait.rd g = s.ctl.tripFall.rd g :=
    fun g hm ho hg => (Ctl.rd_tripWait _ _ hg).trans ((s.onCtl Ctl.tripFall).rd_mainOff 0 3 g hm ho)
  have hgone : MainGone (((s.onCtl Ctl.tripFall).mainOff 0 3).onCtl Ctl.tripWait) :=
    MainGone.mainOff (.inl rfl) (State.onCtl_mem _ _) ((((s.onCtl Ctl.tripFall).mainOff_emptied 0 3).wr _ _).setPwr _)
      (Ctl.rd_tripWait _ _ (by decide))
  rw [State.onCtl_ctl]
  exact ⟨hgone, (hrd _ (by decide) (by decide) (by decide)).trans htrip, (hrd _ (by decide) (by decide) (by decide)).trans hcause,
    (Ctl.rd_tripWait _ _ (by decide)).trans (State.glbOffCause_mainOff _ 0 (by decide)), rfl, haux.fuses.trans hfuses, haux.flash.trans hflash⟩

end Sys2Proof.Machine

namespace Sys2Proof.Machine

/-! ### The core reference clock (R49) -/

/-- One queued report is drained in a context whose readings are free. -/
def Ctl.drainFree (c : Ctl) : Ctl := (c.freeCtx.2.drainOne c.freeCtx.1).1

theorem Ctl.logs_drainFree (c : Ctl) : c.Logs c.drainFree := (c.logs_freeCtr _).trans (Ctl.logs_drainOne _ _)

/-- What a loss of the core reference does to the control records before MAIN goes off. -/
def Ctl.coreFall (c : Ctl) : Ctl :=
  let d := (List.range 256).foldl (fun (d : Ctl) _ => d.drainFree) (((c.report (repInfo 0 0x1B 0 1)).alert 4).cause 7)
  let e := (((d.wr Reg.rootLock 0).wr Reg.coreRefOk 0).flushLog.wr (Reg.ctlState 0) 0).wr (Reg.ctlState 1) 0
  e.setPwr { e.pwr with coreLost := true }

theorem State.coreRefLost_eq (s : State) : s.coreRefLost = (s.onCtl Ctl.coreFall).offAndWait 4 := rfl

theorem Ctl.coreFall_spec (c : Ctl) : c.coreFall.rd (Reg.resetCause 7) = 1 ∧ c.coreFall.rd (Reg.alertPend 4) = 1
    ∧ c.coreFall.rd (Reg.ctlState 0) = 0 ∧ c.coreFall.rd (Reg.ctlState 1) = 0 ∧ c.coreFall.flash = c.flash ∧ c.coreFall.fuses = c.fuses := by
  have hdrain : ∀ (l : List Nat) (d : Ctl), d.Logs (l.foldl (fun (d : Ctl) _ => d.drainFree) d) := fun l d =>
    List.foldlRecOn (motive := fun x => d.Logs x) _ _ (Ctl.Logs.refl d) (fun x h _ _ => h.trans x.logs_drainFree)
  unfold Ctl.coreFall
  dsimp only
  generalize ha : ((c.report (repInfo 0 0x1B 0 1)).alert 4).cause 7 = a
  have hd := hdrain (List.range 256) a
  generalize (List.range 256).foldl (fun (d : Ctl) _ => d.drainFree) a = d at hd
  have hf := ((d.wr Reg.rootLock 0).wr Reg.coreRefOk 0).logs_flushLog
  have hflash : a.flash = c.flash ∧ a.fuses = c.fuses := by
    subst ha
    exact Ctl.flash_fuses_around (c.logs_report _) (((Ctl.Writes.refl _).wr (Reg.alertPend 4) 1).wr (Reg.resetCause 7) 1) (Ctl.Logs.refl _)
  have hkeep := Ctl.flash_fuses_around hd (((Ctl.Writes.refl d).wr Reg.rootLock 0).wr Reg.coreRefOk 0) hf
  have hcause : a.rd (Reg.resetCause 7) = 1 := ha ▸ Ctl.rd_wr_fits _ _ _ (by decide) (by decide)
  have halert : a.rd (Reg.alertPend 4) = 1 := by
    subst ha
    exact (Ctl.rd_wr_ne _ (Reg.resetCause 7) _ _ (by decide)).trans (Ctl.rd_wr_fits _ _ _ (by decide) (by decide))
  have hrd : ∀ g : Fld, g.addr < 0x03000000 → g.addr ≠ 0x01000000 →
      ((((d.wr Reg.rootLock 0).wr Reg.coreRefOk 0).flushLog.wr (Reg.ctlState 0) 0).wr (Reg.ctlState 1) 0).rd g = a.rd g := by
    intro g hlo hne
    rw [Ctl.rd_wr_ne _ (Reg.ctlState 1) _ _ (show g.addr ≠ 0x03000100 by omega),
      Ctl.rd_wr_ne _ (Reg.ctlState 0) _ _ (show g.addr ≠ 0x03000000 by omega), hf.rd _ (by omega),
      Ctl.rd_wr_ne _ Reg.coreRefOk _ _ hne, Ctl.rd_wr_ne _ Reg.rootLock _ _ hne, hd.rd _ (by omega)]
  have hw := ((Ctl.Writes.refl ((d.wr Reg.rootLock 0).wr Reg.coreRefOk 0).flushLog).wr (Reg.ctlState 0) 0).wr (Reg.ctlState 1) 0
  refine ⟨?_, ?_, ?_, ?_, (hw.aux.flash.trans hkeep.1).trans hflash.1, (hw.aux.fuses.trans hkeep.2).trans hflash.2⟩ <;> rw [Ctl.setPwr_rd]
  · exact (hrd _ (by decide) (by decide)).trans hcause
  · exact (hrd _ (by decide) (by decide)).trans halert
  · exact (Ctl.rd_wr_ne _ (Reg.ctlState 1) _ _ (by decide)).trans (Ctl.rd_wr_fits _ _ _ (by decide) (by decide))
  · exact Ctl.rd_wr_fits _ _ _ (by decide) (by decide)

theorem coreRefLost_completes (s : State) : Completes .coreRefLost s (fun t =>
    MainGone t ∧ t.ctl.rd (Reg.resetCause 7) = 1 ∧ t.ctl.rd Reg.glbOffCause = 4 ∧ t.ctl.rd (Reg.alertPend 4) = 1
    ∧ t.ctl.rd (Reg.ctlState 0) = 0 ∧ t.ctl.rd (Reg.ctlState 1) = 0 ∧ t.ctl.fuses = s.ctl.fuses ∧ t.ctl.flash = s.ctl.flash) := by
  refine Completes.of_done (congrArg done s.coreRefLost_eq) ?_
  obtain ⟨hcause, halert, h0, h1, hflash, hfuses⟩ := s.ctl.coreFall_spec
  obtain ⟨hgone, hoff, haux, hrd⟩ := (s.onCtl Ctl.coreFall).offAndWait_spec (off := 4) (by decide)
  rw [State.onCtl_ctl] at haux hrd
  exact ⟨hgone, (hrd _ (by decide) (by decide) (by decide)).trans hcause, hoff, (hrd _ (by decide) (by decide) (by decide)).trans halert,
    (hrd _ (by decide) (by decide) (by decide)).trans h0, (hrd _ (by decide) (by decide) (by decide)).trans h1,
    haux.fuses.trans hfuses, haux.flash.trans hflash⟩

/-! ### A die-to-die link fails (R445) -/

/-- What the failure of a link does to the control records before MAIN goes off. -/
def Ctl.linkFall (c : Ctl) (link : Nat) : Ctl :=
  let d := (c.report (rep 0x12 0x0B link)).cause 9
  (d.setPwr { d.pwr with d2dFailed := d.pwr.d2dFailed ||| BitVec.ofNat 3 (2 ^ link),
                         d2dFails := d.pwr.d2dFails.set link 0 (d.pwr.d2dFails.get link 0 + 1) }).flushLog

theorem State.d2dFail_eq (s : State) (link : Nat) :
    s.d2dFail link = ((s.onCtl (·.linkFall link)).mainOff 4 7).onCtl Ctl.moduleReplace := rfl

theorem Ctl.linkFall_spec (c : Ctl) (link : Nat) : (c.linkFall link).rd (Reg.resetCause 9) = 1 ∧ (c.linkFall link).flash = c.flash
    ∧ (c.linkFall link).fuses = c.fuses := by
  have hd := c.logs_report (rep 0x12 0x0B link)
  unfold Ctl.linkFall
  dsimp only
  generalize c.report (rep 0x12 0x0B link) = d at hd
  have haux := (d.writes_wr (Reg.resetCause 9) 1).aux
  have hf := Ctl.logs_flushLog ((d.cause 9).setPwr { (d.cause 9).pwr with
    d2dFailed := (d.cause 9).pwr.d2dFailed ||| BitVec.ofNat 3 (2 ^ link),
    d2dFails := (d.cause 9).pwr.d2dFails.set link 0 ((d.cause 9).pwr.d2dFails.get link 0 + 1) })
  refine ⟨?_, ?_, ?_⟩
  · rw [hf.rd _ (by decide), Ctl.setPwr_rd]
    exact Ctl.rd_wr_fits _ _ _ (by decide) (by decide)
  · rw [hf.flash, Ctl.setPwr_flash]
    exact haux.flash.trans hd.flash
  · rw [hf.fuses, Ctl.setPwr_fuses]
    exact haux.fuses.trans hd.fuses

/-- The REPLACE advisory for the module is latched, whether or not its log entry finds room (R452). -/
theorem Ctl.moduleReplace_latched (c : Ctl) : c.moduleReplace.err.moduleReplace = true := by
  have hevent : ∀ d : Ctl, (d.event evAdvisory [0, 0, 1]).err = d.err := fun d => (congrArg Ctl.err (d.posts_event evAdvisory [0, 0, 1]).same :)
  show ((Ctl.enqueue (c.setErr { c.err with moduleReplace := true }) (repInfo 0 0x1F 0 1)).event evAdvisory [0, 0, 1]).err.moduleReplace = true
  rw [hevent]
  by_cases h : (c.setErr { c.err with moduleReplace := true }).err.queue.length < 256
  · obtain ⟨e, he, -, hm⟩ := Ctl.enqueue_room h (repInfo 0 0x1F 0 1)
    rw [he, Ctl.setErr_err, hm, Ctl.setErr_err]
  · obtain ⟨e, he, hm⟩ := Ctl.enqueue_full h (repInfo 0 0x1F 0 1)
    rw [he, Ctl.setErr_err, hm, Ctl.setErr_err]

theorem d2dFail_completes (link : Fin 3) (s : State) (hup : s.ctl.pwr.railsUp = true) : Completes (.d2dFail link) s (fun t =>
    MainGone t ∧ t.ctl.rd (Reg.resetCause 9) = 1 ∧ t.ctl.rd Reg.glbState = 4 ∧ t.ctl.err.moduleReplace = true
    ∧ t.ctl.fuses = s.ctl.fuses ∧ t.ctl.flash = s.ctl.flash) := by
  have hexec : execD2dFail link s = done (((s.onCtl (·.linkFall link.val)).mainOff 4 7).onCtl Ctl.moduleReplace) := by
    unfold execD2dFail
    rw [hup, if_pos rfl, State.d2dFail_eq]
  refine Completes.of_done hexec ?_
  obtain ⟨hcause, hflash, hfuses⟩ := s.ctl.linkFall_spec link.val
  have haux := (s.onCtl (·.linkFall link.val)).mainOff_keepsAux 4 7
  have hrd := (s.onCtl (·.linkFall link.val)).rd_mainOff 4 7 (Reg.resetCause 9) (by decide) (by decide)
  have hlog := ((s.onCtl (·.linkFall link.val)).mainOff 4 7).ctl.logs_moduleReplace
  have hstate := (hlog.rd Reg.glbState (by decide))
  have hgone : MainGone (((s.onCtl (·.linkFall link.val)).mainOff 4 7).onCtl Ctl.moduleReplace) :=
    MainGone.mainOff (.inr rfl) (State.onCtl_mem _ _) (((s.onCtl (·.linkFall link.val)).mainOff_emptied 4 7).logs hlog) hstate
  rw [State.onCtl_ctl] at haux hrd ⊢
  exact ⟨hgone, ((hlog.rd _ (by decide)).trans hrd).trans hcause, hstate.trans (State.glbState_mainOff _ 7 (by decide)),
    Ctl.moduleReplace_latched _, (hlog.fuses.trans haux.fuses).trans hfuses, (hlog.flash.trans haux.flash).trans hflash⟩

end Sys2Proof.Machine

namespace Sys2Proof.Machine

/-! ### Pin and cold reset, loss of AUX (R45, R55, Table 2.9) -/

/-- A flash write that a reset interrupts leaves no valid image (R483, R484). -/
def Ctl.haltFlash (c : Ctl) : Ctl := if c.rd Reg.fwState = 3 then { c with flash := { c.flash with image := none } } else c

/-- Nothing but the flash image can change. -/
theorem Ctl.haltFlash_same (c : Ctl) : c.haltFlash = { c with flash := c.haltFlash.flash } := by
  unfold Ctl.haltFlash
  split <;> rfl

/-- A key all of whose entries a filter drops reads as unlisted. -/
theorem Tab.get_filterMap_drop {α : Type} (t : Tab α) (f : Nat × α → Option (Nat × α)) (k : Nat) (d : α)
    (hkey : ∀ e e', f e = some e' → e'.1 = e.1) (hdrop : ∀ v, f (k, v) = none) : Tab.get (t.filterMap f) k d = d := by
  have hnone : Tab.find? (t.filterMap f) k = none := by
    refine Tab.find?_none fun e he hk => ?_
    obtain ⟨⟨j, v⟩, -, hf⟩ := List.mem_filterMap.mp he
    have hj : k = j := hk.symm.trans (hkey _ _ hf)
    subst hj
    rw [hdrop v] at hf
    cases hf
  rw [Tab.get, hnone]
  rfl

/-- The registers after a pin reset (R496). -/
def Ctl.pinRegs (c : Ctl) : Ctl :=
  { c with regs := c.regs.filterMap (fun (e : Nat × Word) => let v := pinKeep e.1 e.2; if v = regReset e.1 then none else some (e.1, v)) }

/-- A register of which nothing is kept is at reset. -/
theorem Ctl.reg_pinRegs (c : Ctl) (a : Nat) (h : ∀ v, pinKeep a v = regReset a) : c.pinRegs.reg a = regReset a := by
  refine Tab.get_filterMap_drop c.regs _ a _ (fun e e' he => ?_) (fun v => ?_)
  · dsimp only at he
    split at he
    · cases he
    · exact (congrArg Prod.fst (Option.some.inj he)).symm
  · dsimp only
    rw [if_pos (h v)]

/-- The control records at a pin reset, once MAIN's are dropped: Jorren's records go too. -/
def Ctl.pinned (c : Ctl) : Ctl :=
  { c.pinRegs with
    err := { Err.init with lseq := c.err.lseq, flash := c.err.flash, copied := c.err.lseq, batchAt := c.now, snapshot := c.err.snapshot },
    fw := [], net := [NetCfg.init 0, NetCfg.init 1], staging := Staging.init,
    pwr := { Pwr.init with auxGood := c.pwr.auxGood, resetLow := true, lostFeeds := c.pwr.lostFeeds,
                           railDrops := c.pwr.railDrops &&& 0x1E00, coreLost := c.pwr.coreLost, fabLost := c.pwr.fabLost,
                           freqBad := c.pwr.freqBad } }

/-- Sessions end, AUTO_ON is loaded and the cause is set. -/
def Ctl.pinStart (c : Ctl) : Ctl := c.pinned.dropSessions.loadFlash.cause 1

/-- MAIN, where it was up, was lost to the reset. -/
def Ctl.pinLogged (c : Ctl) (up : Bool) : Ctl :=
  if up then (c.wr Reg.glbOffCause 6).report { repInfo 0x13 0x1A 0 3 with info := 0x603 } else c

theorem State.pinReset_eq (s : State) : s.pinReset =
    ((s.onCtl (fun c => c.flushLog.haltFlash)).dropMain).onCtl (fun c => c.pinStart.pinLogged (s.ctl.mainUp || s.ctl.pwr.railsUp)) := rfl

/-- What holds once a pin reset has begun. -/
structure Ctl.PinReset (c : Ctl) : Prop where
  emptied : c.Emptied
  cause : c.rd (Reg.resetCause 1) = 1
  state : c.rd Reg.glbState = 0
  cores : c.rd Reg.coresUp = 0
  pwrEn : c.pwr.pwrEn = false
  resetLow : c.pwr.resetLow = true
  sessions : c.sessions = []

theorem Ctl.rd_pinStart (c : Ctl) (f : Fld) (hf : f.addr ≠ 0x01001010) (hauto : f.addr ≠ 0x01001008) (h : ∀ v, pinKeep f.addr v = regReset f.addr) :
    c.pinStart.rd f = field (regReset f.addr).toNat f.lo f.w := by
  unfold Ctl.pinStart Ctl.cause Ctl.loadFlash
  rw [Ctl.rd_wr_ne _ (Reg.resetCause 1) _ _ hf, Ctl.rd_wr_ne _ Reg.autoOn _ _ hauto]
  exact congrArg (fun x : Word => field x.toNat f.lo f.w) (c.reg_pinRegs f.addr h)

theorem Ctl.writes_pinStart (c : Ctl) : c.pinned.dropSessions.Writes c.pinStart :=
  ((Ctl.Writes.refl _).wr Reg.autoOn _).wr (Reg.resetCause 1) 1

theorem Ctl.pinReset_pinStart {c : Ctl} (h : c.Emptied) : c.pinStart.PinReset where
  emptied := Ctl.Emptied.writes (c := c.pinned.dropSessions) ⟨h.opens, h.tier, h.ques, h.tiles, h.homeDirty, h.flask⟩ c.writes_pinStart
  cause := Ctl.rd_wr_fits _ (Reg.resetCause 1) 1 (by decide) (by decide)
  state := (c.rd_pinStart Reg.glbState (by decide) (by decide) (fun _ => rfl)).trans (by decide)
  cores := (c.rd_pinStart Reg.coresUp (by decide) (by decide) (fun _ => rfl)).trans (by decide)
  pwrEn := (congrArg (fun x : Ctl => x.pwr.pwrEn) c.writes_pinStart.same :)
  resetLow := (congrArg (fun x : Ctl => x.pwr.resetLow) c.writes_pinStart.same :)
  sessions := (congrArg Ctl.sessions c.writes_pinStart.same :)

theorem Ctl.queue_pinStart (c : Ctl) : c.pinStart.err.queue = [] := (congrArg (fun x : Ctl => x.err.queue) c.writes_pinStart.same :)

theorem Ctl.fuses_pinStart (c : Ctl) : c.pinStart.fuses = c.fuses := c.writes_pinStart.aux.fuses

/-- The report of the loss waits in the empty queue: nothing but the cause field and the collector moves. -/
theorem Ctl.pinLogged_cases {c : Ctl} (h : c.err.queue = []) (up : Bool) : c.pinLogged up = c ∨ ∃ e, c.pinLogged up = (c.wr Reg.glbOffCause 6).setErr e := by
  cases up
  · exact .inl rfl
  · have hroom : (c.wr Reg.glbOffCause 6).err.queue.length < 256 := by
      rw [Ctl.wr_err, h]
      decide
    obtain ⟨e, he, -⟩ := Ctl.enqueue_room hroom { repInfo 0x13 0x1A 0 3 with info := 0x603 }
    refine .inr ⟨e, ?_⟩
    rw [Ctl.pinLogged, if_pos rfl, Ctl.report_unscored _ (by decide), he]

theorem Ctl.setErr_sessions (c : Ctl) (e : Err) : (c.setErr e).sessions = c.sessions := rfl

theorem Ctl.PinReset.logged {c : Ctl} (h : c.PinReset) (hq : c.err.queue = []) (up : Bool) :
    (c.pinLogged up).PinReset ∧ (c.pinLogged up).fuses = c.fuses := by
  obtain he | ⟨e, he⟩ := Ctl.pinLogged_cases hq up <;> rw [he]
  · exact ⟨h, rfl⟩
  · have hpwr : ((c.wr Reg.glbOffCause 6).setErr e).pwr = c.pwr := (Ctl.setErr_pwr _ _).trans (Ctl.wr_pwr _ _ _)
    have hlog := (c.wr Reg.glbOffCause 6).logs_setErr e
    refine ⟨⟨(h.emptied.wr _ _).logs hlog, ?_, ?_, ?_, ?_, ?_, ?_⟩, hlog.fuses.trans (Ctl.wr_fuses _ _ _)⟩
    · rw [Ctl.setErr_rd, Ctl.rd_wr_ne _ _ _ _ (by decide)]
      exact h.cause
    · rw [Ctl.setErr_rd, Ctl.rd_wr_apart _ _ _ _ (by decide) (by decide)]
      exact h.state
    · rw [Ctl.setErr_rd, Ctl.rd_wr_ne _ _ _ _ (by decide)]
      exact h.cores
    · rw [hpwr]
      exact h.pwrEn
    · rw [hpwr]
      exact h.resetLow
    · rw [Ctl.setErr_sessions, Ctl.wr_sessions]
      exact h.sessions

theorem State.dropMain_spec (s : State) : ∃ n m, s.dropMain
    = { s with ctl := ({ s.ctl with freeCtr := n, homeDirty := [] } : Ctl).dropMain, mem := Mem.dropMain m } := by
  obtain ⟨n, m, h⟩ := s.loseAll_spec
  refine ⟨n, m, ?_⟩
  unfold State.dropMain
  rw [h]

theorem pinReset_completes (s : State) : Completes .pinReset s (fun t =>
    MainGone t ∧ t.ctl.rd (Reg.resetCause 1) = 1 ∧ t.ctl.pwr.pwrEn = false ∧ t.ctl.pwr.resetLow = true ∧ t.ctl.sessions = []
    ∧ t.ctl.rd Reg.coresUp = 0 ∧ t.ctl.fuses = s.ctl.fuses) := by
  refine Completes.of_done (congrArg done s.pinReset_eq) ?_
  obtain ⟨n, m, hdrop⟩ := (s.onCtl (fun c => c.flushLog.haltFlash)).dropMain_spec
  rw [hdrop]
  generalize hc : ({ (s.onCtl (fun c => c.flushLog.haltFlash)).ctl with freeCtr := n, homeDirty := [] } : Ctl) = c
  have hfuses : c.fuses = s.ctl.fuses := by
    rw [← hc]
    exact (congrArg Ctl.fuses s.ctl.flushLog.haltFlash_same :).trans (Ctl.flushLog_fuses _)
  obtain ⟨hreset, hkeep⟩ := (Ctl.pinReset_pinStart c.emptied_dropMain).logged (Ctl.queue_pinStart _) (s.ctl.mainUp || s.ctl.pwr.railsUp)
  exact ⟨MainGone.of rfl hreset.emptied (Ctl.mainUp_off hreset.state), hreset.cause, hreset.pwrEn, hreset.resetLow, hreset.sessions,
    hreset.cores, (hkeep.trans (Ctl.fuses_pinStart _)).trans hfuses⟩

/-- The control records at a cold reset, before the registers that are live or in flash. -/
def State.coldCtl (s : State) (n : Nat) : Ctl :=
  { Ctl.reset s.ctl.flash s.ctl.fuses with
    out := s.ctl.out, freeCtr := n + 1, seedAt := n, nextId := s.ctl.nextId, err := { Err.init with flash := s.ctl.err.flash } }

/-- The feeds' state is live, AUTO_ON is in flash. -/
def Ctl.coldRegs (c : Ctl) (feeds : Nat) : Ctl := (c.wr Reg.feedOk feeds).loadFlash

theorem State.coldReset_spec (s : State) : ∃ n m,
    s.coldReset = { s with ctl := (s.coldCtl n).coldRegs (s.ctl.rd Reg.feedOk), mem := Mem.dropMain m } := by
  obtain ⟨n, m, h⟩ := s.loseAll_spec
  refine ⟨n, m, ?_⟩
  unfold State.coldReset
  rw [h]
  rfl

theorem State.reg_coldRegs (s : State) (n feeds a : Nat) (hf : a ≠ 0x01001000) (ha : a ≠ 0x01001008) :
    ((s.coldCtl n).coldRegs feeds).reg a = regReset a := by
  unfold Ctl.coldRegs Ctl.loadFlash
  rw [Ctl.reg_wr_ne _ Reg.autoOn _ _ ha, Ctl.reg_wr_ne _ Reg.feedOk _ _ hf]
  rfl

theorem State.rd_coldRegs (s : State) (n feeds : Nat) (f : Fld) (hf : f.addr ≠ 0x01001000) (ha : f.addr ≠ 0x01001008) :
    ((s.coldCtl n).coldRegs feeds).rd f = field (regReset f.addr).toNat f.lo f.w :=
  congrArg (fun x : Word => field x.toNat f.lo f.w) (s.reg_coldRegs n feeds f.addr hf ha)

theorem Ctl.writes_coldRegs (c : Ctl) (feeds : Nat) : c.Writes (c.coldRegs feeds) := ((Ctl.Writes.refl c).wr _ _).wr _ _

theorem State.coldRegs_emptied (s : State) (n feeds : Nat) : ((s.coldCtl n).coldRegs feeds).Emptied :=
  Ctl.Emptied.writes (c := s.coldCtl n) ⟨rfl, rfl, rfl, rfl, rfl, rfl⟩ (Ctl.writes_coldRegs _ _)

theorem coldReset_completes (s : State) : Completes .coldReset s (fun t =>
    MainGone t ∧ t.ctl.reg Reg.resetCauseAddr = 1 ∧ t.ctl.sessions = [] ∧ t.ctl.rd Reg.coresUp = 0
    ∧ t.ctl.rd Reg.feedOk = s.ctl.rd Reg.feedOk ∧ t.ctl.fuses = s.ctl.fuses ∧ t.ctl.flash = s.ctl.flash) := by
  obtain ⟨n, m, h⟩ := s.coldReset_spec
  refine Completes.of_done (congrArg done h) ?_
  have haux := (Ctl.writes_coldRegs (s.coldCtl n) (s.ctl.rd Reg.feedOk)).aux
  have hrd := s.rd_coldRegs n (s.ctl.rd Reg.feedOk)
  refine ⟨MainGone.of rfl (s.coldRegs_emptied _ _) (Ctl.mainUp_off ((hrd _ (by decide) (by decide)).trans (by decide))),
    (s.reg_coldRegs _ _ _ (by decide) (by decide)).trans (by decide), haux.sessions, (hrd _ (by decide) (by decide)).trans (by decide), ?_,
    haux.fuses, haux.flash⟩
  exact (Ctl.rd_wr_ne _ Reg.autoOn _ _ (by decide)).trans (Ctl.rd_wr_fits _ _ _ (by decide) (Ctl.rd_lt _ _))

/-- With AUX the power record starts afresh; the feeds of the main pair alone stay known. -/
def Ctl.auxGone (c : Ctl) : Ctl :=
  let d := c.setPwr Pwr.init
  d.wr Reg.feedOk (d.rd Reg.feedOk &&& 0xC)

theorem State.auxLost_exec (s : State) : execAuxLost s = done ((s.onCtl Ctl.haltFlash).coldReset.onCtl Ctl.auxGone) := by
  unfold execAuxLost State.onCtl Ctl.haltFlash
  split <;> rfl

theorem auxLost_completes (s : State) : Completes .auxLost s (fun t =>
    MainGone t ∧ t.ctl.rd Reg.coresUp = 0 ∧ t.ctl.sessions = [] ∧ t.ctl.pwr.auxGood = false ∧ t.ctl.fuses = s.ctl.fuses) := by
  refine Completes.of_done s.auxLost_exec ?_
  obtain ⟨n, m, h⟩ := (s.onCtl Ctl.haltFlash).coldReset_spec
  rw [h, State.onCtl_ctl]
  generalize hu : (s.onCtl Ctl.haltFlash) = u
  have hfuses : u.ctl.fuses = s.ctl.fuses := hu ▸ (congrArg Ctl.fuses s.ctl.haltFlash_same :)
  generalize s.ctl.haltFlash.rd Reg.feedOk = feeds
  have haux := (Ctl.writes_coldRegs (u.coldCtl n) feeds).aux
  have hrd : ∀ f : Fld, f.addr ≠ 0x01001000 → f.addr ≠ 0x01001008 →
      (((u.coldCtl n).coldRegs feeds).auxGone).rd f = field (regReset f.addr).toNat f.lo f.w :=
    fun f hf ha => (Ctl.rd_wr_ne _ Reg.feedOk _ _ hf).trans ((Ctl.setPwr_rd _ _ _).trans (u.rd_coldRegs n feeds f hf ha))
  exact ⟨MainGone.of rfl (((u.coldRegs_emptied n feeds).setPwr _).wr _ _) (Ctl.mainUp_off ((hrd _ (by decide) (by decide)).trans (by decide))),
    (hrd _ (by decide) (by decide)).trans (by decide), haux.sessions, rfl, haux.fuses.trans hfuses⟩

/-- Settles O4, loss by loss. It rests on log entries 33, 94, 99, 100 and 117, as the statement says. -/
theorem lossOfMain : Obligations.LossOfMain := by
  unfold Obligations.LossOfMain
  exact ⟨overCurrent_completes, mainLost_completes, auxLost_completes, thermTrip_completes, coreRefLost_completes, d2dFail_completes,
    pinReset_completes, coldReset_completes⟩

end Sys2Proof.Machine

namespace Sys2Proof.Machine

/-! ### The A-clock's divider (R50, R51, R41, Table 2.8) -/

/-- A step to a slower divider counts. -/
def Ctl.countStep (c : Ctl) (old new : Nat) : Ctl := if old < new then c.bumpF Reg.stepCnt 1 else c

/-- A change of the divider is logged where STEP_EVT_EN is 1. -/
def Ctl.logStep (c : Ctl) : Ctl := if c.rd Reg.stepEvtEn = 1 then c.report (repInfo 0x13 0x1C 0 0) else c

theorem Ctl.setDiv_eq (c : Ctl) (step : Nat) : c.setDiv step =
    if max step (c.rd Reg.forceDiv) = c.rd Reg.aDiv then c.setPwr { c.pwr with thermStep := step }
    else (((c.setPwr { c.pwr with thermStep := step }).wr Reg.aDiv (max step (c.rd Reg.forceDiv))).countStep (c.rd Reg.aDiv)
      (max step (c.rd Reg.forceDiv))).logStep := rfl

theorem Ctl.rd_countStep (c : Ctl) (old new : Nat) (g : Fld) (h : Reg.stepCnt.apart g = true) : (c.countStep old new).rd g = c.rd g := by
  rw [Fld.apart_iff] at h
  unfold Ctl.countStep
  split
  · exact Ctl.rd_wr_apart _ _ _ _ (by decide) (by tauto)
  · rfl

theorem Ctl.pwr_countStep (c : Ctl) (old new : Nat) : (c.countStep old new).pwr = c.pwr := by
  unfold Ctl.countStep
  split
  · exact Ctl.wr_pwr _ _ _
  · rfl

theorem Ctl.logs_logStep (c : Ctl) : c.Logs c.logStep := by
  unfold Ctl.logStep
  split
  · exact c.logs_report _
  · exact Ctl.Logs.refl c

/-- The divider is the slower of the step and FORCE_DIV; the other registers below chapter 18 keep their fields. -/
theorem Ctl.setDiv_spec (c : Ctl) (step : Nat) (h : max step (c.rd Reg.forceDiv) < 8) :
    (c.setDiv step).pwr = { c.pwr with thermStep := step } ∧ (c.setDiv step).rd Reg.aDiv = max step (c.rd Reg.forceDiv)
    ∧ ∀ g : Fld, g.addr < 0x0F000000 → Reg.aDiv.apart g = true → Reg.stepCnt.apart g = true → (c.setDiv step).rd g = c.rd g := by
  rw [Ctl.setDiv_eq]
  split
  case isTrue heq => exact ⟨rfl, heq.symm, fun _ _ _ _ => rfl⟩
  case isFalse =>
    generalize max step (c.rd Reg.forceDiv) = new at h
    generalize c.rd Reg.aDiv = old
    have hlog := (((c.setPwr { c.pwr with thermStep := step }).wr Reg.aDiv new).countStep old new).logs_logStep
    refine ⟨?_, ?_, fun g hg ha hc => ?_⟩
    · rw [hlog.pwr, Ctl.pwr_countStep, Ctl.wr_pwr]
      rfl
    · rw [hlog.rd _ (by decide), Ctl.rd_countStep _ _ _ _ (by decide)]
      exact Ctl.rd_wr_fits _ _ _ (by decide) h
    · rw [Fld.apart_iff] at ha
      rw [hlog.rd _ hg, Ctl.rd_countStep _ _ _ _ hc, Ctl.rd_wr_apart _ _ _ _ (by decide) (by tauto), Ctl.setPwr_rd]

/-- A thermal or power step is timed. -/
def Ctl.timeStep (c : Ctl) : Ctl := c.setPwr { c.pwr with capSince := c.now }

theorem throttleStepDown_completes (s : State) (_ : 4 ≤ s.ctl.pwr.thermStep) (hhi : s.ctl.pwr.thermStep < 6) (hf : s.ctl.rd Reg.forceDiv ≤ 6) :
    Completes .throttleStepDown s (fun t => t.ctl.pwr.thermStep = s.ctl.pwr.thermStep + 1
      ∧ t.ctl.rd Reg.aDiv = max (s.ctl.pwr.thermStep + 1) (s.ctl.rd Reg.forceDiv) ∧ Keeps s t) := by
  obtain ⟨hpwr, hdiv, -⟩ := s.ctl.timeStep.setDiv_spec (s.ctl.pwr.thermStep + 1) (by rw [Ctl.timeStep, Ctl.setPwr_rd]; omega)
  exact Completes.onCtl rfl (if_pos hhi) ⟨(congrArg Pwr.thermStep hpwr :), hdiv, rfl, rfl⟩

theorem throttleStepUp_completes (s : State) (hlo : 4 < s.ctl.pwr.thermStep) (hhi : s.ctl.pwr.thermStep ≤ 6) (hf : s.ctl.rd Reg.forceDiv ≤ 6) :
    Completes .throttleStepUp s (fun t => t.ctl.pwr.thermStep = s.ctl.pwr.thermStep - 1
      ∧ t.ctl.rd Reg.aDiv = max (s.ctl.pwr.thermStep - 1) (s.ctl.rd Reg.forceDiv) ∧ t.ctl.rd Reg.capActive = 0 ∧ Keeps s t) := by
  have hforce : (s.ctl.wr Reg.capActive 0).rd Reg.forceDiv = s.ctl.rd Reg.forceDiv := Ctl.rd_wr_ne _ _ _ _ (by decide)
  obtain ⟨hpwr, hdiv, hrd⟩ := (s.ctl.wr Reg.capActive 0).setDiv_spec (s.ctl.pwr.thermStep - 1) (by rw [hforce]; omega)
  rw [hforce] at hdiv
  exact Completes.onCtl rfl (if_pos hlo) ⟨(congrArg Pwr.thermStep hpwr :), hdiv,
    (hrd _ (by decide) (by decide) (by decide)).trans (Ctl.rd_wr_fits _ _ _ (by decide) (by decide)), rfl, rfl⟩

theorem thermalLimit_completes (s : State) (hdiv : s.ctl.rd Reg.aDiv = 6) (hroom : LogRoom s) : Completes .thermalLimit s (fun t =>
    Logged t (repInfo 0x13 0x1C 0 1) ∧ t.ctl.rd (Reg.alertPend 5) = 1 ∧ t.ctl.rd Reg.aDiv = 6 ∧ Keeps s t) := by
  obtain ⟨e, he, hq⟩ := Ctl.report_waits (c := s.ctl) (Nat.lt_succ_of_lt hroom) (r := repInfo 0x13 0x1C 0 1) (by decide)
  refine Completes.onCtl rfl ((if_pos hdiv).trans (congrArg (·.alert 5) he)) ⟨?_, Ctl.rd_wr_fits _ _ _ (by decide) (by decide), ?_, rfl, rfl⟩
  · exact hq
  · exact (Ctl.rd_wr_ne _ (Reg.alertPend 5) _ _ (by decide)).trans hdiv

/-- The cap begins to throttle: its time, its flag. -/
def Ctl.capStep (c : Ctl) : Ctl := c.timeStep.wr Reg.capActive 1

theorem Ctl.capExceeded_first {c : Ctl} {w : Nat} (hw : c.rd Reg.capW < w) (hup : c.pwr.railsUp = true) (hstep : c.pwr.thermStep = 4) :
    c.capExceeded w = (c.wr Reg.inputW w).capStep.setDiv 5 := by
  have hcap : (c.wr Reg.inputW w).rd Reg.capW = c.rd Reg.capW := Ctl.rd_wr_ne _ _ _ _ (by decide)
  unfold Ctl.capExceeded
  dsimp only
  rw [hcap, Ctl.wr_pwr, if_neg (by simp [hw, hup]), if_pos hstep]
  rfl

theorem powerCapExceeded_completes (w : BitVec 16) (s : State) (hw : s.ctl.rd Reg.capW < w.toNat) (hup : s.ctl.pwr.railsUp = true)
    (hstep : s.ctl.pwr.thermStep = 4) (hf : s.ctl.rd Reg.forceDiv ≤ 6) : Completes (.powerCapExceeded w) s (fun t =>
    t.ctl.rd Reg.capActive = 1 ∧ t.ctl.rd Reg.inputW = w.toNat ∧ t.ctl.rd Reg.aDiv = max 5 (s.ctl.rd Reg.forceDiv) ∧ Keeps s t) := by
  have hforce : (s.ctl.wr Reg.inputW w.toNat).capStep.rd Reg.forceDiv = s.ctl.rd Reg.forceDiv :=
    (Ctl.rd_wr_ne _ Reg.capActive _ _ (by decide)).trans ((Ctl.setPwr_rd _ _ _).trans (Ctl.rd_wr_ne _ Reg.inputW _ _ (by decide)))
  obtain ⟨-, hdiv, hrd⟩ := (s.ctl.wr Reg.inputW w.toNat).capStep.setDiv_spec 5 (by rw [hforce]; omega)
  rw [hforce] at hdiv
  refine Completes.onCtl rfl (Ctl.capExceeded_first hw hup hstep) ⟨?_, ?_, hdiv, rfl, rfl⟩
  · exact (hrd _ (by decide) (by decide) (by decide)).trans (Ctl.rd_wr_fits _ _ _ (by decide) (by decide))
  · refine (hrd _ (by decide) (by decide) (by decide)).trans ((Ctl.rd_wr_apart _ Reg.capActive _ _ (by decide) (by decide)).trans ?_)
    exact (Ctl.setPwr_rd _ _ _).trans (Ctl.rd_wr_fits _ _ _ (by decide) w.isLt)

/-- FORCE_DIV other than 5 and 6 takes 0, so it fits its field. -/
theorem forceDiv_lt (f : Nat) : (if f = 5 || f = 6 then f else 0) < 2 ^ Reg.forceDiv.w := by
  split
  case isTrue h =>
    rw [Bool.or_eq_true, decide_eq_true_eq, decide_eq_true_eq] at h
    exact h.elim (fun h => h ▸ by decide) (fun h => h ▸ by decide)
  case isFalse => decide

/-- CLK_THROTTLE as written, before the divider follows. -/
def Ctl.throttleRegs (c : Ctl) (v : Word) : Ctl :=
  (c.wr Reg.forceDiv (if field v.toNat 0 3 = 5 || field v.toNat 0 3 = 6 then field v.toNat 0 3 else 0)).wr Reg.stepEvtEn (field v.toNat 3 1)

theorem forceDivWrite_completes (v : Word) (s : State) (hlo : 4 ≤ s.ctl.pwr.thermStep) (hhi : s.ctl.pwr.thermStep ≤ 6) :
    Completes (.forceDivWrite v) s (fun t =>
    let f := field v.toNat 0 3
    t.ctl.rd Reg.forceDiv = (if f = 5 ∨ f = 6 then f else 0)
    ∧ t.ctl.rd Reg.aDiv = max s.ctl.pwr.thermStep (if f = 5 ∨ f = 6 then f else 0) ∧ Keeps s t) := by
  have hforce : (s.ctl.throttleRegs v).rd Reg.forceDiv
      = if field v.toNat 0 3 = 5 ∨ field v.toNat 0 3 = 6 then field v.toNat 0 3 else 0 := by
    unfold Ctl.throttleRegs
    rw [Ctl.rd_wr_apart _ _ _ _ (by decide) (by decide), Ctl.rd_wr_fits _ _ _ (by decide) (forceDiv_lt _)]
    simp only [Bool.or_eq_true, decide_eq_true_eq]
  have hpwr : (s.ctl.throttleRegs v).pwr = s.ctl.pwr := (Ctl.wr_pwr _ _ _).trans (Ctl.wr_pwr _ _ _)
  obtain ⟨-, hdiv, hrd⟩ := (s.ctl.throttleRegs v).setDiv_spec s.ctl.pwr.thermStep (by
    rw [hforce]
    split <;> omega)
  refine Completes.onCtl (f := fun c => (c.throttleRegs v).setDiv (c.throttleRegs v).pwr.thermStep) rfl rfl ?_
  dsimp only
  rw [hpwr]
  rw [hforce] at hdiv
  exact ⟨(hrd _ (by decide) (by decide) (by decide)).trans hforce, hdiv, rfl, rfl⟩

/-! ### The reference clocks (R47-R49) -/

/-- The frequency alarm of a clock, before its report. -/
def Ctl.clockOut (c : Ctl) (b : Nat) (f : Fld) : Ctl :=
  (c.setPwr { c.pwr with freqBad := c.pwr.freqBad ||| BitVec.ofNat 2 b }).wr f 0

/-- The report of a clock out of tolerance; the clock is in INFO. -/
def clockReport (b : Nat) : Report := { rep 0 0x1B 0 with info := BitVec.ofNat 128 (256 * (b - 1)) }

theorem Ctl.clockBad_core (c : Ctl) : c.clockBad .core = ((c.clockOut 1 Reg.coreRefOk).report (clockReport 1)).alert 3 := rfl
theorem Ctl.clockBad_fab (c : Ctl) : c.clockBad .fab = ((c.clockOut 2 Reg.fabRefOk).report (clockReport 2)).alert 3 := rfl

theorem Ctl.clockOut_spec {c : Ctl} (hroom : c.err.queue.length < 255) (b : Nat) (f : Fld) (hf : f.addr = 0x01000000) (hw : f.lo + f.w ≤ 64) :
    (((c.clockOut b f).report (clockReport b)).alert 3).rd f = 0
    ∧ (((c.clockOut b f).report (clockReport b)).alert 3).rd (Reg.alertPend 3) = 1
    ∧ ∃ r ∈ (((c.clockOut b f).report (clockReport b)).alert 3).err.queue, r.cls = 0x1B := by
  have herr : (c.clockOut b f).err.queue.length < 256 := by
    rw [Ctl.clockOut, Ctl.wr_err, Ctl.setPwr_err]
    omega
  obtain ⟨e, he, a, hq⟩ := Ctl.report_waits herr (r := clockReport b) rfl
  rw [he]
  refine ⟨?_, Ctl.rd_wr_fits _ _ _ (by decide) (by decide), ⟨_, hq, rfl⟩⟩
  have hne : f.addr ≠ (Reg.alertPend 3).addr := by
    rw [hf]
    decide
  exact (Ctl.rd_wr_ne _ (Reg.alertPend 3) _ _ hne).trans ((Ctl.setErr_rd _ _ _).trans (Ctl.rd_wr_fits _ _ _ hw (by positivity)))

theorem clockFrequencyEvent_completes (k : RefClk) (s : State) (hroom : LogRoom s) : Completes (.clockFrequencyEvent k) s (fun t =>
    t.ctl.rd (match k with | .core => Reg.coreRefOk | .fab => Reg.fabRefOk) = 0 ∧ t.ctl.rd (Reg.alertPend 3) = 1
    ∧ (∃ r ∈ t.ctl.err.queue, r.cls = 0x1B) ∧ Keeps s t) := by
  cases k with
  | core =>
    obtain ⟨hok, halert, hq⟩ := Ctl.clockOut_spec hroom 1 Reg.coreRefOk rfl (by decide)
    exact Completes.onCtl rfl s.ctl.clockBad_core ⟨hok, halert, hq, rfl, rfl⟩
  | fab =>
    obtain ⟨hok, halert, hq⟩ := Ctl.clockOut_spec hroom 2 Reg.fabRefOk rfl (by decide)
    exact Completes.onCtl rfl s.ctl.clockBad_fab ⟨hok, halert, hq, rfl, rfl⟩

/-! #### The fabric reference is lost (R48) -/

/-- The state of a sub-port, by its key. -/
def Ctl.subState (c : Ctl) (k : Nat) : LinkState := (c.subs.get k SubPort.init).st

theorem Ctl.subState_putSub_same (c : Ctl) (p q : Nat) (x : SubPort) : (c.putSub p q x).subState (4 * p + q) = x.st :=
  congrArg SubPort.st (Tab.get_set_same _ _ _ _)

theorem Ctl.subState_putSub_ne (c : Ctl) (p q : Nat) (x : SubPort) {k : Nat} (h : k ≠ 4 * p + q) : (c.putSub p q x).subState k = c.subState k :=
  congrArg SubPort.st (Tab.get_set_ne _ _ _ _ _ _ h)

theorem Ctl.subState_congr {c d : Ctl} (h : d.subs = c.subs) (k : Nat) : d.subState k = c.subState k := by
  simp only [Ctl.subState, h]

theorem Ctl.subs_putLane (c : Ctl) (p : Nat) (l : PortLanes) : (c.putLane p l).subs = c.subs := rfl

/-- Dropping a link's frames leaves every sub-port in its state. -/
theorem Ctl.subState_linkDrop (c : Ctl) (p q k : Nat) : (c.linkDrop p q).subState k = c.subState k := by
  obtain ⟨n, x, hx, h⟩ := c.linkDrop_spec p q
  have hsubs : ((c.flushSub p q).bumpBy (Reg.lnkCtr p q 0x58) n).subs = c.subs := c.subs_flushSub p q
  rw [h]
  by_cases hk : k = 4 * p + q
  · rw [hk, Ctl.subState_putSub_same]
    exact hx
  · rw [Ctl.subState_putSub_ne _ _ _ _ hk, Ctl.subState_congr hsubs]

theorem Ctl.subState_linkDown_same (c : Ctl) (p q : Nat) : (c.linkDown p q).subState (4 * p + q) = .down := by
  obtain ⟨x, l, hx, h⟩ := c.linkDown_spec p q
  rw [h, Ctl.subState_congr (Ctl.subs_putLane _ _ _), Ctl.subState_putSub_same]
  exact hx

theorem Ctl.subState_linkDown_ne (c : Ctl) (p q : Nat) {k : Nat} (hk : k ≠ 4 * p + q) : (c.linkDown p q).subState k = c.subState k := by
  obtain ⟨x, l, -, h⟩ := c.linkDown_spec p q
  rw [h, Ctl.subState_congr (Ctl.subs_putLane _ _ _), Ctl.subState_putSub_ne _ _ _ _ hk, Ctl.subState_linkDrop]

/-- A sub-port that is DOWN stays so when another, or it itself, goes DOWN. -/
theorem Ctl.subState_linkDown_down {c : Ctl} {k : Nat} (h : c.subState k = .down) (p q : Nat) : (c.linkDown p q).subState k = .down := by
  by_cases hk : k = 4 * p + q
  · rw [hk]
    exact c.subState_linkDown_same p q
  · exact (c.subState_linkDown_ne p q hk).trans h

theorem mem_insertNat_of_mem {l : List Nat} {x : Nat} (h : x ∈ l) (k : Nat) : x ∈ insertNat l k := by
  induction l with
  | nil => cases h
  | cons j t ih =>
    unfold insertNat
    split
    · exact List.mem_cons_of_mem k h
    · split
      · exact h
      · rcases List.mem_cons.mp h with rfl | ht
        · exact List.mem_cons_self
        · exact List.mem_cons_of_mem j (ih ht)

theorem mem_insertAll {l : List Nat} {x : Nat} (h : x ∈ l) : x ∈ insertAll [] l :=
  foldl_establishes (P := fun m => x ∈ m) (fun _ a hm => mem_insertNat_of_mem hm a) (fun m => mem_insertNat m x) l h []

/-- The keys of the sub-ports that the control records list. -/
def Ctl.subKeys (c : Ctl) : List Nat := insertAll [] (List.map (fun (e : Nat × SubPort) => e.1) c.subs)

/-- Every listed sub-port goes DOWN. -/
def Ctl.portsDown (c : Ctl) : Ctl := c.subKeys.foldl (fun d k => d.linkDown (k / 4) (k % 4)) c

/-- Listed or not, every sub-port is then DOWN. -/
theorem Ctl.subState_portsDown (c : Ctl) (k : Nat) : c.portsDown.subState k = .down := by
  by_cases hk : k ∈ List.map (fun (e : Nat × SubPort) => e.1) c.subs
  · refine foldl_establishes (P := fun (d : Ctl) => d.subState k = .down) (f := fun (d : Ctl) k => d.linkDown (k / 4) (k % 4)) (x := k)
      (fun d j hd => Ctl.subState_linkDown_down hd _ _) (fun d => ?_) _ (mem_insertAll hk) c
    have := d.subState_linkDown_same (k / 4) (k % 4)
    rwa [Nat.div_add_mod] at this
  · have hnone : c.subs.find? k = none := Tab.find?_none fun e he hek => hk (List.mem_map.mpr ⟨e, he, hek⟩)
    have hinit : c.subState k = .down := by
      rw [Ctl.subState, Tab.get, hnone]
      rfl
    exact List.foldlRecOn (motive := fun (d : Ctl) => d.subState k = .down) _ _ hinit (fun d hd _ _ => Ctl.subState_linkDown_down hd _ _)

theorem Ctl.links_portsDown (c : Ctl) : c.LinkWork c.portsDown :=
  List.foldlRecOn (motive := fun d => c.LinkWork d) _ _ (Ctl.LinkWork.refl c) (fun d h _ _ => h.trans (d.links_linkDown _ _))

/-- The clock's flag, the report and the alert, before the ports go DOWN. -/
def Ctl.fabGone (c : Ctl) : Ctl :=
  ((((c.setPwr { c.pwr with fabLost := true }).wr Reg.fabRefOk 0).wr Reg.oeLock 0).report (repInfo 0 0x1B 0 2)).alert 11

theorem Ctl.fabRefLost_eq (c : Ctl) : c.fabRefLost = c.fabGone.portsDown := rfl

/-- The alert is set; a report leaves the power record and the data plane's records alone. -/
theorem Ctl.fabGone_spec (c : Ctl) : c.fabGone.pwr = { c.pwr with fabLost := true } ∧ c.fabGone.rd (Reg.alertPend 11) = 1
    ∧ c.fabGone.exts = c.exts ∧ c.fabGone.bays = c.bays ∧ c.fabGone.opens = c.opens := by
  have hlog := (((c.setPwr { c.pwr with fabLost := true }).wr Reg.fabRefOk 0).wr Reg.oeLock 0).logs_report (repInfo 0 0x1B 0 2)
  unfold Ctl.fabGone Ctl.alert
  refine ⟨?_, Ctl.rd_wr_fits _ _ _ (by decide) (by decide), ?_, ?_, ?_⟩
  · rw [Ctl.wr_pwr, hlog.pwr, Ctl.wr_pwr, Ctl.wr_pwr, Ctl.setPwr_pwr]
  · rw [Ctl.wr_exts, (congrArg Ctl.exts hlog.same :)]
    rfl
  · rw [Ctl.wr_bays, (congrArg Ctl.bays hlog.same :)]
    rfl
  · rw [Ctl.wr_opens, (congrArg Ctl.opens hlog.same :)]
    rfl

theorem Ctl.LinkWork.pwr {c d : Ctl} (h : c.LinkWork d) : d.pwr = c.pwr := (congrArg Ctl.pwr h.same :)
theorem Ctl.LinkWork.exts {c d : Ctl} (h : c.LinkWork d) : d.exts = c.exts := (congrArg Ctl.exts h.same :)
theorem Ctl.LinkWork.bays {c d : Ctl} (h : c.LinkWork d) : d.bays = c.bays := (congrArg Ctl.bays h.same :)
theorem Ctl.LinkWork.opens {c d : Ctl} (h : c.LinkWork d) : d.opens = c.opens := (congrArg Ctl.opens h.same :)

theorem fabRefLost_completes (s : State) : Completes .fabRefLost s (fun t =>
    t.ctl.pwr.fabLost = true ∧ t.ctl.rd (Reg.alertPend 11) = 1 ∧ (∀ p q, (t.ctl.sub p q).st ≠ .up ∧ (t.ctl.sub p q).st ≠ .degraded)
    ∧ t.ctl.exts = s.ctl.exts ∧ t.ctl.bays = s.ctl.bays ∧ t.ctl.opens = s.ctl.opens ∧ Keeps s t) := by
  have hlinks := s.ctl.fabGone.links_portsDown
  obtain ⟨hpwr, halert, hexts, hbays, hopens⟩ := s.ctl.fabGone_spec
  refine Completes.onCtl rfl s.ctl.fabRefLost_eq ⟨?_, (hlinks.rd _ (by decide)).trans halert, fun p q => ?_,
    hlinks.exts.trans hexts, hlinks.bays.trans hbays, hlinks.opens.trans hopens, rfl, rfl⟩
  · show s.ctl.fabGone.portsDown.pwr.fabLost = true
    rw [hlinks.pwr]
    exact congrArg Pwr.fabLost hpwr
  · have hdown : (s.ctl.fabGone.portsDown.sub p q).st = .down := s.ctl.fabGone.subState_portsDown (4 * p + q)
    show (s.ctl.fabGone.portsDown.sub p q).st ≠ .up ∧ (s.ctl.fabGone.portsDown.sub p q).st ≠ .degraded
    rw [hdown]
    decide

/-- The fabric clock is good again. -/
def Ctl.fabGood (c : Ctl) : Ctl := (c.setPwr { c.pwr with fabLost := false, freqBad := c.pwr.freqBad &&& 1 }).wr Reg.fabRefOk 1

theorem Ctl.fabGood_spec (c : Ctl) : c.fabGood.pwr.fabLost = false ∧ c.fabGood.pwr.railsUp = c.pwr.railsUp ∧ c.fabGood.rd Reg.fabRefOk = 1
    ∧ ∀ a, a ≠ 0x01000000 → c.fabGood.reg a = c.reg a := by
  unfold Ctl.fabGood
  rw [Ctl.wr_pwr]
  exact ⟨rfl, rfl, Ctl.rd_wr_fits _ _ _ (by decide) (by decide), fun a ha => Ctl.reg_wr_ne _ _ _ _ ha⟩

theorem fabRefReturn_completes (s : State) : Completes .fabRefReturn s (fun t =>
    t.ctl.pwr.fabLost = false ∧ t.ctl.rd Reg.fabRefOk = 1 ∧ (s.ctl.pwr.railsUp = true → t.ctl.rd Reg.oeLock = 0xFFFF)
    ∧ RegsBut [0x01000000] s t ∧ Keeps s t) := by
  obtain ⟨hlost, hrails, hok, hregs⟩ := s.ctl.fabGood_spec
  by_cases hup : s.ctl.pwr.railsUp = true
  · refine Completes.onCtl rfl (if_pos (hrails.trans hup)) ⟨?_, ?_, fun _ => ?_, fun a ha => ?_, rfl, rfl⟩
    · exact (congrArg Pwr.fabLost (Ctl.wr_pwr _ _ _)).trans hlost
    · exact (Ctl.rd_wr_apart _ Reg.oeLock _ _ (by decide) (by decide)).trans hok
    · exact Ctl.rd_wr_fits _ _ _ (by decide) (by decide)
    · have ha' : a ≠ 0x01000000 := List.ne_of_not_mem_cons ha
      exact (Ctl.reg_wr_ne _ Reg.oeLock _ _ ha').trans (hregs a ha')
  · refine Completes.onCtl rfl (if_neg (fun h => hup (hrails.symm.trans h))) ⟨hlost, hok, fun h => absurd h hup, fun a ha => ?_, rfl, rfl⟩
    exact hregs a (List.ne_of_not_mem_cons ha)

/-- The core clock is good again. -/
def Ctl.coreGood (c : Ctl) : Ctl := (c.setPwr { c.pwr with coreLost := false, freqBad := c.pwr.freqBad &&& 2 }).wr Reg.coreRefOk 1

/-- Sessions end and the firmware stops. -/
def Ctl.stopFw (c : Ctl) : Ctl := { c.dropSessions with fw := [] }

theorem Ctl.stopFw_rd (c : Ctl) (f : Fld) : c.stopFw.rd f = c.rd f := rfl
theorem Ctl.stopFw_pwr (c : Ctl) : c.stopFw.pwr = c.pwr := rfl
theorem Ctl.stopFw_sessions (c : Ctl) : c.stopFw.sessions = [] := rfl

/-- After a loss of the core clock Jorren starts over; after an alarm alone it runs on. -/
def Ctl.coreBack (c : Ctl) : Ctl :=
  if c.pwr.coreLost || bitOf c.pwr.freqBad.toNat 0 then
    if c.pwr.coreLost then (c.coreGood.wr Reg.coresUp 0).stopFw else c.coreGood
  else c

theorem Ctl.coreBack_lost {c : Ctl} (h : c.pwr.coreLost = true) : c.coreBack = (c.coreGood.wr Reg.coresUp 0).stopFw := by
  unfold Ctl.coreBack
  rw [h, Bool.true_or, if_pos rfl, if_pos rfl]

theorem coreRefRestored_completes (s : State) (h : s.ctl.pwr.coreLost = true) : Completes .coreRefRestored s (fun t =>
    t.ctl.pwr.coreLost = false ∧ t.ctl.rd Reg.coreRefOk = 1 ∧ t.ctl.rd Reg.coresUp = 0 ∧ t.ctl.sessions = [] ∧ Keeps s t) := by
  refine Completes.onCtl (f := Ctl.coreBack) rfl (Ctl.coreBack_lost h) ⟨?_, ?_, ?_, Ctl.stopFw_sessions _, rfl, rfl⟩
  · show (s.ctl.coreGood.wr Reg.coresUp 0).stopFw.pwr.coreLost = false
    rw [Ctl.stopFw_pwr, Ctl.wr_pwr, Ctl.coreGood, Ctl.wr_pwr]
    rfl
  · refine (Ctl.stopFw_rd _ _).trans ((Ctl.rd_wr_ne _ Reg.coresUp _ _ (by decide)).trans ?_)
    exact Ctl.rd_wr_fits _ _ _ (by decide) (by decide)
  · exact (Ctl.stopFw_rd _ _).trans (Ctl.rd_wr_fits _ Reg.coresUp _ (by decide) (by decide))

/-- Settles O5, clock by clock and step by step. It rests on log entry 99, as the statement says. -/
theorem clocksAndThrottle : Obligations.ClocksAndThrottle := by
  unfold Obligations.ClocksAndThrottle
  exact ⟨clockFrequencyEvent_completes, fabRefLost_completes, fabRefReturn_completes, coreRefRestored_completes, throttleStepDown_completes,
    throttleStepUp_completes, thermalLimit_completes, powerCapExceeded_completes, forceDivWrite_completes⟩

end Sys2Proof.Machine

namespace Sys2Proof.Machine

/-! ### A data-plane reset by command (Table 2.9) -/

/-- MAIN starts again at step 5, with the map sizes as written and no failed die-to-die link. -/
def Ctl.dataStart (c : Ctl) (map kvs : Nat) : Ctl :=
  { (c.glb 1 5).setPwr { c.pwr with d2dFailed := 0 } with phys := { c.phys with mapGib := map, kvsGib := kvs } }

theorem State.dataReset_eq (s : State) : s.dataReset = ((s.onCtl (·.cause 2)).mainOff 1 8).onCtl
    (·.dataStart (s.ctl.rd Reg.mapGib) (s.ctl.rd Reg.kvsMapGib)) := rfl

theorem Ctl.dataStart_rd (c : Ctl) (map kvs : Nat) (f : Fld) : (c.dataStart map kvs).rd f = (c.glb 1 5).rd f := rfl

theorem Ctl.keepsAux_dataStart (c : Ctl) (map kvs : Nat) : c.KeepsAux (c.dataStart map kvs) := by
  have h := (((Ctl.Writes.refl c).wr Reg.glbState 1).wr Reg.glbStep 5).aux
  exact ⟨h.flash, h.fuses, h.sessions, h.out, h.fw⟩

theorem Ctl.Emptied.dataStart {c : Ctl} (h : c.Emptied) (map kvs : Nat) : (c.dataStart map kvs).Emptied := by
  obtain ⟨ho, ht, hq, hi, hh, hf⟩ := h.writes (((Ctl.Writes.refl c).wr Reg.glbState 1).wr Reg.glbStep 5)
  exact ⟨ho, ht, hq, hi, hh, hf⟩

theorem State.dataReset_spec (s : State) : (∃ m : Mem, s.dataReset.mem = m.dropMain) ∧ s.dataReset.ctl.Emptied
    ∧ s.dataReset.ctl.rd Reg.glbState = 1 ∧ s.dataReset.ctl.rd Reg.glbStep = 5 ∧ s.dataReset.ctl.rd (Reg.resetCause 2) = 1
    ∧ s.ctl.KeepsAux s.dataReset.ctl ∧ s.dataReset.pending = s.pending := by
  rw [State.dataReset_eq, State.onCtl_mem, State.onCtl_ctl, State.onCtl_pending]
  have haux := (s.onCtl (·.cause 2)).mainOff_keepsAux 1 8
  have hrd := (s.onCtl (·.cause 2)).rd_mainOff 1 8 (Reg.resetCause 2) (by decide) (by decide)
  rw [State.onCtl_ctl] at haux hrd
  refine ⟨State.mainOff_mem _ 1 8, (State.mainOff_emptied _ 1 8).dataStart _ _, ?_, ?_, ?_,
    (((Ctl.Writes.refl s.ctl).wr (Reg.resetCause 2) 1).aux.trans haux).trans (Ctl.keepsAux_dataStart _ _ _), ?_⟩
  · rw [Ctl.dataStart_rd]
    exact Ctl.glbState_glb _ _ (by decide)
  · rw [Ctl.dataStart_rd]
    exact Ctl.glbStep_glb _ _ (by decide)
  · rw [Ctl.dataStart_rd, Ctl.rd_glb _ _ _ _ (by decide) (by decide)]
    exact hrd.trans (Ctl.rd_wr_fits _ _ _ (by decide) (by decide))
  · obtain ⟨n, m, h⟩ := (s.onCtl (·.cause 2)).mainOff_spec 1 8
    exact (congrArg State.pending h :)

theorem resetData_completes (sid : Nat) (s : State) (hrun : s.ctl.jmpRuns sid 0x12 = true) (hoff : s.ctl.rd Reg.glbState ≠ 0)
    (hdown : s.ctl.rd Reg.glbState ≠ 3) : Completes (.resetData sid) s (fun t =>
    MainGone t ∧ t.ctl.rd Reg.glbState = 1 ∧ t.ctl.rd Reg.glbStep = 5 ∧ t.ctl.rd (Reg.resetCause 2) = 1 ∧ Answered s t sid 0
    ∧ t.ctl.flash = s.ctl.flash ∧ t.ctl.fuses = s.ctl.fuses ∧ t.ctl.fw = s.ctl.fw ∧ t.pending = s.pending) := by
  have hexec : execResetData sid s = done (s.dataReset.onCtl (·.reply sid (ans rOK))) := by
    unfold execResetData
    rw [State.jmp_runs hrun, if_neg (by simp [hoff, hdown])]
  obtain ⟨⟨m, hm⟩, hempty, hstate, hstep, hcause, haux, hpend⟩ := s.dataReset_spec
  generalize s.dataReset = u at *
  have hsame := u.ctl.reply_same sid (ans rOK)
  have hrd := u.ctl.reply_rd sid (ans rOK)
  have hempty' : (u.ctl.reply sid (ans rOK)).Emptied :=
    hsame ▸ ⟨hempty.opens, hempty.tier, hempty.ques, hempty.tiles, hempty.homeDirty, hempty.flask⟩
  exact Completes.of_done hexec ⟨MainGone.of hm hempty' (Ctl.mainUp_starting ((hrd _).trans hstate) ((hrd _).trans hstep)),
    (hrd _).trans hstate, (hrd _).trans hstep, (hrd _).trans hcause, Answered.of_reply (a := ans rOK) hrun haux.sessions haux.out rfl,
    (congrArg Ctl.flash hsame :).trans haux.flash, (congrArg Ctl.fuses hsame :).trans haux.fuses, (congrArg Ctl.fw hsame :).trans haux.fw,
    hpend⟩

/-! ### A management reset (R53, R54): the cores stop, the data plane runs on -/

/-- The records of the data plane that a management reset leaves alone. -/
structure Ctl.KeepsData (c d : Ctl) : Prop where
  exts : d.exts = c.exts
  opens : d.opens = c.opens
  ques : d.ques = c.ques
  tier : d.tier = c.tier
  out : d.out = c.out

theorem Ctl.KeepsData.trans {c d e : Ctl} (h : c.KeepsData d) (k : d.KeepsData e) : c.KeepsData e :=
  ⟨k.exts.trans h.exts, k.opens.trans h.opens, k.ques.trans h.ques, k.tier.trans h.tier, k.out.trans h.out⟩

theorem Ctl.Writes.data {c d : Ctl} (h : c.Writes d) : c.KeepsData d :=
  ⟨(congrArg Ctl.exts h.same :), (congrArg Ctl.opens h.same :), (congrArg Ctl.ques h.same :), (congrArg Ctl.tier h.same :),
    (congrArg Ctl.out h.same :)⟩

theorem Ctl.keepsData_flushLog (c : Ctl) : c.KeepsData c.flushLog :=
  ⟨(congrArg Ctl.exts c.flushLog_eq :), (congrArg Ctl.opens c.flushLog_eq :), (congrArg Ctl.ques c.flushLog_eq :),
    (congrArg Ctl.tier c.flushLog_eq :), (congrArg Ctl.out c.flushLog_eq :)⟩

theorem Ctl.keepsData_haltFlash (c : Ctl) : c.KeepsData c.haltFlash :=
  ⟨(congrArg Ctl.exts c.haltFlash_same :), (congrArg Ctl.opens c.haltFlash_same :), (congrArg Ctl.ques c.haltFlash_same :),
    (congrArg Ctl.tier c.haltFlash_same :), (congrArg Ctl.out c.haltFlash_same :)⟩

/-- Sessions, firmware and staging end; the management domain is in reset. -/
def Ctl.stopMgmt (c : Ctl) : Ctl :=
  { c.dropSessions with fw := [], staging := { c.staging with len := 0, bytes := [], recovery := [], recovering := false },
                        pwr := { c.pwr with mgmtReset := true } }

theorem Ctl.stopMgmt_rd (c : Ctl) (f : Fld) : c.stopMgmt.rd f = c.rd f := rfl
theorem Ctl.stopMgmt_sessions (c : Ctl) : c.stopMgmt.sessions = [] := rfl
theorem Ctl.stopMgmt_fw (c : Ctl) : c.stopMgmt.fw = [] := rfl
theorem Ctl.keepsData_stopMgmt (c : Ctl) : c.KeepsData c.stopMgmt := ⟨rfl, rfl, rfl, rfl, rfl⟩

/-- The registers at a management reset: its cause, the cores, the firmware's state. -/
def Ctl.mgmtRegs (c : Ctl) (bit : Nat) : Ctl := ((c.cause bit).wr Reg.coresUp 0).wr Reg.fwState 0

theorem Ctl.mgmtReset_eq (c : Ctl) (bit : Nat) : c.mgmtReset bit = (c.flushLog.haltFlash.mgmtRegs bit).stopMgmt := rfl

theorem Ctl.mgmtReset_spec (c : Ctl) {bit : Nat} (h : bit < 64) : (c.mgmtReset bit).rd (Reg.resetCause bit) = 1
    ∧ (c.mgmtReset bit).rd Reg.coresUp = 0 ∧ (c.mgmtReset bit).sessions = [] ∧ (c.mgmtReset bit).fw = [] ∧ c.KeepsData (c.mgmtReset bit) := by
  have hw := (((Ctl.Writes.refl c.flushLog.haltFlash).wr (Reg.resetCause bit) 1).wr Reg.coresUp 0).wr Reg.fwState 0
  rw [Ctl.mgmtReset_eq, Ctl.stopMgmt_rd, Ctl.stopMgmt_rd]
  refine ⟨?_, ?_, Ctl.stopMgmt_sessions _, Ctl.stopMgmt_fw _,
    ((c.keepsData_flushLog.trans (Ctl.keepsData_haltFlash _)).trans hw.data).trans (Ctl.keepsData_stopMgmt _)⟩ <;> unfold Ctl.mgmtRegs
  · have hcores : (Reg.resetCause bit).addr ≠ Reg.coresUp.addr := show (0x01001010 : Nat) ≠ 0x10000000 by decide
    rw [Ctl.rd_wr_ne _ _ _ _ (show (Reg.resetCause bit).addr ≠ Reg.fwState.addr from hcores), Ctl.rd_wr_ne _ _ _ _ hcores]
    exact Ctl.rd_wr_fits _ (Reg.resetCause bit) 1 (show bit + 1 ≤ 64 from h) (show 1 < 2 ^ 1 by decide)
  · rw [Ctl.rd_wr_apart _ _ _ _ (by decide) (by decide)]
    exact Ctl.rd_wr_fits _ _ _ (by decide) (by decide)

theorem resetMgmt_completes (sid : Nat) (s : State) (hrun : s.ctl.jmpRuns sid 0x13 = true) : Completes (.resetMgmt sid) s (fun t =>
    Answered s t sid 0 ∧ t.ctl.rd (Reg.resetCause 3) = 1 ∧ t.ctl.rd Reg.coresUp = 0 ∧ t.ctl.sessions = [] ∧ t.ctl.fw = []
    ∧ t.ctl.exts = s.ctl.exts ∧ t.ctl.opens = s.ctl.opens ∧ t.ctl.ques = s.ctl.ques ∧ t.ctl.tier = s.ctl.tier ∧ Keeps s t) := by
  have hexec : execResetMgmt sid s = done ((s.onCtl (·.reply sid (ans rOK))).onCtl (·.mgmtReset 3)) := by
    unfold execResetMgmt
    rw [State.jmpThen_runs hrun rfl]
  have hsame := s.ctl.reply_same sid (ans rOK)
  obtain ⟨hcause, hcores, hsess, hfw, hdata⟩ := (s.ctl.reply sid (ans rOK)).mgmtReset_spec (bit := 3) (by decide)
  exact Completes.of_done hexec ⟨Answered.of_reply (c := s.ctl) (a := ans rOK) hrun rfl rfl hdata.out, hcause, hcores, hsess, hfw,
    hdata.exts.trans (congrArg Ctl.exts hsame :), hdata.opens.trans (congrArg Ctl.opens hsame :),
    hdata.ques.trans (congrArg Ctl.ques hsame :), hdata.tier.trans (congrArg Ctl.tier hsame :), rfl, rfl⟩

theorem watchdogExpiry_completes (s : State) : Completes .watchdogExpiry s (fun t =>
    t.ctl.rd (Reg.resetCause 4) = 1 ∧ t.ctl.rd Reg.coresUp = 0 ∧ t.ctl.sessions = [] ∧ t.ctl.fw = []
    ∧ t.ctl.exts = s.ctl.exts ∧ t.ctl.opens = s.ctl.opens ∧ t.ctl.ques = s.ctl.ques ∧ t.ctl.tier = s.ctl.tier ∧ Keeps s t) := by
  obtain ⟨hcause, hcores, hsess, hfw, hdata⟩ := s.ctl.mgmtReset_spec (bit := 4) (by decide)
  exact Completes.onCtl (f := (·.mgmtReset 4)) rfl rfl ⟨hcause, hcores, hsess, hfw, hdata.exts, hdata.opens, hdata.ques, hdata.tier, rfl, rfl⟩

/-! ### The end of a management reset (R418, R475, R483) -/

/-- Entries changed value by value: a listed key reads as its changed value. -/
theorem Tab.find?_map {α β : Type} (t : Tab α) (f : Nat → α → β) (k : Nat) : (Tab.map t f).find? k = (t.find? k).map (f k) := by
  induction t with
  | nil => rfl
  | cons e t ih =>
    obtain ⟨j, v⟩ := e
    by_cases hj : j = k
    · simp [Tab.map, Tab.find?, hj]
    · simpa [Tab.map, Tab.find?, hj] using ih

/-- Bringing up a control port writes registers and its settings. -/
structure Ctl.NetWork (c d : Ctl) : Prop where
  same : d = { c with regs := d.regs, net := d.net }

theorem Ctl.NetWork.refl (c : Ctl) : c.NetWork c := ⟨rfl⟩
theorem Ctl.NetWork.trans {c d e : Ctl} (h : c.NetWork d) (k : d.NetWork e) : c.NetWork e :=
  ⟨k.same.trans (congrArg (fun x : Ctl => { x with regs := e.regs, net := e.net }) h.same :)⟩

theorem Ctl.Writes.net {c d : Ctl} (h : c.Writes d) : c.NetWork d := by
  have hnet : d.net = c.net := (congrArg Ctl.net h.same :)
  refine ⟨?_⟩
  rw [hnet]
  exact h.same

theorem Ctl.netWork_applyNet (c : Ctl) (p : Nat) (n : NetCfg) : c.NetWork (c.applyNet p n) := by
  have hset : c.NetWork { c with net := setAt c.net p n } := ⟨rfl⟩
  exact hset.trans ((((((Ctl.Writes.refl _).wr (Reg.ctlIp4 p) _).wr (Reg.ctlIp6 p) _).wr (Reg.ctlVid p) _).wr (Reg.ctlPcp p) _).wr
    (Reg.ctlJmpPort p) _).net

theorem Ctl.netWork_ctlUp (c : Ctl) (p : Nat) : c.NetWork (c.ctlUp p) := by
  unfold Ctl.ctlUp
  split
  · exact Ctl.NetWork.refl c
  · exact (c.netWork_applyNet p _).trans (Ctl.writes_wr _ (Reg.ctlState p) 3).net

/-- The ROM has locked the root PLL and brought the control ports up. -/
def Ctl.bootPorts (c : Ctl) : Ctl :=
  (((c.wr Reg.rootLock 1).wr Reg.coreRefOk (if bitOf c.pwr.freqBad.toNat 0 then 0 else 1)).ctlUp 0).ctlUp 1

theorem Ctl.netWork_bootPorts (c : Ctl) : c.NetWork c.bootPorts :=
  ((((Ctl.Writes.refl c).wr Reg.rootLock 1).wr Reg.coreRefOk _).net.trans (Ctl.netWork_ctlUp _ 0)).trans (Ctl.netWork_ctlUp _ 1)

/-- A valid image in flash is started (R431). -/
theorem Ctl.bootVerify_starts {c : Ctl} {img : List Byte} (haux : c.pwr.auxGood = true) (hreset : c.pwr.resetLow = false)
    (hcore : c.pwr.coreLost = false) (hcores : c.rd Reg.coresUp = 0) (himg : c.flash.image = some img) (hok : imageOk c.fuses img = true) :
    c.bootVerify = c.bootPorts.startImage img false := by
  have hflash : c.bootPorts.flash.image = some img := (congrArg (fun x : Ctl => x.flash.image) c.netWork_bootPorts.same :).trans himg
  have hfuses : imageOk c.bootPorts.fuses img = true := (congrArg (fun x : Ctl => imageOk x.fuses img) c.netWork_bootPorts.same :).trans hok
  have hboot : c.bootVerify = match c.bootPorts.flash.image with
      | none => c.bootPorts.recover
      | some i => if imageOk c.bootPorts.fuses i then c.bootPorts.startImage i false else c.bootPorts.imageRefused.recover :=
    if_pos (by simp [haux, hreset, hcore, hcores])
  rw [hboot, hflash]
  exact if_pos hfuses

/-- The firmware runs from this image; nothing of staging's recovery is left. -/
def Ctl.loadFw (c : Ctl) (img : List Byte) : Ctl := { c with fw := img, staging := { c.staging with recovery := [], recovering := false } }

/-- The registers that say what image runs. -/
def Ctl.fwRegs (c : Ctl) (img : List Byte) (recovered : Bool) : Ctl :=
  ((((c.wr Reg.secBootOk 1).wr Reg.secRecovery (b2n recovered)).wr Reg.secKeySlot (imgSlot img)).wr Reg.secSvnImage (imgSvn img)).wr Reg.coresUp 0xF

theorem Ctl.startImage_eq (c : Ctl) (img : List Byte) (recovered : Bool) : c.startImage img recovered =
    if ((c.loadFw img).fwRegs img recovered).rd Reg.glbState = 0 then ((c.loadFw img).fwRegs img recovered).waitIfManual
    else (c.loadFw img).fwRegs img recovered := rfl

theorem Ctl.startImage_spec (c : Ctl) (img : List Byte) (recovered : Bool) : (c.loadFw img).Writes (c.startImage img recovered)
    ∧ (c.startImage img recovered).rd Reg.coresUp = 0xF := by
  have hw : (c.loadFw img).Writes ((c.loadFw img).fwRegs img recovered) :=
    (((((Ctl.Writes.refl _).wr Reg.secBootOk _).wr Reg.secRecovery _).wr Reg.secKeySlot _).wr Reg.secSvnImage _).wr Reg.coresUp _
  have hcores : ((c.loadFw img).fwRegs img recovered).rd Reg.coresUp = 0xF := Ctl.rd_wr_fits _ Reg.coresUp _ (by decide) (by decide)
  rw [Ctl.startImage_eq]
  split
  · exact ⟨hw.trans (Ctl.writes_waitIfManual _), (Ctl.rd_waitIfManual _ _ (by decide)).trans hcores⟩
  · exact ⟨hw, hcores⟩

/-- Acknowledging posts touches mailboxes and their count alone. -/
structure Ctl.MbxWork (c d : Ctl) : Prop where
  same : d = { c with regs := d.regs, mbxs := d.mbxs }
  regs : ∀ a, a ≠ Reg.mbxCtr 3 → d.reg a = c.reg a

theorem Ctl.mbxWork_ackPost (c : Ctl) (ep : Nat) (code : BitVec 16) : c.MbxWork (c.ackPost ep code) := by
  unfold Ctl.ackPost
  dsimp only
  split
  · exact ⟨rfl, fun _ _ => rfl⟩
  · exact ⟨rfl, fun a ha => Ctl.reg_bumpBy_ne c _ 1 a ha⟩

theorem Ctl.mbxWork_restartPosts (c : Ctl) : c.MbxWork c.restartPosts :=
  List.foldlRecOn (motive := fun d => c.MbxWork d) _ _ ⟨rfl, fun _ _ => rfl⟩ (fun d h ep _ => by
    have k := d.mbxWork_ackPost ep 0xFFFE
    exact ⟨k.same.trans (congrArg (fun x : Ctl => { x with regs := (d.ackPost ep 0xFFFE).regs, mbxs := (d.ackPost ep 0xFFFE).mbxs }) h.same :),
      fun a ha => (k.regs a ha).trans (h.regs a ha)⟩)

/-- The management domain leaves reset. -/
def Ctl.mgmtRuns (c : Ctl) : Ctl := (c.setPwr { c.pwr with mgmtReset := false }).restartWindows.restartPosts

theorem Ctl.mgmtEnd_runs {c : Ctl} (h : c.pwr.mgmtReset = true) (hcores : c.bootVerify.rd Reg.coresUp ≠ 0) : c.mgmtEnd = c.bootVerify.mgmtRuns := by
  unfold Ctl.mgmtEnd
  dsimp only
  rw [h, if_neg (by decide), if_neg hcores]
  rfl

/-- An endpoint's window, if it has one, restarts. -/
def Endpoint.rewound (x : Endpoint) (now : Nat) : Endpoint := if x.winAt.isSome then { x with winAt := some now } else x

theorem Ctl.eps_restartWindows (c : Ctl) : c.restartWindows.eps = Tab.map c.eps (fun _ x => x.rewound c.now) := rfl

theorem Ctl.winAt_restartWindows (c : Ctl) (e : Nat) (h : (c.ep e).winAt.isSome = true) : (c.restartWindows.ep e).winAt = some c.now := by
  unfold Ctl.ep Tab.get at h ⊢
  rw [Ctl.eps_restartWindows, Tab.find?_map]
  cases hx : c.eps.find? e with
  | none =>
    rw [hx] at h
    cases h
  | some x =>
    rw [hx] at h
    have hx : x.rewound c.now = { x with winAt := some c.now } := if_pos h
    rw [Option.map_some, Option.getD_some, hx]

theorem mgmtResetEnd_completes (img : List Byte) (s : State) (hmgmt : s.ctl.pwr.mgmtReset = true) (haux : s.ctl.pwr.auxGood = true)
    (hreset : s.ctl.pwr.resetLow = false) (hcore : s.ctl.pwr.coreLost = false) (hcores : s.ctl.rd Reg.coresUp = 0)
    (himg : s.ctl.flash.image = some img) (hok : imageOk s.ctl.fuses img = true) : Completes .mgmtResetEnd s (fun t =>
    t.ctl.pwr.mgmtReset = false ∧ t.ctl.fw = img ∧ t.ctl.rd Reg.coresUp = 0xF
    ∧ (∀ e, (s.ctl.ep e).winAt.isSome = true → (t.ctl.ep e).winAt = some s.ctl.now) ∧ Keeps s t) := by
  have hboot := Ctl.bootVerify_starts haux hreset hcore hcores himg hok
  have hports := s.ctl.netWork_bootPorts
  obtain ⟨hstart, hup⟩ := s.ctl.bootPorts.startImage_spec img false
  rw [← hboot] at hstart hup
  have hend := Ctl.mgmtEnd_runs hmgmt (by rw [hup]; decide)
  generalize s.ctl.bootVerify = b at hstart hup hend
  have hmbx := Ctl.mbxWork_restartPosts (b.setPwr { b.pwr with mgmtReset := false }).restartWindows
  have hnow : b.now = s.ctl.now := (congrArg Ctl.now hstart.same :).trans (congrArg Ctl.now hports.same :)
  have heps : b.eps = s.ctl.eps := (congrArg Ctl.eps hstart.same :).trans (congrArg Ctl.eps hports.same :)
  refine Completes.onCtl rfl hend ⟨(congrArg (fun x : Ctl => x.pwr.mgmtReset) hmbx.same :),
    (congrArg Ctl.fw hmbx.same :).trans (congrArg Ctl.fw hstart.same :), ?_, fun e he => ?_, rfl, rfl⟩
  · exact (Ctl.rd_congr (hmbx.regs _ (by decide)) : _).trans hup
  · have hwin : ((b.setPwr { b.pwr with mgmtReset := false }).restartWindows.ep e).winAt = some b.now :=
      Ctl.winAt_restartWindows _ e (by
        show (Tab.get b.eps e Endpoint.init).winAt.isSome = true
        rw [heps]
        exact he)
    exact ((congrArg (fun x : Ctl => (x.ep e).winAt) hmbx.same :).trans hwin).trans (congrArg some hnow)

theorem resetNHigh_completes (s : State) : Completes .resetNHigh s (fun t =>
    t.ctl.pwr.resetLow = false ∧ Only s t (fun c => { c with pwr := { c.pwr with resetLow := false } })) :=
  Completes.of_done rfl ⟨rfl, rfl⟩

/-- Settles O6, reset by reset. It rests on log entries 101 and 115, as the statement says. -/
theorem resets : Obligations.Resets := by
  unfold Obligations.Resets
  exact ⟨resetData_completes, resetMgmt_completes, watchdogExpiry_completes, mgmtResetEnd_completes, resetNHigh_completes⟩

end Sys2Proof.Machine

namespace Sys2Proof.Machine

/-! ### POWER_ON and the first steps of a power-down (Table 2.6, R42) -/

/-- A command whose operation is answered after a change of the control records alone. -/
theorem Completes.jmpCtl {i : Instr} {s : State} {sid op : Nat} {f : Ctl → Ctl × Ans} {c : Ctl} {a : Ans} {P : State → Prop}
    (h : exec i s = done (s.jmpCtl sid op f)) (hrun : s.ctl.jmpRuns sid op = true) (hf : f s.ctl = (c, a))
    (hp : P { s with ctl := c.reply sid a }) : Completes i s P :=
  Completes.of_done (h.trans (congrArg done (State.jmpCtl_runs hrun hf))) hp

theorem Ctl.keepsAux_assertPwrEn (c : Ctl) : c.KeepsAux c.assertPwrEn := by
  unfold Ctl.assertPwrEn
  split
  · exact (c.keepsAux_setPwr { c.pwr with pwrEn := true }).trans
      ((((Ctl.Writes.refl _).wr Reg.glbWaitOn 0).wr Reg.glbState 1).wr Reg.glbStep _).aux
  · exact (Ctl.Writes.refl c).aux

theorem powerOn_completes (sid : Nat) (s : State) (hrun : s.ctl.jmpRuns sid 0x10 = true) (hstate : s.ctl.rd Reg.glbState = 0)
    (htrip : s.ctl.rd Reg.thermTrip = 0) (hcores : s.ctl.rd Reg.coresUp ≠ 0) (hreset : s.ctl.pwr.resetLow = false)
    (hcore : s.ctl.pwr.coreLost = false) : Completes (.powerOn sid) s (fun t =>
    t.ctl.pwr.pwrEn = true ∧ t.ctl.rd Reg.glbState = 1 ∧ t.ctl.rd Reg.glbWaitOn = 0 ∧ Answered s t sid 0 ∧ Keeps s t) := by
  obtain ⟨hen, hon, hwait, -, -⟩ := Ctl.assertPwrEn_spec hstate hcores hreset htrip hcore
  have haux := s.ctl.keepsAux_assertPwrEn
  refine Completes.jmpCtl rfl hrun (if_pos (by simp [hstate, htrip])) ⟨?_, (Ctl.reply_rd _ _ _ _).trans hon,
    (Ctl.reply_rd _ _ _ _).trans hwait, Answered.of_reply (a := ans rOK) hrun haux.sessions haux.out rfl, rfl, rfl⟩
  exact (congrArg Pwr.pwrEn (Ctl.reply_pwr _ _ _)).trans hen

/-- Steps 1 and 2 of a power-down. -/
def Ctl.shutStart (c : Ctl) (test : Nat) : Ctl := (c.glb 3 2).setPwr { c.pwr with shutTest := test == 1, shutAt := c.now }

theorem Ctl.shutStart_rd (c : Ctl) (test : Nat) (f : Fld) : (c.shutStart test).rd f = (c.glb 3 2).rd f := rfl

theorem Ctl.writes_glb (c : Ctl) (st step : Nat) : c.Writes (c.glb st step) := ((Ctl.Writes.refl c).wr Reg.glbState st).wr Reg.glbStep step

theorem shutdown_completes (sid test : Nat) (s : State) (hrun : s.ctl.jmpRuns sid 0x11 = true) (htest : test ≤ 1)
    (hstate : s.ctl.rd Reg.glbState = 2) : Completes (.shutdown sid test) s (fun t =>
    t.ctl.rd Reg.glbState = 3 ∧ t.ctl.rd Reg.glbStep = 2 ∧ t.ctl.pwr.shutTest = (test == 1) ∧ Answered s t sid 0
    ∧ t.ctl.exts = s.ctl.exts ∧ t.ctl.opens = s.ctl.opens ∧ Keeps s t) := by
  have hexec : execShutdown sid test s = done { s with ctl := (s.ctl.shutStart test).reply sid (ans rOK) } := by
    unfold execShutdown
    refine congrArg done (State.jmpCtl_runs hrun ?_)
    dsimp only
    rw [if_neg (by omega), if_neg (not_not_intro hstate)]
    rfl
  have hw := s.ctl.writes_glb 3 2
  have haux : s.ctl.KeepsAux (s.ctl.shutStart test) := hw.aux.trans (Ctl.keepsAux_setPwr _ _)
  have hpwr := (s.ctl.shutStart test).reply_pwr sid (ans rOK)
  have htested : (s.ctl.shutStart test).pwr.shutTest = (test == 1) := rfl
  have hsame := (s.ctl.shutStart test).reply_same sid (ans rOK)
  refine Completes.of_done hexec ⟨((Ctl.reply_rd _ _ _ _).trans (Ctl.shutStart_rd _ _ _)).trans (Ctl.glbState_glb _ _ (by decide)),
    ((Ctl.reply_rd _ _ _ _).trans (Ctl.shutStart_rd _ _ _)).trans (Ctl.glbStep_glb _ _ (by decide)), (congrArg Pwr.shutTest hpwr :).trans htested,
    Answered.of_reply (a := ans rOK) hrun haux.sessions haux.out rfl, (congrArg Ctl.exts hsame :).trans hw.data.exts,
    (congrArg Ctl.opens hsame :).trans hw.data.opens, rfl, rfl⟩

theorem shutdownQuiesce_completes (s : State) (hstate : s.ctl.rd Reg.glbState = 3) (hstep : s.ctl.rd Reg.glbStep = 2)
    (hopens : s.ctl.opens = []) (hfences : s.ctl.fences = []) (howns : s.ctl.owns = []) : Completes .shutdownQuiesce s (fun t =>
    t.ctl.rd Reg.glbState = 3 ∧ t.ctl.rd Reg.glbStep = 3 ∧ OnlyRegs [0x28] s t) := by
  have hq : s.ctl.shutQuiesce = s.ctl.glb 3 3 := (if_pos (by simp [hstate, hstep])).trans (if_pos (by simp [hopens, hfences, howns]))
  exact Completes.onCtl rfl hq ⟨Ctl.glbState_glb _ _ (by decide), Ctl.glbStep_glb _ _ (by decide),
    congrArg (fun c : Ctl => { s with ctl := c }) (s.ctl.writes_glb 3 3).same, fun a ha => Ctl.reg_glb _ _ _ _ (List.ne_of_not_mem_cons ha)⟩

/-! ### Write-back of the dirty lines (Table 2.6 step 4) -/

/-- What sending a frame leaves alone: extents and own requests. -/
structure Ctl.Transmits (c d : Ctl) : Prop where
  exts : d.exts = c.exts
  owns : d.owns = c.owns

theorem Ctl.Transmits.refl (c : Ctl) : c.Transmits c := ⟨rfl, rfl⟩
theorem Ctl.Transmits.trans {c d e : Ctl} (h : c.Transmits d) (k : d.Transmits e) : c.Transmits e :=
  ⟨k.exts.trans h.exts, k.owns.trans h.owns⟩
theorem Ctl.transmits_putPair (c : Ctl) (e : Nat) (p : Pair) : c.Transmits (c.putPair e p) := ⟨rfl, rfl⟩

theorem Ctl.transmits_setFree (c : Ctl) (n : Nat) : c.Transmits (c.setFree n) := by
  have hw : ∀ (d : Ctl) f v, d.Transmits (d.wr f v) := fun _ _ _ => ⟨rfl, rfl⟩
  obtain h | h := c.setFree_cases n <;> rw [h]
  · exact hw _ _ _
  · exact (hw _ _ _).trans (hw _ _ _)

theorem Ctl.transmits_putFq (c : Ctl) (q : Nat) (v : FlaskQ) : c.Transmits (c.putFq q v) := ⟨rfl, rfl⟩
theorem Ctl.transmits_putSched (c : Ctl) (k : Nat) (v : Sched) : c.Transmits (c.putSched k v) := ⟨rfl, rfl⟩

theorem Ctl.now_setFree (c : Ctl) (n : Nat) : (c.setFree n).now = c.now := by
  obtain h | h := c.setFree_cases n
  · rw [h, Ctl.wr_now]
  · rw [h, Ctl.wr_now, Ctl.wr_now]

/-- A frame that Flask admits. -/
theorem Ctl.transmits_takeIn {c d : Ctl} {q s : Nat} {f : Frame} (h : c.takeIn q s f = some d) : c.Transmits d := by
  unfold Ctl.takeIn Ctl.admitVia at h
  dsimp only at h
  rw [Ctl.now_setFree] at h
  split at h
  · rw [← Option.some.inj h]
    have hq := (c.transmits_setFree (c.freeF - (sharedCells ((c.fq q).len + cellsOf f) - sharedCells (c.fq q).len))).trans
      (Ctl.transmits_putFq _ q ((c.fq q).put s ((c.fq q).list s ++ [{ frame := f, cells := cellsOf f, stamp := c.now, via := none }])))
    split
    · exact hq
    · exact hq.trans (Ctl.transmits_putSched _ _ _)
  · cases h

theorem Ctl.transmits_sendFrame (c : Ctl) (f : Frame) : c.Transmits (c.sendFrame f) := by
  unfold Ctl.sendFrame
  split
  · exact Ctl.Transmits.refl c
  · dsimp only
    split
    · rename_i h
      exact Ctl.transmits_takeIn h
    · exact ⟨rfl, rfl⟩

theorem Ctl.transmits_withAck (c : Ctl) (ep : Nat) (f : Frame) : c.Transmits (c.withAck ep f).1 := by
  unfold Ctl.withAck
  dsimp only
  split
  · exact Ctl.Transmits.refl c
  · exact c.transmits_putPair _ _

theorem Ctl.transmits_sendSeq (c : Ctl) (f : Frame) (peg : Option (BitVec 16)) (grant : Option Nat) : c.Transmits (c.sendSeq f peg grant) := by
  unfold Ctl.sendSeq
  dsimp only
  split
  · exact ((c.transmits_putPair _ _).trans (Ctl.transmits_withAck _ _ _)).trans (Ctl.transmits_sendFrame _ _)
  · exact c.transmits_putPair _ _

/-- A request of the SG7's own stands among its requests once it is sent (R85). -/
theorem Ctl.sendOwn_spec (c : Ctl) (ep : Nat) (f : Frame) (why : OwnFor) : (c.sendOwn ep f why).exts = c.exts
    ∧ ∃ x : OwnReq, x.ep = ep ∧ x.why = why ∧ (c.sendOwn ep f why).owns = c.owns ++ [x] := by
  unfold Ctl.sendOwn
  dsimp only
  refine ⟨(Ctl.transmits_sendSeq _ _ _ _).exts, _, ?_, ?_, (Ctl.transmits_sendSeq _ _ _ _).owns⟩
  · rfl
  · rfl

/-- The write-back of a line is among the SG7's own requests. -/
def Ctl.WritesBack (c : Ctl) (line : Nat) : Prop := ∀ tr, keyTray (line * 128) = some tr → ∃ o ∈ c.owns, o.ep = tr ∧ ∃ n, o.why = .write n (line * 128)

/-- What one line's write-back leaves: memory, queue and extents, and the requests sent before. -/
structure State.OneLine (s t : State) : Prop where
  mem : t.mem = s.mem
  pending : t.pending = s.pending
  exts : t.ctl.exts = s.ctl.exts
  owns : ∀ o ∈ s.ctl.owns, o ∈ t.ctl.owns

theorem State.OneLine.refl (s : State) : s.OneLine s := ⟨rfl, rfl, rfl, fun _ h => h⟩
theorem State.OneLine.trans {s t u : State} (h : s.OneLine t) (k : t.OneLine u) : s.OneLine u :=
  ⟨k.mem.trans h.mem, k.pending.trans h.pending, k.exts.trans h.exts, fun o ho => k.owns o (h.owns o ho)⟩

theorem State.writeLine_spec (s : State) (line : Nat) : s.OneLine (s.writeLine line) ∧ (s.writeLine line).ctl.WritesBack line := by
  unfold State.writeLine Ctl.WritesBack
  dsimp only
  split
  · rename_i hnone
    refine ⟨State.OneLine.refl s, fun tr htr => ?_⟩
    rw [hnone] at htr
    cases htr
  · rename_i tray htray
    obtain ⟨hexts, x, hep, hwhy, howns⟩ := Ctl.sendOwn_spec s.ctl.fresh.2 tray
      (withPayload { baseFrame with kind := kWrite, tc := 1,
                                    bay := BitVec.ofNat 12 (s.ctl.fresh.2.bayOfNode (nodeAddr tray (line * 128 % 2 ^ 44))),
                                    addr := nodeAddr tray (line * 128 % 2 ^ 44) } (s.mem.read (line * 128) 128))
      (.write s.ctl.fresh.1 (line * 128))
    refine ⟨⟨rfl, rfl, hexts, fun o ho => ?_⟩, fun tr htr => ⟨x, ?_, hep.trans (Option.some.inj (htray.symm.trans htr)), _, hwhy⟩⟩
    · exact howns ▸ List.mem_append_left _ ho
    · exact howns ▸ List.mem_append_right _ (List.mem_singleton_self x)

theorem State.OneLine.writesBack {s t : State} (h : s.OneLine t) {line : Nat} (hw : s.ctl.WritesBack line) : t.ctl.WritesBack line :=
  fun tr htr => by
    obtain ⟨o, ho, rest⟩ := hw tr htr
    exact ⟨o, h.owns o ho, rest⟩

theorem State.writeLines_oneLine (l : List Nat) (s : State) : s.OneLine (l.foldl State.writeLine s) :=
  List.foldlRecOn (motive := fun t => s.OneLine t) l _ (State.OneLine.refl s) (fun t h line _ => h.trans (t.writeLine_spec line).1)

theorem shutdownWriteback_completes (s : State) (hstate : s.ctl.rd Reg.glbState = 3) (hstep : s.ctl.rd Reg.glbStep = 3) :
    Completes .shutdownWriteback s (fun t =>
    t.ctl.homeDirty = [] ∧ t.ctl.rd Reg.glbStep = 4 ∧ t.ctl.exts = s.ctl.exts ∧ Keeps s t
    ∧ (∀ line ∈ s.ctl.homeDirty, ∀ tr, keyTray (line * 128) = some tr → ∃ o ∈ t.ctl.owns, o.ep = tr ∧ ∃ n, o.why = .write n (line * 128))) := by
  have hexec : execShutdownWriteback s = done ((s.ctl.homeDirty.foldl State.writeLine s).onCtl
      (fun c => ({ c with homeDirty := [] } : Ctl).glb 3 4)) := by
    unfold execShutdownWriteback State.shutWriteback
    rw [if_pos (by simp [hstate, hstep])]
  obtain ⟨hmem, hpend, hexts, -⟩ := State.writeLines_oneLine s.ctl.homeDirty s
  have hback : ∀ line ∈ s.ctl.homeDirty, (s.ctl.homeDirty.foldl State.writeLine s).ctl.WritesBack line := fun line hl =>
    foldl_establishes (P := fun t : State => t.ctl.WritesBack line) (fun t j ht => (t.writeLine_spec j).1.writesBack ht)
      (fun t => (t.writeLine_spec line).2) _ hl s
  generalize s.ctl.homeDirty.foldl State.writeLine s = u at *
  have hw := ({ u.ctl with homeDirty := [] } : Ctl).writes_glb 3 4
  have howns : (({ u.ctl with homeDirty := [] } : Ctl).glb 3 4).owns = u.ctl.owns := (congrArg Ctl.owns hw.same :)
  refine Completes.of_done hexec ⟨(congrArg Ctl.homeDirty hw.same :), Ctl.glbStep_glb _ _ (by decide), hw.data.exts.trans hexts, ⟨hmem, hpend⟩,
    fun line hl tr htr => ?_⟩
  obtain ⟨o, ho, rest⟩ := hback line hl tr htr
  exact ⟨o, howns ▸ ho, rest⟩

/-! ### The shutdown test (Table 2.6 step 5, R487, R488) -/

/-- `d` is `c` with other unit records. -/
structure Ctl.UnitWork (c d : Ctl) : Prop where
  same : d = { c with units := d.units }

theorem Ctl.UnitWork.refl (c : Ctl) : c.UnitWork c := ⟨rfl⟩
theorem Ctl.UnitWork.trans {c d e : Ctl} (h : c.UnitWork d) (k : d.UnitWork e) : c.UnitWork e :=
  ⟨k.same.trans (congrArg (fun x : Ctl => { x with units := e.units }) h.same :)⟩

theorem Ctl.unitWork_tested (c : Ctl) (k : UnitKind) (n : Nat) (pass : Bool) : c.UnitWork (c.tested k n pass) := by
  unfold Ctl.tested
  split
  · exact ⟨rfl⟩
  · split
    · exact ⟨rfl⟩
    · exact Ctl.UnitWork.refl c

/-- The units after a test: those in quarantine judged, those of the map FAILED. -/
def Ctl.testedUnits (c : Ctl) (m : RepairMap) : Ctl :=
  m.failed.foldl (fun (d : Ctl) u => d.failUnit u.1 u.2)
    ((c.unitsIn? .quarantined).foldl (fun (d : Ctl) u => d.tested u.1 u.2 (!m.failed.contains u)) c)

theorem Ctl.unitWork_testedUnits (c : Ctl) (m : RepairMap) : c.UnitWork (c.testedUnits m) := by
  have hq : c.UnitWork ((c.unitsIn? .quarantined).foldl (fun (d : Ctl) u => d.tested u.1 u.2 (!m.failed.contains u)) c) :=
    List.foldlRecOn (motive := fun d => c.UnitWork d) _ _ (Ctl.UnitWork.refl c) (fun d h u _ => h.trans (d.unitWork_tested _ _ _))
  exact List.foldlRecOn (motive := fun d => c.UnitWork d) _ _ hq (fun d h u _ => h.trans ⟨rfl⟩)

/-- The map goes to flash. -/
def Ctl.putMap (c : Ctl) (m : RepairMap) (hs : List (BitVec 384)) : Ctl := { c with flash := { c.flash with map := m, hashes := hs } }

/-- The test's registers (BST_STATUS). -/
def Ctl.bstRegs (c : Ctl) (pass : Bool) (hs : List (BitVec 384)) : Ctl :=
  ((c.wr Reg.bstKind 1).wr Reg.bstLastPass (b2n pass)).wr Reg.bstAgree (agreeOf hs)

/-- The last three hashes. -/
def lastThree (hs : List (BitVec 384)) : List (BitVec 384) := hs.drop (hs.length - 3)

theorem length_lastThree (hs : List (BitVec 384)) : (lastThree hs).length ≤ 3 := by
  rw [lastThree, List.length_drop]
  omega

theorem mem_lastThree (hs : List (BitVec 384)) (h : BitVec 384) : h ∈ lastThree (hs ++ [h]) := by
  have hlen : (hs ++ [h]).length - 3 ≤ hs.length := by
    rw [List.length_append, List.length_singleton]
    omega
  rw [lastThree, List.drop_append_of_le_length hlen]
  exact List.mem_append_right _ (List.mem_singleton_self h)

/-- The control records after a test, before the step moves. -/
def Ctl.testDone (c : Ctl) (items : List RepairItem) : Ctl :=
  let m := c.newMap items
  let hs := lastThree (c.flash.hashes ++ [m.hash])
  let d := ((c.testedUnits m).putMap m hs).bstRegs (m.failed.isEmpty && m.exhausted = 0 && !items.contains .moduleFault) hs
  if items.contains .moduleFault then d.moduleReplace else d

theorem Ctl.shutTested_on {c : Ctl} (items : List RepairItem) (hstate : c.rd Reg.glbState = 3) (hstep : c.rd Reg.glbStep = 4)
    (htest : c.pwr.shutTest = true) : c.shutTested items = (c.testDone items).glb 3 5 :=
  if_pos (by simp [hstate, hstep, htest])

theorem Ctl.testDone_spec (c : Ctl) (items : List RepairItem) : (c.testDone items).flash.map = c.newMap items
    ∧ (c.testDone items).flash.hashes = lastThree (c.flash.hashes ++ [(c.newMap items).hash]) ∧ (c.testDone items).fuses = c.fuses := by
  unfold Ctl.testDone
  dsimp only
  generalize c.newMap items = m
  generalize (m.failed.isEmpty && decide (m.exhausted = 0) && !items.contains .moduleFault) = pass
  generalize lastThree (c.flash.hashes ++ [m.hash]) = hs
  have hunits := c.unitWork_testedUnits m
  generalize c.testedUnits m = u at hunits
  have hw : (u.putMap m hs).Writes ((u.putMap m hs).bstRegs pass hs) :=
    ((((Ctl.Writes.refl _).wr Reg.bstKind 1).wr Reg.bstLastPass _).wr Reg.bstAgree _)
  have hlog : ((u.putMap m hs).bstRegs pass hs).Logs (if items.contains .moduleFault then ((u.putMap m hs).bstRegs pass hs).moduleReplace
      else (u.putMap m hs).bstRegs pass hs) := by
    split
    · exact Ctl.logs_moduleReplace _
    · exact Ctl.Logs.refl _
  have hflash := hlog.flash.trans hw.aux.flash
  exact ⟨congrArg Flash.map hflash, congrArg Flash.hashes hflash, (hlog.fuses.trans hw.aux.fuses).trans (congrArg Ctl.fuses hunits.same :)⟩

theorem shutdownTest_completes (map : List RepairItem) (s : State) (hstate : s.ctl.rd Reg.glbState = 3) (hstep : s.ctl.rd Reg.glbStep = 4)
    (htest : s.ctl.pwr.shutTest = true) : Completes (.shutdownTest map) s (fun t =>
    t.ctl.rd Reg.glbStep = 5 ∧ t.ctl.flash.map = s.ctl.newMap map ∧ t.ctl.flash.hashes.length ≤ 3
    ∧ (s.ctl.newMap map).hash ∈ t.ctl.flash.hashes ∧ t.ctl.fuses = s.ctl.fuses ∧ Keeps s t) := by
  obtain ⟨hmap, hhashes, hfuses⟩ := s.ctl.testDone_spec map
  have haux := ((s.ctl.testDone map).writes_glb 3 5).aux
  have hhs := (congrArg Flash.hashes haux.flash).trans hhashes
  exact Completes.onCtl rfl (Ctl.shutTested_on map hstate hstep htest) ⟨Ctl.glbStep_glb _ _ (by decide), (congrArg Flash.map haux.flash).trans hmap,
    hhs ▸ length_lastThree _, hhs ▸ mem_lastThree _ _, haux.fuses.trans hfuses, rfl, rfl⟩

/-! ### MAIN switches off (Table 2.6 steps 6 and 7) -/

/-- After an orderly power-down Jorren may wait for POWER_ON; PWR_EN is down. -/
def Ctl.shutWait (c : Ctl) : Ctl := c.waitIfManual.setPwr { c.pwr with pwrEn := false, shutTest := false }

theorem Ctl.keepsAux_shutWait (c : Ctl) : c.KeepsAux c.shutWait := c.writes_waitIfManual.aux.trans (Ctl.keepsAux_setPwr _ _)

theorem Ctl.rd_shutWait (c : Ctl) (g : Fld) (h : Reg.glbWaitOn.apart g = true) : c.shutWait.rd g = c.rd g :=
  (Ctl.setPwr_rd _ _ _).trans (c.rd_waitIfManual g h)

theorem Ctl.waitOn_shutWait {c : Ctl} (h : c.rd Reg.autoOn = 0) : c.shutWait.rd Reg.glbWaitOn = 1 := by
  rw [Ctl.shutWait, Ctl.setPwr_rd, Ctl.waitIfManual, if_pos h]
  exact Ctl.rd_wr_fits _ _ _ (by decide) (by decide)

theorem State.shutOff_on {s : State} (hstate : s.ctl.rd Reg.glbState = 3) (hstep : s.ctl.rd Reg.glbStep = (if s.ctl.pwr.shutTest then 5 else 4))
    (howns : s.ctl.owns = []) : s.shutOff = ((s.onCtl (·.flushLog)).mainOff 0 1).onCtl Ctl.shutWait :=
  if_pos (by simp [hstate, hstep, howns])

theorem shutdownMainOff_completes (s : State) (hstate : s.ctl.rd Reg.glbState = 3)
    (hstep : s.ctl.rd Reg.glbStep = (if s.ctl.pwr.shutTest then 5 else 4)) (howns : s.ctl.owns = []) : Completes .shutdownMainOff s (fun t =>
    MainGone t ∧ t.ctl.rd Reg.glbState = 0 ∧ t.ctl.rd Reg.glbOffCause = 1 ∧ t.ctl.pwr.pwrEn = false
    ∧ (s.ctl.rd Reg.autoOn = 0 → t.ctl.rd Reg.glbWaitOn = 1) ∧ t.ctl.flash = s.ctl.flash ∧ t.ctl.fuses = s.ctl.fuses) := by
  have hexec : execShutdownMainOff s = done (((s.onCtl (·.flushLog)).mainOff 0 1).onCtl Ctl.shutWait) := by
    unfold execShutdownMainOff
    rw [State.shutOff_on hstate hstep howns]
  refine Completes.of_done hexec ?_
  have hempty := (s.onCtl (·.flushLog)).mainOff_emptied 0 1
  have haux := (s.onCtl (·.flushLog)).mainOff_keepsAux 0 1
  have hauto := (s.onCtl (·.flushLog)).rd_mainOff 0 1 Reg.autoOn (by decide) (by decide)
  have hst := (s.onCtl (·.flushLog)).glbState_mainOff (st := 0) 1 (by decide)
  have hoff := (s.onCtl (·.flushLog)).glbOffCause_mainOff 0 (off := 1) (by decide)
  have hgone : MainGone (((s.onCtl (·.flushLog)).mainOff 0 1).onCtl Ctl.shutWait) :=
    MainGone.mainOff (.inl rfl) (State.onCtl_mem _ _) ((hempty.writes (Ctl.writes_waitIfManual _)).setPwr _) (Ctl.rd_shutWait _ _ (by decide))
  rw [State.onCtl_ctl] at haux hauto ⊢
  have hwait := Ctl.keepsAux_shutWait ((s.onCtl (·.flushLog)).mainOff 0 1).ctl
  refine ⟨hgone, (Ctl.rd_shutWait _ _ (by decide)).trans hst, (Ctl.rd_shutWait _ _ (by decide)).trans hoff, rfl, fun h => ?_,
    (hwait.flash.trans haux.flash).trans (Ctl.flushLog_flash _), (hwait.fuses.trans haux.fuses).trans (Ctl.flushLog_fuses _)⟩
  exact Ctl.waitOn_shutWait ((hauto.trans (Ctl.rd_flushLog _ _ (by decide))).trans h)

/-! ### FUSE_REPAIR and THERM_CLEAR (R489, R52) -/

/-- The current map's repairs are burnt. -/
def Ctl.burnRepairs (c : Ctl) : Ctl :=
  { c with fuses := { c.fuses with repairs := c.fuses.repairs + c.flash.map.repairs },
           flash := { c.flash with map := { c.flash.map with repairs := 0 } } }

theorem fuseRepair_completes (sid : Nat) (s : State) (hrun : s.ctl.jmpRuns sid 0x51 = true) (hagree : 3 ≤ agreeOf s.ctl.flash.hashes)
    (hroom : s.ctl.fuses.repairs + s.ctl.flash.map.repairs ≤ 4096) : Completes (.fuseRepair sid) s (fun t =>
    t.ctl.fuses = { s.ctl.fuses with repairs := s.ctl.fuses.repairs + s.ctl.flash.map.repairs } ∧ Answered s t sid 0
    ∧ Only s t (fun c => { c with fuses := t.ctl.fuses, flash := t.ctl.flash, sessions := t.ctl.sessions, out := t.ctl.out })) := by
  have hexec : execFuseRepair sid s = done { s with ctl := s.ctl.burnRepairs.reply sid (ans rOK) } := by
    unfold execFuseRepair
    refine congrArg done (State.jmpCtl_runs hrun ?_)
    dsimp only
    rw [if_neg (by omega), if_neg (by omega)]
    rfl
  have hsame := s.ctl.burnRepairs.reply_same sid (ans rOK)
  refine Completes.of_done hexec ⟨(congrArg Ctl.fuses hsame :), Answered.of_reply (c := s.ctl.burnRepairs) (a := ans rOK) hrun rfl rfl rfl, ?_⟩
  have hfuses : (s.ctl.burnRepairs.reply sid (ans rOK)).fuses = s.ctl.burnRepairs.fuses := (congrArg Ctl.fuses hsame :)
  have hflash : (s.ctl.burnRepairs.reply sid (ans rOK)).flash = s.ctl.burnRepairs.flash := (congrArg Ctl.flash hsame :)
  unfold Only
  rw [hfuses, hflash]
  exact congrArg (fun c : Ctl => { s with ctl := c }) hsame

theorem thermClear_completes (sid : Nat) (s : State) (hrun : s.ctl.jmpRuns sid 0x14 = true)
    (hcool : ∀ i, i < 96 → signed 16 (s.ctl.rd (Reg.snsTemp i)) < 800) : Completes (.thermClear sid) s (fun t =>
    t.ctl.rd Reg.thermTrip = 0 ∧ Answered s t sid 0
    ∧ Only s t (fun c => { c with regs := t.ctl.regs, sessions := t.ctl.sessions, out := t.ctl.out })) := by
  have hnone : (List.range 96).any (fun t => decide (800 ≤ signed 16 (s.ctl.rd (Reg.snsTemp t)))) = false := by
    rw [List.any_eq_false]
    intro i hi
    have := hcool i (List.mem_range.mp hi)
    rw [decide_eq_true_eq]
    omega
  have hexec : execThermClear sid s = done { s with ctl := (s.ctl.wr Reg.thermTrip 0).reply sid (ans rOK) } := by
    unfold execThermClear
    refine congrArg done (State.jmpCtl_runs hrun ?_)
    rw [hnone, if_neg (by decide)]
  have hsame := (s.ctl.wr Reg.thermTrip 0).reply_same sid (ans rOK)
  have haux := (s.ctl.writes_wr Reg.thermTrip 0).aux
  refine Completes.of_done hexec ⟨(Ctl.reply_rd _ _ _ _).trans (Ctl.rd_wr_fits _ _ _ (by decide) (by decide)),
    Answered.of_reply (c := s.ctl.wr Reg.thermTrip 0) (a := ans rOK) hrun haux.sessions haux.out rfl, ?_⟩
  unfold Only
  rw [Ctl.reply_regs]
  exact congrArg (fun c : Ctl => { s with ctl := c }) hsame

/-- Settles O8, step by step. It rests on log entries 104 and 111, as the statement says. -/
theorem powerDown : Obligations.PowerDown := by
  unfold Obligations.PowerDown
  exact ⟨powerOn_completes, shutdown_completes, shutdownQuiesce_completes, shutdownWriteback_completes, shutdownTest_completes,
    shutdownMainOff_completes, fuseRepair_completes, thermClear_completes⟩

end Sys2Proof.Machine

namespace Sys2Proof.Machine

/-! ### The level bits of GLB_ALERT_PEND (Table 20.7, R482) -/

/-- The stored word with its five level bits as their conditions are. -/
def levelWord (x : Nat) (b6 b7 b8 b9 b10 : Bool) : Nat :=
  x - field x 6 5 * 2 ^ 6 + (if b6 then 2 ^ 6 else 0) + (if b7 then 2 ^ 7 else 0) + (if b8 then 2 ^ 8 else 0)
    + (if b9 then 2 ^ 9 else 0) + (if b10 then 2 ^ 10 else 0)

theorem Ctl.alertWord_eq (c : Ctl) : c.alertWord = BitVec.ofNat 64 (levelWord (c.reg Reg.alertPendAddr).toNat (c.rd Reg.thermTrip == 1)
    c.coolantHigh c.optLow (3 ≤ c.pwr.coolMiss) (c.rd Reg.capActive == 1)) := rfl

theorem b2n_eq_one (b : Bool) : decide (b2n b = 1) = b := by cases b <;> rfl

/-- The bits 7, 8 and 9 of the word's arithmetic. -/
theorem levelBits {x n6 n7 n8 n9 n10 : Nat} (hx : x < 2 ^ 64) (h6 : n6 < 2) (h7 : n7 < 2) (h8 : n8 < 2) (h9 : n9 < 2) :
    let y := (x - x / 2 ^ 6 % 2 ^ 5 * 2 ^ 6 + n6 * 2 ^ 6 + n7 * 2 ^ 7 + n8 * 2 ^ 8 + n9 * 2 ^ 9 + n10 * 2 ^ 10) % 2 ^ 64
    y / 2 ^ 7 % 2 = n7 ∧ y / 2 ^ 8 % 2 = n8 ∧ y / 2 ^ 9 % 2 = n9 := by
  intro y
  omega

theorem bitOf_levelWord {x : Nat} (hx : x < 2 ^ 64) (b6 b7 b8 b9 b10 : Bool) :
    bitOf (BitVec.ofNat 64 (levelWord x b6 b7 b8 b9 b10)).toNat 7 = b7
    ∧ bitOf (BitVec.ofNat 64 (levelWord x b6 b7 b8 b9 b10)).toNat 8 = b8
    ∧ bitOf (BitVec.ofNat 64 (levelWord x b6 b7 b8 b9 b10)).toNat 9 = b9 := by
  have hif : ∀ (b : Bool) (n : Nat), (if b then n else 0) = b2n b * n := fun b n => by cases b <;> simp [b2n]
  obtain ⟨h7, h8, h9⟩ := levelBits hx (b2n_lt b6) (b2n_lt b7) (b2n_lt b8) (b2n_lt b9) (n10 := b2n b10)
  simp only [levelWord, hif, field, bitOf, BitVec.toNat_ofNat]
  rw [h7, h8, h9]
  exact ⟨b2n_eq_one b7, b2n_eq_one b8, b2n_eq_one b9⟩

/-- Bits 7, 8 and 9 are the conditions of R482. -/
theorem Ctl.bitOf_alertWord (c : Ctl) : bitOf c.alertWord.toNat 7 = c.coolantHigh ∧ bitOf c.alertWord.toNat 8 = c.optLow
    ∧ bitOf c.alertWord.toNat 9 = decide (3 ≤ c.pwr.coolMiss) := by
  rw [Ctl.alertWord_eq]
  exact bitOf_levelWord (BitVec.isLt _) _ _ _ _ _

/-! ### SENSOR_LIMIT (R482) -/

/-- The event for one condition, where it became true. -/
def Ctl.limitEvent (c : Ctl) (before now i : Nat) : Ctl :=
  if bitOf now i && !bitOf before i then c.event evSensorLimit [i] else c

theorem Ctl.sensorSample_eq (c : Ctl) (x : SensorSel) (v : Nat) : c.sensorSample x v =
    (((c.sampled x v).limitEvent c.alertWord.toNat (c.sampled x v).alertWord.toNat 7).limitEvent
      c.alertWord.toNat (c.sampled x v).alertWord.toNat 8).limitEvent c.alertWord.toNat (c.sampled x v).alertWord.toNat 9 := rfl

theorem Ctl.posts_limitEvent (c : Ctl) (before now i : Nat) : c.Posts (c.limitEvent before now i) := by
  unfold Ctl.limitEvent
  split
  · exact c.posts_event _ _
  · exact Ctl.Posts.refl c

theorem Ctl.evseq_lt_limitEvent (c : Ctl) {before now i : Nat} (hnow : bitOf now i = true) (hbefore : bitOf before i = false) :
    c.evseq < (c.limitEvent before now i).evseq := by
  rw [Ctl.limitEvent, if_pos (by simp [hnow, hbefore])]
  exact c.evseq_lt_event _ _

/-- With no change of the alert word no event goes out. -/
theorem Ctl.limitEvent_same (c : Ctl) (w i : Nat) : c.limitEvent w w i = c := by
  simp only [Ctl.limitEvent, Bool.and_not_self, Bool.false_eq_true, if_false]

theorem Ctl.posts_sensorSample (c : Ctl) (x : SensorSel) (v : Nat) : (c.sampled x v).Posts (c.sensorSample x v) :=
  ((Ctl.posts_limitEvent _ _ _ 7).trans (Ctl.posts_limitEvent _ _ _ 8)).trans (Ctl.posts_limitEvent _ _ _ 9)

/-- A condition that became true takes an EVSEQ. -/
theorem Ctl.evseq_lt_sensorSample (c : Ctl) (x : SensorSel) (v : Nat) {i : Nat} (hi : i = 7 ∨ i = 8 ∨ i = 9)
    (hnow : bitOf (c.sampled x v).alertWord.toNat i = true) (hbefore : bitOf c.alertWord.toNat i = false) :
    (c.sampled x v).evseq < (c.sensorSample x v).evseq := by
  rw [Ctl.sensorSample_eq]
  have h7 := (c.sampled x v).posts_limitEvent c.alertWord.toNat (c.sampled x v).alertWord.toNat 7
  have h8 := Ctl.posts_limitEvent ((c.sampled x v).limitEvent c.alertWord.toNat (c.sampled x v).alertWord.toNat 7)
    c.alertWord.toNat (c.sampled x v).alertWord.toNat 8
  obtain rfl | rfl | rfl := hi
  · exact (Ctl.evseq_lt_limitEvent _ hnow hbefore).trans_le (h8.trans (Ctl.posts_limitEvent _ _ _ 9)).evseq
  · exact (h7.evseq.trans_lt (Ctl.evseq_lt_limitEvent _ hnow hbefore)).trans_le (Ctl.posts_limitEvent _ _ _ 9).evseq
  · exact (h7.trans h8).evseq.trans_lt (Ctl.evseq_lt_limitEvent _ hnow hbefore)

theorem Ctl.sensorSample_quiet {c : Ctl} {x : SensorSel} {v : Nat} (h : (c.sampled x v).alertWord = c.alertWord) :
    c.sensorSample x v = c.sampled x v := by
  rw [Ctl.sensorSample_eq, h, Ctl.limitEvent_same, Ctl.limitEvent_same, Ctl.limitEvent_same]

/-! ### Samples that no limit of R482 looks at -/

/-- A table's entries under a key of which nothing holds do not matter to whether something holds of any entry. -/
theorem Tab.any_put {α : Type} (t : Tab α) (k : Nat) (v : α) (P : Nat × α → Bool) (h : ∀ w, P (k, w) = false) : (Tab.put t k v).any P = t.any P := by
  induction t with
  | nil => simp [Tab.put, h]
  | cons e t ih =>
    obtain ⟨j, w⟩ := e
    unfold Tab.put
    split
    · simp [h]
    · split
      · rename_i hkj
        simp [← hkj, h]
      · simp [ih]

theorem Tab.any_del {α : Type} (t : Tab α) (k : Nat) (P : Nat × α → Bool) (h : ∀ w, P (k, w) = false) : (Tab.del t k).any P = t.any P := by
  rw [Tab.del, List.any_filter]
  congr 1
  funext e
  obtain ⟨j, w⟩ := e
  by_cases hj : j = k
  · simp [hj, h]
  · simp [hj]

theorem Ctl.any_putReg (c : Ctl) (a : Nat) (v : Word) (P : Nat × Word → Bool) (h : ∀ w, P (a, w) = false) :
    (c.putReg a v).regs.any P = c.regs.any P := by
  unfold Ctl.putReg Tab.set
  dsimp only
  split
  · exact Tab.any_del _ _ _ h
  · exact Tab.any_put _ _ _ _ h

/-- A lane that carries traffic and receives too little, by its register's entry (R482). -/
def Ctl.lowLane (c : Ctl) (e : Nat × Word) : Bool :=
  inArray e.1 0x10403000 8 520 0 && decide (signed 16 (field e.2.toNat 16 16) < signed 16 (c.rd Reg.optMin)) && c.laneCarries ((e.1 - 0x10403000) / 8)

theorem Ctl.optLow_eq (c : Ctl) : c.optLow = c.regs.any c.lowLane := rfl

/-- Of the control records the sub-ports, the limit and the control ports' states decide it. -/
theorem Ctl.lowLane_congr {c d : Ctl} (hsubs : d.subs = c.subs) (hmin : d.rd Reg.optMin = c.rd Reg.optMin)
    (h0 : d.rd (Reg.ctlState 0) = c.rd (Reg.ctlState 0)) (h1 : d.rd (Reg.ctlState 1) = c.rd (Reg.ctlState 1)) : d.lowLane = c.lowLane := by
  funext e
  unfold Ctl.lowLane
  by_cases hin : inArray e.1 0x10403000 8 520 0 = true
  · have hcarry : d.laneCarries ((e.1 - 0x10403000) / 8) = c.laneCarries ((e.1 - 0x10403000) / 8) := by
      have hlane : (e.1 - 0x10403000) / 8 < 520 := by
        simp only [inArray, Bool.and_eq_true, decide_eq_true_eq] at hin
        omega
      unfold Ctl.laneCarries
      split
      · simp only [Ctl.sub, hsubs]
      · have hport : ((e.1 - 0x10403000) / 8 - 512) / 4 = 0 ∨ ((e.1 - 0x10403000) / 8 - 512) / 4 = 1 := by omega
        obtain hp | hp := hport <;> rw [hp, Ctl.ctlIsUp, Ctl.ctlIsUp]
        · rw [h0]
        · rw [h1]
    rw [hmin, hcarry]
  · rw [Bool.not_eq_true] at hin
    simp only [hin, Bool.false_and]

/-- The fields that the alert word's level bits look at, but for the received powers. -/
def limitFields : List Fld :=
  [Reg.thermTrip, Reg.capActive, Reg.coolant, Reg.coolantValid, Reg.coolantMax, Reg.optMin, Reg.ctlState 0, Reg.ctlState 1]

/-- A write that shares no bit with those and is no optical power leaves the alert word as it was. -/
theorem Ctl.alertWord_wr (c : Ctl) (f : Fld) (v : Nat) (hfit : f.lo + f.w ≤ 64) (hpend : f.addr ≠ 0x100)
    (hopt : inArray f.addr 0x10403000 8 520 0 = false) (h : ∀ g ∈ limitFields, f.apart g = true) : (c.wr f v).alertWord = c.alertWord := by
  have hrd : ∀ g ∈ limitFields, (c.wr f v).rd g = c.rd g := fun g hg => by
    have := (Fld.apart_iff _ _).mp (h g hg)
    exact Ctl.rd_wr_apart _ _ _ _ hfit (by tauto)
  simp only [limitFields, List.forall_mem_cons] at hrd
  obtain ⟨htrip, hcap, hcool, hvalid, hmax, hmin, h0, h1, -⟩ := hrd
  have hreg : (c.wr f v).reg Reg.alertPendAddr = c.reg Reg.alertPendAddr := Ctl.reg_wr_ne _ _ _ _ hpend.symm
  have hlow : (c.wr f v).optLow = c.optLow := by
    rw [Ctl.optLow_eq, Ctl.optLow_eq, Ctl.lowLane_congr (Ctl.wr_subs _ _ _) hmin h0 h1]
    exact Ctl.any_putReg _ _ _ _ (fun w => by rw [Ctl.lowLane, hopt, Bool.false_and, Bool.false_and])
  rw [Ctl.alertWord_eq, Ctl.alertWord_eq, hreg, hlow, Ctl.wr_pwr, htrip, hcap]
  unfold Ctl.coolantHigh
  rw [hcool, hvalid, hmax]

/-- The registers of the temperatures, rails and converters. -/
def siteReg (a : Nat) : Prop := 0x10400000 ≤ a ∧ a < 0x10400F00 ∨ 0x10401000 ≤ a ∧ a < 0x10403000

theorem Ctl.alertWord_wr_site (c : Ctl) (f : Fld) (v : Nat) (hfit : f.lo + f.w ≤ 64) (h : siteReg f.addr) : (c.wr f v).alertWord = c.alertWord := by
  unfold siteReg at h
  refine c.alertWord_wr f v hfit (by omega) ?_ fun g hg => (Fld.apart_iff _ _).mpr (.inl ?_)
  · simp only [inArray, Bool.and_eq_false_iff, decide_eq_false_iff_not]
    omega
  · have haddr : g.addr = 0x01001000 ∨ g.addr = 0x10404000 ∨ g.addr = 0x10400F00 ∨ g.addr = 0x03000000 ∨ g.addr = 0x03000100 :=
      (show ∀ g ∈ limitFields, g.addr = 0x01001000 ∨ g.addr = 0x10404000 ∨ g.addr = 0x10400F00 ∨ g.addr = 0x03000000 ∨ g.addr = 0x03000100 by
        decide) g hg
    omega

/-- Writes of one register change the registers, and of those that one. -/
theorem onlyRegs_writes {s : State} {c : Ctl} {a : Nat} (h : s.ctl.Writes c) (hregs : ∀ b, b ≠ a → c.reg b = s.ctl.reg b) :
    OnlyRegs [a] s { s with ctl := c } :=
  ⟨congrArg (fun c : Ctl => { s with ctl := c }) h.same, fun b hb => hregs b (List.ne_of_not_mem_cons hb)⟩

/-- A sample that is stored and that no limit looks at. -/
theorem storedSample_completes {x : SensorSel} {f : Fld} (v : BitVec 32) (s : State) (hx : s.ctl.sampled x v.toNat = s.ctl.wr f (v.toNat % 65536))
    (hfit : f.lo + 16 ≤ 64) (hw : f.w = 16) (hq : (s.ctl.wr f (v.toNat % 65536)).alertWord = s.ctl.alertWord) :
    Completes (.sensorSample x v) s (fun t => t.ctl.rd f = v.toNat % 65536 ∧ OnlyRegs [f.addr] s t) := by
  refine Completes.onCtl rfl ((Ctl.sensorSample_quiet (hx ▸ hq)).trans hx)
    ⟨Ctl.rd_wr_fits _ _ _ (hw ▸ hfit) ?_, onlyRegs_writes (s.ctl.writes_wr _ _) (fun b hb => Ctl.reg_wr_ne _ _ _ _ hb)⟩
  rw [hw]
  exact Nat.mod_lt _ (by decide)

theorem Ctl.tempSample_spec (c : Ctl) (i v : Nat) (hi : i < 104) (hv : v < 65536) : (c.tempSample i v).rd (Reg.snsTemp i) = v
    ∧ (c.tempSample i v).rd (Reg.snsTempMax i)
      = (if signed 16 (c.rd (Reg.snsTempMax i)) < signed 16 v then v else c.rd (Reg.snsTempMax i))
    ∧ (c.tempSample i v).alertWord = c.alertWord ∧ c.Writes (c.tempSample i v)
    ∧ ∀ a, a ≠ (Reg.snsTemp i).addr → (c.tempSample i v).reg a = c.reg a := by
  have hmax : (c.wr (Reg.snsTemp i) v).rd (Reg.snsTempMax i) = c.rd (Reg.snsTempMax i) :=
    Ctl.rd_wr_apart _ _ _ _ (show 0 + 16 ≤ 64 by decide) (.inr (.inr (show 0 + 16 ≤ 16 by decide)))
  have htemp : (c.wr (Reg.snsTemp i) v).rd (Reg.snsTemp i) = v := Ctl.rd_wr_fits _ _ _ (show 0 + 16 ≤ 64 by decide) hv
  have hsite : siteReg (Reg.snsTemp i).addr := by
    simp only [siteReg, Reg.snsTemp]
    omega
  have hword := c.alertWord_wr_site (Reg.snsTemp i) v (show 0 + 16 ≤ 64 by decide) hsite
  have hregs : ∀ a, a ≠ (Reg.snsTemp i).addr → (c.wr (Reg.snsTemp i) v).reg a = c.reg a := fun a ha => Ctl.reg_wr_ne _ _ _ _ ha
  unfold Ctl.tempSample
  dsimp only
  rw [hmax]
  split
  · refine ⟨?_, Ctl.rd_wr_fits _ _ _ (show 16 + 16 ≤ 64 by decide) hv, ?_, (c.writes_wr _ _).wr _ _, fun a ha => ?_⟩
    · exact (Ctl.rd_wr_apart _ (Reg.snsTempMax i) _ _ (show 16 + 16 ≤ 64 by decide) (.inr (.inl (show 0 + 16 ≤ 16 by decide)))).trans htemp
    · exact (Ctl.alertWord_wr_site _ (Reg.snsTempMax i) v (show 16 + 16 ≤ 64 by decide) hsite).trans hword
    · exact (Ctl.reg_wr_ne _ (Reg.snsTempMax i) _ _ ha).trans (hregs a ha)
  · exact ⟨htemp, hmax, hword, c.writes_wr _ _, hregs⟩

theorem temp_completes (i : Fin 104) (v : BitVec 32) (s : State) :
    let w := v.toNat % 65536
    Completes (.sensorSample (.temp i) v) s (fun t =>
    t.ctl.rd (Reg.snsTemp i.val) = w
    ∧ t.ctl.rd (Reg.snsTempMax i.val) = (if signed 16 (s.ctl.rd (Reg.snsTempMax i.val)) < signed 16 w then w else s.ctl.rd (Reg.snsTempMax i.val))
    ∧ OnlyRegs [(Reg.snsTemp i.val).addr] s t) := by
  intro w
  obtain ⟨htemp, hmax, hword, hw, hregs⟩ := s.ctl.tempSample_spec i.val w i.isLt (Nat.mod_lt _ (by decide))
  exact Completes.onCtl rfl (Ctl.sensorSample_quiet (x := .temp i) (v := v.toNat) hword) ⟨htemp, hmax, onlyRegs_writes hw hregs⟩

theorem rail_completes (r : Fin 13) (v : BitVec 32) (s : State) : Completes (.sensorSample (.rail r) v) s (fun t =>
    t.ctl.rd (Reg.snsRail r.val) = v.toNat % 65536 ∧ OnlyRegs [(Reg.snsRail r.val).addr] s t) :=
  storedSample_completes v s rfl (show 0 + 16 ≤ 64 by decide) rfl (Ctl.alertWord_wr_site _ _ _ (show 0 + 16 ≤ 64 by decide) (by
    simp only [siteReg, Reg.snsRail]
    omega))

theorem conv_completes (k : Fin 9) (v : BitVec 32) (s : State) : Completes (.sensorSample (.conv k) v) s (fun t =>
    t.ctl.rd (Reg.snsConv k.val) = v.toNat % 65536 ∧ OnlyRegs [(Reg.snsConv k.val).addr] s t) :=
  storedSample_completes v s rfl (show 0 + 16 ≤ 64 by decide) rfl (Ctl.alertWord_wr_site _ _ _ (show 0 + 16 ≤ 64 by decide) (by
    simp only [siteReg, Reg.snsConv]
    omega))

theorem inputPower_completes (v : BitVec 32) (s : State) : Completes (.sensorSample .inputPower v) s (fun t =>
    t.ctl.rd Reg.inputW = v.toNat % 65536 ∧ OnlyRegs [Reg.inputW.addr] s t) :=
  storedSample_completes v s rfl (by decide) rfl (Ctl.alertWord_wr _ _ _ (by decide) (by decide) (by decide) (by decide))

theorem mainCurrent_completes (v : BitVec 32) (s : State) : Completes (.sensorSample .mainCurrent v) s (fun t =>
    t.ctl.rd Reg.mainI = v.toNat % 65536 ∧ OnlyRegs [Reg.mainI.addr] s t) :=
  storedSample_completes v s rfl (by decide) rfl (Ctl.alertWord_wr _ _ _ (by decide) (by decide) (by decide) (by decide))

/-! ### Samples that a limit of R482 looks at -/

/-- A sample that is stored in a field of 16 bits, and the events it may bring. -/
theorem Ctl.limitSample_spec {x : SensorSel} {f : Fld} (c : Ctl) (v : Nat) (hx : c.sampled x v = c.wr f (v % 65536)) (hfit : f.lo + 16 ≤ 64)
    (hw : f.w = 16) : (c.sensorSample x v).rd f = v % 65536
    ∧ (∀ g : Fld, f.apart g = true → (c.sensorSample x v).rd g = c.rd g)
    ∧ ∀ a, a ≠ f.addr → (c.sensorSample x v).reg a = c.reg a := by
  have hpost := c.posts_sensorSample x v
  rw [hx] at hpost
  have hfit' : f.lo + f.w ≤ 64 := hw ▸ hfit
  refine ⟨(hpost.rd _).trans (Ctl.rd_wr_fits _ _ _ hfit' ?_), fun g hg => ?_, fun a ha => (hpost.reg a).trans (Ctl.reg_wr_ne _ _ _ _ ha)⟩
  · rw [hw]
    exact Nat.mod_lt _ (by decide)
  · have := (Fld.apart_iff _ _).mp hg
    exact (hpost.rd g).trans (Ctl.rd_wr_apart _ _ _ _ hfit' (by tauto))

theorem optTx_completes (l : Fin 520) (v : BitVec 32) (s : State) : Completes (.sensorSample (.optTx l) v) s (fun t =>
    t.ctl.rd (Reg.snsOptTx l.val) = v.toNat % 65536 ∧ t.ctl.rd (Reg.snsOptRx l.val) = s.ctl.rd (Reg.snsOptRx l.val)
    ∧ RegsBut [(Reg.snsOptTx l.val).addr] s t ∧ Keeps s t) := by
  obtain ⟨hrd, hapart, hregs⟩ := Ctl.limitSample_spec (x := .optTx l) (f := Reg.snsOptTx l.val) s.ctl v.toNat rfl (show 0 + 16 ≤ 64 by decide) rfl
  exact Completes.onCtl rfl rfl ⟨hrd, hapart _ ((Fld.apart_iff _ _).mpr (.inr (.inl (show 0 + 16 ≤ 16 by decide)))),
    fun a ha => hregs a (List.ne_of_not_mem_cons ha), rfl, rfl⟩

/-- Events leave the conditions of R482 as they are. -/
theorem Ctl.Posts.optLow {c d : Ctl} (h : c.Posts d) : d.optLow = c.optLow := (congrArg Ctl.optLow h.same :)
theorem Ctl.Posts.coolantHigh {c d : Ctl} (h : c.Posts d) : d.coolantHigh = c.coolantHigh := (congrArg Ctl.coolantHigh h.same :)
theorem Ctl.Posts.pwr {c d : Ctl} (h : c.Posts d) : d.pwr = c.pwr := (congrArg Ctl.pwr h.same :)

theorem optRx_completes (l : Fin 520) (v : BitVec 32) (s : State) : Completes (.sensorSample (.optRx l) v) s (fun t =>
    t.ctl.rd (Reg.snsOptRx l.val) = v.toNat % 65536 ∧ t.ctl.rd (Reg.snsOptTx l.val) = s.ctl.rd (Reg.snsOptTx l.val)
    ∧ RegsBut [(Reg.snsOptRx l.val).addr] s t ∧ (s.ctl.optLow = false → t.ctl.optLow = true → s.ctl.evseq < t.ctl.evseq) ∧ Keeps s t) := by
  obtain ⟨hrd, hapart, hregs⟩ := Ctl.limitSample_spec (x := .optRx l) (f := Reg.snsOptRx l.val) s.ctl v.toNat rfl (show 16 + 16 ≤ 64 by decide) rfl
  have hpost := s.ctl.posts_sensorSample (.optRx l) v.toNat
  refine Completes.onCtl rfl rfl ⟨hrd, hapart _ ((Fld.apart_iff _ _).mpr (.inr (.inr (show 0 + 16 ≤ 16 by decide)))),
    fun a ha => hregs a (List.ne_of_not_mem_cons ha), fun hbefore hnow => ?_, rfl, rfl⟩
  obtain ⟨-, h8, -⟩ := s.ctl.bitOf_alertWord
  obtain ⟨-, h8', -⟩ := (s.ctl.sampled (.optRx l) v.toNat).bitOf_alertWord
  exact s.ctl.evseq_lt_sensorSample (.optRx l) v.toNat (.inr (.inl rfl)) (h8'.trans (hpost.optLow.symm.trans hnow)) (h8.trans hbefore)

/-- What the coolant's sample stores. -/
theorem Ctl.sampled_coolant (c : Ctl) (v : Nat) :
    c.sampled .coolant v = ((c.wr Reg.coolant (v % 65536)).wr Reg.coolantValid 1).setPwr { c.pwr with coolMiss := 0 } := rfl

theorem coolant_completes (v : BitVec 32) (s : State) : Completes (.sensorSample .coolant v) s (fun t =>
    t.ctl.rd Reg.coolant = v.toNat % 65536 ∧ t.ctl.rd Reg.coolantValid = 1 ∧ t.ctl.pwr = { s.ctl.pwr with coolMiss := 0 }
    ∧ RegsBut [Reg.coolant.addr] s t ∧ (s.ctl.coolantHigh = false → t.ctl.coolantHigh = true → s.ctl.evseq < t.ctl.evseq) ∧ Keeps s t) := by
  have hpost := s.ctl.posts_sensorSample .coolant v.toNat
  have hseq : (s.ctl.sampled .coolant v.toNat).evseq = s.ctl.evseq := by
    rw [Ctl.sampled_coolant, Ctl.setPwr_evseq, Ctl.wr_evseq, Ctl.wr_evseq]
  have hrd : ∀ f, (s.ctl.sensorSample .coolant v.toNat).rd f = ((s.ctl.wr Reg.coolant (v.toNat % 65536)).wr Reg.coolantValid 1).rd f :=
    fun f => (hpost.rd f).trans (Ctl.setPwr_rd _ _ f)
  refine Completes.onCtl rfl rfl ⟨?_, ?_, hpost.pwr, fun a ha => ?_, fun hbefore hnow => ?_, rfl, rfl⟩
  · exact ((hrd _).trans (Ctl.rd_wr_apart _ _ _ _ (by decide) (by decide))).trans
      (Ctl.rd_wr_fits _ _ _ (by decide) (Nat.mod_lt _ (by decide)))
  · exact (hrd _).trans (Ctl.rd_wr_fits _ _ _ (by decide) (by decide))
  · have ha' : a ≠ 0x10404000 := List.ne_of_not_mem_cons ha
    exact (hpost.reg a).trans ((Ctl.setPwr_reg _ _ _).trans ((Ctl.reg_wr_ne _ Reg.coolantValid _ _ ha').trans (Ctl.reg_wr_ne _ Reg.coolant _ _ ha')))
  · obtain ⟨h7, -, -⟩ := s.ctl.bitOf_alertWord
    obtain ⟨h7', -, -⟩ := (s.ctl.sampled .coolant v.toNat).bitOf_alertWord
    exact hseq ▸ s.ctl.evseq_lt_sensorSample .coolant v.toNat (.inl rfl) (h7'.trans (hpost.coolantHigh.symm.trans hnow)) (h7.trans hbefore)

/-- One missed read more. -/
def Ctl.missed (c : Ctl) : Ctl := c.setPwr { c.pwr with coolMiss := c.pwr.coolMiss + 1 }

theorem Ctl.sampled_coolantMiss (c : Ctl) (v : Nat) :
    c.sampled .coolantMiss v = if 3 ≤ c.pwr.coolMiss + 1 then c.missed.wr Reg.coolantValid 0 else c.missed := rfl

theorem Ctl.sampled_coolantMiss_spec (c : Ctl) (v : Nat) : (c.sampled .coolantMiss v).pwr = { c.pwr with coolMiss := c.pwr.coolMiss + 1 }
    ∧ (c.sampled .coolantMiss v).evseq = c.evseq ∧ (2 ≤ c.pwr.coolMiss → (c.sampled .coolantMiss v).rd Reg.coolantValid = 0)
    ∧ (c.pwr.coolMiss < 2 → (c.sampled .coolantMiss v).regs = c.regs) ∧ (c.sampled .coolantMiss v).rd Reg.coolant = c.rd Reg.coolant := by
  rw [Ctl.sampled_coolantMiss]
  split
  · refine ⟨Ctl.wr_pwr _ _ _, Ctl.wr_evseq _ _ _, fun _ => Ctl.rd_wr_fits _ _ _ (by decide) (by decide), fun h => ?_,
      Ctl.rd_wr_apart _ _ _ _ (by decide) (by decide)⟩
    omega
  · exact ⟨rfl, rfl, fun h => by omega, fun _ => rfl, rfl⟩

theorem coolantMiss_completes (v : BitVec 32) (s : State) : Completes (.sensorSample .coolantMiss v) s (fun t =>
    t.ctl.pwr = { s.ctl.pwr with coolMiss := s.ctl.pwr.coolMiss + 1 } ∧ (2 ≤ s.ctl.pwr.coolMiss → t.ctl.rd Reg.coolantValid = 0)
    ∧ (s.ctl.pwr.coolMiss < 2 → t.ctl.regs = s.ctl.regs) ∧ (s.ctl.pwr.coolMiss = 2 → s.ctl.evseq < t.ctl.evseq)
    ∧ t.ctl.rd Reg.coolant = s.ctl.rd Reg.coolant ∧ Keeps s t) := by
  have hpost := s.ctl.posts_sensorSample .coolantMiss v.toNat
  obtain ⟨hpwr, hseq, hvalid, hregs, hcool⟩ := s.ctl.sampled_coolantMiss_spec v.toNat
  refine Completes.onCtl rfl rfl ⟨hpost.pwr.trans hpwr, fun h => (hpost.rd _).trans (hvalid h), fun h => hpost.regs.trans (hregs h), fun h => ?_,
    (hpost.rd _).trans hcool, rfl, rfl⟩
  obtain ⟨-, -, h9⟩ := s.ctl.bitOf_alertWord
  obtain ⟨-, -, h9'⟩ := (s.ctl.sampled .coolantMiss v.toNat).bitOf_alertWord
  rw [hpwr] at h9'
  exact hseq ▸ s.ctl.evseq_lt_sensorSample .coolantMiss v.toNat (.inr (.inr rfl)) (h9'.trans (by simp [h])) (h9.trans (by simp [h]))

/-! ### Frames on the control ports (R94, Table 3.10) -/

theorem Ctl.ctlFrame_cases (c : Ctl) (p : Nat) (f : CtlFrame) : c.ctlFrame p f = c.ctlProto p f.proto ∨ c.ctlFrame p f = c :=
  ite_eq_or_eq _ _ _

/-- A port that is not UP and a frame that is too long: nothing happens. -/
theorem Ctl.ctlFrame_not (c : Ctl) (p : Nat) (f : CtlFrame) (h : 9216 < f.bytes ∨ c.ctlIsUp p = false) : c.ctlFrame p f = c := by
  refine if_neg fun hcond => ?_
  simp only [Bool.and_eq_true, decide_eq_true_eq] at hcond
  obtain ⟨⟨⟨hup, -⟩, hsize⟩, -⟩ := hcond
  rcases h with h | h
  · omega
  · rw [hup] at h
    cases h

theorem ctlFrame_takes {s : State} {p : Nat} {f : CtlFrame} (h : TakesFrame s p f) : s.ctl.ctlFrame p f = s.ctl.ctlProto p f.proto := by
  obtain ⟨hup, hruns, hsize, htags⟩ := h
  have hok : (if s.ctl.rd (Reg.ctlVid p) = 0 then f.tags.isEmpty else decide (f.tags = [BitVec.ofNat 12 (s.ctl.rd (Reg.ctlVid p))])) = true := by
    rw [htags]
    split <;> simp
  refine if_pos ?_
  rw [hup, hok]
  rcases hruns with h | h <;> simp [h, hsize]

/-- An output is what is sent by sending it. -/
theorem sent_emit (s : State) (o : Output) : Sent s (s.onCtl (·.emit o)) o := by
  unfold Sent
  rw [State.onCtl_ctl, Ctl.emit, List.drop_left]
  exact List.mem_singleton_self o

/-- A command that only sends something. -/
theorem Completes.emit {i : Instr} {s : State} {f : Ctl → Ctl} {o : Output} (h : exec i s = done (s.onCtl f)) (hf : f s.ctl = s.ctl.emit o) :
    Completes i s (fun t => Sent s t o ∧ Only s t (fun c => { c with out := t.ctl.out })) :=
  Completes.onCtl h hf ⟨sent_emit s o, rfl⟩

/-- A request for an address in force is answered. -/
theorem Ctl.ctlProto_answers (c : Ctl) (p : Nat) (x : CtlProto)
    (h : (∃ a, x = .arp a ∧ a = (c.netOf p).ip4 ∧ a ≠ 0) ∨ (∃ a, x = .neighbour a ∧ a = (c.netOf p).ip6 ∧ a ≠ 0)
      ∨ ((∃ b, x = .echo4 b) ∧ (c.netOf p).ip4 ≠ 0) ∨ ((∃ b, x = .echo6 b) ∧ (c.netOf p).ip6 ≠ 0)) : c.ctlProto p x = c.emit (.ctl p x) := by
  rcases h with ⟨a, rfl, rfl, hne⟩ | ⟨a, rfl, rfl, hne⟩ | ⟨⟨b, rfl⟩, hne⟩ | ⟨⟨b, rfl⟩, hne⟩
  · exact if_pos (by simpa using hne)
  · exact if_pos (by simpa using hne)
  · exact if_pos hne
  · exact if_pos hne

/-- What the port does not take, and a request for another's address. -/
theorem Ctl.ctlProto_drops (c : Ctl) (p : Nat) (x : CtlProto)
    (h : x = .pause ∨ x = .tcp ∨ x = .fragment ∨ x = .other ∨ (∃ a, x = .arp a ∧ a ≠ (c.netOf p).ip4)
      ∨ (∃ a, x = .neighbour a ∧ a ≠ (c.netOf p).ip6)) : c.ctlProto p x = c := by
  rcases h with rfl | rfl | rfl | rfl | ⟨a, rfl, hne⟩ | ⟨a, rfl, hne⟩
  · rfl
  · rfl
  · rfl
  · rfl
  · exact if_neg (by simp [hne])
  · exact if_neg (by simp [hne])

/-- A command that leaves the control records as they are. -/
theorem Completes.unchanged {i : Instr} {s : State} {f : Ctl → Ctl} (h : exec i s = done (s.onCtl f)) (hf : f s.ctl = s.ctl) :
    Completes i s (fun t => t = s) := Completes.onCtl h hf rfl

theorem frameAnswered_completes (p : Fin 2) (f : CtlFrame) (s : State) (ht : TakesFrame s p.val f)
    (h : (∃ a, f.proto = .arp a ∧ a = (s.ctl.netOf p.val).ip4 ∧ a ≠ 0) ∨ (∃ a, f.proto = .neighbour a ∧ a = (s.ctl.netOf p.val).ip6 ∧ a ≠ 0)
      ∨ ((∃ b, f.proto = .echo4 b) ∧ (s.ctl.netOf p.val).ip4 ≠ 0) ∨ ((∃ b, f.proto = .echo6 b) ∧ (s.ctl.netOf p.val).ip6 ≠ 0)) :
    Completes (.controlPortFrame p f) s (fun t => Sent s t (.ctl p.val f.proto) ∧ Only s t (fun c => { c with out := t.ctl.out })) :=
  Completes.emit rfl ((ctlFrame_takes ht).trans (Ctl.ctlProto_answers _ _ _ h))

theorem frameDropped_completes (p : Fin 2) (f : CtlFrame) (s : State)
    (h : f.proto = .pause ∨ f.proto = .tcp ∨ f.proto = .fragment ∨ f.proto = .other ∨ 9216 < f.bytes ∨ s.ctl.ctlIsUp p.val = false
      ∨ (∃ a, f.proto = .arp a ∧ a ≠ (s.ctl.netOf p.val).ip4) ∨ (∃ a, f.proto = .neighbour a ∧ a ≠ (s.ctl.netOf p.val).ip6)) :
    Completes (.controlPortFrame p f) s (fun t => t = s) := by
  refine Completes.unchanged rfl ?_
  by_cases hport : 9216 < f.bytes ∨ s.ctl.ctlIsUp p.val = false
  · exact s.ctl.ctlFrame_not _ _ hport
  · obtain ⟨hlong, hup⟩ := not_or.mp hport
    have hproto := s.ctl.ctlProto_drops p.val f.proto (by simpa only [hlong, hup, Bool.true_eq_false, false_or] using h)
    obtain hf | hf := s.ctl.ctlFrame_cases p.val f
    · exact hf.trans hproto
    · exact hf

/-- Reading the element that was set. -/
theorem getD_setAt {α : Type} (l : List α) {i : Nat} (h : i < l.length) (v d : α) : (setAt l i v).getD i d = v := by
  induction l generalizing i with
  | nil => cases h
  | cons x t ih =>
    cases i with
    | zero => rfl
    | succ i => exact ih (Nat.lt_of_succ_lt_succ h)

theorem Ctl.netOf_applyNet (c : Ctl) (p : Nat) (n : NetCfg) (h : p < c.net.length) : (c.applyNet p n).netOf p = n := by
  have hnet : (c.applyNet p n).net = setAt c.net p n := by
    unfold Ctl.applyNet
    repeat rw [Ctl.wr_net]
  rw [Ctl.netOf, hnet]
  exact getD_setAt _ h _ _

theorem lease_completes (p : Fin 2) (f : CtlFrame) (b : List Byte) (a : BitVec 128) (s : State) (ht : TakesFrame s p.val f)
    (hf : f.proto = .udp 68 b) (hlen : s.ctl.net.length = 2) (hip : (s.ctl.netOf p.val).ip4 = 0) (ha : Config.dhcpLease false b = some a) :
    Completes (.controlPortFrame p f) s (fun t =>
    t.ctl.netOf p.val = { s.ctl.netOf p.val with ip4 := a.setWidth 32 } ∧ t.ctl.flash = s.ctl.flash ∧ Keeps s t) := by
  have hudp : s.ctl.ctlFrame p.val f = s.ctl.leased p.val false b := by
    rw [ctlFrame_takes ht, hf]
    rfl
  have hlease : s.ctl.leased p.val false b = s.ctl.applyNet p.val { s.ctl.netOf p.val with ip4 := a.setWidth 32 } := by
    unfold Ctl.leased
    rw [ha]
    exact if_pos hip
  exact Completes.onCtl rfl (hudp.trans hlease) ⟨Ctl.netOf_applyNet _ _ _ (by rw [hlen]; exact p.isLt),
    (congrArg Ctl.flash (s.ctl.netWork_applyNet _ _).same :), rfl, rfl⟩

theorem jmpDrop_completes (p : Fin 2) (f : CtlFrame) (d : BitVec 16) (b : List Byte) (s : State) (ht : TakesFrame s p.val f)
    (hf : f.proto = .udp d b) (hport : d.toNat = s.ctl.rd (Reg.ctlJmpPort p.val)) (h4 : d ≠ 68) (h6 : d ≠ 546) :
    Completes (.controlPortFrame p f) s (fun t =>
    (t.ctl.reg Reg.jmpDrop).toNat = min ((s.ctl.reg Reg.jmpDrop).toNat + 1) (2 ^ 64 - 1) ∧ OnlyRegs [Reg.jmpDrop] s t) := by
  have hne4 : d.toNat ≠ 68 := fun h => h4 (BitVec.eq_of_toNat_eq h)
  have hne6 : d.toNat ≠ 546 := fun h => h6 (BitVec.eq_of_toNat_eq h)
  have hudp : s.ctl.ctlFrame p.val f = s.ctl.bump Reg.jmpDrop := by
    rw [ctlFrame_takes ht, hf]
    exact (if_neg hne4).trans ((if_neg hne6).trans (if_pos hport))
  exact Completes.onCtl rfl hudp ⟨s.ctl.reg_bump_same _, onlyRegs_putReg s _ _⟩

/-! ### JTAG (R29) -/

theorem boundaryScan_completes (b : List Bool) (s : State) : Completes (.jtagScan (.boundary b)) s (fun t =>
    (∃ o, Sent s t (.jtag o)) ∧ Only s t (fun c => { c with out := t.ctl.out })) :=
  Completes.onCtl (f := (·.emit (.jtag (Config.boundaryScan b)))) rfl rfl ⟨⟨_, sent_emit s _⟩, rfl⟩

/-- Settles O54, command by command. It rests on log entries 97, 98, 113 and 118, as the statement says. -/
theorem pinsAndPorts : Obligations.PinsAndPorts := by
  unfold Obligations.PinsAndPorts
  refine ⟨temp_completes, rail_completes, conv_completes, optTx_completes, optRx_completes, coolant_completes, coolantMiss_completes,
    inputPower_completes, mainCurrent_completes, frameAnswered_completes, frameDropped_completes, lease_completes, jmpDrop_completes,
    fun s => Completes.emit (f := (·.emit (.jtag (wordBits 32 Config.jtagId.toNat)))) rfl rfl, boundaryScan_completes, fun b s h => ?_,
    fun b s h => if_pos h⟩
  exact Completes.of_done (if_neg (by rw [h]; decide)) rfl

end Sys2Proof.Machine

namespace Sys2Proof.Machine

/-! ### One sub-port at work: what the others keep, what is sent -/

theorem Ctl.sub_congr {c d : Ctl} (h : d.subs = c.subs) (p q : Nat) : d.sub p q = c.sub p q := by
  simp only [Ctl.sub, h]

/-- Of the sub-ports only sub-port q of port p may differ. -/
def Ctl.OneSub (p q : Nat) (c d : Ctl) : Prop := ∀ k, k ≠ 4 * p + q → d.subs.get k SubPort.init = c.subs.get k SubPort.init

theorem Ctl.OneSub.trans {p q : Nat} {c d e : Ctl} (h : c.OneSub p q d) (k : d.OneSub p q e) : c.OneSub p q e :=
  fun n hn => (k n hn).trans (h n hn)

theorem Ctl.oneSub_of_subs {c d : Ctl} (h : d.subs = c.subs) (p q : Nat) : c.OneSub p q d := fun _ _ => by rw [h]

theorem Ctl.oneSub_putSub (c : Ctl) (p q : Nat) (x : SubPort) : c.OneSub p q (c.putSub p q x) :=
  fun _ hk => Tab.get_set_ne _ _ _ _ _ _ hk

theorem Ctl.OneSub.putSub {p q : Nat} {c d : Ctl} (h : c.OneSub p q d) (x : SubPort) : c.OneSub p q (d.putSub p q x) :=
  h.trans (d.oneSub_putSub p q x)

theorem otherPorts_of_oneSub {s t : State} {p : Nat} {q : Fin 4} (h : s.ctl.OneSub p q.val t.ctl) : OtherPorts s t p :=
  fun r hr a => h (4 * r.val + a.val) (by omega)

theorem otherPorts_of_subs {s t : State} (p : Nat) (h : t.ctl.subs = s.ctl.subs) : OtherPorts s t p :=
  fun _ _ _ => Ctl.sub_congr h _ _

/-- The control records after things were sent, in order. -/
def Ctl.emits (c : Ctl) (l : List Output) : Ctl := { c with out := c.out ++ l }

theorem Ctl.foldl_emit {α : Type} (l : List α) (g : α → Output) (c : Ctl) :
    l.foldl (fun (d : Ctl) a => d.emit (g a)) c = c.emits (l.map g) := by
  induction l generalizing c with
  | nil => simp [Ctl.emits]
  | cons a l ih =>
    rw [List.foldl_cons, ih]
    simp [Ctl.emits, Ctl.emit]

theorem Sent.of_append {s t : State} {l : List Output} {o : Output} (h : t.ctl.out = s.ctl.out ++ l) (ho : o ∈ l) : Sent s t o := by
  unfold Sent
  rw [h, List.drop_left]
  exact ho

/-! ### Entering TRAIN and DOWN (Table 3.5, R72, R73) -/

/-- A sub-port whose link was dropped: it keeps its state, its lanes and its history (R73). -/
def SubPort.dropped (x : SubPort) : SubPort :=
  { SubPort.init with st := x.st, since := x.since, lanes := x.lanes, retired := x.retired, held := x.held,
                      trains := x.trains, auths := x.auths, initAt := x.initAt }

theorem Ctl.linkDrop_eq (c : Ctl) (p q : Nat) : ∃ n,
    c.linkDrop p q = ((c.flushSub p q).bumpBy (Reg.lnkCtr p q 0x58) n).putSub p q (c.sub p q).dropped :=
  ⟨_, rfl⟩

theorem Ctl.sub_linkDrop (c : Ctl) (p q : Nat) : (c.linkDrop p q).sub p q = (c.sub p q).dropped := by
  obtain ⟨n, h⟩ := c.linkDrop_eq p q
  rw [h, Ctl.sub_putSub]

theorem Ctl.oneSub_linkDrop (c : Ctl) (p q : Nat) : c.OneSub p q (c.linkDrop p q) := by
  obtain ⟨n, h⟩ := c.linkDrop_eq p q
  rw [h]
  exact (Ctl.oneSub_of_subs (c.subs_flushSub p q) p q).putSub _

theorem Ctl.Logs.subs {c d : Ctl} (h : c.Logs d) : d.subs = c.subs := (congrArg Ctl.subs h.same :)
theorem Ctl.Logs.lanes {c d : Ctl} (h : c.Logs d) : d.lanes = c.lanes := (congrArg Ctl.lanes h.same :)
theorem Ctl.LinkWork.now {c d : Ctl} (h : c.LinkWork d) : d.now = c.now := (congrArg Ctl.now h.same :)

/-- Counting and reporting an entry to TRAIN leaves the sub-ports as dropping the link left them. -/
theorem Ctl.subs_countTrain (c : Ctl) (p q : Nat) : (c.countTrain p q).subs = (c.linkDrop p q).subs :=
  List.foldlRecOn (motive := fun d : Ctl => d.subs = (c.linkDrop p q).subs) _ _ rfl (fun d h _ _ => (d.logs_report _).subs.trans h)

/-- A sub-port in TRAIN since now, with the entries of the last second. -/
def SubPort.training (x : SubPort) (now : Nat) : SubPort :=
  { x.dropped with st := .train, since := now, lanes := 0, trained := 0, trains := x.trains.filter (fun t => now < t + 100000000) ++ [now] }

/-- An entry to TRAIN that is not the eighth within a second (R72). -/
theorem Ctl.linkTrain_room {c : Ctl} {p q : Nat} (h : ((c.sub p q).trains.filter (fun x => decide (c.now < x + 100000000))).length < 7) :
    c.linkTrain p q = (c.countTrain p q).putSub p q ((c.sub p q).training c.now) := by
  have hsub : (c.countTrain p q).sub p q = (c.sub p q).dropped :=
    (Ctl.sub_congr (c.subs_countTrain p q) p q).trans (c.sub_linkDrop p q)
  have hnow : (c.countTrain p q).now = c.now := (c.links_countTrain p q).now
  have heq : c.linkTrain p q =
      (let d := c.countTrain p q
       let tr := (d.sub p q).trains.filter (fun t => decide (d.now < t + 100000000)) ++ [d.now]
       if 8 ≤ tr.length then (d.putSub p q { d.sub p q with trains := tr }).linkQuar p q
       else d.putSub p q { d.sub p q with st := .train, since := d.now, lanes := 0, trained := 0, trains := tr }) := rfl
  rw [heq]
  dsimp only
  rw [hsub, hnow, if_neg]
  · rfl
  · rw [List.length_append]
    show ¬ 8 ≤ ((c.sub p q).trains.filter _).length + 1
    omega

theorem Ctl.oneSub_countTrain (c : Ctl) (p q : Nat) : c.OneSub p q (c.countTrain p q) :=
  (c.oneSub_linkDrop p q).trans (Ctl.oneSub_of_subs (c.subs_countTrain p q) p q)

theorem SubPort.training_st (x : SubPort) (now : Nat) : (x.training now).st = .train := rfl
theorem SubPort.training_since (x : SubPort) (now : Nat) : (x.training now).since = now := rfl

/-- An entry to TRAIN that is not the eighth within a second (R72). -/
theorem Ctl.linkTrain_spec {c : Ctl} {p q : Nat} (h : ((c.sub p q).trains.filter (fun x => decide (c.now < x + 100000000))).length < 7) :
    ((c.linkTrain p q).sub p q).st = .train ∧ ((c.linkTrain p q).sub p q).since = (c.linkTrain p q).now ∧ c.OneSub p q (c.linkTrain p q) := by
  have hnow : (c.linkTrain p q).now = c.now := (c.links_linkTrain p q).now
  rw [hnow, Ctl.linkTrain_room h, Ctl.sub_putSub, SubPort.training_st, SubPort.training_since]
  exact ⟨rfl, rfl, (c.oneSub_countTrain p q).putSub _⟩

/-- A command that enters TRAIN, with room for one entry more (R72). -/
theorem linkTrain_completes {i : Instr} {s : State} {f : Ctl → Ctl} {p : Nat} {q : Fin 4} (h : exec i s = done (s.whenMain f))
    (hmain : s.ctl.mainUp = true) (hf : f s.ctl = s.ctl.linkTrain p q.val) (hroom : TrainRoom s p q.val) :
    Completes i s (fun t => Entered t p q.val .train ∧ OtherPorts s t p ∧ Keeps s t) := by
  obtain ⟨hst, hsince, hone⟩ := Ctl.linkTrain_spec hroom
  exact Completes.onCtl (h.trans (congrArg done (s.whenMain_on f hmain))) hf ⟨⟨hst, hsince⟩, otherPorts_of_oneSub (q := q) hone, rfl, rfl⟩

theorem linkSignalDetect_completes (p : Fin 128) (q : Fin 4) (s : State) (hmain : s.ctl.mainUp = true)
    (h : s.ctl.trains? p.val q.val = true) (hroom : TrainRoom s p.val q.val) :
    Completes (.linkSignalDetect p q) s (fun t => Entered t p.val q.val .train ∧ OtherPorts s t p.val ∧ Keeps s t) :=
  linkTrain_completes rfl hmain (if_pos h) hroom

theorem trainRetry_completes (p : Fin 128) (q : Fin 4) (s : State) (hmain : s.ctl.mainUp = true)
    (hstall : (s.ctl.sub p.val q.val).stalledAt.isSome = true) (h : s.ctl.trains? p.val q.val = true) (hroom : TrainRoom s p.val q.val) :
    Completes (.trainRetry p q) s (fun t => Entered t p.val q.val .train ∧ OtherPorts s t p.val ∧ Keeps s t) :=
  linkTrain_completes rfl hmain (if_pos (by rw [hstall, h]; rfl)) hroom

theorem Ctl.alignTimeout_late {c : Ctl} {p q : Nat} (hst : (c.sub p q).st = .align) (h : (c.sub p q).since + 1000000 ≤ c.now) :
    c.alignTimeout p q = c.linkTrain p q := by
  simp [Ctl.alignTimeout, hst, h]

theorem Ctl.replayStall_late {c : Ctl} {p q x : Nat} (hst : (c.sub p q).st = .align) (hstall : (c.sub p q).stalledAt = some x)
    (h : x + 100000 ≤ c.now) : c.replayStall p q = c.linkTrain p q := by
  simp [Ctl.replayStall, hst, hstall, h]

theorem Ctl.trainTimeout_late {c : Ctl} {p q : Nat} (hst : (c.sub p q).st = .train) (h : (c.sub p q).since + 5000000 ≤ c.now) :
    c.trainTimeout p q = (c.linkDown p q).putSub p q { (c.linkDown p q).sub p q with stalledAt := some c.now } := by
  simp [Ctl.trainTimeout, hst, h]

theorem alignTimeout_completes (p : Fin 128) (q : Fin 4) (s : State) (hmain : s.ctl.mainUp = true)
    (hst : (s.ctl.sub p.val q.val).st = .align) (h : (s.ctl.sub p.val q.val).since + 1000000 ≤ s.ctl.now) (hroom : TrainRoom s p.val q.val) :
    Completes (.alignTimeout p q) s (fun t => Entered t p.val q.val .train ∧ OtherPorts s t p.val ∧ Keeps s t) :=
  linkTrain_completes (f := (·.alignTimeout p.val q.val)) rfl hmain (Ctl.alignTimeout_late hst h) hroom

theorem replayStallTimeout_completes (p : Fin 128) (q : Fin 4) (x : Nat) (s : State) (hmain : s.ctl.mainUp = true)
    (hst : (s.ctl.sub p.val q.val).st = .align) (hstall : (s.ctl.sub p.val q.val).stalledAt = some x) (h : x + 100000 ≤ s.ctl.now)
    (hroom : TrainRoom s p.val q.val) :
    Completes (.replayStallTimeout p q) s (fun t => Entered t p.val q.val .train ∧ OtherPorts s t p.val ∧ Keeps s t) :=
  linkTrain_completes (f := (·.replayStall p.val q.val)) rfl hmain (Ctl.replayStall_late hst hstall h) hroom

/-- A sub-port in DOWN since now. -/
def SubPort.downed (x : SubPort) (now : Nat) : SubPort :=
  { x.dropped with st := .down, since := now, lanes := 0, retired := [], initAt := none }

theorem Ctl.sub_linkDown (c : Ctl) (p q : Nat) : (c.linkDown p q).sub p q = (c.sub p q).downed c.now := by
  have hnow : (c.linkDrop p q).now = c.now := (c.links_linkDrop p q).now
  simp only [Ctl.linkDown, Ctl.sub_congr (Ctl.putLane_subs _ _ _), Ctl.sub_putSub, Ctl.sub_linkDrop, hnow, SubPort.downed]

theorem Ctl.oneSub_linkDown (c : Ctl) (p q : Nat) : c.OneSub p q (c.linkDown p q) := by
  obtain ⟨x, l, -, h⟩ := c.linkDown_spec p q
  rw [h]
  exact ((c.oneSub_linkDrop p q).putSub x).trans (Ctl.oneSub_of_subs (Ctl.putLane_subs _ p l) p q)

theorem trainTimeout_completes (p : Fin 128) (q : Fin 4) (s : State) (hmain : s.ctl.mainUp = true)
    (hst : (s.ctl.sub p.val q.val).st = .train) (h : (s.ctl.sub p.val q.val).since + 5000000 ≤ s.ctl.now) :
    Completes (.trainTimeout p q) s (fun t =>
    Entered t p.val q.val .down ∧ (t.ctl.sub p.val q.val).stalledAt = some s.ctl.now ∧ OtherPorts s t p.val ∧ Keeps s t) := by
  have hrun := Ctl.trainTimeout_late hst h
  rw [s.ctl.sub_linkDown] at hrun
  have hnow : (s.ctl.linkDown p.val q.val).now = s.ctl.now := (s.ctl.links_linkDown p.val q.val).now
  refine Completes.onCtl (congrArg done (s.whenMain_on _ hmain)) hrun
    ⟨⟨congrArg SubPort.st (Ctl.sub_putSub _ _ _ _), ?_⟩, congrArg SubPort.stalledAt (Ctl.sub_putSub _ _ _ _),
      otherPorts_of_oneSub (q := q) ((s.ctl.oneSub_linkDown _ _).putSub _), rfl, rfl⟩
  exact (congrArg SubPort.since (Ctl.sub_putSub _ _ _ _)).trans hnow.symm

/-! ### ALIGN (Table 3.5, R63, R73) -/

/-- A sub-port in ALIGN on a lane set, since now. -/
def SubPort.aligning (x : SubPort) (now : Nat) (lanes : BitVec 4) (first : Bool) : SubPort :=
  { x with st := .align, since := now, lanes := lanes, firstAlign := first, aligned := false, accepted := false, keyed := false, kem := none }

theorem Ctl.linkAlign_eq (c : Ctl) (p q : Nat) (lanes : BitVec 4) (first : Bool) :
    c.linkAlign p q lanes first = c.putSub p q ((c.sub p q).aligning c.now lanes first) := rfl

/-- The full width of a sub-port is usable in both modes (Table 3.1, R63). -/
theorem usableLanes_lanesOf : ∀ b < 4, ∀ q < 4, ∀ erlum, usableLanes erlum (lanesOf b q) = lanesOf b q := by decide

theorem Ctl.usableLanes_cfgLanes (c : Ctl) (p : Nat) (q : Fin 4) (erlum : Bool) :
    usableLanes erlum (c.cfgLanes p q.val) = c.cfgLanes p q.val :=
  usableLanes_lanesOf _ (c.rd_lt _) _ q.isLt _

/-- Lanes struck out of both sets of unfit lanes are all fit. -/
theorem and_not_struck (x f r : BitVec 4) : x &&& ~~~ (f &&& ~~~ x) &&& ~~~ (r &&& ~~~ x) = x := by
  ext i hi
  cases h : x[i] <;> simp [h]

/-- The lanes of a port after training: those of a sub-port that converged are no longer failed nor out for re-calibration. -/
def PortLanes.converged (l : PortLanes) (cfg lanes : BitVec 4) : PortLanes :=
  { l with failed := (l.failed &&& ~~~ cfg) ||| (cfg &&& ~~~ lanes), recal := l.recal &&& ~~~ cfg }

/-- Where every lane of a sub-port converged, its full width is usable (R63). -/
theorem Ctl.usable_converged {c : Ctl} {p : Nat} {q : Fin 4} {lanes : BitVec 4} (hall : c.cfgLanes p q.val &&& ~~~ lanes = 0) :
    (c.putLane p ((c.lane p).converged (c.cfgLanes p q.val) lanes)).usable p q.val = c.cfgLanes p q.val := by
  have hfit : c.cfgLanes p q.val &&& ~~~ ((c.lane p).converged (c.cfgLanes p q.val) lanes).failed
      &&& ~~~ ((c.lane p).converged (c.cfgLanes p q.val) lanes).recal = c.cfgLanes p q.val := by
    simp only [PortLanes.converged, hall]
    exact (congrArg (fun f => _ &&& ~~~ f &&& _) BitVec.or_zero).trans (and_not_struck _ _ _)
  have hcfg : ∀ l, (c.putLane p l).cfgLanes p q.val = c.cfgLanes p q.val := fun _ => rfl
  simp [Ctl.usable, hcfg, hfit, c.usableLanes_cfgLanes]

/-- Where every lane of a sub-port converged, it enters ALIGN at full width (R63). -/
theorem Ctl.trainComplete_full {c : Ctl} {p : Nat} {q : Fin 4} {lanes : BitVec 4} (hst : (c.sub p q.val).st = .train)
    (hcfg : c.cfgLanes p q.val ≠ 0) (hall : c.cfgLanes p q.val &&& ~~~ lanes = 0) : ∃ l x,
    c.trainComplete p q.val lanes = ((c.putLane p l).putSub p q.val x).linkAlign p q.val (c.cfgLanes p q.val) true := by
  have h := Ctl.usable_converged hall
  simp only [PortLanes.converged] at h
  simp only [Ctl.trainComplete, hst, h, hcfg, ne_eq, not_true_eq_false, if_false]
  exact ⟨_, _, rfl⟩

theorem trainComplete_completes (p : Fin 128) (q : Fin 4) (lanes : BitVec 4) (s : State) (hmain : s.ctl.mainUp = true)
    (hst : (s.ctl.sub p.val q.val).st = .train) (hcfg : s.ctl.cfgLanes p.val q.val ≠ 0) (hall : s.ctl.cfgLanes p.val q.val &&& ~~~ lanes = 0) :
    Completes (.trainComplete p q lanes) s (fun t =>
    Entered t p.val q.val .align ∧ (t.ctl.sub p.val q.val).lanes = s.ctl.cfgLanes p.val q.val ∧ (t.ctl.sub p.val q.val).firstAlign = true
    ∧ (t.ctl.sub p.val q.val).aligned = false ∧ OtherPorts s t p.val
    ∧ Only s t (fun c => { c with subs := t.ctl.subs, lanes := t.ctl.lanes })) := by
  obtain ⟨l, x, h⟩ := Ctl.trainComplete_full hst hcfg hall
  have hone : s.ctl.OneSub p.val q.val (s.ctl.putLane p.val l) := Ctl.oneSub_of_subs rfl _ _
  refine Completes.onCtl (congrArg done (s.whenMain_on _ hmain)) h ?_
  rw [Ctl.linkAlign_eq]
  exact ⟨⟨congrArg SubPort.st (Ctl.sub_putSub _ _ _ _), congrArg SubPort.since (Ctl.sub_putSub _ _ _ _)⟩,
    congrArg SubPort.lanes (Ctl.sub_putSub _ _ _ _), congrArg SubPort.firstAlign (Ctl.sub_putSub _ _ _ _),
    congrArg SubPort.aligned (Ctl.sub_putSub _ _ _ _), otherPorts_of_oneSub (q := q) ((hone.putSub x).putSub _), rfl⟩

theorem Ctl.ownInit_putSub (c : Ctl) (p q : Nat) (x : SubPort) (h : x.lanes = (c.sub p q).lanes) :
    (c.putSub p q x).ownInit p q = c.ownInit p q := by
  have heq : (c.putSub p q x).ownInit p q = (let n := popCount 4 (c.cfgLanes p q).toNat
      leBytes 1 (c.rd (Reg.cfgMode p)) ++ leBytes 1 ((c.putSub p q x).sub p q).lanes.toNat ++ leBytes 1 (1 + 2 * c.rd (Reg.cfgEncReq p)) ++ zeros 1
      ++ leBytes 4 (c.ownShare p) ++ (List.replicate 8 (leBytes 2 (64 * n))).flatten ++ leBytes 6 (c.ownMac p q) ++ zeros 2) := rfl
  rw [heq, Ctl.sub_putSub, h]
  rfl

/-- The first ALIGN after TRAIN begins with LINK_INIT (R73). -/
theorem Ctl.subAligned_first {c : Ctl} {p q : Nat} (hst : (c.sub p q).st = .align) (haligned : (c.sub p q).aligned = false)
    (hfirst : (c.sub p q).firstAlign = true) :
    c.subAligned p q = (c.putSub p q { c.sub p q with aligned := true }).emit (.linkCtl p q 1 0 (c.ownInit p q)) := by
  rw [← c.ownInit_putSub p q { c.sub p q with aligned := true } rfl]
  simp only [Ctl.subAligned, hst, haligned, hfirst]
  rfl

theorem subportAligned_completes (p : Fin 128) (q : Fin 4) (s : State) (hmain : s.ctl.mainUp = true)
    (hst : (s.ctl.sub p.val q.val).st = .align) (haligned : (s.ctl.sub p.val q.val).aligned = false)
    (hfirst : (s.ctl.sub p.val q.val).firstAlign = true) : Completes (.subportAligned p q) s (fun t =>
    t.ctl.sub p.val q.val = { s.ctl.sub p.val q.val with aligned := true }
    ∧ Sent s t (.linkCtl p.val q.val 1 0 (s.ctl.ownInit p.val q.val)) ∧ OtherPorts s t p.val
    ∧ Only s t (fun c => { c with subs := t.ctl.subs, out := t.ctl.out })) :=
  Completes.onCtl (congrArg done (s.whenMain_on _ hmain)) (Ctl.subAligned_first hst haligned hfirst)
    ⟨Ctl.sub_putSub _ _ _ _, Sent.of_append rfl (List.mem_singleton_self _), otherPorts_of_oneSub (q := q) (s.ctl.oneSub_putSub _ _ _), rfl⟩

/-- Settles O10, step by step of Table 3.5. It rests on log entries 34 and 36, as the statement says. -/
theorem linkTraining : Obligations.LinkTraining := by
  unfold Obligations.LinkTraining
  exact ⟨linkSignalDetect_completes, trainComplete_completes, trainTimeout_completes, trainRetry_completes, alignTimeout_completes,
    subportAligned_completes⟩

end Sys2Proof.Machine

namespace Sys2Proof.Machine

/-! ### Replay (R82-R84) -/

/-- The frames that a replay from an LSEQ sends again, in order (R83). -/
def SubPort.resent (x : SubPort) (p q : Nat) (lseq : BitVec 16) : List Output :=
  (x.replay.filter (fun (e : ReplayEnt) => !lseqBefore e.lseq lseq)).map (fun e =>
    .frame p q { lseq := e.lseq, lack := x.rxLseq, cr0tc := 0, cr0cnt := 0, cr1tc := 0, cr1cnt := 0 } e.frame)

theorem SubPort.mem_resent {x : SubPort} {p q : Nat} {lseq : BitVec 16} {e : ReplayEnt} (he : e ∈ x.replay) (h : lseqBefore e.lseq lseq = false) :
    ∃ tr, tr.lseq = e.lseq ∧ Output.frame p q tr e.frame ∈ x.resent p q lseq :=
  ⟨_, rfl, List.mem_map_of_mem (List.mem_filter.2 ⟨he, by rw [h]; rfl⟩)⟩

/-- A sub-port once its replay buffer has been sent again. -/
def SubPort.replayed (x : SubPort) (now : Nat) : SubPort := { x with replays := x.replays + 1, progressAt := now }

/-- A replay that is not the eighth fruitless one (R83, R84). -/
theorem Ctl.replayFrom_eq {c : Ctl} {p q : Nat} {lseq : BitVec 16} (hcarries : (c.sub p q).carries = true) (hfew : (c.sub p q).replays < 8)
    (hsome : ∃ e ∈ (c.sub p q).replay, lseqBefore e.lseq lseq = false) :
    c.replayFrom p q lseq = ((c.putSub p q ((c.sub p q).replayed c.now)).bump (Reg.lnkCtr p q 0x38)).emits ((c.sub p q).resent p q lseq) := by
  obtain ⟨e, he, hlseq⟩ := hsome
  have hne : ((c.sub p q).replay.filter (fun (e : ReplayEnt) => !lseqBefore e.lseq lseq)).isEmpty = false := by
    rw [List.isEmpty_eq_false_iff]
    exact List.ne_nil_of_mem (List.mem_filter.2 ⟨he, by rw [hlseq]; rfl⟩)
  have hfew' : ¬ 8 ≤ (c.sub p q).replays := by omega
  simp only [Ctl.replayFrom, hcarries, hne, hfew', Ctl.foldl_emit]
  rfl

theorem Ctl.bump_regs_only (c : Ctl) (a : Nat) : ∃ r, c.bump a = { c with regs := r } := ⟨_, rfl⟩

theorem lseqBefore_self (a : BitVec 16) : lseqBefore a a = false := by
  simp [lseqBefore]

/-- No progress for 200 ticks: everything from the oldest frame on is sent again (R83). -/
theorem Ctl.replayTimeout_late {c : Ctl} {p q : Nat} {e : ReplayEnt} {l : List ReplayEnt} (hreplay : (c.sub p q).replay = e :: l)
    (h : (c.sub p q).progressAt + 200 ≤ c.now) : c.replayTimeout p q = c.replayFrom p q e.lseq := by
  simp [Ctl.replayTimeout, hreplay, h]

/-- A command that replays from an LSEQ. -/
theorem replayFrom_completes {i : Instr} {s : State} {f : Ctl → Ctl} {p : Nat} {q : Fin 4} {lseq : BitVec 16}
    (h : exec i s = done (s.whenMain f)) (hmain : s.ctl.mainUp = true) (hf : f s.ctl = s.ctl.replayFrom p q.val lseq)
    (hcarries : (s.ctl.sub p q.val).carries = true) (hfew : (s.ctl.sub p q.val).replays < 8)
    (hsome : ∃ e ∈ (s.ctl.sub p q.val).replay, lseqBefore e.lseq lseq = false) : Completes i s (fun t =>
    (∀ e ∈ (s.ctl.sub p q.val).replay, lseqBefore e.lseq lseq = false → ∃ tr, tr.lseq = e.lseq ∧ Sent s t (.frame p q.val tr e.frame))
    ∧ t.ctl.sub p q.val = { s.ctl.sub p q.val with replays := (s.ctl.sub p q.val).replays + 1, progressAt := s.ctl.now }
    ∧ Only s t (fun c => { c with subs := t.ctl.subs, out := t.ctl.out, regs := t.ctl.regs }) ∧ OtherPorts s t p) := by
  have heq := hf.trans (Ctl.replayFrom_eq hcarries hfew hsome)
  obtain ⟨r, hr⟩ := Ctl.bump_regs_only (s.ctl.putSub p q.val ((s.ctl.sub p q.val).replayed s.ctl.now)) (Reg.lnkCtr p q.val 0x38)
  rw [hr] at heq
  refine Completes.onCtl (h.trans (congrArg done (s.whenMain_on f hmain))) heq
    ⟨fun e he hlseq => ?_, Ctl.sub_putSub _ _ _ _, rfl, otherPorts_of_oneSub (q := q) (s.ctl.oneSub_putSub _ _ _)⟩
  obtain ⟨tr, htr, hmem⟩ := SubPort.mem_resent (p := p) (q := q.val) he hlseq
  exact ⟨tr, htr, Sent.of_append rfl hmem⟩

theorem replayTimeout_completes (p : Fin 128) (q : Fin 4) (e : ReplayEnt) (l : List ReplayEnt) (s : State) (hmain : s.ctl.mainUp = true)
    (hcarries : (s.ctl.sub p.val q.val).carries = true) (hfew : (s.ctl.sub p.val q.val).replays < 8)
    (hreplay : (s.ctl.sub p.val q.val).replay = e :: l) (h : (s.ctl.sub p.val q.val).progressAt + 200 ≤ s.ctl.now) :
    Completes (.replayTimeout p q) s (fun t =>
    (∃ tr, tr.lseq = e.lseq ∧ Sent s t (.frame p.val q.val tr e.frame))
    ∧ t.ctl.sub p.val q.val = { s.ctl.sub p.val q.val with replays := (s.ctl.sub p.val q.val).replays + 1, progressAt := s.ctl.now }
    ∧ Only s t (fun c => { c with subs := t.ctl.subs, out := t.ctl.out, regs := t.ctl.regs }) ∧ OtherPorts s t p.val) := by
  have he : e ∈ (s.ctl.sub p.val q.val).replay := hreplay ▸ List.mem_cons_self
  obtain ⟨t, ht, hsent, hsub, honly, hother⟩ := replayFrom_completes (i := .replayTimeout p q) (f := (·.replayTimeout p.val q.val))
    (lseq := e.lseq) rfl hmain (Ctl.replayTimeout_late hreplay h) hcarries hfew ⟨e, he, lseqBefore_self _⟩
  exact ⟨t, ht, hsent e he (lseqBefore_self _), hsub, honly, hother⟩

/-! ### Credits (R79-R81) -/

theorem natAt_setAt (l : List Nat) (i j v : Nat) (h : i < l.length) : natAt (setAt l i v) j = if j = i then v else natAt l j := by
  induction l generalizing i j with
  | nil => cases h
  | cons x t ih =>
    cases i with
    | zero => cases j <;> simp [setAt, natAt]
    | succ i =>
      cases j with
      | zero => simp [setAt, natAt]
      | succ j => simpa [setAt, natAt] using ih i j (Nat.lt_of_succ_lt_succ h)

theorem length_eight (l : List Nat) : (eight l).length = 8 := by simp [eight]

theorem natAt_eight (l : List Nat) {k : Nat} (h : k < 8) : natAt (eight l) k = natAt l k := by
  simp [eight, natAt, h]

/-- Adding to one class of a list of eight credit counts (R80). -/
theorem natAt_addAt (l : List Nat) {k i : Nat} (n : Nat) (hk : k < 8) (hi : i < 8) :
    natAt (addAt l k n) i = natAt l i + if i = k then n else 0 := by
  rw [addAt, natAt_setAt _ _ _ _ (by rw [length_eight]; exact hk), natAt_eight _ hi]
  split
  case isTrue h => rw [h]
  case isFalse => rfl

theorem credit_completes (p : Fin 128) (q : Fin 4) (tr : Trailer) (s : State) (hmain : s.ctl.mainUp = true)
    (hcarries : (s.ctl.sub p.val q.val).carries = true) : Completes (.credit p q tr) s (fun t =>
    (∀ k, k < 8 → natAt (t.ctl.sub p.val q.val).credits k = natAt (s.ctl.sub p.val q.val).credits k
      + (if k = tr.cr0tc.toNat then tr.cr0cnt.toNat else 0) + (if k = tr.cr1tc.toNat then tr.cr1cnt.toNat else 0))
    ∧ (t.ctl.sub p.val q.val).replay = (s.ctl.sub p.val q.val).replay.filter (fun (e : ReplayEnt) => !lseqBefore e.lseq tr.lack)
    ∧ Only s t (fun c => { c with subs := t.ctl.subs }) ∧ OtherPorts s t p.val) := by
  refine Completes.onCtl (congrArg done (s.whenMain_on _ hmain)) (if_pos hcarries)
    ⟨fun k hk => ?_, congrArg SubPort.replay (Ctl.sub_putSub _ _ _ _), rfl, otherPorts_of_oneSub (q := q) (s.ctl.oneSub_putSub _ _ _)⟩
  refine (congrArg (fun x : SubPort => natAt x.credits k) (Ctl.sub_putSub _ _ _ _)).trans ?_
  exact (natAt_addAt _ _ tr.cr1tc.isLt hk).trans (congrArg (· + _) (natAt_addAt _ _ tr.cr0tc.isLt hk))

/-- A return that has waited 100 ns goes out alone (R81). -/
theorem Ctl.creditWait_late {c : Ctl} {p q x : Nat} (hcarries : (c.sub p q).carries = true) (hwait : (c.sub p q).waitSince = some x)
    (h : x + 10 ≤ c.now) : c.creditWait p q = (c.makeTrailer p q 0).2.emit (.credit p q (c.makeTrailer p q 0).1) := by
  simp [Ctl.creditWait, hcarries, hwait, h]

theorem creditReturnWait_completes (p : Fin 128) (q : Fin 4) (x : Nat) (s : State) (hmain : s.ctl.mainUp = true)
    (hcarries : (s.ctl.sub p.val q.val).carries = true) (hwait : (s.ctl.sub p.val q.val).waitSince = some x) (h : x + 10 ≤ s.ctl.now) :
    Completes (.creditReturnWait p q) s (fun t =>
    (∃ tr, tr.lack = (s.ctl.sub p.val q.val).rxLseq ∧ Sent s t (.credit p.val q.val tr))
    ∧ (t.ctl.sub p.val q.val).lackSent = (s.ctl.sub p.val q.val).rxLseq
    ∧ Only s t (fun c => { c with subs := t.ctl.subs, out := t.ctl.out }) ∧ OtherPorts s t p.val) :=
  Completes.onCtl (congrArg done (s.whenMain_on _ hmain)) (Ctl.creditWait_late hcarries hwait h)
    ⟨⟨(s.ctl.makeTrailer p.val q.val 0).1, rfl, Sent.of_append rfl (List.mem_singleton_self _)⟩,
      congrArg SubPort.lackSent (Ctl.sub_putSub _ _ _ _), rfl, otherPorts_of_oneSub (q := q) (s.ctl.oneSub_putSub _ _ _)⟩

/-- Settles O13. A NAK and a timeout replay by one lemma; the trailer's two classes may be the same, so its credits add up in turn. It
rests on log entries 23 and 35, as the statement says. -/
theorem replayAndCredits : Obligations.ReplayAndCredits := by
  unfold Obligations.ReplayAndCredits
  exact ⟨fun _ _ _ _ hmain => replayFrom_completes rfl hmain rfl, replayTimeout_completes, replayStallTimeout_completes, credit_completes,
    creditReturnWait_completes⟩

end Sys2Proof.Machine

namespace Sys2Proof.Machine

/-! ### Coming up from ALIGN (R73, R84) -/

/-- `x` with what a sub-port that comes up, or replays, changes of itself in `y`. -/
def SubPort.withPace (x y : SubPort) : SubPort :=
  { x with st := y.st, since := y.since, firstAlign := y.firstAlign, progressAt := y.progressAt, stalledAt := y.stalledAt, replays := y.replays }

/-- `d` is `c` after sub-port q of port p came up or replayed: its LINK_INIT, credits, keys and lanes stand, no other sub-port
differs, and what was sent before stays sent. -/
structure Ctl.Rise (p q : Nat) (c d : Ctl) : Prop where
  sub : d.sub p q = (c.sub p q).withPace (d.sub p q)
  one : c.OneSub p q d
  out : ∃ l, d.out = c.out ++ l

theorem Ctl.Rise.trans {p q : Nat} {c d e : Ctl} (h : c.Rise p q d) (k : d.Rise p q e) : c.Rise p q e where
  sub := k.sub.trans (congrArg (fun x : SubPort => x.withPace (e.sub p q)) h.sub :)
  one := h.one.trans k.one
  out := by
    obtain ⟨l, hl⟩ := h.out
    obtain ⟨m, hm⟩ := k.out
    exact ⟨l ++ m, by rw [hm, hl, List.append_assoc]⟩

/-- The sub-ports stay as they are and more is sent. -/
theorem Ctl.Rise.of_subs {p q : Nat} {c d : Ctl} (hsubs : d.subs = c.subs) {l : List Output} (hout : d.out = c.out ++ l) : c.Rise p q d where
  sub := (Ctl.sub_congr hsubs p q).trans (congrArg (c.sub p q).withPace (Ctl.sub_congr hsubs p q).symm :)
  one := Ctl.oneSub_of_subs hsubs p q
  out := ⟨l, hout⟩

theorem Ctl.Rise.refl {p q : Nat} (c : Ctl) : c.Rise p q c := .of_subs rfl (List.append_nil _).symm

theorem Ctl.rise_putSub {c : Ctl} {p q : Nat} {x : SubPort} (h : x = (c.sub p q).withPace x) : c.Rise p q (c.putSub p q x) where
  sub := by rw [Ctl.sub_putSub]; exact h
  one := c.oneSub_putSub p q x
  out := ⟨[], (List.append_nil _).symm⟩

theorem Ctl.pathsUp_pairs (c : Ctl) (l : List Nat) : ∃ r, c.pathsUp l = { c with pairs := r } :=
  List.foldlRecOn (motive := fun d : Ctl => ∃ r, d = { c with pairs := r }) l _ ⟨c.pairs, rfl⟩ (fun d h e _ => by
    obtain ⟨r, rfl⟩ := h
    exact ⟨_, rfl⟩)

theorem Ctl.rise_pathsUp (c : Ctl) (p q : Nat) (l : List Nat) : c.Rise p q (c.pathsUp l) := by
  obtain ⟨r, h⟩ := c.pathsUp_pairs l
  rw [h]
  exact .of_subs rfl (List.append_nil _).symm

/-- Whether a sub-port leaves ALIGN (Table 3.5). -/
def SubPort.mayRise (x : SubPort) : Bool := x.st == .align && x.aligned && x.accepted && (!x.enc || x.keyed)

/-- A sub-port that has come up, at its full width or not. -/
def SubPort.risen (x : SubPort) (full : Prop) [Decidable full] (now : Nat) : SubPort :=
  { x with st := if full then .up else .degraded, since := now, firstAlign := false, progressAt := now, stalledAt := none,
           replays := if x.stalledAt.isSome then 0 else x.replays }

theorem SubPort.carries_risen (x : SubPort) (full : Prop) [Decidable full] (now : Nat) : (x.risen full now).carries = true := by
  by_cases h : full <;> simp [SubPort.risen, SubPort.carries, h]

theorem Ctl.linkUp_off {c : Ctl} {p q : Nat} (h : (c.sub p q).mayRise = false) : c.linkUp p q = c := by
  simp only [SubPort.mayRise, beq_eq_decide] at h
  simp only [Ctl.linkUp, h]
  rfl

theorem Ctl.linkUp_on {c : Ctl} {p q : Nat} (h : (c.sub p q).mayRise = true) :
    c.linkUp p q = (c.pathsUp (c.sub p q).eps).putSub p q ((c.sub p q).risen ((c.sub p q).lanes = c.cfgLanes p q) c.now) := by
  simp only [SubPort.mayRise, beq_eq_decide] at h
  obtain ⟨r, hr⟩ := c.pathsUp_pairs (c.sub p q).eps
  simp only [Ctl.linkUp, h, hr]
  rfl

theorem Ctl.sub_linkUp_on {c : Ctl} {p q : Nat} (h : (c.sub p q).mayRise = true) :
    (c.linkUp p q).sub p q = (c.sub p q).risen ((c.sub p q).lanes = c.cfgLanes p q) c.now := by
  rw [Ctl.linkUp_on h, Ctl.sub_putSub]

theorem Ctl.rise_linkUp {c : Ctl} {p q : Nat} (h : (c.sub p q).mayRise = true) : c.Rise p q (c.linkUp p q) := by
  have hpaths := c.rise_pathsUp p q (c.sub p q).eps
  obtain ⟨r, hr⟩ := c.pathsUp_pairs (c.sub p q).eps
  rw [Ctl.linkUp_on h]
  refine hpaths.trans (Ctl.rise_putSub ?_)
  rw [hr]
  rfl

theorem Ctl.rise_replayFrom {c : Ctl} {p q : Nat} {lseq : BitVec 16} (hcarries : (c.sub p q).carries = true) (hfew : (c.sub p q).replays < 8)
    (hsome : ∃ e ∈ (c.sub p q).replay, lseqBefore e.lseq lseq = false) : c.Rise p q (c.replayFrom p q lseq)
    ∧ ((c.replayFrom p q lseq).sub p q).st = (c.sub p q).st := by
  have heq := Ctl.replayFrom_eq hcarries hfew hsome
  obtain ⟨r, hr⟩ := Ctl.bump_regs_only (c.putSub p q ((c.sub p q).replayed c.now)) (Reg.lnkCtr p q 0x38)
  rw [heq, hr]
  exact ⟨(Ctl.rise_putSub (x := (c.sub p q).replayed c.now) rfl).trans (.of_subs rfl rfl),
    (congrArg SubPort.st (Ctl.sub_putSub c p q ((c.sub p q).replayed c.now)) :)⟩

/-- After a change of width each side names the LSEQ it expects (R84). -/
def Ctl.toldLseq (c : Ctl) (p q : Nat) : Ctl := (c.linkUp p q).emit (.linkCtl p q 4 (BitVec.ofNat 64 (c.sub p q).rxLseq.toNat) [])

theorem Ctl.rise_toldLseq {c : Ctl} {p q : Nat} (h : (c.sub p q).mayRise = true) : c.Rise p q (c.toldLseq p q) :=
  (Ctl.rise_linkUp h).trans (.of_subs rfl rfl)

theorem Ctl.comeUp_off {c : Ctl} {p q : Nat} (h : (c.sub p q).mayRise = false) : c.comeUp p q = c := by
  simp only [Ctl.comeUp, Ctl.linkUp_off h]
  cases (c.sub p q).carries <;> rfl

/-- Where a sub-port comes up, it may tell the LSEQ it expects, and then resume a stalled replay. -/
theorem Ctl.comeUp_cases (c : Ctl) (p q : Nat) :
    c.comeUp p q = c.linkUp p q ∨ c.comeUp p q = c.toldLseq p q
    ∨ ∃ t e l, (c.sub p q).stalledAt = some t ∧ (c.sub p q).replay = e :: l ∧ c.comeUp p q = (c.toldLseq p q).replayFrom p q e.lseq := by
  unfold Ctl.comeUp
  dsimp only
  split
  · exact .inl rfl
  · split
    case h_1 t e l ht he => exact .inr (.inr ⟨t, e, l, ht, he, rfl⟩)
    case h_2 => exact .inr (.inl rfl)

theorem Ctl.rise_comeUp (c : Ctl) (p q : Nat) : c.Rise p q (c.comeUp p q) ∧ ((c.sub p q).mayRise = true → ((c.comeUp p q).sub p q).carries = true) := by
  by_cases h : (c.sub p q).mayRise = true
  · have hup : ((c.toldLseq p q).sub p q) = _ := Ctl.sub_linkUp_on h
    have hcarries : ((c.toldLseq p q).sub p q).carries = true := by rw [hup, SubPort.carries_risen]
    obtain heq | heq | ⟨t, e, l, ht, he, heq⟩ := c.comeUp_cases p q <;> rw [heq]
    · exact ⟨Ctl.rise_linkUp h, fun _ => hcarries⟩
    · exact ⟨Ctl.rise_toldLseq h, fun _ => hcarries⟩
    · have hfew : ((c.toldLseq p q).sub p q).replays < 8 := by simp [hup, SubPort.risen, ht]
      have hmem : e ∈ ((c.toldLseq p q).sub p q).replay := by simp [hup, SubPort.risen, he]
      obtain ⟨hrise, hst⟩ := Ctl.rise_replayFrom hcarries hfew ⟨e, hmem, lseqBefore_self _⟩
      refine ⟨(Ctl.rise_toldLseq h).trans hrise, fun _ => ?_⟩
      rw [SubPort.carries, hst]
      exact hcarries
  · have hoff := Bool.eq_false_iff.mpr h
    rw [Ctl.comeUp_off hoff]
    exact ⟨.refl c, fun hon => absurd hon h⟩

/-! ### Lanes and width (R63-R67) -/

theorem Ctl.lanes_setFree (c : Ctl) (n : Nat) : (c.setFree n).lanes = c.lanes := by
  obtain h | h := c.setFree_cases n
  · rw [h, Ctl.wr_lanes]
  · rw [h, Ctl.wr_lanes, Ctl.wr_lanes]

theorem Ctl.lanes_dropList (c : Ctl) (q s : Nat) : (c.dropList q s false).lanes = c.lanes := Ctl.lanes_setFree _ _

theorem Ctl.lanes_flushSub (c : Ctl) (p s : Nat) : (c.flushSub p s).lanes = c.lanes :=
  List.foldlRecOn (motive := fun (d : Ctl) => d.lanes = c.lanes) (List.range 8) _ rfl (fun d h _ _ => (d.lanes_dropList _ s).trans h)

theorem Ctl.lanes_linkDrop (c : Ctl) (p q : Nat) : (c.linkDrop p q).lanes = c.lanes := by
  obtain ⟨n, h⟩ := c.linkDrop_eq p q
  rw [h, Ctl.putSub_lanes, Ctl.bumpBy_lanes, Ctl.lanes_flushSub]

theorem Ctl.lanes_countTrain (c : Ctl) (p q : Nat) : (c.countTrain p q).lanes = c.lanes :=
  List.foldlRecOn (motive := fun d : Ctl => d.lanes = c.lanes) _ _
    ((Ctl.bumpF_lanes (c.linkDrop p q) (Reg.retrainCnt p) 1).trans (c.lanes_linkDrop p q)) (fun d h _ _ => (d.logs_report _).lanes.trans h)

theorem Ctl.lanes_linkQuar (c : Ctl) (p q : Nat) : (c.linkQuar p q).lanes = c.lanes := (Ctl.putSub_lanes _ _ _ _).trans (c.lanes_linkDrop p q)

theorem Ctl.lanes_linkTrain (c : Ctl) (p q : Nat) : (c.linkTrain p q).lanes = c.lanes := by
  obtain ⟨x, h | h⟩ := c.linkTrain_cases p q <;> rw [h]
  · rw [Ctl.putSub_lanes, c.lanes_countTrain p q]
  · rw [Ctl.lanes_linkQuar, Ctl.putSub_lanes, c.lanes_countTrain p q]

theorem Ctl.oneSub_linkQuar (c : Ctl) (p q : Nat) : c.OneSub p q (c.linkQuar p q) := (c.oneSub_linkDrop p q).putSub _

theorem Ctl.oneSub_linkTrain (c : Ctl) (p q : Nat) : c.OneSub p q (c.linkTrain p q) := by
  obtain ⟨x, h | h⟩ := c.linkTrain_cases p q <;> rw [h]
  · exact (c.oneSub_countTrain p q).putSub x
  · exact ((c.oneSub_countTrain p q).putSub x).trans (Ctl.oneSub_linkQuar _ p q)

theorem Ctl.oneSub_linkAlign (c : Ctl) (p q : Nat) (l : BitVec 4) (first : Bool) : c.OneSub p q (c.linkAlign p q l first) := c.oneSub_putSub p q _

theorem Ctl.subOfLane_lt {c : Ctl} {p m q : Nat} (h : c.subOfLane p m = some q) : q < 4 := List.mem_range.mp (List.mem_of_find?_eq_some h)

/-- Narrowing moves one sub-port of the port and no lane. -/
theorem Ctl.laneNarrow_spec (c : Ctl) (p m : Nat) : (c.laneNarrow p m).lanes = c.lanes ∧ ∃ q : Fin 4, c.OneSub p q.val (c.laneNarrow p m) := by
  unfold Ctl.laneNarrow
  split
  case h_1 => exact ⟨rfl, 0, Ctl.oneSub_of_subs rfl _ _⟩
  case h_2 q hq =>
    suffices h : _ ∧ c.OneSub p q _ from ⟨h.1, ⟨q, Ctl.subOfLane_lt hq⟩, h.2⟩
    split
    · split
      · exact ⟨c.lanes_linkTrain p q, c.oneSub_linkTrain p q⟩
      · exact ⟨rfl, c.oneSub_linkAlign p q _ _⟩
    · exact ⟨rfl, Ctl.oneSub_of_subs rfl _ _⟩

theorem Ctl.lane_congr {c d : Ctl} (h : d.lanes = c.lanes) (p : Nat) : d.lane p = c.lane p := by
  simp only [Ctl.lane, h]

theorem laneFail_completes (p : Fin 128) (m : Fin 4) (s : State) (hmain : s.ctl.mainUp = true)
    (hlit : bitOf (s.ctl.lane p.val).failed.toNat m.val = false) : Completes (.laneFail p m) s (fun t =>
    (t.ctl.lane p.val).failed = (s.ctl.lane p.val).failed ||| BitVec.ofNat 4 (2 ^ m.val)
    ∧ (∀ r : Fin 128, r ≠ p → t.ctl.lane r.val = s.ctl.lane r.val) ∧ OtherPorts s t p.val ∧ Keeps s t) := by
  have hrun : s.ctl.laneFail p.val m.val = (s.ctl.laneMarked p.val m.val).laneNarrow p.val m.val := by
    rw [Ctl.laneFail_eq, hlit]
    rfl
  obtain ⟨hlanes, q, hone⟩ := (s.ctl.laneMarked p.val m.val).laneNarrow_spec p.val m.val
  have hlog := Ctl.logs_report (s.ctl.putLane p.val { s.ctl.lane p.val with failed := (s.ctl.lane p.val).failed ||| BitVec.ofNat 4 (2 ^ m.val) })
    (rep 0x01 0x08 (4 * p.val + m.val))
  have hlane := fun r => Ctl.lane_congr (hlanes.trans hlog.lanes) r
  refine Completes.onCtl (congrArg done (s.whenMain_on _ hmain)) hrun ⟨?_, fun r hr => ?_, ?_, rfl, rfl⟩
  · exact (congrArg PortLanes.failed (hlane p.val)).trans (congrArg PortLanes.failed (Ctl.lane_putLane _ _ _))
  · exact (hlane r.val).trans (Ctl.lane_putLane_ne _ _ _ _ (fun h => hr (Fin.ext h)))
  · exact otherPorts_of_oneSub ((Ctl.oneSub_of_subs (c := s.ctl) hlog.subs p.val q.val).trans hone)

/-- A sub-port in ALIGN whose change of width was exchanged. -/
def SubPort.rewidened (x : SubPort) (l : BitVec 4) : SubPort := { x with accepted := true, lanes := l }

theorem Ctl.widthChange_aligned {c : Ctl} {p q : Nat} {lanes : BitVec 4} (hst : (c.sub p q).st = .align) (haligned : (c.sub p q).aligned = true)
    (hfirst : (c.sub p q).firstAlign = false) (h : lanes &&& c.usable p q ≠ 0) :
    c.widthChange p q lanes = (c.putSub p q ((c.sub p q).rewidened (lanes &&& c.usable p q))).comeUp p q := by
  have hne : (lanes &&& c.usable p q != 0) = true := bne_iff_ne.mpr h
  simp only [Ctl.widthChange, SubPort.rewidened, hst, haligned, hfirst, hne]
  simp

theorem widthChange_completes (p : Fin 128) (q : Fin 4) (lanes : BitVec 4) (s : State) (hmain : s.ctl.mainUp = true)
    (hst : (s.ctl.sub p.val q.val).st = .align) (haligned : (s.ctl.sub p.val q.val).aligned = true)
    (hfirst : (s.ctl.sub p.val q.val).firstAlign = false) (h : lanes &&& s.ctl.usable p.val q.val ≠ 0) :
    Completes (.widthChange p q lanes) s (fun t =>
    (t.ctl.sub p.val q.val).accepted = true ∧ (t.ctl.sub p.val q.val).lanes = lanes &&& s.ctl.usable p.val q.val
    ∧ ((s.ctl.sub p.val q.val).enc = false → (t.ctl.sub p.val q.val).carries = true) ∧ OtherPorts s t p.val ∧ Keeps s t) := by
  obtain ⟨hrise, hcarries⟩ := Ctl.rise_comeUp (s.ctl.putSub p.val q.val ((s.ctl.sub p.val q.val).rewidened (lanes &&& s.ctl.usable p.val q.val)))
    p.val q.val
  have hsub := hrise.sub
  rw [Ctl.sub_putSub] at hsub hcarries
  refine Completes.onCtl (congrArg done (s.whenMain_on _ hmain)) (Ctl.widthChange_aligned hst haligned hfirst h)
    ⟨(congrArg SubPort.accepted hsub :), (congrArg SubPort.lanes hsub :), fun henc => hcarries ?_,
      otherPorts_of_oneSub (q := q) ((s.ctl.oneSub_putSub _ _ _).trans hrise.one), rfl, rfl⟩
  simp [SubPort.mayRise, SubPort.rewidened, hst, haligned, henc]

/-- The lanes of a port with lane m fit again. -/
def PortLanes.readded (l : PortLanes) (m : Nat) : PortLanes :=
  { l with failed := l.failed &&& ~~~ BitVec.ofNat 4 (2 ^ m), recal := l.recal &&& ~~~ BitVec.ofNat 4 (2 ^ m) }

/-- A sub-port that a lane widens goes through ALIGN (R65). -/
def Ctl.laneWiden (c : Ctl) (p m : Nat) : Ctl :=
  match c.subOfLane p m with
  | none => c
  | some s => if (c.sub p s).carries && c.usable p s ≠ (c.sub p s).lanes && c.usable p s != 0 then c.linkAlign p s (c.usable p s) false else c

theorem Ctl.laneWiden_spec (c : Ctl) (p m : Nat) : ∃ q : Fin 4, c.laneWiden p m = c ∨ ∃ x, c.laneWiden p m = c.putSub p q.val x := by
  unfold Ctl.laneWiden
  split
  case h_1 => exact ⟨0, .inl rfl⟩
  case h_2 q hq =>
    refine ⟨⟨q, Ctl.subOfLane_lt hq⟩, ?_⟩
    split
    · exact .inr ⟨_, rfl⟩
    · exact .inl rfl

theorem bit_ne_zero_of_failed : ∀ f r : BitVec 4, ∀ m : Fin 4, bitOf f.toNat m.val = true → (f ||| r) &&& BitVec.ofNat 4 (2 ^ m.val) ≠ 0 := by decide

theorem Ctl.laneReadd_failed {c : Ctl} {p : Nat} {m : Fin 4} (h : bitOf (c.lane p).failed.toNat m.val = true) :
    c.laneReadd p m.val = (c.putLane p ((c.lane p).readded m.val)).laneWiden p m.val :=
  if_neg (bit_ne_zero_of_failed _ _ m h)

theorem laneReadd_completes (p : Fin 128) (m : Fin 4) (s : State) (hmain : s.ctl.mainUp = true)
    (hfailed : bitOf (s.ctl.lane p.val).failed.toNat m.val = true) : Completes (.laneReadd p m) s (fun t =>
    (t.ctl.lane p.val).failed = (s.ctl.lane p.val).failed &&& ~~~ BitVec.ofNat 4 (2 ^ m.val)
    ∧ (t.ctl.lane p.val).recal = (s.ctl.lane p.val).recal &&& ~~~ BitVec.ofNat 4 (2 ^ m.val)
    ∧ Only s t (fun c => { c with subs := t.ctl.subs, lanes := t.ctl.lanes }) ∧ OtherPorts s t p.val) := by
  have hlane : (s.ctl.putLane p.val ((s.ctl.lane p.val).readded m.val)).lane p.val = _ := Ctl.lane_putLane _ _ _
  obtain ⟨q, h | ⟨x, h⟩⟩ := (s.ctl.putLane p.val ((s.ctl.lane p.val).readded m.val)).laneWiden_spec p.val m.val
  · exact Completes.onCtl (congrArg done (s.whenMain_on _ hmain)) ((Ctl.laneReadd_failed hfailed).trans h)
      ⟨congrArg PortLanes.failed hlane, congrArg PortLanes.recal hlane, rfl, fun _ _ _ => rfl⟩
  · exact Completes.onCtl (congrArg done (s.whenMain_on _ hmain)) ((Ctl.laneReadd_failed hfailed).trans h)
      ⟨congrArg PortLanes.failed hlane, congrArg PortLanes.recal hlane, rfl,
        otherPorts_of_oneSub (q := q) ((Ctl.oneSub_of_subs (Ctl.putLane_subs _ _ _) _ _).putSub x)⟩

/-- A re-calibration that has to wait: the width may not change, or the lane is the only one (R67). -/
theorem Ctl.laneRecal_deferred {c : Ctl} {p m q : Nat} (hsub : c.subOfLane p m = some q) (hcarries : (c.sub p q).carries = true)
    (hlit : (c.sub p q).lanes &&& BitVec.ofNat 4 (2 ^ m) ≠ 0) (h : c.rd (Reg.cfgDegrade p) = 0 ∨ popCount 4 (c.sub p q).lanes.toNat = 1) :
    c.laneRecal p m = (c.putLane p { c.lane p with deferred := (c.lane p).deferred ||| BitVec.ofNat 4 (2 ^ m) }).report
      (repInfo 0x01 0x1D (4 * p + m) 2) := by
  have hwait : (decide (c.rd (Reg.cfgDegrade p) = 0) || decide (popCount 4 (c.sub p q).lanes.toNat = 1)) = true := by
    simpa using h
  simp only [Ctl.laneRecal, hsub, hcarries, hlit, hwait]
  rfl

/-- A re-calibration through a change of width (R67). -/
theorem Ctl.laneRecal_now {c : Ctl} {p m q : Nat} (hsub : c.subOfLane p m = some q) (hcarries : (c.sub p q).carries = true)
    (hlit : (c.sub p q).lanes &&& BitVec.ofNat 4 (2 ^ m) ≠ 0) (h : ¬ (c.rd (Reg.cfgDegrade p) = 0 ∨ popCount 4 (c.sub p q).lanes.toNat = 1)) :
    ∃ l, c.laneRecal p m = (c.putLane p { c.lane p with recal := (c.lane p).recal ||| BitVec.ofNat 4 (2 ^ m) }).linkAlign p q l false := by
  have hgo : (decide (c.rd (Reg.cfgDegrade p) = 0) || decide (popCount 4 (c.sub p q).lanes.toNat = 1)) = false := by
    simpa using h
  simp only [Ctl.laneRecal, hsub, hcarries, hlit, hgo]
  exact ⟨_, rfl⟩

theorem laneRecalibration_completes (p : Fin 128) (m q : Fin 4) (s : State) (hmain : s.ctl.mainUp = true)
    (hsub : s.ctl.subOfLane p.val m.val = some q.val) (hcarries : (s.ctl.sub p.val q.val).carries = true)
    (hlit : (s.ctl.sub p.val q.val).lanes &&& BitVec.ofNat 4 (2 ^ m.val) ≠ 0) : Completes (.laneRecalibration p m) s (fun t =>
    (s.ctl.rd (Reg.cfgDegrade p.val) = 0 ∨ popCount 4 (s.ctl.sub p.val q.val).lanes.toNat = 1 →
      (t.ctl.lane p.val).deferred = (s.ctl.lane p.val).deferred ||| BitVec.ofNat 4 (2 ^ m.val) ∧ t.ctl.subs = s.ctl.subs)
    ∧ (s.ctl.rd (Reg.cfgDegrade p.val) ≠ 0 → popCount 4 (s.ctl.sub p.val q.val).lanes.toNat ≠ 1 →
      (t.ctl.lane p.val).recal = (s.ctl.lane p.val).recal ||| BitVec.ofNat 4 (2 ^ m.val) ∧ Entered t p.val q.val .align)
    ∧ OtherPorts s t p.val ∧ Keeps s t) := by
  have hexec : exec (.laneRecalibration p m) s = done (s.onCtl (·.laneRecal p.val m.val)) := congrArg done (s.whenMain_on _ hmain)
  by_cases h : s.ctl.rd (Reg.cfgDegrade p.val) = 0 ∨ popCount 4 (s.ctl.sub p.val q.val).lanes.toNat = 1
  · have hlog := Ctl.logs_report (s.ctl.putLane p.val { s.ctl.lane p.val with
      deferred := (s.ctl.lane p.val).deferred ||| BitVec.ofNat 4 (2 ^ m.val) }) (repInfo 0x01 0x1D (4 * p.val + m.val) 2)
    refine Completes.onCtl hexec (Ctl.laneRecal_deferred hsub hcarries hlit h)
      ⟨fun _ => ⟨?_, hlog.subs⟩, fun hdeg hone => absurd h (not_or.mpr ⟨hdeg, hone⟩), otherPorts_of_subs _ hlog.subs, rfl, rfl⟩
    exact (congrArg PortLanes.deferred (Ctl.lane_congr hlog.lanes p.val)).trans (congrArg PortLanes.deferred (Ctl.lane_putLane _ _ _))
  · obtain ⟨l, hrun⟩ := Ctl.laneRecal_now hsub hcarries hlit h
    rw [Ctl.linkAlign_eq] at hrun
    exact Completes.onCtl hexec hrun
      ⟨fun hwait => absurd hwait h,
        fun _ _ => ⟨congrArg PortLanes.recal (Ctl.lane_putLane _ _ _), congrArg SubPort.st (Ctl.sub_putSub _ _ _ _),
          congrArg SubPort.since (Ctl.sub_putSub _ _ _ _)⟩,
        otherPorts_of_oneSub (q := q) ((Ctl.oneSub_of_subs (Ctl.putLane_subs _ _ _) _ _).putSub _), rfl, rfl⟩

/-- Settles O12. A lane that fails or comes back moves one sub-port of its own port at most; a change of width ends by coming up from ALIGN.
It rests on log entries 34, 35 and 99, as the statement says. -/
theorem lanesAndWidth : Obligations.LanesAndWidth := by
  unfold Obligations.LanesAndWidth
  exact ⟨laneFail_completes, widthChange_completes, laneReadd_completes, laneRecalibration_completes⟩

end Sys2Proof.Machine

namespace Sys2Proof.Machine

/-! ### Frames on the move: what reception, queueing and sending touch -/

/-- `c` with the records of `d` that moving frames touches. -/
def Ctl.withMoves (c d : Ctl) : Ctl :=
  { c with out := d.out, regs := d.regs, subs := d.subs, pairs := d.pairs, flask := d.flask, scheds := d.scheds, intHeld := d.intHeld,
           tracker := d.tracker, nextId := d.nextId }

/-- `d` is `c` after frames moved: rights, requests and everything behind them stand. -/
structure Ctl.Moves (c d : Ctl) : Prop where
  same : d = c.withMoves d

theorem Ctl.Moves.trans {c d e : Ctl} (h : c.Moves d) (k : d.Moves e) : c.Moves e :=
  ⟨k.same.trans (congrArg (fun x : Ctl => x.withMoves e) h.same :)⟩

theorem Ctl.Moves.now {c d : Ctl} (h : c.Moves d) : d.now = c.now := (congrArg Ctl.now h.same :)
theorem Ctl.Moves.opens {c d : Ctl} (h : c.Moves d) : d.opens = c.opens := (congrArg Ctl.opens h.same :)
theorem Ctl.Moves.sameRights {s : State} {d : Ctl} (h : s.ctl.Moves d) : SameRights s { s with ctl := d } :=
  ⟨(congrArg Ctl.bays h.same :), (congrArg Ctl.exts h.same :), (congrArg Ctl.eps h.same :), (congrArg Ctl.kvRegions h.same :)⟩

theorem Ctl.moves_putSub (c : Ctl) (p q : Nat) (x : SubPort) : c.Moves (c.putSub p q x) := ⟨rfl⟩
theorem Ctl.Moves.of_subs {c d : Ctl} {x : Tab SubPort} (h : d = { c with subs := x }) : c.Moves d := by
  subst h
  exact ⟨rfl⟩
theorem Ctl.moves_putReg (c : Ctl) (a : Nat) (v : Word) : c.Moves (c.putReg a v) := ⟨rfl⟩
theorem Ctl.moves_bumpBy (c : Ctl) (a n : Nat) : c.Moves (c.bumpBy a n) := c.moves_putReg _ _
theorem Ctl.moves_bump (c : Ctl) (a : Nat) : c.Moves (c.bump a) := c.moves_bumpBy a 1

/-! ### Flask: admission (R99, R101, R103) -/

@[simp] theorem FlaskQ.list_put (q : FlaskQ) (s : Nat) (l : List QFrame) : (q.put s l).list s = l := by
  match s with
  | 0 | 1 | 2 | n + 3 => rfl

/-- `c` with Flask's records of `d`. -/
def Ctl.withFlask (c d : Ctl) : Ctl := { c with regs := d.regs, flask := d.flask, scheds := d.scheds }

/-- `d` is `c` after Flask worked on queue q: of the registers at most its free counts moved (Table 4.3). -/
structure Ctl.FlaskWork (q : Nat) (c d : Ctl) : Prop where
  same : d = c.withFlask d
  regs : ∀ a, a ≠ 0x04000000 → d.reg a = c.reg a
  others : ∀ m, m ≠ q → d.fq m = c.fq m

theorem Ctl.FlaskWork.refl (q : Nat) (c : Ctl) : c.FlaskWork q c := ⟨rfl, fun _ _ => rfl, fun _ _ => rfl⟩

theorem Ctl.FlaskWork.trans {q : Nat} {c d e : Ctl} (h : c.FlaskWork q d) (k : d.FlaskWork q e) : c.FlaskWork q e where
  same := k.same.trans (congrArg (fun x : Ctl => x.withFlask e) h.same :)
  regs a ha := (k.regs a ha).trans (h.regs a ha)
  others m hm := (k.others m hm).trans (h.others m hm)

theorem Ctl.flaskWork_wr (q : Nat) (c : Ctl) (f : Fld) (v : Nat) (h : f.addr = 0x04000000) : c.FlaskWork q (c.wr f v) :=
  ⟨rfl, fun a ha => Ctl.reg_wr_ne c f v a (h ▸ ha), fun _ _ => rfl⟩

theorem Ctl.flaskWork_setFree (q : Nat) (c : Ctl) (n : Nat) : c.FlaskWork q (c.setFree n) := by
  obtain h | h := c.setFree_cases n <;> rw [h]
  · exact c.flaskWork_wr q _ _ rfl
  · exact (c.flaskWork_wr q _ _ rfl).trans (Ctl.flaskWork_wr q _ _ _ rfl)

theorem Ctl.flaskWork_putFq (c : Ctl) (q : Nat) (v : FlaskQ) : c.FlaskWork q (c.putFq q v) :=
  ⟨rfl, fun _ _ => rfl, fun m hm => c.fq_putFq_ne q v m hm⟩

theorem Ctl.flaskWork_putSched (q : Nat) (c : Ctl) (k : Nat) (v : Sched) : c.FlaskWork q (c.putSched k v) := ⟨rfl, fun _ _ => rfl, fun _ _ => rfl⟩

theorem Ctl.FlaskWork.moves {q : Nat} {c d : Ctl} (h : c.FlaskWork q d) : c.Moves d where
  same := by
    have hout : d.out = c.out := (congrArg Ctl.out h.same :)
    have hsubs : d.subs = c.subs := (congrArg Ctl.subs h.same :)
    have hpairs : d.pairs = c.pairs := (congrArg Ctl.pairs h.same :)
    have hheld : d.intHeld = c.intHeld := (congrArg Ctl.intHeld h.same :)
    have htracker : d.tracker = c.tracker := (congrArg Ctl.tracker h.same :)
    have hid : d.nextId = c.nextId := (congrArg Ctl.nextId h.same :)
    rw [Ctl.withMoves, hout, hsubs, hpairs, hheld, htracker, hid]
    exact h.same

theorem Ctl.FlaskWork.subs {q : Nat} {c d : Ctl} (h : c.FlaskWork q d) : d.subs = c.subs := (congrArg Ctl.subs h.same :)

/-- A frame at the tail of a sub-list, its cells taken from the free ones. -/
def Ctl.queued (c : Ctl) (q s : Nat) (f : Frame) (via : Option Nat) : Ctl :=
  let d := c.setFree (c.freeF - (sharedCells ((c.fq q).len + cellsOf f) - sharedCells (c.fq q).len))
  d.putFq q ((c.fq q).put s ((c.fq q).list s ++ [{ frame := f, cells := cellsOf f, stamp := d.now, via := via }]))

/-- The class of a queue takes its turn again (R109). -/
def Ctl.activated (c : Ctl) (q s : Nat) : Ctl :=
  let d := c.sched (schedKey q s)
  if q % 8 = 0 || d.active.contains (q % 8) then c else c.putSched (schedKey q s) { d with active := d.active ++ [q % 8] }

theorem Ctl.admitVia_eq (c : Ctl) (q s : Nat) (f : Frame) (via : Option Nat) :
    c.admitVia q s f via = if c.wouldAdmit q f then some ((c.queued q s f via).activated q s) else none := rfl

theorem Ctl.activated_cases (c : Ctl) (q s : Nat) : c.activated q s = c ∨ ∃ d, c.activated q s = c.putSched (schedKey q s) d := by
  unfold Ctl.activated
  dsimp only
  split
  · exact .inl rfl
  · exact .inr ⟨_, rfl⟩

theorem Ctl.flaskWork_activated (c : Ctl) (q s : Nat) : c.FlaskWork q (c.activated q s) := by
  obtain h | ⟨d, h⟩ := c.activated_cases q s <;> rw [h]
  · exact .refl q c
  · exact c.flaskWork_putSched q _ _

theorem Ctl.fq_activated (c : Ctl) (q s m : Nat) : (c.activated q s).fq m = c.fq m := by
  obtain h | ⟨d, h⟩ := c.activated_cases q s <;> rw [h]
  rfl

/-- A frame that passes the admission test stands at the tail of its sub-list; no other queue moves (R103). -/
theorem Ctl.admitVia_spec {c : Ctl} {q : Nat} {f : Frame} (h : c.wouldAdmit q f = true) (s : Nat) (via : Option Nat) : ∃ d,
    c.admitVia q s f via = some d ∧ c.FlaskWork q d
    ∧ d.fq q = (c.fq q).put s ((c.fq q).list s ++ [{ frame := f, cells := cellsOf f, stamp := c.now, via := via }]) := by
  refine ⟨(c.queued q s f via).activated q s, (c.admitVia_eq q s f via).trans (if_pos h), ?_, ?_⟩
  · exact ((c.flaskWork_setFree q _).trans (Ctl.flaskWork_putFq _ q _)).trans (Ctl.flaskWork_activated _ q s)
  · rw [Ctl.fq_activated, Ctl.queued, Ctl.fq_putFq, Ctl.now_setFree]

/-- The admission test looks at the queue, at Flask's free count and at the queue's configuration. -/
theorem Ctl.wouldAdmit_congr {c d : Ctl} {q : Nat} (hflask : d.flask = c.flask) (hfree : d.reg 0x04000000 = c.reg 0x04000000)
    (hcfg : d.reg (Reg.queueBase q) = c.reg (Reg.queueBase q)) (f : Frame) : d.wouldAdmit q f = c.wouldAdmit q f := by
  have hf : d.freeF = c.freeF := Ctl.rd_congr hfree
  have hk : d.rd (Reg.alphaK q) = c.rd (Reg.alphaK q) := Ctl.rd_congr hcfg
  simp only [Ctl.wouldAdmit, Ctl.fq, hflask, hf, hk]

/-! ### The release tracker (R155) -/

/-- `d` is `c` after a request entered its release tracker: of the registers at most the tracker's high mark moved. -/
structure Ctl.Tracks (c d : Ctl) : Prop where
  same : d = { c with tracker := d.tracker, nextId := d.nextId, regs := d.regs }
  regs : ∀ a, a ≠ 0x06000008 → d.reg a = c.reg a

theorem Ctl.Tracks.refl (c : Ctl) : c.Tracks c := ⟨rfl, fun _ _ => rfl⟩

theorem Ctl.track_spec {c d : Ctl} {f : Frame} (h : c.track f = some d) : c.Tracks d := by
  unfold Ctl.track at h
  split at h
  · rw [← Option.some.inj h]
    exact .refl c
  · dsimp only at h
    split at h
    · cases h
    · rw [← Option.some.inj h]
      split
      · exact ⟨rfl, fun a ha => Ctl.reg_wr_ne _ _ _ a ha⟩
      · exact ⟨rfl, fun _ _ => rfl⟩

theorem Ctl.tracks_getD (c : Ctl) (f : Frame) : c.Tracks ((c.track f).getD c) := by
  cases h : c.track f with
  | none => exact .refl c
  | some d => exact Ctl.track_spec h

theorem Ctl.Tracks.moves {c d : Ctl} (h : c.Tracks d) : c.Moves d where
  same := by
    have hout : d.out = c.out := (congrArg Ctl.out h.same :)
    have hsubs : d.subs = c.subs := (congrArg Ctl.subs h.same :)
    have hpairs : d.pairs = c.pairs := (congrArg Ctl.pairs h.same :)
    have hflask : d.flask = c.flask := (congrArg Ctl.flask h.same :)
    have hscheds : d.scheds = c.scheds := (congrArg Ctl.scheds h.same :)
    have hheld : d.intHeld = c.intHeld := (congrArg Ctl.intHeld h.same :)
    rw [Ctl.withMoves, hout, hsubs, hpairs, hflask, hscheds, hheld]
    exact h.same

/-! ### Reception (R75-R77, R82) -/

/-- A sub-port that accepts the next LSEQ; the acknowledgement is then due. -/
def SubPort.accepting (x : SubPort) (now : Nat) : SubPort :=
  { x with rxLseq := x.rxLseq + 1, rxCount := x.rxCount + 1, waitSince := some (x.waitSince.getD now) }

/-- A sub-port after a trailer: its LACK releases replay entries, its credits count (R80, R82). -/
def SubPort.trailed (x : SubPort) (t : Trailer) (now : Nat) : SubPort :=
  let stay := x.replay.filter (fun (e : ReplayEnt) => !lseqBefore e.lseq t.lack)
  { x with
    credits := addAt (addAt x.credits t.cr0tc.toNat t.cr0cnt.toNat) t.cr1tc.toNat t.cr1cnt.toNat, replay := stay,
    progressAt := if stay.length < x.replay.length then now else x.progressAt, replays := if stay.length < x.replay.length then 0 else x.replays }

theorem Ctl.takeTrailer_eq (c : Ctl) (p q : Nat) (t : Trailer) : c.takeTrailer p q t = c.putSub p q ((c.sub p q).trailed t c.now) := rfl

/-- The control records after the link accepted a frame. -/
def Ctl.linkAccepts (c : Ctl) (p q : Nat) (t : Trailer) : Ctl := (c.putSub p q ((c.sub p q).accepting c.now)).takeTrailer p q t

theorem Ctl.sub_linkAccepts (c : Ctl) (p q : Nat) (t : Trailer) :
    (c.linkAccepts p q t).sub p q = ((c.sub p q).accepting c.now).trailed t c.now := by
  rw [Ctl.linkAccepts, Ctl.takeTrailer_eq, Ctl.sub_putSub, Ctl.sub_putSub]
  rfl

/-- What a sub-port whose link carries traffic does with a frame of the expected LSEQ that passes its checks. -/
structure RxPasses (c : Ctl) (p q : Nat) (x : RxFrame) : Prop where
  carries : (c.sub p q).carries = true
  fcs : x.fcsOk = true
  etype : x.etype.toNat = c.rd (Reg.cfgEtype p)
  kind : x.frame.kind ≠ kLinkCtl
  enc : x.encrypted = (c.sub p q).enc
  tag : x.tagOk = true
  lseq : x.trailer.lseq = (c.sub p q).rxLseq
  header : headerOk x = true
  admitted : (c.sub p q).eps.contains x.frame.src.toNat = true
  live : c.liveInc x.frame.src.toNat x.frame.inc = true

theorem State.receive_accepts {s : State} {p q : Nat} {x : RxFrame} (h : RxPasses s.ctl p q x) :
    s.receive p q x = (s.onCtl (·.linkAccepts p q x.trailer)).checkFrame p q x := by
  unfold State.receive
  dsimp only
  rw [if_neg (by simp [h.carries]), if_neg (by simp [h.fcs]), if_neg (by simp [h.etype]), if_neg h.kind, if_neg (by simp [h.carries]),
    if_neg (by simp [h.enc, h.tag]), if_neg (by simp [h.lseq])]
  rfl

/-- A frame that passes R76 and R77 goes to admission. -/
theorem State.checkFrame_passes {s : State} {p q : Nat} {x : RxFrame} (hheader : headerOk x = true)
    (hadmitted : (s.ctl.sub p q).eps.contains x.frame.src.toNat = true) (hlive : s.ctl.liveInc x.frame.src.toNat x.frame.inc = true) :
    s.checkFrame p q x = (s.onCtl (·.bump (Reg.lnkCtr p q 0x00))).ingress p q x.frame x.wireBytes := by
  unfold State.checkFrame
  dsimp only
  rw [if_neg (by rw [hheader, hadmitted]; simp), if_neg (by simp [hlive])]

/-- A fresh frame goes on; if it is for the SG7 it may enter its release tracker (R155). -/
theorem Ctl.arrive_spec {c : Ctl} {f : Frame} (hfresh : f.sequenced = true → (c.pair f.src.toNat).fit f.seq = .fresh)
    (via : Nat) : ∃ d, c.arrive f via = (d, true) ∧ c.Tracks d := by
  unfold Ctl.arrive
  dsimp only
  split
  case isTrue h =>
    have hseq : f.sequenced = true := (Bool.and_eq_true_iff.mp h).2
    rw [hfresh hseq]
    exact ⟨_, rfl, c.tracks_getD f⟩
  case isFalse => exact ⟨c, rfl, .refl c⟩

/-- A frame for the SG7 that passes the admission test of its internal queue. -/
theorem State.enter_admits {s : State} {f : Frame} (hdst : f.dst = 0xFFF)
    (h : s.ctl.wouldAdmit (innerQueue (innerPort f) f.tc.toNat) f = true) (via : Nat) : ∃ d, s.enter f via = { s with ctl := d }
    ∧ s.ctl.FlaskWork (innerQueue (innerPort f) f.tc.toNat) d
    ∧ (d.fq (innerQueue (innerPort f) f.tc.toNat)).s0 = (s.ctl.fq (innerQueue (innerPort f) f.tc.toNat)).s0
      ++ [{ frame := f, cells := cellsOf f, stamp := s.ctl.now, via := some via }] := by
  obtain ⟨d, hd, hwork, hfq⟩ := Ctl.admitVia_spec h 0 (some via)
  refine ⟨d, ?_, hwork, congrArg FlaskQ.s0 hfq⟩
  unfold State.enter
  rw [if_pos hdst]
  simp only [hd]

theorem Ctl.queueFor_inner {c : Ctl} {f : Frame} (hdst : f.dst = 0xFFF) : c.queueFor f = some (innerQueue (innerPort f) f.tc.toNat, 0) := if_pos hdst

/-- A frame for the SG7 of a class without an ingress buffer, with room in its queue (R103, R105). -/
theorem State.ingress_admits {s : State} {p q : Nat} {f : Frame} {bytes : Nat} {d : Ctl} (hdst : f.dst = 0xFFF) (htc : 3 ≤ f.tc.toNat)
    (harrive : s.ctl.arrive f (4 * p + q) = (d, true)) :
    s.ingress p q f bytes = (({ s with ctl := d } : State).enter f (4 * p + q)).onCtl (·.oweCredits p q f.tc.toNat bytes) := by
  have hlate : decide (f.tc.toNat ≤ 2) = false := by simp; omega
  unfold State.ingress
  simp only [harrive, Ctl.queueFor_inner hdst, hlate]
  rfl

theorem Ctl.oweCredits_eq (c : Ctl) (p q cls bytes : Nat) : ∃ x, x.rxLseq = (c.sub p q).rxLseq ∧ c.oweCredits p q cls bytes = c.putSub p q x :=
  ⟨_, by rfl, rfl⟩

theorem innerPort_lt (f : Frame) : innerPort f < 16 := by
  unfold innerPort
  split
  · decide
  · split
    · decide
    · split
      · decide
      · exact lt_trans (Nat.mod_lt _ (by decide)) (by decide)

theorem innerQueue_lt (f : Frame) : innerQueue (innerPort f) f.tc.toNat < 1152 := by
  have hport := innerPort_lt f
  have htc : f.tc.toNat < 8 := f.tc.isLt
  unfold innerQueue
  omega

/-- Outside Flask's registers nothing decides on admission. -/
theorem Ctl.wouldAdmit_apart {c d : Ctl} {q : Nat} (hq : q < 1152) (hflask : d.flask = c.flask)
    (hreg : ∀ a, 0x04000000 ≤ a → a < 0x05000000 → d.reg a = c.reg a) (f : Frame) : d.wouldAdmit q f = c.wouldAdmit q f :=
  Ctl.wouldAdmit_congr hflask (hreg _ (by decide) (by decide))
    (hreg _ (by simp only [Reg.queueBase]; omega) (by simp only [Reg.queueBase]; omega)) f

/-- The counters of a link lie below Flask's registers. -/
theorem lnkCtr_lt (p : Fin 128) (q : Fin 4) {off : Nat} (h : off < 0x100) : Reg.lnkCtr p.val q.val off < 0x04000000 := by
  simp only [Reg.lnkCtr, Reg.portBase]
  omega

/-- A frame that passed R76 and R77, for the SG7, of a class without an ingress buffer and with room in its queue: it stands there,
its credits are owed (R81, R103). -/
theorem State.ingress_spec {s : State} {p q : Nat} {f : Frame} {bytes : Nat} (hdst : f.dst = 0xFFF)
    (hfresh : f.sequenced = true → (s.ctl.pair f.src.toNat).fit f.seq = .fresh) (htc : 3 ≤ f.tc.toNat)
    (hroom : s.ctl.wouldAdmit (innerQueue (innerPort f) f.tc.toNat) f = true) : ∃ d, s.ingress p q f bytes = { s with ctl := d }
    ∧ (d.sub p q).rxLseq = (s.ctl.sub p q).rxLseq ∧ s.ctl.Moves d
    ∧ (d.fq (innerQueue (innerPort f) f.tc.toNat)).s0 = (s.ctl.fq (innerQueue (innerPort f) f.tc.toNat)).s0
      ++ [{ frame := f, cells := cellsOf f, stamp := s.ctl.now, via := some (4 * p + q) }]
    ∧ ∀ m, m ≠ innerQueue (innerPort f) f.tc.toNat → d.fq m = s.ctl.fq m := by
  obtain ⟨a, harrive, htracks⟩ := Ctl.arrive_spec (c := s.ctl) hfresh (4 * p + q)
  have hflask : a.flask = s.ctl.flask := (congrArg Ctl.flask htracks.same :)
  have hfq : ∀ m, a.fq m = s.ctl.fq m := fun m => by simp only [Ctl.fq, hflask]
  have hroom' : a.wouldAdmit (innerQueue (innerPort f) f.tc.toNat) f = true :=
    (Ctl.wouldAdmit_apart (innerQueue_lt f) hflask (fun b _ hb => htracks.regs b (by omega)) f).trans hroom
  obtain ⟨d, henter, hwork, hs0⟩ := State.enter_admits (s := { s with ctl := a }) hdst hroom' (4 * p + q)
  obtain ⟨y, hy, howe⟩ := d.oweCredits_eq p q f.tc.toNat bytes
  refine ⟨d.putSub p q y, ?_, ?_, (htracks.moves.trans hwork.moves).trans (d.moves_putSub p q y), ?_, fun m hm => ?_⟩
  · rw [State.ingress_admits hdst htc harrive, henter]
    exact congrArg (fun c : Ctl => { s with ctl := c }) howe
  · have hsub : d.sub p q = s.ctl.sub p q := Ctl.sub_congr (hwork.subs.trans (congrArg Ctl.subs htracks.same :)) p q
    rw [Ctl.sub_putSub, hy, hsub]
  · have hnow : a.now = s.ctl.now := (congrArg Ctl.now htracks.same :)
    refine hs0.trans ?_
    rw [hfq, hnow]
  · exact (hwork.others m hm).trans (hfq m)

theorem frameReceive_completes (p : Fin 128) (q : Fin 4) (x : RxFrame) (s : State) (hmain : s.ctl.mainUp = true)
    (hrx : RxPasses s.ctl p.val q.val x) (hdst : x.frame.dst = 0xFFF)
    (hfresh : x.frame.sequenced = true → (s.ctl.pair x.frame.src.toNat).fit x.frame.seq = .fresh) (htc : 3 ≤ x.frame.tc.toNat)
    (hroom : s.ctl.wouldAdmit (innerQueue (innerPort x.frame) x.frame.tc.toNat) x.frame = true) : Completes (.frameReceive p q x) s (fun t =>
    (t.ctl.sub p.val q.val).rxLseq = (s.ctl.sub p.val q.val).rxLseq + 1
    ∧ (t.ctl.fq (innerQueue (innerPort x.frame) x.frame.tc.toNat)).s0 = (s.ctl.fq (innerQueue (innerPort x.frame) x.frame.tc.toNat)).s0
      ++ [{ frame := x.frame, cells := cellsOf x.frame, stamp := s.ctl.now, via := some (4 * p.val + q.val) }]
    ∧ (∀ m, m ≠ innerQueue (innerPort x.frame) x.frame.tc.toNat → t.ctl.fq m = s.ctl.fq m)
    ∧ SameRights s t ∧ t.ctl.opens = s.ctl.opens ∧ Keeps s t) := by
  have hacc := s.ctl.sub_linkAccepts p.val q.val x.trailer
  have hpass := State.checkFrame_passes (s := s.onCtl (·.linkAccepts p.val q.val x.trailer)) hrx.header
    ((congrArg (fun y : SubPort => y.eps.contains x.frame.src.toNat) hacc).trans hrx.admitted) hrx.live
  have hreg : ∀ b, 0x04000000 ≤ b → b < 0x05000000 →
      ((s.ctl.linkAccepts p.val q.val x.trailer).bump (Reg.lnkCtr p.val q.val 0x00)).reg b = s.ctl.reg b := fun b hb _ => by
    have hlow := lnkCtr_lt p q (off := 0) (by decide)
    rw [Ctl.bump, Ctl.reg_bumpBy_ne _ _ _ _ (by omega)]
    rfl
  have hflask : ((s.ctl.linkAccepts p.val q.val x.trailer).bump (Reg.lnkCtr p.val q.val 0x00)).flask = s.ctl.flask := rfl
  have hroom' := (Ctl.wouldAdmit_apart (innerQueue_lt x.frame) hflask hreg x.frame).trans hroom
  obtain ⟨d, hrun, hlseq, hmoves, hs0, hothers⟩ := State.ingress_spec (bytes := x.wireBytes) (p := p.val) (q := q.val)
    (s := (s.onCtl (·.linkAccepts p.val q.val x.trailer)).onCtl (·.bump (Reg.lnkCtr p.val q.val 0x00))) hdst hfresh htc hroom'
  have hbase : s.ctl.Moves ((s.ctl.linkAccepts p.val q.val x.trailer).bump (Reg.lnkCtr p.val q.val 0x00)) :=
    ((s.ctl.moves_putSub _ _ _).trans (Ctl.moves_putSub _ _ _ _)).trans (Ctl.moves_bump _ _)
  have hall := hbase.trans hmoves
  refine Completes.of_done (t := { s with ctl := d }) ?_ ⟨?_, hs0, hothers, hall.sameRights, hall.opens, rfl, rfl⟩
  · refine (congrArg done (if_pos hmain)).trans (congrArg done ?_)
    rw [State.receive_accepts hrx, hpass, hrun]
    rfl
  · exact hlseq.trans (congrArg SubPort.rxLseq hacc)

/-! ### A bad FCS (R75, R83) -/

/-- A sub-port that has just sent a NAK. -/
def SubPort.nakked (x : SubPort) (now : Nat) : SubPort := { x with nakAt := some now }

/-- A NAK goes out, or the last is less than 200 ns old; the sub-port's LSEQ stands. -/
theorem Ctl.sendNak_spec (c : Ctl) (p q : Nat) : c.sendNak p q = { c with subs := (c.sendNak p q).subs, out := (c.sendNak p q).out }
    ∧ ((c.sendNak p q).sub p q).rxLseq = (c.sub p q).rxLseq := by
  have hcases : c.sendNak p q = c ∨ c.sendNak p q = (c.putSub p q ((c.sub p q).nakked c.now)).emit
      (.linkCtl p q 4 (BitVec.ofNat 64 (c.sub p q).rxLseq.toNat) []) := ite_eq_or_eq _ _ _
  obtain h | h := hcases <;> rw [h]
  · exact ⟨rfl, rfl⟩
  · exact ⟨rfl, (congrArg SubPort.rxLseq (Ctl.sub_putSub c p q ((c.sub p q).nakked c.now)) :)⟩

theorem State.receive_badFcs {s : State} {p q : Nat} {x : RxFrame} (hcarries : (s.ctl.sub p q).carries = true) (hfcs : x.fcsOk = false) :
    s.receive p q x = { s with ctl := (s.ctl.sendNak p q).bump (Reg.lnkCtr p q 0x10) } := by
  unfold State.receive
  dsimp only
  rw [if_neg (by simp [hcarries]), if_pos (by simp [hfcs]), hcarries]
  rfl

theorem badFcs_completes (p : Fin 128) (q : Fin 4) (x : RxFrame) (s : State) (hmain : s.ctl.mainUp = true)
    (hcarries : (s.ctl.sub p.val q.val).carries = true) (hfcs : x.fcsOk = false) : Completes (.frameReceive p q x) s (fun t =>
    (t.ctl.sub p.val q.val).rxLseq = (s.ctl.sub p.val q.val).rxLseq
    ∧ t.ctl.reg (Reg.lnkCtr p.val q.val 0x10) = BitVec.ofNat 64 (min ((s.ctl.reg (Reg.lnkCtr p.val q.val 0x10)).toNat + 1) (2 ^ 64 - 1))
    ∧ Only s t (fun c => { c with subs := t.ctl.subs, regs := t.ctl.regs, out := t.ctl.out })) := by
  obtain ⟨hsame, hlseq⟩ := s.ctl.sendNak_spec p.val q.val
  have hreg : (s.ctl.sendNak p.val q.val).reg (Reg.lnkCtr p.val q.val 0x10) = s.ctl.reg (Reg.lnkCtr p.val q.val 0x10) :=
    (congrArg (fun c : Ctl => c.reg (Reg.lnkCtr p.val q.val 0x10)) hsame :)
  obtain ⟨r, hr⟩ := (s.ctl.sendNak p.val q.val).bump_regs_only (Reg.lnkCtr p.val q.val 0x10)
  refine Completes.of_done ((congrArg done (if_pos hmain)).trans (congrArg done (State.receive_badFcs hcarries hfcs))) ⟨hlseq, ?_, ?_⟩
  · rw [← hreg]
    exact Ctl.reg_putReg_same _ _ _
  · rw [hr]
    unfold Only
    exact congrArg (fun c : Ctl => { s with ctl := { c with regs := r } }) hsame

/-! ### Held frames (R104, R106) -/

/-- A sub-port without the oldest held frame of a class. -/
def SubPort.unheld (x : SubPort) (cls : Nat) : SubPort := { x with held := dropFirst (fun (y : HeldFrame) => y.cls == cls) x.held }

/-- The oldest held frame of its class leaves the ingress buffer; its credits may be owed. -/
theorem Ctl.unhold_spec (c : Ctl) (p q : Nat) (h : HeldFrame) : c.unhold p q h = { c with subs := (c.unhold p q h).subs }
    ∧ c.OneSub p q (c.unhold p q h)
    ∧ ((c.unhold p q h).sub p q).held = dropFirst (fun (y : HeldFrame) => y.cls == h.cls) (c.sub p q).held := by
  have hcases : c.unhold p q h = (c.putSub p q ((c.sub p q).unheld h.cls)).oweCredits p q h.cls h.wireBytes
      ∨ c.unhold p q h = c.putSub p q ((c.sub p q).unheld h.cls) := ite_eq_or_eq _ _ _
  have hput := Ctl.sub_putSub c p q ((c.sub p q).unheld h.cls)
  obtain heq | heq := hcases <;> rw [heq]
  · refine ⟨rfl, (c.oneSub_putSub p q _).putSub _, ?_⟩
    rw [Ctl.oweCredits, Ctl.sub_putSub, hput]
    rfl
  · exact ⟨rfl, c.oneSub_putSub p q _, congrArg SubPort.held hput⟩

theorem heldIngress_completes (p : Fin 128) (q : Fin 4) (k : Fin 3) (h : HeldFrame) (s : State) (hmain : s.ctl.mainUp = true)
    (hheld : (s.ctl.sub p.val q.val).firstHeld k.val = some h) (hdst : h.frame.dst = 0xFFF)
    (hroom : s.ctl.wouldAdmit (innerQueue (innerPort h.frame) h.frame.tc.toNat) h.frame = true) :
    Completes (.heldFrameRetry (.ingress p q k)) s (fun t =>
    (t.ctl.sub p.val q.val).held = dropFirst (fun (y : HeldFrame) => y.cls == h.cls) (s.ctl.sub p.val q.val).held
    ∧ (t.ctl.fq (innerQueue (innerPort h.frame) h.frame.tc.toNat)).s0 = (s.ctl.fq (innerQueue (innerPort h.frame) h.frame.tc.toNat)).s0
      ++ [{ frame := h.frame, cells := cellsOf h.frame, stamp := s.ctl.now, via := some (4 * p.val + q.val) }]
    ∧ (∀ m, m ≠ innerQueue (innerPort h.frame) h.frame.tc.toNat → t.ctl.fq m = s.ctl.fq m)
    ∧ SameRights s t ∧ t.ctl.opens = s.ctl.opens ∧ Keeps s t) := by
  obtain ⟨hsame, -, hrest⟩ := s.ctl.unhold_spec p.val q.val h
  have hroom' : (s.ctl.unhold p.val q.val h).wouldAdmit (innerQueue (innerPort h.frame) h.frame.tc.toNat) h.frame = true := by
    rw [hsame]
    exact hroom
  obtain ⟨d, henter, hwork, hs0⟩ := State.enter_admits (s := s.onCtl (·.unhold p.val q.val h)) hdst hroom' (4 * p.val + q.val)
  have hfq : ∀ m, (s.ctl.unhold p.val q.val h).fq m = s.ctl.fq m := fun m => (congrArg (fun c : Ctl => c.fq m) hsame :)
  have hmoves : s.ctl.Moves d := (Ctl.Moves.of_subs hsame).trans hwork.moves
  refine Completes.of_done (t := { s with ctl := d }) ?_ ⟨?_, ?_, fun m hm => (hwork.others m hm).trans (hfq m), hmoves.sameRights, hmoves.opens, rfl, rfl⟩
  · refine (congrArg done (if_pos hmain)).trans (congrArg done ?_)
    simp only [State.retryHeld, hheld, Ctl.queueFor_inner hdst, hroom, if_true]
    exact henter
  · exact (congrArg SubPort.held (Ctl.sub_congr hwork.subs p.val q.val)).trans hrest
  · have hnow : (s.ctl.unhold p.val q.val h).now = s.ctl.now := (congrArg Ctl.now hsame :)
    refine hs0.trans ?_
    show ((s.ctl.unhold p.val q.val h).fq _).s0 ++ [{ frame := h.frame, cells := _, stamp := (s.ctl.unhold p.val q.val h).now, via := _ }] = _
    rw [hfq, hnow]

/-- The SG7's own held frames, replaced. -/
def Ctl.withHeld (c : Ctl) (l : List (Nat × Nat × Frame)) : Ctl := { c with intHeld := l }

theorem heldInner_completes (i a b k : Nat) (f : Frame) (s : State) (hmain : s.ctl.mainUp = true) (hheld : s.ctl.intHeld[i]? = some (a, b, f))
    (hkind : f.kind ≠ kFenced) (hpath : s.ctl.pathFor f.src.toNat f.dst.toNat f.tc.toNat = some k)
    (hroom : s.ctl.wouldAdmit (portQueue (k / 4) f.tc.toNat) f = true) : Completes (.heldFrameRetry (.inner i)) s (fun t =>
    t.ctl.intHeld = s.ctl.intHeld.take i ++ s.ctl.intHeld.drop (i + 1)
    ∧ (∃ e ∈ (t.ctl.fq (portQueue (k / 4) f.tc.toNat)).list (k % 4), e.frame = f)
    ∧ Only s t (fun c => { c with intHeld := t.ctl.intHeld, flask := t.ctl.flask, scheds := t.ctl.scheds, regs := t.ctl.regs })) := by
  obtain ⟨d, hd, hwork, hfq⟩ := Ctl.admitVia_spec
    (c := s.ctl.withHeld (s.ctl.intHeld.take i ++ s.ctl.intHeld.drop (i + 1))) hroom (k % 4) none
  have hrest : d.intHeld = s.ctl.intHeld.take i ++ s.ctl.intHeld.drop (i + 1) := (congrArg Ctl.intHeld hwork.same :)
  have hrun : s.ctl.retryInner i = d := by
    unfold Ctl.withHeld at hd
    simp only [Ctl.retryInner, hheld, hkind, hpath, Ctl.takeIn, hd, if_false]
  have hin : ∃ e ∈ (d.fq (portQueue (k / 4) f.tc.toNat)).list (k % 4), e.frame = f := by
    rw [hfq, FlaskQ.list_put]
    exact ⟨_, List.mem_append_right _ (List.mem_singleton_self _), rfl⟩
  refine Completes.of_done (t := { s with ctl := d }) ?_ ⟨hrest, hin, ?_⟩
  · exact (congrArg done (if_pos hmain)).trans (congrArg (fun c : Ctl => done { s with ctl := c }) hrun)
  · unfold Only
    dsimp only
    rw [hrest]
    exact congrArg (fun c : Ctl => { s with ctl := c }) hwork.same

theorem Ctl.holdTimeout_late {c : Ctl} {p q k : Nat} {h : HeldFrame} (hheld : (c.sub p q).firstHeld k = some h)
    (hlate : h.since + c.rd Reg.holdTimeout ≤ c.now) : c.holdTimeout p q k = (c.unhold p q h).bump (Reg.queueBase h.queue + 0x30) := by
  simp only [Ctl.holdTimeout, hheld, hlate, if_true]

theorem holdTimeout_completes (p : Fin 128) (q : Fin 4) (k : Fin 3) (h : HeldFrame) (s : State) (hmain : s.ctl.mainUp = true)
    (hheld : (s.ctl.sub p.val q.val).firstHeld k.val = some h) (hlate : h.since + s.ctl.rd Reg.holdTimeout ≤ s.ctl.now) :
    Completes (.holdTimeout p q k) s (fun t =>
    (t.ctl.sub p.val q.val).held = dropFirst (fun (y : HeldFrame) => y.cls == h.cls) (s.ctl.sub p.val q.val).held
    ∧ t.ctl.reg (Reg.queueBase h.queue + 0x30) = BitVec.ofNat 64 (min ((s.ctl.reg (Reg.queueBase h.queue + 0x30)).toNat + 1) (2 ^ 64 - 1))
    ∧ RegsBut [Reg.queueBase h.queue + 0x30] s t ∧ OtherPorts s t p.val ∧ Only s t (fun c => { c with subs := t.ctl.subs, regs := t.ctl.regs })) := by
  obtain ⟨hsame, hone, hrest⟩ := s.ctl.unhold_spec p.val q.val h
  have hreg : ∀ a, (s.ctl.unhold p.val q.val h).reg a = s.ctl.reg a := fun a => (congrArg (fun c : Ctl => c.reg a) hsame :)
  obtain ⟨r, hr⟩ := (s.ctl.unhold p.val q.val h).bump_regs_only (Reg.queueBase h.queue + 0x30)
  refine Completes.onCtl (congrArg done (s.whenMain_on _ hmain)) (Ctl.holdTimeout_late hheld hlate)
    ⟨hrest, ?_, fun a ha => ?_, otherPorts_of_oneSub (q := q) hone, ?_⟩
  · rw [← hreg]
    exact Ctl.reg_putReg_same _ _ _
  · exact (Ctl.reg_bumpBy_ne _ _ _ _ (fun hab => ha (List.mem_singleton.mpr hab))).trans (hreg a)
  · rw [hr]
    unfold Only
    exact congrArg (fun c : Ctl => { s with ctl := { c with regs := r } }) hsame

/-- Settles O15. A frame moves one queue by the lemma on Flask's admission; a bad FCS and a time-out move counters and the sub-port alone. It
rests on log entries 39 and 48, as the statement says. -/
theorem ingress : Obligations.Ingress := by
  unfold Obligations.Ingress
  refine ⟨fun p q x s hmain hcarries hfcs hetype hkind henc htag hlseq hheader hadmitted hlive hdst hfresh htc hroom => ?_,
    badFcs_completes, heldIngress_completes, heldInner_completes, holdTimeout_completes⟩
  exact frameReceive_completes p q x s hmain ⟨hcarries, hfcs, hetype, hkind, henc, htag, hlseq, hheader, hadmitted, hlive⟩ hdst hfresh htc hroom

end Sys2Proof.Machine

namespace Sys2Proof.Machine

/-! ### Flask: the registers (R101, R107, R113) -/

/-- Flask's free count and its minimum are two fields of one register (Table 4.3). -/
theorem Ctl.freeF_setFree (c : Ctl) {n : Nat} (h : n < 2 ^ 20) : (c.setFree n).freeF = n := by
  have hset : (c.wr Reg.freeCells n).rd Reg.freeCells = n := Ctl.rd_wr_fits c Reg.freeCells n (by decide) h
  obtain heq | heq := c.setFree_cases n <;> rw [heq]
  · exact hset
  · exact (Ctl.rd_wr_apart _ Reg.minFree Reg.freeCells n (by decide) (by decide)).trans hset

theorem Ctl.writes_setFree (c : Ctl) (n : Nat) : c.Writes (c.setFree n) := by
  obtain h | h := c.setFree_cases n <;> rw [h]
  · exact c.writes_wr _ _
  · exact (c.writes_wr _ _).wr _ _

theorem flaskSweep_completes (s : State) (hmain : s.ctl.mainUp = true) (hfit : s.ctl.freeF + s.ctl.flaskLost < 2 ^ 20) :
    Completes .flaskSweep s (fun t =>
    t.ctl.freeF = s.ctl.freeF + s.ctl.flaskLost ∧ t.ctl.flaskLost = 0 ∧ RegsBut [0x04000000] s t
    ∧ Only s t (fun c => { c with regs := t.ctl.regs, flaskLost := 0 })) := by
  have hwork := s.ctl.flaskWork_setFree 0 (s.ctl.freeF + s.ctl.flaskLost)
  have hfree := s.ctl.freeF_setFree hfit
  have hwrites := s.ctl.writes_setFree (s.ctl.freeF + s.ctl.flaskLost)
  refine Completes.onCtl (congrArg done (s.whenMain_on _ hmain)) rfl
    ⟨hfree, rfl, fun a ha => hwork.regs a (List.ne_of_not_mem_cons ha), ?_⟩
  exact congrArg (fun c : Ctl => { s with ctl := { c with flaskLost := 0 } }) hwrites.same

/-- The ALPHA_K that a write of k stores (Table 4.7). -/
def storedAlpha (k : Nat) : Nat := if k = 8 then 9 else if 4 ≤ k ∧ k < 8 then 3 else k

theorem storedAlpha_lt {k : Nat} (h : k < 16) : storedAlpha k < 16 := by
  unfold storedAlpha
  split
  · decide
  · split
    · decide
    · exact h

theorem Ctl.writeQcfg_eq (c : Ctl) (q : Nat) (v : Word) : c.writeQcfg q v =
    (c.wr (Reg.alphaK q) (storedAlpha (field v.toNat 0 4))).wr (Reg.quantum q) (clampNat 64 262144 (field v.toNat 8 19)) := by
  simp [Ctl.writeQcfg, storedAlpha]

theorem flkQcfgWrite_completes (q : Fin 1152) (v : Word) (s : State) (hmain : s.ctl.mainUp = true) : Completes (.flkQcfgWrite q v) s (fun t =>
    let k := field v.toNat 0 4
    t.ctl.rd (Reg.alphaK q.val) = (if k = 8 then 9 else if 4 ≤ k ∧ k < 8 then 3 else k)
    ∧ t.ctl.rd (Reg.quantum q.val) = min 262144 (max 64 (field v.toNat 8 19)) ∧ OnlyRegs [Reg.queueBase q.val] s t) := by
  have hk : storedAlpha (field v.toNat 0 4) < 2 ^ 4 := storedAlpha_lt (Nat.mod_lt _ (by decide))
  have hquantum : clampNat 64 262144 (field v.toNat 8 19) = min 262144 (max 64 (field v.toNat 8 19)) := by
    unfold clampNat
    omega
  refine Completes.onCtl (congrArg done (s.whenMain_on _ hmain)) (s.ctl.writeQcfg_eq q.val v) ⟨?_, ?_, ?_⟩
  · exact (Ctl.rd_wr_apart _ (Reg.quantum q.val) (Reg.alphaK q.val) _ (by simp [Reg.quantum]) (.inr (.inl (by simp [Reg.quantum, Reg.alphaK])))).trans
      (Ctl.rd_wr_fits _ (Reg.alphaK q.val) _ (by simp [Reg.alphaK]) hk)
  · refine (Ctl.rd_wr_fits _ (Reg.quantum q.val) _ (by simp [Reg.quantum]) ?_).trans hquantum
    show _ < 2 ^ 19
    omega
  · refine onlyRegs_writes ((s.ctl.writes_wr _ _).wr _ _) (fun b hb => ?_)
    exact (Ctl.reg_wr_ne _ (Reg.quantum q.val) _ b hb).trans (Ctl.reg_wr_ne _ (Reg.alphaK q.val) _ b hb)

/-- Registers of a list take their reset values, the others stand. -/
theorem Ctl.foldl_resetReg (l : List Nat) (c : Ctl) : c.Writes (l.foldl (fun d a => d.putReg a (regReset a)) c)
    ∧ ∀ b, (l.foldl (fun d a => d.putReg a (regReset a)) c).reg b = if b ∈ l then regReset b else c.reg b := by
  induction l generalizing c with
  | nil => exact ⟨.refl c, fun _ => rfl⟩
  | cons a l ih =>
    obtain ⟨hwrites, hreg⟩ := ih (c.putReg a (regReset a))
    refine ⟨Ctl.Writes.trans ⟨rfl⟩ hwrites, fun b => (hreg b).trans ?_⟩
    by_cases hb : b ∈ l
    · rw [if_pos hb, if_pos (List.mem_cons_of_mem a hb)]
    · rw [if_neg hb]
      by_cases hba : b = a
      · rw [hba, Ctl.reg_putReg_same, if_pos List.mem_cons_self]
      · rw [Ctl.reg_putReg_ne _ _ _ _ hba, if_neg (by simp [hba, hb])]

theorem Ctl.clearSamples_eq (c : Ctl) (q : Nat) :
    c.clearSamples q = (sampleOffsets.map (Reg.queueBase q + ·)).foldl (fun d a => d.putReg a (regReset a)) c := by
  rw [List.foldl_map]
  rfl

theorem clear_completes (q : Fin 1152) (s : State) (hmain : s.ctl.mainUp = true) : Completes (.clear q) s (fun t =>
    (∀ o ∈ sampleOffsets, t.ctl.reg (Reg.queueBase q.val + o) = regReset (Reg.queueBase q.val + o))
    ∧ OnlyRegs (sampleOffsets.map (Reg.queueBase q.val + ·)) s t) := by
  obtain ⟨hwrites, hreg⟩ := Ctl.foldl_resetReg (sampleOffsets.map (Reg.queueBase q.val + ·)) s.ctl
  refine Completes.onCtl (congrArg done (s.whenMain_on _ hmain)) (s.ctl.clearSamples_eq q.val)
    ⟨fun o ho => (hreg _).trans (if_pos (List.mem_map_of_mem ho)), ?_, fun b hb => (hreg b).trans (if_neg hb)⟩
  exact congrArg (fun c : Ctl => { s with ctl := c }) hwrites.same

theorem clrMin_completes (s : State) (hmain : s.ctl.mainUp = true) : Completes .clrMin s (fun t =>
    t.ctl.rd Reg.minFree = s.ctl.freeF ∧ t.ctl.freeF = s.ctl.freeF ∧ OnlyRegs [0x04000000] s t) :=
  Completes.onCtl (congrArg done (s.whenMain_on _ hmain)) rfl
    ⟨Ctl.rd_wr_fits _ Reg.minFree _ (by decide) (s.ctl.rd_lt Reg.freeCells),
      Ctl.rd_wr_apart _ Reg.minFree Reg.freeCells _ (by decide) (by decide),
      onlyRegs_writes (s.ctl.writes_wr _ _) (fun b hb => Ctl.reg_wr_ne _ Reg.minFree _ b hb)⟩

/-! ### The schedulers (R108-R111) -/

/-- `d` is `c` after a queue lost its head, with its samples and counters (R110, R111). -/
structure Ctl.InFlask (c d : Ctl) : Prop where
  same : d = c.withFlask d

theorem Ctl.InFlask.refl (c : Ctl) : c.InFlask c := ⟨rfl⟩
theorem Ctl.InFlask.trans {c d e : Ctl} (h : c.InFlask d) (k : d.InFlask e) : c.InFlask e :=
  ⟨k.same.trans (congrArg (fun x : Ctl => x.withFlask e) h.same :)⟩
theorem Ctl.FlaskWork.inFlask {q : Nat} {c d : Ctl} (h : c.FlaskWork q d) : c.InFlask d := ⟨h.same⟩
theorem Ctl.inFlask_putReg (c : Ctl) (a : Nat) (v : Word) : c.InFlask (c.putReg a v) := ⟨rfl⟩
theorem Ctl.inFlask_bumpBy (c : Ctl) (a n : Nat) : c.InFlask (c.bumpBy a n) := c.inFlask_putReg _ _
theorem Ctl.inFlask_bump (c : Ctl) (a : Nat) : c.InFlask (c.bump a) := c.inFlask_bumpBy a 1

theorem Ctl.InFlask.subs {c d : Ctl} (h : c.InFlask d) : d.subs = c.subs := (congrArg Ctl.subs h.same :)
theorem Ctl.InFlask.out {c d : Ctl} (h : c.InFlask d) : d.out = c.out := (congrArg Ctl.out h.same :)

theorem Ctl.InFlask.moves {c d : Ctl} (h : c.InFlask d) : c.Moves d where
  same := by
    have hpairs : d.pairs = c.pairs := (congrArg Ctl.pairs h.same :)
    have hheld : d.intHeld = c.intHeld := (congrArg Ctl.intHeld h.same :)
    have htracker : d.tracker = c.tracker := (congrArg Ctl.tracker h.same :)
    have hid : d.nextId = c.nextId := (congrArg Ctl.nextId h.same :)
    rw [Ctl.withMoves, h.out, h.subs, hpairs, hheld, htracker, hid]
    exact h.same

theorem Ctl.inFlask_sample (c : Ctl) (base minOff histOff v shift : Nat) : c.InFlask (c.sample base minOff histOff v shift) :=
  (((c.inFlask_putReg _ _).trans (Ctl.inFlask_putReg _ _ _)).trans (Ctl.inFlask_bumpBy _ _ _)).trans (Ctl.inFlask_bump _ _)

theorem Ctl.inFlask_dequeued (c : Ctl) (q depth stamp : Nat) : c.InFlask (c.dequeued q depth stamp) := by
  unfold Ctl.dequeued
  dsimp only
  split
  · exact (((c.flaskWork_putFq q _).inFlask.trans (Ctl.inFlask_bump _ _)).trans (Ctl.inFlask_sample _ _ _ _ _ _)).trans
      (Ctl.inFlask_sample _ _ _ _ _ _)
  · exact (c.flaskWork_putFq q _).inFlask

theorem Ctl.inFlask_dropHead (c : Ctl) (q s : Nat) : c.InFlask (c.dropHead q s) := by
  unfold Ctl.dropHead
  dsimp only
  split
  · exact .refl c
  · exact ((c.flaskWork_putFq q _).trans (Ctl.flaskWork_setFree q _ _)).inFlask

/-- While no bay is in shakeout the filter lets every frame pass (R96, R110). -/
theorem Ctl.filterHeads_idle {c : Ctl} (h : ∀ b, (c.bay b).st ≠ .shakeout) (q s n : Nat) : c.filterHeads q s n = c := by
  have hpass : ∀ f, c.filtered f = false := fun f => by simp [Ctl.filtered, h]
  cases n with
  | zero => rfl
  | succ n =>
    unfold Ctl.filterHeads
    split
    · rfl
    · rw [hpass]
      rfl

theorem Ctl.filterPort_idle {c : Ctl} (h : ∀ b, (c.bay b).st ≠ .shakeout) (p s : Nat) : c.filterPort p s = c :=
  List.foldlRecOn (motive := fun d : Ctl => d = c) (List.range 8) _ rfl (fun d hd k _ => by
    subst hd
    exact d.filterHeads_idle h _ _ _)

/-- `c` with other schedulers. -/
def Ctl.withScheds (c : Ctl) (x : Tab Sched) : Ctl := { c with scheds := x }

theorem Ctl.endVisit_scheds (c : Ctl) (k cls : Nat) (stopped : Bool) : ∃ x, c.endVisit k cls stopped = c.withScheds x := by
  unfold Ctl.endVisit
  dsimp only
  split <;> exact ⟨_, rfl⟩

/-- Choosing the next class moves the schedulers alone (R109). -/
theorem Ctl.pickClass_scheds (n : Nat) (c : Ctl) (k : Nat) : ∃ x, (c.pickClass k n).1 = c.withScheds x := by
  induction n generalizing c with
  | zero => exact ⟨c.scheds, rfl⟩
  | succ n ih =>
    have hnext : ∀ x, ∃ y, ((c.withScheds x).pickClass k n).1 = c.withScheds y := fun x => ih (c.withScheds x)
    have hend : ∀ cls b, ∃ y, ((c.endVisit k cls b).pickClass k n).1 = c.withScheds y := fun cls b => by
      obtain ⟨x, hx⟩ := c.endVisit_scheds k cls b
      rw [hx]
      exact hnext x
    unfold Ctl.pickClass
    dsimp only
    split
    · exact ⟨c.scheds, rfl⟩
    · split
      · split
        · exact hend _ _
        · split
          · exact ⟨_, rfl⟩
          · exact hend _ _
      · split
        · exact ⟨c.scheds, rfl⟩
        · split
          · exact hnext _
          · exact hend _ _

/-- The trailer of the next frame: it carries LACK, and its sub-port keeps its LSEQ and its replay buffer. -/
theorem Ctl.makeTrailer_spec (c : Ctl) (p q : Nat) (lseq : BitVec 16) : ∃ y, (c.makeTrailer p q lseq).2 = c.putSub p q y
    ∧ y.txLseq = (c.sub p q).txLseq ∧ y.replay = (c.sub p q).replay
    ∧ (c.makeTrailer p q lseq).1.lseq = lseq ∧ (c.makeTrailer p q lseq).1.lack = (c.sub p q).rxLseq :=
  ⟨_, rfl, rfl, rfl, rfl, rfl⟩

/-- A sub-port that puts a frame on the wire: the next LSEQ, the replay buffer, its credits (R79, R82). -/
def SubPort.sending (x : SubPort) (f : Frame) (bytes now : Nat) : SubPort :=
  { x with
    txLseq := x.txLseq + 1, txNonce := if x.enc then x.txNonce + 1 else x.txNonce,
    replay := x.replay ++ [{ lseq := x.txLseq, frame := { f with enc := x.enc }, bytes := bytes }],
    progressAt := if x.replay.isEmpty then now else x.progressAt,
    credits := setAt (eight x.credits) f.tc.toNat (natAt x.credits f.tc.toNat - creditsOf bytes) }

theorem Ctl.transmit_eq (c : Ctl) (p q : Nat) (f : Frame) (bytes : Nat) : c.transmit p q f bytes =
    (let r := (c.putSub p q ((c.sub p q).sending f bytes c.now)).makeTrailer p q (c.sub p q).txLseq
     (r.2.emit (.frame p q r.1 { f with enc := (c.sub p q).enc })).bump (Reg.lnkCtr p q 0x08)) := rfl

theorem Ctl.transmit_spec (c : Ctl) (p q : Nat) (f : Frame) (bytes : Nat) : ∃ tr, tr.lseq = (c.sub p q).txLseq ∧ tr.lack = (c.sub p q).rxLseq
    ∧ (c.transmit p q f bytes).out = c.out ++ [.frame p q tr { f with enc := (c.sub p q).enc }]
    ∧ ((c.transmit p q f bytes).sub p q).txLseq = (c.sub p q).txLseq + 1
    ∧ ((c.transmit p q f bytes).sub p q).replay
      = (c.sub p q).replay ++ [{ lseq := (c.sub p q).txLseq, frame := { f with enc := (c.sub p q).enc }, bytes := bytes }]
    ∧ c.OneSub p q (c.transmit p q f bytes) ∧ c.Moves (c.transmit p q f bytes) := by
  obtain ⟨y, hy, htx, hreplay, hlseq, hlack⟩ :=
    (c.putSub p q ((c.sub p q).sending f bytes c.now)).makeTrailer_spec p q (c.sub p q).txLseq
  rw [Ctl.sub_putSub] at htx hreplay hlack
  refine ⟨_, hlseq, hlack, ?_⟩
  rw [Ctl.transmit_eq]
  dsimp only
  rw [hy]
  have hsub : ∀ o a, ((((c.putSub p q ((c.sub p q).sending f bytes c.now)).putSub p q y).emit o).bump a).sub p q = y := fun _ _ =>
    Ctl.sub_putSub _ p q y
  rw [hsub]
  refine ⟨rfl, htx, hreplay, (c.oneSub_putSub p q _).putSub y, ?_⟩
  exact (((c.moves_putSub p q _).trans (Ctl.moves_putSub _ p q y)).trans ⟨rfl⟩).trans (Ctl.moves_bump _ _)

/-- A queue without its head, counted and sampled, as a scheduler leaves it. -/
def Ctl.takenHead (c : Ctl) (k cls : Nat) (h : QFrame) : Ctl :=
  let q := (schedQueue k cls).1
  let d := (c.dequeued q (c.fq q).len h.stamp).dropHead q (schedQueue k cls).2
  (d.bump (Reg.queueBase q + 0x10)).bumpBy (Reg.queueBase q + 0x18) (d.chargeOf k h.frame)

theorem Ctl.inFlask_takenHead (c : Ctl) (k cls : Nat) (h : QFrame) : c.InFlask (c.takenHead k cls h) :=
  (((c.inFlask_dequeued _ _ _).trans (Ctl.inFlask_dropHead _ _ _)).trans (Ctl.inFlask_bump _ _)).trans (Ctl.inFlask_bumpBy _ _ _)

theorem State.sendHead_port {s : State} {k : Nat} (hk : isInner k = false) (cls : Nat) (h : QFrame) : ∃ m,
    s.sendHead k cls h = { s with ctl := (s.ctl.takenHead k cls h).transmit (k / 4) (k % 4) h.frame m } := by
  unfold State.sendHead
  dsimp only
  rw [hk]
  exact ⟨_, rfl⟩

theorem Ctl.any_headReady {c : Ctl} {n : Nat} (h : ∃ i, i < 8 ∧ c.headReady n i = true) : (List.range 8).any (fun cls => c.headReady n cls) = true := by
  obtain ⟨i, hi, hready⟩ := h
  exact List.any_eq_true.mpr ⟨i, List.mem_range.mpr hi, hready⟩

/-- A port's scheduler sends the head of the class it picks (R109). -/
theorem State.egress_picks {s : State} {n k : Nat} {h : QFrame} (hn : isInner n = false) (hbays : ∀ b, (s.ctl.bay b).st ≠ .shakeout)
    (hready : ∃ i, i < 8 ∧ s.ctl.headReady n i = true) (hpick : (s.ctl.pickClass n 1000).2 = some k) (hhead : s.ctl.schedHead n k = some h) :
    ∃ x, s.egress n .clean = ({ s with ctl := s.ctl.withScheds x } : State).sendHead n k h := by
  obtain ⟨x, hx⟩ := Ctl.pickClass_scheds 1000 s.ctl n
  refine ⟨x, ?_⟩
  have hidle : s.onCtl (·.filterPort (n / 4) (n % 4)) = s := congrArg (fun c : Ctl => { s with ctl := c }) (Ctl.filterPort_idle hbays _ _)
  have hhead' : (s.ctl.withScheds x).schedHead n k = some h := hhead
  unfold State.egress
  simp only [hn, hidle, Bool.false_eq_true, if_false, Ctl.any_headReady hready, hpick, hx, hhead']
  rfl

theorem egressPort_completes (p : Fin 128) (q : Fin 4) (k : Nat) (h : QFrame) (s : State) (hmain : s.ctl.mainUp = true)
    (hbays : ∀ b, (s.ctl.bay b).st ≠ .shakeout) (hready : ∃ i, i < 8 ∧ s.ctl.headReady (4 * p.val + q.val) i = true)
    (hpick : (s.ctl.pickClass (4 * p.val + q.val) 1000).2 = some k) (hhead : s.ctl.schedHead (4 * p.val + q.val) k = some h) :
    Completes (.egressSend (.port p q) .clean) s (fun t =>
    (∃ tr, tr.lseq = (s.ctl.sub p.val q.val).txLseq ∧ tr.lack = (s.ctl.sub p.val q.val).rxLseq
      ∧ Sent s t (.frame p.val q.val tr { h.frame with enc := (s.ctl.sub p.val q.val).enc }))
    ∧ (t.ctl.sub p.val q.val).txLseq = (s.ctl.sub p.val q.val).txLseq + 1
    ∧ (∃ m, (t.ctl.sub p.val q.val).replay = (s.ctl.sub p.val q.val).replay
      ++ [{ lseq := (s.ctl.sub p.val q.val).txLseq, frame := { h.frame with enc := (s.ctl.sub p.val q.val).enc }, bytes := m }])
    ∧ OtherPorts s t p.val ∧ SameRights s t ∧ t.ctl.opens = s.ctl.opens ∧ Keeps s t) := by
  have hn : isInner (4 * p.val + q.val) = false := by
    simp only [isInner, decide_eq_false_iff_not]
    omega
  have hp : (4 * p.val + q.val) / 4 = p.val := by omega
  have hq : (4 * p.val + q.val) % 4 = q.val := by omega
  obtain ⟨x, hegress⟩ := State.egress_picks hn hbays hready hpick hhead
  obtain ⟨m, hsend⟩ := State.sendHead_port (s := { s with ctl := s.ctl.withScheds x }) hn k h
  rw [hp, hq] at hsend
  have hflask : s.ctl.InFlask ((s.ctl.withScheds x).takenHead (4 * p.val + q.val) k h) :=
    Ctl.InFlask.trans ⟨rfl⟩ ((s.ctl.withScheds x).inFlask_takenHead (4 * p.val + q.val) k h)
  have hsub := Ctl.sub_congr hflask.subs p.val q.val
  obtain ⟨tr, hlseq, hlack, hout, htx, hreplay, hone, hmoves⟩ :=
    ((s.ctl.withScheds x).takenHead (4 * p.val + q.val) k h).transmit_spec p.val q.val h.frame m
  rw [hsub] at hlseq hlack hout htx hreplay
  rw [hflask.out] at hout
  have hall := hflask.moves.trans hmoves
  refine Completes.of_done ((congrArg done (if_pos hmain)).trans (congrArg done (hegress.trans hsend)))
    ⟨⟨tr, hlseq, hlack, Sent.of_append hout (List.mem_singleton_self _)⟩, htx, ⟨m, hreplay⟩,
      otherPorts_of_oneSub (q := q) ((Ctl.oneSub_of_subs hflask.subs _ _).trans hone), hall.sameRights, hall.opens, rfl, rfl⟩

/-- Settles O16. The scheduler's clause goes by what taking a head and putting it on the wire each move; the registers' clauses by the fields
of one register. It rests on log entry 24, as the statement says. -/
theorem egressAndFlask : Obligations.EgressAndFlask := by
  unfold Obligations.EgressAndFlask
  exact ⟨egressPort_completes, flaskSweep_completes, flkQcfgWrite_completes, clear_completes, clrMin_completes⟩

end Sys2Proof.Machine

namespace Sys2Proof.Machine

/-! ### Sending frames (spec/03 §3.6, R85-R90, R102) -/

theorem Ctl.moves_takeIn {c d : Ctl} {q s : Nat} {f : Frame} (h : c.takeIn q s f = some d) : c.Moves d := by
  unfold Ctl.takeIn at h
  by_cases hadmit : c.wouldAdmit q f = true
  · obtain ⟨e, he, hwork, -⟩ := Ctl.admitVia_spec hadmit s none
    rw [he] at h
    exact Option.some.inj h ▸ hwork.moves
  · rw [Ctl.admitVia_eq, if_neg hadmit] at h
    cases h

theorem Ctl.Moves.refl (c : Ctl) : c.Moves c := ⟨rfl⟩
theorem Ctl.moves_putPair (c : Ctl) (e : Nat) (p : Pair) : c.Moves (c.putPair e p) := ⟨rfl⟩
theorem Ctl.moves_untrack (c : Ctl) (src dst : Nat) (seq : BitVec 24) : c.Moves (c.untrack src dst seq) := ⟨rfl⟩
theorem Ctl.moves_withHeld (c : Ctl) (l : List (Nat × Nat × Frame)) : c.Moves (c.withHeld l) := ⟨rfl⟩

theorem Ctl.moves_sendFrame (c : Ctl) (f : Frame) : c.Moves (c.sendFrame f) := by
  unfold Ctl.sendFrame
  split
  · exact .refl c
  · dsimp only
    split
    case h_1 d h => exact Ctl.moves_takeIn h
    case h_2 => exact c.moves_withHeld _

theorem Ctl.moves_passOn (c : Ctl) (f : Frame) : c.Moves (c.passOn f) := by
  unfold Ctl.passOn
  split
  · exact .refl c
  · dsimp only
    split
    case h_1 d h => exact Ctl.moves_takeIn h
    case h_2 =>
      split
      · exact (c.moves_bump _).trans (Ctl.moves_bumpBy _ _ _)
      · exact c.moves_withHeld _

theorem Ctl.moves_withAck (c : Ctl) (ep : Nat) (f : Frame) : c.Moves (c.withAck ep f).1 := by
  unfold Ctl.withAck
  dsimp only
  split
  · exact .refl c
  · exact c.moves_putPair _ _

theorem Ctl.moves_sendSeq (c : Ctl) (f : Frame) (peg : Option (BitVec 16)) (grant : Option Nat) : c.Moves (c.sendSeq f peg grant) := by
  unfold Ctl.sendSeq
  dsimp only
  split
  · exact ((c.moves_putPair _ _).trans (Ctl.moves_withAck _ _ _)).trans (Ctl.moves_sendFrame _ _)
  · exact c.moves_putPair _ _

/-! ### What stands in a pair after sending (R86, R87) -/

theorem Ctl.pairs_takeIn {c d : Ctl} {q s : Nat} {f : Frame} (h : c.takeIn q s f = some d) : d.pairs = c.pairs := by
  unfold Ctl.takeIn at h
  by_cases hadmit : c.wouldAdmit q f = true
  · obtain ⟨e, he, hwork, -⟩ := Ctl.admitVia_spec hadmit s none
    rw [he] at h
    exact Option.some.inj h ▸ (congrArg Ctl.pairs hwork.same :)
  · rw [Ctl.admitVia_eq, if_neg hadmit] at h
    cases h

theorem Ctl.pairs_sendFrame (c : Ctl) (f : Frame) : (c.sendFrame f).pairs = c.pairs := by
  unfold Ctl.sendFrame
  split
  · rfl
  · dsimp only
    split
    case h_1 d h => exact Ctl.pairs_takeIn h
    case h_2 => rfl

/-- Everything of a pair that is not acknowledged yet. -/
def Pair.kept (p : Pair) : List TxFrame := p.unack ++ p.waiting

theorem Ctl.kept_withAck (c : Ctl) (ep : Nat) (f : Frame) : ((c.withAck ep f).1.pair ep).kept = (c.pair ep).kept := by
  unfold Ctl.withAck
  dsimp only
  split
  · rfl
  · exact (congrArg Pair.kept (Ctl.pair_putPair c ep { c.pair ep with ackSince := none }) :)

/-- A sequenced frame stands in its pair under the pair's next SEQ, sent or waiting for the window (R86). -/
theorem Ctl.kept_sendSeq (c : Ctl) (f : Frame) (peg : Option (BitVec 16)) (grant : Option Nat) :
    ∃ x ∈ ((c.sendSeq f peg grant).pair f.dst.toNat).kept,
      x.seq = (c.pair f.dst.toNat).txSeq ∧ x.frame = { f with seq := (c.pair f.dst.toNat).txSeq } := by
  unfold Ctl.sendSeq
  dsimp only
  split
  · have hpairs : ∀ (d : Ctl) (g : Frame), ((d.sendFrame g).pair f.dst.toNat).kept = (d.pair f.dst.toNat).kept := fun d g => by
      simp only [Ctl.pair, Ctl.pairs_sendFrame]
    rw [hpairs, Ctl.kept_withAck, Ctl.pair_putPair]
    exact ⟨_, List.mem_append_left _ (List.mem_append_right _ (List.mem_singleton_self _)), rfl, rfl⟩
  · rw [Ctl.pair_putPair]
    exact ⟨_, List.mem_append_right _ (List.mem_append_right _ (List.mem_singleton_self _)), rfl, rfl⟩

/-! ### Answers (R148, R149, R78) -/

/-- The control records as an answer leaves them before its response goes out: the tracker entry is gone, failures are counted. -/
def Ctl.answered (c : Ctl) (r : Frame) (status detail : Byte) : Ctl :=
  let c := c.untrack r.src.toNat r.dst.toNat r.seq
  let c := if status = stPOISONED then c.bump Reg.memPoisonRsp else c
  let c := if detail = dMALFORMED then c.bump Reg.memMalformed else c
  if r.dst = 0xFFF then c
    else c.sendFrame { baseFrame with kind := kSeqfill, tc := r.tc, bay := r.bay, src := r.src, dst := r.dst, inc := r.inc, gen := r.gen, seq := r.seq }

/-- A request other than a read, of a live incarnation, is answered by one response. -/
theorem Ctl.answer_eq {c : Ctl} {r : Frame} {status detail : Byte} (hlive : (c.answered r status detail).liveInc r.src.toNat r.inc = true)
    (hread : r.kind ≠ kRead) (hpub : r.kind ≠ kReadPub) (addr : Word) (flags : BitVec 16) (payload : List Byte) (peg : Option (BitVec 16))
    (grant : Option Nat) : c.answer r status detail addr flags payload peg grant = (c.answered r status detail).sendRsp r
      (rspFrame r status detail addr flags (if status = stOK || r.isCoherence then payload else zeros (rspLen r.kind))) peg grant := by
  have heq : c.answer r status detail addr flags payload peg grant =
      (let c := c.answered r status detail
       if !c.liveInc r.src.toNat r.inc then c
       else if r.kind = kRead || r.kind = kReadPub then
         if status = stOK || status = stPOISONED then
           (readPieces payload).foldl (fun d e =>
             d.sendRsp r (rspFrame r status detail (if r.kind = kReadPub then addr else BitVec.ofNat 64 (r.addr.toNat + e.1))
               (flags ||| if e.1 + 4096 ≥ payload.length then flLAST else 0) e.2) peg grant) c
         else c.sendRsp r (rspFrame r status detail addr (flags ||| flLAST) []) peg grant
       else c.sendRsp r (rspFrame r status detail addr flags (if status = stOK || r.isCoherence then payload else zeros (rspLen r.kind))) peg grant) := rfl
  rw [heq]
  dsimp only
  rw [if_neg (by simp [hlive]), if_neg (by simp [hread, hpub])]

theorem Ctl.moves_answered (c : Ctl) (r : Frame) (status detail : Byte) : c.Moves (c.answered r status detail) := by
  have hbump : ∀ (p : Prop) [Decidable p] (d : Ctl) (a : Nat), d.Moves (if p then d.bump a else d) := fun p _ d a => by
    split
    · exact d.moves_bump a
    · exact .refl d
  have hcounted := ((c.moves_untrack r.src.toNat r.dst.toNat r.seq).trans (hbump (status = stPOISONED) _ Reg.memPoisonRsp)).trans
    (hbump (detail = dMALFORMED) _ Reg.memMalformed)
  unfold Ctl.answered
  dsimp only
  split
  · exact hcounted
  · exact hcounted.trans (Ctl.moves_sendFrame _ _)

theorem Ctl.pairs_answered {c : Ctl} {r : Frame} (hdst : r.dst = 0xFFF) (status detail : Byte) : (c.answered r status detail).pairs = c.pairs := by
  have hbump : ∀ (p : Prop) [Decidable p] (d : Ctl) (a : Nat), (if p then d.bump a else d).pairs = d.pairs := fun p _ d a => by
    split <;> rfl
  unfold Ctl.answered
  dsimp only
  rw [if_pos hdst, hbump, hbump]
  rfl

theorem Ctl.liveInc_congr {c d : Ctl} (h : d.eps = c.eps) (ep : Nat) (inc : BitVec 8) : d.liveInc ep inc = c.liveInc ep inc := by
  simp only [Ctl.liveInc, Ctl.ep, h]

theorem Ctl.Moves.eps {c d : Ctl} (h : c.Moves d) : d.eps = c.eps := (congrArg Ctl.eps h.same :)

/-- A request for the SG7, other than a read, of a live incarnation, that ends OK: its response stands in the pair. -/
theorem Ctl.answer_ok {c : Ctl} {r : Frame} (hdst : r.dst = 0xFFF) (hlive : c.liveInc r.src.toNat r.inc = true) (hread : r.kind ≠ kRead)
    (hpub : r.kind ≠ kReadPub) (payload : List Byte) (peg : Option (BitVec 16)) :
    c.Moves (c.answer r stOK dNONE 0 0 payload peg none)
    ∧ ∃ x ∈ ((c.answer r stOK dNONE 0 0 payload peg none).pair r.src.toNat).kept, x.seq = (c.pair r.src.toNat).txSeq
      ∧ x.frame.kind = rspKind r.kind ∧ x.frame.tag = r.tag ∧ x.frame.status = stOK ∧ x.frame.payload = payload := by
  have hmoves := c.moves_answered r stOK dNONE
  have hpair : (c.answered r stOK dNONE).pair r.src.toNat = c.pair r.src.toNat := by
    simp only [Ctl.pair, Ctl.pairs_answered hdst]
  rw [Ctl.answer_eq ((Ctl.liveInc_congr hmoves.eps _ _).trans hlive) hread hpub, Ctl.sendRsp, if_pos hdst, if_pos (by rfl)]
  refine ⟨hmoves.trans (Ctl.moves_sendSeq _ _ _ _), ?_⟩
  obtain ⟨x, hx, hseq, hframe⟩ := (c.answered r stOK dNONE).kept_sendSeq (rspFrame r stOK dNONE 0 0 payload) peg none
  have hr : (rspFrame r stOK dNONE 0 0 payload).dst = r.src := rfl
  rw [hr, hpair] at hseq hframe
  rw [hr] at hx
  exact ⟨x, hx, hseq, by rw [hframe]; exact ⟨rfl, rfl, rfl, rfl⟩⟩

/-! ### Requests that open and close -/

/-- `c` with the records of `d` that serving a request touches beside what it acts on. -/
def Ctl.withServe (c d : Ctl) : Ctl :=
  { c.withMoves d with opens := d.opens, owns := d.owns, locks := d.locks, dirQ := d.dirQ, pubReads := d.pubReads, peg := d.peg }

/-- `d` is `c` after requests opened, were answered or closed: rights and everything that requests act on stand. -/
structure Ctl.Serving (c d : Ctl) : Prop where
  same : d = c.withServe d

theorem Ctl.Serving.trans {c d e : Ctl} (h : c.Serving d) (k : d.Serving e) : c.Serving e :=
  ⟨k.same.trans (congrArg (fun x : Ctl => x.withServe e) h.same :)⟩

theorem Ctl.Moves.serving {c d : Ctl} (h : c.Moves d) : c.Serving d where
  same := by
    have hopens : d.opens = c.opens := h.opens
    have howns : d.owns = c.owns := (congrArg Ctl.owns h.same :)
    have hlocks : d.locks = c.locks := (congrArg Ctl.locks h.same :)
    have hdirQ : d.dirQ = c.dirQ := (congrArg Ctl.dirQ h.same :)
    have hreads : d.pubReads = c.pubReads := (congrArg Ctl.pubReads h.same :)
    have hpeg : d.peg = c.peg := (congrArg Ctl.peg h.same :)
    rw [Ctl.withServe, hopens, howns, hlocks, hdirQ, hreads, hpeg]
    exact h.same

theorem Ctl.Serving.sameRights {s : State} {d : Ctl} (h : s.ctl.Serving d) : SameRights s { s with ctl := d } :=
  ⟨(congrArg Ctl.bays h.same :), (congrArg Ctl.exts h.same :), (congrArg Ctl.eps h.same :), (congrArg Ctl.kvRegions h.same :)⟩

theorem Ctl.serving_closeReq (c : Ctl) (id : Nat) : c.Serving (c.closeReq id) := ⟨rfl⟩
theorem Ctl.serving_putOpen (c : Ctl) (o : OpenReq) : c.Serving (c.putOpen o) := ⟨rfl⟩
theorem Ctl.serving_trackExt (c : Ctl) (f : Frame) (e : Option Nat) : c.Serving (c.trackExt f e) := ⟨rfl⟩
theorem Ctl.serving_openReq (c : Ctl) (f : Frame) (ph : Phase) : c.Serving (c.openReq f ph).2 := ⟨rfl⟩
theorem Ctl.serving_dropOwn (c : Ctl) (x : OwnReq) : c.Serving (c.dropOwn x) := ⟨rfl⟩

/-- With no request open nothing is held (R165). -/
theorem State.settle_quiet {s : State} (h : s.ctl.opens = []) : s.settle = s := by
  unfold State.settle
  rw [h]
  rfl

end Sys2Proof.Machine

namespace Sys2Proof.Machine

/-! ### A request for the SG7 on its way in (R147-R157) -/

/-- The registers of `d` are those of `c`, the trackers' high mark set or not. -/
def Ctl.SameMarks (c d : Ctl) : Prop := d.regs = c.regs ∨ ∃ v, d.regs = (c.putReg 0x06000008 v).regs

theorem Ctl.SameMarks.reg {c d : Ctl} (h : c.SameMarks d) {a : Nat} (ha : a ≠ 0x06000008) : d.reg a = c.reg a := by
  obtain h | ⟨v, h⟩ := h
  · simp only [Ctl.reg, h]
  · rw [← Ctl.reg_putReg_ne c 0x06000008 a v ha]
    simp only [Ctl.reg, h]

theorem Ctl.SameMarks.rd {c d : Ctl} (h : c.SameMarks d) (f : Fld) (hf : f.addr ≠ 0x06000008) : d.rd f = c.rd f := Ctl.rd_congr (h.reg hf)

/-- A table's entries under a key that a selection passes over do not matter to it. -/
theorem Tab.filterMap_put {α β : Type} (t : Tab α) (k : Nat) (v : α) (g : Nat × α → Option β) (h : ∀ w, g (k, w) = none) :
    (Tab.put t k v).filterMap g = t.filterMap g := by
  induction t with
  | nil => simp [Tab.put, h]
  | cons e t ih =>
    obtain ⟨j, w⟩ := e
    unfold Tab.put
    split
    · simp [h]
    · split
      · rename_i hkj
        simp [← hkj, h]
      · simp [List.filterMap_cons, ih]

theorem Tab.filterMap_del {α β : Type} (t : Tab α) (k : Nat) (g : Nat × α → Option β) (h : ∀ w, g (k, w) = none) :
    (Tab.del t k).filterMap g = t.filterMap g := by
  rw [Tab.del, List.filterMap_filter]
  congr 1
  funext e
  obtain ⟨j, w⟩ := e
  by_cases hj : j = k
  · simp [hj, h]
  · simp [hj]

theorem Ctl.filterMap_putReg {β : Type} (c : Ctl) (a : Nat) (v : Word) (g : Nat × Word → Option β) (h : ∀ w, g (a, w) = none) :
    (c.putReg a v).regs.filterMap g = c.regs.filterMap g := by
  unfold Ctl.putReg Tab.set
  dsimp only
  split
  · exact Tab.filterMap_del _ _ _ h
  · exact Tab.filterMap_put _ _ _ _ h

/-- The trackers' high mark lies outside the queues' registers. -/
theorem Ctl.SameMarks.enabledQueues {c d : Ctl} (h : c.SameMarks d) : d.enabledQueues = c.enabledQueues := by
  obtain h | ⟨v, h⟩ := h
  · simp only [Ctl.enabledQueues, h]
  · unfold Ctl.enabledQueues
    rw [h]
    refine c.filterMap_putReg _ _ _ (fun w => ?_)
    have hout : inArray 0x06000008 0x09010000 0x40 16384 0x10 = false := by decide
    simp [hout]

theorem Ctl.SameMarks.slotQueue {c d : Ctl} (h : c.SameMarks d) (bay slot : Nat) : d.slotQueue bay slot = c.slotQueue bay slot := by
  have hbay : ∀ q, d.rd (Reg.queBay q) = c.rd (Reg.queBay q) := fun q => h.rd _ (by simp only [Reg.queBay, Reg.queBase]; omega)
  have hslot : ∀ q, d.rd (Reg.queSlot q) = c.rd (Reg.queSlot q) := fun q => h.rd _ (by simp only [Reg.queSlot, Reg.queBase]; omega)
  simp only [Ctl.slotQueue, h.enabledQueues, hbay, hslot]

theorem Ctl.checkMember_congr {c d : Ctl} (h : d.bays = c.bays) (bay : Nat) (gen : BitVec 16) (src : Nat) :
    d.checkMember bay gen src = c.checkMember bay gen src := by
  have hbay : d.bay bay = c.bay bay := by simp only [Ctl.bay, h]
  unfold Ctl.checkMember
  rw [hbay]

theorem Ctl.checkAddr_congr {c d : Ctl} (hexts : d.exts = c.exts) (heps : d.eps = c.eps) (bay cls : Nat) (old : Bool) (a : Word) (n : Nat)
    (right : Option Nat) : d.checkAddr bay cls old a n right = c.checkAddr bay cls old a n right := by
  have hcover : d.extCover bay a n = c.extCover bay a n := by simp only [Ctl.extCover, hexts]
  have hext : ∀ i, d.ext i = c.ext i := fun i => by simp only [Ctl.ext, hexts]
  have hep : ∀ e, d.ep e = c.ep e := fun e => by simp only [Ctl.ep, heps]
  unfold Ctl.checkAddr
  rw [hcover, hep]
  simp only [hext]

/-- The checks of Table 5.9 look at bays, extents and endpoints. -/
theorem Ctl.check59_congr {c d : Ctl} (hbays : d.bays = c.bays) (hexts : d.exts = c.exts) (heps : d.eps = c.eps) (f : Frame) (n : Nat)
    (right : Option Nat) : d.check59 f n right = c.check59 f n right := by
  have hbay : d.bay f.bay.toNat = c.bay f.bay.toNat := by simp only [Ctl.bay, hbays]
  unfold Ctl.check59
  rw [Ctl.checkMember_congr hbays, hbay]
  simp only [Ctl.checkAddr_congr hexts heps]

theorem isCoherence_write {f : Frame} (h : f.kind = kWrite) : f.isCoherence = false := by
  unfold Frame.isCoherence
  rw [h]
  decide

theorem spanOf_write {f : Frame} (h : f.kind = kWrite) : spanOf f = f.payload.length := by
  unfold spanOf
  rw [if_neg (by rw [h]; decide), if_neg (by rw [h]; decide), isCoherence_write h]
  rfl

theorem rightFor_write {f : Frame} (h : f.kind = kWrite) : rightFor f = some rightW := by
  unfold rightFor
  rw [h]
  decide

/-- The release tracker's entry for a request, and the control records that hold it. -/
def Ctl.newTrack (c : Ctl) (f : Frame) : TrackEnt :=
  { serial := c.nextId, src := f.src.toNat, bay := f.bay.toNat, dst := f.dst.toNat, seq := f.seq, ext := none }

/-- The first tracked request of its source enters its tracker (R155). -/
theorem Ctl.track_first {c : Ctl} {f : Frame} (htracked : f.tracked = true) (hnone : ∀ x ∈ c.tracker, x.src ≠ f.src.toNat) :
    ∃ d, c.track f = some d ∧ c.Tracks d ∧ c.SameMarks d ∧ d.tracker = c.tracker ++ [c.newTrack f] := by
  have hnot : c.tracked? f = none := by
    rw [Ctl.tracked?, List.find?_eq_none]
    intro x hx
    simp [hnone x hx]
  have hcount : c.trackCount f.src.toNat f.bay.toNat = 0 := by
    rw [Ctl.trackCount, List.length_eq_zero_iff, List.filter_eq_nil_iff]
    intro x hx
    simp [hnone x hx]
  have heq : ∃ d, c.track f = some d ∧ c.SameMarks d ∧ d.tracker = c.tracker ++ [c.newTrack f] := by
    unfold Ctl.track
    rw [htracked, hnot, hcount, if_neg (by decide)]
    dsimp only
    rw [if_neg (by decide)]
    refine ⟨_, rfl, ?_, ?_⟩
    · split
      · exact .inr ⟨_, rfl⟩
      · exact .inl rfl
    · split <;> rfl
  obtain ⟨d, hd, hmarks, htracker⟩ := heq
  exact ⟨d, hd, Ctl.track_spec hd, hmarks, htracker⟩

/-- An open request that nothing holds. -/
def Ctl.opened (c : Ctl) (f : Frame) : OpenReq :=
  { id := c.nextId, frame := f, ext := none, old := false, since := c.now, phase := .directory, parts := [], pos := 0 }

/-- A write to a window of the SG7 that passed its checks runs (R124, R129). -/
theorem State.runKind_window {s : State} {o : OpenReq} {f : Frame} {t : Target} {cls : Nat} {old : Bool} (hf : o.frame = f)
    (hkind : f.kind = kWrite) (hform : malformed f = false) (hactive : (s.ctl.bay f.bay.toNat).st = .active)
    (hrunning : (s.ctl.bay f.bay.toNat).halted = false) (ht : (∃ off, t = .window off) ∨ ∃ off, t = .kv off)
    (hcheck : s.ctl.check59 f f.payload.length (some rightW) = .pass t cls old) :
    s.runKind o = (s.onCtl (fun c => (c.putOpen { o with ext := none, old := old }).trackExt f none)).runPassed { o with ext := none, old := old } t cls := by
  have hne : ∀ k : BitVec 8, kWrite ≠ k → ¬ f.kind = k := fun k hk h => hk (hkind.symm.trans h)
  subst hf
  unfold State.runKind
  dsimp only
  rw [hactive, hrunning, hform, if_neg (by decide), if_neg (by decide), if_neg (by decide), if_neg (hne _ (by decide)), if_neg (hne _ (by decide)),
    if_neg (hne _ (by decide)), if_neg (hne _ (by decide)), if_neg (by simp [hne kAtomic (by decide)]), if_neg (by simp [hne kAtomic (by decide)]),
    spanOf_write hkind, rightFor_write hkind, hcheck]
  obtain ⟨off, rfl⟩ | ⟨off, rfl⟩ := ht <;> rfl

/-- A request that holds nothing and for which nothing waits is opened and runs (R157). -/
theorem State.begin_first {s : State} {f : Frame} {src : List TrackEnt} {e : TrackEnt} (htracker : s.ctl.tracker = src ++ [e])
    (hnone : ∀ x ∈ src, x.src ≠ f.src.toNat) (hsrc : e.src = f.src.toNat) (hdst : e.dst = f.dst.toNat) (hseq : e.seq = f.seq) :
    s.begin f = ({ s with ctl := (s.ctl.openReq f .directory).2 } : State).run s.ctl.nextId := by
  have hmine : s.ctl.tracked? f = some e := by
    have hold : src.find? (fun (t : TrackEnt) => t.src == f.src.toNat && t.dst == f.dst.toNat && t.seq == f.seq) = none := by
      rw [List.find?_eq_none]
      intro x hx
      simp [hnone x hx]
    rw [Ctl.tracked?, htracker, List.find?_append, hold]
    simp [hsrc, hdst, hseq]
  have hfirst : s.ctl.tracker.any (fun (t : TrackEnt) => t.src == f.src.toNat && t.bay == f.bay.toNat && decide (t.serial < e.serial)) = false := by
    rw [htracker, List.any_append, List.any_eq_false.mpr (fun x hx => by simp [hnone x hx])]
    simp
  unfold State.begin
  simp only [hmine, hfirst, Bool.and_false, Bool.false_eq_true, if_false]
  rfl

/-- An open request other than an atomic runs at once. -/
theorem State.run_kind {s : State} {id : Nat} {o : OpenReq} (ho : s.ctl.open? id = some o) (hkind : o.frame.kind ≠ kAtomic) :
    s.run id = s.runKind o := by
  unfold State.run
  simp only [ho, hkind, decide_false, Bool.false_and, Bool.false_eq_true, if_false]

/-- What a write to a window of the SG7 meets when it acts: it is the one open request, its response is yet to be sent. -/
structure Runs (s : State) (f : Frame) (old : Bool) (c : Ctl) (o : OpenReq) : Prop where
  frame : o.frame = f
  opens : c.opens = [o]
  serving : s.ctl.Serving c
  pairs : c.pairs = s.ctl.pairs
  marks : s.ctl.SameMarks c

/-- A write to a window of the SG7 that arrives and passes its checks acts, and nothing is left held (R129, R155, R157). -/
theorem State.serve_window {s : State} {f : Frame} {t : Target} {cls : Nat} {old : Bool} (h : Arrives s f) (hkind : f.kind = kWrite)
    (ht : (∃ off, t = .window off) ∨ ∃ off, t = .kv off) (hcheck : s.ctl.check59 f f.payload.length (some rightW) = .pass t cls old) :
    ∃ c o, Runs s f old c o ∧ s.serve f .clean = (({ s with ctl := c } : State).runPassed o t cls).settle := by
  have htracked : f.tracked = true := by simp [Frame.tracked, hkind]
  obtain ⟨d, hd, htracks, hmarks, htracker⟩ := Ctl.track_first htracked h.untracked
  have hmoves := htracks.moves
  have hlive : d.liveInc f.src.toNat f.inc = true := (Ctl.liveInc_congr hmoves.eps _ _).trans h.live
  have hbusy : d.answersBusy = false := by
    have hglb : d.rd Reg.glbState = s.ctl.rd Reg.glbState := hmarks.rd _ (by decide)
    have := h.serving
    unfold Ctl.answersBusy at this ⊢
    rw [hglb]
    exact this
  have hserve : s.serve f .clean = (({ s with ctl := d } : State).begin f).settle := by
    unfold State.serve
    simp [h.up, h.live, h.ours, hd, hbusy, State.siteFinds, hlive]
  have hbegin := State.begin_first (s := { s with ctl := d }) htracker h.untracked rfl rfl rfl
  have hopens : (d.openReq f .directory).2.opens = [d.opened f] := congrArg (· ++ [d.opened f]) (hmoves.opens.trans h.quiet)
  have hopen : (d.openReq f .directory).2.open? d.nextId = some (d.opened f) := by
    rw [Ctl.open?, hopens]
    simp [Ctl.opened]
  have hrun := State.run_kind (s := { s with ctl := (d.openReq f .directory).2 }) hopen (by simp [Ctl.opened, hkind, kWrite, kAtomic])
  have hservd : s.ctl.Serving (d.openReq f .directory).2 := hmoves.serving.trans (d.serving_openReq f _)
  have hbays : (d.openReq f .directory).2.bays = s.ctl.bays := (congrArg Ctl.bays hservd.same :)
  have hbay : (d.openReq f .directory).2.bay f.bay.toNat = s.ctl.bay f.bay.toNat := by simp only [Ctl.bay, hbays]
  have hcheck' := (Ctl.check59_congr hbays (congrArg Ctl.exts hservd.same :) (congrArg Ctl.eps hservd.same :) f f.payload.length (some rightW)).trans hcheck
  have hkindrun := State.runKind_window (s := { s with ctl := (d.openReq f .directory).2 }) (o := d.opened f) rfl hkind h.form
    ((congrArg BayRec.st hbay).trans h.active) ((congrArg BayRec.halted hbay).trans h.running) ht hcheck'
  refine ⟨_, _, ⟨rfl, ?_, (hservd.trans (Ctl.serving_putOpen _ _)).trans (Ctl.serving_trackExt _ f none), ?_, hmarks⟩,
    hserve.trans (congrArg State.settle (hbegin.trans (hrun.trans hkindrun)))⟩
  · show (d.openReq f .directory).2.opens.map _ = _
    rw [hopens]
    simp [Ctl.opened]
  · exact (congrArg Ctl.pairs htracks.same :)

end Sys2Proof.Machine

namespace Sys2Proof.Machine

/-! ### The end of a request that acted -/

/-- `d` keeps the tables of `c` that say who may reach what. -/
structure Ctl.Rights (c d : Ctl) : Prop where
  bays : d.bays = c.bays
  exts : d.exts = c.exts
  eps : d.eps = c.eps
  kvRegions : d.kvRegions = c.kvRegions

theorem Ctl.Rights.trans {c d e : Ctl} (h : c.Rights d) (k : d.Rights e) : c.Rights e :=
  ⟨k.bays.trans h.bays, k.exts.trans h.exts, k.eps.trans h.eps, k.kvRegions.trans h.kvRegions⟩

theorem Ctl.Serving.rights {c d : Ctl} (h : c.Serving d) : c.Rights d :=
  ⟨(congrArg Ctl.bays h.same :), (congrArg Ctl.exts h.same :), (congrArg Ctl.eps h.same :), (congrArg Ctl.kvRegions h.same :)⟩

theorem Ctl.Rights.sameRights {s : State} {d : Ctl} (h : s.ctl.Rights d) : SameRights s { s with ctl := d } := ⟨h.bays, h.exts, h.eps, h.kvRegions⟩

theorem Ctl.answerOpen_eq (c : Ctl) (o : OpenReq) (payload : List Byte) :
    c.answerOpen o stOK dNONE 0 payload = (c.closeReq o.id).answer o.frame stOK dNONE 0 0 payload none none := if_pos rfl

/-- The one open request is answered OK: nothing is left open or held, the response stands in its pair. -/
theorem Runs.answers {s : State} {f : Frame} {old : Bool} {c e : Ctl} {o : OpenReq} (h : Runs s f old c o) (harr : Arrives s f)
    (hread : f.kind ≠ kRead) (hpub : f.kind ≠ kReadPub) (hopens : e.opens = c.opens) (hpairs : e.pairs = c.pairs) (heps : e.eps = c.eps) :
    ({ s with ctl := e.answerOpen o stOK dNONE 0 [] } : State).settle = { s with ctl := e.answerOpen o stOK dNONE 0 [] }
    ∧ e.Serving (e.answerOpen o stOK dNONE 0 []) ∧ Replied s { s with ctl := e.answerOpen o stOK dNONE 0 [] } f stOK [] := by
  have hframe := h.frame
  have hlive : (e.closeReq o.id).liveInc o.frame.src.toNat o.frame.inc = true := by
    rw [hframe]
    exact (Ctl.liveInc_congr (heps.trans h.serving.rights.eps) _ _).trans harr.live
  obtain ⟨hmoves, x, hx, hseq, hrest⟩ := Ctl.answer_ok (c := e.closeReq o.id) (by rw [hframe]; exact harr.ours) hlive (by rw [hframe]; exact hread)
    (by rw [hframe]; exact hpub) [] none
  rw [Ctl.answerOpen_eq]
  refine ⟨State.settle_quiet (hmoves.opens.trans ?_), (e.serving_closeReq o.id).trans hmoves.serving, x, ?_, ?_, ?_⟩
  · show e.opens.filter _ = []
    rw [hopens, h.opens]
    simp
  · rw [hframe] at hx ⊢
    exact hx
  · rw [hframe] at hseq
    have hpair : (e.closeReq o.id).pair f.src.toNat = s.ctl.pair f.src.toNat := by
      simp only [Ctl.pair]
      exact congrArg (fun t => Tab.get t f.src.toNat Pair.init) (hpairs.trans h.pairs)
    rw [← hpair]
    exact hseq
  · rw [hframe] at hrest
    exact hrest

/-- A write to the bay window that it accepts (R124). -/
theorem State.runWindow_ok {s : State} {o : OpenReq} {off : Nat} {e : Ctl} (hread : o.frame.kind ≠ kRead)
    (h : s.ctl.windowWrite o.frame.bay.toNat o.frame.src.toNat off o.frame.payload = (e, stOK, dNONE)) :
    s.runWindow o off = { s with ctl := e.answerOpen o stOK dNONE 0 [] } := by
  unfold State.runWindow
  simp only [hread, if_false, h]

/-- A write to the bay window that arrives, passes its checks and is accepted: it does its work and is answered OK. -/
theorem State.serve_windowWrite {s : State} {f : Frame} {off cls : Nat} {old : Bool} (harr : Arrives s f) (hkind : f.kind = kWrite)
    (hcheck : s.ctl.check59 f f.payload.length (some rightW) = .pass (.window off) cls old) (w : Ctl → Ctl)
    (hw : ∀ c, s.ctl.Serving c → s.ctl.SameMarks c → c.windowWrite f.bay.toNat f.src.toNat off f.payload = (w c, stOK, dNONE))
    (hopens : ∀ c, (w c).opens = c.opens) (hpairs : ∀ c, (w c).pairs = c.pairs) (hrights : ∀ c : Ctl, c.Rights (w c)) :
    ∃ c d, s.serve f .clean = { s with ctl := d } ∧ s.ctl.Serving c ∧ s.ctl.SameMarks c ∧ (w c).Serving d ∧ Replied s { s with ctl := d } f stOK []
      ∧ SameRights s { s with ctl := d } := by
  obtain ⟨c, o, hruns, hserve⟩ := State.serve_window harr hkind (.inl ⟨off, rfl⟩) hcheck
  have hne : ∀ k : BitVec 8, kWrite ≠ k → f.kind ≠ k := fun k hk h => hk (hkind.symm.trans h)
  obtain ⟨hsettle, hserving, hreplied⟩ := hruns.answers (e := w c) harr (hne _ (by decide)) (hne _ (by decide)) (hopens c) (hpairs c) (hrights c).eps
  have hwindow := State.runWindow_ok (s := { s with ctl := c }) (o := o) (off := off) (e := w c) (by rw [hruns.frame]; exact hne _ (by decide))
    (by rw [hruns.frame]; exact hw c hruns.serving hruns.marks)
  have hrun : ({ s with ctl := c } : State).runPassed o (.window off) cls = { s with ctl := (w c).answerOpen o stOK dNONE 0 [] } := hwindow
  exact ⟨c, _, hserve.trans ((congrArg State.settle hrun).trans hsettle), hruns.serving, hruns.marks, hserving, hreplied,
    ((hruns.serving.rights.trans (hrights c)).trans hserving.rights).sameRights⟩

/-! ### Doorbells (R234, R244) -/

/-- A queue after a doorbell value: TAIL moves as far as there is room, RESUME starts a stopped queue. -/
def Que.rung (x : Que) (size v : Nat) : Que :=
  let d := (field v 0 32 + 2 ^ 32 - x.tail) % 2 ^ 32
  let room := (x.head + size + 2 ^ 32 - x.tail) % 2 ^ 32
  let y := if d ≠ 0 && d < 2 ^ 31 then { x with tail := (x.tail + min d room) % 2 ^ 32 } else x
  if bitOf v 32 && y.st = .stopped then { y with marks := y.resumeMarks, st := .running, fetched := [] } else y

theorem Ctl.doorbell_regs (c : Ctl) (q v : Nat) : ∃ r, (c.doorbell q v).1 = { c.putQue q ((c.que q).rung (c.queSize q) v) with regs := r } := by
  unfold Ctl.doorbell
  dsimp only
  split
  · exact ⟨_, rfl⟩
  · exact ⟨_, rfl⟩

theorem Ctl.que_doorbell (c : Ctl) (q v : Nat) : (c.doorbell q v).1.que q = (c.que q).rung (c.queSize q) v := by
  obtain ⟨r, h⟩ := c.doorbell_regs q v
  rw [h]
  exact Ctl.que_putQue c q _

theorem Ctl.que_doorbell_ne (c : Ctl) (q v : Nat) {m : Nat} (hm : m ≠ q) : (c.doorbell q v).1.que m = c.que m := by
  obtain ⟨r, h⟩ := c.doorbell_regs q v
  rw [h]
  exact Ctl.que_putQue_ne c q _ m hm

theorem Ctl.Serving.que {c d : Ctl} (h : c.Serving d) (q : Nat) : d.que q = c.que q := (congrArg (fun x : Ctl => x.que q) h.same :)

theorem Ctl.SameMarks.queSize {c d : Ctl} (h : c.SameMarks d) (q : Nat) : d.queSize q = c.queSize q := by
  have hlog : d.rd (Reg.queLog q) = c.rd (Reg.queLog q) := h.rd _ (by simp only [Reg.queLog, Reg.queBase]; omega)
  simp only [Ctl.queSize, hlog]

/-- A doorbell in the window reaches the queue of its slot and no other (R233, R234). -/
theorem State.serve_doorbell {s : State} {f : Frame} {n cls : Nat} {old : Bool} (harr : Arrives s f)
    (hwin : windowFrame f (fun o => decide (o < 0x200)) = true) (hlen : f.payload.length = 8) (haligned : offsetOf f.addr % 8 = 0)
    (hcheck : s.ctl.check59 f 8 (some rightW) = .pass (.window (offsetOf f.addr)) cls old)
    (hslot : s.ctl.slotQueue f.bay.toNat (offsetOf f.addr / 8) = some n) : ∃ d, s.serve f .clean = { s with ctl := d }
    ∧ d.que n = (s.ctl.que n).rung (s.ctl.queSize n) (leNat f.payload) ∧ (∀ m, m ≠ n → d.que m = s.ctl.que m)
    ∧ Replied s { s with ctl := d } f stOK [] ∧ SameRights s { s with ctl := d } := by
  simp only [windowFrame, Bool.and_eq_true, beq_iff_eq, decide_eq_true_eq] at hwin
  obtain ⟨⟨⟨⟨hkind, -⟩, -⟩, -⟩, hoff⟩ := hwin
  have hw : ∀ c, s.ctl.Serving c → s.ctl.SameMarks c →
      c.windowWrite f.bay.toNat f.src.toNat (offsetOf f.addr) f.payload = ((c.doorbell n (leNat f.payload)).1, stOK, dNONE) := fun c _ hmarks => by
    have hslot' := (hmarks.slotQueue f.bay.toNat (offsetOf f.addr / 8)).trans hslot
    unfold Ctl.windowWrite
    rw [if_pos hoff, if_neg (not_not_intro haligned), if_neg (not_not_intro hlen), hslot']
  have hwork : ∀ c : Ctl, (c.doorbell n (leNat f.payload)).1.opens = c.opens ∧ (c.doorbell n (leNat f.payload)).1.pairs = c.pairs
      ∧ c.Rights (c.doorbell n (leNat f.payload)).1 := fun c => by
    obtain ⟨r, h⟩ := c.doorbell_regs n (leNat f.payload)
    rw [h]
    exact ⟨rfl, rfl, rfl, rfl, rfl, rfl⟩
  obtain ⟨c, d, hserve, hserving, hmarks, hend, hreplied, hrights⟩ := State.serve_windowWrite harr hkind (hlen ▸ hcheck)
    (fun c => (c.doorbell n (leNat f.payload)).1) hw (fun c => (hwork c).1) (fun c => (hwork c).2.1) (fun c => (hwork c).2.2)
  refine ⟨d, hserve, ?_, fun m hm => ?_, hreplied, hrights⟩
  · rw [hend.que, Ctl.que_doorbell, hserving.que, hmarks.queSize]
  · rw [hend.que, Ctl.que_doorbell_ne _ _ _ hm, hserving.que]

theorem doorbell_completes (f : Frame) (n cls : Nat) (old : Bool) (s : State) (harr : Arrives s f)
    (hwin : windowFrame f (fun o => decide (o < 0x200)) = true) (hlen : f.payload.length = 8) (haligned : offsetOf f.addr % 8 = 0)
    (hcheck : s.ctl.check59 f 8 (some rightW) = .pass (.window (offsetOf f.addr)) cls old)
    (hslot : s.ctl.slotQueue f.bay.toNat (offsetOf f.addr / 8) = some n) : Completes (.doorbell f) s (fun t =>
    t.ctl.que n = (s.ctl.doorbell n (leNat f.payload)).1.que n ∧ (∀ m, m ≠ n → t.ctl.que m = s.ctl.que m) ∧ Replied s t f stOK []
    ∧ SameRights s t ∧ Keeps s t) := by
  obtain ⟨d, hserve, hque, hothers, hreplied, hrights⟩ := State.serve_doorbell harr hwin hlen haligned hcheck hslot
  exact Completes.of_done ((congrArg done (if_pos hwin)).trans (congrArg done hserve))
    ⟨hque.trans (s.ctl.que_doorbell n _).symm, hothers, hreplied, hrights, rfl, rfl⟩

/-- A doorbell with RESUME starts a stopped queue at its HEAD, with nothing fetched (R244). -/
theorem Que.rung_resume {x : Que} (size : Nat) {v : Nat} (hresume : bitOf v 32 = true) (hst : x.st = .stopped) :
    (x.rung size v).st = .running ∧ (x.rung size v).head = x.head ∧ (x.rung size v).fetched = [] := by
  unfold Que.rung
  dsimp only
  split <;> simp [hresume, hst]

theorem leAt_all (l : List Byte) : leAt l 0 l.length = leNat l := by
  simp [leAt, slice, zeros]

theorem resume_completes (f : Frame) (n cls : Nat) (old : Bool) (s : State) (harr : Arrives s f)
    (hwin : windowFrame f (fun o => decide (o < 0x200)) = true) (hlen : f.payload.length = 8) (haligned : offsetOf f.addr % 8 = 0)
    (hcheck : s.ctl.check59 f 8 (some rightW) = .pass (.window (offsetOf f.addr)) cls old)
    (hslot : s.ctl.slotQueue f.bay.toNat (offsetOf f.addr / 8) = some n) (hresume : bitOf (leAt f.payload 0 8) 32 = true)
    (hst : (s.ctl.que n).st = .stopped) : Completes (.resume f) s (fun t =>
    (t.ctl.que n).st = .running ∧ (t.ctl.que n).head = (s.ctl.que n).head ∧ (t.ctl.que n).fetched = [] ∧ Replied s t f stOK []
    ∧ SameRights s t ∧ Keeps s t) := by
  obtain ⟨d, hserve, hque, -, hreplied, hrights⟩ := State.serve_doorbell harr hwin hlen haligned hcheck hslot
  have hvalue : bitOf (leNat f.payload) 32 = true := by rwa [← leAt_all, hlen]
  obtain ⟨hrun, hhead, hfetched⟩ := Que.rung_resume (s.ctl.queSize n) hvalue hst
  rw [← hque] at hrun hhead hfetched
  have hgo : (windowFrame f (fun o => decide (o < 0x200)) && bitOf (leAt f.payload 0 8) 32) = true := by rw [hwin, hresume]; rfl
  exact Completes.of_done ((congrArg done (if_pos hgo)).trans (congrArg done hserve)) ⟨hrun, hhead, hfetched, hreplied, hrights, rfl, rfl⟩

end Sys2Proof.Machine

namespace Sys2Proof.Machine

/-! ### Mailbox posts (R414-R416) -/

/-- A wake event moves a placement and its tiles (R416). -/
theorem Ctl.wake_spec (c : Ctl) (bay h : Nat) : ∃ p t, c.wake bay h = { c with places := p, tiles := t } := by
  have htiles : ∀ (l : List Nat) (c : Ctl), ∃ t, l.foldl (fun d t => d.putTile t { (d.tile t).next with asleep := false }) c = { c with tiles := t } :=
    fun l c => List.foldlRecOn (motive := fun d : Ctl => ∃ t, d = { c with tiles := t }) l _ ⟨c.tiles, rfl⟩ (fun d hd _ _ => by
      obtain ⟨t, rfl⟩ := hd
      exact ⟨_, rfl⟩)
  unfold Ctl.wake
  split
  · exact ⟨c.places, c.tiles, rfl⟩
  · dsimp only
    split
    · exact ⟨_, c.tiles, rfl⟩
    · obtain ⟨t, ht⟩ := htiles _ _
      rw [ht]
      exact ⟨_, t, rfl⟩

theorem Ctl.wakeReceiver_spec (c : Ctl) (ep : Nat) : ∃ p t, c.wakeReceiver ep = { c with places := p, tiles := t } := by
  unfold Ctl.wakeReceiver
  split
  · exact c.wake_spec _ _
  · exact ⟨c.places, c.tiles, rfl⟩

/-- A mailbox with a post in it (R414). -/
def Mbx.posted (m : Mbx) (bay : Nat) (seq : BitVec 16) (now : Nat) : Mbx := { m with go := true, seq := seq, bay := bay, since := now }

theorem Ctl.post_spec (c : Ctl) (ep bay : Nat) (seq : BitVec 16) : ∃ r p t,
    c.post ep bay seq = { c.putMbx ep ((c.mbx ep).posted bay seq c.now) with regs := r, places := p, tiles := t } := by
  obtain ⟨p, t, h⟩ := ((c.putMbx ep ((c.mbx ep).posted bay seq c.now)).bump (Reg.mbxCtr 0)).wakeReceiver_spec ep
  exact ⟨_, p, t, h⟩

/-- CTL takes GO and SEQ while no post is pending (R413, R414). -/
theorem Ctl.windowWrite_post {c : Ctl} {bay ep : Nat} {data : List Byte} (hlen : data.length = 8) (hgo : bitOf (leNat data) 0 = true)
    (hopen : leNat data = 1 + field (leNat data) 16 16 * 65536) (hidle : (c.mbx ep).go = false) :
    c.windowWrite bay ep 0x1040 data = (c.post ep bay (BitVec.ofNat 16 (field (leNat data) 16 16)), stOK, dNONE) := by
  have hmsg : msgAccess 0x1040 8 = false := by decide
  have hself : leNat data - Nat.land (leNat data) (1 + field (leNat data) 16 16 * 65536) = 0 := by
    rw [← hopen]
    exact Nat.sub_eq_zero_of_le (Nat.and_self (leNat data)).ge
  unfold Ctl.windowWrite
  rw [if_neg (by decide)]
  unfold Ctl.mbxWrite
  dsimp only
  rw [hlen, hmsg, if_neg (by decide), if_pos (by decide), if_neg (by simp), if_pos rfl, hself, if_neg (by decide), hidle, if_neg (by decide), if_pos hgo]

theorem Ctl.Serving.mbx {c d : Ctl} (h : c.Serving d) (e : Nat) : d.mbx e = c.mbx e := (congrArg (fun x : Ctl => x.mbx e) h.same :)
theorem Ctl.Serving.now {c d : Ctl} (h : c.Serving d) : d.now = c.now := (congrArg Ctl.now h.same :)

theorem mailboxPost_completes (f : Frame) (cls : Nat) (old : Bool) (s : State) (harr : Arrives s f)
    (hwin : windowFrame f (fun o => o == 0x1040) = true) (hlen : f.payload.length = 8) (hgo : bitOf (leAt f.payload 0 8) 0 = true)
    (hopen : leNat f.payload = 1 + field (leNat f.payload) 16 16 * 65536) (hcheck : s.ctl.check59 f 8 (some rightW) = .pass (.window 0x1040) cls old)
    (hidle : (s.ctl.mbx f.src.toNat).go = false) : Completes (.mailboxPost f) s (fun t =>
    t.ctl.mbx f.src.toNat = { s.ctl.mbx f.src.toNat with
      go := true, seq := BitVec.ofNat 16 (field (leNat f.payload) 16 16), bay := f.bay.toNat, since := s.ctl.now }
    ∧ (∀ e, e ≠ f.src.toNat → t.ctl.mbx e = s.ctl.mbx e) ∧ Replied s t f stOK [] ∧ SameRights s t ∧ Keeps s t) := by
  have hkind : f.kind = kWrite := by
    simp only [windowFrame, Bool.and_eq_true, beq_iff_eq] at hwin
    exact hwin.1.1.1.1
  have hvalue : bitOf (leNat f.payload) 0 = true := by rwa [← leAt_all, hlen]
  have hw : ∀ c, s.ctl.Serving c → s.ctl.SameMarks c → c.windowWrite f.bay.toNat f.src.toNat 0x1040 f.payload
      = (c.post f.src.toNat f.bay.toNat (BitVec.ofNat 16 (field (leNat f.payload) 16 16)), stOK, dNONE) := fun c hserving _ =>
    Ctl.windowWrite_post hlen hvalue hopen ((congrArg Mbx.go (hserving.mbx _)).trans hidle)
  have hwork : ∀ c : Ctl, (c.post f.src.toNat f.bay.toNat (BitVec.ofNat 16 (field (leNat f.payload) 16 16))).opens = c.opens
      ∧ (c.post f.src.toNat f.bay.toNat (BitVec.ofNat 16 (field (leNat f.payload) 16 16))).pairs = c.pairs
      ∧ c.Rights (c.post f.src.toNat f.bay.toNat (BitVec.ofNat 16 (field (leNat f.payload) 16 16))) := fun c => by
    obtain ⟨r, p, t, h⟩ := c.post_spec f.src.toNat f.bay.toNat (BitVec.ofNat 16 (field (leNat f.payload) 16 16))
    rw [h]
    exact ⟨rfl, rfl, rfl, rfl, rfl, rfl⟩
  obtain ⟨c, d, hserve, hserving, -, hend, hreplied, hrights⟩ := State.serve_windowWrite harr hkind (hlen ▸ hcheck)
    (fun c => c.post f.src.toNat f.bay.toNat (BitVec.ofNat 16 (field (leNat f.payload) 16 16))) hw
    (fun c => (hwork c).1) (fun c => (hwork c).2.1) (fun c => (hwork c).2.2)
  obtain ⟨r, p, t, hpost⟩ := c.post_spec f.src.toNat f.bay.toNat (BitVec.ofNat 16 (field (leNat f.payload) 16 16))
  have hboxes : ∀ e, d.mbx e =
      (c.putMbx f.src.toNat ((c.mbx f.src.toNat).posted f.bay.toNat (BitVec.ofNat 16 (field (leNat f.payload) 16 16)) c.now)).mbx e :=
    fun e => (hend.mbx e).trans (congrArg (fun x : Ctl => x.mbx e) hpost :)
  have hboth : (windowFrame f (fun o => o == 0x1040) && bitOf (leAt f.payload 0 8) 0) = true := by rw [hwin, hgo]; rfl
  refine Completes.of_done ((congrArg done (if_pos hboth)).trans (congrArg done hserve)) ⟨?_, fun e he => ?_, hreplied, hrights, rfl, rfl⟩
  · refine (hboxes _).trans ((Ctl.mbx_putMbx _ _ _).trans ?_)
    rw [hserving.mbx, hserving.now]
    rfl
  · exact (hboxes e).trans ((Ctl.mbx_putMbx_ne _ _ _ _ he).trans (hserving.mbx e))

/-! ### Descriptors of KV regions (R350, R351) -/

theorem Ctl.checkKv_congr {c d : Ctl} {bay : Nat} (hcount : d.rd (Reg.kvsCount bay) = c.rd (Reg.kvsCount bay)) (hregions : d.kvRegions = c.kvRegions)
    (cls off n : Nat) (write : Bool) : d.checkKv bay cls off n write = c.checkKv bay cls off n write := by
  unfold Ctl.checkKv Ctl.kvAt
  rw [hcount, hregions]

/-- `c` with one more KV region. -/
def Ctl.addRegion (c : Ctl) (r : KvRegion) : Ctl := { c with kvRegions := c.kvRegions ++ [r] }

/-- A descriptor with CAPB ≠ 0 written to a free entry makes the region (Table 14.2). -/
theorem State.kvDescWrite_new {s : State} {bay i : Nat} {d : List Byte} (hfree : s.ctl.kvFind bay i = none) (hcap : (kvOfBytes bay i d).capb ≠ 0)
    (hok : s.ctl.kvDescOk (kvOfBytes bay i d) d = true) : s.kvDescWrite bay i d = .ok (s.onCtl (·.addRegion (kvOfBytes bay i d))) := by
  unfold State.kvDescWrite
  simp only [hfree, hcap, hok, if_false, if_true]
  rfl

theorem State.runKv_new {s : State} {o : OpenReq} {cls off i : Nat} (hkind : o.frame.kind = kWrite)
    (hcheck : s.ctl.checkKv o.frame.bay.toNat cls off o.frame.payload.length true = .table i)
    (hdesc : s.kvDescWrite o.frame.bay.toNat i o.frame.payload = .ok (s.onCtl (·.addRegion (kvOfBytes o.frame.bay.toNat i o.frame.payload)))) :
    s.runKv o cls off = { s with ctl := (s.ctl.addRegion (kvOfBytes o.frame.bay.toNat i o.frame.payload)).answerOpen o stOK dNONE 0 [] } := by
  have hwrite : o.frame.kind ≠ kRead := by rw [hkind]; decide
  unfold State.runKv
  simp only [spanOf_write hkind, decide_eq_true hwrite, hcheck, hdesc]
  exact if_pos hwrite

theorem kvDescriptorWrite_completes (f : Frame) (i cls : Nat) (old : Bool) (s : State) (harr : Arrives s f)
    (hwin : windowFrame f (fun o => decide (0x10000 ≤ o) && decide (o < 0x1000000)) = true)
    (hcheck : s.ctl.check59 f f.payload.length (some rightW) = .pass (.kv (offsetOf f.addr)) cls old)
    (htable : s.ctl.checkKv f.bay.toNat cls (offsetOf f.addr) f.payload.length true = .table i) (hfree : s.ctl.kvFind f.bay.toNat i = none)
    (hcap : (kvOfBytes f.bay.toNat i f.payload).capb ≠ 0) (hok : s.ctl.kvDescOk (kvOfBytes f.bay.toNat i f.payload) f.payload = true) :
    Completes (.kvDescriptorWrite f) s (fun t =>
    t.ctl.kvRegions = s.ctl.kvRegions ++ [kvOfBytes f.bay.toNat i f.payload] ∧ Replied s t f stOK [] ∧ t.ctl.kvPages = s.ctl.kvPages
    ∧ t.ctl.exts = s.ctl.exts ∧ Keeps s t) := by
  have hkind : f.kind = kWrite := by
    simp only [windowFrame, Bool.and_eq_true, beq_iff_eq] at hwin
    exact hwin.1.1.1.1
  obtain ⟨c, o, hruns, hserve⟩ := State.serve_window harr hkind (.inr ⟨_, rfl⟩) hcheck
  have hregions : c.kvRegions = s.ctl.kvRegions := hruns.serving.rights.kvRegions
  have hcount : c.rd (Reg.kvsCount f.bay.toNat) = s.ctl.rd (Reg.kvsCount f.bay.toNat) := hruns.marks.rd _ (by simp only [Reg.kvsCount]; omega)
  have hfree' : c.kvFind f.bay.toNat i = none := by
    unfold Ctl.kvFind
    rw [hregions]
    exact hfree
  have hok' : c.kvDescOk (kvOfBytes f.bay.toNat i f.payload) f.payload = true := by
    unfold Ctl.kvDescOk
    rw [hregions]
    exact hok
  have hrun : ({ s with ctl := c } : State).runPassed o (.kv (offsetOf f.addr)) cls
      = { s with ctl := (c.addRegion (kvOfBytes f.bay.toNat i f.payload)).answerOpen o stOK dNONE 0 [] } := by
    have hrunKv := State.runKv_new (s := { s with ctl := c }) (o := o) (cls := cls) (off := offsetOf f.addr) (i := i) (by rw [hruns.frame]; exact hkind)
      (by rw [hruns.frame]; exact (Ctl.checkKv_congr hcount hregions _ _ _ _).trans htable)
      (by rw [hruns.frame]; exact State.kvDescWrite_new hfree' hcap hok')
    rw [hruns.frame] at hrunKv
    exact hrunKv
  have hne : ∀ k : BitVec 8, kWrite ≠ k → f.kind ≠ k := fun k hk h => hk (hkind.symm.trans h)
  obtain ⟨hsettle, hend, hreplied⟩ := hruns.answers (e := c.addRegion (kvOfBytes f.bay.toNat i f.payload)) harr (hne _ (by decide)) (hne _ (by decide))
    rfl rfl rfl
  refine Completes.of_done ((congrArg done (if_pos hwin)).trans (congrArg done (hserve.trans ((congrArg State.settle hrun).trans hsettle))))
    ⟨hend.rights.kvRegions.trans ?_, hreplied, ?_, hend.rights.exts.trans hruns.serving.rights.exts, rfl, rfl⟩
  · exact congrArg (· ++ [kvOfBytes f.bay.toNat i f.payload]) hregions
  · exact (congrArg Ctl.kvPages hend.same :).trans (congrArg Ctl.kvPages hruns.serving.same :)

/-! ### Answers from endpoints (R85, R131, R165) -/

/-- The last answer of an endpoint that is no tray ends the request that it answers (R155). -/
theorem Ctl.passAnswer_last {c : Ctl} {f : Frame} {o : OpenReq} (hpass : c.passOf f = some o) (htray : c.isTray f.src.toNat = false)
    (hlast : o.lastAnswer f = true) :
    c.passAnswer f = ((c.passOn f).untrack o.frame.src.toNat o.frame.dst.toNat o.frame.seq).closeReq o.id := by
  unfold Ctl.passAnswer
  simp only [hpass, htray, hlast, Bool.false_and, Bool.false_eq_true, if_false, if_true]

theorem response_completes (f : Frame) (o : OpenReq) (s : State) (hmain : s.ctl.mainUp = true) (hrsp : f.isResponse = true)
    (hlive : s.ctl.liveInc f.src.toNat f.inc = true) (hdst : f.dst ≠ 0xFFF) (hpass : s.ctl.passOf f = some o)
    (htray : s.ctl.isTray f.src.toNat = false) (hlast : o.lastAnswer f = true) : Completes (.response f) s (fun t =>
    t.ctl.open? o.id = none ∧ (∀ x ∈ t.ctl.tracker, ¬ (x.src = o.frame.src.toNat ∧ x.dst = o.frame.dst.toNat ∧ x.seq = o.frame.seq))
    ∧ SameRights s t ∧ Keeps s t) := by
  have htake : s.takeResponse f = s.onCtl (·.passAnswer f) := by
    unfold State.takeResponse
    rw [if_neg (by simp [hmain]), if_neg (by simp [hlive]), if_neg hdst]
  have hserving := (((s.ctl.moves_passOn f).trans (Ctl.moves_untrack _ o.frame.src.toNat o.frame.dst.toNat o.frame.seq)).serving).trans
    (Ctl.serving_closeReq _ o.id)
  refine Completes.onCtl ((congrArg done (if_pos hrsp)).trans (congrArg done htake)) (Ctl.passAnswer_last hpass htray hlast)
    ⟨?_, fun x hx => ?_, hserving.rights.sameRights, rfl, rfl⟩
  · refine List.find?_eq_none.mpr (fun y hy => ?_)
    have hid : (y.id != o.id) = true := (List.mem_filter.mp hy).2
    simpa using hid
  · have hgone := (List.mem_filter.mp hx).2
    rintro ⟨hsrc, hdst, hseq⟩
    simp [hsrc, hdst, hseq] at hgone

/-- A response to the SG7 with its source's live incarnation ends the own request that it answers (R141, R165). -/
theorem State.takeResponse_own {s : State} {f : Frame} {x : OwnReq} (hmain : s.ctl.mainUp = true) (hlive : s.ctl.liveInc f.src.toNat f.inc = true)
    (hdst : f.dst = 0xFFF) (hown : s.ctl.ownOf f = some x) : s.takeResponse f = (s.ownEnds x f.status f.detail f.addr f.payload).settle := by
  unfold State.takeResponse State.ownAnswer
  rw [if_neg (by simp [hmain]), if_neg (by simp [hlive]), if_pos hdst]
  simp only [hown]

/-- The last write-back of an atomic lets it complete (R165). -/
theorem Ctl.writeBackDone_last {c : Ctl} {o : OpenReq} (hopens : c.opens = [o]) (howns : c.owns = []) :
    c.writeBackDone o.id = c.answerAtomic o.id o.frame stOK dNONE (leNat ((o.parts.head?.map (·.2)).getD [])) afAPPLIED := by
  have hopen : c.open? o.id = some o := by simp [Ctl.open?, hopens]
  unfold Ctl.writeBackDone
  simp only [hopen, howns]
  rfl

theorem Ctl.serving_pegRecord (c : Ctl) (f : Frame) (old : BitVec 128) (flags : Byte) : c.Serving (c.pegRecord f stOK old flags) := ⟨rfl⟩

theorem atomicWriteback_completes (f : Frame) (x : OwnReq) (req key : Nat) (o : OpenReq) (s : State) (hmain : s.ctl.mainUp = true)
    (hdst : f.dst = 0xFFF) (hlive : s.ctl.liveInc f.src.toNat f.inc = true) (hown : s.ctl.ownOf f = some x) (hwhy : x.why = .writeBack req key)
    (hst : f.status = stOK) (hopens : s.ctl.opens = [o]) (hid : o.id = req) (howns : s.ctl.owns = [x]) (hours : o.frame.dst = 0xFFF)
    (halive : s.ctl.liveInc o.frame.src.toNat o.frame.inc = true) (hkind : o.frame.kind = kAtomic) : Completes (.atomicWriteback f) s (fun t =>
    Replied s t o.frame stOK (leBytes 16 (leNat ((o.parts.head?.map (·.2)).getD [])) ++ [1] ++ zeros 7)
    ∧ t.ctl.opens = [] ∧ t.ctl.owns = [] ∧ (∀ l ∈ t.ctl.locks, l.req ≠ req) ∧ SameRights s t ∧ Keeps s t) := by
  subst hid
  have hdrop : (s.ctl.dropOwn x).owns = [] := by simp [Ctl.dropOwn, howns]
  have hends : s.ownEnds x f.status f.detail f.addr f.payload = s.onCtl (fun c => (c.dropOwn x).writeBackDone o.id) := by
    unfold State.ownEnds
    simp only [hwhy, hst, if_true]
  have hdone := Ctl.writeBackDone_last (c := s.ctl.dropOwn x) hopens hdrop
  obtain ⟨hmoves, y, hy, hseq, hrest⟩ := Ctl.answer_ok
    (c := ((s.ctl.dropOwn x).closeReq o.id).pegRecord o.frame stOK (BitVec.ofNat 128 (leNat ((o.parts.head?.map (·.2)).getD []))) afAPPLIED)
    hours halive (by rw [hkind]; decide) (by rw [hkind]; decide) (leBytes 16 (leNat ((o.parts.head?.map (·.2)).getD [])) ++ [afAPPLIED] ++ zeros 7)
    (some o.frame.tag)
  have hserving := (((s.ctl.serving_dropOwn x).trans (Ctl.serving_closeReq _ o.id)).trans (Ctl.serving_pegRecord _ o.frame
    (BitVec.ofNat 128 (leNat ((o.parts.head?.map (·.2)).getD []))) afAPPLIED)).trans hmoves.serving
  have hclosed :
      (((s.ctl.dropOwn x).closeReq o.id).pegRecord o.frame stOK (BitVec.ofNat 128 (leNat ((o.parts.head?.map (·.2)).getD []))) afAPPLIED).opens = [] := by
    show s.ctl.opens.filter _ = []
    rw [hopens]
    simp
  have hsettle := State.settle_quiet (s := { s with ctl := _ }) (hmoves.opens.trans hclosed)
  have hrun : exec (.atomicWriteback f) s = done (s.takeResponse f) := by
    show execAtomicWriteback f s = _
    unfold execAtomicWriteback
    simp only [hown, hwhy]
  refine Completes.of_done (t := { s with ctl := _ }) ?_
    ⟨⟨y, hy, hseq, hrest⟩, hmoves.opens.trans hclosed, ?_, ?_, hserving.rights.sameRights, rfl, rfl⟩
  · refine hrun.trans (congrArg done ?_)
    rw [State.takeResponse_own hmain hlive hdst hown, hends]
    refine Eq.trans (congrArg State.settle ?_) hsettle
    exact congrArg (fun c : Ctl => { s with ctl := c }) hdone
  · refine (congrArg Ctl.owns hmoves.same :).trans ?_
    show (s.ctl.dropOwn x).owns.filter _ = []
    rw [hdrop]
    rfl
  · intro l hl
    have hlocks := congrArg Ctl.locks hmoves.same
    have hmem := (congrArg (l ∈ ·) hlocks).mp hl
    simpa using (List.mem_filter.mp hmem).2

/-- An entry whose INSTALL its tray took is ACTIVE; EXT_CMD is done (R131). -/
theorem Ctl.installEnds_ok {c : Ctl} {i : Nat} (h : (c.ext i).st = .pending) :
    c.installEnds i true = ((c.putExt i { c.ext i with st := .active }).wr Reg.extBusy 0).wr Reg.extErr 0 := by
  unfold Ctl.installEnds
  simp only [h, ne_eq, not_true_eq_false, if_false, if_true]

/-- `s` after the INSTALL of entry `i`, the own request `x`, was answered OK. -/
def State.installed (s : State) (x : OwnReq) (i : Nat) : State :=
  { s with ctl := (((s.ctl.dropOwn x).putExt i { s.ctl.ext i with st := .active }).wr Reg.extBusy 0).wr Reg.extErr 0 }

theorem syncRsp_completes (f : Frame) (x : OwnReq) (i : Nat) (s : State) (hmain : s.ctl.mainUp = true) (hkind : f.kind = kSyncRsp) (hdst : f.dst = 0xFFF)
    (hquiet : s.ctl.opens = []) (hlive : s.ctl.liveInc f.src.toNat f.inc = true) (hown : s.ctl.ownOf f = some x) (hwhy : x.why = .extSync i true)
    (hst : f.status = stOK) (hpending : (s.ctl.ext i).st = .pending) : Completes (.syncRsp f) s (fun t =>
    t.ctl.ext i = { s.ctl.ext i with st := .active } ∧ (∀ j, j ≠ i → t.ctl.ext j = s.ctl.ext j) ∧ t.ctl.rd Reg.extBusy = 0 ∧ t.ctl.rd Reg.extErr = 0
    ∧ t.ctl.bays = s.ctl.bays ∧ Keeps s t) := by
  have hok : (f.status == stOK) = true := by rw [hst]; rfl
  have hends : s.ownEnds x f.status f.detail f.addr f.payload = s.onCtl (fun c => (c.dropOwn x).installEnds i true) := by
    unfold State.ownEnds
    simp only [hwhy, hok]
    rfl
  have hinstall := Ctl.installEnds_ok (c := s.ctl.dropOwn x) (i := i) hpending
  have hrun : exec (.syncRsp f) s = done (s.takeResponse f) := congrArg done (if_pos (by rw [hkind, hdst]; rfl))
  refine Completes.of_done (t := s.installed x i) ?_ ⟨?_, fun j hj => ?_, ?_, ?_, rfl, rfl, rfl⟩
  rotate_left
  · exact Ctl.ext_putExt (s.ctl.dropOwn x) i { s.ctl.ext i with st := .active }
  · exact Ctl.ext_putExt_ne (s.ctl.dropOwn x) i { s.ctl.ext i with st := .active } j hj
  · exact (Ctl.rd_wr_apart _ Reg.extErr Reg.extBusy 0 (by decide) (by decide)).trans (Ctl.rd_wr_fits _ Reg.extBusy 0 (by decide) (by decide))
  · exact Ctl.rd_wr_fits _ Reg.extErr 0 (by decide) (by decide)
  · refine hrun.trans (congrArg done ?_)
    rw [State.takeResponse_own hmain hlive hdst hown, hends]
    refine Eq.trans (congrArg State.settle (congrArg (fun c : Ctl => { s with ctl := c }) hinstall)) (State.settle_quiet hquiet)

/-- Settles O19. Every write to a window goes by the lemma on a request for the SG7 that arrives alone; every answer closes what it answers. It
rests on log entry 128, as the statement says. -/
theorem answersAndWindows : Obligations.AnswersAndWindows := by
  unfold Obligations.AnswersAndWindows
  exact ⟨response_completes,
    fun f x req key o s hmain _ hdst hlive hown hwhy hst hopens hid howns hours halive hkind _ =>
      atomicWriteback_completes f x req key o s hmain hdst hlive hown hwhy hst hopens hid howns hours halive hkind,
    syncRsp_completes, kvDescriptorWrite_completes, doorbell_completes, resume_completes, mailboxPost_completes⟩

end Sys2Proof.Machine

namespace Sys2Proof.Machine

/-! ### The link's keys (R91, R92) -/

/-- `x` with the link key, the salt and fresh counters (R91). -/
def SubPort.withKey (x : SubPort) (h : BitVec 384) : SubPort :=
  { x with keyed := true, kem := none, key := h.setWidth 256, salt := h.extractLsb' 256 32, txNonce := 0, rxCount := 0 }

theorem Ctl.keyAccept_fits {c : Ctl} {p q n : Nat} {ct : List Byte} (hkem : (c.sub p q).kem = some n) (hlen : ct.length = 1088)
    (hst : (c.sub p q).carries = true ∨ (c.sub p q).st = .align) :
    c.keyAccept p q ct = (c.putSub p q ((c.sub p q).withKey (sha384 (leBytes 32 (Config.kemDecap n ct).toNat ++ leBytes 6 (c.ownMac p q)
      ++ leBytes 6 (c.sub p q).peerMac.toNat ++ Config.linkNumber p q)))).comeUp p q := by
  have hready : ¬ ((decide (ct.length ≠ 1088) || !((c.sub p q).carries || (c.sub p q).st == .align)) = true) := by
    cases hst with
    | inl h => simp [hlen, h]
    | inr h => simp [hlen, h]
  unfold Ctl.keyAccept
  simp only [hkem]
  exact if_neg hready

theorem keyAccept_completes (p : Fin 128) (q : Fin 4) (ct : List Byte) (n : Nat) (s : State) (hmain : s.ctl.mainUp = true)
    (hkem : (s.ctl.sub p.val q.val).kem = some n) (hlen : ct.length = 1088)
    (hst : (s.ctl.sub p.val q.val).carries = true ∨ (s.ctl.sub p.val q.val).st = .align) : Completes (.keyAccept p q ct) s (fun t =>
    let h := sha384 (leBytes 32 (Config.kemDecap n ct).toNat ++ leBytes 6 (s.ctl.ownMac p.val q.val)
      ++ leBytes 6 (s.ctl.sub p.val q.val).peerMac.toNat ++ Config.linkNumber p.val q.val)
    (t.ctl.sub p.val q.val).keyed = true ∧ (t.ctl.sub p.val q.val).kem = none ∧ (t.ctl.sub p.val q.val).key = h.setWidth 256
    ∧ (t.ctl.sub p.val q.val).salt = h.extractLsb' 256 32 ∧ (t.ctl.sub p.val q.val).txNonce = 0 ∧ (t.ctl.sub p.val q.val).rxCount = 0
    ∧ OtherPorts s t p.val ∧ Keeps s t) := by
  have hrun := Ctl.keyAccept_fits hkem hlen hst
  generalize sha384 _ = h at hrun ⊢
  obtain ⟨hrise, -⟩ := (s.ctl.putSub p.val q.val ((s.ctl.sub p.val q.val).withKey h)).rise_comeUp p.val q.val
  have hsub := hrise.sub
  rw [Ctl.sub_putSub] at hsub
  exact Completes.onCtl (congrArg done (s.whenMain_on _ hmain)) hrun
    ⟨(congrArg SubPort.keyed hsub :), (congrArg SubPort.kem hsub :), (congrArg SubPort.key hsub :), (congrArg SubPort.salt hsub :),
      (congrArg SubPort.txNonce hsub :), (congrArg SubPort.rxCount hsub :),
      otherPorts_of_oneSub (q := q) ((s.ctl.oneSub_putSub _ _ _).trans hrise.one), rfl, rfl⟩

/-- KEY_OFFER: a fresh encapsulation key, kept by its number until it is accepted, and its signature. -/
theorem Ctl.keyOffer_eq (c : Ctl) (p q : Nat) : ∃ sig, c.keyOffer p q
    = (({ c with freeCtr := c.freeCtr + 1 } : Ctl).putSub p q { c.sub p q with kem := some c.freeCtr }).emits
      [.linkCtl p q 6 0x100 (Config.kemKey c.freeCtr), .linkCtl p q 6 0x101 sig] :=
  ⟨_, congrArg (fun l => ({ ({ c with freeCtr := c.freeCtr + 1 } : Ctl).putSub p q { c.sub p q with kem := some c.freeCtr } with out := l }))
    (List.append_assoc _ _ _)⟩

theorem rekey_completes (p : Fin 128) (q : Fin 4) (s : State) (hmain : s.ctl.mainUp = true) (hcarries : (s.ctl.sub p.val q.val).carries = true)
    (henc : (s.ctl.sub p.val q.val).enc = true) : Completes (.rekey p q) s (fun t =>
    Sent s t (.linkCtl p.val q.val 8 0 []) ∧ Sent s t (.linkCtl p.val q.val 6 0x100 (Config.kemKey s.ctl.freeCtr))
    ∧ (t.ctl.sub p.val q.val).kem = some s.ctl.freeCtr ∧ OtherPorts s t p.val
    ∧ Only s t (fun c => { c with subs := t.ctl.subs, out := t.ctl.out, freeCtr := t.ctl.freeCtr })) := by
  obtain ⟨sig, hoffer⟩ := (s.ctl.emit (.linkCtl p.val q.val 8 0 [])).keyOffer_eq p.val q.val
  have hboth : ((s.ctl.sub p.val q.val).carries && (s.ctl.sub p.val q.val).enc) = true := by rw [hcarries, henc]; rfl
  have hsent : ∀ (x a b : Output), s.ctl.out ++ [x] ++ [a, b] = s.ctl.out ++ [x, a, b] := fun x a b => List.append_assoc _ _ _
  refine Completes.onCtl (congrArg done (s.whenMain_on _ hmain)) ((if_pos hboth).trans hoffer)
    ⟨Sent.of_append (hsent _ _ _) ?_, Sent.of_append (hsent _ _ _) ?_, ?_, otherPorts_of_oneSub (q := q) (s.ctl.oneSub_putSub _ _ _), rfl⟩
  · exact List.mem_cons_self
  · exact List.mem_cons_of_mem _ List.mem_cons_self
  · exact congrArg SubPort.kem (Ctl.sub_putSub s.ctl p.val q.val { s.ctl.sub p.val q.val with kem := some s.ctl.freeCtr })

/-! ### What an admission leaves of the links (R116-R120) -/

/-- The sub-ports stand and nothing is sent. -/
structure Ctl.LinksStand (c d : Ctl) : Prop where
  subs : d.subs = c.subs
  out : d.out = c.out

theorem Ctl.LinksStand.refl (c : Ctl) : c.LinksStand c := ⟨rfl, rfl⟩
theorem Ctl.LinksStand.trans {c d e : Ctl} (h : c.LinksStand d) (k : d.LinksStand e) : c.LinksStand e := ⟨k.subs.trans h.subs, k.out.trans h.out⟩
theorem Ctl.FlaskWork.linksStand {q : Nat} {c d : Ctl} (h : c.FlaskWork q d) : c.LinksStand d := ⟨h.subs, (congrArg Ctl.out h.same :)⟩

theorem Ctl.linksStand_wr (c : Ctl) (f : Fld) (v : Nat) : c.LinksStand (c.wr f v) := ⟨rfl, rfl⟩

theorem Ctl.linksStand_charge (c : Ctl) (bay : Nat) (t : Tier) (n : Nat) : c.LinksStand (c.charge bay t n) := by
  cases t with
  | none => exact .refl c
  | hbm | ddr | pool => exact c.linksStand_wr _ _

theorem Ctl.linksStand_uncharge (c : Ctl) (bay : Nat) (t : Tier) (n : Nat) : c.LinksStand (c.uncharge bay t n) := by
  cases t with
  | none => exact .refl c
  | hbm | ddr | pool => exact c.linksStand_wr _ _

theorem Ctl.linksStand_take (c : Ctl) (l : Loc) : c.LinksStand (c.take l) := by
  unfold Ctl.take
  split
  · exact .refl c
  · exact ⟨rfl, rfl⟩

theorem Ctl.linksStand_freeLoc (c : Ctl) (bay : Nat) (l : Loc) : c.LinksStand (c.freeLoc bay l) := by
  have huncharge := c.linksStand_uncharge bay l.tier 1
  unfold Ctl.freeLoc
  split
  · exact huncharge
  · exact ⟨huncharge.subs, huncharge.out⟩

theorem Ctl.linksStand_freeKeys (c : Ctl) (bay : Nat) (t : Tier) (keys : List Nat) : c.LinksStand (c.freeKeys bay t keys) := by
  have huncharge := c.linksStand_uncharge bay t keys.length
  exact ⟨huncharge.subs, huncharge.out⟩

theorem Ctl.linksStand_takeKeys (c : Ctl) (bay : Nat) (t : Tier) (keys : List Nat) : c.LinksStand (c.takeKeys bay t keys) := by
  have hcharge := fun p : Phys => ({ c with phys := p } : Ctl).linksStand_charge bay t keys.length
  exact ⟨(hcharge _).subs, (hcharge _).out⟩

/-- Picking a page in the pool turns its rotation; the other tiers are only looked at. -/
theorem Ctl.linksStand_pickIn {c d : Ctl} {bay : Nat} {ban : List Nat} {t : Tier} {l : Loc} (h : c.pickIn bay ban t = some (l, d)) : c.LinksStand d := by
  cases t with
  | none => cases h
  | hbm =>
    simp only [Ctl.pickIn] at h
    split at h
    · cases h
    · obtain ⟨a, -, ha⟩ := Option.map_eq_some_iff.mp h
      cases ha
      exact .refl c
  | ddr =>
    simp only [Ctl.pickIn] at h
    split at h
    · cases h
    · obtain ⟨a, -, ha⟩ := Option.map_eq_some_iff.mp h
      cases ha
      exact .refl c
  | pool =>
    obtain ⟨a, -, ha⟩ := Option.map_eq_some_iff.mp h
    cases ha
    exact ⟨rfl, rfl⟩

theorem Ctl.linksStand_allocLoc {c d : Ctl} {bay : Nat} {t : Tier} {ban : List Nat} {quota : Bool} {l : Loc}
    (h : c.allocLoc bay t ban quota = some (l, d)) : c.LinksStand d := by
  obtain ⟨⟨m, e⟩, he, heq⟩ := Option.map_eq_some_iff.mp h
  obtain ⟨u, -, hu⟩ := List.exists_of_findSome?_eq_some he
  cases heq
  split at hu
  · cases hu
  · exact ((Ctl.linksStand_pickIn hu).trans (Ctl.linksStand_take _ _)).trans (Ctl.linksStand_charge _ _ _ _)

/-- The sub-ports and the queue of commands stand and nothing is sent. -/
structure State.LinksStand (s t : State) : Prop where
  ctl : s.ctl.LinksStand t.ctl
  pending : t.pending = s.pending

theorem State.LinksStand.refl (s : State) : s.LinksStand s := ⟨.refl _, rfl⟩
theorem State.LinksStand.trans {s t u : State} (h : s.LinksStand t) (k : t.LinksStand u) : s.LinksStand u :=
  ⟨h.ctl.trans k.ctl, k.pending.trans h.pending⟩

theorem State.linksStand_foldl {α : Type} (f : State → α → State) (hf : ∀ (s : State) (a : α), s.LinksStand (f s a)) (l : List α) (s : State) :
    s.LinksStand (l.foldl f s) :=
  List.foldlRecOn (motive := s.LinksStand) l f (.refl s) (fun _ h a _ => h.trans (hf _ a))

theorem State.linksStand_copyPage64 (s : State) (dst src : Option Nat) : s.LinksStand (s.copyPage64 dst src) := by
  unfold State.copyPage64
  split
  · exact ⟨.refl _, rfl⟩
  · exact .refl s

theorem State.linksStand_relocate {s t : State} {bay : Nat} {old l : Loc} {src : Option Nat} {tier : Tier} {ban : List Nat}
    (h : s.relocate bay old src tier ban = some (l, t)) : s.LinksStand t := by
  unfold State.relocate at h
  split at h
  · cases h
  · next m d hd =>
    cases h
    exact State.LinksStand.trans (t := { s with ctl := d }) ⟨(s.ctl.linksStand_freeLoc bay old).trans (Ctl.linksStand_allocLoc hd), rfl⟩
      (State.linksStand_copyPage64 _ _ _)

/-- One step of a rebuild: a lost location moves, where a place is found for it (R222). -/
theorem State.LinksStand.moved {s t : State} (h : s.LinksStand t) (p : Prop) [Decidable p] (bay : Nat) (old : Loc) (src : Option Nat) (tier : Tier)
    (ban : List Nat) (f : Loc → Ctl → Ctl) (hf : ∀ (l : Loc) (c : Ctl), c.LinksStand (f l c)) :
    s.LinksStand (if p then (match t.relocate bay old src tier ban with | some (l, u) => u.onCtl (f l) | none => t) else t) := by
  split
  · split
    · next l u hu => exact (h.trans (State.linksStand_relocate hu)).trans ⟨hf l u.ctl, rfl⟩
    · exact h
  · exact h

theorem State.linksStand_rebuildFlat (s : State) (bay p : Nat) : s.LinksStand (s.rebuildFlat bay p) := by
  unfold State.rebuildFlat
  extract_lets c pg tier
  split
  · next s' pg' _ _ _ =>
    have hfirst : s.LinksStand s' := (State.LinksStand.refl s).moved _ _ _ _ _ _ _ (fun _ _ => ⟨rfl, rfl⟩)
    clear_value s'
    exact hfirst.moved _ _ _ _ _ _ _ (fun _ _ => ⟨rfl, rfl⟩)
  · extract_lets ban s' pg' s'' lq
    have hfirst : s.LinksStand s' := (State.LinksStand.refl s).moved _ _ _ _ _ _ _ (fun _ _ => ⟨rfl, rfl⟩)
    clear_value s'
    have hsecond : s.LinksStand s'' := hfirst.moved _ _ _ _ _ _ _ (fun _ _ => ⟨rfl, rfl⟩)
    clear_value s''
    exact hsecond.moved _ _ _ _ _ _ _ (fun _ _ => ⟨rfl, rfl⟩)
  · exact .refl s

theorem State.linksStand_rebuildKv (s : State) (rec_ : Nat) : s.LinksStand (s.rebuildKv rec_) := by
  have hother : ∀ (pg p : KvPage) (t u : Tier) (lose keep keys : List Nat), s.LinksStand
      { s with ctl := (((s.ctl.freeKeys pg.charged u lose).takeKeys pg.charged t keys).putKvPage rec_ p), mem := copyKeys s.mem pg.size keys keep } :=
    fun pg p t u lose keep keys => by
      have htaken := (s.ctl.linksStand_freeKeys pg.charged u lose).trans (Ctl.linksStand_takeKeys _ pg.charged t keys)
      exact ⟨⟨htaken.subs, htaken.out⟩, rfl⟩
  unfold State.rebuildKv
  split
  · exact .refl s
  · dsimp only
    split
    · split
      · exact .refl s
      · exact hother _ _ _ _ _ _ _
    · split
      · split
        · exact .refl s
        · exact hother _ _ _ _ _ _ _
      · exact .refl s

theorem State.linksStand_rebuildPage (s : State) (r : PageRef) : s.LinksStand (s.rebuildPage r) := by
  cases r with
  | flat b p => exact s.linksStand_rebuildFlat _ _
  | kv r => exact s.linksStand_rebuildKv r

theorem State.linksStand_beforeReturn (s : State) (onUnit : Nat → Bool) : s.LinksStand (s.beforeReturn onUnit) :=
  (State.linksStand_foldl State.rebuildPage State.linksStand_rebuildPage _ s).trans ⟨⟨rfl, rfl⟩, rfl⟩

theorem Ctl.linksStand_takeIn {c d : Ctl} {q s : Nat} {f : Frame} (h : c.takeIn q s f = some d) : c.LinksStand d := by
  unfold Ctl.takeIn at h
  by_cases hadmit : c.wouldAdmit q f = true
  · obtain ⟨e, he, hwork, -⟩ := Ctl.admitVia_spec hadmit s none
    rw [he] at h
    exact Option.some.inj h ▸ hwork.linksStand
  · rw [Ctl.admitVia_eq, if_neg hadmit] at h
    cases h

theorem Ctl.linksStand_sendFrame (c : Ctl) (f : Frame) : c.LinksStand (c.sendFrame f) := by
  unfold Ctl.sendFrame
  split
  · exact .refl c
  · dsimp only
    split
    case h_1 d h => exact Ctl.linksStand_takeIn h
    case h_2 => exact ⟨rfl, rfl⟩

theorem Ctl.linksStand_putPair (c : Ctl) (e : Nat) (p : Pair) : c.LinksStand (c.putPair e p) := ⟨rfl, rfl⟩

theorem Ctl.linksStand_withAck (c : Ctl) (ep : Nat) (f : Frame) : c.LinksStand (c.withAck ep f).1 := by
  unfold Ctl.withAck
  dsimp only
  split
  · exact .refl c
  · exact ⟨rfl, rfl⟩

theorem Ctl.linksStand_sendSeq (c : Ctl) (f : Frame) (peg : Option (BitVec 16)) (grant : Option Nat) : c.LinksStand (c.sendSeq f peg grant) := by
  unfold Ctl.sendSeq
  dsimp only
  split
  · exact ((c.linksStand_putPair _ _).trans (Ctl.linksStand_withAck _ _ _)).trans (Ctl.linksStand_sendFrame _ _)
  · exact ⟨rfl, rfl⟩

theorem Ctl.linksStand_sendExtSync (c : Ctl) (i : Nat) (install : Bool) : c.LinksStand (c.sendExtSync i install) :=
  ⟨(Ctl.linksStand_sendSeq _ _ _ _).subs.trans rfl, (Ctl.linksStand_sendSeq _ _ _ _).out.trans rfl⟩

theorem Ctl.linksStand_syncTray (c : Ctl) (ep : Nat) : c.LinksStand (c.syncTray ep) :=
  List.foldlRecOn (motive := c.LinksStand) _ _ ⟨rfl, rfl⟩ (fun _ h i _ => h.trans (Ctl.linksStand_sendExtSync _ i false))

/-! ### The LINK_INIT exchange (R73, R116) -/

/-- What a sub-port took from a LINK_INIT stands, and what was sent before stays sent. -/
structure Ctl.InitStands (p q : Nat) (c d : Ctl) : Prop where
  accepted : (d.sub p q).accepted = (c.sub p q).accepted
  credits : (d.sub p q).credits = (c.sub p q).credits
  share : (d.sub p q).share = (c.sub p q).share
  out : ∃ l, d.out = c.out ++ l

theorem Ctl.InitStands.trans {p q : Nat} {c d e : Ctl} (h : c.InitStands p q d) (k : d.InitStands p q e) : c.InitStands p q e where
  accepted := k.accepted.trans h.accepted
  credits := k.credits.trans h.credits
  share := k.share.trans h.share
  out := by
    obtain ⟨l, hl⟩ := h.out
    obtain ⟨m, hm⟩ := k.out
    exact ⟨l ++ m, by rw [hm, hl, List.append_assoc]⟩

theorem Ctl.Rise.initStands {p q : Nat} {c d : Ctl} (h : c.Rise p q d) : c.InitStands p q d :=
  ⟨(congrArg SubPort.accepted h.sub :), (congrArg SubPort.credits h.sub :), (congrArg SubPort.share h.sub :), h.out⟩

theorem Ctl.LinksStand.initStands {c d : Ctl} (h : c.LinksStand d) (p q : Nat) : c.InitStands p q d :=
  (Ctl.Rise.of_subs (l := []) h.subs (h.out.trans (List.append_nil _).symm)).initStands

theorem Ctl.InitStands.refl {p q : Nat} (c : Ctl) : c.InitStands p q c := (Ctl.LinksStand.refl c).initStands p q

/-- A sub-port keeps what its LINK_INIT set when its admissions or its key offer change. -/
theorem Ctl.initStands_putSub {c : Ctl} {p q : Nat} {x : SubPort} (haccepted : x.accepted = (c.sub p q).accepted)
    (hcredits : x.credits = (c.sub p q).credits) (hshare : x.share = (c.sub p q).share) : c.InitStands p q (c.putSub p q x) := by
  have hsub := c.sub_putSub p q x
  exact ⟨(congrArg SubPort.accepted hsub).trans haccepted, (congrArg SubPort.credits hsub).trans hcredits,
    (congrArg SubPort.share hsub).trans hshare, [], (List.append_nil _).symm⟩

theorem Ctl.initStands_emits (c : Ctl) (p q : Nat) (l : List Output) : c.InitStands p q (c.emits l) :=
  (Ctl.Rise.of_subs (c := c) (d := c.emits l) rfl rfl).initStands

theorem Ctl.initStands_keyOffer (c : Ctl) (p q : Nat) : c.InitStands p q (c.keyOffer p q) := by
  obtain ⟨sig, h⟩ := c.keyOffer_eq p q
  have hput : c.InitStands p q (({ c with freeCtr := c.freeCtr + 1 } : Ctl).putSub p q { c.sub p q with kem := some c.freeCtr }) :=
    (Ctl.LinksStand.initStands (c := c) (d := { c with freeCtr := c.freeCtr + 1 }) ⟨rfl, rfl⟩ p q).trans (Ctl.initStands_putSub rfl rfl rfl)
  rw [h]
  exact hput.trans (Ctl.initStands_emits _ p q _)

/-- An endpoint that is admitted is no longer retired on any sub-port (R118). -/
def Ctl.unretire (c : Ctl) (ep : Nat) : Ctl :=
  { c with subs := Tab.map c.subs (fun _ (y : SubPort) => { y with retired := removeNat y.retired ep }) }

theorem Ctl.initStands_unretire (c : Ctl) (ep p q : Nat) : c.InitStands p q (c.unretire ep) := by
  have hsub : (c.unretire ep).sub p q = c.sub p q ∨ (c.unretire ep).sub p q = { c.sub p q with retired := removeNat (c.sub p q).retired ep } := by
    simp only [Ctl.unretire, Ctl.sub, Tab.get, Tab.find?_map]
    cases Tab.find? c.subs (4 * p + q) with
    | none => exact .inl rfl
    | some x => exact .inr rfl
  have hout : ∃ l, (c.unretire ep).out = c.out ++ l := ⟨[], (List.append_nil _).symm⟩
  cases hsub with
  | inl h => exact ⟨(congrArg SubPort.accepted h :), (congrArg SubPort.credits h :), (congrArg SubPort.share h :), hout⟩
  | inr h => exact ⟨(congrArg SubPort.accepted h :), (congrArg SubPort.credits h :), (congrArg SubPort.share h :), hout⟩

/-- The same of whole states, the queue of commands standing too. -/
structure State.InitStands (p q : Nat) (s t : State) : Prop where
  ctl : s.ctl.InitStands p q t.ctl
  pending : t.pending = s.pending

theorem State.InitStands.refl {p q : Nat} (s : State) : s.InitStands p q s := ⟨.refl _, rfl⟩
theorem State.InitStands.trans {p q : Nat} {s t u : State} (h : s.InitStands p q t) (k : t.InitStands p q u) : s.InitStands p q u :=
  ⟨h.ctl.trans k.ctl, k.pending.trans h.pending⟩
theorem State.LinksStand.initStands {s t : State} (h : s.LinksStand t) (p q : Nat) : s.InitStands p q t := ⟨h.ctl.initStands p q, h.pending⟩

theorem State.initStands_admitEp (s : State) (p q ep : Nat) : s.InitStands p q (s.admitEp ep) := by
  unfold State.admitEp
  extract_lets s'
  have hreturn : s.LinksStand s' := by
    unfold s'
    split
    · exact (s.linksStand_beforeReturn _).trans ⟨⟨rfl, rfl⟩, rfl⟩
    · exact .refl s
  refine (hreturn.initStands p q).trans ⟨?_, rfl⟩
  have hreset : ∀ x y, s'.ctl.InitStands p q (((s'.ctl.putEp ep x).putPair ep y).unretire ep) := fun x y =>
    (Ctl.LinksStand.initStands (c := s'.ctl) (d := (s'.ctl.putEp ep x).putPair ep y) ⟨rfl, rfl⟩ p q).trans (Ctl.initStands_unretire _ ep p q)
  dsimp only [State.onCtl]
  split
  · exact (hreset _ _).trans ((Ctl.linksStand_syncTray _ ep).initStands p q)
  · exact hreset _ _

theorem State.initStands_admitOne (s : State) (p q i w : Nat) : s.InitStands p q (s.admitOne p q i w).1 := by
  unfold State.admitOne
  extract_lets ep r s' s''
  have hadmitted : s.InitStands p q s' := by
    unfold s'
    split
    · exact s.initStands_admitEp p q ep
    · exact .refl s
  refine hadmitted.trans ?_
  show s'.InitStands p q s''
  unfold s''
  split
  · exact ⟨Ctl.initStands_putSub rfl rfl rfl, rfl⟩
  · exact .refl s'

/-- The entries of a LINK_INIT, decided in order, and LINK_ACCEPT's answers to them. -/
def State.admissions (s : State) (p q : Nat) (b : List Byte) : State × List Byte :=
  let n := min (leAt b 3 1) ((b.length - 32) / 4)
  (List.range n).foldl (fun (r : State × List Byte) i =>
    let x := r.1.admitOne p q i (leAt b (32 + 4 * i) 4)
    (x.1, r.2 ++ x.2)) (s, leBytes 4 n)

theorem State.initStands_admissions (s : State) (p q : Nat) (b : List Byte) : s.InitStands p q (s.admissions p q b).1 :=
  List.foldlRecOn (motive := fun x : State × List Byte => s.InitStands p q x.1) _ _ (.refl s)
    (fun x h _ _ => h.trans (x.1.initStands_admitOne p q _ _))

/-- What follows LINK_ACCEPT: a key offer where the link is encrypted, and the sub-port comes up where it can. -/
def Ctl.afterAccept (c : Ctl) (p q : Nat) : Ctl :=
  let c := if (c.sub p q).enc then c.keyOffer p q else c
  (c.comeUp p q).pathsUp (if (c.sub p q).carries then (c.sub p q).eps else [])

theorem Ctl.initStands_afterAccept (c : Ctl) (p q : Nat) : c.InitStands p q (c.afterAccept p q) := by
  unfold Ctl.afterAccept
  extract_lets d
  have hoffer : c.InitStands p q d := by
    unfold d
    split
    · exact c.initStands_keyOffer p q
    · exact .refl c
  exact (hoffer.trans (d.rise_comeUp p q).1.initStands).trans (Ctl.rise_pathsUp _ p q _).initStands

theorem State.linkInit_accepted {s : State} {p q : Nat} {b : List Byte}
    (hst : (s.ctl.sub p q).carries = true ∨ ((s.ctl.sub p q).st = .align ∧ (s.ctl.sub p q).aligned = true)) (hok : s.ctl.initReject p b = 0) :
    ∃ t r, (s.onCtl (·.initSub p q b)).InitStands p q t
      ∧ s.linkInit p q b = t.onCtl (fun c => (c.emit (.linkCtl p q 2 0 r)).afterAccept p q) := by
  have hready : ¬ ((!((s.ctl.sub p q).carries || ((s.ctl.sub p q).st == .align && (s.ctl.sub p q).aligned))) = true) := by
    cases hst with
    | inl h => simp [h]
    | inr h => simp [h.1, h.2]
  refine ⟨((s.onCtl (·.initSub p q b)).admissions p q b).1, ((s.onCtl (·.initSub p q b)).admissions p q b).2, State.initStands_admissions _ _ _ _, ?_⟩
  unfold State.linkInit
  dsimp only
  rw [if_neg hready, if_neg (by simp [hok])]
  rfl

theorem linkInit_completes (p : Fin 128) (q : Fin 4) (b : List Byte) (s : State) (hmain : s.ctl.mainUp = true)
    (hst : (s.ctl.sub p.val q.val).carries = true ∨ ((s.ctl.sub p.val q.val).st = .align ∧ (s.ctl.sub p.val q.val).aligned = true))
    (hok : s.ctl.initReject p.val b = 0) : Completes (.linkInit p q b) s (fun t =>
    (t.ctl.sub p.val q.val).accepted = true ∧ (∃ r, Sent s t (.linkCtl p.val q.val 2 0 r))
    ∧ (∀ k, k < 8 → natAt (t.ctl.sub p.val q.val).credits k = leAt b (8 + 2 * k) 2)
    ∧ (t.ctl.sub p.val q.val).share = leAt b 4 4 ∧ t.pending = s.pending) := by
  obtain ⟨t, r, hkeep, hrun⟩ := State.linkInit_accepted hst hok
  have hafter := (t.ctl.emit (.linkCtl p.val q.val 2 0 r)).initStands_afterAccept p.val q.val
  have hall := (hkeep.ctl.trans (t.ctl.initStands_emits p.val q.val [.linkCtl p.val q.val 2 0 r])).trans hafter
  have hinit : ((s.onCtl (·.initSub p.val q.val b)).ctl.sub p.val q.val) = _ := Ctl.sub_putSub _ _ _ _
  obtain ⟨l, hl⟩ := hkeep.ctl.out
  obtain ⟨m, hm⟩ := hafter.out
  refine Completes.of_done ((congrArg done (if_pos hmain)).trans (congrArg done hrun)) ⟨?_, ⟨r, ?_⟩, fun k hk => ?_, ?_, hkeep.pending⟩
  · exact hall.accepted.trans (congrArg SubPort.accepted hinit)
  · refine Sent.of_append (l := l ++ [.linkCtl p.val q.val 2 0 r] ++ m) (hm.trans ?_) (by simp)
    simp only [Ctl.emit, hl, List.append_assoc]
    rfl
  · refine (congrArg (natAt · k) (hall.credits.trans (congrArg SubPort.credits hinit))).trans ?_
    simp [natAt, hk]
  · exact hall.share.trans (congrArg SubPort.share hinit)

/-- Settles O11. No admission and no step to UP touches what LINK_INIT set, and what was sent stays sent. It rests on log entries 13, 35 and 37,
as the statement says. -/
theorem linkInitAndKeys : Obligations.LinkInitAndKeys := by
  unfold Obligations.LinkInitAndKeys
  exact ⟨linkInit_completes, keyAccept_completes, rekey_completes⟩

end Sys2Proof.Machine

namespace Sys2Proof.Machine

/-! ### Frames that leave: what sending touches (R85-R90) -/

/-- `c` with the records of `d` that sending a frame or an own request touches. -/
def Ctl.withSent (c d : Ctl) : Ctl :=
  { c with regs := d.regs, pairs := d.pairs, flask := d.flask, scheds := d.scheds, intHeld := d.intHeld, owns := d.owns, nextId := d.nextId }

/-- `d` is `c` after frames were sent: of the registers at most Flask's free counts moved. -/
structure Ctl.Sends (c d : Ctl) : Prop where
  same : d = c.withSent d
  regs : ∀ a, a ≠ 0x04000000 → d.reg a = c.reg a

theorem Ctl.Sends.refl (c : Ctl) : c.Sends c := ⟨rfl, fun _ _ => rfl⟩

theorem Ctl.Sends.trans {c d e : Ctl} (h : c.Sends d) (k : d.Sends e) : c.Sends e where
  same := k.same.trans (congrArg (fun x : Ctl => x.withSent e) h.same :)
  regs a ha := (k.regs a ha).trans (h.regs a ha)

theorem Ctl.FlaskWork.sends {q : Nat} {c d : Ctl} (h : c.FlaskWork q d) : c.Sends d where
  same := by
    have hpairs : d.pairs = c.pairs := (congrArg Ctl.pairs h.same :)
    have hheld : d.intHeld = c.intHeld := (congrArg Ctl.intHeld h.same :)
    have howns : d.owns = c.owns := (congrArg Ctl.owns h.same :)
    have hid : d.nextId = c.nextId := (congrArg Ctl.nextId h.same :)
    rw [Ctl.withSent, hpairs, hheld, howns, hid]
    exact h.same
  regs := h.regs

theorem Ctl.sends_putPair (c : Ctl) (e : Nat) (p : Pair) : c.Sends (c.putPair e p) := ⟨rfl, fun _ _ => rfl⟩

theorem Ctl.sends_takeIn {c d : Ctl} {q s : Nat} {f : Frame} (h : c.takeIn q s f = some d) : c.Sends d := by
  unfold Ctl.takeIn at h
  by_cases hadmit : c.wouldAdmit q f = true
  · obtain ⟨e, he, hwork, -⟩ := Ctl.admitVia_spec hadmit s none
    rw [he] at h
    exact Option.some.inj h ▸ hwork.sends
  · rw [Ctl.admitVia_eq, if_neg hadmit] at h
    cases h

theorem Ctl.sends_sendFrame (c : Ctl) (f : Frame) : c.Sends (c.sendFrame f) := by
  unfold Ctl.sendFrame
  split
  · exact .refl c
  · dsimp only
    split
    case h_1 d h => exact Ctl.sends_takeIn h
    case h_2 => exact ⟨rfl, fun _ _ => rfl⟩

theorem Ctl.sends_withAck (c : Ctl) (ep : Nat) (f : Frame) : c.Sends (c.withAck ep f).1 := by
  unfold Ctl.withAck
  dsimp only
  split
  · exact .refl c
  · exact c.sends_putPair _ _

theorem Ctl.sends_sendSeq (c : Ctl) (f : Frame) (peg : Option (BitVec 16)) (grant : Option Nat) : c.Sends (c.sendSeq f peg grant) := by
  unfold Ctl.sendSeq
  dsimp only
  split
  · exact ((c.sends_putPair _ _).trans (Ctl.sends_withAck _ _ _)).trans (Ctl.sends_sendFrame _ _)
  · exact c.sends_putPair _ _

theorem Ctl.sends_sendRsp (c : Ctl) (r f : Frame) (peg : Option (BitVec 16)) (grant : Option Nat) : c.Sends (c.sendRsp r f peg grant) := by
  unfold Ctl.sendRsp
  split
  · exact c.sends_sendSeq _ _ _
  · exact c.sends_sendFrame _

theorem Ctl.sends_sendOwn (c : Ctl) (ep : Nat) (f : Frame) (why : OwnFor) : c.Sends (c.sendOwn ep f why) := by
  unfold Ctl.sendOwn
  dsimp only
  refine Ctl.Sends.trans ?_ (Ctl.sends_sendSeq _ _ _ _)
  exact ⟨rfl, fun _ _ => rfl⟩

theorem Ctl.sends_sendExtSync (c : Ctl) (i : Nat) (install : Bool) : c.Sends (c.sendExtSync i install) := c.sends_sendOwn _ _ _

theorem Ctl.Sends.reg {c d : Ctl} (h : c.Sends d) {a : Nat} (ha : a ≠ 0x04000000) : d.reg a = c.reg a := h.regs a ha
theorem Ctl.Sends.rd {c d : Ctl} (h : c.Sends d) (f : Fld) (hf : f.addr ≠ 0x04000000) : d.rd f = c.rd f := Ctl.rd_congr (h.regs _ hf)
theorem Ctl.Sends.bays {c d : Ctl} (h : c.Sends d) : d.bays = c.bays := (congrArg Ctl.bays h.same :)
theorem Ctl.Sends.exts {c d : Ctl} (h : c.Sends d) : d.exts = c.exts := (congrArg Ctl.exts h.same :)
theorem Ctl.Sends.eps {c d : Ctl} (h : c.Sends d) : d.eps = c.eps := (congrArg Ctl.eps h.same :)
theorem Ctl.Sends.opens {c d : Ctl} (h : c.Sends d) : d.opens = c.opens := (congrArg Ctl.opens h.same :)
theorem Ctl.Sends.evseq {c d : Ctl} (h : c.Sends d) : d.evseq = c.evseq := (congrArg Ctl.evseq h.same :)
theorem Ctl.Sends.tier {c d : Ctl} (h : c.Sends d) : d.tier = c.tier := (congrArg Ctl.tier h.same :)

end Sys2Proof.Machine

namespace Sys2Proof.Machine

/-! ### Pages that are taken, charged and freed (R203-R205) -/

/-- `c` with the records of `d` that taking and freeing pages touches. -/
def Ctl.withPages (c d : Ctl) : Ctl :=
  { c with regs := d.regs, tier := d.tier, coded := d.coded, phys := d.phys, kvPages := d.kvPages, rsas := d.rsas }

/-- `d` is `c` after pages were taken or freed: of the registers only those of chapter 8 and above moved. -/
structure Ctl.PageWork (c d : Ctl) : Prop where
  same : d = c.withPages d
  regs : ∀ a, a < 0x08000000 → d.reg a = c.reg a

theorem Ctl.PageWork.refl (c : Ctl) : c.PageWork c := ⟨rfl, fun _ _ => rfl⟩

theorem Ctl.PageWork.trans {c d e : Ctl} (h : c.PageWork d) (k : d.PageWork e) : c.PageWork e where
  same := k.same.trans (congrArg (fun x : Ctl => x.withPages e) h.same :)
  regs a ha := (k.regs a ha).trans (h.regs a ha)

theorem Ctl.PageWork.foldl {α : Type} {f : Ctl → α → Ctl} (hf : ∀ (c : Ctl) a, c.PageWork (f c a)) (l : List α) (c : Ctl) :
    c.PageWork (l.foldl f c) :=
  List.foldlRecOn (motive := c.PageWork) l f (.refl c) (fun _ h a _ => h.trans (hf _ a))

theorem Ctl.PageWork.reg {c d : Ctl} (h : c.PageWork d) {a : Nat} (ha : a < 0x08000000) : d.reg a = c.reg a := h.regs a ha
theorem Ctl.PageWork.rd {c d : Ctl} (h : c.PageWork d) (f : Fld) (hf : f.addr < 0x08000000) : d.rd f = c.rd f := Ctl.rd_congr (h.regs _ hf)
theorem Ctl.PageWork.bays {c d : Ctl} (h : c.PageWork d) : d.bays = c.bays := (congrArg Ctl.bays h.same :)
theorem Ctl.PageWork.exts {c d : Ctl} (h : c.PageWork d) : d.exts = c.exts := (congrArg Ctl.exts h.same :)
theorem Ctl.PageWork.eps {c d : Ctl} (h : c.PageWork d) : d.eps = c.eps := (congrArg Ctl.eps h.same :)
theorem Ctl.PageWork.opens {c d : Ctl} (h : c.PageWork d) : d.opens = c.opens := (congrArg Ctl.opens h.same :)
theorem Ctl.PageWork.evseq {c d : Ctl} (h : c.PageWork d) : d.evseq = c.evseq := (congrArg Ctl.evseq h.same :)

theorem Ctl.pageWork_wr (c : Ctl) (f : Fld) (v : Nat) (h : 0x08000000 ≤ f.addr) : c.PageWork (c.wr f v) :=
  ⟨rfl, fun a ha => Ctl.reg_wr_ne c f v a (by omega)⟩

theorem Ctl.pageWork_bump (c : Ctl) (a : Nat) (h : 0x08000000 ≤ a) : c.PageWork (c.bump a) :=
  ⟨rfl, fun b hb => Ctl.reg_bumpBy_ne c a 1 b (by omega)⟩

theorem Ctl.pageWork_putPage (c : Ctl) (b p : Nat) (v : PageEntry) : c.PageWork (c.putPage b p v) := ⟨rfl, fun _ _ => rfl⟩
theorem Ctl.pageWork_putKvPage (c : Ctl) (n : Nat) (p : KvPage) : c.PageWork (c.putKvPage n p) := ⟨rfl, fun _ _ => rfl⟩
theorem Ctl.pageWork_putRsa (c : Ctl) (b : Nat) (r : Rsa) : c.PageWork (c.putRsa b r) := ⟨rfl, fun _ _ => rfl⟩
theorem Ctl.pageWork_phys (c : Ctl) (p : Phys) : c.PageWork { c with phys := p } := ⟨rfl, fun _ _ => rfl⟩
theorem Ctl.pageWork_coded (c : Ctl) (t : Tab Loc) : c.PageWork { c with coded := t } := ⟨rfl, fun _ _ => rfl⟩

theorem Ctl.pageWork_charge (c : Ctl) (bay : Nat) (t : Tier) (n : Nat) : c.PageWork (c.charge bay t n) := by
  cases t with
  | none => exact .refl c
  | hbm => exact c.pageWork_wr _ _ (by simp only [Reg.hbmUsed]; omega)
  | ddr => exact c.pageWork_wr _ _ (by simp only [Reg.ddrUsed]; omega)
  | pool => exact c.pageWork_wr _ _ (by simp only [Reg.poolUsed]; omega)

theorem Ctl.pageWork_uncharge (c : Ctl) (bay : Nat) (t : Tier) (n : Nat) : c.PageWork (c.uncharge bay t n) := by
  cases t with
  | none => exact .refl c
  | hbm => exact c.pageWork_wr _ _ (by simp only [Reg.hbmUsed]; omega)
  | ddr => exact c.pageWork_wr _ _ (by simp only [Reg.ddrUsed]; omega)
  | pool => exact c.pageWork_wr _ _ (by simp only [Reg.poolUsed]; omega)

theorem Ctl.pageWork_take (c : Ctl) (l : Loc) : c.PageWork (c.take l) := by
  unfold Ctl.take
  split
  · exact .refl c
  · exact c.pageWork_phys _

theorem Ctl.pageWork_freeLoc (c : Ctl) (bay : Nat) (l : Loc) : c.PageWork (c.freeLoc bay l) := by
  unfold Ctl.freeLoc
  split
  · exact c.pageWork_uncharge bay l.tier 1
  · exact (c.pageWork_uncharge bay l.tier 1).trans (Ctl.pageWork_phys _ _)

theorem Ctl.pageWork_freeKeys (c : Ctl) (bay : Nat) (t : Tier) (keys : List Nat) : c.PageWork (c.freeKeys bay t keys) :=
  (c.pageWork_uncharge bay t keys.length).trans (Ctl.pageWork_phys _ _)

theorem Ctl.pageWork_takeKeys (c : Ctl) (bay : Nat) (t : Tier) (keys : List Nat) : c.PageWork (c.takeKeys bay t keys) :=
  (c.pageWork_phys _).trans (Ctl.pageWork_charge _ bay t keys.length)

/-! ### Pages found for a bay (R203, R204) -/

/-- `d` is `c` after pages were found for a bay: beside what taking pages touches, rotations may have turned. -/
structure Ctl.Allots (c d : Ctl) : Prop where
  same : d = { c.withPages d with bays := d.bays }
  regs : ∀ a, a < 0x08000000 → d.reg a = c.reg a
  bays : ∀ b, d.bay b = { c.bay b with rot := (d.bay b).rot }

theorem Ctl.Allots.trans {c d e : Ctl} (h : c.Allots d) (k : d.Allots e) : c.Allots e where
  same := k.same.trans (congrArg (fun x : Ctl => { x.withPages e with bays := e.bays }) h.same :)
  regs a ha := (k.regs a ha).trans (h.regs a ha)
  bays b := by rw [k.bays b, h.bays b]

theorem Ctl.PageWork.allots {c d : Ctl} (h : c.PageWork d) : c.Allots d where
  same := by
    rw [h.bays]
    exact h.same
  regs := h.regs
  bays b := by
    have hbay : d.bay b = c.bay b := by simp only [Ctl.bay, h.bays]
    rw [hbay]

theorem Ctl.Allots.refl (c : Ctl) : c.Allots c := (Ctl.PageWork.refl c).allots

theorem Ctl.allots_turn (c : Ctl) (bay r : Nat) : c.Allots (c.putBay bay { c.bay bay with rot := r }) where
  same := rfl
  regs _ _ := rfl
  bays b := by
    by_cases hb : b = bay
    · subst hb
      rw [Ctl.bay_putBay]
    · rw [Ctl.bay_putBay_ne _ _ _ _ hb]

theorem Ctl.Allots.evseq {c d : Ctl} (h : c.Allots d) : d.evseq = c.evseq := (congrArg Ctl.evseq h.same :)
theorem Ctl.Allots.exts {c d : Ctl} (h : c.Allots d) : d.exts = c.exts := (congrArg Ctl.exts h.same :)
theorem Ctl.Allots.eps {c d : Ctl} (h : c.Allots d) : d.eps = c.eps := (congrArg Ctl.eps h.same :)
theorem Ctl.Allots.opens {c d : Ctl} (h : c.Allots d) : d.opens = c.opens := (congrArg Ctl.opens h.same :)

/-- Picking a page in the pool turns its rotation; the other tiers are only looked at. -/
theorem Ctl.allots_pickIn {c d : Ctl} {bay : Nat} {ban : List Nat} {t : Tier} {l : Loc} (h : c.pickIn bay ban t = some (l, d)) : c.Allots d := by
  cases t with
  | none => cases h
  | hbm =>
    simp only [Ctl.pickIn] at h
    split at h
    · cases h
    · obtain ⟨a, -, ha⟩ := Option.map_eq_some_iff.mp h
      cases ha
      exact .refl c
  | ddr =>
    simp only [Ctl.pickIn] at h
    split at h
    · cases h
    · obtain ⟨a, -, ha⟩ := Option.map_eq_some_iff.mp h
      cases ha
      exact .refl c
  | pool =>
    obtain ⟨a, -, ha⟩ := Option.map_eq_some_iff.mp h
    cases ha
    exact c.allots_turn bay _

theorem Ctl.allots_allocLoc {c d : Ctl} {bay : Nat} {t : Tier} {ban : List Nat} {quota : Bool} {l : Loc}
    (h : c.allocLoc bay t ban quota = some (l, d)) : c.Allots d := by
  obtain ⟨⟨m, e⟩, he, heq⟩ := Option.map_eq_some_iff.mp h
  obtain ⟨u, -, hu⟩ := List.exists_of_findSome?_eq_some he
  cases heq
  split at hu
  · cases hu
  · exact (Ctl.allots_pickIn hu).trans ((Ctl.pageWork_take _ _).trans (Ctl.pageWork_charge _ _ _ _)).allots

end Sys2Proof.Machine

namespace Sys2Proof.Machine

/-! ### Answers (R148): what they touch, whatever they say -/

/-- `d` is `c` after requests were answered: frames moved, and of the registers only Flask's free counts and the counts of failures. -/
structure Ctl.Answers (c d : Ctl) : Prop where
  moves : c.Moves d
  regs : ∀ a, a ≠ 0x04000000 → a ≠ Reg.memPoisonRsp → a ≠ Reg.memMalformed → d.reg a = c.reg a

theorem Ctl.Answers.refl (c : Ctl) : c.Answers c := ⟨.refl c, fun _ _ _ _ => rfl⟩

theorem Ctl.Answers.trans {c d e : Ctl} (h : c.Answers d) (k : d.Answers e) : c.Answers e :=
  ⟨h.moves.trans k.moves, fun a h1 h2 h3 => (k.regs a h1 h2 h3).trans (h.regs a h1 h2 h3)⟩

theorem Ctl.answers_sendFrame (c : Ctl) (f : Frame) : c.Answers (c.sendFrame f) :=
  ⟨c.moves_sendFrame f, fun a ha _ _ => (c.sends_sendFrame f).regs a ha⟩

theorem Ctl.answers_sendRsp (c : Ctl) (r f : Frame) (peg : Option (BitVec 16)) (grant : Option Nat) : c.Answers (c.sendRsp r f peg grant) := by
  refine ⟨?_, fun a ha _ _ => (c.sends_sendRsp r f peg grant).regs a ha⟩
  unfold Ctl.sendRsp
  split
  · exact c.moves_sendSeq _ _ _
  · exact c.moves_sendFrame _

theorem Ctl.answers_answered (c : Ctl) (r : Frame) (status detail : Byte) : c.Answers (c.answered r status detail) := by
  have hbump : ∀ (p : Prop) [Decidable p] (d : Ctl) (a : Nat), a = Reg.memPoisonRsp ∨ a = Reg.memMalformed →
      d.Answers (if p then d.bump a else d) := fun p _ d a ha => by
    split
    · exact ⟨d.moves_bump a, fun b _ h1 h2 => Ctl.reg_bumpBy_ne d a 1 b (by rcases ha with rfl | rfl <;> assumption)⟩
    · exact .refl d
  have hcounted := ((⟨c.moves_untrack r.src.toNat r.dst.toNat r.seq, fun _ _ _ _ => rfl⟩ : c.Answers _).trans
    (hbump (status = stPOISONED) _ Reg.memPoisonRsp (.inl rfl))).trans (hbump (detail = dMALFORMED) _ Reg.memMalformed (.inr rfl))
  unfold Ctl.answered
  dsimp only
  split
  · exact hcounted
  · exact hcounted.trans (Ctl.answers_sendFrame _ _)

/-- What follows on an answer's bookkeeping: the response frames, to a live incarnation. -/
def Ctl.respond (c : Ctl) (r : Frame) (status detail : Byte) (addr : Word) (flags : BitVec 16) (payload : List Byte)
    (peg : Option (BitVec 16)) (grant : Option Nat) : Ctl :=
  if !c.liveInc r.src.toNat r.inc then c
  else if r.kind = kRead || r.kind = kReadPub then
    if status = stOK || status = stPOISONED then
      (readPieces payload).foldl (fun d e =>
        d.sendRsp r (rspFrame r status detail (if r.kind = kReadPub then addr else BitVec.ofNat 64 (r.addr.toNat + e.1))
          (flags ||| if e.1 + 4096 ≥ payload.length then flLAST else 0) e.2) peg grant) c
    else c.sendRsp r (rspFrame r status detail addr (flags ||| flLAST) []) peg grant
  else c.sendRsp r (rspFrame r status detail addr flags (if status = stOK || r.isCoherence then payload else zeros (rspLen r.kind))) peg grant

theorem Ctl.answer_respond (c : Ctl) (r : Frame) (status detail : Byte) (addr : Word) (flags : BitVec 16) (payload : List Byte)
    (peg : Option (BitVec 16)) (grant : Option Nat) :
    c.answer r status detail addr flags payload peg grant = (c.answered r status detail).respond r status detail addr flags payload peg grant := rfl

theorem Ctl.answers_respond (c : Ctl) (r : Frame) (status detail : Byte) (addr : Word) (flags : BitVec 16) (payload : List Byte)
    (peg : Option (BitVec 16)) (grant : Option Nat) : c.Answers (c.respond r status detail addr flags payload peg grant) := by
  unfold Ctl.respond
  split
  · exact .refl _
  · split
    · split
      · exact List.foldlRecOn (motive := Ctl.Answers _) _ _ (.refl _) (fun _ h e _ => h.trans (Ctl.answers_sendRsp _ _ _ _ _))
      · exact Ctl.answers_sendRsp _ _ _ _ _
    · exact Ctl.answers_sendRsp _ _ _ _ _

theorem Ctl.answers_answer (c : Ctl) (r : Frame) (status detail : Byte) (addr : Word) (flags : BitVec 16) (payload : List Byte)
    (peg : Option (BitVec 16)) (grant : Option Nat) : c.Answers (c.answer r status detail addr flags payload peg grant) :=
  (c.answers_answered r status detail).trans (Ctl.answers_respond _ _ _ _ _ _ _ _ _)

theorem Ctl.Answers.bays {c d : Ctl} (h : c.Answers d) : d.bays = c.bays := (congrArg Ctl.bays h.moves.same :)
theorem Ctl.Answers.exts {c d : Ctl} (h : c.Answers d) : d.exts = c.exts := (congrArg Ctl.exts h.moves.same :)
theorem Ctl.Answers.evseq {c d : Ctl} (h : c.Answers d) : d.evseq = c.evseq := (congrArg Ctl.evseq h.moves.same :)

theorem Ctl.evseq_endFence (c : Ctl) (w : FenceWait) (status detail : Byte) (addr : Word) : (c.endFence w status detail addr).evseq = c.evseq :=
  (Ctl.answers_answer _ _ _ _ _ _ _ _ _).evseq

theorem Ctl.evseq_failReq (c : Ctl) (id : Nat) (f : Frame) (status detail : Byte) (addr : Word) : (c.failReq id f status detail addr).evseq = c.evseq := by
  unfold Ctl.failReq
  refine (Ctl.answers_answer _ _ _ _ _ _ _ _ _).evseq.trans ?_
  split
  · unfold Ctl.pegRecord
    split <;> rfl
  · rfl

/-! ### What only lets events pass -/

/-- The queue of commands stands, and no EVSEQ is taken back. -/
structure State.Ages (s t : State) : Prop where
  evseq : s.ctl.evseq ≤ t.ctl.evseq
  pending : t.pending = s.pending

theorem State.Ages.refl (s : State) : s.Ages s := ⟨le_refl _, rfl⟩
theorem State.Ages.trans {s t u : State} (h : s.Ages t) (k : t.Ages u) : s.Ages u := ⟨h.evseq.trans k.evseq, k.pending.trans h.pending⟩

theorem State.Ages.foldl {α : Type} {f : State → α → State} (hf : ∀ (s : State) a, s.Ages (f s a)) (l : List α) (s : State) : s.Ages (l.foldl f s) :=
  List.foldlRecOn (motive := s.Ages) l f (.refl s) (fun _ h a _ => h.trans (hf _ a))

theorem Ctl.evseq_foldl {α : Type} {f : Ctl → α → Ctl} (hf : ∀ (c : Ctl) a, c.evseq ≤ (f c a).evseq) (l : List α) (c : Ctl) :
    c.evseq ≤ (l.foldl f c).evseq :=
  List.foldlRecOn (motive := fun d => c.evseq ≤ d.evseq) l f (le_refl _) (fun _ h a _ => h.trans (hf _ a))

theorem Ctl.evseq_haltBay (c : Ctl) (bay : Nat) : c.evseq ≤ (c.haltBay bay).evseq := by
  unfold Ctl.haltBay
  split
  · exact le_refl _
  · refine le_trans ?_ (Ctl.posts_event _ _ _).evseq
    refine le_trans ?_ (Ctl.evseq_foldl (fun d w => (d.evseq_endFence w _ _ _).ge) _ _)
    exact Ctl.evseq_foldl (fun d (o : OpenReq) => (d.evseq_failReq o.id o.frame _ _ _).ge) _ (c.putBay bay { c.bay bay with halted := true })

theorem Ctl.pageWork_abandonMig_cases (c : Ctl) (bay p : Nat) :
    c.PageWork (c.abandonMig bay p) ∨ ∃ d ref, c.PageWork d ∧ c.abandonMig bay p = d.migEnded ref := by
  unfold Ctl.abandonMig
  dsimp only
  have hfreed := (c.pageWork_freeLoc bay (c.page bay p).dest).trans
    (Ctl.pageWork_putPage _ bay p { c.page bay p with migrating := false, dest := Loc.none, copied := 0 })
  split
  · exact .inl (.refl c)
  · split
    · exact .inr ⟨_, _, hfreed.trans (Ctl.pageWork_bump _ _ (by decide)), rfl⟩
    · exact .inl hfreed

end Sys2Proof.Machine

namespace Sys2Proof.Machine

theorem Ctl.evseq_abandonMig (c : Ctl) (bay p : Nat) : (c.abandonMig bay p).evseq = c.evseq := by
  obtain h | ⟨d, ref, h, heq⟩ := c.pageWork_abandonMig_cases bay p
  · exact h.evseq
  · rw [heq]
    exact h.evseq

/-- One step of a rebuild: a lost location moves, where a place is found for it (R222). -/
theorem State.Ages.moved {s t : State} (h : s.Ages t) (p : Prop) [Decidable p] (bay : Nat) (old : Loc) (src : Option Nat) (tier : Tier)
    (ban : List Nat) (f : Loc → Ctl → Ctl) (hf : ∀ (l : Loc) (c : Ctl), (f l c).evseq = c.evseq) :
    s.Ages (if p then (match t.relocate bay old src tier ban with | some (l, u) => u.onCtl (f l) | none => t) else t) := by
  split
  · split
    · next l u hu =>
      refine h.trans ?_
      unfold State.relocate at hu
      split at hu
      · cases hu
      · next m d hd =>
        cases hu
        have hevseq : d.evseq = t.ctl.evseq := ((t.ctl.pageWork_freeLoc bay old).allots.trans (Ctl.allots_allocLoc hd)).evseq
        have hcopy : ∀ (x : State) (k : Option Nat), (x.copyPage64 k src).ctl = x.ctl ∧ (x.copyPage64 k src).pending = x.pending := fun x k => by
          unfold State.copyPage64
          split <;> exact ⟨rfl, rfl⟩
        obtain ⟨hctl, hpend⟩ := hcopy { t with ctl := d } (d.locKey l)
        exact ⟨(hevseq.symm.trans (((hf l _).trans (congrArg Ctl.evseq hctl)).symm)).le, hpend⟩
    · exact h
  · exact h

theorem State.ages_rebuildFlat (s : State) (bay p : Nat) : s.Ages (s.rebuildFlat bay p) := by
  unfold State.rebuildFlat
  extract_lets c pg tier
  split
  · next s' pg' _ _ _ =>
    have hfirst : s.Ages s' := (State.Ages.refl s).moved _ _ _ _ _ _ _ (fun _ _ => rfl)
    clear_value s'
    exact hfirst.moved _ _ _ _ _ _ _ (fun _ _ => rfl)
  · extract_lets ban s' pg' s'' lq
    have hfirst : s.Ages s' := (State.Ages.refl s).moved _ _ _ _ _ _ _ (fun _ _ => rfl)
    clear_value s'
    have hsecond : s.Ages s'' := hfirst.moved _ _ _ _ _ _ _ (fun _ _ => rfl)
    clear_value s''
    exact hsecond.moved _ _ _ _ _ _ _ (fun _ _ => rfl)
  · exact .refl s

/-- A page that is set LOST: the queue of commands stands, events may go out (R222, R171). -/
theorem State.ages_setLost (s : State) (bay p : Nat) : s.Ages (s.setLost bay p) := by
  unfold State.setLost
  extract_lets c pg red fatal c1 c2 c3 pg' s'
  have hlines : c1.evseq = c.evseq := by
    show (match c.locKey pg.loc with | some k => c.dropLines k | none => c).evseq = _
    split <;> rfl
  have hsecond : c3.evseq = c2.evseq := by
    show (if red = 1 then c2.freeLoc bay pg.alt else c2).evseq = _
    split
    · exact (c2.pageWork_freeLoc bay pg.alt).evseq
    · rfl
  have hfreed : c3.evseq = s.ctl.evseq :=
    hsecond.trans ((c1.pageWork_freeLoc bay pg.loc).evseq.trans (hlines.trans (s.ctl.evseq_abandonMig bay p)))
  have hplaced : s.Ages s' := by
    clear_value c3
    show s.Ages (match [Tier.hbm, .ddr].findSome? (fun t => c3.pickIn bay [] t) with | none => _ | some (l, d) => _)
    split
    · exact ⟨hfreed.ge, rfl⟩
    · next l d hd =>
      obtain ⟨t, -, ht⟩ := List.exists_of_findSome?_eq_some hd
      exact ⟨(((Ctl.allots_pickIn ht).trans ((d.pageWork_take l).trans (Ctl.pageWork_charge _ bay l.tier 1)).allots).evseq.trans hfreed).ge, rfl⟩
  clear_value s'
  split
  · exact hplaced.trans ⟨s'.ctl.evseq_haltBay bay, rfl⟩
  · exact hplaced

theorem State.ages_judgePage (s : State) (k : Nat) : s.Ages (s.judgePage k) := by
  unfold State.judgePage
  extract_lets bay p pg s'
  have hfirst : s.Ages s' := by
    show s.Ages (if _ then _ else _)
    split
    · exact ⟨(s.ctl.evseq_abandonMig bay p).ge, rfl⟩
    · exact .refl s
  clear_value s'
  split
  · exact hfirst.trans (s'.ages_setLost bay p)
  · split
    · split
      · exact hfirst
      · exact hfirst.trans ⟨le_refl _, rfl⟩
    · exact hfirst

theorem State.ages_setKvLost (s : State) (rec_ : Nat) (pg : KvPage) : s.Ages (s.setKvLost rec_ pg) := by
  unfold State.setKvLost
  extract_lets fatal c c' pg' n s'
  have hfreed : c'.evseq = s.ctl.evseq := by
    show (if _ then _ else _ : Ctl).evseq = _
    split
    · exact (Ctl.pageWork_freeKeys _ _ _ _).evseq
    · exact ((Ctl.pageWork_freeKeys _ _ _ _).trans (Ctl.pageWork_freeKeys _ _ _ _)).evseq
  clear_value c'
  have hplaced : s.Ages s' := by
    unfold s'
    split
    · exact ⟨hfreed.ge, rfl⟩
    · exact ⟨((Ctl.pageWork_takeKeys c' _ _ _).evseq.trans hfreed).ge, rfl⟩
  clear_value s'
  exact hplaced.trans (State.Ages.foldl (f := fun x (r : KvRegion) => x.onCtl (·.haltBay r.bay)) (fun x r => ⟨x.ctl.evseq_haltBay r.bay, rfl⟩) fatal s')

theorem State.ages_dropBacking (s : State) (i : Nat) : s.Ages (s.dropBacking i) := by
  unfold State.dropBacking
  extract_lets e k0 inside uses flats s1 s2 s3 out
  have hflats : s.Ages s2 := State.Ages.trans (t := s1) ⟨le_refl _, rfl⟩
    (State.Ages.foldl (fun x k => (x.ages_judgePage k).trans (State.ages_rebuildFlat _ _ _)) flats s1)
  clear_value s2
  have hkv : s.Ages s3 := by
    refine hflats.trans (State.Ages.foldl (fun x r => ?_) s2.ctl.kvPages s2)
    split
    · split
      · exact x.ages_setKvLost r.1 r.2
      · exact ⟨le_refl _, rfl⟩
    · split
      · exact ⟨le_refl _, rfl⟩
      · exact .refl x
  clear_value s3
  exact hkv.trans ⟨le_refl _, rfl⟩

end Sys2Proof.Machine

namespace Sys2Proof.Machine

/-! ### Extents that are emptied (R145, R205) -/

/-- Bays, extents, endpoints and EVSEQ stand. -/
structure Ctl.Vacates (c d : Ctl) : Prop where
  bays : d.bays = c.bays
  exts : d.exts = c.exts
  eps : d.eps = c.eps
  evseq : d.evseq = c.evseq

theorem Ctl.Vacates.refl (c : Ctl) : c.Vacates c := ⟨rfl, rfl, rfl, rfl⟩
theorem Ctl.Vacates.trans {c d e : Ctl} (h : c.Vacates d) (k : d.Vacates e) : c.Vacates e :=
  ⟨k.bays.trans h.bays, k.exts.trans h.exts, k.eps.trans h.eps, k.evseq.trans h.evseq⟩
theorem Ctl.PageWork.vacates {c d : Ctl} (h : c.PageWork d) : c.Vacates d := ⟨h.bays, h.exts, h.eps, h.evseq⟩

theorem Ctl.vacates_abandonMig (c : Ctl) (bay p : Nat) : c.Vacates (c.abandonMig bay p) := by
  obtain h | ⟨d, ref, h, heq⟩ := c.pageWork_abandonMig_cases bay p
  · exact h.vacates
  · rw [heq]
    exact h.vacates.trans ⟨rfl, rfl, rfl, rfl⟩

theorem Ctl.vacates_freeExtPages (c : Ctl) (i : Nat) : c.Vacates (c.freeExtPages i) := by
  unfold Ctl.freeExtPages
  extract_lets e c' q
  have hpages : c.Vacates c' := by
    refine List.foldlRecOn (motive := c.Vacates) _ _ (.refl c) (fun d h p _ => h.trans ?_)
    have hfreed := (d.vacates_abandonMig e.bay p).trans
      ((Ctl.pageWork_freeLoc _ e.bay (d.page e.bay p).loc).trans (Ctl.pageWork_freeLoc _ e.bay (d.page e.bay p).alt)).vacates
    exact hfreed.trans ⟨rfl, rfl, rfl, rfl⟩
  clear_value c'
  split
  · exact hpages
  · exact hpages.trans ((c'.pageWork_freeLoc e.bay q).trans (Ctl.pageWork_coded _ _)).vacates

/-- What becomes of an extent's pages when its entry is emptied. -/
def State.clearExt (s : State) (i : Nat) : State :=
  if (s.ctl.ext i).backing then s.dropBacking i else if isNode (s.ctl.ext i).base then s else s.onCtl (·.freeExtPages i)

/-- The entry itself, and REVOKE_DONE with its last two words. -/
def Ctl.dropExt (c : Ctl) (i bay : Nat) (l : List Nat) : Ctl := (c.putExt i Extent.init).event evRevokeDone ([i, bay] ++ l)

theorem State.finishRevoke_empties {s : State} {i : Nat} (hst : (s.ctl.ext i).st = .revoking) (hdropped : (s.ctl.ext i).dropped = false)
    (hnear : (isNode (s.ctl.ext i).base && s.ctl.isTray (nodeOf (s.ctl.ext i).base) && (s.ctl.ep (nodeOf (s.ctl.ext i).base)).live) = false) :
    s.finishRevoke i = (s.clearExt i).onCtl (·.dropExt i (s.ctl.ext i).bay [0, 0]) := by
  unfold State.finishRevoke
  dsimp only
  rw [hnear, if_neg (by simp [hst, hdropped]), if_neg (by simp)]
  unfold State.emptyExt
  dsimp only
  rw [if_neg (not_not_intro hst)]
  rfl

theorem State.ages_clearExt (s : State) (i : Nat) : s.Ages (s.clearExt i) := by
  unfold State.clearExt
  split
  · exact s.ages_dropBacking i
  · split
    · exact .refl s
    · exact ⟨(s.ctl.vacates_freeExtPages i).evseq.ge, rfl⟩

theorem Ctl.evseq_lt_dropExt (c : Ctl) (i bay : Nat) (l : List Nat) : c.evseq < (c.dropExt i bay l).evseq :=
  Ctl.evseq_lt_event (c.putExt i Extent.init) _ _

theorem Ctl.exts_event (c : Ctl) (code : Nat) (args : List Nat) : (c.event code args).exts = c.exts :=
  (congrArg Ctl.exts (c.posts_event code args).same :)

theorem Ctl.ext_dropExt (c : Ctl) (i bay : Nat) (l : List Nat) : (c.dropExt i bay l).ext i = Extent.init := by
  rw [Ctl.dropExt, Ctl.ext, Ctl.exts_event]
  exact Ctl.ext_putExt c i Extent.init

theorem Ctl.ext_dropExt_ne (c : Ctl) (i bay : Nat) (l : List Nat) {j : Nat} (h : j ≠ i) : (c.dropExt i bay l).ext j = c.ext j := by
  rw [Ctl.dropExt, Ctl.ext, Ctl.exts_event]
  exact Ctl.ext_putExt_ne c i Extent.init j h

/-! ### REVOKE_DONE: the two ways to it (R144, R145) -/

theorem revokeDrained_completes (i : Fin 65536) (s : State) (hmain : s.ctl.mainUp = true) (hst : (s.ctl.ext i.val).st = .revoking)
    (hidle : s.ctl.inflight i.val = 0) (hdropped : (s.ctl.ext i.val).dropped = false)
    (hnear : (isNode (s.ctl.ext i.val).base && s.ctl.isTray (nodeOf (s.ctl.ext i.val).base) && (s.ctl.ep (nodeOf (s.ctl.ext i.val).base)).live) = false) :
    Completes (.revokeDrained i) s (fun t => t.ctl.ext i.val = Extent.init ∧ s.ctl.evseq < t.ctl.evseq ∧ t.pending = s.pending) := by
  have hexec : exec (.revokeDrained i) s = done ((s.clearExt i.val).onCtl (·.dropExt i.val (s.ctl.ext i.val).bay [0, 0])) := by
    show done (if s.ctl.mainUp then s.revokeDrained i.val else s) = _
    rw [if_pos hmain, State.revokeDrained, if_pos (by simp [hst, hidle]), State.finishRevoke_empties hst hdropped hnear]
  have hages := s.ages_clearExt i.val
  exact Completes.of_done hexec ⟨Ctl.ext_dropExt _ _ _ _, hages.evseq.trans_lt (Ctl.evseq_lt_dropExt _ _ _ _), hages.pending⟩

theorem Ctl.abortExt_quiet {c : Ctl} (h : c.opens = []) (i : Nat) : c.abortExt i = c := by
  unfold Ctl.abortExt
  rw [h]
  rfl

theorem revokeTimeout_completes (i : Fin 65536) (s : State) (hmain : s.ctl.mainUp = true) (hst : (s.ctl.ext i.val).st = .revoking)
    (hdropped : (s.ctl.ext i.val).dropped = false) (hlate : (s.ctl.ext i.val).revAt + s.ctl.rd Reg.revokeTimeout ≤ s.ctl.now)
    (hquiet : s.ctl.opens = []) (hnode : isNode (s.ctl.ext i.val).base = true) (hplain : (s.ctl.ext i.val).backing = false)
    (hnear : (s.ctl.isTray (nodeOf (s.ctl.ext i.val).base) && (s.ctl.ep (nodeOf (s.ctl.ext i.val).base)).live) = false) :
    Completes (.revokeTimeout i) s (fun t =>
    t.ctl.ext i.val = Extent.init ∧ (∀ j, j ≠ i.val → t.ctl.ext j = s.ctl.ext j) ∧ s.ctl.evseq < t.ctl.evseq ∧ Keeps s t) := by
  have hclear : s.clearExt i.val = s := by simp [State.clearExt, hplain, hnode]
  have hfinish : s.finishRevoke i.val = s.onCtl (·.dropExt i.val (s.ctl.ext i.val).bay [0, 0]) := by
    rw [State.finishRevoke_empties hst hdropped (by rw [Bool.and_assoc, hnear, Bool.and_false]), hclear]
  have hopens : (s.ctl.dropExt i.val (s.ctl.ext i.val).bay [0, 0]).opens = [] :=
    (congrArg Ctl.opens (Ctl.posts_event (s.ctl.putExt i.val Extent.init) _ _).same :).trans hquiet
  have hexec : exec (.revokeTimeout i) s = done (s.onCtl (·.dropExt i.val (s.ctl.ext i.val).bay [0, 0])) := by
    have habort : s.onCtl (·.abortExt i.val) = s := congrArg (fun c : Ctl => { s with ctl := c }) (Ctl.abortExt_quiet hquiet i.val)
    show done (if s.ctl.mainUp then s.revokeTimeout i.val else s) = _
    rw [if_pos hmain, State.revokeTimeout, if_pos (by simp [hst, hdropped, hlate]), habort, hfinish, State.settle_quiet hopens]
  exact Completes.of_done hexec ⟨Ctl.ext_dropExt _ _ _ _, fun j hj => Ctl.ext_dropExt_ne _ _ _ _ hj, Ctl.evseq_lt_dropExt _ _ _ _, Keeps.onCtl s _⟩

/-! ### REVOKE and INSTALL (R125, R131, R143) -/

/-- REVOKE touches extents and, where the tray's EXTSYNC answer was awaited, the endpoint's record. -/
theorem Ctl.revoke_spec (c : Ctl) (i : Nat) : (∃ x y, c.revoke i = { c with exts := x, eps := y })
    ∧ (c.revoke i).ext i = { c.ext i with st := .revoking, revAt := c.now, dropped := false } ∧ (∀ j, j ≠ i → (c.revoke i).ext j = c.ext j) := by
  have hput : ∀ x : Tab Endpoint, (({ c.putExt i { c.ext i with st := .revoking, revAt := c.now, dropped := false } with eps := x }) : Ctl).ext i
      = { c.ext i with st := .revoking, revAt := c.now, dropped := false } := fun x => Ctl.ext_putExt c i _
  have hne : ∀ x : Tab Endpoint, ∀ j, j ≠ i → (({ c.putExt i { c.ext i with st := .revoking, revAt := c.now, dropped := false } with eps := x }) : Ctl).ext j
      = c.ext j := fun x j hj => Ctl.ext_putExt_ne c i _ j hj
  unfold Ctl.revoke
  dsimp only
  split
  · split
    · exact ⟨⟨_, _, rfl⟩, hput _, hne _⟩
    · exact ⟨⟨_, _, rfl⟩, hput _, hne _⟩
  · exact ⟨⟨_, _, rfl⟩, hput _, hne _⟩

theorem extRevoke_completes (i : Fin 65536) (s : State) (hmain : s.ctl.mainUp = true) (hidle : s.ctl.rd Reg.extBusy = 0)
    (hst : (s.ctl.ext i.val).st = .active) : Completes (.extRevoke i) s (fun t =>
    t.ctl.ext i.val = { s.ctl.ext i.val with st := .revoking, revAt := s.ctl.now, dropped := false } ∧ t.ctl.rd Reg.extErr = 0
    ∧ (∀ j, j ≠ i.val → t.ctl.ext j = s.ctl.ext j) ∧ Only s t (fun c => { c with regs := t.ctl.regs, exts := t.ctl.exts, eps := t.ctl.eps })) := by
  have hrun : s.ctl.extRevoke i.val = ((s.ctl.wr Reg.extIndex i.val).wr Reg.extErr 0).revoke i.val := by
    unfold Ctl.extRevoke
    dsimp only
    rw [if_neg (by simp [hidle]), if_neg (not_not_intro (show ((s.ctl.wr Reg.extIndex i.val).ext i.val).st = .active from hst))]
  obtain ⟨⟨x, y, hsame⟩, hext, hne⟩ := Ctl.revoke_spec ((s.ctl.wr Reg.extIndex i.val).wr Reg.extErr 0) i.val
  refine Completes.onCtl (congrArg done (State.whenMain_on s _ hmain)) hrun ⟨hext, ?_, hne, ?_⟩
  · rw [hsame]
    exact Ctl.rd_wr_fits _ Reg.extErr 0 (by decide) (by decide)
  · rw [hsame]
    rfl

/-- The status of an EXT_CMD that passes: its entry, no error, whether the staged entry was clamped. -/
def Ctl.extPassed (c : Ctl) (i : Nat) (clamped : Bool) : Ctl := ((c.wr Reg.extIndex i).wr Reg.extErr 0).wr Reg.extClamped (b2n clamped)

/-- A bay's first protected extent draws its key (R439). -/
def Ctl.keyFor (c : Ctl) (e : Extent) : Ctl := if e.prot then c.drawKey e.bay else c

/-- A tray with a live incarnation has to take the entry (R131). -/
def Ctl.farExt (c : Ctl) (e : Extent) : Bool := isNode e.base && c.isTray (nodeOf e.base) && (c.ep (nodeOf e.base)).live

/-- `c` with other bay records and another count of free values. -/
def Ctl.withKeys (c : Ctl) (x : Tab BayRec) (n : Nat) : Ctl := { c with bays := x, freeCtr := n }

theorem Ctl.keyFor_spec (c : Ctl) (e : Extent) : ∃ x n, c.keyFor e = c.withKeys x n := by
  unfold Ctl.keyFor
  split
  · unfold Ctl.drawKey
    dsimp only
    split
    · exact ⟨c.bays, c.freeCtr, rfl⟩
    · exact ⟨_, _, rfl⟩
  · exact ⟨c.bays, c.freeCtr, rfl⟩

theorem Ctl.extInstall_ok {c : Ctl} {i : Nat} {e : Extent} {k : Bool} (hstaged : c.stagedExt = (e, k)) (hidle : c.rd Reg.extBusy = 0)
    (herr : c.extErrOf i e = 0) : c.extInstall i = if ((c.extPassed i k).keyFor e).farExt e
      then ((((c.extPassed i k).keyFor e).putExt i { e with st := .pending }).wr Reg.extBusy 1).sendExtSync i true
      else ((c.extPassed i k).keyFor e).putExt i { e with st := .active } := by
  unfold Ctl.extInstall
  rw [if_neg (by simp [hidle]), hstaged]
  dsimp only
  rw [herr, if_neg (by decide), if_neg (by decide)]
  rfl

theorem Ctl.rd_extPassed (c : Ctl) (i : Nat) (k : Bool) : (c.extPassed i k).rd Reg.extErr = 0 ∧ (c.extPassed i k).rd Reg.extBusy = c.rd Reg.extBusy := by
  unfold Ctl.extPassed
  constructor
  · rw [Ctl.rd_wr_apart _ _ _ _ (by decide) (by decide), Ctl.rd_wr_fits _ _ _ (by decide) (by decide)]
  · rw [Ctl.rd_wr_apart _ _ _ _ (by decide) (by decide), Ctl.rd_wr_apart _ _ _ _ (by decide) (by decide),
      Ctl.rd_wr_apart _ _ _ _ (by decide) (by decide)]

theorem nodeOf_lt (a : Word) : nodeOf a < 4096 := Nat.mod_lt _ (by decide)

theorem Ctl.isTray_congr {c d : Ctl} {ep : Nat} (h : d.reg (Reg.epClass ep).addr = c.reg (Reg.epClass ep).addr) : d.isTray ep = c.isTray ep :=
  congrArg (· == 1) (Ctl.rd_congr h)

theorem Ctl.farExt_passed (c : Ctl) (i : Nat) (k : Bool) (e : Extent) : ((c.extPassed i k).keyFor e).farExt e = c.farExt e := by
  obtain ⟨x, n, hkey⟩ := (c.extPassed i k).keyFor_spec e
  have hreg : (c.extPassed i k).reg (Reg.epClass (nodeOf e.base)).addr = c.reg (Reg.epClass (nodeOf e.base)).addr := by
    have ha : (Reg.epClass (nodeOf e.base)).addr ≠ 0x05080028 := by
      have := nodeOf_lt e.base
      simp only [Reg.epClass]
      omega
    unfold Ctl.extPassed
    rw [Ctl.reg_wr_ne _ _ _ _ ha, Ctl.reg_wr_ne _ _ _ _ ha, Ctl.reg_wr_ne _ _ _ _ ha]
  have htray : ((c.extPassed i k).withKeys x n).isTray (nodeOf e.base) = c.isTray (nodeOf e.base) := Ctl.isTray_congr hreg
  rw [hkey, Ctl.farExt, htray]
  rfl

theorem extInstall_completes (i : Fin 65536) (s : State) :
    let e := s.ctl.stagedExt.1
    let far := isNode e.base && s.ctl.isTray (nodeOf e.base) && (s.ctl.ep (nodeOf e.base)).live
    s.ctl.mainUp = true → s.ctl.rd Reg.extBusy = 0 → s.ctl.extErrOf i.val e = 0 → Completes (.extInstall i) s (fun t =>
    t.ctl.ext i.val = { e with st := if far then .pending else .active } ∧ t.ctl.rd Reg.extBusy = b2n far ∧ t.ctl.rd Reg.extErr = 0
    ∧ (∀ j, j ≠ i.val → t.ctl.ext j = s.ctl.ext j) ∧ t.ctl.opens = s.ctl.opens ∧ t.ctl.tier = s.ctl.tier ∧ Keeps s t) := by
  obtain ⟨e, k, hstaged⟩ : ∃ e k, s.ctl.stagedExt = (e, k) := ⟨_, _, rfl⟩
  rw [hstaged]
  intro e' far hmain hidle herr
  have hrun := Ctl.extInstall_ok hstaged hidle herr
  rw [Ctl.farExt_passed] at hrun
  obtain ⟨x, n, hkey⟩ := (s.ctl.extPassed i.val k).keyFor_spec e
  obtain ⟨hpassErr, hpassBusy⟩ := s.ctl.rd_extPassed i.val k
  rw [hkey] at hrun
  have hexec : exec (.extInstall i) s = done (s.onCtl (·.extInstall i.val)) := congrArg done (State.whenMain_on s _ hmain)
  cases hfar : s.ctl.farExt e with
  | true =>
    have hfar' : far = true := hfar
    rw [hfar, if_pos rfl] at hrun
    have hsent := Ctl.sends_sendExtSync ((((s.ctl.extPassed i.val k).withKeys x n).putExt i.val { e with st := .pending }).wr Reg.extBusy 1) i.val true
    have hext : ∀ j, Ctl.ext _ j = _ := fun j => (congrArg (fun t : Tab Extent => t.get j Extent.init) hsent.exts :)
    refine Completes.onCtl hexec hrun ⟨?_, ?_, ?_, fun j hj => ?_, hsent.opens, hsent.tier, rfl, rfl⟩
    · rw [hfar', if_pos rfl]
      exact (hext i.val).trans (Ctl.ext_putExt ((s.ctl.extPassed i.val k).withKeys x n) i.val _)
    · rw [hfar']
      exact (hsent.rd _ (by decide)).trans (Ctl.rd_wr_fits _ Reg.extBusy 1 (by decide) (by decide))
    · exact (hsent.rd _ (by decide)).trans ((Ctl.rd_wr_apart _ Reg.extBusy Reg.extErr 1 (by decide) (by decide)).trans hpassErr)
    · exact (hext j).trans (Ctl.ext_putExt_ne ((s.ctl.extPassed i.val k).withKeys x n) i.val _ j hj)
  | false =>
    have hfar' : far = false := hfar
    rw [hfar, if_neg (by decide)] at hrun
    refine Completes.onCtl hexec hrun ⟨?_, ?_, hpassErr, fun j hj => ?_, rfl, rfl, rfl, rfl⟩
    · rw [hfar', if_neg (by decide)]
      exact Ctl.ext_putExt ((s.ctl.extPassed i.val k).withKeys x n) i.val _
    · rw [hfar']
      exact hpassBusy.trans hidle
    · exact Ctl.ext_putExt_ne ((s.ctl.extPassed i.val k).withKeys x n) i.val _ j hj

/-- Settles O22. An entry that is emptied loses its pages, its record and then sends REVOKE_DONE; whatever the loss of a backing extent's
pages does, no EVSEQ goes back. It rests on log entries 21 and 30, as the statement says. -/
theorem extentCommands : Obligations.ExtentCommands := by
  unfold Obligations.ExtentCommands
  exact ⟨extInstall_completes, extRevoke_completes, revokeDrained_completes, revokeTimeout_completes⟩

end Sys2Proof.Machine

namespace Sys2Proof.Machine

/-! ### Beats (R455-R458) -/

theorem Ctl.sendFrame_nowhere {c : Ctl} {f : Frame} (h : c.pathFor f.src.toNat f.dst.toNat f.tc.toNat = none) : c.sendFrame f = c := by
  simp only [Ctl.sendFrame, h]

theorem Ctl.sendFrame_takenIn {c d : Ctl} {f : Frame} {k : Nat} (hpath : c.pathFor f.src.toNat f.dst.toNat f.tc.toNat = some k)
    (htake : c.takeIn (portQueue (k / 4) f.tc.toNat) (k % 4) f = some d) : c.sendFrame f = d := by
  simp only [Ctl.sendFrame, hpath, htake]

theorem beatSend_one_completes (e k : Nat) (s : State) (d : Ctl) (hmain : s.ctl.mainUp = true) (hlive : s.ctl.liveList = [e])
    (hpath : s.ctl.pathFor 0xFFF (BitVec.ofNat 12 e).toNat 0 = some k)
    (htake : s.ctl.takeIn (portQueue (k / 4) 0) (k % 4) (beatFrame e 0 0 0 0 (s.ctl.rd Reg.plbBeat)) = some d) :
    Completes .beatSend s (fun t => t = { s with ctl := d }) := by
  have hsend : s.ctl.sendBeats = d := by
    unfold Ctl.sendBeats
    rw [hlive]
    exact Ctl.sendFrame_takenIn (f := beatFrame e 0 0 0 0 (s.ctl.rd Reg.plbBeat)) hpath htake
  exact Completes.onCtl (congrArg done (State.whenMain_on s _ hmain)) hsend rfl

theorem beatSend_none_completes (s : State) (hmain : s.ctl.mainUp = true) (hpath : ∀ e, s.ctl.pathFor 0xFFF e 0 = none) :
    Completes .beatSend s (fun t => t = s) := by
  have hsend : s.ctl.sendBeats = s.ctl :=
    List.foldlRecOn (motive := fun d => d = s.ctl) s.ctl.liveList _ rfl (fun d hd e _ => by
      rw [hd]
      exact Ctl.sendFrame_nowhere (f := beatFrame e 0 0 0 0 (s.ctl.rd Reg.plbBeat)) (hpath _))
  exact Completes.unchanged (congrArg done (State.whenMain_on s _ hmain)) hsend

/-- An endpoint that has shown life (R457). -/
def Endpoint.beaten (x : Endpoint) (now run : Nat) : Endpoint :=
  { x with lastBeat := now, run := run, plumb := .alive, winAt := none, queried := [] }

/-- Plumb's reports wait in the collector queue while it has room. -/
theorem Ctl.report_plumb {c : Ctl} (h : c.err.queue.length < 255) (ep what : Nat) :
    ∃ e, c.report (plumbRep ep what) = c.setErr e ∧ ∃ b, { plumbRep ep what with first := b } ∈ e.queue :=
  Ctl.report_waits (Nat.lt_succ_of_lt h) rfl

/-- Evidence of life: the endpoint's record, and a report where it was SUSPECT. -/
theorem Ctl.beatTaken_spec {c : Ctl} {ep : Nat} (hlive : (c.ep ep).live = true) (hroom : c.err.queue.length < 255) : ∃ e,
    c.beatTaken ep = (c.putEp ep ((c.ep ep).beaten c.now 0)).setErr e
    ∧ ((c.ep ep).plumb = .suspect → ∃ b, { plumbRep ep 1 with first := b } ∈ e.queue) ∧ ((c.ep ep).plumb ≠ .suspect → e = c.err) := by
  unfold Ctl.beatTaken
  dsimp only
  rw [if_neg (by simp [hlive])]
  by_cases hsus : (c.ep ep).plumb = .suspect
  · obtain ⟨e, he, hq⟩ := Ctl.report_plumb (c := c.putEp ep ((c.ep ep).beaten c.now 0)) hroom ep 1
    exact ⟨e, (if_pos hsus).trans he, fun _ => hq, fun h => absurd hsus h⟩
  · exact ⟨c.err, if_neg hsus, fun h => absurd h hsus, fun _ => rfl⟩

theorem Ctl.liveInc_live {c : Ctl} {ep : Nat} {inc : BitVec 8} (h : c.liveInc ep inc = true) : (c.ep ep).live = true :=
  (Bool.and_eq_true_iff.mp h).1

theorem beat_completes (f : Frame) (s : State) :
    let x := s.ctl.ep f.src.toNat
    s.ctl.mainUp = true → f.kind = kBeat → f.dst = 0xFFF → field f.addr.toNat 0 2 ≠ 3 → field f.addr.toNat 0 2 ≠ 1 → s.ctl.liveInc f.src.toNat f.inc = true → LogRoom s →
    Completes (.beat f) s (fun t =>
    t.ctl.ep f.src.toNat = { x with lastBeat := s.ctl.now, run := 0, plumb := .alive, winAt := none, queried := [] }
    ∧ (∀ e, e ≠ f.src.toNat → t.ctl.ep e = s.ctl.ep e) ∧ (x.plumb = .suspect → Logged t (plumbRep f.src.toNat 1)) ∧ (x.plumb ≠ .suspect → t.ctl.err = s.ctl.err)
    ∧ Only s t (fun c => { c with eps := t.ctl.eps, err := t.ctl.err })) := by
  intro x hmain hkind hdst hreport hprobe hinc hroom
  obtain ⟨e, htaken, hsus, hquiet⟩ := Ctl.beatTaken_spec (Ctl.liveInc_live hinc) hroom
  have hrun : s.ctl.beatFrom f (· ≠ 3) = s.ctl.beatTaken f.src.toNat := by
    have hlt : field f.addr.toNat 0 2 < 4 := Nat.mod_lt _ (by decide)
    have htype : field f.addr.toNat 0 2 = 0 ∨ field f.addr.toNat 0 2 = 2 := by omega
    unfold Ctl.beatFrom Ctl.takeBeat
    rw [if_neg (by simp [hkind, hdst, hreport]), if_neg (by simp [hinc])]
    dsimp only
    obtain h | h := htype <;> simp only [h]
  exact Completes.onCtl (congrArg done (State.whenMain_on s _ hmain)) (hrun.trans htaken)
    ⟨Ctl.ep_putEp s.ctl _ _, fun j hj => Ctl.ep_putEp_ne s.ctl _ _ j hj, hsus, hquiet, rfl⟩

theorem mgmtBeat_completes (g : MgmtBeat) (s : State) :
    let e := g.ep.toNat
    let x := s.ctl.ep e
    s.ctl.mainUp = true → e < 0xFFF → s.ctl.rd (Reg.plbMgmt e) = 1 → g.udpPort.toNat = s.ctl.rd Reg.plbPort → g.restZero = true → g.kind.toNat ≤ 1 →
    g.srcAddr.toNat = (s.ctl.reg (Reg.plbAddrHi e)).toNat * 2 ^ 64 + (s.ctl.reg (Reg.plbAddrLo e)).toNat → s.ctl.liveInc e g.inc = true → LogRoom s → Completes (.mgmtBeat g) s (fun t =>
    t.ctl.ep e = { x with lastBeat := s.ctl.now, run := 0, plumb := .alive, winAt := none, queried := [] } ∧ (∀ j, j ≠ e → t.ctl.ep j = s.ctl.ep j)
    ∧ (x.plumb = .suspect → Logged t (plumbRep e 1)) ∧ Only s t (fun c => { c with eps := t.ctl.eps, err := t.ctl.err })) := by
  intro e x hmain hep hmgmt hport hrest hkind haddr hinc hroom
  obtain ⟨r, htaken, hsus, -⟩ := Ctl.beatTaken_spec (Ctl.liveInc_live hinc) hroom
  have hrun : s.ctl.mgmtBeat g = s.ctl.beatTaken e := by
    unfold Ctl.mgmtBeat
    exact if_pos (by
      simp only [Bool.and_eq_true, decide_eq_true_eq]
      exact ⟨⟨⟨⟨⟨⟨hep, hmgmt⟩, hport⟩, hrest⟩, hkind⟩, haddr⟩, hinc⟩)
  exact Completes.onCtl (congrArg done (State.whenMain_on s _ hmain)) (hrun.trans htaken)
    ⟨Ctl.ep_putEp s.ctl _ _, fun j hj => Ctl.ep_putEp_ne s.ctl _ _ j hj, hsus, rfl⟩

theorem peerReport_completes (f : Frame) (s : State) :
    let e := field f.addr.toNat 4 12
    let x := s.ctl.ep e
    s.ctl.mainUp = true → f.kind = kBeat → f.dst = 0xFFF → field f.addr.toNat 0 2 = 3 → field f.addr.toNat 2 2 = 1 → s.ctl.liveInc f.src.toNat f.inc = true →
    x.live = true → x.inc = BitVec.ofNat 8 (field f.addr.toNat 16 8) → x.plumb = .suspect → f.src.toNat ∈ x.queried → x.run < 2 → LogRoom s →
    Completes (.peerReport f) s (fun t =>
    t.ctl.ep e = { x with lastBeat := s.ctl.now, run := x.run + 1, plumb := .alive, winAt := none, queried := [] } ∧ (∀ j, j ≠ e → t.ctl.ep j = s.ctl.ep j)
    ∧ Logged t (plumbRep e 2) ∧ (t.ctl.reg Reg.plbPeerClears).toNat = min ((s.ctl.reg Reg.plbPeerClears).toNat + 1) (2 ^ 64 - 1) ∧ RegsBut [Reg.plbPeerClears] s t
    ∧ Only s t (fun c => { c with eps := t.ctl.eps, err := t.ctl.err, regs := t.ctl.regs })) := by
  intro e x hmain hkind hdst hptype hpsub hinc hlive hxinc hsus hqueried hrun hroom
  obtain ⟨r, hrep, hq⟩ := Ctl.report_plumb (c := s.ctl.putEp e (x.beaten s.ctl.now (x.run + 1))) hroom e 2
  have halive : s.ctl.peerAlive f.src.toNat e (BitVec.ofNat 8 (field f.addr.toNat 16 8))
      = ((s.ctl.putEp e (x.beaten s.ctl.now (x.run + 1))).setErr r).bump Reg.plbPeerClears := by
    have hheard : ¬ ((!x.live || x.inc ≠ BitVec.ofNat 8 (field f.addr.toNat 16 8) || x.plumb ≠ .suspect || !x.queried.contains f.src.toNat
        || 2 ≤ x.run) = true) := by simp [hlive, hxinc, hsus, hqueried, hrun]
    unfold Ctl.peerAlive
    exact (if_neg hheard).trans (congrArg (fun c : Ctl => c.bump Reg.plbPeerClears) hrep)
  have hfrom : s.ctl.beatFrom f (· == 3) = s.ctl.peerAlive f.src.toNat e (BitVec.ofNat 8 (field f.addr.toNat 16 8)) := by
    unfold Ctl.beatFrom Ctl.takeBeat
    rw [if_neg (by simp [hkind, hdst, hptype]), if_neg (by simp [hinc])]
    simp only [hptype, hpsub, if_true]
    rfl
  exact Completes.onCtl (congrArg done (State.whenMain_on s _ hmain)) (hfrom.trans halive)
    ⟨Ctl.ep_putEp s.ctl _ _, fun j hj => Ctl.ep_putEp_ne s.ctl _ _ j hj, hq,
      Ctl.reg_bump_same ((s.ctl.putEp e (x.beaten s.ctl.now (x.run + 1))).setErr r) Reg.plbPeerClears,
      fun a ha => Ctl.reg_bumpBy_ne ((s.ctl.putEp e (x.beaten s.ctl.now (x.run + 1))).setErr r) _ 1 a (List.ne_of_not_mem_cons ha), rfl⟩

theorem evict_refused_completes (sid : Nat) (e : BitVec 12) (s : State) (hrun : s.ctl.jmpRuns sid 0x20 = true) (hmain : s.ctl.mainUp = true)
    (hgone : e = 0xFFF ∨ (s.ctl.ep e.toNat).live = false) : Completes (.evict sid e) s (fun t => JustAnswered s t sid rREFUSED) := by
  have hexec : exec (.evict sid e) s = done { s with ctl := s.ctl.reply sid (ans rREFUSED) } := by
    show done (s.jmp sid 0x20 _) = _
    rw [State.jmp_runs hrun, if_neg (by simp [hmain]), if_pos (by simpa using hgone)]
    rfl
  exact Completes.of_done hexec ⟨Answered.of_reply (a := ans rREFUSED) hrun rfl rfl rfl,
    (congrArg (fun c : Ctl => { s with ctl := c }) (s.ctl.reply_same sid (ans rREFUSED)) :)⟩

end Sys2Proof.Machine

namespace Sys2Proof.Machine

/-! ### A suspicion (R457, R458) -/

theorem Ctl.Sends.foldl {α : Type} {f : Ctl → α → Ctl} (hf : ∀ (c : Ctl) a, c.Sends (f c a)) (l : List α) (c : Ctl) : c.Sends (l.foldl f c) :=
  List.foldlRecOn (motive := c.Sends) l f (.refl c) (fun _ h a _ => h.trans (hf _ a))

theorem Ctl.Sends.ep {c d : Ctl} (h : c.Sends d) (e : Nat) : d.ep e = c.ep e := (congrArg (fun t : Tab Endpoint => t.get e Endpoint.init) h.eps :)
theorem Ctl.Sends.err {c d : Ctl} (h : c.Sends d) : d.err = c.err := (congrArg Ctl.err h.same :)
theorem Ctl.Sends.kvRegions {c d : Ctl} (h : c.Sends d) : d.kvRegions = c.kvRegions := (congrArg Ctl.kvRegions h.same :)
theorem Ctl.Sends.out {c d : Ctl} (h : c.Sends d) : d.out = c.out := (congrArg Ctl.out h.same :)

/-- The endpoint's record when a suspicion begins. -/
def Endpoint.suspected (x : Endpoint) (now : Nat) (peers : List Nat) : Endpoint := { x with plumb := .suspect, winAt := some now, queried := peers }

/-- The control records once a suspicion is recorded, logged with collector record `r` and counted. -/
def Ctl.suspected (c : Ctl) (ep : Nat) (peers : List Nat) (r : Err) : Ctl :=
  ((c.putEp ep ((c.ep ep).suspected c.now peers)).setErr r).bump Reg.plbSuspects

/-- The PROBE on the management plane (R456). -/
def Ctl.mgmtProbe (c : Ctl) (ep : Nat) (inc : BitVec 8) : Ctl :=
  if c.rd (Reg.plbMgmt ep) = 1 && (c.ctlIsUp 0 || c.ctlIsUp 1) then
    c.emit (.beat (c.reg (Reg.plbAddrHi ep) ++ c.reg (Reg.plbAddrLo ep)) (c.rd Reg.plbPort) ep inc 2) else c

/-- A suspicion: the record, the report, the count; then PROBE on both planes and QUERY to the peers. -/
theorem Ctl.suspect_spec {c : Ctl} {ep : Nat} (hlive : (c.ep ep).live = true) (hplumb : (c.ep ep).plumb = .alive)
    (hlate : (c.ep ep).lastBeat + c.rd Reg.plbMiss * c.rd Reg.plbBeat ≤ c.now) (hroom : c.err.queue.length < 255) : ∃ r d,
    (∃ b, { plumbRep ep 0 with first := b } ∈ r.queue)
    ∧ (c.suspected ep ((c.peersOf (c.listingBays ep) ep).take (c.rd Reg.plbPeers)) r).Sends d
    ∧ (d.mgmtProbe ep (c.ep ep).inc).Sends (c.suspect ep) := by
  obtain ⟨r, hrep, hq⟩ := Ctl.report_plumb
    (c := c.putEp ep ((c.ep ep).suspected c.now ((c.peersOf (c.listingBays ep) ep).take (c.rd Reg.plbPeers)))) hroom ep 0
  refine ⟨r, _, hq, Ctl.sends_sendFrame _ (beatFrame ep 1 0 0 0 0), ?_⟩
  have hrun : c.suspect ep = ((c.peersOf (c.listingBays ep) ep).take (c.rd Reg.plbPeers)).foldl
      (fun (d : Ctl) p => d.sendFrame (beatFrame p 3 0 ep (c.ep ep).inc.toNat 0))
      (((c.suspected ep ((c.peersOf (c.listingBays ep) ep).take (c.rd Reg.plbPeers)) r).sendFrame (beatFrame ep 1 0 0 0 0)).mgmtProbe ep (c.ep ep).inc) := by
    have hgo : ¬ ((!(c.ep ep).live || (c.ep ep).plumb ≠ .alive || c.now < (c.ep ep).lastBeat + c.rd Reg.plbMiss * c.rd Reg.plbBeat) = true) := by
      simp [hlive, hplumb, hlate]
    unfold Ctl.suspect Ctl.suspected
    rw [← hrep]
    exact if_neg hgo
  rw [hrun]
  exact Ctl.Sends.foldl (fun d p => d.sends_sendFrame _) _ _

theorem Ctl.mgmtProbe_cases (c : Ctl) (ep : Nat) (inc : BitVec 8) : c.mgmtProbe ep inc = c ∨ ∃ o, c.mgmtProbe ep inc = c.emit o := by
  unfold Ctl.mgmtProbe
  split
  · exact .inr ⟨_, rfl⟩
  · exact .inl rfl

/-- The PROBE on the management plane goes out with what the registers say. -/
theorem Ctl.mgmtProbe_sends {c d : Ctl} {ep : Nat} (hreg : ∀ a, a ≠ Reg.plbSuspects → a ≠ 0x04000000 → d.reg a = c.reg a) (hep : ep < 4095)
    (hmgmt : c.rd (Reg.plbMgmt ep) = 1) (hport : c.ctlIsUp 0 = true ∨ c.ctlIsUp 1 = true) (inc : BitVec 8) :
    d.mgmtProbe ep inc = d.emit (.beat (c.reg (Reg.plbAddrHi ep) ++ c.reg (Reg.plbAddrLo ep)) (c.rd Reg.plbPort) ep inc 2) := by
  have hrd : ∀ f : Fld, f.addr ≠ Reg.plbSuspects → f.addr ≠ 0x04000000 → d.rd f = c.rd f := fun f h1 h2 => Ctl.rd_congr (hreg f.addr h1 h2)
  have hm : d.rd (Reg.plbMgmt ep) = 1 := (hrd _ (by simp only [Reg.plbMgmt, Reg.plbSuspects]; omega) (by simp only [Reg.plbMgmt]; omega)).trans hmgmt
  have hc : ∀ p, p < 2 → d.ctlIsUp p = c.ctlIsUp p := fun p hp =>
    congrArg (· == 3) (hrd (Reg.ctlState p) (by simp only [Reg.ctlState, Reg.plbSuspects]; omega) (by simp only [Reg.ctlState]; omega))
  have hup : (d.ctlIsUp 0 || d.ctlIsUp 1) = true := by
    rw [hc 0 (by decide), hc 1 (by decide)]
    exact Bool.or_eq_true_iff.mpr hport
  unfold Ctl.mgmtProbe
  rw [if_pos (by simp [hm, hup]), hrd Reg.plbPort (by decide) (by decide),
    hreg (Reg.plbAddrHi ep) (by simp only [Reg.plbAddrHi, Reg.plbSuspects]; omega) (by simp only [Reg.plbAddrHi]; omega),
    hreg (Reg.plbAddrLo ep) (by simp only [Reg.plbAddrLo, Reg.plbSuspects]; omega) (by simp only [Reg.plbAddrLo]; omega)]

theorem suspect_completes (e : Fin 4095) (s : State) :
    let x := s.ctl.ep e.val
    let peers := (s.ctl.peersOf (s.ctl.listingBays e.val) e.val).take (s.ctl.rd Reg.plbPeers)
    s.ctl.mainUp = true → x.live = true → x.plumb = .alive → x.lastBeat + s.ctl.rd Reg.plbMiss * s.ctl.rd Reg.plbBeat ≤ s.ctl.now → LogRoom s → Completes (.suspect e) s (fun t =>
    t.ctl.ep e.val = { x with plumb := .suspect, winAt := some s.ctl.now, queried := peers } ∧ (∀ j, j ≠ e.val → t.ctl.ep j = s.ctl.ep j)
    ∧ Logged t (plumbRep e.val 0) ∧ (t.ctl.reg Reg.plbSuspects).toNat = min ((s.ctl.reg Reg.plbSuspects).toNat + 1) (2 ^ 64 - 1)
    ∧ (s.ctl.rd (Reg.plbMgmt e.val) = 1 → (s.ctl.ctlIsUp 0 = true ∨ s.ctl.ctlIsUp 1 = true) →
        Sent s t (.beat (s.ctl.reg (Reg.plbAddrHi e.val) ++ s.ctl.reg (Reg.plbAddrLo e.val)) (s.ctl.rd Reg.plbPort) e.val x.inc 2))
    ∧ SameRights { s with ctl := { s.ctl with eps := t.ctl.eps } } t ∧ Keeps s t) := by
  intro x peers hmain hlive hplumb hlate hroom
  obtain ⟨r, d, ⟨b, hq⟩, hprobe, hquery⟩ := Ctl.suspect_spec hlive hplumb hlate hroom
  have hcounted : ∀ a, a ≠ Reg.plbSuspects → (s.ctl.suspected e.val peers r).reg a = s.ctl.reg a :=
    fun a ha => Ctl.reg_bumpBy_ne _ _ 1 a ha
  -- what the PROBE of the management plane and the QUERYs leave as it was
  have hkeep : (s.ctl.suspect e.val).eps = (s.ctl.suspected e.val peers r).eps ∧ (s.ctl.suspect e.val).err = r
      ∧ (s.ctl.suspect e.val).reg Reg.plbSuspects = (s.ctl.suspected e.val peers r).reg Reg.plbSuspects
      ∧ (s.ctl.suspect e.val).bays = s.ctl.bays ∧ (s.ctl.suspect e.val).exts = s.ctl.exts ∧ (s.ctl.suspect e.val).kvRegions = s.ctl.kvRegions := by
    have hreg := (hquery.reg (a := Reg.plbSuspects) (by decide))
    have hreg' := (hprobe.reg (a := Reg.plbSuspects) (by decide))
    have hall : (d.mgmtProbe e.val x.inc).eps = d.eps ∧ (d.mgmtProbe e.val x.inc).err = d.err
        ∧ (d.mgmtProbe e.val x.inc).reg Reg.plbSuspects = d.reg Reg.plbSuspects ∧ (d.mgmtProbe e.val x.inc).bays = d.bays
        ∧ (d.mgmtProbe e.val x.inc).exts = d.exts ∧ (d.mgmtProbe e.val x.inc).kvRegions = d.kvRegions := by
      obtain h | ⟨o, h⟩ := d.mgmtProbe_cases e.val x.inc <;> rw [h] <;> exact ⟨rfl, rfl, rfl, rfl, rfl, rfl⟩
    obtain ⟨h1, h2, h3, h4, h5, h6⟩ := hall
    exact ⟨hquery.eps.trans (h1.trans hprobe.eps), hquery.err.trans (h2.trans hprobe.err), hreg.trans (h3.trans hreg'),
      hquery.bays.trans (h4.trans hprobe.bays), hquery.exts.trans (h5.trans hprobe.exts), hquery.kvRegions.trans (h6.trans hprobe.kvRegions)⟩
  obtain ⟨heps, herr, hreg, hbays, hexts, hkv⟩ := hkeep
  have hep : ∀ j, (s.ctl.suspect e.val).ep j = (s.ctl.putEp e.val (x.suspected s.ctl.now peers)).ep j :=
    fun j => (congrArg (fun t : Tab Endpoint => t.get j Endpoint.init) heps :)
  refine Completes.onCtl (congrArg done (State.whenMain_on s _ hmain)) rfl
    ⟨(hep _).trans (Ctl.ep_putEp _ _ _), fun j hj => (hep j).trans (Ctl.ep_putEp_ne _ _ _ j hj), ⟨b, ?_⟩, ?_, fun hmgmt hport => ?_,
      ⟨hbays, hexts, rfl, hkv⟩, rfl, rfl⟩
  · show _ ∈ (s.ctl.suspect e.val).err.queue
    rw [herr]
    exact hq
  · show ((s.ctl.suspect e.val).reg Reg.plbSuspects).toNat = _
    rw [hreg]
    exact Ctl.reg_bump_same _ _
  · have hsent := Ctl.mgmtProbe_sends (c := s.ctl) (d := d) (fun a h1 h2 => (hprobe.reg h2).trans (hcounted a h1)) e.isLt hmgmt hport x.inc
    rw [hsent] at hquery
    exact Sent.of_append (l := [_]) (hquery.out.trans (congrArg (· ++ [_]) hprobe.out)) (List.mem_singleton_self _)

end Sys2Proof.Machine

namespace Sys2Proof.Machine

/-! ### Events leave the sessions' requests running (R480, R481) -/

/-- The session with a SID after a session's record was replaced: its own, or the new record where the SIDs agree. -/
theorem Ctl.session_putSession {c : Ctl} {x y : Session} {sid : Nat} (h : c.session? sid = some x) :
    (c.putSession y).session? sid = some (if sid = y.sid then y else x) := by
  have hsid : ∀ z : Session, ((if z.sid = y.sid then y else z).sid == sid) = (z.sid == sid) := fun z => by
    split
    · next hz => rw [hz]
    · rfl
  have hx : x.sid = sid := by
    have hfound := List.find?_some h
    simpa using hfound
  unfold Ctl.session? Ctl.putSession at *
  dsimp only
  rw [List.find?_map, show ((fun z : Session => z.sid == sid) ∘ fun z => if z.sid = y.sid then y else z) = (fun z => z.sid == sid) from funext hsid,
    h, Option.map_some, hx]

theorem Ctl.sessions_emitEvent (c : Ctl) (sid : Nat) (e : Event) : (c.emitEvent sid e).sessions = c.sessions := by
  have one : ∀ (d : Ctl) (p : Nat), (if d.ctlIsUp p then d.emit (.event sid p e) else d).sessions = d.sessions := fun d p => by
    split <;> rfl
  exact (one _ 1).trans (one c 0)

theorem Ctl.out_emitEvent (c : Ctl) (sid : Nat) (e : Event) : c.out <+: (c.emitEvent sid e).out := by
  have one : ∀ (d : Ctl) (p : Nat), d.out <+: (if d.ctlIsUp p then d.emit (.event sid p e) else d).out := fun d p => by
    split
    · exact List.prefix_append _ _
    · exact List.prefix_rfl
  exact (one c 0).trans (one _ 1)

/-- A session whose oldest events were dropped for EVENTS_LOST and a new event (R481). -/
def Session.overflowed (x : Session) (evseq now : Nat) (e : Event) : Session :=
  { x with events := x.events.drop 2 ++ [{ evseq := evseq, code := evEventsLost, args := [x.droppedEv + 2] }, e], droppedEv := 0, sentAt := now }

/-- One session takes an event: where its record had request `r` running, it has so still; no other session's record moves. -/
theorem Ctl.session_giveEvent {c : Ctl} {x y : Session} {sid : Nat} (h : c.session? sid = some x) (hy : y.sid = sid → y.running = x.running)
    (e : Event) : ∃ z, (c.giveEvent y e).session? sid = some z ∧ z.running = x.running := by
  have hput : ∀ (d : Ctl) (w : Session), d.sessions = c.sessions → w.sid = y.sid → w.running = y.running →
      ∃ z, (d.putSession w).session? sid = some z ∧ z.running = x.running := fun d w hd hw hr => by
    have hdx : d.session? sid = some x := by
      rw [← h]
      simp only [Ctl.session?, hd]
    refine ⟨_, Ctl.session_putSession hdx, ?_⟩
    split
    · next hs => exact hr.trans (hy (hw.symm.trans hs.symm))
    · rfl
  have hemit : ∀ (d : Ctl) (n : Nat) (v : Event) {z : Session}, d.session? sid = some z → (d.emitEvent n v).session? sid = some z := fun d n v z hz => by
    rw [← hz]
    simp only [Ctl.session?, Ctl.sessions_emitEvent]
  unfold Ctl.giveEvent
  split
  · exact ⟨x, h, rfl⟩
  · split
    · obtain ⟨z, hz, hr⟩ := hput c { y with events := y.events ++ [e], sentAt := c.now } rfl rfl rfl
      exact ⟨z, hemit _ _ _ hz, hr⟩
    · dsimp only
      have hkept := hput c (y.overflowed c.evseq c.now e) rfl rfl rfl
      obtain ⟨z, hz, hr⟩ := hkept
      exact ⟨z, hemit _ _ _ (hemit { c.putSession (y.overflowed c.evseq c.now e) with evseq := c.evseq + 1 } _ _ hz), hr⟩

theorem Ctl.out_giveEvent (c : Ctl) (x : Session) (e : Event) : c.out <+: (c.giveEvent x e).out := by
  unfold Ctl.giveEvent
  split
  · exact List.prefix_rfl
  · split
    · exact Ctl.out_emitEvent (c.putSession _) _ _
    · exact (Ctl.out_emitEvent { c.putSession _ with evseq := _ } _ _).trans (Ctl.out_emitEvent _ _ _)

theorem Ctl.out_event (c : Ctl) (code : Nat) (args : List Nat) : c.out <+: (c.event code args).out :=
  List.foldlRecOn (motive := fun d : Ctl => c.out <+: d.out) c.sessions _ List.prefix_rfl (fun d h x _ => h.trans (d.out_giveEvent x _))

/-- A request that runs still runs after an event, where no two sessions share a SID. -/
theorem Ctl.jmpRuns_event {c : Ctl} {sid op : Nat} (hdiffer : (c.sessions.map (fun x => x.sid)).Nodup) (h : c.jmpRuns sid op = true) (code : Nat)
    (args : List Nat) : (c.event code args).jmpRuns sid op = true := by
  obtain ⟨x, q, p, hx, hr⟩ := (c.jmpRuns_iff sid op).mp h
  have hsame : ∀ y ∈ c.sessions, y.sid = sid → y.running = x.running := fun y hy hs => by
    have hxs : x.sid = sid := by simpa using List.find?_some hx
    rw [List.inj_on_of_nodup_map hdiffer hy (List.mem_of_find?_eq_some hx) (hs.trans hxs.symm)]
  obtain ⟨z, hz, hzr⟩ := List.foldlRecOn (motive := fun d : Ctl => ∃ z, d.session? sid = some z ∧ z.running = x.running) c.sessions
    (fun d y => d.giveEvent y { evseq := c.evseq, code := code, args := args }) (b := { c with evseq := c.evseq + 1 }) ⟨x, hx, rfl⟩
    (fun d hd y hy => by
      obtain ⟨z, hz, hzr⟩ := hd
      obtain ⟨w, hw, hwr⟩ := Ctl.session_giveEvent hz (fun hs => (hsame y hy hs).trans hzr.symm) { evseq := c.evseq, code := code, args := args }
      exact ⟨w, hw, hwr.trans hzr⟩)
  exact ((c.event code args).jmpRuns_iff sid op).mpr ⟨z, q, p, hz, hzr.trans hr⟩

end Sys2Proof.Machine

namespace Sys2Proof.Machine

theorem Ctl.Sends.sessions {c d : Ctl} (h : c.Sends d) : d.sessions = c.sessions := (congrArg Ctl.sessions h.same :)

/-! ### The announcement of a retirement (R459, R465) -/

/-- What an announcement leaves alone: the records of a retirement, and the registers from Plumb's on; what it sends comes last. -/
structure Ctl.Tells (c d : Ctl) : Prop where
  eps : d.eps = c.eps
  bays : d.bays = c.bays
  peg : d.peg = c.peg
  tracker : d.tracker = c.tracker
  fences : d.fences = c.fences
  pairs : d.pairs = c.pairs
  mbxs : d.mbxs = c.mbxs
  opens : d.opens = c.opens
  doms : d.doms = c.doms
  regs : ∀ a, 0x0F800000 ≤ a → d.reg a = c.reg a
  said : c.out <+: d.out

theorem Ctl.Tells.refl (c : Ctl) : c.Tells c := ⟨rfl, rfl, rfl, rfl, rfl, rfl, rfl, rfl, rfl, fun _ _ => rfl, List.prefix_rfl⟩

theorem Ctl.Tells.trans {c d e : Ctl} (h : c.Tells d) (k : d.Tells e) : c.Tells e :=
  ⟨k.eps.trans h.eps, k.bays.trans h.bays, k.peg.trans h.peg, k.tracker.trans h.tracker, k.fences.trans h.fences, k.pairs.trans h.pairs,
    k.mbxs.trans h.mbxs, k.opens.trans h.opens, k.doms.trans h.doms, fun a ha => (k.regs a ha).trans (h.regs a ha), h.said.trans k.said⟩

theorem Ctl.tells_setErr (c : Ctl) (e : Err) : c.Tells (c.setErr e) := ⟨rfl, rfl, rfl, rfl, rfl, rfl, rfl, rfl, rfl, fun _ _ => rfl, List.prefix_rfl⟩

theorem Ctl.tells_wr (c : Ctl) (f : Fld) (v : Nat) (h : f.addr < 0x0F800000) : c.Tells (c.wr f v) :=
  ⟨rfl, rfl, rfl, rfl, rfl, rfl, rfl, rfl, rfl, fun a ha => Ctl.reg_wr_ne c f v a (by omega), List.prefix_rfl⟩

/-- A report from Plumb waits in the collector, or counts in its class's COAL registers. -/
theorem Ctl.tells_report (c : Ctl) {r : Report} (hblock : r.block = 0x17) (hcls : r.cls < 32) : c.Tells (c.report r) := by
  rw [c.report_unscored (by rw [hblock]; decide)]
  by_cases h : c.err.queue.length < 256
  · obtain ⟨e, he, -⟩ := Ctl.enqueue_room h r
    exact he ▸ c.tells_setErr e
  · obtain ⟨e, he, -⟩ := Ctl.enqueue_full h r
    have hcoal := (c.tells_wr (Reg.coalPending r.block r.cls) (min (c.rd (Reg.coalPending r.block r.cls) + 1) (2 ^ 32 - 1))
      (by simp only [Reg.coalPending, hblock]; omega)).trans (Ctl.tells_wr _ (Reg.coalTotal r.block r.cls)
        (min ((c.bumpF (Reg.coalPending r.block r.cls) 1).rd (Reg.coalTotal r.block r.cls) + 1) (2 ^ 32 - 1)) (by simp only [Reg.coalTotal, hblock]; omega))
    exact he ▸ hcoal.trans (Ctl.tells_setErr _ e)

theorem Ctl.tells_sendFrame (c : Ctl) (f : Frame) : c.Tells (c.sendFrame f) := by
  have h := c.sends_sendFrame f
  exact ⟨h.eps, h.bays, (congrArg Ctl.peg h.same :), (congrArg Ctl.tracker h.same :), (congrArg Ctl.fences h.same :), c.pairs_sendFrame f,
    (congrArg Ctl.mbxs h.same :), h.opens, (congrArg Ctl.doms h.same :), fun a ha => h.reg (by omega), h.out ▸ List.prefix_rfl⟩

theorem Ctl.tells_event (c : Ctl) (code : Nat) (args : List Nat) : c.Tells (c.event code args) := by
  have h := c.posts_event code args
  exact ⟨(congrArg Ctl.eps h.same :), (congrArg Ctl.bays h.same :), (congrArg Ctl.peg h.same :), (congrArg Ctl.tracker h.same :),
    (congrArg Ctl.fences h.same :), (congrArg Ctl.pairs h.same :), (congrArg Ctl.mbxs h.same :), (congrArg Ctl.opens h.same :),
    (congrArg Ctl.doms h.same :), fun a _ => h.reg a, c.out_event code args⟩

/-- The counter of a verdict (cause 1) or an eviction (cause 2). -/
def plbCtr (cause : Nat) : Nat := if cause = 1 then Reg.plbDead else Reg.plbEvicts

/-- The report of a retirement: EVICTED by command, else DEAD with its cause. -/
def deadReport (ep cause : Nat) : Report :=
  if cause = 2 then { rep 0x17 0x18 ep with ep := some ep } else { repInfo 0x17 0x17 ep cause with ep := some ep }

theorem deadReport_block (ep cause : Nat) : (deadReport ep cause).block = 0x17 := by
  unfold deadReport
  split <;> rfl

theorem deadReport_cls (ep cause : Nat) : (deadReport ep cause).cls < 32 := by
  unfold deadReport
  split
  · exact (by decide : 0x18 < 32)
  · exact (by decide : 0x17 < 32)

/-- What an announcement does before its event: the report, and DEAD to the peers. -/
def Ctl.announced (c : Ctl) (ep inc cause : Nat) (bays : List Nat) : Ctl :=
  ((c.report (deadReport ep cause)).peersOf bays ep).foldl (fun (d : Ctl) p => d.sendFrame (beatFrame p 3 3 ep inc 0)) (c.report (deadReport ep cause))

theorem Ctl.announce_eq {c : Ctl} {ep cause : Nat} (hcause : cause = 1 ∨ cause = 2) (hep : ep < 4096) (htray : c.isTray ep = false) (inc : Nat)
    (bays : List Nat) : c.announce ep inc cause bays
      = ((c.announced ep inc cause bays).event evPlumbDead ([ep, inc, cause] ++ bays)).bump (plbCtr cause) := by
  have hplain : ∀ r, (c.report r).isTray ep = false := fun r =>
    (Ctl.isTray_congr ((c.logs_report r).regs _ (by simp only [Reg.epClass]; omega))).trans htray
  obtain rfl | rfl := hcause
  · simp only [Ctl.announce, Ctl.announced, deadReport, plbCtr, hplain, Nat.reduceEqDiff, reduceIte, Bool.false_eq_true]
  · simp only [Ctl.announce, Ctl.announced, deadReport, plbCtr, Nat.reduceEqDiff, reduceIte]

theorem Ctl.tells_announced (c : Ctl) (ep inc cause : Nat) (bays : List Nat) : c.Tells (c.announced ep inc cause bays) :=
  List.foldlRecOn (motive := c.Tells) _ _ (c.tells_report (deadReport_block ep cause) (deadReport_cls ep cause))
    (fun d h _ _ => h.trans (d.tells_sendFrame _))

theorem Ctl.sends_announced (c : Ctl) (ep inc cause : Nat) (bays : List Nat) : (c.report (deadReport ep cause)).Sends (c.announced ep inc cause bays) :=
  Ctl.Sends.foldl (f := fun (d : Ctl) p => d.sendFrame (beatFrame p 3 3 ep inc 0)) (fun d _ => d.sends_sendFrame _) _ _

theorem Ctl.evseq_announced (c : Ctl) (ep inc cause : Nat) (bays : List Nat) : c.evseq ≤ (c.announced ep inc cause bays).evseq :=
  (c.logs_report _).evseq.trans (c.sends_announced ep inc cause bays).evseq.ge

/-- A report of a block without health scores leaves the sessions alone. -/
theorem Ctl.sessions_report (c : Ctl) {r : Report} (h : scoredBlock (if r.block = 0x0E then 0x0D else r.block) = false) :
    (c.report r).sessions = c.sessions := by
  rw [c.report_unscored h]
  by_cases hq : c.err.queue.length < 256
  · obtain ⟨e, he, -⟩ := Ctl.enqueue_room hq r
    rw [he, Ctl.setErr_sessions]
  · obtain ⟨e, he, -⟩ := Ctl.enqueue_full hq r
    rw [he, Ctl.setErr_sessions, Ctl.coalesce, Ctl.bumpF, Ctl.wr_sessions, Ctl.bumpF, Ctl.wr_sessions]

theorem Ctl.sessions_announced (c : Ctl) (ep inc cause : Nat) (bays : List Nat) : (c.announced ep inc cause bays).sessions = c.sessions := by
  rw [(c.sends_announced ep inc cause bays).sessions, c.sessions_report (by rw [deadReport_block]; decide)]

/-! ### Retirement where nothing hangs on the incarnation (R119, R169, R420) -/

/-- An endpoint's record once its incarnation is retired. -/
def Endpoint.retired (x : Endpoint) (cause : Nat) : Endpoint :=
  { x with live := false, plumb := .dead, winAt := none, queried := [], run := 0, judged := x.inc,
           verdicts := min 255 (x.verdicts + 1), cause := cause, awaitSync := [] }

/-- Nothing of a source is in a Peg or tracker entry or a fence. -/
def Ctl.forgotten (c : Ctl) (ep : Nat) : Ctl :=
  { c with peg := c.peg.filter (fun p => p.src != ep), tracker := c.tracker.filter (fun t => t.src != ep),
           fences := c.fences.filter (fun f => f.frame.src.toNat != ep) }

/-- An incarnation is struck from the maps, the endpoints, the sub-ports and what is held for its requests. -/
def Ctl.unlisted (c : Ctl) (ep cause : Nat) : Ctl :=
  (((c.markDead ep).putEp ep ((c.ep ep).retired cause)).retireOnSubs ep).forgotten ep

theorem Ctl.regs_unlisted (c : Ctl) (ep cause : Nat) : (c.unlisted ep cause).regs = c.regs := by
  have hdead : (c.markDead ep).regs = c.regs := rfl
  have hsubs : ∀ d : Ctl, (d.retireOnSubs ep).regs = d.regs := fun _ => rfl
  have hforgot : ∀ d : Ctl, (d.forgotten ep).regs = d.regs := fun _ => rfl
  rw [Ctl.unlisted, hforgot, hsubs, Ctl.putEp_regs, hdead]

/-- The control records once an incarnation is struck from all that names it. -/
def Ctl.struck (c : Ctl) (ep cause : Nat) : Ctl := ((c.unlisted ep cause).clearMbx ep).dropTransport ep

theorem Ctl.dropSource_quiet {c : Ctl} (h : c.opens = []) (ep : Nat) : c.dropSource ep = c.forgotten ep := by
  simp only [Ctl.dropSource, Ctl.forgotten, h, List.filter_nil, List.foldl_nil]

theorem Ctl.passDead_quiet {c : Ctl} (h : c.opens = []) (ep : Nat) : c.passDead ep = c := by
  simp only [Ctl.passDead, h, List.filter_nil, List.foldl_nil]

theorem State.ownsDead_quiet {s : State} (h : s.ctl.owns = []) (ep : Nat) : s.ownsDead ep = s := by
  simp only [State.ownsDead, h, List.filter_nil, List.foldl_nil]

theorem State.dependsDead_quiet {s : State} (hdoms : s.ctl.doms = []) (hcolls : s.ctl.colls = []) (hchans : s.ctl.chans = []) (ep : Nat) :
    s.dependsDead ep = s.onCtl (·.clearMbx ep) := by
  simp only [State.dependsDead, State.onCtl, hdoms, hcolls, hchans, Tab.keysWhere, List.filterMap_nil, List.filter_nil, List.foldl_nil]

/-- With no request, own request, domain, collective or channel there is nothing to end for a retired incarnation that is no tray. -/
theorem State.retire_quiet {s : State} {ep : Nat} (hlive : (s.ctl.ep ep).live = true) (hopens : s.ctl.opens = []) (howns : s.ctl.owns = [])
    (hdoms : s.ctl.doms = []) (hcolls : s.ctl.colls = []) (hchans : s.ctl.chans = []) (htray : s.ctl.isTray ep = false) (cause : Nat) :
    s.retire ep cause = s.onCtl (fun c => (c.struck ep cause).announce ep (c.ep ep).inc.toNat cause (c.listingBays ep)) := by
  unfold State.retire
  extract_lets x bays y s1 s2 s3 s4
  have hs1 : s1 = s.onCtl (·.unlisted ep cause) :=
    congrArg (fun c : Ctl => { s with ctl := c }) (Ctl.dropSource_quiet (c := ((s.ctl.markDead ep).putEp ep y).retireOnSubs ep) hopens ep)
  have hs2 : s2 = s.onCtl (·.unlisted ep cause) := by
    show (s1.onCtl (·.passDead ep)).ownsDead ep = _
    rw [hs1]
    have hpass : (s.onCtl (·.unlisted ep cause)).onCtl (·.passDead ep) = s.onCtl (·.unlisted ep cause) :=
      congrArg (fun c : Ctl => { s with ctl := c }) (Ctl.passDead_quiet (c := s.ctl.unlisted ep cause) hopens ep)
    rw [hpass]
    exact State.ownsDead_quiet (s := s.onCtl (·.unlisted ep cause)) howns ep
  have hs3 : s3 = s.onCtl (fun c => (c.unlisted ep cause).clearMbx ep) := by
    show s2.dependsDead ep = _
    rw [hs2]
    exact State.dependsDead_quiet (s := s.onCtl (·.unlisted ep cause)) hdoms hcolls hchans ep
  have hregs : ((s.ctl.unlisted ep cause).clearMbx ep).regs = s.ctl.regs := (Ctl.putMbx_regs _ _ _).trans (Ctl.regs_unlisted _ _ _)
  have hplain : ((s.ctl.unlisted ep cause).clearMbx ep).isTray ep = false :=
    (Ctl.isTray_congr (c := s.ctl) (by rw [Ctl.reg, hregs, Ctl.reg])).trans htray
  have hs4 : s4 = s3 := if_neg (by
    rw [hs3]
    exact fun h => absurd (hplain.symm.trans h) (by decide))
  rw [if_neg (by simp [x, hlive]), hs4, hs3]
  unfold State.onCtl
  rfl

theorem Ctl.struck_spec {c : Ctl} {ep cause : Nat} :
    (c.struck ep cause).eps = ((c.markDead ep).putEp ep ((c.ep ep).retired cause)).eps ∧ (c.struck ep cause).bays = (c.markDead ep).bays
    ∧ (c.struck ep cause).peg = c.peg.filter (fun p => p.src != ep) ∧ (c.struck ep cause).tracker = c.tracker.filter (fun t => t.src != ep)
    ∧ (c.struck ep cause).fences = c.fences.filter (fun f => f.frame.src.toNat != ep)
    ∧ (c.struck ep cause).pair ep = Pair.init ∧ (c.struck ep cause).mbx ep = Mbx.init :=
  ⟨rfl, rfl, rfl, rfl, rfl, Ctl.pair_putPair _ _ _, Ctl.mbx_putMbx (c.unlisted ep cause) ep Mbx.init⟩

/-- `c` with the records of `d` that name an incarnation. -/
def Ctl.withStrike (c d : Ctl) : Ctl :=
  { c with subs := d.subs, pairs := d.pairs, eps := d.eps, bays := d.bays, tracker := d.tracker, fences := d.fences, peg := d.peg, mbxs := d.mbxs }

/-- `d` is `c` with other records that name an incarnation. -/
structure Ctl.Strikes (c d : Ctl) : Prop where
  same : d = c.withStrike d

theorem Ctl.Strikes.trans {c d e : Ctl} (h : c.Strikes d) (k : d.Strikes e) : c.Strikes e :=
  ⟨k.same.trans (congrArg (fun x : Ctl => x.withStrike e) h.same :)⟩

theorem Ctl.Strikes.opens {c d : Ctl} (h : c.Strikes d) : d.opens = c.opens := (congrArg Ctl.opens h.same :)
theorem Ctl.Strikes.doms {c d : Ctl} (h : c.Strikes d) : d.doms = c.doms := (congrArg Ctl.doms h.same :)
theorem Ctl.Strikes.regs {c d : Ctl} (h : c.Strikes d) : d.regs = c.regs := (congrArg Ctl.regs h.same :)
theorem Ctl.Strikes.out {c d : Ctl} (h : c.Strikes d) : d.out = c.out := (congrArg Ctl.out h.same :)
theorem Ctl.Strikes.sessions {c d : Ctl} (h : c.Strikes d) : d.sessions = c.sessions := (congrArg Ctl.sessions h.same :)
theorem Ctl.Strikes.evseq {c d : Ctl} (h : c.Strikes d) : d.evseq = c.evseq := (congrArg Ctl.evseq h.same :)

theorem Ctl.strikes_markDead (c : Ctl) (ep : Nat) : c.Strikes (c.markDead ep) := ⟨rfl⟩
theorem Ctl.strikes_putEp (c : Ctl) (ep : Nat) (x : Endpoint) : c.Strikes (c.putEp ep x) := ⟨rfl⟩
theorem Ctl.strikes_retireOnSubs (c : Ctl) (ep : Nat) : c.Strikes (c.retireOnSubs ep) := ⟨rfl⟩
theorem Ctl.strikes_forgotten (c : Ctl) (ep : Nat) : c.Strikes (c.forgotten ep) := ⟨rfl⟩
theorem Ctl.strikes_clearMbx (c : Ctl) (ep : Nat) : c.Strikes (c.clearMbx ep) := ⟨rfl⟩
theorem Ctl.strikes_dropTransport (c : Ctl) (ep : Nat) : c.Strikes (c.dropTransport ep) := ⟨rfl⟩

theorem Ctl.strikes_struck (c : Ctl) (ep cause : Nat) : c.Strikes (c.struck ep cause) :=
  (((((c.strikes_markDead ep).trans (Ctl.strikes_putEp _ ep _)).trans (Ctl.strikes_retireOnSubs _ ep)).trans (Ctl.strikes_forgotten _ ep)).trans
    (Ctl.strikes_clearMbx _ ep)).trans (Ctl.strikes_dropTransport _ ep)

theorem Ctl.struck_opens (c : Ctl) (ep cause : Nat) : (c.struck ep cause).opens = c.opens := (c.strikes_struck ep cause).opens
theorem Ctl.struck_doms (c : Ctl) (ep cause : Nat) : (c.struck ep cause).doms = c.doms := (c.strikes_struck ep cause).doms
theorem Ctl.struck_regs (c : Ctl) (ep cause : Nat) : (c.struck ep cause).regs = c.regs := (c.strikes_struck ep cause).regs
theorem Ctl.struck_out (c : Ctl) (ep cause : Nat) : (c.struck ep cause).out = c.out := (c.strikes_struck ep cause).out
theorem Ctl.struck_sessions (c : Ctl) (ep cause : Nat) : (c.struck ep cause).sessions = c.sessions := (c.strikes_struck ep cause).sessions
theorem Ctl.struck_evseq (c : Ctl) (ep cause : Nat) : (c.struck ep cause).evseq = c.evseq := (c.strikes_struck ep cause).evseq
theorem Ctl.struck_reg (c : Ctl) (ep cause a : Nat) : (c.struck ep cause).reg a = c.reg a := by rw [Ctl.reg, Ctl.struck_regs, Ctl.reg]

/-- A map in which an endpoint is marked DEAD does not list it as LIVE. -/
theorem CMap.classOf_markDead (m : CMap) (ep : Nat) : (m.markDead ep).classOf ep = none := by
  unfold CMap.classOf CMap.markDead
  rw [Option.map_eq_none_iff, List.find?_eq_none]
  intro x hx
  obtain ⟨y, -, rfl⟩ := List.mem_map.mp hx
  by_cases hy : y.ep = ep
  · simp [hy]
  · simp [hy]

theorem Ctl.bay_markDead (c : Ctl) (ep b : Nat) :
    (c.markDead ep).bay b = { c.bay b with cur := (c.bay b).cur.map (·.markDead ep), old := (c.bay b).old.map (·.markDead ep) } := by
  unfold Ctl.bay Ctl.markDead Tab.get
  dsimp only
  rw [Tab.find?_map]
  cases c.bays.find? b <;> rfl

theorem Ctl.classOf_markDead {c : Ctl} {ep b : Nat} {m : CMap} (h : ((c.markDead ep).bay b).cur = some m ∨ ((c.markDead ep).bay b).old = some m) :
    m.classOf ep = none := by
  rw [Ctl.bay_markDead] at h
  obtain h | h := h
  all_goals
    obtain ⟨n, -, rfl⟩ := Option.map_eq_some_iff.mp h
    exact n.classOf_markDead ep

/-- What a state needs of its records for the incarnation to count as retired. -/
theorem Retired.of_struck {s t : State} {ep cause : Nat} {d : Ctl} (h : (s.ctl.struck ep cause).Tells d)
    (heps : t.ctl.eps = d.eps) (hbays : t.ctl.bays = d.bays) (hpeg : t.ctl.peg = d.peg) (htracker : t.ctl.tracker = d.tracker)
    (hfences : t.ctl.fences = d.fences) (hpairs : t.ctl.pairs = d.pairs) (hmbxs : t.ctl.mbxs = d.mbxs) (hevseq : s.ctl.evseq < t.ctl.evseq) :
    Retired s t ep cause := by
  obtain ⟨keps, kbays, kpeg, ktracker, kfences, kpair, kmbx⟩ := Ctl.struck_spec (c := s.ctl) (ep := ep) (cause := cause)
  have hep : ∀ j, t.ctl.ep j = ((s.ctl.markDead ep).putEp ep ((s.ctl.ep ep).retired cause)).ep j := fun j => by
    simp only [Ctl.ep, heps, h.eps, keps]
  have hself : t.ctl.ep ep = (s.ctl.ep ep).retired cause := (hep ep).trans (Ctl.ep_putEp _ _ _)
  have hbay : ∀ b, t.ctl.bay b = (s.ctl.markDead ep).bay b := fun b => by
    simp only [Ctl.bay, hbays, h.bays, kbays]
  refine ⟨?_, ?_, ?_, ?_, ?_, fun j hj => (hep j).trans (Ctl.ep_putEp_ne _ _ _ j hj), fun b m hm => ?_, fun p hp => ?_, fun x hx => ?_,
    fun w hw => ?_, ?_, ?_, hevseq⟩
  · rw [hself]
    rfl
  · rw [hself]
    rfl
  · rw [hself]
    rfl
  · rw [hself]
    rfl
  · rw [hself]
    rfl
  · rw [hbay b] at hm
    exact Ctl.classOf_markDead hm
  · rw [hpeg, h.peg, kpeg] at hp
    simpa using (List.mem_filter.mp hp).2
  · rw [htracker, h.tracker, ktracker] at hx
    simpa using (List.mem_filter.mp hx).2
  · rw [hfences, h.fences, kfences] at hw
    simpa using (List.mem_filter.mp hw).2
  · rw [← kpair]
    simp only [Ctl.pair, hpairs, h.pairs]
  · rw [← kmbx]
    simp only [Ctl.mbx, hmbxs, h.mbxs]

end Sys2Proof.Machine

namespace Sys2Proof.Machine

/-! ### Verdicts and evictions (R459, R461, R464) -/

/-- The control records when an incarnation has been retired and that is announced. -/
def Ctl.retiredNow (c : Ctl) (ep cause : Nat) : Ctl :=
  (c.struck ep cause).announce ep (c.ep ep).inc.toNat cause (c.listingBays ep)

/-- The announcement ends in its event and its counter; a request that ran still runs. -/
theorem Ctl.retiredNow_spec {c : Ctl} {ep cause : Nat} (hcause : cause = 1 ∨ cause = 2) (hep : ep < 4096) (htray : c.isTray ep = false) : ∃ d,
    c.retiredNow ep cause = d.bump (plbCtr cause) ∧ (c.struck ep cause).Tells d ∧ c.evseq < d.evseq
    ∧ (∀ sid op, (c.sessions.map (fun x => x.sid)).Nodup → c.jmpRuns sid op = true → d.jmpRuns sid op = true) := by
  have hplain : (c.struck ep cause).isTray ep = false := (Ctl.isTray_congr (c.struck_reg ep cause _)).trans htray
  have hsess := (Ctl.sessions_announced (c.struck ep cause) ep (c.ep ep).inc.toNat cause (c.listingBays ep)).trans (c.struck_sessions ep cause)
  refine ⟨_, Ctl.announce_eq hcause hep hplain _ _, (Ctl.tells_announced _ _ _ _ _).trans (Ctl.tells_event _ _ _), ?_, fun sid op hdiffer hrun => ?_⟩
  · rw [← c.struck_evseq ep cause]
    exact (Ctl.evseq_announced (c.struck ep cause) _ _ _ _).trans_lt (Ctl.evseq_lt_event _ _ _)
  · exact Ctl.jmpRuns_event (by rw [hsess]; exact hdiffer) ((Ctl.jmpRuns_congr hsess sid op).trans hrun) _ _

theorem Ctl.settleDoms_none {c : Ctl} (h : c.doms = []) : c.settleDoms = c := by
  simp only [Ctl.settleDoms, h, List.map_nil, List.foldl_nil]

/-- What retiring an incarnation comes to where nothing hangs on it. -/
theorem State.retireNow_quiet {s : State} {ep cause : Nat} (hlive : (s.ctl.ep ep).live = true) (hopens : s.ctl.opens = []) (howns : s.ctl.owns = [])
    (hdoms : s.ctl.doms = []) (hcolls : s.ctl.colls = []) (hchans : s.ctl.chans = []) (htray : s.ctl.isTray ep = false)
    (hcause : cause = 1 ∨ cause = 2) (hep : ep < 4096) : s.retireNow ep cause = { s with ctl := s.ctl.retiredNow ep cause } := by
  obtain ⟨d, hd, htells, -⟩ := Ctl.retiredNow_spec (c := s.ctl) hcause hep htray
  have ho : (s.ctl.retiredNow ep cause).opens = [] := by
    rw [hd]
    exact htells.opens.trans ((s.ctl.struck_opens ep cause).trans hopens)
  have hm : (s.ctl.retiredNow ep cause).doms = [] := by
    rw [hd]
    exact htells.doms.trans ((s.ctl.struck_doms ep cause).trans hdoms)
  have hretire : s.retire ep cause = { s with ctl := s.ctl.retiredNow ep cause } := State.retire_quiet hlive hopens howns hdoms hcolls hchans htray cause
  have hsettle := State.settle_quiet (s := { s with ctl := s.ctl.retiredNow ep cause }) ho
  unfold State.retireNow
  rw [hretire, hsettle]
  exact congrArg (fun c : Ctl => { s with ctl := c }) (Ctl.settleDoms_none hm)

/-- A verdict or an eviction counts once. -/
theorem Ctl.retiredNow_counts {c d : Ctl} {ep cause : Nat} (hcause : cause = 1 ∨ cause = 2) (hd : c.retiredNow ep cause = d.bump (plbCtr cause))
    (htells : (c.struck ep cause).Tells d) :
    ((c.retiredNow ep cause).reg (plbCtr cause)).toNat = min ((c.reg (plbCtr cause)).toNat + 1) (2 ^ 64 - 1) := by
  have hreg : d.reg (plbCtr cause) = c.reg (plbCtr cause) := (htells.regs _ (by obtain rfl | rfl := hcause <;> decide)).trans (c.struck_reg ep cause _)
  rw [hd, Ctl.reg_bump_same, hreg]

theorem deadVerdict_completes (e : Fin 4095) (w : Nat) (s : State) :
    let x := s.ctl.ep e.val
    s.ctl.mainUp = true → x.live = true → x.plumb = .suspect → x.winAt = some w → w + s.ctl.rd Reg.plbProbe ≤ s.ctl.now → s.ctl.pwr.mgmtReset = false →
    s.ctl.opens = [] → s.ctl.owns = [] → s.ctl.doms = [] → s.ctl.colls = [] → s.ctl.chans = [] → s.ctl.isTray e.val = false → Completes (.deadVerdict e) s (fun t =>
    Retired s t e.val 1 ∧ (t.ctl.reg Reg.plbDead).toNat = min ((s.ctl.reg Reg.plbDead).toNat + 1) (2 ^ 64 - 1) ∧ Keeps s t) := by
  intro x hmain hlive hsus hwin hlate hreset hopens howns hdoms hcolls hchans htray
  have hep : e.val < 4096 := Nat.lt_succ_of_lt e.isLt
  obtain ⟨d, hd, htells, hevseq, -⟩ := Ctl.retiredNow_spec (.inl rfl) hep htray
  have hexec : exec (.deadVerdict e) s = done { s with ctl := s.ctl.retiredNow e.val 1 } := by
    have hwin' : (s.ctl.ep e.val).winAt = some w := hwin
    have hgo : ((s.ctl.ep e.val).live && (s.ctl.ep e.val).plumb = .suspect && w + s.ctl.rd Reg.plbProbe ≤ s.ctl.now && !s.ctl.pwr.mgmtReset) = true := by
      simp only [Bool.and_eq_true, decide_eq_true_eq, Bool.not_eq_true']
      exact ⟨⟨⟨hlive, hsus⟩, hlate⟩, hreset⟩
    show done (if s.ctl.mainUp then s.deadVerdict e.val else s) = _
    unfold State.deadVerdict
    rw [if_pos hmain, ← State.retireNow_quiet hlive hopens howns hdoms hcolls hchans htray (.inl rfl) hep]
    dsimp only
    rw [hwin']
    exact congrArg done (if_pos hgo)
  refine Completes.of_done hexec ⟨Retired.of_struck htells ?_ ?_ ?_ ?_ ?_ ?_ ?_ ?_, Ctl.retiredNow_counts (.inl rfl) hd htells, rfl, rfl⟩
  all_goals
    dsimp only
    rw [hd]
  case refine_8 => exact hevseq
  all_goals rfl

/-- The answer to an operation that is sent after other things. -/
theorem Answered.of_said {s t : State} {c : Ctl} {sid op : Nat} {a : Ans} (h : c.jmpRuns sid op = true) (ho : s.ctl.out <+: c.out)
    (ht : t.ctl.out = (c.reply sid a).out) : Answered s t sid a.1 := by
  obtain ⟨port, r, hout, hr⟩ := Ctl.out_reply h a
  obtain ⟨l, hl⟩ := ho
  refine ⟨port, r, Sent.of_append (l := l ++ [.answer sid port r]) ?_ (List.mem_append_right _ (List.mem_singleton_self _)), hr⟩
  rw [ht, hout, ← hl, List.append_assoc]

theorem evict_completes (sid : Nat) (e : BitVec 12) (s : State) (hdiffer : s.sidsDiffer) (hrun : s.ctl.jmpRuns sid 0x20 = true) (hmain : s.ctl.mainUp = true)
    (he : e ≠ 0xFFF) (hlive : (s.ctl.ep e.toNat).live = true) (hopens : s.ctl.opens = []) (howns : s.ctl.owns = []) (hdoms : s.ctl.doms = [])
    (hcolls : s.ctl.colls = []) (hchans : s.ctl.chans = []) (htray : s.ctl.isTray e.toNat = false) : Completes (.evict sid e) s (fun t =>
    Retired s t e.toNat 2 ∧ Answered s t sid rOK ∧ (t.ctl.reg Reg.plbEvicts).toNat = min ((s.ctl.reg Reg.plbEvicts).toNat + 1) (2 ^ 64 - 1) ∧ Keeps s t) := by
  obtain ⟨d, hd, htells, hevseq, hruns⟩ := Ctl.retiredNow_spec (.inr rfl) e.isLt htray
  have hexec : exec (.evict sid e) s = done { s with ctl := (s.ctl.retiredNow e.toNat 2).reply sid (ans rOK) } := by
    show done (s.jmp sid 0x20 _) = _
    rw [State.jmp_runs hrun, if_neg (by simp [hmain]), if_neg (by simpa [hlive] using he),
      State.retireNow_quiet hlive hopens howns hdoms hcolls hchans htray (.inr rfl) e.isLt]
    rfl
  have hsame := (s.ctl.retiredNow e.toNat 2).reply_same sid (ans rOK)
  refine Completes.of_done hexec ⟨Retired.of_struck htells ?_ ?_ ?_ ?_ ?_ ?_ ?_ ?_, ?_, ?_, rfl, rfl⟩
  case refine_9 =>
    exact Answered.of_said (a := ans rOK) (c := s.ctl.retiredNow e.toNat 2) (by rw [hd]; exact hruns sid 0x20 hdiffer hrun) (by rw [hd]; exact s.ctl.struck_out e.toNat 2 ▸ htells.said) rfl
  case refine_10 =>
    refine Eq.trans ?_ (Ctl.retiredNow_counts (.inr rfl) hd htells)
    exact congrArg BitVec.toNat (congrArg (fun x : Ctl => x.reg Reg.plbEvicts) hsame :)
  all_goals
    dsimp only
    rw [hsame, hd]
  case refine_8 => exact hevseq
  all_goals rfl

/-- Settles O48. Evidence of life is a write of the endpoint's record and a report; a retirement strikes the incarnation from every record that
names it, and its announcement leaves those records as they then are. It rests on log entry 116, as the statement says. -/
theorem plumb : Obligations.Plumb := by
  unfold Obligations.Plumb
  exact ⟨beatSend_one_completes, beatSend_none_completes, beat_completes, mgmtBeat_completes, peerReport_completes, suspect_completes,
    deadVerdict_completes, evict_completes, evict_refused_completes⟩

end Sys2Proof.Machine

namespace Sys2Proof.Machine

/-! ### What leaves bays, extents and endpoints alone -/

/-- Bays, extents, endpoints and open requests stand, the registers of chapter 5 too, and no EVSEQ is taken back. -/
structure Ctl.Steady (c d : Ctl) : Prop where
  bays : d.bays = c.bays
  exts : d.exts = c.exts
  eps : d.eps = c.eps
  opens : d.opens = c.opens
  evseq : c.evseq ≤ d.evseq
  regs : ∀ a, 0x05000000 ≤ a → a < 0x06000000 → d.reg a = c.reg a

theorem Ctl.Steady.refl (c : Ctl) : c.Steady c := ⟨rfl, rfl, rfl, rfl, le_refl _, fun _ _ _ => rfl⟩

theorem Ctl.Steady.trans {c d e : Ctl} (h : c.Steady d) (k : d.Steady e) : c.Steady e :=
  ⟨k.bays.trans h.bays, k.exts.trans h.exts, k.eps.trans h.eps, k.opens.trans h.opens, h.evseq.trans k.evseq,
    fun a h1 h2 => (k.regs a h1 h2).trans (h.regs a h1 h2)⟩

theorem Ctl.Steady.foldl {α : Type} {f : Ctl → α → Ctl} (hf : ∀ (c : Ctl) a, c.Steady (f c a)) (l : List α) (c : Ctl) : c.Steady (l.foldl f c) :=
  List.foldlRecOn (motive := c.Steady) l f (.refl c) (fun _ h a _ => h.trans (hf _ a))

theorem Ctl.Sends.steady {c d : Ctl} (h : c.Sends d) : c.Steady d :=
  ⟨h.bays, h.exts, h.eps, h.opens, h.evseq.ge, fun _ h1 _ => h.reg (by omega)⟩

theorem Ctl.Answers.steady {c d : Ctl} (h : c.Answers d) : c.Steady d :=
  ⟨h.bays, h.exts, h.moves.eps, h.moves.opens, h.evseq.ge, fun a h1 h2 =>
    h.regs a (by omega) (by simp only [Reg.memPoisonRsp]; omega) (by simp only [Reg.memMalformed]; omega)⟩

theorem Ctl.Posts.steady {c d : Ctl} (h : c.Posts d) : c.Steady d :=
  ⟨(congrArg Ctl.bays h.same :), (congrArg Ctl.exts h.same :), (congrArg Ctl.eps h.same :), (congrArg Ctl.opens h.same :), h.evseq, fun a _ _ => h.reg a⟩

theorem Ctl.steady_wr (c : Ctl) (f : Fld) (v : Nat) (h : 0x06000000 ≤ f.addr) : c.Steady (c.wr f v) :=
  ⟨rfl, rfl, rfl, rfl, le_refl _, fun a _ h2 => Ctl.reg_wr_ne c f v a (by omega)⟩

theorem Ctl.steady_bump (c : Ctl) (a : Nat) (h : 0x06000000 ≤ a) : c.Steady (c.bump a) :=
  ⟨rfl, rfl, rfl, rfl, le_refl _, fun b _ h2 => Ctl.reg_bumpBy_ne c a 1 b (by omega)⟩

theorem Ctl.steady_endFence (c : Ctl) (w : FenceWait) (status detail : Byte) (addr : Word) : c.Steady (c.endFence w status detail addr) :=
  Ctl.Steady.trans (d := { c with fences := c.fences.filter (fun (x : FenceWait) => x.id != w.id) })
    ⟨rfl, rfl, rfl, rfl, le_refl _, fun _ _ _ => rfl⟩ (Ctl.answers_answer _ _ _ _ _ _ _ _ _).steady

/-! ### Collectives that fail (R273) -/

theorem Ctl.steady_putInst (c : Ctl) (q : Nat) (x : QInst) : c.Steady (c.putInst q x) := ⟨rfl, rfl, rfl, rfl, le_refl _, fun _ _ _ => rfl⟩

theorem Ctl.steady_rsaGive (c : Ctl) (bay holder : Nat) : c.Steady (c.rsaGive bay holder) := ⟨rfl, rfl, rfl, rfl, le_refl _, fun _ _ _ => rfl⟩

theorem Ctl.steady_onPosts (c : Ctl) (k : Coll) (f : CollPost → QInst → QInst) : c.Steady (c.onPosts k f) := by
  refine Ctl.Steady.foldl (fun d p => ?_) k.posts c
  split
  · split
    · exact .refl d
    · exact d.steady_putInst _ _
  · exact .refl d

theorem Ctl.steady_failColl (c : Ctl) (k : Coll) (status detail : Byte) : c.Steady (c.failColl k status detail) := by
  unfold Ctl.failColl
  extract_lets k' c1 c2
  have hcolls : c.Steady c2 := ⟨rfl, rfl, rfl, rfl, le_refl _, fun _ _ _ => rfl⟩
  clear_value c2
  exact (hcolls.trans (c2.steady_onPosts k' _)).trans (Ctl.steady_rsaGive _ _ _)

theorem Ctl.steady_remapColls (c : Ctl) (bay : Nat) (m : CMap) : c.Steady (c.remapColls bay m) :=
  Ctl.Steady.foldl (fun d k => d.steady_failColl k stREMAP dNONE) _ c

/-! ### Domains that go on (R181, R198) -/

theorem Ctl.steady_putDom (c : Ctl) (d : Nat) (m : Domain) : c.Steady (c.putDom d m) := ⟨rfl, rfl, rfl, rfl, le_refl _, fun _ _ _ => rfl⟩
theorem Ctl.steady_putEnt (c : Ctl) (x : DirEnt) : c.Steady (c.putEnt x) := ⟨rfl, rfl, rfl, rfl, le_refl _, fun _ _ _ => rfl⟩

theorem Ctl.steady_homeMsg (c : Ctl) (kind : BitVec 8) (bay ep : Nat) (addr : Word) (tag : BitVec 16) (status detail : Byte) (payload : List Byte)
    (grant : Option Nat) : c.Steady (c.homeMsg kind bay ep addr tag status detail payload grant) := (c.sends_sendSeq _ _ _).steady

theorem Ctl.steady_startTrans (c : Ctl) (e : DirEnt) (why : TransFor) (except : Option Nat) (fwd : Bool) (tag : BitVec 16) :
    c.Steady (c.startTrans e why except fwd tag) := by
  unfold Ctl.startTrans
  extract_lets d bay a tr
  have howner : ∀ (kind : BitVec 8) (n : Nat), 0x06000000 ≤ n →
      c.Steady (((c.putEnt { e with trans := some (tr [e.owner]) }).homeMsg kind bay (d.epOf e.owner) a tag 0 0 [] none).bump n) := fun kind n hn =>
    ((c.steady_putEnt _).trans (Ctl.steady_homeMsg _ _ _ _ _ _ _ _ _ _)).trans (Ctl.steady_bump _ _ hn)
  cases e.st with
  | I => exact c.steady_putEnt _
  | S =>
    exact (c.steady_putEnt _).trans (Ctl.Steady.foldl (fun x k => (x.steady_homeMsg _ _ _ _ _ _ _ _ _).trans (Ctl.steady_bump _ _ (by decide))) _ _)
  | E | M =>
    dsimp only
    split
    · exact howner kFwd _ (by decide)
    · exact howner kRecall _ (by decide)

theorem Ctl.steady_notePeak (c : Ctl) (set : Nat) : c.Steady (c.notePeak set) := by
  unfold Ctl.notePeak
  dsimp only
  split
  · exact c.steady_wr _ _ (by decide)
  · exact .refl c

theorem Ctl.steady_removeCopy (c : Ctl) (slot : Nat) (e : DirEnt) : c.Steady (c.removeCopy slot e) := by
  unfold Ctl.removeCopy
  split
  · exact .refl c
  · split
    · exact (((c.steady_putEnt _).trans (Ctl.steady_homeMsg _ _ _ _ _ _ _ _ _ _)).trans (Ctl.steady_bump _ _ (by decide))).trans (Ctl.steady_notePeak _ _)
    · exact (c.steady_startTrans e .removal none false 0).trans (Ctl.steady_notePeak _ _)

theorem Ctl.steady_removeAgent (c : Ctl) (d slot : Nat) : c.Steady (c.removeAgent d slot) := by
  unfold Ctl.removeAgent
  dsimp only
  split
  · exact c.steady_putDom _ _
  · exact Ctl.Steady.foldl (fun x e => x.steady_removeCopy slot e) _ c

theorem Ctl.steady_settleDom (c : Ctl) (d : Nat) : c.Steady (c.settleDom d) := by
  unfold Ctl.settleDom
  dsimp only
  split
  · exact Ctl.Steady.foldl (fun x (a : Nat × Nat) => x.steady_removeAgent d a.1) _ c
  · refine Ctl.Steady.foldl (fun x e => ?_) _ c
    split
    · exact .refl x
    · exact (x.steady_startTrans e .removal none false 0).trans (Ctl.steady_notePeak _ _)
  · exact .refl c

theorem Ctl.steady_settleDoms (c : Ctl) : c.Steady c.settleDoms := Ctl.Steady.foldl Ctl.steady_settleDom _ c

/-! ### Request-state areas (R309) -/

theorem Ctl.allots_rsaGroup (bay : Nat) (t : Tier) (n : Nat) : ∀ (c : Ctl) (ban : List Nat) (ls ls' : List Loc) (d : Ctl),
    c.rsaGroup bay t n ban ls = some (ls', d) → c.Allots d := by
  induction n with
  | zero =>
    intro c ban ls ls' d h
    cases h
    exact .refl c
  | succ n ih =>
    intro c ban ls ls' d h
    unfold Ctl.rsaGroup at h
    split at h
    · cases h
    · next l e he => exact (Ctl.allots_allocLoc he).trans (ih _ _ _ _ _ h)

theorem Ctl.allots_rsaExtend (bay fuel : Nat) : ∀ c : Ctl, c.Allots (c.rsaExtend bay fuel) := by
  induction fuel with
  | zero => exact fun c => .refl c
  | succ fuel ih =>
    intro c
    unfold Ctl.rsaExtend
    extract_lets r t m n
    split
    · exact .refl c
    · split
      · exact .refl c
      · next ls d hfound =>
        have hd : c.Allots d := by
          split at hfound
          · obtain ⟨⟨l, e⟩, he, heq⟩ := Option.map_eq_some_iff.mp hfound
            cases heq
            exact Ctl.allots_allocLoc he
          · exact Ctl.allots_rsaGroup bay t n c [] [] ls d hfound
        exact (hd.trans (d.pageWork_putRsa bay _).allots).trans (ih _)

end Sys2Proof.Machine

namespace Sys2Proof.Machine

/-! ### The old map goes (R141, R142) -/

/-- A bay's record without its old map. -/
def BayRec.retired (b : BayRec) : BayRec := { b with old := none }

/-- What retiring a bay's old map leaves: the bay without it; extents, endpoints and the registers of chapter 5 stand; the event went out. -/
structure Ctl.MapGone (bay : Nat) (c d : Ctl) : Prop where
  bays : d.bays = (c.putBay bay (c.bay bay).retired).bays
  exts : d.exts = c.exts
  opens : d.opens = []
  evseq : c.evseq < d.evseq
  regs : ∀ a, 0x05000000 ≤ a → a < 0x06000000 → d.reg a = c.reg a

/-- The fences of a bay's old generation are answered REMAP. -/
def Ctl.remapFences (c : Ctl) (bay : Nat) (gen : BitVec 16) (addr : Word) : Ctl :=
  (c.oldFences bay gen).foldl (fun (d : Ctl) (w : FenceWait) => d.endFence w stREMAP dNONE addr) c

/-- The old map of a bay with no open request goes: fences, then the map, then collectives, domains and the event. -/
def Ctl.dropOldMap (c : Ctl) (bay : Nat) (old cur : CMap) (addr : Word) : Ctl :=
  ((((c.remapFences bay old.gen addr).putBay bay { (c.remapFences bay old.gen addr).bay bay with old := none }).remapColls bay cur).settleDoms).event
    evCmpRetired [bay, cur.gen.toNat, old.gen.toNat]

theorem Ctl.mapGone_dropOldMap {c : Ctl} (hopens : c.opens = []) (bay : Nat) (old cur : CMap) (addr : Word) :
    c.MapGone bay (c.dropOldMap bay old cur addr) := by
  have hfences : c.Steady (c.remapFences bay old.gen addr) := Ctl.Steady.foldl (fun d (w : FenceWait) => d.steady_endFence w _ _ _) _ c
  unfold Ctl.dropOldMap
  generalize c.remapFences bay old.gen addr = d at hfences
  have hput : (d.putBay bay { d.bay bay with old := none }).bays = (c.putBay bay (c.bay bay).retired).bays := by
    simp only [Ctl.putBay, Ctl.bay, hfences.bays, BayRec.retired]
  have hafter := (Ctl.steady_remapColls (d.putBay bay { d.bay bay with old := none }) bay cur).trans (Ctl.steady_settleDoms _)
  have hpost := (Ctl.posts_event (((d.putBay bay { d.bay bay with old := none }).remapColls bay cur).settleDoms) evCmpRetired
    [bay, cur.gen.toNat, old.gen.toNat]).steady
  exact ⟨hpost.bays.trans (hafter.bays.trans hput), hpost.exts.trans (hafter.exts.trans hfences.exts),
    hpost.opens.trans (hafter.opens.trans (hfences.opens.trans hopens)), (hfences.evseq.trans hafter.evseq).trans_lt (Ctl.evseq_lt_event _ _ _),
    fun a h1 h2 => (hpost.regs a h1 h2).trans ((hafter.regs a h1 h2).trans (hfences.regs a h1 h2))⟩

theorem State.retireMap_spec {s : State} {bay : Nat} (hopens : s.ctl.opens = []) (hold : (s.ctl.bay bay).old.isSome = true)
    (hcur : (s.ctl.bay bay).cur.isSome = true) : ∃ d, s.retireMap bay = { s with ctl := d } ∧ s.ctl.MapGone bay d := by
  obtain ⟨old, hold⟩ := Option.isSome_iff_exists.mp hold
  obtain ⟨cur, hcur⟩ := Option.isSome_iff_exists.mp hcur
  have hgone := Ctl.mapGone_dropOldMap hopens bay old cur (s.ctl.bay bay).remapAddr
  refine ⟨_, ?_, hgone⟩
  rw [← State.settle_quiet (s := { s with ctl := s.ctl.dropOldMap bay old cur (s.ctl.bay bay).remapAddr }) hgone.opens]
  unfold State.retireMap
  dsimp only
  rw [hold, hcur]
  simp only [State.onCtl, Ctl.oldOpens, hopens, List.filter_nil, List.foldl_nil]
  rfl

/-- A command that only retires a bay's old map. -/
theorem retireMap_completes {i : Instr} {s : State} {b : Nat} (h : exec i s = done (s.retireMap b)) (hopens : s.ctl.opens = [])
    (hold : (s.ctl.bay b).old.isSome = true) (hcur : (s.ctl.bay b).cur.isSome = true) : Completes i s (fun t =>
    t.ctl.bay b = { s.ctl.bay b with old := none } ∧ s.ctl.evseq < t.ctl.evseq ∧ t.ctl.exts = s.ctl.exts ∧ Keeps s t) := by
  obtain ⟨d, hd, hgone⟩ := State.retireMap_spec hopens hold hcur
  refine Completes.of_done (h.trans (congrArg done hd)) ⟨?_, hgone.evseq, hgone.exts, rfl, rfl⟩
  show d.bay b = _
  rw [Ctl.bay, hgone.bays]
  exact Ctl.bay_putBay s.ctl b (s.ctl.bay b).retired

theorem oldMapRetire_completes (b : Fin 4096) (s : State) (hmain : s.ctl.mainUp = true) (hidle : s.ctl.oldInflight b.val = 0) (hopens : s.ctl.opens = [])
    (hold : (s.ctl.bay b.val).old.isSome = true) (hcur : (s.ctl.bay b.val).cur.isSome = true) : Completes (.oldMapRetire b) s (fun t =>
    t.ctl.bay b.val = { s.ctl.bay b.val with old := none } ∧ s.ctl.evseq < t.ctl.evseq ∧ t.ctl.exts = s.ctl.exts ∧ Keeps s t) :=
  retireMap_completes (congrArg done (if_pos (by simp [hmain, hidle]))) hopens hold hcur

theorem cmpGraceExpiry_completes (b : Fin 4096) (s : State) (hmain : s.ctl.mainUp = true) (hlate : (s.ctl.bay b.val).oldAt + s.ctl.rd Reg.cmpGrace ≤ s.ctl.now)
    (hopens : s.ctl.opens = []) (hold : (s.ctl.bay b.val).old.isSome = true) (hcur : (s.ctl.bay b.val).cur.isSome = true) :
    Completes (.cmpGraceExpiry b) s (fun t =>
    t.ctl.bay b.val = { s.ctl.bay b.val with old := none } ∧ s.ctl.evseq < t.ctl.evseq ∧ t.ctl.exts = s.ctl.exts ∧ Keeps s t) :=
  retireMap_completes (congrArg done (if_pos (by simp [hmain, hlate]))) hopens hold hcur

/-- CMP_STATUS of a command for a bay that passes. -/
def Ctl.cmpOk (c : Ctl) (bay : Nat) : Ctl := (c.wr Reg.cmpBay bay).wr Reg.cmpErr 0

theorem Ctl.cmpOk_bays (c : Ctl) (bay : Nat) : (c.cmpOk bay).bays = c.bays := by rw [Ctl.cmpOk, Ctl.wr_bays, Ctl.wr_bays]
theorem Ctl.cmpOk_exts (c : Ctl) (bay : Nat) : (c.cmpOk bay).exts = c.exts := by rw [Ctl.cmpOk, Ctl.wr_exts, Ctl.wr_exts]
theorem Ctl.cmpOk_opens (c : Ctl) (bay : Nat) : (c.cmpOk bay).opens = c.opens := by rw [Ctl.cmpOk, Ctl.wr_opens, Ctl.wr_opens]
theorem Ctl.cmpOk_evseq (c : Ctl) (bay : Nat) : (c.cmpOk bay).evseq = c.evseq := by rw [Ctl.cmpOk, Ctl.wr_evseq, Ctl.wr_evseq]
theorem Ctl.cmpOk_bay (c : Ctl) (bay b : Nat) : (c.cmpOk bay).bay b = c.bay b := by rw [Ctl.bay, Ctl.cmpOk_bays, Ctl.bay]
theorem Ctl.cmpErr_cmpOk (c : Ctl) (bay : Nat) : (c.cmpOk bay).rd Reg.cmpErr = 0 := Ctl.rd_wr_fits _ Reg.cmpErr 0 (by decide) (by decide)

theorem retireNow_completes (b : Fin 4096) (s : State) (hmain : s.ctl.mainUp = true) (hidle : s.ctl.rd Reg.cmpBusy = 0) (hopens : s.ctl.opens = [])
    (hold : (s.ctl.bay b.val).old.isSome = true) (hcur : (s.ctl.bay b.val).cur.isSome = true) : Completes (.retireNow b) s (fun t =>
    t.ctl.bay b.val = { s.ctl.bay b.val with old := none } ∧ t.ctl.rd Reg.cmpErr = 0 ∧ s.ctl.evseq < t.ctl.evseq ∧ t.ctl.exts = s.ctl.exts ∧ Keeps s t) := by
  obtain ⟨d, hd, hgone⟩ := State.retireMap_spec (s := { s with ctl := s.ctl.cmpOk b.val }) (bay := b.val) ((s.ctl.cmpOk_opens b.val).trans hopens)
    (by rw [Ctl.cmpOk_bay]; exact hold) (by rw [Ctl.cmpOk_bay]; exact hcur)
  have hexec : exec (.retireNow b) s = done (State.retireMap { s with ctl := s.ctl.cmpOk b.val } b.val) := by
    have herr : (if (s.ctl.bay b.val).old.isNone then 8 else 0) = 0 := if_neg (by simp [Option.isNone_iff_eq_none, Option.isSome_iff_ne_none.mp hold])
    show done (if s.ctl.mainUp then s.retireCmd b.val else s) = _
    unfold State.retireCmd
    rw [if_pos hmain, if_neg (by simp [hidle])]
    dsimp only
    rw [herr]
    rfl
  refine Completes.of_done (hexec.trans (congrArg done hd)) ⟨?_, ?_, ?_, hgone.exts.trans (s.ctl.cmpOk_exts b.val), rfl, rfl⟩
  · show d.bay b.val = _
    rw [Ctl.bay, hgone.bays]
    refine (Ctl.bay_putBay (s.ctl.cmpOk b.val) b.val _).trans ?_
    rw [Ctl.cmpOk_bay]
    rfl
  · exact (Ctl.rd_congr (hgone.regs _ (by decide) (by decide))).trans (s.ctl.cmpErr_cmpOk b.val)
  · exact s.ctl.cmpOk_evseq b.val ▸ hgone.evseq

end Sys2Proof.Machine

namespace Sys2Proof.Machine

/-! ### INSTALL of a map (R138-R141) -/

/-- A bay's record under a new map of the next generation; the current one becomes the old one. -/
def BayRec.installed (b : BayRec) (x : MapImage) (now : Nat) : BayRec :=
  { b with st := .active, gen := b.gen + 1, cur := some { gen := b.gen + 1, members := x.members, groups := x.groups }, old := b.cur, oldAt := now }

/-- The control records with the new map in the bay's record and its generation in CMP_GEN. -/
def Ctl.mapPut (c : Ctl) (bay : Nat) (x : MapImage) : Ctl :=
  ((c.cmpOk bay).putBay bay ((c.bay bay).installed x (c.cmpOk bay).now)).wr Reg.cmpGen ((c.bay bay).gen + 1).toNat

/-- The control records once a map is installed and announced. -/
def Ctl.mapSet (c : Ctl) (bay : Nat) (x : MapImage) : Ctl :=
  (c.mapPut bay x).event evCmpInstalled [bay, ((c.bay bay).gen + 1).toNat, (c.bay bay).gen.toNat]

/-- A bay that becomes ACTIVE gets its request-state area (R309). -/
def Ctl.areaFor (c d : Ctl) (bay : Nat) : Ctl := if (c.bay bay).st = .free then d.rsaExtend bay (d.rd (Reg.rsaPages bay)) else d

theorem Ctl.allots_areaFor (c d : Ctl) (bay : Nat) : d.Allots (c.areaFor d bay) := by
  unfold Ctl.areaFor
  split
  · exact Ctl.allots_rsaExtend bay _ d
  · exact .refl d

/-- What a new map leaves before the old one may go. -/
structure Ctl.MapNew (bay : Nat) (x : MapImage) (c d : Ctl) : Prop where
  bay : ∃ r, d.bay bay = { (c.bay bay).installed x (c.cmpOk bay).now with rot := r }
  exts : d.exts = c.exts
  opens : d.opens = c.opens
  evseq : c.evseq < d.evseq
  err : d.rd Reg.cmpErr = 0

theorem Ctl.bay_mapPut (c : Ctl) (bay : Nat) (x : MapImage) : (c.mapPut bay x).bay bay = (c.bay bay).installed x (c.cmpOk bay).now :=
  (congrArg (fun l : Tab BayRec => l.get bay BayRec.init) (Ctl.wr_bays _ _ _)).trans (Ctl.bay_putBay (c.cmpOk bay) bay _)

theorem Ctl.cmpErr_mapPut (c : Ctl) (bay : Nat) (x : MapImage) : (c.mapPut bay x).rd Reg.cmpErr = 0 :=
  (Ctl.rd_wr_apart _ _ _ _ (by decide) (by decide)).trans ((Ctl.putBay_rd _ _ _ _).trans (c.cmpErr_cmpOk bay))

theorem Ctl.mapNew_mapSet (c : Ctl) (bay : Nat) (x : MapImage) : c.MapNew bay x (c.areaFor (c.mapSet bay x) bay) := by
  have hpost : (c.mapPut bay x).Posts (c.mapSet bay x) := Ctl.posts_event ..
  have hlt : (c.mapPut bay x).evseq < (c.mapSet bay x).evseq := Ctl.evseq_lt_event ..
  have hallot := c.allots_areaFor (c.mapSet bay x) bay
  have hbay : (c.mapSet bay x).bay bay = (c.bay bay).installed x (c.cmpOk bay).now := by
    rw [← c.bay_mapPut bay x, Ctl.bay, hpost.steady.bays, Ctl.bay]
  refine ⟨⟨_, (hallot.bays bay).trans (by rw [hbay])⟩, ?_, ?_, ?_, ?_⟩
  · exact hallot.exts.trans (hpost.steady.exts.trans ((Ctl.wr_exts _ _ _).trans ((Ctl.putBay_exts _ _ _).trans (c.cmpOk_exts bay))))
  · exact hallot.opens.trans (hpost.steady.opens.trans ((Ctl.wr_opens _ _ _).trans ((Ctl.putBay_opens _ _ _).trans (c.cmpOk_opens bay))))
  · rw [hallot.evseq]
    exact lt_of_eq_of_lt ((Ctl.wr_evseq _ _ _).trans ((Ctl.putBay_evseq _ _ _).trans (c.cmpOk_evseq bay))).symm hlt
  · exact (Ctl.rd_congr (hallot.regs _ (by decide))).trans ((hpost.rd _).trans (c.cmpErr_mapPut bay x))

theorem State.cmpInstall_ok {s : State} {bay : Nat} (hidle : s.ctl.rd Reg.cmpBusy = 0) (herr : s.ctl.cmpErrOf bay (parseMap s.mem) = 0) :
    s.cmpInstall bay = if (s.ctl.bay bay).cur.isSome && (s.ctl.areaFor (s.ctl.mapSet bay (parseMap s.mem)) bay).oldInflight bay = 0
      then State.retireMap { s with ctl := s.ctl.areaFor (s.ctl.mapSet bay (parseMap s.mem)) bay } bay
      else { s with ctl := s.ctl.areaFor (s.ctl.mapSet bay (parseMap s.mem)) bay } := by
  have hbay := s.ctl.cmpOk_bay bay bay
  unfold State.cmpInstall
  dsimp only
  rw [if_neg (by simp [hidle]), herr, if_neg (by simp)]
  rw [← Ctl.cmpOk, hbay, ← BayRec.installed, ← Ctl.mapPut, ← Ctl.mapSet, ← Ctl.areaFor]

theorem cmpInstall_completes (b : Fin 4096) (s : State) (hmain : s.ctl.mainUp = true) (hidle : s.ctl.rd Reg.cmpBusy = 0)
    (herr : s.ctl.cmpErrOf b.val (parseMap s.mem) = 0) (hopens : s.ctl.opens = []) : Completes (.cmpInstall b) s (fun t =>
    (t.ctl.bay b.val).st = .active ∧ (t.ctl.bay b.val).gen = (s.ctl.bay b.val).gen + 1
    ∧ (t.ctl.bay b.val).cur = some { gen := (s.ctl.bay b.val).gen + 1, members := (parseMap s.mem).members, groups := (parseMap s.mem).groups }
    ∧ t.ctl.rd Reg.cmpErr = 0 ∧ s.ctl.evseq < t.ctl.evseq ∧ t.ctl.exts = s.ctl.exts ∧ Keeps s t) := by
  have hnew := s.ctl.mapNew_mapSet b.val (parseMap s.mem)
  have hexec : exec (.cmpInstall b) s = done (s.cmpInstall b.val) := congrArg done (if_pos hmain)
  rw [State.cmpInstall_ok hidle herr] at hexec
  generalize s.ctl.areaFor (s.ctl.mapSet b.val (parseMap s.mem)) b.val = c at hnew hexec
  obtain ⟨⟨r, hbay⟩, hexts, hopen, hevseq, hcmpErr⟩ := hnew
  split at hexec
  · next hgo =>
    obtain ⟨hcur, -⟩ := Bool.and_eq_true_iff.mp hgo
    obtain ⟨d, hd, hgone⟩ := State.retireMap_spec (s := { s with ctl := c }) (bay := b.val) (hopen.trans hopens) (by rw [hbay]; exact hcur) (by rw [hbay]; rfl)
    have hdbay : d.bay b.val = ({ (s.ctl.bay b.val).installed (parseMap s.mem) (s.ctl.cmpOk b.val).now with rot := r } : BayRec).retired := by
      rw [Ctl.bay, hgone.bays, ← hbay]
      exact Ctl.bay_putBay c b.val _
    refine Completes.of_done (hexec.trans (congrArg done hd)) ⟨?_, ?_, ?_, ?_, hevseq.trans hgone.evseq, hgone.exts.trans hexts, rfl, rfl⟩
    · exact (congrArg BayRec.st hdbay).trans rfl
    · exact (congrArg BayRec.gen hdbay).trans rfl
    · exact (congrArg BayRec.cur hdbay).trans rfl
    · exact (Ctl.rd_congr (hgone.regs _ (by decide) (by decide))).trans hcmpErr
  · refine Completes.of_done hexec ⟨?_, ?_, ?_, hcmpErr, hevseq, hexts, rfl, rfl⟩
    · exact (congrArg BayRec.st hbay).trans rfl
    · exact (congrArg BayRec.gen hbay).trans rfl
    · exact (congrArg BayRec.cur hbay).trans rfl

/-! ### Endpoint configuration and counter windows (Tables 5.13, 6.11, R176) -/

/-- The CLASS that BAY_EP_CFG stores: a reserved one counts as 0. -/
def storedClass (v : Word) : Nat := if field v.toNat 1 2 = 3 then 0 else field v.toNat 1 2

theorem storedClass_lt (v : Word) : storedClass v < 4 := by
  have : field v.toNat 1 2 < 4 := Nat.mod_lt _ (by decide)
  unfold storedClass
  split <;> omega

/-- BAY_EP_CFG as a write leaves it. -/
def Ctl.epConfig (c : Ctl) (ep : Nat) (v : Word) : Ctl := (c.wr (Reg.epEnable ep) (field v.toNat 0 1)).wr (Reg.epClass ep) (storedClass v)

theorem Ctl.rd_epConfig (c : Ctl) (ep : Nat) (v : Word) : (c.epConfig ep v).rd (Reg.epEnable ep) = field v.toNat 0 1
    ∧ (c.epConfig ep v).rd (Reg.epClass ep) = storedClass v := by
  refine ⟨?_, Ctl.rd_wr_fits _ _ _ (by show 1 + 2 ≤ 64; decide) (storedClass_lt v)⟩
  unfold Ctl.epConfig
  rw [Ctl.rd_wr_apart _ (Reg.epClass ep) (Reg.epEnable ep) _ (by show 1 + 2 ≤ 64; decide) (.inr (.inl (by show 0 + 1 ≤ 1; decide))),
    Ctl.rd_wr_fits c (Reg.epEnable ep) (field v.toNat 0 1) (by show 0 + 1 ≤ 64; decide) (Nat.mod_lt _ (by decide))]

theorem field_zero_one (x : Nat) : field x 0 1 = b2n (bitOf x 0) := by
  have h : x % 2 = 0 ∨ x % 2 = 1 := by omega
  simp only [field, bitOf, b2n, pow_zero, Nat.div_one, pow_one]
  obtain h | h := h <;> simp [h]

theorem State.writeEpCfg_eq (s : State) (ep : Nat) (v : Word) : s.writeEpCfg ep v
    = if bitOf v.toNat 0 then { s with ctl := s.ctl.epConfig ep v } else State.retireNow { s with ctl := s.ctl.epConfig ep v } ep 3 := rfl

theorem bayEpCfgWrite_enable_completes (e : Fin 4095) (v : Word) (s : State) (hmain : s.ctl.mainUp = true) (hon : bitOf v.toNat 0 = true) :
    Completes (.bayEpCfgWrite e v) s (fun t =>
    t.ctl.rd (Reg.epEnable e.val) = 1 ∧ t.ctl.rd (Reg.epClass e.val) = (if field v.toNat 1 2 = 3 then 0 else field v.toNat 1 2)
    ∧ OnlyRegs [(Reg.epEnable e.val).addr] s t) := by
  have hexec : exec (.bayEpCfgWrite e v) s = done { s with ctl := s.ctl.epConfig e.val v } := by
    show done (if s.ctl.mainUp then s.writeEpCfg e.val v else s) = _
    rw [if_pos hmain, State.writeEpCfg_eq, if_pos hon]
  obtain ⟨henable, hclass⟩ := s.ctl.rd_epConfig e.val v
  refine Completes.of_done hexec ⟨henable.trans (by rw [field_zero_one, hon]; rfl), hclass,
    onlyRegs_writes (((Ctl.Writes.refl _).wr _ _).wr _ _) (fun b hb => ?_)⟩
  exact (Ctl.reg_wr_ne _ (Reg.epClass e.val) _ _ hb).trans (Ctl.reg_wr_ne _ (Reg.epEnable e.val) _ _ hb)

theorem State.retireNow_gone {s : State} {ep : Nat} (hlive : (s.ctl.ep ep).live = false) (hopens : s.ctl.opens = []) (cause : Nat) :
    s.retireNow ep cause = { s with ctl := s.ctl.settleDoms } := by
  have hretire : s.retire ep cause = s := by
    unfold State.retire
    dsimp only
    rw [if_pos (by simp [hlive])]
  rw [State.retireNow, hretire, State.settle_quiet hopens]
  rfl

theorem bayEpCfgWrite_disable_completes (e : Fin 4095) (v : Word) (s : State) (hmain : s.ctl.mainUp = true) (hoff : bitOf v.toNat 0 = false)
    (hlive : (s.ctl.ep e.val).live = false) (hopens : s.ctl.opens = []) : Completes (.bayEpCfgWrite e v) s (fun t =>
    t.ctl.rd (Reg.epEnable e.val) = 0 ∧ (t.ctl.ep e.val).live = false ∧ t.pending = s.pending) := by
  have heps : (s.ctl.epConfig e.val v).eps = s.ctl.eps := (Ctl.wr_eps _ _ _).trans (Ctl.wr_eps _ _ _)
  have hgone := State.retireNow_gone (s := { s with ctl := s.ctl.epConfig e.val v }) (ep := e.val) (by simpa only [Ctl.ep, heps] using hlive)
    (((Ctl.wr_opens _ _ _).trans (Ctl.wr_opens _ _ _)).trans hopens) 3
  have hexec : exec (.bayEpCfgWrite e v) s = done { s with ctl := (s.ctl.epConfig e.val v).settleDoms } := by
    show done (if s.ctl.mainUp then s.writeEpCfg e.val v else s) = _
    rw [if_pos hmain, State.writeEpCfg_eq, if_neg (by simp [hoff]), hgone]
  have hsteady := Ctl.steady_settleDoms (s.ctl.epConfig e.val v)
  refine Completes.of_done hexec ⟨?_, ?_, rfl⟩
  · refine (Ctl.rd_congr (hsteady.regs _ (by simp only [Reg.epEnable]; omega) (by have := e.isLt; simp only [Reg.epEnable]; omega))).trans ?_
    rw [(s.ctl.rd_epConfig e.val v).1, field_zero_one, hoff]
    rfl
  · have hep : (s.ctl.epConfig e.val v).settleDoms.ep e.val = s.ctl.ep e.val := by
      simp only [Ctl.ep, hsteady.eps, heps]
    exact (congrArg Endpoint.live hep).trans hlive

/-- No other bay's window meets the one from `first` on. -/
def Ctl.WinApart (c : Ctl) (b : Fin 4096) (first count : Nat) : Prop :=
  ∀ o : Fin 4096, o ≠ b → ¬ (first < c.rd (Reg.winFirst o.val) + c.rd (Reg.winCount o.val) ∧ c.rd (Reg.winFirst o.val) < first + count)

theorem Ctl.WinApart.overlap {c : Ctl} {b : Fin 4096} {first count : Nat} (h : c.WinApart b first count) :
    (List.range 4096).any (fun o => o != b.val && decide (first < c.rd (Reg.winFirst o) + c.rd (Reg.winCount o))
      && decide (c.rd (Reg.winFirst o) < first + count)) = false := by
  rw [List.any_eq_false]
  intro o ho hclash
  simp only [Bool.and_eq_true, bne_iff_ne, decide_eq_true_eq] at hclash
  obtain ⟨⟨hne, hlo⟩, hhi⟩ := hclash
  exact h ⟨o, List.mem_range.mp ho⟩ (fun heq => hne (congrArg Fin.val heq)) ⟨hlo, hhi⟩

theorem Ctl.writeCtrWin_apart {c : Ctl} {b : Fin 4096} {v : Word} {first count : Nat} (hfirst : first = field v.toNat 0 20)
    (hcount : count = min (field v.toNat 32 21) (1048576 - first)) (hfree : (c.bay b.val).st = .free) (hapart : c.WinApart b first count) :
    c.writeCtrWin b.val v = (c.wr (Reg.winFirst b.val) first).wr (Reg.winCount b.val) count := by
  unfold Ctl.writeCtrWin
  dsimp only
  rw [← hfirst, ← hcount, hapart.overlap]
  simp [hfree]

/-- The window of bay `b` once it is written. -/
theorem Ctl.winSet (c : Ctl) (b first count : Nat) (hfirst : first < 2 ^ 20) (hcount : count < 2 ^ 21) :
    ((c.wr (Reg.winFirst b) first).wr (Reg.winCount b) count).rd (Reg.winFirst b) = first
    ∧ ((c.wr (Reg.winFirst b) first).wr (Reg.winCount b) count).rd (Reg.winCount b) = count := by
  refine ⟨?_, Ctl.rd_wr_fits _ (Reg.winCount b) _ (by show 32 + 21 ≤ 64; decide) hcount⟩
  rw [Ctl.rd_wr_apart _ (Reg.winCount b) (Reg.winFirst b) _ (by show 32 + 21 ≤ 64; decide) (.inr (.inl (by show 0 + 20 ≤ 32; decide)))]
  exact Ctl.rd_wr_fits _ (Reg.winFirst b) _ (by show 0 + 20 ≤ 64; decide) hfirst

theorem memCtrWinWrite_completes (b : Fin 4096) (v : Word) (s : State) (first count : Nat) (hfirst : first = field v.toNat 0 20)
    (hcount : count = min (field v.toNat 32 21) (1048576 - first)) (hmain : s.ctl.mainUp = true) (hfree : (s.ctl.bay b.val).st = .free)
    (hapart : s.ctl.WinApart b first count) : Completes (.memCtrWinWrite b v) s (fun t =>
    t.ctl.rd (Reg.winFirst b.val) = first ∧ t.ctl.rd (Reg.winCount b.val) = count ∧ OnlyRegs [(Reg.winFirst b.val).addr] s t) := by
  obtain ⟨hf, hc⟩ := s.ctl.winSet b.val first count (hfirst ▸ Nat.mod_lt _ (by decide))
    (hcount ▸ lt_of_le_of_lt (Nat.min_le_left _ _) (Nat.mod_lt _ (by decide)))
  refine Completes.onCtl (congrArg done (State.whenMain_on s _ hmain)) (Ctl.writeCtrWin_apart hfirst hcount hfree hapart) ⟨hf, hc,
    onlyRegs_writes (((Ctl.Writes.refl _).wr _ _).wr _ _) (fun a ha => ?_)⟩
  exact (Ctl.reg_wr_ne _ (Reg.winCount b.val) _ _ ha).trans (Ctl.reg_wr_ne _ (Reg.winFirst b.val) _ _ ha)

/-- Settles O23. Every way an old map goes is one lemma: what is held under its generation is answered, the map goes, and what depended on it goes on
without touching bays, extents or endpoints. It rests on log entries 30, 44 and 45, as the statement says. -/
theorem mapsAndEndpoints : Obligations.MapsAndEndpoints := by
  unfold Obligations.MapsAndEndpoints
  exact ⟨cmpInstall_completes, oldMapRetire_completes, cmpGraceExpiry_completes, retireNow_completes, bayEpCfgWrite_enable_completes,
    bayEpCfgWrite_disable_completes,
    fun b v s hmain hfree hapart => memCtrWinWrite_completes b v s _ _ rfl rfl hmain hfree hapart⟩

end Sys2Proof.Machine

namespace Sys2Proof.Machine

/-! ### The phases of a shakeout -/

theorem Ctl.bay_putBay_other {c d : Ctl} {b : Nat} {x : BayRec} (h : d.bays = (c.putBay b x).bays) {j : Nat} (hj : j ≠ b) : d.bay j = c.bay j := by
  rw [Ctl.bay, h]
  exact Ctl.bay_putBay_ne c b x j hj

theorem Ctl.bay_putBay_own {c d : Ctl} {b : Nat} {x : BayRec} (h : d.bays = (c.putBay b x).bays) : d.bay b = x := by
  rw [Ctl.bay, h]
  exact Ctl.bay_putBay c b x

/-! ### Quiesce (step 3) -/

/-- Closing requests touches the requests and what they hold. -/
def Ctl.withClosed (c d : Ctl) : Ctl :=
  { c with opens := d.opens, owns := d.owns, locks := d.locks, dirQ := d.dirQ, pubReads := d.pubReads }

/-- The requests of a list are closed. -/
def Ctl.closeReqs (c : Ctl) (l : List OpenReq) : Ctl := l.foldl (fun d o => d.closeReq o.id) c

theorem Ctl.closeReqs_same (c : Ctl) (l : List OpenReq) : c.closeReqs l = c.withClosed (c.closeReqs l) :=
  List.foldlRecOn (motive := fun d : Ctl => d = c.withClosed d) l _ rfl
    (fun d h o _ => (congrArg (fun x : Ctl => x.withClosed (d.closeReq o.id)) h :))

/-- An open request stands after the closing of others exactly if none of them bears its number. -/
theorem Ctl.opens_closeReqs (l : List OpenReq) : ∀ c : Ctl, (c.closeReqs l).opens = c.opens.filter (fun o => l.all (fun x => o.id != x.id)) := by
  induction l with
  | nil => exact fun c => by simp [Ctl.closeReqs]
  | cons x l ih =>
    intro c
    show ((c.closeReq x.id).closeReqs l).opens = _
    rw [ih]
    simp [Ctl.closeReq, List.filter_filter, Bool.and_comm]

theorem Ctl.locks_closeReqs (l : List OpenReq) : ∀ c : Ctl, (c.closeReqs l).locks = c.locks.filter (fun k => l.all (fun x => k.req != x.id)) := by
  induction l with
  | nil => exact fun c => by simp [Ctl.closeReqs]
  | cons x l ih =>
    intro c
    show ((c.closeReq x.id).closeReqs l).locks = _
    rw [ih]
    simp [Ctl.closeReq, List.filter_filter, Bool.and_comm]

/-- The control records once a bay is quiesced; `d` are those after its requests were closed. -/
def Ctl.quiesced (c d : Ctl) (bay : Nat) : Ctl :=
  { d.putBay bay { c.bay bay with shake := some .quiesced } with
    tracker := c.tracker.filter (fun t => t.bay != bay), fences := c.fences.filter (fun w => w.frame.bay.toNat != bay),
    peg := c.peg.filter (fun p => p.bay != bay) }

theorem Ctl.quiesce_eq {c : Ctl} {bay : Nat} (h : ∀ o ∈ c.opens, o.frame.bay.toNat = bay) : c.quiesce bay = c.quiesced (c.closeReqs c.opens) bay := by
  have hmine : c.opens.filter (fun o => o.frame.bay.toNat == bay) = c.opens := List.filter_eq_self.mpr (fun o ho => by simp [h o ho])
  have hsame := c.closeReqs_same c.opens
  unfold Ctl.quiesce Ctl.quiesced
  rw [hmine, ← Ctl.closeReqs]
  generalize c.closeReqs c.opens = d at hsame
  rw [hsame]
  rfl

theorem shakeoutQuiesce_completes (b : Fin 4096) (s : State) (hphase : s.ctl.shaking b.val .released = true)
    (hbay : ∀ o ∈ s.ctl.opens, o.frame.bay.toNat = b.val) : Completes (.shakeoutQuiesce b) s (fun t =>
    t.ctl.bay b.val = { s.ctl.bay b.val with shake := some .quiesced } ∧ t.ctl.opens = [] ∧ t.ctl.tracker = s.ctl.tracker.filter (fun x => x.bay != b.val)
    ∧ t.ctl.fences = s.ctl.fences.filter (fun w => w.frame.bay.toNat != b.val) ∧ t.ctl.peg = s.ctl.peg.filter (fun x => x.bay != b.val)
    ∧ (∀ l ∈ t.ctl.locks, l ∈ s.ctl.locks ∧ ∀ o ∈ s.ctl.opens, l.req ≠ o.id) ∧ (∀ d, d ≠ b.val → t.ctl.bay d = s.ctl.bay d)
    ∧ Only s t (fun c => { c with bays := t.ctl.bays, opens := t.ctl.opens, owns := t.ctl.owns, locks := t.ctl.locks, dirQ := t.ctl.dirQ, pubReads := t.ctl.pubReads, tracker := t.ctl.tracker, fences := t.ctl.fences, peg := t.ctl.peg })) := by
  have hsame := s.ctl.closeReqs_same s.ctl.opens
  have hlocks := s.ctl.locks_closeReqs s.ctl.opens
  have hopens : (s.ctl.closeReqs s.ctl.opens).opens = [] := by
    rw [Ctl.opens_closeReqs, List.filter_eq_nil_iff]
    intro o ho hall
    simpa using List.all_eq_true.mp hall o ho
  have hexec : exec (.shakeoutQuiesce b) s = done { s with ctl := s.ctl.quiesced (s.ctl.closeReqs s.ctl.opens) b.val } := by
    have hrun : s.onCtl (·.quiesce b.val) = { s with ctl := s.ctl.quiesced (s.ctl.closeReqs s.ctl.opens) b.val } :=
      congrArg (fun c : Ctl => { s with ctl := c }) (Ctl.quiesce_eq hbay)
    show done (if s.ctl.shaking b.val .released then (s.onCtl (·.quiesce b.val)).settle else s) = _
    rw [if_pos hphase, hrun, State.settle_quiet (s := { s with ctl := s.ctl.quiesced (s.ctl.closeReqs s.ctl.opens) b.val }) hopens]
  generalize s.ctl.closeReqs s.ctl.opens = d at hsame hlocks hopens hexec
  have hbays : d.bays = s.ctl.bays := (congrArg Ctl.bays hsame :)
  refine Completes.of_done hexec ⟨Ctl.bay_putBay _ _ _, hopens, rfl, rfl, rfl, ?_, ?_, ?_⟩
  · intro l hl
    replace hl : l ∈ d.locks := hl
    obtain ⟨hmem, hfree⟩ := List.mem_filter.mp (hlocks ▸ hl)
    exact ⟨hmem, fun o ho => by simpa using List.all_eq_true.mp hfree o ho⟩
  · intro j hj
    exact Ctl.bay_putBay_other (c := s.ctl) (b := b.val) (congrArg (fun x : Tab BayRec => x.set b.val BayRec.init { s.ctl.bay b.val with shake := some .quiesced }) hbays :) hj
  · unfold Only Ctl.quiesced Ctl.putBay
    rw [hsame]
    rfl

/-! ### The end (step 6) -/

/-- SHAKE_STATUS and CMP_STATUS at the end of a shakeout that took `us` microseconds. -/
def Ctl.shakeRegs (c : Ctl) (bay us : Nat) : Ctl :=
  ((((c.wr Reg.cmpBusy 0).wr Reg.shakeBay bay).wr Reg.shakeActive 0).wr Reg.shakeUs us).bump (Reg.secCtr 0)

theorem Ctl.reg_shakeRegs (c : Ctl) (bay us a : Nat) (hcmp : a ≠ Reg.cmpBusy.addr) (hshake : a ≠ Reg.shakeActive.addr) (hctr : a ≠ Reg.secCtr 0) :
    (c.shakeRegs bay us).reg a = c.reg a := by
  unfold Ctl.shakeRegs
  refine (Ctl.reg_bumpBy_ne _ _ 1 _ hctr).trans ?_
  rw [Ctl.reg_wr_ne _ Reg.shakeUs _ _ hshake, Ctl.reg_wr_ne _ Reg.shakeActive _ _ hshake,
    Ctl.reg_wr_ne _ Reg.shakeBay _ _ hshake, Ctl.reg_wr_ne _ Reg.cmpBusy _ _ hcmp]

theorem Ctl.rd_shakeRegs (c : Ctl) {bay us : Nat} (hbay : bay < 4096) (hus : us < 2 ^ 32) : (c.shakeRegs bay us).rd Reg.cmpBusy = 0
    ∧ (c.shakeRegs bay us).rd Reg.shakeActive = 0 ∧ (c.shakeRegs bay us).rd Reg.shakeBay = bay ∧ (c.shakeRegs bay us).rd Reg.shakeUs = us := by
  have hbump : ∀ (d : Ctl) (f : Fld), f.addr ≠ Reg.secCtr 0 → (d.bump (Reg.secCtr 0)).rd f = d.rd f := fun d f h => d.rd_bumpBy_ne _ 1 f h
  unfold Ctl.shakeRegs
  refine ⟨?_, ?_, ?_, ?_⟩
  · rw [hbump _ _ (by decide), Ctl.rd_wr_apart _ Reg.shakeUs _ _ (by decide) (by decide), Ctl.rd_wr_apart _ Reg.shakeActive _ _ (by decide) (by decide),
      Ctl.rd_wr_apart _ Reg.shakeBay _ _ (by decide) (by decide)]
    exact Ctl.rd_wr_fits _ Reg.cmpBusy 0 (by decide) (by decide)
  · rw [hbump _ _ (by decide), Ctl.rd_wr_apart _ Reg.shakeUs _ _ (by decide) (by decide)]
    exact Ctl.rd_wr_fits _ Reg.shakeActive 0 (by decide) (by decide)
  · rw [hbump _ _ (by decide), Ctl.rd_wr_apart _ Reg.shakeUs _ _ (by decide) (by decide), Ctl.rd_wr_apart _ Reg.shakeActive _ _ (by decide) (by decide)]
    exact Ctl.rd_wr_fits _ Reg.shakeBay bay (by decide) hbay
  · rw [hbump _ _ (by decide)]
    exact Ctl.rd_wr_fits _ Reg.shakeUs us (by decide) hus

theorem Ctl.secCtr_shakeRegs (c : Ctl) (bay us : Nat) :
    ((c.shakeRegs bay us).reg (Reg.secCtr 0)).toNat = min ((c.reg (Reg.secCtr 0)).toNat + 1) (2 ^ 64 - 1) := by
  unfold Ctl.shakeRegs
  rw [Ctl.reg_bump_same, Ctl.reg_wr_ne _ Reg.shakeUs _ _ (by decide), Ctl.reg_wr_ne _ Reg.shakeActive _ _ (by decide),
    Ctl.reg_wr_ne _ Reg.shakeBay _ _ (by decide), Ctl.reg_wr_ne _ Reg.cmpBusy _ _ (by decide)]

/-- A bay whose shakeout is over: its generation is all that is left. -/
def BayRec.freed (b : BayRec) : BayRec := { BayRec.init with gen := b.gen }

/-- The control records at the end of a bay's shakeout, before the event. -/
def Ctl.shaken (c : Ctl) (bay us : Nat) : Ctl := (c.putBay bay (c.bay bay).freed).shakeRegs bay us

theorem Ctl.shakeDone_eq {c : Ctl} {bay : Nat} (h : ∀ e ∈ c.exts, e.2.bay = bay → e.2.st = .empty) :
    c.shakeDone bay = (c.shaken bay (min ((c.now - (c.bay bay).shakeAt) / 100) (2 ^ 32 - 1))).event evShakeoutDone [bay] := by
  have hnone : c.exts.any (fun e => e.2.bay == bay && e.2.st != .empty) = false := by
    rw [List.any_eq_false]
    intro e he hany
    simp only [Bool.and_eq_true, beq_iff_eq, bne_iff_ne] at hany
    exact hany.2 (h e he hany.1)
  unfold Ctl.shakeDone
  rw [if_neg (by rw [hnone]; decide)]
  rfl

theorem shakeoutDone_completes (b : Fin 4096) (s : State) (us : Nat) (hus : us = min ((s.ctl.now - (s.ctl.bay b.val).shakeAt) / 100) (2 ^ 32 - 1))
    (hphase : s.ctl.shaking b.val .revoked = true) (hexts : ∀ e ∈ s.ctl.exts, e.2.bay = b.val → e.2.st = .empty) : Completes (.shakeoutDone b) s (fun t =>
    t.ctl.bay b.val = { BayRec.init with gen := (s.ctl.bay b.val).gen } ∧ (∀ d, d ≠ b.val → t.ctl.bay d = s.ctl.bay d) ∧ t.ctl.rd Reg.cmpBusy = 0
    ∧ t.ctl.rd Reg.shakeActive = 0 ∧ t.ctl.rd Reg.shakeBay = b.val ∧ t.ctl.rd Reg.shakeUs = us ∧ s.ctl.evseq < t.ctl.evseq
    ∧ (t.ctl.reg (Reg.secCtr 0)).toNat = min ((s.ctl.reg (Reg.secCtr 0)).toNat + 1) (2 ^ 64 - 1)
    ∧ RegsBut [Reg.cmpBusy.addr, Reg.shakeActive.addr, Reg.secCtr 0] s t ∧ Keeps s t) := by
  have hbays : (s.ctl.shaken b.val us).bays = (s.ctl.putBay b.val (s.ctl.bay b.val).freed).bays := by
    simp only [Ctl.shaken, Ctl.shakeRegs, Ctl.bump_bays, Ctl.wr_bays]
  have hevseq : (s.ctl.shaken b.val us).evseq = s.ctl.evseq := by
    simp only [Ctl.shaken, Ctl.shakeRegs, Ctl.bump_evseq, Ctl.wr_evseq, Ctl.putBay_evseq]
  obtain ⟨hbusy, hactive, hbay, htime⟩ := (s.ctl.putBay b.val (s.ctl.bay b.val).freed).rd_shakeRegs (bay := b.val) (us := us) b.isLt (by omega)
  have hctr := (s.ctl.putBay b.val (s.ctl.bay b.val).freed).secCtr_shakeRegs b.val us
  have hregs := (s.ctl.putBay b.val (s.ctl.bay b.val).freed).reg_shakeRegs b.val us
  have hpost := (s.ctl.shaken b.val us).posts_event evShakeoutDone [b.val]
  have hlt := (s.ctl.shaken b.val us).evseq_lt_event evShakeoutDone [b.val]
  have hrun : (if s.ctl.shaking b.val .revoked then s.ctl.shakeDone b.val else s.ctl) = (s.ctl.shaken b.val us).event evShakeoutDone [b.val] := by
    rw [if_pos hphase, Ctl.shakeDone_eq hexts, ← hus]
  rw [← Ctl.shaken] at hbusy hactive hbay htime hctr
  refine Completes.onCtl rfl hrun ⟨Ctl.bay_putBay_own (hpost.steady.bays.trans hbays), fun j hj => Ctl.bay_putBay_other (hpost.steady.bays.trans hbays) hj,
    (hpost.rd _).trans hbusy, (hpost.rd _).trans hactive, (hpost.rd _).trans hbay, (hpost.rd _).trans htime, hevseq ▸ hlt, ?_, fun a ha => ?_, rfl, rfl⟩
  · exact (congrArg BitVec.toNat (hpost.reg _)).trans hctr
  · simp only [List.mem_cons, List.not_mem_nil, or_false, not_or] at ha
    obtain ⟨hcmp, hshake, hsec⟩ := ha
    exact (hpost.reg a).trans (hregs a hcmp hshake hsec)

end Sys2Proof.Machine

namespace Sys2Proof.Machine

/-! ### What is abandoned when a bay is released (R426) -/

/-- `c` with other queues, places, tiles, channels and registers. -/
def Ctl.withStops (c d : Ctl) : Ctl :=
  { c with regs := d.regs, ques := d.ques, places := d.places, tiles := d.tiles, chans := d.chans }

/-- Work stops: no queue's HEAD moves and of the registers only the count of stopped LAUNCHes does. -/
structure Ctl.Stops (c d : Ctl) : Prop where
  same : d = c.withStops d
  head : ∀ q, (d.que q).head = (c.que q).head
  regs : ∀ a, a ≠ Reg.trsCtr 1 → d.reg a = c.reg a

theorem Ctl.Stops.refl (c : Ctl) : c.Stops c := ⟨rfl, fun _ => rfl, fun _ _ => rfl⟩
theorem Ctl.Stops.trans {c d e : Ctl} (h : c.Stops d) (k : d.Stops e) : c.Stops e where
  same := k.same.trans (congrArg (fun x : Ctl => x.withStops e) h.same :)
  head q := (k.head q).trans (h.head q)
  regs a ha := (k.regs a ha).trans (h.regs a ha)

theorem Ctl.Stops.foldl {α : Type} {f : Ctl → α → Ctl} (hf : ∀ (c : Ctl) a, c.Stops (f c a)) (l : List α) (c : Ctl) : c.Stops (l.foldl f c) :=
  List.foldlRecOn (motive := c.Stops) l f (.refl c) (fun _ h a _ => h.trans (hf _ a))

theorem Ctl.stops_freeChan (c : Ctl) (k : Nat) : c.Stops (c.freeChan k) := ⟨rfl, fun _ => rfl, fun _ _ => rfl⟩
theorem Ctl.stops_putPlace (c : Ctl) (p : Place) : c.Stops (c.putPlace p) := ⟨rfl, fun _ => rfl, fun _ _ => rfl⟩
theorem Ctl.stops_putTile (c : Ctl) (j : Nat) (x : Tile) : c.Stops (c.putTile j x) := ⟨rfl, fun _ => rfl, fun _ _ => rfl⟩
theorem Ctl.stops_bump (c : Ctl) : c.Stops (c.bump (Reg.trsCtr 1)) := ⟨rfl, fun _ => rfl, fun a ha => Ctl.reg_bumpBy_ne c _ 1 a ha⟩

theorem Ctl.stops_putInst (c : Ctl) (q : Nat) (x : QInst) : c.Stops (c.putInst q x) where
  same := rfl
  head j := by
    unfold Ctl.putInst
    by_cases hj : j = q
    · rw [hj, Ctl.que_putQue]
    · rw [Ctl.que_putQue_ne _ _ _ _ hj]
  regs _ _ := rfl

theorem Ctl.stops_endInst (c : Ctl) (q n : Nat) (status detail : Byte) : c.Stops (c.endInst q n status detail) := by
  unfold Ctl.endInst
  split
  · split
    · exact .refl c
    · exact c.stops_putInst _ _
  · exact .refl c

theorem Ctl.places_endInst (c : Ctl) (q n : Nat) (status detail : Byte) : (c.endInst q n status detail).places = c.places := by
  unfold Ctl.endInst
  split
  · split <;> rfl
  · rfl

/-- A tile that runs no more. -/
def Tile.stopped (x : Tile) : Tile := { x with run := false, tags := [], atBar := false, asleep := false }

/-- Tiles stop. -/
def Ctl.stopTiles (c : Ctl) (ts : List Nat) : Ctl := ts.foldl (fun d j => d.putTile j (d.tile j).stopped) c

theorem Ctl.stops_stopTiles (c : Ctl) (ts : List Nat) : c.Stops (c.stopTiles ts) := Ctl.Stops.foldl (fun d _ => d.stops_putTile _ _) ts c

theorem Ctl.places_stopTiles (c : Ctl) (ts : List Nat) : (c.stopTiles ts).places = c.places :=
  List.foldlRecOn (motive := fun d : Ctl => d.places = c.places) ts _ rfl (fun _ h _ _ => h)

theorem Ctl.run_putTile_stopped (c : Ctl) (i j : Nat) (h : i = j ∨ (c.tile j).run = false) : ((c.putTile i (c.tile i).stopped).tile j).run = false := by
  by_cases hij : j = i
  · rw [hij, Ctl.tile_putTile]
    rfl
  · rw [Ctl.tile_putTile_ne _ _ _ _ hij]
    exact h.resolve_left (Ne.symm hij)

theorem Ctl.run_stopTiles_of_mem (c : Ctl) {ts : List Nat} {j : Nat} (h : j ∈ ts) : ((c.stopTiles ts).tile j).run = false :=
  foldl_establishes (P := fun d : Ctl => (d.tile j).run = false) (f := fun (d : Ctl) j => d.putTile j (d.tile j).stopped) (x := j)
    (fun d i hd => d.run_putTile_stopped i j (.inr hd)) (fun d => d.run_putTile_stopped j j (.inl rfl)) ts h c

theorem Ctl.run_stopTiles_of_stopped {c : Ctl} {j : Nat} (h : (c.tile j).run = false) (ts : List Nat) : ((c.stopTiles ts).tile j).run = false :=
  List.foldlRecOn (motive := fun d : Ctl => (d.tile j).run = false) ts _ h (fun d hd i _ => d.run_putTile_stopped i j (.inr hd))

theorem Ctl.stopPlace_none {p : Place} (h : p.launch = none) (c : Ctl) (status detail : Byte) : c.stopPlace p status detail = c := by
  unfold Ctl.stopPlace
  rw [h]

theorem Ctl.stopPlace_some {p : Place} {q n : Nat} (h : p.launch = some (q, n)) (c : Ctl) (status detail : Byte) : c.stopPlace p status detail
    = (((c.endInst q n status detail).putPlace { p with launch := none }).stopTiles p.tiles).bump (Reg.trsCtr 1) := by
  unfold Ctl.stopPlace
  rw [h]
  rfl

theorem Ctl.stops_stopPlace (c : Ctl) (p : Place) (status detail : Byte) : c.Stops (c.stopPlace p status detail) := by
  obtain h | ⟨⟨q, n⟩, h⟩ := Option.eq_none_or_eq_some p.launch
  · rw [Ctl.stopPlace_none h]
    exact .refl c
  · rw [Ctl.stopPlace_some h]
    exact (((c.stops_endInst q n _ _).trans (Ctl.stops_putPlace _ _)).trans (Ctl.stops_stopTiles _ _)).trans (Ctl.stops_bump _)

theorem Ctl.places_stopPlace {p : Place} {q n : Nat} (h : p.launch = some (q, n)) (c : Ctl) (status detail : Byte) :
    (c.stopPlace p status detail).places
      = c.places.map (fun x => if x.bay = p.bay && x.handle = p.handle then { p with launch := none } else x) := by
  rw [Ctl.stopPlace_some h, Ctl.bump_places, Ctl.places_stopTiles, Ctl.putPlace, Ctl.places_endInst]

/-- No placement of a bay's handle runs a LAUNCH. -/
def Ctl.NoLaunch (bay h : Nat) (c : Ctl) : Prop := ∀ x ∈ c.places, x.bay = bay → x.handle = h → x.launch = none

theorem Ctl.NoLaunch.stopPlace {c : Ctl} {bay h : Nat} (hc : c.NoLaunch bay h) (p : Place) (status detail : Byte) :
    (c.stopPlace p status detail).NoLaunch bay h := by
  obtain hp | ⟨⟨q, n⟩, hp⟩ := Option.eq_none_or_eq_some p.launch
  · rwa [Ctl.stopPlace_none hp]
  · intro x hx hbay hhandle
    rw [Ctl.places_stopPlace hp] at hx
    obtain ⟨y, hy, rfl⟩ := List.mem_map.mp hx
    by_cases hkey : (y.bay = p.bay && y.handle = p.handle) = true
    · rw [if_pos hkey]
    · rw [if_neg hkey] at hbay hhandle ⊢
      exact hc y hy hbay hhandle

theorem Ctl.noLaunch_stopPlace {p : Place} (h : p.launch.isSome = true) (c : Ctl) (status detail : Byte) :
    (c.stopPlace p status detail).NoLaunch p.bay p.handle := by
  obtain ⟨⟨q, n⟩, hp⟩ := Option.isSome_iff_exists.mp h
  intro x hx hbay hhandle
  rw [Ctl.places_stopPlace hp] at hx
  obtain ⟨y, -, rfl⟩ := List.mem_map.mp hx
  by_cases hkey : (y.bay = p.bay && y.handle = p.handle) = true
  · rw [if_pos hkey]
  · rw [if_neg hkey] at hbay hhandle
    exact absurd (by simp [hbay, hhandle]) hkey

/-- The placements of a bay stop. -/
def Ctl.stopPlaces (c : Ctl) (bay : Nat) : Ctl :=
  (c.places.filter (fun p => p.bay == bay)).foldl (fun d p => d.stopPlace p stBAYTRANS dNONE) c

theorem Ctl.stops_stopPlaces (c : Ctl) (bay : Nat) : c.Stops (c.stopPlaces bay) := Ctl.Stops.foldl (fun d p => d.stops_stopPlace p _ _) _ c

theorem Ctl.launch_stopPlaces (c : Ctl) {bay : Nat} {p : Place} (hp : p ∈ (c.stopPlaces bay).places) (hbay : p.bay = bay) : p.launch = none := by
  have hnone : (c.stopPlaces bay).NoLaunch bay p.handle := by
    by_cases hrun : ∃ x ∈ c.places, x.bay = bay ∧ x.handle = p.handle ∧ x.launch.isSome = true
    · obtain ⟨x, hx, hxbay, hxh, hxl⟩ := hrun
      exact foldl_establishes (P := Ctl.NoLaunch bay p.handle) (f := fun (d : Ctl) p => d.stopPlace p stBAYTRANS dNONE) (x := x)
        (fun d y hd => hd.stopPlace y _ _) (fun d => by rw [← hxbay, ← hxh]; exact Ctl.noLaunch_stopPlace hxl d _ _)
        _ (List.mem_filter.mpr ⟨hx, by simp [hxbay]⟩) c
    · refine List.foldlRecOn (motive := Ctl.NoLaunch bay p.handle) _ _ (fun x hx hxbay hxh => ?_) (fun d hd y _ => hd.stopPlace y _ _)
      by_contra hl
      exact hrun ⟨x, hx, hxbay, hxh, Option.isSome_iff_ne_none.mpr hl⟩
  exact hnone p hp hbay rfl

theorem Ctl.run_stopPlace_of_mem {p : Place} (h : p.launch.isSome = true) {j : Nat} (hj : j ∈ p.tiles) (c : Ctl) (status detail : Byte) :
    ((c.stopPlace p status detail).tile j).run = false := by
  obtain ⟨⟨q, n⟩, hp⟩ := Option.isSome_iff_exists.mp h
  rw [Ctl.stopPlace_some hp]
  exact Ctl.run_stopTiles_of_mem _ hj

theorem Ctl.tiles_endInst (c : Ctl) (q n : Nat) (status detail : Byte) : (c.endInst q n status detail).tiles = c.tiles := by
  unfold Ctl.endInst
  split
  · split <;> rfl
  · rfl

theorem Ctl.run_stopPlace_of_stopped {c : Ctl} {j : Nat} (h : (c.tile j).run = false) (p : Place) (status detail : Byte) :
    ((c.stopPlace p status detail).tile j).run = false := by
  obtain hp | ⟨⟨q, n⟩, hp⟩ := Option.eq_none_or_eq_some p.launch
  · rwa [Ctl.stopPlace_none hp]
  · rw [Ctl.stopPlace_some hp]
    refine Ctl.run_stopTiles_of_stopped (c := (c.endInst q n status detail).putPlace { p with launch := none }) ?_ p.tiles
    show (((c.endInst q n status detail).tiles.get j Tile.init)).run = false
    rwa [Ctl.tiles_endInst]

theorem Ctl.run_stopPlaces (c : Ctl) {bay : Nat} {p : Place} (hp : p ∈ c.places) (hbay : p.bay = bay) (hrun : p.launch.isSome = true) {j : Nat}
    (hj : j ∈ p.tiles) : ((c.stopPlaces bay).tile j).run = false :=
  foldl_establishes (P := fun d : Ctl => (d.tile j).run = false) (f := fun (d : Ctl) p => d.stopPlace p stBAYTRANS dNONE) (x := p)
    (fun _ y hd => Ctl.run_stopPlace_of_stopped hd y _ _) (fun d => Ctl.run_stopPlace_of_mem hrun hj d _ _)
    _ (List.mem_filter.mpr ⟨hp, by simp [hbay]⟩) c

end Sys2Proof.Machine

namespace Sys2Proof.Machine

/-! ### RELEASE (R425, R426) -/

/-- A queue that works for a bay: enabled, and the bay's. -/
def Ctl.worksFor (c : Ctl) (bay q : Nat) : Bool := c.rd (Reg.queEnable q) == 1 && c.rd (Reg.queBay q) == bay

/-- Channels that serve an instruction of the queues are free again. -/
def Ctl.freeChans (c : Ctl) (mine : Nat → Bool) : Ctl :=
  (c.chans.keysWhere (fun _ (x : Chan) => match x.serve with | some (q, _) => mine q | none => false)).foldl Ctl.freeChan c

theorem Ctl.stops_freeChans (c : Ctl) (mine : Nat → Bool) : c.Stops (c.freeChans mine) := Ctl.Stops.foldl Ctl.stops_freeChan _ c

theorem Ctl.places_freeChans (c : Ctl) (mine : Nat → Bool) : (c.freeChans mine).places = c.places :=
  List.foldlRecOn (motive := fun d : Ctl => d.places = c.places) _ _ rfl (fun _ h _ _ => h)

/-- A queue of which only HEAD, TAIL and marks are left. -/
def Que.idled (x : Que) : Que := { x with insts := [], fetched := [], loops := [] }

/-- Instructions, collectives, rechecks and request-state space of a bay are dropped. -/
def Ctl.dropWork (c : Ctl) (mine : Nat → Bool) (bay : Nat) : Ctl :=
  { c with
    ques := Tab.map c.ques (fun q (x : Que) => if mine q then x.idled else x),
    colls := c.colls.filter (fun (k : Coll) => k.bay != bay),
    rechecks := c.rechecks.filter (fun (r : Recheck) => r.bay != bay),
    rsas := Tab.map c.rsas (fun b (r : Rsa) => if b = bay then { r with used := [] } else r) }

/-- The control records once the places of a bay stand still, before its work is dropped. -/
def Ctl.stilled (c : Ctl) (bay : Nat) : Ctl := (c.freeChans (c.worksFor bay)).stopPlaces bay

theorem Ctl.stops_stilled (c : Ctl) (bay : Nat) : c.Stops (c.stilled bay) := (c.stops_freeChans _).trans (Ctl.stops_stopPlaces _ bay)

theorem Ctl.abandonWork_eq (c : Ctl) (bay : Nat) : c.abandonWork bay = (c.stilled bay).dropWork (c.worksFor bay) bay := rfl

theorem Ctl.que_dropWork (c : Ctl) (mine : Nat → Bool) (bay : Nat) {q : Nat} (h : mine q = true) : (c.dropWork mine bay).que q = (c.que q).idled := by
  unfold Ctl.dropWork Ctl.que Tab.get
  dsimp only
  rw [Tab.find?_map]
  cases Tab.find? c.ques q with
  | none => rfl
  | some x => simp [h]

theorem Ctl.Stops.bays {c d : Ctl} (h : c.Stops d) : d.bays = c.bays := (congrArg Ctl.bays h.same :)
theorem Ctl.Stops.opens {c d : Ctl} (h : c.Stops d) : d.opens = c.opens := (congrArg Ctl.opens h.same :)
theorem Ctl.Stops.exts {c d : Ctl} (h : c.Stops d) : d.exts = c.exts := (congrArg Ctl.exts h.same :)
theorem Ctl.Stops.eps {c d : Ctl} (h : c.Stops d) : d.eps = c.eps := (congrArg Ctl.eps h.same :)
theorem Ctl.Stops.colls {c d : Ctl} (h : c.Stops d) : d.colls = c.colls := (congrArg Ctl.colls h.same :)
theorem Ctl.Stops.rechecks {c d : Ctl} (h : c.Stops d) : d.rechecks = c.rechecks := (congrArg Ctl.rechecks h.same :)

/-- What abandoning a bay's work leaves. -/
structure Ctl.Abandons (bay : Nat) (c d : Ctl) : Prop where
  bays : d.bays = c.bays
  opens : d.opens = c.opens
  exts : d.exts = c.exts
  eps : d.eps = c.eps
  regs : ∀ a, a ≠ Reg.trsCtr 1 → d.reg a = c.reg a
  ques : ∀ q, c.worksFor bay q = true → (d.que q).insts = [] ∧ (d.que q).fetched = [] ∧ (d.que q).loops = [] ∧ (d.que q).head = (c.que q).head
  launch : ∀ p ∈ d.places, p.bay = bay → p.launch = none
  tiles : ∀ p ∈ c.places, p.bay = bay → p.launch.isSome = true → ∀ j ∈ p.tiles, (d.tile j).run = false
  colls : d.colls = c.colls.filter (fun k => k.bay != bay)
  rechecks : d.rechecks = c.rechecks.filter (fun r => r.bay != bay)

/-- Dropping the work of a bay whose places stand still abandons it. -/
theorem Ctl.Stops.abandons {c d : Ctl} {bay : Nat} (h : c.Stops d) (hlaunch : ∀ p ∈ d.places, p.bay = bay → p.launch = none)
    (htiles : ∀ p ∈ c.places, p.bay = bay → p.launch.isSome = true → ∀ j ∈ p.tiles, (d.tile j).run = false) :
    c.Abandons bay (d.dropWork (c.worksFor bay) bay) where
  bays := h.bays
  opens := h.opens
  exts := h.exts
  eps := h.eps
  regs := h.regs
  ques q hq := by
    have hque : (d.dropWork (c.worksFor bay) bay).que q = (d.que q).idled := Ctl.que_dropWork _ _ _ hq
    exact ⟨congrArg Que.insts hque, congrArg Que.fetched hque, congrArg Que.loops hque, (congrArg Que.head hque).trans (h.head q)⟩
  launch := hlaunch
  tiles := htiles
  colls := congrArg (List.filter fun k : Coll => k.bay != bay) h.colls
  rechecks := congrArg (List.filter fun r : Recheck => r.bay != bay) h.rechecks

theorem Ctl.abandons_abandonWork (c : Ctl) (bay : Nat) : c.Abandons bay (c.abandonWork bay) := by
  rw [Ctl.abandonWork_eq]
  exact (c.stops_stilled bay).abandons (fun _ hp hb => Ctl.launch_stopPlaces _ hp hb)
    (fun p hp hb hl j hj => Ctl.run_stopPlaces _ ((c.places_freeChans _).symm ▸ hp) hb hl hj)

/-- CMP_STATUS and SHAKE_STATUS of a RELEASE that passes. -/
def Ctl.releaseRegs (c : Ctl) (bay : Nat) : Ctl := (((c.wr Reg.cmpBay bay).wr Reg.cmpErr 0).wr Reg.cmpBusy 1).wr Reg.shakeActive 1

theorem Ctl.writes_releaseRegs (c : Ctl) (bay : Nat) : c.Writes (c.releaseRegs bay) :=
  ((((Ctl.Writes.refl c).wr _ _).wr _ _).wr _ _).wr _ _

theorem Ctl.rd_releaseRegs (c : Ctl) {bay : Nat} (h : bay < 4096) : (c.releaseRegs bay).rd Reg.cmpBusy = 1 ∧ (c.releaseRegs bay).rd Reg.cmpErr = 0
    ∧ (c.releaseRegs bay).rd Reg.cmpBay = bay ∧ (c.releaseRegs bay).rd Reg.shakeActive = 1 := by
  unfold Ctl.releaseRegs
  refine ⟨?_, ?_, ?_, Ctl.rd_wr_fits _ Reg.shakeActive 1 (by decide) (by decide)⟩
  all_goals rw [Ctl.rd_wr_apart _ Reg.shakeActive _ _ (by decide) (by decide)]
  · exact Ctl.rd_wr_fits _ Reg.cmpBusy 1 (by decide) (by decide)
  · rw [Ctl.rd_wr_apart _ Reg.cmpBusy _ _ (by decide) (by decide)]
    exact Ctl.rd_wr_fits _ Reg.cmpErr 0 (by decide) (by decide)
  · rw [Ctl.rd_wr_apart _ Reg.cmpBusy _ _ (by decide) (by decide), Ctl.rd_wr_apart _ Reg.cmpErr _ _ (by decide) (by decide)]
    exact Ctl.rd_wr_fits _ Reg.cmpBay bay (by decide) h

theorem Ctl.reg_releaseRegs (c : Ctl) (bay a : Nat) (hcmp : a ≠ Reg.cmpBusy.addr) (hshake : a ≠ Reg.shakeActive.addr) :
    (c.releaseRegs bay).reg a = c.reg a := by
  unfold Ctl.releaseRegs
  rw [Ctl.reg_wr_ne _ Reg.shakeActive _ _ hshake, Ctl.reg_wr_ne _ Reg.cmpBusy _ _ hcmp, Ctl.reg_wr_ne _ Reg.cmpErr _ _ hcmp,
    Ctl.reg_wr_ne _ Reg.cmpBay _ _ hcmp]

theorem Ctl.turnAway_quiet {c : Ctl} (hopens : c.opens = []) (hfences : c.fences = []) (bay : Nat) : c.turnAway bay = c := by
  simp only [Ctl.turnAway, hopens, hfences, List.filter_nil, List.foldl_nil]

/-- A bay's record when its shakeout begins. -/
def BayRec.released (b : BayRec) (now : Nat) : BayRec :=
  { b with st := .shakeout, cur := none, old := none, shake := some .released, shakeAt := now }

/-- The control records when a bay's shakeout begins, before its work is abandoned. -/
def Ctl.releasing (c : Ctl) (bay : Nat) : Ctl := (c.releaseRegs bay).putBay bay ((c.bay bay).released c.now)

theorem Ctl.releasing_keeps (c : Ctl) (bay : Nat) : (c.releasing bay).opens = c.opens ∧ (c.releasing bay).fences = c.fences
    ∧ (c.releasing bay).places = c.places ∧ (c.releasing bay).ques = c.ques ∧ (c.releasing bay).colls = c.colls
    ∧ (c.releasing bay).rechecks = c.rechecks ∧ (c.releasing bay).exts = c.exts ∧ (c.releasing bay).eps = c.eps := by
  have hw := (c.writes_releaseRegs bay).same
  unfold Ctl.releasing
  exact ⟨(Ctl.putBay_opens _ _ _).trans (congrArg Ctl.opens hw :), (Ctl.putBay_fences _ _ _).trans (congrArg Ctl.fences hw :),
    (Ctl.putBay_places _ _ _).trans (congrArg Ctl.places hw :), (Ctl.putBay_ques _ _ _).trans (congrArg Ctl.ques hw :),
    (Ctl.putBay_colls _ _ _).trans (congrArg Ctl.colls hw :), (Ctl.putBay_rechecks _ _ _).trans (congrArg Ctl.rechecks hw :),
    (Ctl.putBay_exts _ _ _).trans (congrArg Ctl.exts hw :), (Ctl.putBay_eps _ _ _).trans (congrArg Ctl.eps hw :)⟩

theorem Ctl.bays_releasing (c : Ctl) (bay : Nat) : (c.releasing bay).bays = (c.putBay bay ((c.bay bay).released c.now)).bays :=
  (congrArg (fun d : Ctl => d.bays.set bay BayRec.init ((c.bay bay).released c.now)) (c.writes_releaseRegs bay).same :)

theorem Ctl.reg_releasing (c : Ctl) (bay a : Nat) : (c.releasing bay).reg a = (c.releaseRegs bay).reg a := Ctl.putBay_reg _ _ _ a

theorem Ctl.releaseBay_active {c : Ctl} {bay : Nat} (hidle : c.rd Reg.cmpBusy = 0) (hst : (c.bay bay).st = .active) (hopens : c.opens = [])
    (hfences : c.fences = []) : c.releaseBay bay = (c.releasing bay).abandonWork bay := by
  unfold Ctl.releaseBay
  dsimp only
  rw [if_neg (by simp [hidle]), if_neg (not_not_intro hst), Ctl.wr_now, Ctl.wr_now, Ctl.wr_now, Ctl.wr_now, ← Ctl.releaseRegs, ← BayRec.released, ← Ctl.releasing]
  obtain ⟨hopen, hfence, -⟩ := c.releasing_keeps bay
  rw [Ctl.turnAway_quiet (hopen.trans hopens) (hfence.trans hfences)]

theorem release_refused_completes (b : Fin 4096) (s : State) (hmain : s.ctl.mainUp = true) (hidle : s.ctl.rd Reg.cmpBusy = 0)
    (hst : (s.ctl.bay b.val).st ≠ .active) (hopens : s.ctl.opens = []) : Completes (.release b) s (fun t =>
    t.ctl.rd Reg.cmpErr = 7 ∧ t.ctl.rd Reg.cmpBusy = 0 ∧ OnlyRegs [Reg.cmpErr.addr] s t) := by
  have hrun : s.ctl.releaseBay b.val = (s.ctl.wr Reg.cmpBay b.val).wr Reg.cmpErr 7 := by
    unfold Ctl.releaseBay
    dsimp only
    rw [if_neg (by simp [hidle]), if_pos hst]
  have hexec : exec (.release b) s = done { s with ctl := (s.ctl.wr Reg.cmpBay b.val).wr Reg.cmpErr 7 } := by
    show done (if s.ctl.mainUp then (s.onCtl (·.releaseBay b.val)).settle else s) = _
    have hctl : s.onCtl (·.releaseBay b.val) = { s with ctl := (s.ctl.wr Reg.cmpBay b.val).wr Reg.cmpErr 7 } :=
      congrArg (fun c : Ctl => { s with ctl := c }) hrun
    rw [if_pos hmain, hctl, State.settle_quiet (s := { s with ctl := (s.ctl.wr Reg.cmpBay b.val).wr Reg.cmpErr 7 })
      ((Ctl.wr_opens _ _ _).trans ((Ctl.wr_opens _ _ _).trans hopens))]
  refine Completes.of_done hexec ⟨Ctl.rd_wr_fits _ Reg.cmpErr 7 (by decide) (by decide), ?_,
    onlyRegs_writes (((Ctl.Writes.refl _).wr _ _).wr _ _) (fun a ha => (Ctl.reg_wr_ne _ Reg.cmpErr _ _ ha).trans (Ctl.reg_wr_ne _ Reg.cmpBay _ _ ha))⟩
  show ((s.ctl.wr Reg.cmpBay b.val).wr Reg.cmpErr 7).rd Reg.cmpBusy = 0
  rw [Ctl.rd_wr_apart _ Reg.cmpErr _ _ (by decide) (by decide), Ctl.rd_wr_apart _ Reg.cmpBay _ _ (by decide) (by decide), hidle]

theorem release_completes (b : Fin 4096) (s : State) (hmain : s.ctl.mainUp = true) (hidle : s.ctl.rd Reg.cmpBusy = 0)
    (hst : (s.ctl.bay b.val).st = .active) (hopens : s.ctl.opens = []) (hfences : s.ctl.fences = []) : Completes (.release b) s (fun t =>
    t.ctl.bay b.val = { s.ctl.bay b.val with st := .shakeout, cur := none, old := none, shake := some .released, shakeAt := s.ctl.now }
    ∧ (∀ d, d ≠ b.val → t.ctl.bay d = s.ctl.bay d) ∧ t.ctl.rd Reg.cmpBusy = 1 ∧ t.ctl.rd Reg.cmpErr = 0 ∧ t.ctl.rd Reg.cmpBay = b.val ∧ t.ctl.rd Reg.shakeActive = 1
    ∧ (∀ q, s.ctl.rd (Reg.queEnable q) = 1 → s.ctl.rd (Reg.queBay q) = b.val →
        (t.ctl.que q).insts = [] ∧ (t.ctl.que q).fetched = [] ∧ (t.ctl.que q).loops = [] ∧ (t.ctl.que q).head = (s.ctl.que q).head)
    ∧ (∀ p ∈ t.ctl.places, p.bay = b.val → p.launch = none)
    ∧ (∀ p ∈ s.ctl.places, p.bay = b.val → p.launch.isSome = true → ∀ j ∈ p.tiles, (t.ctl.tile j).run = false)
    ∧ t.ctl.colls = s.ctl.colls.filter (fun k => k.bay != b.val) ∧ t.ctl.rechecks = s.ctl.rechecks.filter (fun r => r.bay != b.val)
    ∧ t.ctl.exts = s.ctl.exts ∧ t.ctl.eps = s.ctl.eps ∧ RegsBut [Reg.cmpBusy.addr, Reg.shakeActive.addr, Reg.trsCtr 1] s t ∧ Keeps s t) := by
  obtain ⟨hbusy, herr, hbay, hactive⟩ := s.ctl.rd_releaseRegs b.isLt
  have hregs := s.ctl.reg_releaseRegs b.val
  have hbays := s.ctl.bays_releasing b.val
  have hreg := s.ctl.reg_releasing b.val
  obtain ⟨hopen, -, hplaces, hques, hcolls, hrechecks, hexts, heps⟩ := s.ctl.releasing_keeps b.val
  have hrun := Ctl.releaseBay_active hidle hst hopens hfences
  generalize s.ctl.releasing b.val = c at hbays hreg hopen hplaces hques hcolls hrechecks hexts heps hrun
  obtain ⟨kbays, kopens, kexts, keps, kregs, kques, klaunch, ktiles, kcolls, krechecks⟩ := c.abandons_abandonWork b.val
  have hworks : ∀ q, s.ctl.rd (Reg.queEnable q) = 1 → s.ctl.rd (Reg.queBay q) = b.val → c.worksFor b.val q = true := fun q hen hb => by
    have hq : c.reg (Reg.queBase q + 0x10) = s.ctl.reg (Reg.queBase q + 0x10) := (hreg _).trans (hregs _ (by
      simp only [Reg.queBase, Reg.cmpBusy]; omega) (by simp only [Reg.queBase, Reg.shakeActive]; omega))
    have hen' : c.rd (Reg.queEnable q) = 1 := (Ctl.rd_congr hq).trans hen
    have hb' : c.rd (Reg.queBay q) = b.val := (Ctl.rd_congr hq).trans hb
    simp [Ctl.worksFor, hen', hb']
  generalize c.abandonWork b.val = e at *
  have hexec : exec (.release b) s = done { s with ctl := e } := by
    have hctl : s.onCtl (·.releaseBay b.val) = { s with ctl := e } := congrArg (fun c : Ctl => { s with ctl := c }) hrun
    show done (if s.ctl.mainUp then (s.onCtl (·.releaseBay b.val)).settle else s) = _
    rw [if_pos hmain, hctl, State.settle_quiet (s := { s with ctl := e }) (kopens.trans (hopen.trans hopens))]
  have herd : ∀ f : Fld, f.addr ≠ Reg.trsCtr 1 → e.rd f = (s.ctl.releaseRegs b.val).rd f := fun f hf => Ctl.rd_congr ((kregs _ hf).trans (hreg _))
  refine Completes.of_done hexec ⟨Ctl.bay_putBay_own (kbays.trans hbays), fun j hj => Ctl.bay_putBay_other (kbays.trans hbays) hj,
    (herd _ (by decide)).trans hbusy, (herd _ (by decide)).trans herr, (herd _ (by decide)).trans hbay, (herd _ (by decide)).trans hactive,
    fun q hen hb => ?_, klaunch, hplaces ▸ ktiles, hcolls ▸ kcolls, hrechecks ▸ krechecks, kexts.trans hexts, keps.trans heps, fun a ha => ?_, rfl, rfl⟩
  · obtain ⟨hinsts, hfetched, hloops, hhead⟩ := kques q (hworks q hen hb)
    exact ⟨hinsts, hfetched, hloops, hhead.trans (congrArg (fun l : Tab Que => (l.get q Que.init).head) hques :)⟩
  · simp only [List.mem_cons, List.not_mem_nil, or_false, not_or] at ha
    obtain ⟨hcmp, hshake, htrs⟩ := ha
    exact ((kregs a htrs).trans (hreg a)).trans (hregs a hcmp hshake)

end Sys2Proof.Machine

namespace Sys2Proof.Machine

/-! ### The extents of a bay in SHAKEOUT (step 5, R146) -/

/-- One extent is revoked with nothing in flight. -/
def State.revokeExt (s : State) (i : Nat) : State := (s.onCtl (·.revoke i)).finishRevoke i

/-- Entries of a list are emptied; bays stand, and each emptied entry takes an EVSEQ. -/
structure Ctl.Revokes (l : List Nat) (c d : Ctl) : Prop where
  bays : d.bays = c.bays
  emptied : ∀ i ∈ l, d.ext i = Extent.init
  others : ∀ i, i ∉ l → d.ext i = c.ext i
  evseq : c.evseq ≤ d.evseq
  later : l ≠ [] → c.evseq < d.evseq

theorem Ctl.revoke_bays (c : Ctl) (i : Nat) : (c.revoke i).bays = c.bays ∧ (c.revoke i).evseq = c.evseq := by
  obtain ⟨⟨x, y, hsame⟩, -⟩ := c.revoke_spec i
  rw [hsame]
  exact ⟨rfl, rfl⟩

theorem State.revokeExt_flat {s : State} {i : Nat} (hflat : isNode (s.ctl.ext i).base = false) (hplain : (s.ctl.ext i).backing = false) :
    s.revokeExt i = { s with ctl := ((s.ctl.revoke i).freeExtPages i).dropExt i ((s.ctl.revoke i).ext i).bay [0, 0] } := by
  obtain ⟨-, hext, -⟩ := s.ctl.revoke_spec i
  have hnode : isNode ((s.ctl.revoke i).ext i).base = false := by rw [hext]; exact hflat
  have hback : ((s.ctl.revoke i).ext i).backing = false := by rw [hext]; exact hplain
  have hclear : State.clearExt { s with ctl := s.ctl.revoke i } i = { s with ctl := (s.ctl.revoke i).freeExtPages i } := by
    unfold State.clearExt
    rw [if_neg (by simp [hback]), if_neg (by simp [hnode])]
    rfl
  have hfinish := State.finishRevoke_empties (s := { s with ctl := s.ctl.revoke i }) (i := i) (by rw [hext]) (by rw [hext])
    (by rw [hnode, Bool.false_and, Bool.false_and])
  rw [hclear] at hfinish
  exact hfinish

theorem Ctl.revokes_flat (c : Ctl) (i bay : Nat) : c.Revokes [i] (((c.revoke i).freeExtPages i).dropExt i bay [0, 0]) := by
  obtain ⟨-, -, hne⟩ := c.revoke_spec i
  obtain ⟨hbays, hevseq⟩ := c.revoke_bays i
  have hfree := (c.revoke i).vacates_freeExtPages i
  have hlt := ((c.revoke i).freeExtPages i).evseq_lt_dropExt i bay [0, 0]
  have hlate : c.evseq < (((c.revoke i).freeExtPages i).dropExt i bay [0, 0]).evseq := lt_of_eq_of_lt (hfree.evseq.trans hevseq).symm hlt
  have hdrop : (((c.revoke i).freeExtPages i).dropExt i bay [0, 0]).bays = ((c.revoke i).freeExtPages i).bays :=
    (Ctl.posts_event (((c.revoke i).freeExtPages i).putExt i Extent.init) _ _).steady.bays
  refine ⟨hdrop.trans (hfree.bays.trans hbays), fun j hj => ?_, fun j hj => ?_, hlate.le, fun _ => hlate⟩
  · rw [List.mem_singleton.mp hj]
    exact Ctl.ext_dropExt _ _ _ _
  · have hji : j ≠ i := fun h => hj (List.mem_singleton.mpr h)
    rw [Ctl.ext_dropExt_ne _ _ _ _ hji, ← hne j hji, Ctl.ext, hfree.exts, Ctl.ext]

theorem Ctl.Revokes.cons {c d e : Ctl} {i : Nat} {l : List Nat} (h : c.Revokes [i] d) (k : d.Revokes l e) : c.Revokes (i :: l) e where
  bays := k.bays.trans h.bays
  emptied j hj := by
    by_cases hl : j ∈ l
    · exact k.emptied j hl
    · rw [k.others j hl]
      exact h.emptied j (List.mem_singleton.mpr ((List.mem_cons.mp hj).resolve_right hl))
  others j hj := by
    obtain ⟨hi, hl⟩ := not_or.mp (List.mem_cons.not.mp hj)
    exact (k.others j hl).trans (h.others j (fun hm => hi (List.mem_singleton.mp hm)))
  evseq := h.evseq.trans k.evseq
  later _ := (h.later (List.cons_ne_nil i [])).trans_le k.evseq

/-- A list of flat extents is emptied, whether or not it names one of them twice. -/
theorem State.revokeExts_flat (l : List Nat) : ∀ s : State, (∀ i ∈ l, isNode (s.ctl.ext i).base = false ∧ (s.ctl.ext i).backing = false) →
    ∃ d, l.foldl State.revokeExt s = { s with ctl := d } ∧ s.ctl.Revokes l d := by
  induction l with
  | nil => exact fun s _ => ⟨s.ctl, rfl, rfl, fun _ h => absurd h List.not_mem_nil, fun _ _ => rfl, le_refl _, fun h => absurd rfl h⟩
  | cons i l ih =>
    intro s hflat
    obtain ⟨hnode, hplain⟩ := hflat i List.mem_cons_self
    have hone := s.ctl.revokes_flat i ((s.ctl.revoke i).ext i).bay
    have hstep := State.revokeExt_flat hnode hplain
    generalize ((s.ctl.revoke i).freeExtPages i).dropExt i ((s.ctl.revoke i).ext i).bay [0, 0] = c at hone hstep
    obtain ⟨d, hd, hl⟩ := ih { s with ctl := c } (fun j hj => by
      show isNode (c.ext j).base = false ∧ (c.ext j).backing = false
      by_cases hji : j ∈ [i]
      · rw [hone.emptied j hji]
        decide
      · rw [hone.others j hji]
        exact hflat j (List.mem_cons_of_mem i hj))
    exact ⟨d, by rw [List.foldl_cons, hstep, hd], hone.cons hl⟩

theorem shakeoutRevoke_eq {b : Fin 4096} {s : State} (h : s.ctl.shaking b.val .cleared = true ∨ s.ctl.shaking b.val .revoked = true) :
    exec (.shakeoutRevoke b) s
      = done (((s.ctl.bayExts b.val).foldl State.revokeExt s).onCtl (fun c => c.putBay b.val { c.bay b.val with shake := some .revoked })) := by
  show done (if s.ctl.shaking b.val .cleared || s.ctl.shaking b.val .revoked then s.shakeRevoke b.val else s) = _
  rw [if_pos (by simpa using h)]
  rfl

theorem shakeoutRevoke_flat_completes (b : Fin 4096) (s : State) (hphase : s.ctl.shaking b.val .cleared = true ∨ s.ctl.shaking b.val .revoked = true)
    (hflat : ∀ i ∈ s.ctl.bayExts b.val, isNode (s.ctl.ext i).base = false ∧ (s.ctl.ext i).backing = false) : Completes (.shakeoutRevoke b) s (fun t =>
    t.ctl.bay b.val = { s.ctl.bay b.val with shake := some .revoked } ∧ (∀ i ∈ s.ctl.bayExts b.val, t.ctl.ext i = Extent.init)
    ∧ (∀ i, i ∉ s.ctl.bayExts b.val → t.ctl.ext i = s.ctl.ext i) ∧ (s.ctl.bayExts b.val ≠ [] → s.ctl.evseq < t.ctl.evseq) ∧ Keeps s t) := by
  obtain ⟨d, hd, hrev⟩ := State.revokeExts_flat _ s hflat
  have hexec := shakeoutRevoke_eq hphase
  rw [hd] at hexec
  have hbay : d.bay b.val = s.ctl.bay b.val := by rw [Ctl.bay, hrev.bays, Ctl.bay]
  refine Completes.of_done hexec ⟨?_, hrev.emptied, hrev.others, hrev.later, rfl, rfl⟩
  show (d.putBay b.val { d.bay b.val with shake := some .revoked }).bay b.val = _
  rw [Ctl.bay_putBay, hbay]

/-- REVOKE takes no incarnation's life. -/
theorem Ctl.live_revoke (c : Ctl) (i n : Nat) : ((c.revoke i).ep n).live = (c.ep n).live := by
  have hput : ((c.putExt i { c.ext i with st := .revoking, revAt := c.now, dropped := false }).ep n).live = (c.ep n).live := rfl
  unfold Ctl.revoke
  dsimp only
  split
  · split
    · by_cases hn : n = nodeOf (c.ext i).base
      · rw [← hn, Ctl.ep_putEp]
        exact hput
      · rw [Ctl.ep_putEp_ne _ _ _ _ hn]
        exact hput
    · exact hput
  · exact hput

/-- A revoked extent of a tray with a live incarnation: the tray is told, and the entry waits for its answer. -/
theorem State.revokeExt_tray {s : State} {i : Nat} (hnode : isNode (s.ctl.ext i).base = true) (htray : s.ctl.isTray (nodeOf (s.ctl.ext i).base) = true)
    (hlive : (s.ctl.ep (nodeOf (s.ctl.ext i).base)).live = true) : s.revokeExt i = { s with ctl := (s.ctl.revoke i).sendExtDrop i } := by
  obtain ⟨⟨x, y, hsame⟩, hext, -⟩ := s.ctl.revoke_spec i
  have hlive' := (s.ctl.live_revoke i (nodeOf (s.ctl.ext i).base)).trans hlive
  have htray' : (s.ctl.revoke i).isTray (nodeOf (s.ctl.ext i).base) = true := (Ctl.isTray_congr (c := s.ctl) (by rw [hsame]; rfl)).trans htray
  have hst : ((s.ctl.revoke i).ext i).st = .revoking := by rw [hext]
  have hdropped : ((s.ctl.revoke i).ext i).dropped = false := by rw [hext]
  have hbase : ((s.ctl.revoke i).ext i).base = (s.ctl.ext i).base := by rw [hext]
  unfold State.revokeExt State.finishRevoke State.onCtl
  dsimp only
  rw [hst, hdropped, hbase, hnode, htray', hlive', if_neg (by decide), if_pos (by decide)]

theorem shakeoutRevoke_tray_completes (b : Fin 4096) (i : Nat) (s : State) (hphase : s.ctl.shaking b.val .cleared = true) (hone : s.ctl.bayExts b.val = [i])
    (hnode : isNode (s.ctl.ext i).base = true) (htray : s.ctl.isTray (nodeOf (s.ctl.ext i).base) = true)
    (hlive : (s.ctl.ep (nodeOf (s.ctl.ext i).base)).live = true) : Completes (.shakeoutRevoke b) s (fun t =>
    (t.ctl.ext i).st = .revoking ∧ (t.ctl.ext i).dropped = true ∧ (t.ctl.ext i).revAt = s.ctl.now ∧ (∃ x ∈ t.ctl.owns, x.why = .extDrop i) ∧ Keeps s t) := by
  have hexec := shakeoutRevoke_eq (.inl hphase)
  rw [hone, List.foldl_cons, List.foldl_nil, State.revokeExt_tray hnode htray hlive] at hexec
  obtain ⟨-, hext, -⟩ := s.ctl.revoke_spec i
  have hdrop : ∃ f : Frame, (s.ctl.revoke i).sendExtDrop i
      = ((s.ctl.revoke i).putExt i { (s.ctl.revoke i).ext i with dropped := true }).sendOwn (nodeOf ((s.ctl.revoke i).ext i).base) f (.extDrop i) := ⟨_, rfl⟩
  obtain ⟨f, hdrop⟩ := hdrop
  obtain ⟨hexts, x, -, hwhy, howns⟩ := Ctl.sendOwn_spec ((s.ctl.revoke i).putExt i { (s.ctl.revoke i).ext i with dropped := true })
    (nodeOf ((s.ctl.revoke i).ext i).base) f (.extDrop i)
  rw [← hdrop] at hexts howns
  have hafter : ((s.ctl.revoke i).sendExtDrop i).ext i = { (s.ctl.revoke i).ext i with dropped := true } := by
    rw [Ctl.ext, hexts]
    exact Ctl.ext_putExt (s.ctl.revoke i) i _
  rw [hext] at hafter
  refine Completes.of_done hexec ⟨(congrArg Extent.st hafter :), (congrArg Extent.dropped hafter :), (congrArg Extent.revAt hafter :), ⟨x, ?_, hwhy⟩, rfl, rfl⟩
  show x ∈ ((s.ctl.revoke i).sendExtDrop i).owns
  rw [howns]
  exact List.mem_append_right _ List.mem_cons_self

end Sys2Proof.Machine

namespace Sys2Proof.Machine

/-! ### Memory that is cleared -/

theorem cellGet_filter (l : List Host.Cell) (p : Nat → Bool) (k : Nat) : cellGet (l.filter (fun c => p c.1)) k = if p k then cellGet l k else 0 := by
  induction l with
  | nil => simp [cellGet]
  | cons c l ih =>
    obtain ⟨a, v⟩ := c
    by_cases hk : a = k
    · subst hk
      by_cases hp : p a <;> simp_all [cellGet]
    · by_cases hp : p a <;> simp_all [cellGet]

theorem Mem.byte_clear (m : Mem) (k n j : Nat) : (m.clear k n).byte j = if k ≤ j ∧ j < k + n then 0 else m.byte j := by
  have h := cellGet_filter m.cells (fun a => !(decide (k ≤ a) && decide (a < k + n))) j
  refine h.trans ?_
  by_cases hj : k ≤ j ∧ j < k + n <;> simp [hj, Mem.byte]

/-! ### Mailboxes of a bay (R420) -/

/-- No mailbox is listed for an endpoint. -/
def Ctl.NoMbx (e : Nat) (c : Ctl) : Prop := ∀ x ∈ c.mbxs, x.1 ≠ e

theorem Ctl.NoMbx.mbx {e : Nat} {c : Ctl} (h : c.NoMbx e) : c.mbx e = Mbx.init := by
  rw [Ctl.mbx, Tab.get, Tab.find?_none h]
  rfl

theorem Ctl.mbxs_clearMbx (c : Ctl) (e : Nat) : (c.clearMbx e).mbxs = Tab.del c.mbxs e := by
  unfold Ctl.clearMbx Ctl.putMbx Tab.set
  dsimp only
  exact if_pos rfl

theorem Ctl.noMbx_clearMbx (c : Ctl) (e : Nat) : (c.clearMbx e).NoMbx e := by
  intro x hx
  rw [Ctl.mbxs_clearMbx] at hx
  simpa using (List.mem_filter.mp hx).2

theorem Ctl.NoMbx.clearMbx {e : Nat} {c : Ctl} (h : c.NoMbx e) (i : Nat) : (c.clearMbx i).NoMbx e := by
  intro x hx
  rw [Ctl.mbxs_clearMbx] at hx
  exact h x (List.mem_of_mem_filter hx)

theorem Ctl.NoMbx.unbindPlace {e : Nat} {c : Ctl} (h : c.NoMbx e) (bay n : Nat) : (c.unbindPlace bay n).NoMbx e := by
  intro x hx
  obtain ⟨y, hy, hxy⟩ := List.mem_filterMap.mp hx
  obtain ⟨-, hkey⟩ := Option.ite_none_left_eq_some.mp hxy
  rw [← Option.some.inj hkey]
  exact h y hy

/-- A mailbox whose post or binding carries the bay. -/
def Mbx.carries (m : Mbx) (bay : Nat) : Bool := (m.go && m.bay == bay) || (match m.bound with | some (b, _) => b == bay | none => false)

theorem Mbx.carries_of {m : Mbx} {bay : Nat} (h : (m.go = true ∧ m.bay = bay) ∨ ∃ n, m.bound = some (bay, n)) : m.carries bay = true := by
  obtain ⟨hgo, hbay⟩ | ⟨n, hn⟩ := h
  · simp [Mbx.carries, hgo, hbay]
  · simp [Mbx.carries, hn]

theorem Tab.mem_of_find? {α : Type} {t : Tab α} {k : Nat} {v : α} (h : t.find? k = some v) : (k, v) ∈ t := by
  induction t with
  | nil => cases h
  | cons e t ih =>
    obtain ⟨j, w⟩ := e
    by_cases hj : j = k
    · simp only [Tab.find?, hj, if_pos] at h
      cases h
      rw [hj]
      exact List.mem_cons_self
    · simp only [Tab.find?, hj, if_false] at h
      exact List.mem_cons_of_mem _ (ih h)

/-- A key whose value differs from what is not listed is listed with it. -/
theorem Tab.mem_of_get {α : Type} {t : Tab α} {k : Nat} {d : α} (h : t.get k d ≠ d) : (k, t.get k d) ∈ t := by
  unfold Tab.get at *
  cases hf : t.find? k with
  | none => exact absurd (by rw [hf]; rfl) h
  | some v => exact Tab.mem_of_find? hf

theorem Tab.mem_keysWhere {α : Type} {t : Tab α} {p : Nat → α → Bool} {k : Nat} {v : α} (h : (k, v) ∈ t) (hp : p k v = true) : k ∈ t.keysWhere p :=
  List.mem_filterMap.mpr ⟨(k, v), h, if_pos hp⟩

theorem Ctl.noMbx_clearBayMbxs (c : Ctl) {bay e : Nat} (h : (c.mbx e).carries bay = true) : (c.clearBayMbxs bay).NoMbx e := by
  have hmem : e ∈ c.mbxs.keysWhere (fun _ m => m.carries bay) := by
    refine Tab.mem_keysWhere (v := c.mbx e) (Tab.mem_of_get (d := Mbx.init) (fun hinit => ?_)) h
    rw [Ctl.mbx, hinit] at h
    cases h
  exact foldl_establishes (P := Ctl.NoMbx e) (f := Ctl.clearMbx) (x := e) (fun d i hd => hd.clearMbx i) (fun d => d.noMbx_clearMbx e) _ hmem c

/-- Clearing mailboxes touches nothing else. -/
theorem Ctl.clearBayMbxs_same (c : Ctl) (bay : Nat) : c.clearBayMbxs bay = { c with mbxs := (c.clearBayMbxs bay).mbxs } :=
  List.foldlRecOn (motive := fun d : Ctl => d = { c with mbxs := d.mbxs }) _ _ rfl
    (fun d h i _ => (congrArg (fun x : Ctl => { x with mbxs := (d.clearMbx i).mbxs }) h :))

/-! ### Tiles and placements of a bay (R372, R374) -/

/-- Unbinding touches placements and mailboxes. -/
structure Ctl.Unbinds (c d : Ctl) : Prop where
  same : d = { c with places := d.places, mbxs := d.mbxs }

/-- The placements of a list are unbound. -/
def Ctl.unbinds (c : Ctl) (l : List Place) : Ctl := l.foldl Ctl.unbind c

theorem Ctl.unbinds_same (c : Ctl) (l : List Place) : c.Unbinds (c.unbinds l) :=
  List.foldlRecOn (motive := c.Unbinds) l _ ⟨rfl⟩
    (fun d h p _ => ⟨(congrArg (fun x : Ctl => { x with places := (d.unbind p).places, mbxs := (d.unbind p).mbxs }) h.same :)⟩)

theorem Ctl.NoMbx.unbinds {e : Nat} {c : Ctl} (h : c.NoMbx e) (l : List Place) : (c.unbinds l).NoMbx e :=
  List.foldlRecOn (motive := Ctl.NoMbx e) l _ h (fun d hd p _ => Ctl.NoMbx.unbindPlace (c := { d with places := _ }) hd p.bay p.handle)

/-- A bay's placements are all unbound. -/
theorem Ctl.places_unbinds (c : Ctl) {bay : Nat} {p : Place} (h : p ∈ (c.unbinds (c.places.filter (fun p => p.bay == bay))).places) : p.bay ≠ bay := by
  intro hbay
  have hsub : ∀ l : List Place, ∀ d : Ctl, p ∈ (d.unbinds l).places → p ∈ d.places ∧ p ∉ l := by
    intro l
    induction l with
    | nil => exact fun d hd => ⟨hd, List.not_mem_nil⟩
    | cons x l ih =>
      intro d hd
      obtain ⟨hmem, hl⟩ := ih (d.unbind x) hd
      obtain ⟨hd', hne⟩ := List.mem_filter.mp hmem
      refine ⟨hd', fun hx => ?_⟩
      obtain rfl | hx := List.mem_cons.mp hx
      · simp at hne
      · exact hl hx
  obtain ⟨hmem, hnot⟩ := hsub _ c h
  exact hnot (List.mem_filter.mpr ⟨hmem, by simp [hbay]⟩)

/-- A tile that is cleared: at reset, its scratchpad zero. -/
def State.TileClear (j : Nat) (s : State) : Prop := s.ctl.tile j = Tile.init ∧ ∀ a, a < 2 ^ 21 → s.mem.byte (scratchKey j a) = 0

theorem State.tileClear_clearTile (s : State) (j : Nat) : (s.clearTile j).TileClear j := by
  refine ⟨Ctl.tile_putTile _ _ _, fun a ha => ?_⟩
  show (s.mem.clear (scratchKey j 0) (2 ^ 21)).byte (scratchKey j a) = 0
  rw [Mem.byte_clear, if_pos (by simp only [scratchKey]; omega)]

theorem State.TileClear.clearTile {j : Nat} {s : State} (h : s.TileClear j) (i : Nat) : (s.clearTile i).TileClear j := by
  obtain ⟨htile, hzero⟩ := h
  refine ⟨?_, fun a ha => ?_⟩
  · by_cases hi : j = i
    · rw [hi]
      exact Ctl.tile_putTile _ _ _
    · exact (Ctl.tile_putTile_ne _ _ _ _ hi).trans htile
  · show (s.mem.clear (scratchKey i 0) (2 ^ 21)).byte (scratchKey j a) = 0
    rw [Mem.byte_clear, hzero a ha, ite_self]

/-- The tiles of a list are cleared. -/
def State.clearAll (s : State) (ts : List Nat) : State := ts.foldl State.clearTile s

theorem State.clearAll_clears (s : State) {ts : List Nat} {j : Nat} (h : j ∈ ts) : (s.clearAll ts).TileClear j :=
  foldl_establishes (P := State.TileClear j) (f := State.clearTile) (x := j) (fun _ i hs => hs.clearTile i) (fun t => t.tileClear_clearTile j) ts h s

theorem State.clearAll_same (s : State) (ts : List Nat) :
    s.clearAll ts = { s with ctl := { s.ctl with tiles := (s.clearAll ts).ctl.tiles }, mem := (s.clearAll ts).mem } :=
  List.foldlRecOn (motive := fun t : State => t = { s with ctl := { s.ctl with tiles := t.ctl.tiles }, mem := t.mem }) ts _ rfl
    (fun t h i _ => (congrArg (fun x : State => { x with ctl := { x.ctl with tiles := (t.clearTile i).ctl.tiles }, mem := (t.clearTile i).mem }) h :))

/-- The physical tiles of a bay: those assigned to it, and those of its placements. -/
def Ctl.bayPhys (c : Ctl) (bay : Nat) : List Nat :=
  insertAll [] ((c.bayTiles bay).map c.physOf ++ (c.places.filter (fun p => p.bay == bay)).flatMap (fun p => p.tiles))

theorem State.clearTiles_eq (s : State) (bay : Nat) :
    s.clearTiles bay = (s.onCtl (fun c => c.unbinds (c.places.filter (fun p => p.bay == bay)))).clearAll (s.ctl.bayPhys bay) := rfl

theorem Ctl.mem_bayPhys_of_tile {c : Ctl} {bay l : Nat} (h : l ∈ c.bayTiles bay) : c.physOf l ∈ c.bayPhys bay :=
  mem_insertAll (List.mem_append_left _ (List.mem_map_of_mem h))

theorem Ctl.mem_bayPhys_of_place {c : Ctl} {bay j : Nat} {p : Place} (hp : p ∈ c.places) (hb : p.bay = bay) (hj : j ∈ p.tiles) : j ∈ c.bayPhys bay :=
  mem_insertAll (List.mem_append_right _ (List.mem_flatMap.mpr ⟨p, List.mem_filter.mpr ⟨hp, by simp [hb]⟩, hj⟩))

end Sys2Proof.Machine

namespace Sys2Proof.Machine

/-! ### KV space that is given up (R355, R366) -/

theorem Ctl.pageWork_kvRelease (c : Ctl) (n : Nat) : c.PageWork (c.kvRelease n) := by
  unfold Ctl.kvRelease
  split
  · exact .refl c
  · next pg _ =>
    split
    · exact c.pageWork_putKvPage _ _
    · extract_lets d whole e f g
      have hd : c.PageWork d := ⟨rfl, fun _ _ => rfl⟩
      have he : d.PageWork e := d.pageWork_freeKeys _ _ _
      have hf : e.PageWork f := by
        unfold f
        split
        · exact .refl e
        · exact e.pageWork_freeKeys _ _ _
      have hg : f.PageWork g := by
        unfold g
        split
        · exact .refl f
        · exact f.pageWork_freeKeys _ _ _
      exact (((hd.trans he).trans hf).trans hg).trans (g.pageWork_bump _ (by decide))

/-- `c` with the records of `d` that giving up KV space touches. -/
def Ctl.withKv (c d : Ctl) : Ctl := { c.withPages d with kvBlocks := d.kvBlocks, kvNodes := d.kvNodes, kvRegions := d.kvRegions }

/-- KV space is given up: no node and no region is added. -/
structure Ctl.KvClears (c d : Ctl) : Prop where
  same : d = c.withKv d
  regs : ∀ a, a < 0x08000000 → d.reg a = c.reg a
  nodes : ∀ n ∈ d.kvNodes, n ∈ c.kvNodes
  regions : ∀ r ∈ d.kvRegions, r ∈ c.kvRegions

theorem Ctl.KvClears.refl (c : Ctl) : c.KvClears c := ⟨rfl, fun _ _ => rfl, fun _ h => h, fun _ h => h⟩
theorem Ctl.KvClears.trans {c d e : Ctl} (h : c.KvClears d) (k : d.KvClears e) : c.KvClears e where
  same := k.same.trans (congrArg (fun x : Ctl => x.withKv e) h.same :)
  regs a ha := (k.regs a ha).trans (h.regs a ha)
  nodes n hn := h.nodes n (k.nodes n hn)
  regions r hr := h.regions r (k.regions r hr)

theorem Ctl.KvClears.foldl {α : Type} {f : Ctl → α → Ctl} (hf : ∀ (c : Ctl) a, c.KvClears (f c a)) (l : List α) (c : Ctl) : c.KvClears (l.foldl f c) :=
  List.foldlRecOn (motive := c.KvClears) l f (.refl c) (fun _ h a _ => h.trans (hf _ a))

theorem Ctl.PageWork.kvClears {c d : Ctl} (h : c.PageWork d) : c.KvClears d where
  same := by
    have hblocks : d.kvBlocks = c.kvBlocks := (congrArg Ctl.kvBlocks h.same :)
    have hnodes : d.kvNodes = c.kvNodes := (congrArg Ctl.kvNodes h.same :)
    have hregions : d.kvRegions = c.kvRegions := (congrArg Ctl.kvRegions h.same :)
    rw [Ctl.withKv, hblocks, hnodes, hregions]
    exact h.same
  regs := h.regs
  nodes n hn := (congrArg Ctl.kvNodes h.same :) ▸ hn
  regions r hr := (congrArg Ctl.kvRegions h.same :) ▸ hr

theorem Ctl.kvClears_dropBlock (c : Ctl) (b : Nat) : c.KvClears (c.dropBlock b) := by
  unfold Ctl.dropBlock
  split
  · exact .refl c
  · split
    · exact .refl c
    · have hdel : c.KvClears { c with kvBlocks := c.kvBlocks.del b } := ⟨rfl, fun _ _ => rfl, fun _ h => h, fun _ h => h⟩
      refine hdel.trans (Ctl.KvClears.foldl (fun d p => ?_) _ _)
      dsimp only
      split
      · exact (d.pageWork_kvRelease p).kvClears
      · split
        · exact ((d.pageWork_putKvPage _ _).trans (Ctl.pageWork_kvRelease _ p)).kvClears
        · exact (d.pageWork_kvRelease p).kvClears

/-- The nodes without those of a domain and key. -/
def Ctl.withoutNode (c : Ctl) (n : KvNode) : Ctl := { c with kvNodes := c.kvNodes.filter (fun x => !(x.domain == n.domain && x.key == n.key)) }

theorem Ctl.kvClears_withoutNode (c : Ctl) (n : KvNode) : c.KvClears (c.withoutNode n) :=
  ⟨rfl, fun _ _ => rfl, fun _ h => List.mem_of_mem_filter h, fun _ h => h⟩

theorem Ctl.kvClears_dropNode (c : Ctl) (n : KvNode) : c.KvClears (c.dropNode n) :=
  (c.kvClears_withoutNode n).trans (Ctl.kvClears_dropBlock _ _)

theorem Ctl.not_mem_dropNode (c : Ctl) (n : KvNode) : n ∉ (c.dropNode n).kvNodes := fun h => by
  have hkept : n ∈ (c.withoutNode n).kvNodes := (Ctl.kvClears_dropBlock (c.withoutNode n) n.blockRec).nodes n h
  simpa using (List.mem_filter.mp hkept).2

theorem Ctl.kvClears_dropSubtree (fuel : Nat) : ∀ (c : Ctl) (n : KvNode), c.KvClears (c.dropSubtree n fuel) := by
  induction fuel with
  | zero => exact fun c _ => .refl c
  | succ fuel ih =>
    intro c n
    rw [Ctl.dropSubtree]
    exact (Ctl.KvClears.foldl ih _ c).trans (Ctl.kvClears_dropNode _ n)

theorem Ctl.not_mem_dropSubtree (c : Ctl) (n : KvNode) {fuel : Nat} (h : 0 < fuel) : n ∉ (c.dropSubtree n fuel).kvNodes := by
  obtain ⟨k, rfl⟩ := Nat.exists_eq_add_of_lt h
  rw [Nat.zero_add, Ctl.dropSubtree]
  exact Ctl.not_mem_dropNode _ n

/-- The pages of a region are released. -/
def Ctl.releasePages (c : Ctl) (r : KvRegion) : Ctl := r.pages.foldl (fun (e : Ctl) p => e.kvRelease p.2) c

/-- A region of a bay is destroyed. -/
def Ctl.dropRegion (c : Ctl) (bay : Nat) (r : KvRegion) : Ctl :=
  { c.releasePages r with kvRegions := (c.releasePages r).kvRegions.filter (fun x => !(x.bay == bay && x.index == r.index)) }

theorem Ctl.kvClears_dropRegion (c : Ctl) (bay : Nat) (r : KvRegion) : c.KvClears (c.dropRegion bay r) := by
  have hpages : c.PageWork (c.releasePages r) := Ctl.PageWork.foldl (fun d (p : Nat × Nat) => d.pageWork_kvRelease p.2) _ c
  unfold Ctl.dropRegion
  generalize c.releasePages r = d at hpages
  exact hpages.kvClears.trans ⟨rfl, fun _ _ => rfl, fun _ h => h, fun _ h => List.mem_of_mem_filter h⟩

theorem Ctl.not_mem_dropRegion (c : Ctl) {bay : Nat} {r : KvRegion} (h : r.bay = bay) : r ∉ (c.dropRegion bay r).kvRegions := fun hr => by
  simpa [h] using (List.mem_filter.mp hr).2

/-- A node of the tree goes with its descendants, if it is still there. -/
def Ctl.dropTree (c : Ctl) (n : KvNode) : Ctl := if c.kvNodes.contains n then c.dropSubtree n c.kvNodes.length else c

theorem Ctl.kvClears_dropTree (c : Ctl) (n : KvNode) : c.KvClears (c.dropTree n) := by
  unfold Ctl.dropTree
  split
  · exact Ctl.kvClears_dropSubtree _ c n
  · exact .refl c

theorem Ctl.not_mem_dropTree (c : Ctl) (n : KvNode) : n ∉ (c.dropTree n).kvNodes := by
  unfold Ctl.dropTree
  split
  · next h => exact Ctl.not_mem_dropSubtree c n (List.length_pos_of_mem (List.contains_iff_mem.mp h))
  · next h => exact fun hn => h (List.contains_iff_mem.mpr hn)

/-- The regions of a bay are destroyed. -/
def Ctl.dropRegions (c : Ctl) (bay : Nat) : Ctl := (c.kvRegions.filter (fun r => r.bay == bay)).foldl (fun d r => d.dropRegion bay r) c

/-- The nodes of a bay are removed, with their descendants. -/
def Ctl.dropTrees (c : Ctl) (bay : Nat) : Ctl := (c.kvNodes.filter (fun n => n.bay == bay)).foldl Ctl.dropTree c

theorem Ctl.clearKv_eq (c : Ctl) (bay : Nat) : c.clearKv bay = (c.dropRegions bay).dropTrees bay := rfl

theorem Ctl.kvClears_clearKv (c : Ctl) (bay : Nat) : c.KvClears (c.clearKv bay) := by
  rw [Ctl.clearKv_eq]
  exact (Ctl.KvClears.foldl (fun d r => d.kvClears_dropRegion bay r) _ c).trans (Ctl.KvClears.foldl Ctl.kvClears_dropTree _ _)

theorem Ctl.regions_clearKv (c : Ctl) {bay : Nat} {r : KvRegion} (h : r ∈ (c.clearKv bay).kvRegions) : r.bay ≠ bay := by
  intro hbay
  rw [Ctl.clearKv_eq] at h
  have hafter : r ∈ (c.dropRegions bay).kvRegions := (Ctl.KvClears.foldl Ctl.kvClears_dropTree _ (c.dropRegions bay)).regions r h
  have hbefore : r ∈ c.kvRegions := (Ctl.KvClears.foldl (fun d x => d.kvClears_dropRegion bay x) _ c).regions r hafter
  exact foldl_establishes (P := fun d : Ctl => r ∉ d.kvRegions) (f := fun (d : Ctl) x => d.dropRegion bay x) (x := r)
    (fun d x hd hr => hd ((d.kvClears_dropRegion bay x).regions r hr)) (fun d => d.not_mem_dropRegion hbay) _
    (List.mem_filter.mpr ⟨hbefore, by simp [hbay]⟩) c hafter

theorem Ctl.nodes_clearKv (c : Ctl) {bay : Nat} {n : KvNode} (h : n ∈ (c.clearKv bay).kvNodes) : n.bay ≠ bay := by
  intro hbay
  rw [Ctl.clearKv_eq] at h
  have hbefore : n ∈ (c.dropRegions bay).kvNodes := (Ctl.KvClears.foldl Ctl.kvClears_dropTree _ (c.dropRegions bay)).nodes n h
  exact foldl_establishes (P := fun d : Ctl => n ∉ d.kvNodes) (f := Ctl.dropTree) (x := n)
    (fun d x hd hn => hd ((d.kvClears_dropTree x).nodes n hn)) (fun d => d.not_mem_dropTree n) _
    (List.mem_filter.mpr ⟨hbefore, by simp [hbay]⟩) (c.dropRegions bay) h

theorem Ctl.pageWork_rsaFree (c : Ctl) (bay : Nat) : c.PageWork (c.rsaFree bay) :=
  (Ctl.PageWork.foldl (fun d l => d.pageWork_freeLoc bay l) _ c).trans (Ctl.pageWork_putRsa _ bay Rsa.init)

theorem Ctl.rsa_rsaFree (c : Ctl) (bay : Nat) : (c.rsaFree bay).rsa bay = Rsa.init := Ctl.rsa_putRsa _ bay Rsa.init

end Sys2Proof.Machine

namespace Sys2Proof.Machine

/-! ### Queues of a bay (R245) -/

/-- A queue is disabled and at reset. -/
def Ctl.offQueue (c : Ctl) (q : Nat) : Ctl := (c.wr (Reg.queEnable q) 0).putQue q Que.init

/-- Queues are taken away: of the registers only their configuration words move. -/
structure Ctl.QueWork (c d : Ctl) : Prop where
  same : d = { c with regs := d.regs, ques := d.ques }
  regs : ∀ a, (∀ q, a ≠ Reg.queBase q + 0x10) → d.reg a = c.reg a

theorem Ctl.QueWork.trans {c d e : Ctl} (h : c.QueWork d) (k : d.QueWork e) : c.QueWork e where
  same := k.same.trans (congrArg (fun x : Ctl => { x with regs := e.regs, ques := e.ques }) h.same :)
  regs a ha := (k.regs a ha).trans (h.regs a ha)

theorem Ctl.queWork_wr (c : Ctl) {f : Fld} {q : Nat} (h : f.addr = Reg.queBase q + 0x10) (v : Nat) : c.QueWork (c.wr f v) :=
  ⟨rfl, fun a ha => Ctl.reg_wr_ne c f v a (h ▸ ha q)⟩
theorem Ctl.queWork_putQue (c : Ctl) (q : Nat) (x : Que) : c.QueWork (c.putQue q x) := ⟨rfl, fun _ _ => rfl⟩

theorem Ctl.queWork_offQueue (c : Ctl) (q : Nat) : c.QueWork (c.offQueue q) := (c.queWork_wr (f := Reg.queEnable q) rfl 0).trans (Ctl.queWork_putQue _ q Que.init)

theorem Ctl.clearQueues_eq (c : Ctl) (bay : Nat) : c.clearQueues bay = (c.bayQueues bay).foldl Ctl.offQueue c := rfl

theorem Ctl.queWork_clearQueues (c : Ctl) (bay : Nat) : c.QueWork (c.clearQueues bay) := by
  rw [Ctl.clearQueues_eq]
  exact List.foldlRecOn (motive := c.QueWork) _ _ ⟨rfl, fun _ _ => rfl⟩ (fun d h q _ => h.trans (d.queWork_offQueue q))

theorem Ctl.que_offQueue (c : Ctl) (q j : Nat) : (c.offQueue q).que j = if j = q then Que.init else c.que j := by
  by_cases hj : j = q
  · rw [if_pos hj, hj]
    exact Ctl.que_putQue _ q Que.init
  · rw [if_neg hj]
    exact (Ctl.que_putQue_ne _ q Que.init j hj).trans (congrArg (fun l : Tab Que => l.get j Que.init) (Ctl.wr_ques c _ _))

/-- Exactly the queues of the bay are at reset; the others stand. -/
theorem Ctl.que_clearQueues (c : Ctl) (bay q : Nat) : (c.clearQueues bay).que q = if c.rd (Reg.queBay q) = bay then Que.init else c.que q := by
  rw [Ctl.clearQueues_eq]
  by_cases hbay : c.rd (Reg.queBay q) = bay
  · rw [if_pos hbay]
    by_cases hlisted : q ∈ List.map (fun e : Nat × Que => e.1) c.ques
    · exact foldl_establishes (P := fun d : Ctl => d.que q = Que.init) (f := Ctl.offQueue) (x := q)
        (fun d j hd => by rw [Ctl.que_offQueue, hd, ite_self]) (fun d => by rw [Ctl.que_offQueue, if_pos rfl])
        _ (List.mem_filter.mpr ⟨hlisted, by simp [hbay]⟩) c
    · have hinit : c.que q = Que.init := by
        rw [Ctl.que, Tab.get, Tab.find?_none (fun e he hk => hlisted (List.mem_map.mpr ⟨e, he, hk⟩))]
        rfl
      exact List.foldlRecOn (motive := fun d : Ctl => d.que q = Que.init) _ Ctl.offQueue hinit
        (fun d hd j _ => by rw [Ctl.que_offQueue, hd, ite_self])
  · rw [if_neg hbay]
    refine List.foldlRecOn (motive := fun d : Ctl => d.que q = c.que q) _ Ctl.offQueue rfl (fun d hd j hj => ?_)
    have hjq : q ≠ j := by
      rintro rfl
      exact hbay (by simpa using (List.mem_filter.mp hj).2)
    rw [Ctl.que_offQueue, if_neg hjq, hd]

/-! ### Domains of a bay (R181) -/

/-- Domains change hands: of the registers only DIR_STATUS moves. -/
structure Ctl.DomWork (c d : Ctl) : Prop where
  same : d = { c with regs := d.regs, doms := d.doms }
  regs : ∀ a, a ≠ Reg.dirBusy.addr → d.reg a = c.reg a

theorem Ctl.DomWork.trans {c d e : Ctl} (h : c.DomWork d) (k : d.DomWork e) : c.DomWork e where
  same := k.same.trans (congrArg (fun x : Ctl => { x with regs := e.regs, doms := e.doms }) h.same :)
  regs a ha := (k.regs a ha).trans (h.regs a ha)

/-- With an empty directory no entry of a domain is freed. -/
theorem State.freeEntries_none {s : State} (h : s.ctl.dir = []) (d : Nat) : s.freeEntries d = s := by
  have hsame : s.onCtl (fun c => { c with dir := c.dir.filter (fun e => e.dom != d) }) = s := by
    unfold State.onCtl
    dsimp only
    rw [h, List.filter_nil, ← h]
  unfold State.freeEntries
  rw [hsame, h]
  rfl

/-- A domain is FREE; the drain command that named it ends. -/
def Ctl.freeDomain (c : Ctl) (d : Nat) : Ctl :=
  if (c.dom d).st = .draining && (c.putDom d { c.dom d with st := .free, agents := [] }).rd Reg.dirDom = d
    then (c.putDom d { c.dom d with st := .free, agents := [] }).wr Reg.dirBusy 0 else c.putDom d { c.dom d with st := .free, agents := [] }

theorem Ctl.domWork_freeDomain (c : Ctl) (d : Nat) : c.DomWork (c.freeDomain d) := by
  unfold Ctl.freeDomain
  split
  · exact ⟨rfl, fun a ha => Ctl.reg_wr_ne _ Reg.dirBusy 0 a ha⟩
  · exact ⟨rfl, fun _ _ => rfl⟩

theorem State.clearDomains_spec {s : State} (h : s.ctl.dir = []) (bay : Nat) : ∃ d, s.clearDomains bay = { s with ctl := d } ∧ s.ctl.DomWork d := by
  unfold State.clearDomains
  refine List.foldlRecOn (motive := fun t : State => ∃ d, t = { s with ctl := d } ∧ s.ctl.DomWork d) _ _ ⟨s.ctl, rfl, rfl, fun _ _ => rfl⟩
    (fun t ht n _ => ?_)
  obtain ⟨d, rfl, hd⟩ := ht
  have hdir : d.dir = [] := (congrArg Ctl.dir hd.same :).trans h
  refine ⟨d.freeDomain n, ?_, hd.trans (d.domWork_freeDomain n)⟩
  dsimp only
  rw [State.freeEntries_none (s := { s with ctl := d }) hdir n]
  rfl

/-! ### Counters, regions of publication, channels of a bay (R411) -/

/-- The counters of a window, and the clamp counter. -/
def Ctl.zeroWindow (c : Ctl) (bay lo hi : Nat) : Ctl :=
  { c with ctrs := c.ctrs.filter (fun e => !(decide (lo ≤ e.1) && decide (e.1 < hi))) }.putReg (Reg.bayClamp bay) 0

theorem Ctl.counter_zeroWindow (c : Ctl) (bay lo hi j : Nat) : (c.zeroWindow bay lo hi).counter j = if lo ≤ j ∧ j < hi then 0 else c.counter j := by
  have h := Tab.get_filter c.ctrs (fun a => !(decide (lo ≤ a) && decide (a < hi))) j 0
  refine h.trans ?_
  by_cases hj : lo ≤ j ∧ j < hi <;> simp [hj, Ctl.counter]

/-- The regions of publication that a list names are invalid. -/
def Ctl.closeRegions (c : Ctl) (l : List Nat) : Ctl := l.foldl (fun d r => d.wr (Reg.regionValid r) 0) c

theorem Ctl.writes_closeRegions (c : Ctl) (l : List Nat) : c.Writes (c.closeRegions l) :=
  List.foldlRecOn (motive := c.Writes) l _ (.refl c) (fun _ h r _ => h.wr (Reg.regionValid r) 0)

theorem Ctl.reg_closeRegions (c : Ctl) (l : List Nat) {a : Nat} (h : ∀ r, a ≠ Reg.regionWord r 2) : (c.closeRegions l).reg a = c.reg a :=
  List.foldlRecOn (motive := fun d : Ctl => d.reg a = c.reg a) l _ rfl (fun d hd r _ => (Ctl.reg_wr_ne d (Reg.regionValid r) 0 a (h r)).trans hd)

/-- A channel as it stands without an assignment: only CLAMPS is left. -/
def Chan.cleared (x : Chan) : Chan := { Chan.init with clamps := x.clamps }

/-- Channels are cleared. -/
def Ctl.clearChans (c : Ctl) (l : List Nat) : Ctl := l.foldl (fun d k => d.putChan k (d.chan k).cleared) c

theorem Ctl.chan_putCleared (c : Ctl) (i k : Nat) : (c.putChan i (c.chan i).cleared).chan k = if k = i then (c.chan k).cleared else c.chan k := by
  by_cases hk : k = i
  · rw [if_pos hk, hk, Ctl.chan_putChan]
  · rw [if_neg hk, Ctl.chan_putChan_ne _ _ _ _ hk]

theorem Ctl.clearChans_same (c : Ctl) (l : List Nat) : c.clearChans l = { c with chans := (c.clearChans l).chans } :=
  List.foldlRecOn (motive := fun d : Ctl => d = { c with chans := d.chans }) l _ rfl
    (fun d h k _ => (congrArg (fun x : Ctl => { x with chans := (d.putChan k (d.chan k).cleared).chans }) h :))

theorem Ctl.chan_clearChans (c : Ctl) {l : List Nat} {k : Nat} (h : k ∈ l) : (c.clearChans l).chan k = (c.chan k).cleared := by
  have hclamps : ((c.clearChans l).chan k).clamps = (c.chan k).clamps :=
    List.foldlRecOn (motive := fun d : Ctl => (d.chan k).clamps = (c.chan k).clamps) l _ rfl (fun d hd i _ => by
      rw [Ctl.chan_putCleared]
      split
      · exact hd
      · exact hd)
  have hcleared : (c.clearChans l).chan k = ((c.clearChans l).chan k).cleared :=
    foldl_establishes (P := fun d : Ctl => d.chan k = (d.chan k).cleared) (f := fun (d : Ctl) k => d.putChan k (d.chan k).cleared) (x := k)
      (fun d i hd => by
        rw [Ctl.chan_putCleared]
        split
        · rfl
        · exact hd)
      (fun d => by
        rw [Ctl.chan_putCleared, if_pos rfl]
        rfl) l h c
  rw [hcleared, Chan.cleared, hclamps, ← Chan.cleared]

theorem regReset_chan {k : Nat} (h : k < 512) : regReset (0x0D010000 + 0x40 * k) = 0 := by
  unfold regReset
  simp only [show ¬ 0x0D010000 + 0x40 * k < 0x01000000 by omega, show ¬ 0x0D010000 + 0x40 * k < 0x02000000 by omega,
    show ¬ 0x0D010000 + 0x40 * k < 0x04000000 by omega, show ¬ 0x0D010000 + 0x40 * k < 0x05000000 by omega,
    show ¬ 0x0D010000 + 0x40 * k < 0x0A000000 by omega, show 0x0D010000 + 0x40 * k < 0x0F000000 by omega, if_true, if_false, inArray]
  have e1 : ¬ 0x0D010000 + 0x40 * k < 0x0A010000 + 8 * 4096 := by omega
  have e2 : ¬ 0x0D010000 + 0x40 * k < 0x0B010000 + 8 * 4096 := by omega
  have e3 : ¬ 0x0D010000 + 0x40 * k = 0x0B800000 := by omega
  have e4 : ¬ 0x0D010000 + 0x40 * k = 0x0D800000 := by omega
  simp [e1, e2, e3, e4]

/-- An assigned channel of the bay is among its channels. -/
theorem Ctl.mem_bayChans {c : Ctl} {bay k : Nat} (hk : k < 512) (hon : c.rd (Reg.ldlChAssigned (k / 32) (k % 32)) = 1) (hbay : c.chBay k = bay) :
    k ∈ c.bayChans bay := by
  have ha : Reg.ldlChBase (k / 32) (k % 32) = 0x0D010000 + 0x40 * k := by
    simp only [Reg.ldlChBase]
    omega
  have hword : c.reg (0x0D010000 + 0x40 * k) ≠ regReset (0x0D010000 + 0x40 * k) := fun h => by
    simp only [Ctl.rd, Reg.ldlChAssigned, ha, h, regReset_chan hk] at hon
    exact absurd hon (by decide)
  refine List.mem_filterMap.mpr ⟨_, Tab.mem_of_get hword, ?_⟩
  have hbit : field (c.reg (0x0D010000 + 0x40 * k)).toNat 12 1 = 1 := by
    rwa [Ctl.rd, Reg.ldlChAssigned, ha] at hon
  have hmine : field (c.reg (0x0D010000 + 0x40 * k)).toNat 0 12 = bay := by
    rw [← hbay, Ctl.chBay, Ctl.rd, Reg.ldlChBay, ha]
  have hin : inArray (0x0D010000 + 0x40 * k) 0x0D010000 0x40 512 0 = true := by
    simp only [inArray, Bool.and_eq_true, decide_eq_true_eq, beq_iff_eq]
    omega
  have hset : bitOf (c.reg (0x0D010000 + 0x40 * k)).toNat 12 = true := by
    simpa [bitOf, field] using hbit
  show (if _ then some ((0x0D010000 + 0x40 * k - 0x0D010000) / 0x40) else none) = some k
  rw [if_pos, show (0x0D010000 + 0x40 * k - 0x0D010000) / 0x40 = k by omega]
  rw [Bool.and_eq_true, Bool.and_eq_true, beq_iff_eq]
  exact ⟨⟨hin, hset⟩, hmine⟩

end Sys2Proof.Machine

namespace Sys2Proof.Machine

/-! ### Step 4 up to the window: mailboxes, tiles, queues, domains -/

/-- The first half of step 4. -/
def State.strip (s : State) (bay : Nat) : State :=
  (((((s.loseLines (fun l => (s.ctl.homeDirty.filter (s.ctl.bayLine bay)).contains l)).onCtl (·.clearBayMbxs bay)).clearTiles bay).onCtl
    (·.clearQueues bay)).clearDomains bay)

/-- With no dirty line in the home no line is lost. -/
theorem State.loseLines_none {s : State} (h : s.ctl.homeDirty = []) (p : Nat → Bool) : s.loseLines p = s := by
  unfold State.loseLines
  dsimp only
  rw [h, List.filter_nil, List.foldl_nil, h, List.filter_nil, ← h]

/-- What the first half of step 4 leaves of the control records. -/
structure Ctl.Strips (bay : Nat) (c d : Ctl) : Prop where
  same : d = { c with mbxs := d.mbxs, places := d.places, tiles := d.tiles, regs := d.regs, ques := d.ques, doms := d.doms }
  regs : ∀ a, a ≠ Reg.dirBusy.addr → (∀ q, a ≠ Reg.queBase q + 0x10) → d.reg a = c.reg a
  ques : ∀ q, d.que q = if c.rd (Reg.queBay q) = bay then Que.init else c.que q
  mbxs : ∀ e, (c.mbx e).carries bay = true → d.mbx e = Mbx.init
  places : ∀ p ∈ d.places, p.bay ≠ bay

/-- Mailboxes and placements: before the tiles are cleared. -/
def Ctl.unboundBay (c : Ctl) (bay : Nat) : Ctl := (c.clearBayMbxs bay).unbinds (c.places.filter (fun p => p.bay == bay))

theorem Ctl.unboundBay_same (c : Ctl) (bay : Nat) :
    c.unboundBay bay = { c with places := (c.unboundBay bay).places, mbxs := (c.unboundBay bay).mbxs } := by
  have hmbx := c.clearBayMbxs_same bay
  have hunb := ((c.clearBayMbxs bay).unbinds_same (c.places.filter (fun p => p.bay == bay))).same
  exact hunb.trans (congrArg (fun x : Ctl => { x with places := (c.unboundBay bay).places, mbxs := (c.unboundBay bay).mbxs }) hmbx :)

theorem Ctl.noMbx_unboundBay (c : Ctl) {bay e : Nat} (h : (c.mbx e).carries bay = true) : (c.unboundBay bay).NoMbx e :=
  (c.noMbx_clearBayMbxs h).unbinds _

theorem Ctl.places_unboundBay (c : Ctl) {bay : Nat} {p : Place} (h : p ∈ (c.unboundBay bay).places) : p.bay ≠ bay := by
  have hplaces : (c.clearBayMbxs bay).places = c.places := (congrArg Ctl.places (c.clearBayMbxs_same bay) :)
  unfold Ctl.unboundBay at h
  rw [← hplaces] at h
  exact Ctl.places_unbinds _ h

theorem Ctl.bayPhys_clearBayMbxs (c : Ctl) (bay : Nat) : (c.clearBayMbxs bay).bayPhys bay = c.bayPhys bay := by
  rw [c.clearBayMbxs_same bay]
  rfl

theorem State.clearTiles_unbound (s : State) (bay : Nat) :
    (s.onCtl (·.clearBayMbxs bay)).clearTiles bay = (State.clearAll { s with ctl := s.ctl.unboundBay bay } (s.ctl.bayPhys bay)) := by
  have hplaces : (s.ctl.clearBayMbxs bay).places = s.ctl.places := (congrArg Ctl.places (s.ctl.clearBayMbxs_same bay) :)
  rw [State.clearTiles_eq]
  unfold State.onCtl Ctl.unboundBay
  dsimp only
  rw [hplaces, Ctl.bayPhys_clearBayMbxs]

/-- The queues and domains go after the tiles. -/
theorem Ctl.Strips.of {bay : Nat} {c d e f g : Ctl} (hunb : d = { c with places := d.places, mbxs := d.mbxs }) (htile : e = { d with tiles := e.tiles })
    (hque : f = e.clearQueues bay) (hdom : f.DomWork g) (hmbx : ∀ i, (c.mbx i).carries bay = true → d.mbx i = Mbx.init)
    (hplace : ∀ p ∈ d.places, p.bay ≠ bay) : c.Strips bay g := by
  have hwork : e.QueWork f := hque ▸ e.queWork_clearQueues bay
  have hplaces : g.places = d.places := (congrArg Ctl.places hdom.same :).trans ((congrArg Ctl.places hwork.same :).trans (congrArg Ctl.places htile :))
  have hmbxs : g.mbxs = d.mbxs := (congrArg Ctl.mbxs hdom.same :).trans ((congrArg Ctl.mbxs hwork.same :).trans (congrArg Ctl.mbxs htile :))
  have htiles : g.tiles = e.tiles := (congrArg Ctl.tiles hdom.same :).trans (congrArg Ctl.tiles hwork.same :)
  have hques : g.ques = f.ques := (congrArg Ctl.ques hdom.same :)
  have heregs : e.regs = c.regs := (congrArg Ctl.regs htile :).trans (congrArg Ctl.regs hunb :)
  have heques : e.ques = c.ques := (congrArg Ctl.ques htile :).trans (congrArg Ctl.ques hunb :)
  refine ⟨?_, fun a ha hq => ?_, fun q => ?_, fun i hi => ?_, fun p hp => hplace p (hplaces ▸ hp)⟩
  · rw [hmbxs, hplaces, htiles, hques]
    have h2 := congrArg (fun x : Ctl => { x with tiles := e.tiles }) hunb
    have h3 := congrArg (fun x : Ctl => { x with regs := f.regs, ques := f.ques }) (htile.trans h2)
    exact hdom.same.trans (congrArg (fun x : Ctl => { x with regs := g.regs, doms := g.doms }) (hwork.same.trans h3))
  · have he : e.reg a = c.reg a := by rw [Ctl.reg, heregs, Ctl.reg]
    exact (hdom.regs a ha).trans ((hwork.regs a hq).trans he)
  · have hrd : e.rd (Reg.queBay q) = c.rd (Reg.queBay q) := Ctl.rd_congr (by rw [Ctl.reg, heregs, Ctl.reg])
    rw [Ctl.que, hques, ← Ctl.que, hque, Ctl.que_clearQueues, hrd, Ctl.que, heques, ← Ctl.que]
  · rw [Ctl.mbx, hmbxs, ← Ctl.mbx]
    exact hmbx i hi

theorem State.strip_spec {s : State} (hdirty : s.ctl.homeDirty = []) (hdir : s.ctl.dir = []) (bay : Nat) : ∃ d m,
    s.strip bay = { s with ctl := d, mem := m } ∧ s.ctl.Strips bay d
    ∧ ∀ j ∈ s.ctl.bayPhys bay, State.TileClear j { s with ctl := d, mem := m } := by
  have hsame := State.clearAll_same { s with ctl := s.ctl.unboundBay bay } (s.ctl.bayPhys bay)
  have hclear : ∀ j ∈ s.ctl.bayPhys bay, State.TileClear j (State.clearAll { s with ctl := s.ctl.unboundBay bay } (s.ctl.bayPhys bay)) :=
    fun j hj => State.clearAll_clears _ hj
  have hunb := s.ctl.unboundBay_same bay
  have hmbx := fun e (h : (s.ctl.mbx e).carries bay = true) => (s.ctl.noMbx_unboundBay h).mbx
  have hplaces := fun p (h : p ∈ (s.ctl.unboundBay bay).places) => s.ctl.places_unboundBay h
  unfold State.strip
  rw [State.loseLines_none hdirty, State.clearTiles_unbound]
  generalize s.ctl.unboundBay bay = c at *
  generalize State.clearAll { s with ctl := c } (s.ctl.bayPhys bay) = u at *
  have htile : u.ctl = { c with tiles := u.ctl.tiles } := (congrArg State.ctl hsame :)
  have hwork := u.ctl.queWork_clearQueues bay
  have hdir' : (u.onCtl (·.clearQueues bay)).ctl.dir = [] :=
    (congrArg Ctl.dir hwork.same :).trans ((congrArg Ctl.dir htile :).trans ((congrArg Ctl.dir hunb :).trans hdir))
  obtain ⟨d, hd, hdom⟩ := State.clearDomains_spec hdir' bay
  have htiles : d.tiles = u.ctl.tiles := (congrArg Ctl.tiles hdom.same :).trans (congrArg Ctl.tiles hwork.same :)
  refine ⟨d, u.mem, ?_, Ctl.Strips.of hunb htile rfl hdom hmbx hplaces, fun j hj => ?_⟩
  · have hpending : u.pending = s.pending := (congrArg State.pending hsame :)
    rw [hd, ← hpending]
    rfl
  · obtain ⟨hinit, hzero⟩ := hclear j hj
    refine ⟨?_, hzero⟩
    show d.tile j = Tile.init
    rw [Ctl.tile, htiles]
    exact hinit

end Sys2Proof.Machine

namespace Sys2Proof.Machine

/-! ### Step 4, the rest: the window, KV space, the request-state area, the record of the bay -/

/-- The window of a bay is cleared. -/
structure Ctl.WindowGone (bay : Nat) (c d : Ctl) : Prop where
  same : d = { c with ctrs := d.ctrs, regs := d.regs, chans := d.chans }
  counter : ∀ j, d.counter j
    = if c.rd (Reg.winFirst bay) ≤ j ∧ j < c.rd (Reg.winFirst bay) + c.rd (Reg.winCount bay) then 0 else c.counter j
  clamp : d.reg (Reg.bayClamp bay) = 0
  chan : ∀ k, k < 512 → c.rd (Reg.ldlChAssigned (k / 32) (k % 32)) = 1 → c.chBay k = bay → d.chan k = (c.chan k).cleared

theorem Ctl.windowGone_clearWindow (c : Ctl) {bay : Nat} (hbay : bay < 4096) : c.WindowGone bay (c.clearWindow bay) := by
  have hform : ∃ l, c.clearWindow bay
      = ((c.zeroWindow bay (c.rd (Reg.winFirst bay)) (c.rd (Reg.winFirst bay) + c.rd (Reg.winCount bay))).closeRegions l).clearChans
        (((c.zeroWindow bay (c.rd (Reg.winFirst bay)) (c.rd (Reg.winFirst bay) + c.rd (Reg.winCount bay))).closeRegions l).bayChans bay) := ⟨_, rfl⟩
  obtain ⟨l, hform⟩ := hform
  rw [hform]
  have hzero := c.counter_zeroWindow bay (c.rd (Reg.winFirst bay)) (c.rd (Reg.winFirst bay) + c.rd (Reg.winCount bay))
  have hsame : c.zeroWindow bay (c.rd (Reg.winFirst bay)) (c.rd (Reg.winFirst bay) + c.rd (Reg.winCount bay)) = { c with
      ctrs := (c.zeroWindow bay (c.rd (Reg.winFirst bay)) (c.rd (Reg.winFirst bay) + c.rd (Reg.winCount bay))).ctrs,
      regs := (c.zeroWindow bay (c.rd (Reg.winFirst bay)) (c.rd (Reg.winFirst bay) + c.rd (Reg.winCount bay))).regs } := rfl
  have hclamp : (c.zeroWindow bay (c.rd (Reg.winFirst bay)) (c.rd (Reg.winFirst bay) + c.rd (Reg.winCount bay))).reg (Reg.bayClamp bay) = 0 :=
    Ctl.reg_putReg_same _ _ _
  have hother : ∀ a, a ≠ Reg.bayClamp bay →
      (c.zeroWindow bay (c.rd (Reg.winFirst bay)) (c.rd (Reg.winFirst bay) + c.rd (Reg.winCount bay))).reg a = c.reg a :=
    fun a ha => Ctl.reg_putReg_ne _ _ _ _ ha
  generalize c.zeroWindow bay (c.rd (Reg.winFirst bay)) (c.rd (Reg.winFirst bay) + c.rd (Reg.winCount bay)) = d at *
  have hregions := (d.writes_closeRegions l).same
  have hregs : ∀ a, (∀ r, a ≠ Reg.regionWord r 2) → (d.closeRegions l).reg a = d.reg a := fun a ha => d.reg_closeRegions l ha
  generalize d.closeRegions l = e at *
  have hchans := e.clearChans_same (e.bayChans bay)
  have hcleared : ∀ k, k ∈ e.bayChans bay → (e.clearChans (e.bayChans bay)).chan k = (e.chan k).cleared := fun k hk => e.chan_clearChans hk
  generalize e.clearChans (e.bayChans bay) = f at *
  have hfregs : f.regs = e.regs := (congrArg Ctl.regs hchans :)
  have hfctrs : f.ctrs = d.ctrs := (congrArg Ctl.ctrs hchans :).trans (congrArg Ctl.ctrs hregions :)
  have hechans : e.chans = c.chans := (congrArg Ctl.chans hregions :).trans (congrArg Ctl.chans hsame :)
  have hword : ∀ k, k < 512 → e.reg (Reg.ldlChBase (k / 32) (k % 32)) = c.reg (Reg.ldlChBase (k / 32) (k % 32)) := fun k hk =>
    (hregs _ (fun r => by simp only [Reg.ldlChBase, Reg.regionWord]; omega)).trans (hother _ (by simp only [Reg.ldlChBase, Reg.bayClamp]; omega))
  refine ⟨?_, fun j => ?_, ?_, fun k hk hon hmine => ?_⟩
  · rw [hfctrs, hfregs]
    exact hchans.trans (congrArg (fun x : Ctl => { x with chans := f.chans })
      (hregions.trans (congrArg (fun x : Ctl => { x with regs := e.regs }) hsame :)) :)
  · rw [Ctl.counter, hfctrs, ← Ctl.counter, hzero]
  · rw [Ctl.reg, hfregs, ← Ctl.reg, hregs _ (fun r => by simp only [Reg.bayClamp, Reg.regionWord]; omega), hclamp]
  · have hmem : k ∈ e.bayChans bay := Ctl.mem_bayChans hk ((Ctl.rd_congr (hword k hk)).trans hon) ((Ctl.rd_congr (hword k hk)).trans hmine)
    rw [hcleared k hmem, Ctl.chan, hechans, ← Ctl.chan]

/-- A bay's record once its state on the dies is cleared. -/
def BayRec.wiped (b : BayRec) : BayRec := { b with shake := some .cleared, key := none, tests := [] }

/-- The bay's record is wiped; its tests go on (R428), an operator test without the bay (R491). -/
def Ctl.wipeBay (c : Ctl) (bay : Nat) : Ctl :=
  { c.putBay bay (c.bay bay).wiped with
    bayTests := c.bayTests ++ (c.bay bay).tests.map (fun t => (bay, t.1, t.2)),
    optest := c.optest.map (fun t => { t with bays := t.bays.filter (· != bay) }) }

/-- The second half of step 4. -/
def Ctl.closeBay (c : Ctl) (bay : Nat) : Ctl := (((c.clearWindow bay).clearKv bay).rsaFree bay).wipeBay bay

theorem State.shakeClear_eq (s : State) (bay : Nat) : s.shakeClear bay = (s.strip bay).onCtl (·.closeBay bay) := rfl

/-- What the second half of step 4 leaves of the control records. -/
structure Ctl.Closes (bay : Nat) (c d : Ctl) : Prop where
  bays : d.bays = (c.putBay bay (c.bay bay).wiped).bays
  places : d.places = c.places
  tiles : d.tiles = c.tiles
  mbxs : d.mbxs = c.mbxs
  ques : d.ques = c.ques
  regions : ∀ r ∈ d.kvRegions, r.bay ≠ bay
  nodes : ∀ n ∈ d.kvNodes, n.bay ≠ bay
  rsa : d.rsa bay = Rsa.init
  tests : ∀ x ∈ (c.bay bay).tests, (bay, x.1, x.2) ∈ d.bayTests
  counter : ∀ j, d.counter j
    = if c.rd (Reg.winFirst bay) ≤ j ∧ j < c.rd (Reg.winFirst bay) + c.rd (Reg.winCount bay) then 0 else c.counter j
  clamp : d.reg (Reg.bayClamp bay) = 0
  chan : ∀ k, k < 512 → c.rd (Reg.ldlChAssigned (k / 32) (k % 32)) = 1 → c.chBay k = bay → d.chan k = (c.chan k).cleared

/-- After the window, KV space and request-state area are gone the record is wiped. -/
theorem Ctl.WindowGone.closes {bay : Nat} {c d e f : Ctl} (hbay : bay < 4096) (hwin : c.WindowGone bay d) (hkv : d.KvClears e) (hrsa : e.PageWork f)
    (hregions : ∀ r ∈ e.kvRegions, r.bay ≠ bay) (hnodes : ∀ n ∈ e.kvNodes, n.bay ≠ bay) (hfree : f.rsa bay = Rsa.init) :
    c.Closes bay (f.wipeBay bay) := by
  have hbays : f.bays = c.bays := (congrArg Ctl.bays hrsa.same :).trans ((congrArg Ctl.bays hkv.same :).trans (congrArg Ctl.bays hwin.same :))
  have hplaces : f.places = c.places := (congrArg Ctl.places hrsa.same :).trans ((congrArg Ctl.places hkv.same :).trans (congrArg Ctl.places hwin.same :))
  have htiles : f.tiles = c.tiles := (congrArg Ctl.tiles hrsa.same :).trans ((congrArg Ctl.tiles hkv.same :).trans (congrArg Ctl.tiles hwin.same :))
  have hmbxs : f.mbxs = c.mbxs := (congrArg Ctl.mbxs hrsa.same :).trans ((congrArg Ctl.mbxs hkv.same :).trans (congrArg Ctl.mbxs hwin.same :))
  have hques : f.ques = c.ques := (congrArg Ctl.ques hrsa.same :).trans ((congrArg Ctl.ques hkv.same :).trans (congrArg Ctl.ques hwin.same :))
  have hctrs : f.ctrs = d.ctrs := (congrArg Ctl.ctrs hrsa.same :).trans (congrArg Ctl.ctrs hkv.same :)
  have hchans : f.chans = d.chans := (congrArg Ctl.chans hrsa.same :).trans (congrArg Ctl.chans hkv.same :)
  have hrec : f.bay bay = c.bay bay := by rw [Ctl.bay, hbays, Ctl.bay]
  refine ⟨?_, hplaces, htiles, hmbxs, hques, fun r hr => hregions r ((congrArg Ctl.kvRegions hrsa.same :) ▸ hr),
    fun n hn => hnodes n ((congrArg Ctl.kvNodes hrsa.same :) ▸ hn), hfree, fun x hx => ?_, fun j => ?_, ?_, fun k hk hon hmine => ?_⟩
  · show f.bays.set bay BayRec.init (f.bay bay).wiped = c.bays.set bay BayRec.init (c.bay bay).wiped
    rw [hbays, hrec]
  · exact List.mem_append_right _ (List.mem_map.mpr ⟨x, hrec.symm ▸ hx, rfl⟩)
  · show f.ctrs.get j 0 = _
    rw [hctrs]
    exact hwin.counter j
  · show f.reg (Reg.bayClamp bay) = 0
    have hlow : Reg.bayClamp bay < 0x08000000 := by simp only [Reg.bayClamp]; omega
    rw [hrsa.regs _ hlow, hkv.regs _ hlow]
    exact hwin.clamp
  · show f.chans.get k Chan.init = _
    rw [hchans]
    exact hwin.chan k hk hon hmine

theorem Ctl.closes_closeBay (c : Ctl) {bay : Nat} (hbay : bay < 4096) : c.Closes bay (c.closeBay bay) :=
  (c.windowGone_clearWindow hbay).closes hbay (Ctl.kvClears_clearKv _ bay) (Ctl.pageWork_rsaFree _ bay) (fun _ hr => Ctl.regions_clearKv _ hr)
    (fun _ hn => Ctl.nodes_clearKv _ hn) (Ctl.rsa_rsaFree _ bay)

theorem shakeoutClear_completes (b : Fin 4096) (s : State) (hphase : s.ctl.shaking b.val .quiesced = true) (hdirty : s.ctl.homeDirty = [])
    (hdir : s.ctl.dir = []) : Completes (.shakeoutClear b) s (fun t =>
    t.ctl.bay b.val = { s.ctl.bay b.val with shake := some .cleared, key := none, tests := [] } ∧ (∀ d, d ≠ b.val → t.ctl.bay d = s.ctl.bay d)
    ∧ (∀ p ∈ t.ctl.places, p.bay ≠ b.val) ∧ (∀ r ∈ t.ctl.kvRegions, r.bay ≠ b.val) ∧ (∀ n ∈ t.ctl.kvNodes, n.bay ≠ b.val)
    ∧ (∀ p ∈ s.ctl.places, p.bay = b.val → ∀ j ∈ p.tiles, t.ctl.tile j = Tile.init ∧ ∀ a, a < 2 ^ 21 → t.mem.byte (scratchKey j a) = 0)
    ∧ (∀ l ∈ s.ctl.bayTiles b.val, t.ctl.tile (s.ctl.physOf l) = Tile.init ∧ ∀ a, a < 2 ^ 21 → t.mem.byte (scratchKey (s.ctl.physOf l) a) = 0)
    ∧ (∀ q, s.ctl.rd (Reg.queBay q) = b.val → t.ctl.que q = Que.init) ∧ (∀ q, s.ctl.rd (Reg.queBay q) ≠ b.val → t.ctl.que q = s.ctl.que q)
    ∧ (∀ e, (((s.ctl.mbx e).go = true ∧ (s.ctl.mbx e).bay = b.val) ∨ ∃ h, (s.ctl.mbx e).bound = some (b.val, h)) → t.ctl.mbx e = Mbx.init)
    ∧ (∀ j, s.ctl.rd (Reg.winFirst b.val) ≤ j → j < s.ctl.rd (Reg.winFirst b.val) + s.ctl.rd (Reg.winCount b.val) → t.ctl.counter j = 0)
    ∧ (∀ j, ¬ (s.ctl.rd (Reg.winFirst b.val) ≤ j ∧ j < s.ctl.rd (Reg.winFirst b.val) + s.ctl.rd (Reg.winCount b.val)) → t.ctl.counter j = s.ctl.counter j)
    ∧ t.ctl.reg (Reg.bayClamp b.val) = 0 ∧ t.ctl.rsa b.val = Rsa.init
    ∧ (∀ k : Fin 512, s.ctl.rd (Reg.ldlChAssigned (k.val / 32) (k.val % 32)) = 1 → s.ctl.chBay k.val = b.val →
        t.ctl.chan k.val = { Chan.init with clamps := (s.ctl.chan k.val).clamps })
    ∧ (∀ x ∈ (s.ctl.bay b.val).tests, (b.val, x.1, x.2) ∈ t.ctl.bayTests) ∧ t.pending = s.pending) := by
  obtain ⟨c, m, hstrip, hstrips, hclear⟩ := State.strip_spec hdirty hdir b.val
  have hcloses := c.closes_closeBay b.isLt
  have hexec : exec (.shakeoutClear b) s = done { s with ctl := c.closeBay b.val, mem := m } := by
    show done (if s.ctl.shaking b.val .quiesced then s.shakeClear b.val else s) = _
    rw [if_pos hphase, State.shakeClear_eq, hstrip]
    rfl
  generalize c.closeBay b.val = d at hcloses hexec
  have hbays : c.bays = s.ctl.bays := (congrArg Ctl.bays hstrips.same :)
  have hrec : c.bay b.val = s.ctl.bay b.val := by rw [Ctl.bay, hbays, Ctl.bay]
  have hdbays : d.bays = (s.ctl.putBay b.val (s.ctl.bay b.val).wiped).bays := by
    rw [hcloses.bays, hrec, Ctl.putBay, Ctl.putBay, hbays]
  have hlow : ∀ a, a < 0x06FFFFFF → c.reg a = s.ctl.reg a := fun a ha =>
    hstrips.regs a (by simp only [Reg.dirBusy]; omega) (fun q => by simp only [Reg.queBase]; omega)
  have hfirst : c.rd (Reg.winFirst b.val) = s.ctl.rd (Reg.winFirst b.val) := Ctl.rd_congr (hlow _ (by have := b.isLt; simp only [Reg.winFirst]; omega))
  have hcount : c.rd (Reg.winCount b.val) = s.ctl.rd (Reg.winCount b.val) := Ctl.rd_congr (hlow _ (by have := b.isLt; simp only [Reg.winCount]; omega))
  have hword : ∀ k : Fin 512, c.reg (Reg.ldlChBase (k.val / 32) (k.val % 32)) = s.ctl.reg (Reg.ldlChBase (k.val / 32) (k.val % 32)) := fun k =>
    hstrips.regs _ (by simp only [Reg.dirBusy, Reg.ldlChBase]; omega) (fun q => by simp only [Reg.queBase, Reg.ldlChBase]; omega)
  have hcounter : ∀ j, d.counter j = if s.ctl.rd (Reg.winFirst b.val) ≤ j ∧ j < s.ctl.rd (Reg.winFirst b.val) + s.ctl.rd (Reg.winCount b.val)
      then 0 else s.ctl.counter j := fun j => by
    have hctrs : c.ctrs = s.ctl.ctrs := (congrArg Ctl.ctrs hstrips.same :)
    rw [hcloses.counter j, hfirst, hcount, Ctl.counter, hctrs, ← Ctl.counter]
  have htile : ∀ j ∈ s.ctl.bayPhys b.val, d.tile j = Tile.init ∧ ∀ a, a < 2 ^ 21 → m.byte (scratchKey j a) = 0 := fun j hj => by
    obtain ⟨hinit, hzero⟩ := hclear j hj
    refine ⟨?_, hzero⟩
    rw [Ctl.tile, hcloses.tiles]
    exact hinit
  have hque : ∀ q, d.que q = if s.ctl.rd (Reg.queBay q) = b.val then Que.init else s.ctl.que q := fun q => by
    rw [Ctl.que, hcloses.ques]
    exact hstrips.ques q
  refine Completes.of_done hexec ⟨Ctl.bay_putBay_own hdbays, fun j hj => Ctl.bay_putBay_other hdbays hj, fun p hp => hstrips.places p (hcloses.places ▸ hp),
    hcloses.regions, hcloses.nodes, fun p hp hb j hj => htile j (Ctl.mem_bayPhys_of_place hp hb hj), fun l hl => htile _ (Ctl.mem_bayPhys_of_tile hl),
    fun q hq => (hque q).trans (if_pos hq), fun q hq => (hque q).trans (if_neg hq), fun e he => ?_, fun j hlo hhi => (hcounter j).trans (if_pos ⟨hlo, hhi⟩),
    fun j hj => (hcounter j).trans (if_neg hj), hcloses.clamp, hcloses.rsa, fun k hon hmine => ?_, fun x hx => hcloses.tests x (hrec.symm ▸ hx), rfl⟩
  · show d.mbx e = Mbx.init
    rw [Ctl.mbx, hcloses.mbxs]
    exact hstrips.mbxs e (Mbx.carries_of he)
  · have hchans : c.chan k.val = s.ctl.chan k.val := congrArg (fun l : Tab Chan => l.get k.val Chan.init) (congrArg Ctl.chans hstrips.same :)
    have hcleared := hcloses.chan k.val k.isLt ((Ctl.rd_congr (hword k)).trans hon) ((Ctl.rd_congr (hword k)).trans hmine)
    rw [hchans] at hcleared
    exact hcleared

/-- Settles O45. A shakeout goes by phases, and each is one lemma; step 4 is cut where the tiles, queues and domains are gone, and what its two halves
leave of the control records is stated field by field. It rests on log entries 87, 88, 89 and 90, as the statement says. -/
theorem shakeout : Obligations.Shakeout := by
  unfold Obligations.Shakeout
  exact ⟨release_completes, release_refused_completes, shakeoutQuiesce_completes, shakeoutClear_completes, shakeoutRevoke_flat_completes,
    shakeoutRevoke_tray_completes, fun b s hphase hexts => shakeoutDone_completes b s _ rfl hphase hexts⟩

end Sys2Proof.Machine

namespace Sys2Proof.Machine

/-! ### A request that arrives alone (R147-R157) -/

/-- What a request meets that is the only one open: nothing but trackers, requests and the trackers' high mark has moved. -/
structure Alone (s : State) (f : Frame) (c : Ctl) (o : OpenReq) : Prop where
  frame : o.frame = f
  opens : c.opens = [o]
  serving : s.ctl.Serving c
  pairs : c.pairs = s.ctl.pairs
  locks : c.locks = s.ctl.locks
  pubReads : c.pubReads = s.ctl.pubReads
  regs : ∀ a, a ≠ 0x06000008 → c.reg a = s.ctl.reg a

theorem Ctl.tracked?_none {c : Ctl} {f : Frame} (h : ∀ x ∈ c.tracker, x.src ≠ f.src.toNat) : c.tracked? f = none := by
  rw [Ctl.tracked?, List.find?_eq_none]
  intro x hx
  simp [h x hx]

/-- An untracked request whose source has nothing in a tracker is opened and runs. -/
theorem State.begin_untracked {s : State} {f : Frame} (h : ∀ x ∈ s.ctl.tracker, x.src ≠ f.src.toNat) :
    s.begin f = ({ s with ctl := (s.ctl.openReq f .directory).2 } : State).run s.ctl.nextId := by
  have hearlier : s.ctl.tracker.any (fun (t : TrackEnt) => t.src == f.src.toNat && t.bay == f.bay.toNat && decide (t.serial < s.ctl.nextId)) = false :=
    List.any_eq_false.mpr (fun x hx => by simp [h x hx])
  unfold State.begin
  simp only [Ctl.tracked?_none h, hearlier, Bool.and_false, Bool.false_eq_true, if_false]
  rfl

/-- A request of a source with nothing in a tracker enters it if its kind is tracked, is opened and runs. -/
theorem State.begin_alone {s : State} {f : Frame} (h : ∀ x ∈ s.ctl.tracker, x.src ≠ f.src.toNat) : ∃ d, s.ctl.track f = some d ∧ s.ctl.Tracks d
    ∧ ({ s with ctl := d } : State).begin f = ({ s with ctl := (d.openReq f .directory).2 } : State).run d.nextId := by
  by_cases htracked : f.tracked = true
  · obtain ⟨d, hd, htracks, -, htracker⟩ := Ctl.track_first htracked h
    exact ⟨d, hd, htracks, State.begin_first (s := { s with ctl := d }) htracker h rfl rfl rfl⟩
  · refine ⟨s.ctl, ?_, .refl s.ctl, State.begin_untracked h⟩
    unfold Ctl.track
    exact if_pos (by simp [htracked])

theorem Ctl.answersBusy_congr {c d : Ctl} (h : d.reg Reg.glbState.addr = c.reg Reg.glbState.addr) : d.answersBusy = c.answersBusy := by
  have hglb : d.rd Reg.glbState = c.rd Reg.glbState := Ctl.rd_congr h
  unfold Ctl.answersBusy
  rw [hglb]

theorem State.serve_alone {s : State} {f : Frame} (h : Serves s f) (hquiet : s.ctl.opens = []) (hnone : ∀ x ∈ s.ctl.tracker, x.src ≠ f.src.toNat) :
    ∃ c o, Alone s f c o ∧ c.peg = s.ctl.peg ∧ c.open? o.id = some o ∧ s.serve f .clean = (({ s with ctl := c } : State).run o.id).settle := by
  obtain ⟨d, hd, htracks, hbegin⟩ := State.begin_alone hnone
  have hmoves := htracks.moves
  have hopens : (d.openReq f .directory).2.opens = [d.opened f] := congrArg (· ++ [d.opened f]) (hmoves.opens.trans hquiet)
  refine ⟨(d.openReq f .directory).2, d.opened f, ⟨rfl, hopens, hmoves.serving.trans (d.serving_openReq f _), (congrArg Ctl.pairs htracks.same :),
    (congrArg Ctl.locks htracks.same :), (congrArg Ctl.pubReads htracks.same :), htracks.regs⟩, (congrArg Ctl.peg htracks.same :), ?_, ?_⟩
  · rw [Ctl.open?, hopens]
    simp
  · have hlive : d.liveInc f.src.toNat f.inc = true := (Ctl.liveInc_congr hmoves.eps _ _).trans h.live
    have hbusy : d.answersBusy = false := (Ctl.answersBusy_congr (htracks.regs _ (by decide))).trans h.serving
    rw [show (d.opened f).id = d.nextId from rfl, ← hbegin]
    unfold State.serve
    simp [h.up, h.live, h.ours, hd, hbusy, State.siteFinds, hlive]

/-! ### The one open request is answered OK -/

/-- What an answer to the one open request leaves: nothing open, the response in its pair. -/
structure Ends (s : State) (f : Frame) (payload : List Byte) (e d : Ctl) : Prop where
  opens : d.opens = []
  serving : e.Serving d
  peg : d.peg = e.peg
  kept : ∃ x ∈ (d.pair f.src.toNat).kept, x.seq = (s.ctl.pair f.src.toNat).txSeq ∧ x.frame.kind = rspKind f.kind ∧ x.frame.tag = f.tag
    ∧ x.frame.status = stOK ∧ x.frame.payload = payload

theorem readPieces_one {l : List Byte} (hpos : l ≠ []) (hlen : l.length ≤ 4096) : readPieces l = [(0, l)] := by
  have hchunks : chunksOf 4096 (l.length + 1) l = [l] := by
    obtain ⟨n, hn⟩ := Nat.exists_eq_succ_of_ne_zero (fun h => hpos (List.length_eq_zero_iff.mp h))
    rw [chunksOf, if_neg (by simpa using hpos), List.take_of_length_le hlen, List.drop_of_length_le hlen, hn, chunksOf]
    rfl
  rw [readPieces, hchunks]
  rfl

/-- An OK answer of at most one response frame is that frame. -/
theorem Ctl.answer_single {c : Ctl} {r : Frame} (hlive : (c.answered r stOK dNONE).liveInc r.src.toNat r.inc = true) (hpub : r.kind ≠ kReadPub)
    {payload : List Byte} (hone : r.kind = kRead → payload ≠ [] ∧ payload.length ≤ 4096) (addr : Word) (flags : BitVec 16) (peg : Option (BitVec 16)) :
    ∃ a fl, c.answer r stOK dNONE addr flags payload peg none = (c.answered r stOK dNONE).sendRsp r (rspFrame r stOK dNONE a fl payload) peg none := by
  by_cases hread : r.kind = kRead
  · obtain ⟨hpos, hlen⟩ := hone hread
    rw [Ctl.answer_respond, Ctl.respond, if_neg (by simp [hlive]), if_pos (by simp [hread]), if_pos (by decide), readPieces_one hpos hlen]
    exact ⟨_, _, rfl⟩
  · exact ⟨addr, flags, Ctl.answer_eq hlive hread hpub addr flags payload peg none⟩

theorem Alone.ends {s : State} {f : Frame} {c e : Ctl} {o : OpenReq} (h : Alone s f c o) (hdst : f.dst = 0xFFF)
    (hlive : s.ctl.liveInc f.src.toNat f.inc = true) (hpub : f.kind ≠ kReadPub) (hopens : e.opens = c.opens) (hpairs : e.pairs = c.pairs)
    (heps : e.eps = c.eps) {payload : List Byte} (hone : f.kind = kRead → payload ≠ [] ∧ payload.length ≤ 4096) (addr : Word) (flags : BitVec 16)
    (peg : Option (BitVec 16)) : Ends s f payload e ((e.closeReq o.id).answer f stOK dNONE addr flags payload peg none) := by
  have hclosed : (e.closeReq o.id).opens = [] := by
    show e.opens.filter _ = []
    rw [hopens, h.opens]
    simp
  have hanswered := (e.closeReq o.id).moves_answered f stOK dNONE
  have hlive' : ((e.closeReq o.id).answered f stOK dNONE).liveInc f.src.toNat f.inc = true :=
    (Ctl.liveInc_congr (hanswered.eps.trans (heps.trans h.serving.rights.eps)) _ _).trans hlive
  have hpair : ((e.closeReq o.id).answered f stOK dNONE).pair f.src.toNat = s.ctl.pair f.src.toNat := by
    simp only [Ctl.pair, Ctl.pairs_answered hdst]
    exact congrArg (fun t : Tab Pair => t.get f.src.toNat Pair.init) (hpairs.trans h.pairs)
  obtain ⟨a, fl, heq⟩ := Ctl.answer_single hlive' hpub hone addr flags peg
  rw [heq, Ctl.sendRsp, if_pos hdst]
  have hmoves := hanswered.trans (Ctl.moves_sendSeq ((e.closeReq o.id).answered f stOK dNONE) (rspFrame f stOK dNONE a fl payload) peg none)
  obtain ⟨x, hx, hseq, hframe⟩ := ((e.closeReq o.id).answered f stOK dNONE).kept_sendSeq (rspFrame f stOK dNONE a fl payload) peg none
  have hr : (rspFrame f stOK dNONE a fl payload).dst = f.src := rfl
  rw [hr, hpair] at hseq hframe
  rw [hr] at hx
  exact ⟨hmoves.opens.trans hclosed, (e.serving_closeReq o.id).trans hmoves.serving, (congrArg Ctl.peg hmoves.same :),
    x, hx, hseq, by rw [hframe]; exact ⟨rfl, rfl, rfl, rfl⟩⟩

theorem Ends.replied {s : State} {f : Frame} {payload : List Byte} {e d : Ctl} (h : Ends s f payload e d) (m : Mem) :
    Replied s { s with ctl := d, mem := m } f stOK payload := h.kept

theorem Ends.settled {s : State} {f : Frame} {payload : List Byte} {e d : Ctl} (h : Ends s f payload e d) (m : Mem) :
    State.settle { s with ctl := d, mem := m } = { s with ctl := d, mem := m } := State.settle_quiet h.opens

end Sys2Proof.Machine

namespace Sys2Proof.Machine

/-! ### Where a flat address leads (R129, R200) -/

/-- Only an address of flat form leads to a flat target. -/
theorem Ctl.checkAddr_flat {c : Ctl} {bay cls n i k : Nat} {old was : Bool} {a : Word} {right : Option Nat}
    (h : c.checkAddr bay cls old a n right = .pass (.flat i) k was) : isNode a = false := by
  by_contra hnode
  rw [Bool.not_eq_false] at hnode
  unfold Ctl.checkAddr at h
  rw [hnode] at h
  repeat' split at h
  all_goals simp_all

theorem Ctl.check59_flat {c : Ctl} {f : Frame} {n i cls : Nat} {right : Option Nat} {old : Bool} (h : c.check59 f n right = .pass (.flat i) cls old) :
    isNode f.addr = false := by
  unfold Ctl.check59 at h
  split at h
  · cases h
  · extract_lets b lost at h
    by_cases hlost : lost = true
    · rw [if_pos hlost] at h
      cases h
    · rw [if_neg hlost] at h
      exact Ctl.checkAddr_flat h

/-- The records that say where pages lie, and the registers that say which units serve. -/
structure Ctl.SamePlaces (c d : Ctl) : Prop where
  tier : d.tier = c.tier
  exts : d.exts = c.exts
  eps : d.eps = c.eps
  coded : d.coded = c.coded
  phys : d.phys = c.phys
  regs : ∀ a, a ≠ 0x06000008 → d.reg a = c.reg a

theorem Alone.places {s : State} {f : Frame} {c : Ctl} {o : OpenReq} (h : Alone s f c o) : s.ctl.SamePlaces c :=
  ⟨(congrArg Ctl.tier h.serving.same :), (congrArg Ctl.exts h.serving.same :), (congrArg Ctl.eps h.serving.same :),
    (congrArg Ctl.coded h.serving.same :), (congrArg Ctl.phys h.serving.same :), h.regs⟩

theorem Ctl.SamePlaces.rd {c d : Ctl} (h : c.SamePlaces d) (f : Fld) (hf : f.addr ≠ 0x06000008) : d.rd f = c.rd f := Ctl.rd_congr (h.regs _ hf)
theorem Ctl.SamePlaces.ddrState {c d : Ctl} (h : c.SamePlaces d) (i : Nat) : d.rd (Reg.ddrState i) = c.rd (Reg.ddrState i) :=
  h.rd _ (by simp only [Reg.ddrState]; omega)
theorem Ctl.SamePlaces.hbmState {c d : Ctl} (h : c.SamePlaces d) (i : Nat) : d.rd (Reg.hbmState i) = c.rd (Reg.hbmState i) :=
  h.rd _ (by simp only [Reg.hbmState]; omega)
theorem Ctl.SamePlaces.page {c d : Ctl} (h : c.SamePlaces d) (b p : Nat) : d.page b p = c.page b p := by rw [Ctl.page, h.tier, ← Ctl.page]
theorem Ctl.SamePlaces.ext {c d : Ctl} (h : c.SamePlaces d) (i : Nat) : d.ext i = c.ext i := by rw [Ctl.ext, h.exts, ← Ctl.ext]
theorem Ctl.SamePlaces.ep {c d : Ctl} (h : c.SamePlaces d) (e : Nat) : d.ep e = c.ep e := by rw [Ctl.ep, h.eps, ← Ctl.ep]

theorem Ctl.SamePlaces.locKey {c d : Ctl} (h : c.SamePlaces d) (l : Loc) : d.locKey l = c.locKey l := by
  unfold Ctl.locKey
  rw [h.ext]

theorem Ctl.SamePlaces.frameMask {c d : Ctl} (h : c.SamePlaces d) (j : Nat) : d.frameMask j = c.frameMask j := by
  have honline : d.onlineMask = c.onlineMask := by
    unfold Ctl.onlineMask
    simp only [h.ddrState]
  unfold Ctl.frameMask
  rw [h.phys, honline]

theorem Ctl.SamePlaces.keyLive {c d : Ctl} (h : c.SamePlaces d) (k : Nat) : d.keyLive k = c.keyLive k := by
  unfold Ctl.keyLive
  simp only [h.hbmState, h.ddrState, h.frameMask, h.ep]

theorem Ctl.SamePlaces.liveKey {c d : Ctl} (h : c.SamePlaces d) (l : Loc) : d.liveKey l = c.liveKey l := by
  unfold Ctl.liveKey
  rw [h.locKey, show d.keyLive = c.keyLive from funext h.keyLive]

theorem Ctl.SamePlaces.parityOf {c d : Ctl} (h : c.SamePlaces d) (ei p : Nat) : d.parityOf ei p = c.parityOf ei p := by
  unfold Ctl.parityOf
  rw [h.ext, h.coded]
  simp only [h.page]

theorem Ctl.SamePlaces.pageSeg {c d : Ctl} (h : c.SamePlaces d) (bay ei p off n : Nat) : d.pageSeg bay ei p off n = c.pageSeg bay ei p off n := by
  unfold Ctl.pageSeg
  rw [h.page, h.ext, h.parityOf]
  simp only [h.liveKey, h.locKey]

theorem Ctl.SamePlaces.flatSegs {c d : Ctl} (h : c.SamePlaces d) (bay i : Nat) (a : Word) (n : Nat) :
    d.targetSegs bay (.flat i) a n = c.targetSegs bay (.flat i) a n := by
  show List.map _ _ = List.map _ _
  simp only [h.pageSeg]

/-- A segment with a place belongs to an allocated page. -/
theorem Ctl.tier_of_pageSeg {c : Ctl} {bay ei p off n k : Nat} (h : (c.pageSeg bay ei p off n).key = some k) : (c.page bay p).loc.tier ≠ .none := by
  intro hnone
  unfold Ctl.pageSeg at h
  dsimp only at h
  rw [if_pos hnone] at h
  cases h

/-- Where every page of a range is allocated nothing is. -/
theorem State.allocFlat_allocated (s : State) (bay ei : Nat) (l : List (Nat × Nat × Nat)) (h : ∀ e ∈ l, (s.ctl.page bay e.1).loc.tier ≠ .none) :
    s.allocFlat bay ei l = some s := by
  induction l with
  | nil => rfl
  | cons e l ih =>
    obtain ⟨p, x⟩ := e
    unfold State.allocFlat
    dsimp only
    rw [if_pos (h _ List.mem_cons_self)]
    exact ih (fun e he => h e (List.mem_cons_of_mem _ he))

/-- One run of bytes in the module's memory, without copies or parity. -/
def plainSeg (k n p : Nat) : Seg := { key := some k, len := n, lost := false, copies := [], parity := none, page := p }

theorem State.allocFlat_plain {s : State} {bay i n k len p : Nat} {a : Word} (h : s.ctl.targetSegs bay (.flat i) a n = [plainSeg k len p]) :
    s.allocFlat bay i (flatPieces (n / 65536 + 2) a.toNat n) = some s := by
  refine s.allocFlat_allocated bay i _ (fun e he => ?_)
  have hseg : s.ctl.pageSeg bay i e.1 e.2.1 e.2.2 ∈ s.ctl.targetSegs bay (.flat i) a n := List.mem_map_of_mem he
  rw [h] at hseg
  exact Ctl.tier_of_pageSeg (k := k) (by rw [List.mem_singleton.mp hseg]; rfl)

/-! ### One plain run of bytes, nothing poisoned -/

theorem readSegs_plain {m : Mem} (h : m.poison = []) (k n p : Nat) : m.readSegs [plainSeg k n p] = some (m.read k n) := by
  have hclean : m.poisoned k n = false := by rw [Mem.poisoned, h]; rfl
  show (if m.poisoned k n then none else (some []).map (m.read k n ++ ·)) = _
  rw [hclean, if_neg (by decide), Option.map_some, List.append_nil]

theorem writeBlocked_plain {m : Mem} (h : m.poison = []) (k n p : Nat) : m.writeBlocked [plainSeg k n p] = false := by
  have hcovers : m.coversPoison k n = true := by rw [Mem.coversPoison, h]; rfl
  show (!m.coversPoison k n || false) = false
  rw [hcovers]
  rfl

theorem segTrays_plain {k : Nat} (h : keyTray k = none) (n p : Nat) : segTrays [plainSeg k n p] = [] := by
  have hnone : List.filterMap (fun g : Seg => g.key.bind keyTray) [plainSeg k n p] = [] := by simp [plainSeg, h]
  rw [segTrays, hnone]
  rfl

theorem Mem.poison_write (l : List Byte) : ∀ (m : Mem) (k : Nat), (m.write k l).poison = m.poison := by
  induction l with
  | nil => exact fun m k => rfl
  | cons v l ih => exact fun m k => (ih (m.setByte k v) (k + 1)).trans rfl

theorem Mem.healPoison_none {m : Mem} (h : m.poison = []) (k n : Nat) : m.healPoison k n = m := by
  unfold Mem.healPoison
  rw [h, List.filter_nil, ← h]

/-- A write to unpoisoned memory heals nothing. -/
theorem Mem.healPoison_write {m : Mem} (h : m.poison = []) (k j n : Nat) (l : List Byte) : (m.write k l).healPoison j n = m.write k l :=
  Mem.healPoison_none ((Mem.poison_write l m k).trans h) j n

theorem writeSegs_plain {m : Mem} (h : m.poison = []) (k p : Nat) (l : List Byte) : m.writeSegs [plainSeg k l.length p] l = m.write k l := by
  show (m.write k (l.take l.length)).healPoison k l.length = _
  rw [List.take_length, Mem.healPoison_write h]

end Sys2Proof.Machine

namespace Sys2Proof.Machine

/-! ### A request to flat memory that passes its checks (R129, R152) -/

/-- The kinds that act on memory: READ, WRITE, WRITE_INV, and an ATOMIC that is no QUERY. -/
def OnMemory (f : Frame) : Prop :=
  f.kind = kRead ∨ f.kind = kWrite ∨ f.kind = kWriteInv ∨ (f.kind = kAtomic ∧ leAt f.payload 0 1 ≠ 0x0F)

theorem OnMemory.ne {f : Frame} (h : OnMemory f) {k : BitVec 8} (h1 : kRead ≠ k) (h2 : kWrite ≠ k) (h3 : kWriteInv ≠ k) (h4 : kAtomic ≠ k) :
    f.kind ≠ k := by
  rcases h with h | h | h | ⟨h, -⟩ <;> rw [h] <;> assumption

theorem OnMemory.noQuery {f : Frame} (h : OnMemory f) : (decide (f.kind = kAtomic) && decide ((atomicOf f.payload).op = 0x0F)) = false := by
  have hop : (atomicOf f.payload).op = leAt f.payload 0 1 := rfl
  rw [hop]
  rcases h with h | h | h | ⟨h, hne⟩
  · rw [h]; rfl
  · rw [h]; rfl
  · rw [h]; rfl
  · simp [hne]

theorem OnMemory.notCoherence {f : Frame} (h : OnMemory f) : f.isCoherence = false := by
  unfold Frame.isCoherence
  rcases h with h | h | h | ⟨h, -⟩ <;> rw [h] <;> decide

/-- The one open request, checked and with the extent it goes through. -/
def OpenReq.through (o : OpenReq) (i : Nat) (old : Bool) : OpenReq := { o with ext := some i, old := old }

theorem OpenReq.target_flat {o : OpenReq} {i : Nat} (hnode : isNode o.frame.addr = false) (hext : o.ext = some i) : o.target = .flat i := by
  unfold OpenReq.target
  dsimp only
  rw [hnode, hext]
  rfl

theorem Alone.through {s : State} {f : Frame} {c : Ctl} {o : OpenReq} (h : Alone s f c o) (i : Nat) (old : Bool) :
    Alone s f ((c.putOpen (o.through i old)).trackExt f (some i)) (o.through i old) where
  frame := h.frame
  opens := by
    show c.opens.map _ = _
    rw [h.opens]
    simp [OpenReq.through]
  serving := (h.serving.trans (c.serving_putOpen _)).trans (Ctl.serving_trackExt _ f (some i))
  pairs := h.pairs
  locks := h.locks
  pubReads := h.pubReads
  regs := h.regs

/-- A request to flat memory that passes its checks goes on to act on it. -/
theorem State.runKind_flat {s : State} {f : Frame} {c : Ctl} {o : OpenReq} {i cls : Nat} {old : Bool} (h : Alone s f c o) (hserves : Serves s f)
    (hkind : OnMemory f) (hcheck : s.ctl.check59 f (spanOf f) (rightFor f) = .pass (.flat i) cls old) :
    ({ s with ctl := c } : State).runKind o
      = ({ s with ctl := (c.putOpen (o.through i old)).trackExt f (some i) } : State).runMem (o.through i old) := by
  obtain rfl := h.frame
  have hbay : c.bay o.frame.bay.toNat = s.ctl.bay o.frame.bay.toNat := by rw [Ctl.bay, h.serving.rights.bays, ← Ctl.bay]
  have hcheck' := (Ctl.check59_congr h.serving.rights.bays h.serving.rights.exts h.serving.rights.eps o.frame (spanOf o.frame) (rightFor o.frame)).trans hcheck
  have hnode := Ctl.check59_flat hcheck
  unfold State.runKind
  dsimp only
  rw [hbay, hserves.active, hserves.running, hserves.form, if_neg (by decide), if_neg (by decide), if_neg (by decide),
    if_neg (hkind.ne (by decide) (by decide) (by decide) (by decide)), if_neg (hkind.ne (by decide) (by decide) (by decide) (by decide)),
    if_neg (hkind.ne (by decide) (by decide) (by decide) (by decide)), if_neg (hkind.ne (by decide) (by decide) (by decide) (by decide)),
    hkind.noQuery, if_neg (by decide), hnode, if_neg (by simp), hcheck']
  have hcoh : (o.through i old).frame.isCoherence = false := hkind.notCoherence
  have hgo : ∀ t : State, t.runPassed (o.through i old) (.flat i) cls = t.runMem (o.through i old) := fun t => by
    unfold State.runPassed
    dsimp only
    rw [hcoh, if_neg (by decide)]
  rw [← hgo]
  rfl

end Sys2Proof.Machine

namespace Sys2Proof.Machine

/-! ### Acting on one plain run of bytes (R148, R150, R152) -/

/-- A request's flat address leads to one plain run of the module's memory, of length n from key k. -/
structure Plain (s : State) (f : Frame) (i k p : Nat) : Prop where
  seg : s.ctl.targetSegs f.bay.toNat (.flat i) f.addr (spanOf f) = [plainSeg k (spanOf f) p]
  near : keyTray k = none
  clean : s.mem.poison = []
  unlocked : s.ctl.locks = []
  unread : s.ctl.pubReads = []
  incoherent : (s.ctl.ext i).coh = false

theorem Plain.of_lands {s : State} {f : Frame} {i k : Nat} (h : Lands s f i k) : ∃ p, Plain s f i k p := by
  obtain ⟨⟨p, hseg⟩, hnear, hclean, hunlocked, hunread, hcoh⟩ := h
  exact ⟨p, hseg, hnear, hclean, hunlocked, hunread, hcoh⟩

/-- What the one open request to flat memory does: a read answers, an atomic executes, a write stores. -/
theorem State.runMem_plain {s : State} {f : Frame} {c : Ctl} {o : OpenReq} {i k p : Nat} (h : Alone s f c o) (hext : o.ext = some i)
    (hnode : isNode f.addr = false) (hplain : Plain s f i k p) : ({ s with ctl := c } : State).runMem o =
      if f.kind = kRead then ({ s with ctl := c } : State).startRead o [plainSeg k (spanOf f) p] 0 0
      else if f.kind = kAtomic then ({ s with ctl := c } : State).runAtomic o (.flat i)
      else ({ s with ctl := c } : State).startWrite o [plainSeg k (spanOf f) p] := by
  obtain rfl := h.frame
  have htarget := OpenReq.target_flat hnode hext
  have hseg := (h.places.flatSegs o.frame.bay.toNat i o.frame.addr (spanOf o.frame)).trans hplain.seg
  have hlock : ∀ l, c.lockedLine l = none := fun l => by
    unfold Ctl.lockedLine
    rw [h.locks, hplain.unlocked]
    rfl
  have hhold : (if o.frame.kind = kRead then none else c.pubHold o.frame.bay.toNat o.frame.addr (spanOf o.frame)) = none := by
    unfold Ctl.pubHold
    rw [h.pubReads, hplain.unread]
    exact ite_self _
  have hcoh : (c.ext i).coh = false := (congrArg Extent.coh (h.places.ext i)).trans hplain.incoherent
  have hready : ({ s with ctl := c } : State).prepare o.frame.bay.toNat (.flat i) o.frame.addr (spanOf o.frame) = .yes { s with ctl := c } := by
    unfold State.prepare
    dsimp only
    rw [State.allocFlat_plain (s := { s with ctl := c }) hseg]
  unfold State.runMem
  dsimp only
  rw [htarget, hseg, hlock, hhold, segTrays_plain hplain.near]
  dsimp only
  rw [if_neg (by decide), if_neg (by simp), if_neg (by simp [hcoh]), hready]
  dsimp only
  rw [hseg, writeBlocked_plain hplain.clean]
  rfl

theorem State.startRead_plain {s : State} {o : OpenReq} {k n p : Nat} (hnear : keyTray k = none) (hclean : s.mem.poison = [])
    (hpub : o.frame.kind ≠ kReadPub) : s.startRead o [plainSeg k n p] 0 0
      = { s with ctl := (s.ctl.closeReq o.id).answer o.frame stOK dNONE 0 0 (s.mem.read k n) none none } := by
  unfold State.startRead
  dsimp only
  rw [readSegs_plain hclean, segTrays_plain hnear]
  dsimp only
  rw [if_pos (by rfl), if_neg hpub]
  unfold State.onCtl
  dsimp only
  rw [Ctl.answerOpen_eq]

theorem State.startWrite_plain {s : State} {o : OpenReq} {k p : Nat} (hnear : keyTray k = none) (hclean : s.mem.poison = []) :
    s.startWrite o [plainSeg k o.frame.payload.length p]
      = { s with mem := s.mem.write k o.frame.payload, ctl := (s.ctl.closeReq o.id).answer o.frame stOK dNONE 0 0 [] none none } := by
  unfold State.startWrite
  simp only [plainSeg, List.foldl_cons, List.foldl_nil, Option.toList_some, List.append_nil, List.filter_cons, List.filter_nil, hnear, Option.isNone_none,
    Option.isSome_none, if_true, List.take_length, List.nil_append, Mem.healPoison_write hclean, Ctl.answerOpen_eq]
  rfl

/-- What an atomic finds on a plain run of bytes. -/
def atomicOld (m : Mem) (k : Nat) (op : AtomicOp) : Nat := leNat (m.read k (atomicSize op.ty))

/-- The value an atomic computes there, and whether it applies. -/
def atomicNew (m : Mem) (k : Nat) (op : AtomicOp) : Nat × Bool :=
  atomicApply op.op op.ty (8 * atomicSize op.ty) (atomicOld m k op) op.opnd1 op.opnd2

/-- The memory that it leaves. -/
def atomicMem (m : Mem) (k : Nat) (op : AtomicOp) : Mem :=
  if (atomicNew m k op).2 then m.write k (leBytes (atomicSize op.ty) (atomicNew m k op).1) else m

theorem length_leBytes (n : Nat) : ∀ v, (leBytes n v).length = n := by
  induction n with
  | zero => exact fun v => rfl
  | succ n ih => exact fun v => congrArg (· + 1) (ih (v / 256))

theorem atomicSize_le (ty : Nat) : atomicSize ty ≤ 16 := by
  unfold atomicSize
  split
  · decide
  · split <;> decide

theorem State.atomic_plain {s : State} {bay i k p : Nat} {a : Word} {op : AtomicOp}
    (hseg : s.ctl.targetSegs bay (.flat i) a (atomicSize op.ty) = [plainSeg k (atomicSize op.ty) p]) (hnear : keyTray k = none)
    (hclean : s.mem.poison = []) :
    s.atomic bay (.flat i) a op = .done { s with mem := atomicMem s.mem k op } (atomicOld s.mem k op) (atomicNew s.mem k op).2 [] := by
  have halloc : s.allocFlat bay i (flatPieces 2 a.toNat (atomicSize op.ty)) = some s := by
    have hpieces := State.allocFlat_plain hseg
    rwa [Nat.div_eq_of_lt (lt_of_le_of_lt (atomicSize_le op.ty) (by decide))] at hpieces
  have hkeys : [plainSeg k (atomicSize op.ty) p].flatMap (fun g => (g.key.toList ++ g.copies).filter (fun k => (keyTray k).isSome)) = [] := by
    simp [plainSeg, hnear]
  have hstore : ∀ v, s.mem.writeSegs [plainSeg k (atomicSize op.ty) p] (leBytes (atomicSize op.ty) v) = s.mem.write k (leBytes (atomicSize op.ty) v) :=
    fun v => by
      have hlen : (leBytes (atomicSize op.ty) v).length = atomicSize op.ty := length_leBytes _ v
      have hplain := writeSegs_plain hclean k p (leBytes (atomicSize op.ty) v)
      rwa [hlen] at hplain
  unfold State.atomic
  dsimp only
  rw [halloc]
  dsimp only
  rw [hseg, readSegs_plain hclean]
  dsimp only
  rw [hkeys, ite_self, hstore, ← atomicOld, ← atomicNew]
  unfold atomicMem
  split <;> rfl

/-- The entry of an atomic in the Peg table is done. -/
def Ctl.pegDone (c : Ctl) (f : Frame) (old : Nat) (aflags : Byte) : Ctl :=
  { c with peg := c.peg.map (fun p => if p.src = f.src.toNat && p.inc = f.inc && p.tag = f.tag
      then { p with done := true, status := stOK, old := BitVec.ofNat 128 old, aflags := aflags } else p) }

theorem Ctl.answerAtomic_ok (c : Ctl) (id : Nat) (f : Frame) (old : Nat) (aflags : Byte) : c.answerAtomic id f stOK dNONE old aflags
    = ((c.pegDone f old aflags).closeReq id).answer f stOK dNONE 0 0 (leBytes 16 old ++ [aflags] ++ zeros 7) (some f.tag) none := by
  unfold Ctl.answerAtomic Ctl.pegRecord
  dsimp only
  rw [if_pos (by decide)]
  rfl

theorem State.runAtomic_plain {s : State} {o : OpenReq} {i k p : Nat}
    (hseg : s.ctl.targetSegs o.frame.bay.toNat (.flat i) o.frame.addr (atomicSize (atomicOf o.frame.payload).ty)
      = [plainSeg k (atomicSize (atomicOf o.frame.payload).ty) p])
    (hnear : keyTray k = none) (hclean : s.mem.poison = []) : s.runAtomic o (.flat i)
      = { s with mem := atomicMem s.mem k (atomicOf o.frame.payload),
                 ctl := s.ctl.answerAtomic o.id o.frame stOK dNONE (atomicOld s.mem k (atomicOf o.frame.payload))
                   (if (atomicNew s.mem k (atomicOf o.frame.payload)).2 then afAPPLIED else 0) } := by
  unfold State.runAtomic
  dsimp only
  rw [State.atomic_plain hseg hnear hclean]

end Sys2Proof.Machine

namespace Sys2Proof.Machine

/-! ### A request to flat memory is served (R129, R147-R152) -/

theorem Alone.withPeg {s : State} {f : Frame} {c : Ctl} {o : OpenReq} (h : Alone s f c o) (l : List PegEntry) : Alone s f { c with peg := l } o :=
  ⟨h.frame, h.opens, h.serving.trans ⟨rfl⟩, h.pairs, h.locks, h.pubReads, h.regs⟩

theorem Ctl.pegDrop_none {c : Ctl} (h : c.peg = []) (src : Nat) (tag : BitVec 16) : c.pegDrop src tag = c := by
  rw [Ctl.pegDrop, h, List.filter_nil, ← h]

/-- An open request runs at once when the Peg table is empty; an atomic enters it. -/
theorem State.run_pegless {s : State} {id : Nat} {o : OpenReq} (ho : s.ctl.open? id = some o) (hpeg : s.ctl.peg = []) :
    ∃ l, s.run id = ({ s with ctl := { s.ctl with peg := l } } : State).runKind o := by
  unfold State.run
  rw [ho]
  dsimp only
  split
  · have hdrop : s.onCtl (·.pegDrop o.frame.src.toNat (o.frame.tag - 256)) = s :=
      congrArg (fun c => ({ s with ctl := c } : State)) (Ctl.pegDrop_none hpeg o.frame.src.toNat (o.frame.tag - 256))
    have hfind : s.ctl.pegFind o.frame.src.toNat o.frame.inc o.frame.tag = none := by rw [Ctl.pegFind, hpeg]; rfl
    rw [hdrop, hfind]
    dsimp only
    rw [hpeg, List.filter_nil, if_neg (by decide)]
    exact ⟨_, rfl⟩
  · exact ⟨s.ctl.peg, rfl⟩

/-- A request to flat memory that arrives and passes its checks goes on to act on it. -/
theorem State.serve_flat {s : State} {f : Frame} {i cls : Nat} {old : Bool} (harr : Arrives s f) (hkind : OnMemory f)
    (hcheck : s.ctl.check59 f (spanOf f) (rightFor f) = .pass (.flat i) cls old) :
    ∃ c o, Alone s f c o ∧ o.ext = some i ∧ s.serve f .clean = (({ s with ctl := c } : State).runMem o).settle := by
  obtain ⟨c, o, halone, hpeg, hopen, hserve⟩ := State.serve_alone harr.toServes harr.quiet harr.untracked
  obtain ⟨l, hrun⟩ := State.run_pegless (s := { s with ctl := c }) hopen (hpeg.trans harr.pegless)
  have hpegged := halone.withPeg l
  have hflat := State.runKind_flat hpegged harr.toServes hkind hcheck
  exact ⟨_, _, hpegged.through i old, rfl, hserve.trans (congrArg State.settle (hrun.trans hflat))⟩

/-- What is left of a request to flat memory that was answered OK: its effect on the bytes and the response. -/
structure Served (s : State) (f : Frame) (m : Mem) (payload : List Byte) (t : State) : Prop where
  replied : Replied s t f stOK payload
  mem : t.mem = m
  opens : t.ctl.opens = []
  rights : SameRights s t
  tier : t.ctl.tier = s.ctl.tier
  pending : t.pending = s.pending

theorem Ends.served {s : State} {f : Frame} {payload : List Byte} {e d : Ctl} (h : Ends s f payload e d) (hserving : s.ctl.Serving e) (m : Mem) :
    Served s f m payload { s with ctl := d, mem := m } :=
  ⟨h.replied m, rfl, h.opens, (hserving.trans h.serving).sameRights, (congrArg Ctl.tier (hserving.trans h.serving).same :), rfl⟩

/-! ### The span and the right of each kind (Tables 5.8, 5.9) -/

theorem spanOf_read {f : Frame} (h : f.kind = kRead) : spanOf f = rlenOf f := if_pos h

theorem rightFor_read {f : Frame} (h : f.kind = kRead) : rightFor f = some rightR := if_pos (by simp [h])

theorem spanOf_atomic {f : Frame} (h : f.kind = kAtomic) : spanOf f = atomicSize (atomicOf f.payload).ty := by
  unfold spanOf
  rw [if_neg (by rw [h]; decide), if_pos h]

theorem rightFor_atomic {f : Frame} (h : f.kind = kAtomic) : rightFor f = some rightA := by
  unfold rightFor
  rw [h]
  decide

/-- The two kinds that store their payload. -/
def Stores (f : Frame) : Prop := f.kind = kWrite ∨ f.kind = kWriteInv

theorem Stores.ne {f : Frame} (h : Stores f) {k : BitVec 8} (h1 : kWrite ≠ k) (h2 : kWriteInv ≠ k) : f.kind ≠ k := by
  rcases h with h | h <;> rw [h] <;> assumption

theorem Stores.onMemory {f : Frame} (h : Stores f) : OnMemory f := by
  rcases h with h | h
  · exact .inr (.inl h)
  · exact .inr (.inr (.inl h))

theorem Stores.spanOf {f : Frame} (h : Stores f) : Machine.spanOf f = f.payload.length := by
  unfold Machine.spanOf
  rw [if_neg (h.ne (by decide) (by decide)), if_neg (h.ne (by decide) (by decide)), h.onMemory.notCoherence]
  rfl

theorem Stores.rightFor {f : Frame} (h : Stores f) : Machine.rightFor f = some rightW := by
  unfold Machine.rightFor
  rcases h with h | h <;> rw [h] <;> decide

/-- A READ of the form that R150 asks for has a positive length. -/
theorem rlenOf_pos {f : Frame} (h : f.kind = kRead) (hform : malformed f = false) : 1 ≤ rlenOf f := by
  unfold malformed at hform
  dsimp only at hform
  rw [if_pos h] at hform
  simp only [Bool.not_eq_false', Bool.and_eq_true, decide_eq_true_eq] at hform
  obtain ⟨⟨⟨⟨-, hpos⟩, -⟩, -⟩, -⟩ := hform
  exact hpos

/-! ### Reads, writes and atomics (R148, R150, R152) -/

theorem State.serve_read {s : State} {f : Frame} {i k cls : Nat} {old : Bool} (harr : Arrives s f) (hkind : f.kind = kRead)
    (hcheck : s.ctl.check59 f (rlenOf f) (some rightR) = .pass (.flat i) cls old) (hlands : Lands s f i k) (hlen : rlenOf f ≤ 4096) :
    Served s f s.mem (s.mem.read k (rlenOf f)) (s.serve f .clean) := by
  obtain ⟨p, hplain⟩ := Plain.of_lands hlands
  obtain ⟨c, o, halone, hext, hserve⟩ := State.serve_flat harr (.inl hkind) (by rw [spanOf_read hkind, rightFor_read hkind]; exact hcheck)
  have hpub : f.kind ≠ kReadPub := by rw [hkind]; decide
  have hone : f.kind = kRead → s.mem.read k (rlenOf f) ≠ [] ∧ (s.mem.read k (rlenOf f)).length ≤ 4096 := fun _ => by
    have hread := Mem.length_read s.mem k (rlenOf f)
    refine ⟨fun hnil => ?_, hread.trans_le hlen⟩
    have hpos := rlenOf_pos hkind harr.form
    rw [hnil, List.length_nil] at hread
    omega
  have hends := halone.ends harr.ours harr.live hpub rfl rfl rfl hone 0 0 none
  have hstart := State.startRead_plain (s := { s with ctl := c }) (o := o) (k := k) (n := rlenOf f) (p := p) hplain.near hplain.clean
    (by rw [halone.frame]; exact hpub)
  rw [halone.frame] at hstart
  rw [hserve, State.runMem_plain halone hext (Ctl.check59_flat hcheck) hplain, if_pos hkind, spanOf_read hkind, hstart, hends.settled s.mem]
  exact hends.served halone.serving s.mem

theorem State.serve_store {s : State} {f : Frame} {i k cls : Nat} {old : Bool} (harr : Arrives s f) (hkind : Stores f)
    (hcheck : s.ctl.check59 f f.payload.length (some rightW) = .pass (.flat i) cls old) (hlands : Lands s f i k) :
    Served s f (s.mem.write k f.payload) [] (s.serve f .clean) := by
  obtain ⟨p, hplain⟩ := Plain.of_lands hlands
  obtain ⟨c, o, halone, hext, hserve⟩ := State.serve_flat harr hkind.onMemory (by rw [hkind.spanOf, hkind.rightFor]; exact hcheck)
  have hread : f.kind ≠ kRead := hkind.ne (by decide) (by decide)
  have hends := halone.ends (payload := []) harr.ours harr.live (hkind.ne (by decide) (by decide)) rfl rfl rfl (fun h => absurd h hread) 0 0 none
  have hstart := State.startWrite_plain (s := { s with ctl := c }) (o := o) (k := k) (p := p) hplain.near hplain.clean
  rw [halone.frame] at hstart
  rw [hserve, State.runMem_plain halone hext (Ctl.check59_flat hcheck) hplain, if_neg hread, if_neg (hkind.ne (by decide) (by decide)),
    hkind.spanOf, hstart, hends.settled (s.mem.write k f.payload)]
  exact hends.served halone.serving _

theorem Ctl.serving_pegDone (c : Ctl) (f : Frame) (old : Nat) (aflags : Byte) : c.Serving (c.pegDone f old aflags) := ⟨rfl⟩

theorem State.serve_atomic {s : State} {f : Frame} {i k cls : Nat} {old : Bool} (harr : Arrives s f) (hkind : f.kind = kAtomic)
    (hop : leAt f.payload 0 1 ≠ 0x0F) (hcheck : s.ctl.check59 f (atomicSize (atomicOf f.payload).ty) (some rightA) = .pass (.flat i) cls old)
    (hlands : Lands s f i k) : Served s f (atomicMem s.mem k (atomicOf f.payload))
      (leBytes 16 (atomicOld s.mem k (atomicOf f.payload)) ++ [if (atomicNew s.mem k (atomicOf f.payload)).2 then afAPPLIED else 0] ++ zeros 7)
      (s.serve f .clean) := by
  obtain ⟨p, hplain⟩ := Plain.of_lands hlands
  obtain ⟨c, o, halone, hext, hserve⟩ := State.serve_flat harr (.inr (.inr (.inr ⟨hkind, hop⟩)))
    (by rw [spanOf_atomic hkind, rightFor_atomic hkind]; exact hcheck)
  have hread : f.kind ≠ kRead := by rw [hkind]; decide
  have hnode := Ctl.check59_flat hcheck
  have hseg := (halone.places.flatSegs f.bay.toNat i f.addr (spanOf f)).trans hplain.seg
  rw [spanOf_atomic hkind] at hseg
  have hrun := State.runAtomic_plain (s := { s with ctl := c }) (o := o) (i := i) (k := k) (p := p) (by rw [halone.frame]; exact hseg) hplain.near hplain.clean
  rw [halone.frame, Ctl.answerAtomic_ok] at hrun
  have hends := fun payload => halone.ends (e := c.pegDone f (atomicOld s.mem k (atomicOf f.payload))
    (if (atomicNew s.mem k (atomicOf f.payload)).2 then afAPPLIED else 0)) (payload := payload) harr.ours harr.live (by rw [hkind]; decide) rfl rfl rfl
    (fun h => absurd h hread) 0 0 (some f.tag)
  rw [hserve, State.runMem_plain halone hext hnode hplain, if_neg hread, if_pos hkind, hrun, (hends _).settled]
  exact (hends _).served (halone.serving.trans (c.serving_pegDone _ _ _)) _

end Sys2Proof.Machine

namespace Sys2Proof.Machine

/-! ### QUERY (R168) -/

/-- A QUERY goes on to look the Peg table up. -/
theorem State.runKind_query {s : State} {f : Frame} {c : Ctl} {o : OpenReq} (h : Alone s f c o) (hserves : Serves s f) (hkind : f.kind = kAtomic)
    (hop : leAt f.payload 0 1 = 0x0F) : ({ s with ctl := c } : State).runKind o = ({ s with ctl := c } : State).runQuery o := by
  obtain rfl := h.frame
  have hbay : c.bay o.frame.bay.toNat = s.ctl.bay o.frame.bay.toNat := by rw [Ctl.bay, h.serving.rights.bays, ← Ctl.bay]
  have hquery : (atomicOf o.frame.payload).op = 0x0F := hop
  have hne : ∀ k : BitVec 8, kAtomic ≠ k → o.frame.kind ≠ k := fun k hk h => hk (hkind.symm.trans h)
  unfold State.runKind
  dsimp only
  rw [hbay, hserves.active, hserves.running, hserves.form, if_neg (by decide), if_neg (by decide), if_neg (by decide), if_neg (hne _ (by decide)),
    if_neg (hne _ (by decide)), if_neg (hne _ (by decide)), if_neg (hne _ (by decide)), if_pos (by simp [hkind, hquery])]

/-- A QUERY enters nothing in the Peg table. -/
theorem State.run_query {s : State} {id : Nat} {o : OpenReq} (ho : s.ctl.open? id = some o) (hop : leAt o.frame.payload 0 1 = 0x0F) :
    s.run id = s.runKind o := by
  unfold State.run
  simp only [ho, hop, ne_eq, not_true, decide_false, Bool.and_false, Bool.false_eq_true, if_false]

/-- A QUERY of a member for an atomic of its own that is done answers the recorded outcome. -/
theorem State.runQuery_done {s : State} {o : OpenReq} {m : CMap × Nat × Bool} {p : PegEntry}
    (hmember : s.ctl.checkMember o.frame.bay.toNat o.frame.gen o.frame.src.toNat = .ok m)
    (hlive : s.ctl.liveInc o.frame.src.toNat (BitVec.ofNat 8 (field (atomicOf o.frame.payload).opnd1 0 8)) = true)
    (hfind : s.ctl.pegFind o.frame.src.toNat (BitVec.ofNat 8 (field (atomicOf o.frame.payload).opnd1 0 8))
      (BitVec.ofNat 16 (field (atomicOf o.frame.payload).opnd1 8 16)) = some p) (hdone : p.done = true) :
    s.runQuery o =
      { s with ctl := (s.ctl.closeReq o.id).answer o.frame p.status dNONE 0 flREPLAYED (leBytes 16 p.old.toNat ++ [p.aflags] ++ zeros 7)
                        (some (BitVec.ofNat 16 (field (atomicOf o.frame.payload).opnd1 8 16))) none } := by
  unfold State.runQuery
  dsimp only
  rw [hmember]
  dsimp only
  rw [hlive, hfind, if_neg (by decide)]
  exact if_pos hdone

theorem State.serve_query {s : State} {f : Frame} {m : CMap × Nat × Bool} {p : PegEntry} (hserves : Serves s f) (hquiet : s.ctl.opens = [])
    (hnone : ∀ x ∈ s.ctl.tracker, x.src ≠ f.src.toNat) (hkind : f.kind = kAtomic) (hop : leAt f.payload 0 1 = 0x0F)
    (hmember : s.ctl.checkMember f.bay.toNat f.gen f.src.toNat = .ok m)
    (hlive : s.ctl.liveInc f.src.toNat (BitVec.ofNat 8 (field (atomicOf f.payload).opnd1 0 8)) = true)
    (hfind : s.ctl.pegFind f.src.toNat (BitVec.ofNat 8 (field (atomicOf f.payload).opnd1 0 8))
      (BitVec.ofNat 16 (field (atomicOf f.payload).opnd1 8 16)) = some p) (hdone : p.done = true) (hok : p.status = stOK) :
    Served s f s.mem (leBytes 16 p.old.toNat ++ [p.aflags] ++ zeros 7) (s.serve f .clean) ∧ (s.serve f .clean).ctl.peg = s.ctl.peg := by
  obtain ⟨c, o, halone, hpeg, hopen, hserve⟩ := State.serve_alone hserves hquiet hnone
  have hquery := State.runKind_query halone hserves hkind hop
  obtain rfl := halone.frame
  have hrun : ({ s with ctl := c } : State).run o.id = ({ s with ctl := c } : State).runKind o := State.run_query hopen hop
  have hfind' : c.pegFind o.frame.src.toNat (BitVec.ofNat 8 (field (atomicOf o.frame.payload).opnd1 0 8))
      (BitVec.ofNat 16 (field (atomicOf o.frame.payload).opnd1 8 16)) = some p := by rw [Ctl.pegFind, hpeg]; exact hfind
  have hanswer := State.runQuery_done (s := { s with ctl := c }) ((Ctl.checkMember_congr halone.serving.rights.bays _ _ _).trans hmember)
    ((Ctl.liveInc_congr halone.serving.rights.eps _ _).trans hlive) hfind' hdone
  rw [hok] at hanswer
  have hends := halone.ends (payload := leBytes 16 p.old.toNat ++ [p.aflags] ++ zeros 7) hserves.ours hserves.live (by rw [hkind]; decide) rfl rfl rfl
    (fun h => absurd (hkind.symm.trans h) (by decide)) 0 flREPLAYED (some (BitVec.ofNat 16 (field (atomicOf o.frame.payload).opnd1 8 16)))
  rw [hserve, hrun, hquery, hanswer, hends.settled s.mem]
  exact ⟨hends.served halone.serving s.mem, hends.peg.trans hpeg⟩

/-! ### The commands -/

theorem read_completes (f : Frame) (i k cls : Nat) (old : Bool) (s : State) (harr : Arrives s f) (hkind : f.kind = kRead)
    (hcheck : s.ctl.check59 f (rlenOf f) (some rightR) = .pass (.flat i) cls old) (hlands : Lands s f i k) (hlen : rlenOf f ≤ 4096) :
    Completes (.read f .clean) s (fun t =>
      Replied s t f stOK (s.mem.read k (rlenOf f)) ∧ t.ctl.opens = [] ∧ SameRights s t ∧ t.ctl.tier = s.ctl.tier ∧ Keeps s t) := by
  have h := State.serve_read harr hkind hcheck hlands hlen
  have hexec : exec (.read f .clean) s = .next (s.serve f .clean) := congrArg Host.Outcome.next (if_pos (by simp [hkind]))
  exact ⟨_, hexec, h.replied, h.opens, h.rights, h.tier, h.mem, h.pending⟩

/-- What the claim says of each command that stores its payload. -/
theorem Served.completes {s : State} {f : Frame} {m : Mem} {payload : List Byte} {i : Instr} (h : Served s f m payload (s.serve f .clean))
    (hexec : exec i s = .next (s.serve f .clean)) : Completes i s (fun t =>
      Replied s t f stOK payload ∧ t.mem = m ∧ t.ctl.opens = [] ∧ SameRights s t ∧ t.ctl.tier = s.ctl.tier ∧ t.pending = s.pending) :=
  ⟨_, hexec, h.replied, h.mem, h.opens, h.rights, h.tier, h.pending⟩

theorem write_completes (f : Frame) (i k cls : Nat) (old : Bool) (s : State) (harr : Arrives s f) (hkind : f.kind = kWrite)
    (hcheck : s.ctl.check59 f f.payload.length (some rightW) = .pass (.flat i) cls old) (hlands : Lands s f i k) :
    Completes (.write f .clean) s (fun t => Replied s t f stOK [] ∧ t.mem = s.mem.write k f.payload ∧ t.ctl.opens = [] ∧ SameRights s t
      ∧ t.ctl.tier = s.ctl.tier ∧ t.pending = s.pending) :=
  (State.serve_store harr (.inl hkind) hcheck hlands).completes (congrArg Host.Outcome.next (if_pos (by simp [hkind])))

theorem flaggedWrite_completes (f : Frame) (i k cls : Nat) (old : Bool) (s : State) (harr : Arrives s f) (hkind : f.kind = kWrite)
    (hrelease : f.has flRELEASE = true) (hcheck : s.ctl.check59 f f.payload.length (some rightW) = .pass (.flat i) cls old) (hlands : Lands s f i k) :
    Completes (.flaggedWrite f .clean) s (fun t => Replied s t f stOK [] ∧ t.mem = s.mem.write k f.payload ∧ t.ctl.opens = [] ∧ SameRights s t
      ∧ t.ctl.tier = s.ctl.tier ∧ t.pending = s.pending) :=
  (State.serve_store harr (.inl hkind) hcheck hlands).completes
    (congrArg Host.Outcome.next (if_pos (by simp [Frame.isRelease, hkind, hrelease])))

theorem writeInv_completes (f : Frame) (i k cls : Nat) (old : Bool) (s : State) (harr : Arrives s f) (hkind : f.kind = kWriteInv)
    (hcheck : s.ctl.check59 f f.payload.length (some rightW) = .pass (.flat i) cls old) (hlands : Lands s f i k) :
    Completes (.writeInv f) s (fun t => Replied s t f stOK [] ∧ t.mem = s.mem.write k f.payload ∧ t.ctl.opens = [] ∧ SameRights s t
      ∧ t.ctl.tier = s.ctl.tier ∧ t.pending = s.pending) :=
  (State.serve_store harr (.inr hkind) hcheck hlands).completes (congrArg Host.Outcome.next (if_pos (by simp [hkind])))

theorem atomic_completes (f : Frame) (i k cls : Nat) (old : Bool) (s : State) :
    let op := atomicOf f.payload
    let m := s.mem.read k (atomicSize op.ty)
    let r := atomicApply op.op op.ty (8 * atomicSize op.ty) (leNat m) op.opnd1 op.opnd2
    Arrives s f → f.kind = kAtomic → leAt f.payload 0 1 ≠ 0x0F →
    s.ctl.check59 f (atomicSize op.ty) (some rightA) = .pass (.flat i) cls old → Lands s f i k → Completes (.atomic f .clean) s (fun t =>
      Replied s t f stOK (leBytes 16 (leNat m) ++ [if r.2 then 1 else 0] ++ zeros 7)
      ∧ t.mem = (if r.2 then s.mem.write k (leBytes (atomicSize op.ty) r.1) else s.mem)
      ∧ t.ctl.opens = [] ∧ SameRights s t ∧ t.ctl.tier = s.ctl.tier ∧ t.pending = s.pending) := by
  intro op m r harr hkind hop hcheck hlands
  exact (State.serve_atomic harr hkind hop hcheck hlands).completes (congrArg Host.Outcome.next (if_pos (by simp [hkind, hop])))

theorem query_completes (f : Frame) (m : CMap) (k : Nat) (old : Bool) (p : PegEntry) (s : State) :
    let o1 := (atomicOf f.payload).opnd1
    Serves s f → s.ctl.opens = [] → (∀ x ∈ s.ctl.tracker, x.src ≠ f.src.toNat) → f.kind = kAtomic → leAt f.payload 0 1 = 0x0F →
    s.ctl.checkMember f.bay.toNat f.gen f.src.toNat = .ok (m, k, old) → s.ctl.liveInc f.src.toNat (BitVec.ofNat 8 (field o1 0 8)) = true →
    s.ctl.pegFind f.src.toNat (BitVec.ofNat 8 (field o1 0 8)) (BitVec.ofNat 16 (field o1 8 16)) = some p → p.done = true → p.status = stOK →
    Completes (.query f) s (fun t =>
      Replied s t f stOK (leBytes 16 p.old.toNat ++ [p.aflags] ++ zeros 7) ∧ t.ctl.peg = s.ctl.peg ∧ SameRights s t ∧ Keeps s t) := by
  intro o1 hserves hquiet hnone hkind hop hmember hlive hfind hdone hok
  obtain ⟨h, hpeg⟩ := State.serve_query hserves hquiet hnone hkind hop hmember hlive hfind hdone hok
  have hexec : exec (.query f) s = .next (s.serve f .clean) := congrArg Host.Outcome.next (if_pos (by simp [hkind, hop]))
  exact ⟨_, hexec, h.replied, hpeg, h.rights, h.mem, h.pending⟩

/-- Settles O17. A request that arrives alone and passes its checks acts on one plain run of bytes and is answered at once, so that nothing
stays open. It rests on log entries 28, 29 and 126, as the statement says. -/
theorem memoryRequests : Obligations.MemoryRequests := by
  unfold Obligations.MemoryRequests
  exact ⟨read_completes, write_completes, flaggedWrite_completes, writeInv_completes, atomic_completes, query_completes⟩

end Sys2Proof.Machine

namespace Sys2Proof.Machine

/-! ### A register write that is refused -/

theorem Ctl.rd_refuse (c : Ctl) (f : Fld) (hend : f.lo + f.w ≤ 64) (hw : 0 < f.w) (hf : f.addr ≠ Reg.wrRefused) : (c.refuse f).rd f = 1 :=
  (Ctl.rd_bumpBy_ne _ _ 1 f hf).trans (Ctl.rd_wr_fits c f 1 hend (Nat.one_lt_two_pow hw.ne'))

theorem Ctl.reg_refuse_ne (c : Ctl) (f : Fld) {a : Nat} (hf : a ≠ f.addr) (hcount : a ≠ Reg.wrRefused) : (c.refuse f).reg a = c.reg a :=
  (Ctl.reg_bumpBy_ne _ _ 1 a hcount).trans (Ctl.reg_wr_ne c f 1 a hf)

theorem onlyRegs_refuse (s : State) (f : Fld) : OnlyRegs [f.addr, Reg.wrRefused] s { s with ctl := s.ctl.refuse f } := by
  refine ⟨rfl, fun a ha => ?_⟩
  rw [List.mem_cons, List.mem_singleton, not_or] at ha
  exact s.ctl.reg_refuse_ne f ha.1 ha.2

/-! ### MEM_CTR_WIN is refused (R176, Table 6.11) -/

/-- Bay `b` may not take the window from `first` on: another bay's window has a counter of it, or `b` is not FREE and has another window. -/
def Ctl.BarsWin (c : Ctl) (b : Fin 4096) (first count : Nat) : Prop :=
  (∃ (o : Fin 4096) (j : Nat), o ≠ b ∧ first ≤ j ∧ j < first + count
      ∧ c.rd (Reg.winFirst o.val) ≤ j ∧ j < c.rd (Reg.winFirst o.val) + c.rd (Reg.winCount o.val))
    ∨ ((c.bay b.val).st ≠ .free ∧ (first ≠ c.rd (Reg.winFirst b.val) ∨ count ≠ c.rd (Reg.winCount b.val)))

theorem Ctl.writeCtrWin_barred {c : Ctl} {b : Fin 4096} {v : Word} {first count : Nat} (hfirst : first = field v.toNat 0 20)
    (hcount : count = min (field v.toNat 32 21) (1048576 - first)) (h : c.BarsWin b first count) :
    c.writeCtrWin b.val v = c.refuse Reg.ctrRefused := by
  unfold Ctl.writeCtrWin
  dsimp only
  rw [← hfirst, ← hcount]
  refine if_pos ?_
  rw [Bool.or_eq_true]
  obtain ⟨o, j, hne, hlo, hhi, hlo', hhi'⟩ | ⟨hst, hdiff⟩ := h
  · have hother : (o.val != b.val) = true := bne_iff_ne.mpr (fun heq => hne (Fin.ext heq))
    have hbelow : first < c.rd (Reg.winFirst o.val) + c.rd (Reg.winCount o.val) := lt_of_le_of_lt hlo hhi'
    have habove : c.rd (Reg.winFirst o.val) < first + count := lt_of_le_of_lt hlo' hhi
    refine .inr (Bool.and_eq_true_iff.mpr ⟨decide_eq_true (by omega), List.any_eq_true.mpr ⟨o.val, List.mem_range.mpr o.isLt, ?_⟩⟩)
    rw [hother, decide_eq_true hbelow, decide_eq_true habove]
    rfl
  · refine .inl (Bool.and_eq_true_iff.mpr ⟨decide_eq_true hst, ?_⟩)
    rcases hdiff with hdiff | hdiff <;> simp [hdiff]

theorem memCtrWinWrite_barred_completes (b : Fin 4096) (v : Word) (s : State) (first count : Nat) (hfirst : first = field v.toNat 0 20)
    (hcount : count = min (field v.toNat 32 21) (1048576 - first)) (hmain : s.ctl.mainUp = true) (hbars : s.ctl.BarsWin b first count) :
    Completes (.memCtrWinWrite b v) s (fun t =>
      t.ctl.reg (0x06002000 + 8 * b.val) = s.ctl.reg (0x06002000 + 8 * b.val) ∧ t.ctl.rd Reg.ctrRefused = 1
      ∧ OnlyRegs [Reg.ctrRefused.addr, Reg.wrRefused] s t) :=
  Completes.onCtl (congrArg done (State.whenMain_on s _ hmain)) (Ctl.writeCtrWin_barred hfirst hcount hbars)
    ⟨s.ctl.reg_refuse_ne Reg.ctrRefused (by simp only [Reg.ctrRefused]; omega) (by simp only [Reg.wrRefused]; omega),
      s.ctl.rd_refuse Reg.ctrRefused (by decide) (by decide) (by decide), onlyRegs_refuse s Reg.ctrRefused⟩

/-- Settles O55. A counter that two windows share makes them overlap as the model compares them, by their ends. -/
theorem counterWindowRefused : Obligations.CounterWindowRefused := by
  unfold Obligations.CounterWindowRefused
  exact fun b v s hmain hbars => memCtrWinWrite_barred_completes b v s _ _ rfl rfl hmain hbars

end Sys2Proof.Machine

namespace Sys2Proof.Machine

/-! ### Responses of any status (R148) -/

/-- Under the pair's next SEQ stands a response to `f` with this status and payload: what `Replied` says, of the control records alone. -/
def Ctl.Responds (c d : Ctl) (f : Frame) (status : Byte) (payload : List Byte) : Prop :=
  ∃ x ∈ (d.pair f.src.toNat).kept, x.seq = (c.pair f.src.toNat).txSeq ∧ x.frame.kind = rspKind f.kind ∧ x.frame.tag = f.tag
    ∧ x.frame.status = status ∧ x.frame.payload = payload

theorem Ctl.Responds.replied {s : State} {d : Ctl} {f : Frame} {status : Byte} {payload : List Byte} (h : s.ctl.Responds d f status payload) :
    Replied s { s with ctl := d } f status payload := h

theorem Ctl.Responds.of_pairs {b c d : Ctl} {f : Frame} {status : Byte} {payload : List Byte} (h : c.Responds d f status payload)
    (hpairs : c.pairs = b.pairs) : b.Responds d f status payload := by
  have hpair : c.pair f.src.toNat = b.pair f.src.toNat := by simp only [Ctl.pair, hpairs]
  rwa [Ctl.Responds, hpair] at h

/-- A response to a request for the SG7 is sequenced by the SG7 (R78, R86). -/
theorem Ctl.responds_sendRsp {f : Frame} (hdst : f.dst = 0xFFF) (c : Ctl) (status detail : Byte) (addr : Word) (flags : BitVec 16)
    (payload : List Byte) (peg : Option (BitVec 16)) (grant : Option Nat) :
    c.Responds (c.sendRsp f (rspFrame f status detail addr flags payload) peg grant) f status payload := by
  obtain ⟨x, hx, hseq, hframe⟩ := c.kept_sendSeq (rspFrame f status detail addr flags payload) peg grant
  rw [Ctl.sendRsp, if_pos hdst]
  exact ⟨x, hx, hseq, by rw [hframe]; exact ⟨rfl, rfl, rfl, rfl⟩⟩

/-- An answer that is one response frame. -/
theorem Ctl.responds_answered {f : Frame} (hdst : f.dst = 0xFFF) (c : Ctl) (status detail : Byte) (addr : Word) (flags : BitVec 16)
    (payload : List Byte) (peg : Option (BitVec 16)) (grant : Option Nat) :
    c.Responds ((c.answered f status detail).sendRsp f (rspFrame f status detail addr flags payload) peg grant) f status payload :=
  (Ctl.responds_sendRsp hdst _ status detail addr flags payload peg grant).of_pairs (Ctl.pairs_answered hdst status detail)

theorem Ctl.liveInc_answered {c : Ctl} {f : Frame} (hlive : c.liveInc f.src.toNat f.inc = true) (status detail : Byte) :
    (c.answered f status detail).liveInc f.src.toNat f.inc = true :=
  (Ctl.liveInc_congr (c.moves_answered f status detail).eps _ _).trans hlive

/-- A request whose responses carry no bytes (Table 6.2) is answered without any, whatever the status. -/
theorem Ctl.responds_bare {c : Ctl} {f : Frame} (hdst : f.dst = 0xFFF) (hlive : c.liveInc f.src.toNat f.inc = true) (hread : f.kind ≠ kRead)
    (hpub : f.kind ≠ kReadPub) (hlen : rspLen f.kind = 0) (status detail : Byte) (addr : Word) (flags : BitVec 16) :
    c.Responds (c.answer f status detail addr flags [] none none) f status [] := by
  have hbody : (if status = stOK || f.isCoherence then [] else zeros (rspLen f.kind)) = [] := by
    rw [hlen]
    exact ite_self _
  rw [Ctl.answer_eq (Ctl.liveInc_answered hlive status detail) hread hpub, hbody]
  exact Ctl.responds_answered hdst c status detail addr flags [] none none

/-- A READ_PUB of at most one response frame is answered by that frame. -/
theorem Ctl.responds_readPub {c : Ctl} {f : Frame} (hdst : f.dst = 0xFFF) (hlive : c.liveInc f.src.toNat f.inc = true) (hkind : f.kind = kReadPub)
    {payload : List Byte} (hpos : payload ≠ []) (hlen : payload.length ≤ 4096) (addr : Word) (flags : BitVec 16) :
    c.Responds (c.answer f stOK dNONE addr flags payload none none) f stOK payload := by
  rw [Ctl.answer_respond, Ctl.respond, if_neg (by simp [Ctl.liveInc_answered hlive]), if_pos (by simp [hkind]), if_pos (by decide),
    readPieces_one hpos hlen]
  exact Ctl.responds_answered hdst c stOK dNONE _ _ payload none none

/-! ### Requests and fences that end: what is not open is not opened, what a pair keeps stays -/

/-- `d` is `c` after requests and fences ended: none was opened, and no frame that a pair keeps for its peer was dropped. -/
structure Ctl.Clears (c d : Ctl) : Prop where
  opens : ∀ o ∈ d.opens, o ∈ c.opens
  fences : ∀ w ∈ d.fences, w ∈ c.fences
  kept : ∀ e, ∀ x ∈ (c.pair e).kept, x ∈ (d.pair e).kept

theorem Ctl.Clears.refl (c : Ctl) : c.Clears c := ⟨fun _ h => h, fun _ h => h, fun _ _ h => h⟩

theorem Ctl.Clears.trans {c d e : Ctl} (h : c.Clears d) (k : d.Clears e) : c.Clears e :=
  ⟨fun o ho => h.opens o (k.opens o ho), fun w hw => h.fences w (k.fences w hw), fun n x hx => k.kept n x (h.kept n x hx)⟩

theorem Ctl.Clears.foldl {α : Type} {f : Ctl → α → Ctl} (hf : ∀ (c : Ctl) a, c.Clears (f c a)) (l : List α) (c : Ctl) : c.Clears (l.foldl f c) :=
  List.foldlRecOn (motive := c.Clears) l f (.refl c) (fun _ h a _ => h.trans (hf _ a))

theorem Ctl.Clears.of_eq {c d : Ctl} (hopens : d.opens = c.opens) (hfences : d.fences = c.fences) (hpairs : d.pairs = c.pairs) : c.Clears d :=
  ⟨fun o ho => hopens ▸ ho, fun w hw => hfences ▸ hw, fun e x hx => by simpa only [Ctl.pair, hpairs] using hx⟩

theorem Ctl.Clears.open?_none {c d : Ctl} (h : c.Clears d) {id : Nat} (hnone : c.open? id = none) : d.open? id = none := by
  rw [Ctl.open?, List.find?_eq_none] at hnone ⊢
  exact fun o ho => hnone o (h.opens o ho)

theorem Ctl.Clears.fence?_none {c d : Ctl} (h : c.Clears d) {id : Nat} (hnone : c.fence? id = none) : d.fence? id = none := by
  rw [Ctl.fence?, List.find?_eq_none] at hnone ⊢
  exact fun w hw => hnone w (h.fences w hw)

/-- A response that stands in its pair stays there while requests and fences end. -/
theorem Ctl.Responds.clears {c d e : Ctl} {f : Frame} {status : Byte} {payload : List Byte} (h : c.Responds d f status payload) (k : d.Clears e) :
    c.Responds e f status payload := by
  obtain ⟨x, hx, hrest⟩ := h
  exact ⟨x, k.kept _ x hx, hrest⟩

theorem Ctl.Moves.fences {c d : Ctl} (h : c.Moves d) : d.fences = c.fences := (congrArg Ctl.fences h.same :)

theorem Ctl.Moves.clears {c d : Ctl} (h : c.Moves d) (hpairs : d.pairs = c.pairs) : c.Clears d := .of_eq h.opens h.fences hpairs

theorem Ctl.Posts.clears {c d : Ctl} (h : c.Posts d) : c.Clears d :=
  .of_eq (congrArg Ctl.opens h.same :) (congrArg Ctl.fences h.same :) (congrArg Ctl.pairs h.same :)

theorem Ctl.clears_bump (c : Ctl) (a : Nat) : c.Clears (c.bump a) := .of_eq rfl rfl rfl

theorem Ctl.clears_closeReq (c : Ctl) (id : Nat) : c.Clears (c.closeReq id) :=
  ⟨fun _ ho => List.mem_of_mem_filter ho, fun _ h => h, fun _ _ h => h⟩

theorem Ctl.clears_putPair {c : Ctl} {e : Nat} {p : Pair} (h : ∀ x ∈ (c.pair e).kept, x ∈ p.kept) : c.Clears (c.putPair e p) := by
  refine ⟨fun _ h => h, fun _ h => h, fun n x hx => ?_⟩
  by_cases hn : n = e
  · subst hn
    rw [Ctl.pair_putPair]
    exact h x hx
  · rwa [Ctl.pair_putPair_ne c e p n hn]

theorem Ctl.clears_sendFrame (c : Ctl) (f : Frame) : c.Clears (c.sendFrame f) := (c.moves_sendFrame f).clears (c.pairs_sendFrame f)

theorem Ctl.clears_withAck (c : Ctl) (ep : Nat) (f : Frame) : c.Clears (c.withAck ep f).1 := by
  unfold Ctl.withAck
  dsimp only
  split
  · exact .refl c
  · exact Ctl.clears_putPair (fun _ hx => hx)

theorem Ctl.clears_sendSeq (c : Ctl) (f : Frame) (peg : Option (BitVec 16)) (grant : Option Nat) : c.Clears (c.sendSeq f peg grant) := by
  unfold Ctl.sendSeq
  dsimp only
  split
  · refine ((Ctl.clears_putPair (fun x hx => ?_)).trans (Ctl.clears_withAck _ _ _)).trans (Ctl.clears_sendFrame _ _)
    simp only [Pair.kept, List.mem_append] at hx ⊢
    exact hx.imp_left .inl
  · refine Ctl.clears_putPair (fun x hx => ?_)
    simp only [Pair.kept, List.mem_append] at hx ⊢
    exact hx.imp_right .inl

theorem Ctl.clears_sendRsp (c : Ctl) (r f : Frame) (peg : Option (BitVec 16)) (grant : Option Nat) : c.Clears (c.sendRsp r f peg grant) := by
  unfold Ctl.sendRsp
  split
  · exact c.clears_sendSeq _ _ _
  · exact c.clears_sendFrame _

theorem Ctl.clears_answered (c : Ctl) (r : Frame) (status detail : Byte) : c.Clears (c.answered r status detail) := by
  have hbump : ∀ (p : Prop) [Decidable p] (d : Ctl) (a : Nat), d.Clears (if p then d.bump a else d) := fun p _ d a => by
    split
    · exact d.clears_bump a
    · exact .refl d
  have hcounted := ((Ctl.Clears.of_eq rfl rfl rfl : c.Clears (c.untrack r.src.toNat r.dst.toNat r.seq)).trans
    (hbump (status = stPOISONED) _ Reg.memPoisonRsp)).trans (hbump (detail = dMALFORMED) _ Reg.memMalformed)
  unfold Ctl.answered
  dsimp only
  split
  · exact hcounted
  · exact hcounted.trans (Ctl.clears_sendFrame _ _)

theorem Ctl.clears_respond (c : Ctl) (r : Frame) (status detail : Byte) (addr : Word) (flags : BitVec 16) (payload : List Byte)
    (peg : Option (BitVec 16)) (grant : Option Nat) : c.Clears (c.respond r status detail addr flags payload peg grant) := by
  unfold Ctl.respond
  split
  · exact .refl _
  · split
    · split
      · exact Ctl.Clears.foldl (fun _ _ => Ctl.clears_sendRsp _ _ _ _ _) _ _
      · exact Ctl.clears_sendRsp _ _ _ _ _
    · exact Ctl.clears_sendRsp _ _ _ _ _

theorem Ctl.clears_answer (c : Ctl) (r : Frame) (status detail : Byte) (addr : Word) (flags : BitVec 16) (payload : List Byte)
    (peg : Option (BitVec 16)) (grant : Option Nat) : c.Clears (c.answer r status detail addr flags payload peg grant) :=
  (c.clears_answered r status detail).trans (Ctl.clears_respond _ _ _ _ _ _ _ _ _)

theorem Ctl.clears_pegRecord (c : Ctl) (f : Frame) (status : Byte) (old : BitVec 128) (aflags : Byte) : c.Clears (c.pegRecord f status old aflags) := by
  unfold Ctl.pegRecord
  split
  · exact .of_eq rfl rfl rfl
  · exact .of_eq rfl rfl rfl

theorem Ctl.clears_failReq (c : Ctl) (id : Nat) (f : Frame) (status detail : Byte) (addr : Word) : c.Clears (c.failReq id f status detail addr) := by
  unfold Ctl.failReq
  dsimp only
  refine Ctl.Clears.trans ?_ ((Ctl.clears_closeReq _ id).trans (Ctl.clears_answer _ _ _ _ _ _ _ _ _))
  split
  · exact c.clears_pegRecord f status 0 0
  · exact .refl c

theorem Ctl.clears_endFence (c : Ctl) (w : FenceWait) (status detail : Byte) (addr : Word) : c.Clears (c.endFence w status detail addr) :=
  Ctl.Clears.trans (d := { c with fences := c.fences.filter (fun (x : FenceWait) => x.id != w.id) })
    ⟨fun _ h => h, fun _ hw => List.mem_of_mem_filter hw, fun _ _ h => h⟩ (Ctl.clears_answer _ _ _ _ _ _ _ _ _)

theorem Ctl.clears_event (c : Ctl) (code : Nat) (args : List Nat) : c.Clears (c.event code args) := (c.posts_event code args).clears

/-- The halt of a bay ends its requests and fences (R171). -/
theorem Ctl.clears_haltBay (c : Ctl) (bay : Nat) : c.Clears (c.haltBay bay) := by
  unfold Ctl.haltBay
  split
  · exact .refl c
  · refine Ctl.Clears.trans ?_ (Ctl.clears_event _ _ _)
    refine Ctl.Clears.trans ?_ (Ctl.Clears.foldl (fun _ _ => Ctl.clears_endFence _ _ _ _ _) _ _)
    exact (Ctl.Clears.of_eq rfl rfl rfl : c.Clears (c.putBay bay { c.bay bay with halted := true })).trans
      (Ctl.Clears.foldl (fun _ _ => Ctl.clears_failReq _ _ _ _ _ _) _ _)

theorem Ctl.clears_memLost (c : Ctl) (bay ep : Nat) (fatal : Bool) : c.Clears (c.memLost bay ep fatal).1 := by
  unfold Ctl.memLost
  split
  · exact c.clears_haltBay bay
  · exact (c.clears_event _ _).trans (Ctl.clears_bump _ _)

/-- What follows on writes that are not confirmed (R159) ends requests and fences. -/
theorem Ctl.clears_unconfirmed (c : Ctl) (bay ep : Nat) (l : List TrackEnt) : c.Clears (c.unconfirmed bay ep l) :=
  Ctl.Clears.foldl (fun _ _ => Ctl.clears_memLost _ _ _ _) _ _

end Sys2Proof.Machine

namespace Sys2Proof.Machine

/-! ### Held releases (R157, R159) -/

theorem Ctl.releaseTimeout_due {c : Ctl} {id mark : Nat} {o : OpenReq} (hopen : c.open? id = some o) (hphase : o.phase = .heldRelease mark)
    (hwaits : c.releaseWaits o mark = true) (hdue : c.rd Reg.fenceTimeout ≤ c.now - o.since) :
    ∃ l, c.releaseTimeout id
      = ((c.failReq id o.frame stPATHLOST dNONE 0).bump Reg.memRelTimeout).unconfirmed o.frame.bay.toNat o.frame.src.toNat l := by
  unfold Ctl.releaseTimeout
  rw [hopen]
  dsimp only
  rw [hphase]
  dsimp only
  rw [if_pos (by simp [hwaits, hdue])]
  exact ⟨_, rfl⟩

theorem Ctl.failReq_write {f : Frame} (hkind : f.kind = kWrite) (c : Ctl) (id : Nat) (status detail : Byte) (addr : Word) :
    c.failReq id f status detail addr = (c.closeReq id).answer f status detail addr 0 [] none none := by
  have hatomic : f.kind ≠ kAtomic := by rw [hkind]; decide
  have hread : f.kind ≠ kRead := by rw [hkind]; decide
  have hpub : f.kind ≠ kReadPub := by rw [hkind]; decide
  unfold Ctl.failReq
  simp [hatomic, hread, hpub]

theorem Ctl.open?_closeReq (c : Ctl) (id : Nat) : (c.closeReq id).open? id = none := by
  rw [Ctl.open?, List.find?_eq_none]
  intro o ho
  have hne : (o.id != id) = true := (List.mem_filter.mp ho).2
  simpa using hne

/-- A write that fails is no longer open, and its response stands in the pair. -/
theorem Ctl.failReq_write_responds {c : Ctl} {f : Frame} (hkind : f.kind = kWrite) (hdst : f.dst = 0xFFF)
    (hlive : c.liveInc f.src.toNat f.inc = true) (id : Nat) (status detail : Byte) (addr : Word) :
    c.Responds (c.failReq id f status detail addr) f status [] ∧ (c.failReq id f status detail addr).open? id = none := by
  rw [Ctl.failReq_write hkind]
  exact ⟨Ctl.responds_bare (c := c.closeReq id) hdst hlive (by rw [hkind]; decide) (by rw [hkind]; decide) (by rw [hkind]; rfl) _ _ _ _,
    (Ctl.clears_answer _ _ _ _ _ _ _ _ _).open?_none (c.open?_closeReq id)⟩

theorem releaseTimeout_completes (o : OpenReq) (mark : Nat) (s : State) (hserves : Serves s o.frame) (hopen : s.ctl.open? o.id = some o)
    (hphase : o.phase = .heldRelease mark) (hwaits : s.ctl.releaseWaits o mark = true)
    (hdue : s.ctl.rd Reg.fenceTimeout ≤ s.ctl.now - o.since) (hkind : o.frame.kind = kWrite) :
    Completes (.releaseTimeout o.id) s (fun t => Replied s t o.frame stPATHLOST [] ∧ t.ctl.open? o.id = none ∧ Keeps s t) := by
  obtain ⟨l, hl⟩ := Ctl.releaseTimeout_due hopen hphase hwaits hdue
  obtain ⟨hresponds, hclosed⟩ := Ctl.failReq_write_responds hkind hserves.ours hserves.live o.id stPATHLOST dNONE 0
  have hafter := (Ctl.clears_bump (s.ctl.failReq o.id o.frame stPATHLOST dNONE 0) Reg.memRelTimeout).trans
    (Ctl.clears_unconfirmed _ o.frame.bay.toNat o.frame.src.toNat l)
  exact Completes.onCtl rfl hl ⟨(hresponds.clears hafter).replied, hafter.open?_none hclosed, rfl, rfl⟩

/-- The one open request is alone, however it came to be open. -/
theorem Alone.self {s : State} {o : OpenReq} (h : s.ctl.opens = [o]) : Alone s o.frame s.ctl o :=
  ⟨rfl, h, (Ctl.Moves.refl s.ctl).serving, rfl, rfl, rfl, fun _ _ => rfl⟩

/-- The one open request to flat memory, running as a store: it writes its payload and is answered. -/
theorem State.runKind_store {s : State} {f : Frame} {c : Ctl} {o : OpenReq} {i k cls : Nat} {old : Bool} (h : Alone s f c o) (hserves : Serves s f)
    (hkind : Stores f) (hcheck : s.ctl.check59 f f.payload.length (some rightW) = .pass (.flat i) cls old) (hlands : Lands s f i k) :
    Served s f (s.mem.write k f.payload) [] (({ s with ctl := c } : State).runKind o).settle := by
  obtain ⟨p, hplain⟩ := Plain.of_lands hlands
  have hthrough := h.through i old
  have hread : f.kind ≠ kRead := hkind.ne (by decide) (by decide)
  have hends := hthrough.ends (payload := []) hserves.ours hserves.live (hkind.ne (by decide) (by decide)) rfl rfl rfl
    (fun hr => absurd hr hread) 0 0 none
  have hstart := State.startWrite_plain (s := { s with ctl := (c.putOpen (o.through i old)).trackExt f (some i) }) (o := o.through i old)
    (k := k) (p := p) hplain.near hplain.clean
  rw [hthrough.frame] at hstart
  rw [State.runKind_flat h hserves hkind.onMemory (by rw [hkind.spanOf, hkind.rightFor]; exact hcheck),
    State.runMem_plain hthrough rfl (Ctl.check59_flat hcheck) hplain, if_neg hread, if_neg (hkind.ne (by decide) (by decide)), hkind.spanOf, hstart,
    hends.settled (s.mem.write k f.payload)]
  exact hends.served hthrough.serving _

theorem State.releaseProceed_run {s : State} {o : OpenReq} {mark : Nat} (hopen : s.ctl.open? o.id = some o) (hphase : o.phase = .heldRelease mark)
    (hgo : s.ctl.releaseWaits o mark = false) (hkind : o.frame.kind ≠ kAtomic) : s.releaseProceed o.id = (s.runKind o).settle := by
  unfold State.releaseProceed
  rw [hopen]
  dsimp only
  rw [hphase]
  dsimp only
  rw [hgo, if_neg (by decide), State.run_kind hopen hkind]

theorem releaseProceed_completes (o : OpenReq) (mark i k cls : Nat) (old : Bool) (s : State) (hserves : Serves s o.frame) (hopens : s.ctl.opens = [o])
    (hphase : o.phase = .heldRelease mark) (hgo : s.ctl.releaseWaits o mark = false) (hkind : o.frame.kind = kWrite)
    (hcheck : s.ctl.check59 o.frame o.frame.payload.length (some rightW) = .pass (.flat i) cls old) (hlands : Lands s o.frame i k) :
    Completes (.releaseProceed o.id) s (fun t =>
      Replied s t o.frame stOK [] ∧ t.mem = s.mem.write k o.frame.payload ∧ t.ctl.opens = [] ∧ SameRights s t ∧ t.pending = s.pending) := by
  have hopen : s.ctl.open? o.id = some o := by rw [Ctl.open?, hopens]; simp
  have h := State.runKind_store (Alone.self hopens) hserves (.inl hkind) hcheck hlands
  have hrun := State.releaseProceed_run hopen hphase hgo (by rw [hkind]; decide)
  exact Completes.of_done (congrArg done hrun) ⟨h.replied, h.mem, h.opens, h.rights, h.pending⟩

/-! ### Fences that end (R158, R159) -/

theorem Ctl.id_of_fence? {c : Ctl} {id : Nat} {w : FenceWait} (h : c.fence? id = some w) : w.id = id := by
  simpa using List.find?_some h

/-- A FENCE that ends is answered and waits no longer. -/
theorem Ctl.endFence_responds {c : Ctl} {w : FenceWait} (hkind : w.frame.kind = kFence) (hdst : w.frame.dst = 0xFFF)
    (hlive : c.liveInc w.frame.src.toNat w.frame.inc = true) (status detail : Byte) (addr : Word) :
    c.Responds (c.endFence w status detail addr) w.frame status [] ∧ (c.endFence w status detail addr).fence? w.id = none := by
  refine ⟨Ctl.responds_bare (c := { c with fences := c.fences.filter (fun (x : FenceWait) => x.id != w.id) }) hdst hlive
    (by rw [hkind]; decide) (by rw [hkind]; decide) (by rw [hkind]; rfl) _ _ _ _, ?_⟩
  refine (Ctl.clears_answer _ _ _ _ _ _ _ _ _).fence?_none ?_
  rw [Ctl.fence?, List.find?_eq_none]
  intro x hx
  have hne : (x.id != w.id) = true := (List.mem_filter.mp hx).2
  simpa using hne

theorem Ctl.moves_endFence (c : Ctl) (w : FenceWait) (status detail : Byte) (addr : Word) :
    Ctl.Moves { c with fences := c.fences.filter (fun (x : FenceWait) => x.id != w.id) } (c.endFence w status detail addr) :=
  (Ctl.answers_answer _ _ _ _ _ _ _ _ _).moves

theorem Ctl.rights_endFence (c : Ctl) (w : FenceWait) (status detail : Byte) (addr : Word) : c.Rights (c.endFence w status detail addr) := by
  obtain ⟨hbays, hexts, heps, hregions⟩ := (c.moves_endFence w status detail addr).serving.rights
  exact ⟨hbays, hexts, heps, hregions⟩

theorem Ctl.fenceComplete_done {c : Ctl} {id : Nat} {w : FenceWait} (hfence : c.fence? id = some w) (hwaits : c.fenceWaits w = []) :
    c.fenceComplete id = c.endFence w stOK dNONE 0 := by
  unfold Ctl.fenceComplete
  rw [hfence]
  dsimp only
  rw [hwaits]
  exact if_pos rfl

theorem fenceComplete_completes (id : Nat) (w : FenceWait) (s : State) (hfence : s.ctl.fence? id = some w) (hwaits : s.ctl.fenceWaits w = [])
    (hkind : w.frame.kind = kFence) (hdst : w.frame.dst = 0xFFF) (hlive : s.ctl.liveInc w.frame.src.toNat w.frame.inc = true) :
    Completes (.fenceComplete id) s (fun t =>
      Replied s t w.frame stOK [] ∧ t.ctl.fence? id = none ∧ t.ctl.opens = s.ctl.opens ∧ SameRights s t ∧ Keeps s t) := by
  obtain ⟨hresponds, hended⟩ := Ctl.endFence_responds hkind hdst hlive stOK dNONE 0
  rw [Ctl.id_of_fence? hfence] at hended
  exact Completes.onCtl rfl (Ctl.fenceComplete_done hfence hwaits) ⟨hresponds.replied, hended, (s.ctl.moves_endFence _ _ _ _).opens,
    (s.ctl.rights_endFence _ _ _ _).sameRights, rfl, rfl⟩

theorem Ctl.fenceExpires_due {c : Ctl} {id : Nat} {w : FenceWait} (hfence : c.fence? id = some w) (hwaits : c.fenceWaits w ≠ [])
    (hdue : c.rd Reg.fenceTimeout ≤ c.now - w.since) :
    ∃ a l, c.fenceExpires id = ((c.endFence w stPATHLOST dNONE a).bump Reg.memFenceLost).unconfirmed w.frame.bay.toNat w.frame.src.toNat l := by
  obtain ⟨t, l, hl⟩ := List.exists_cons_of_ne_nil hwaits
  unfold Ctl.fenceExpires
  rw [hfence]
  dsimp only
  rw [hl]
  dsimp only
  rw [if_pos hdue]
  exact ⟨_, _, rfl⟩

theorem fenceTimeout_completes (id : Nat) (w : FenceWait) (s : State) (hfence : s.ctl.fence? id = some w) (hwaits : s.ctl.fenceWaits w ≠ [])
    (hkind : w.frame.kind = kFence) (hdst : w.frame.dst = 0xFFF) (hlive : s.ctl.liveInc w.frame.src.toNat w.frame.inc = true)
    (hdue : s.ctl.rd Reg.fenceTimeout ≤ s.ctl.now - w.since) :
    Completes (.fenceTimeout id) s (fun t => Replied s t w.frame stPATHLOST [] ∧ t.ctl.fence? id = none ∧ Keeps s t) := by
  obtain ⟨a, l, hl⟩ := Ctl.fenceExpires_due hfence hwaits hdue
  obtain ⟨hresponds, hended⟩ := Ctl.endFence_responds hkind hdst hlive stPATHLOST dNONE a
  have hafter := (Ctl.clears_bump (s.ctl.endFence w stPATHLOST dNONE a) Reg.memFenceLost).trans
    (Ctl.clears_unconfirmed _ w.frame.bay.toNat w.frame.src.toNat l)
  rw [Ctl.id_of_fence? hfence] at hended
  exact Completes.onCtl rfl hl ⟨(hresponds.clears hafter).replied, hafter.fence?_none hended, rfl, rfl⟩

end Sys2Proof.Machine

namespace Sys2Proof.Machine

/-! ### Requests for the SG7's own services that arrive alone: FENCE, CTR, PUBLISH, READ_PUB -/

theorem Alone.bay {s : State} {f : Frame} {c : Ctl} {o : OpenReq} (h : Alone s f c o) (b : Nat) : c.bay b = s.ctl.bay b := by
  rw [Ctl.bay, h.serving.rights.bays, ← Ctl.bay]

theorem Alone.checkMember {s : State} {f : Frame} {c : Ctl} {o : OpenReq} {m : CMap × Nat × Bool} (h : Alone s f c o)
    (hmember : s.ctl.checkMember f.bay.toNat f.gen f.src.toNat = .ok m) :
    c.checkMember o.frame.bay.toNat o.frame.gen o.frame.src.toNat = .ok m := by
  rw [h.frame]
  exact (Ctl.checkMember_congr h.serving.rights.bays _ _ _).trans hmember

theorem Alone.rd {s : State} {f : Frame} {c : Ctl} {o : OpenReq} (h : Alone s f c o) (g : Fld) (hg : g.addr ≠ 0x06000008) : c.rd g = s.ctl.rd g :=
  Ctl.rd_congr (h.regs _ hg)

/-- A request other than an atomic that arrives alone runs at once. -/
theorem State.serve_runKind {s : State} {f : Frame} (harr : Arrives s f) (hkind : f.kind ≠ kAtomic) :
    ∃ c o, Alone s f c o ∧ s.serve f .clean = (({ s with ctl := c } : State).runKind o).settle := by
  obtain ⟨c, o, halone, -, hopen, hserve⟩ := State.serve_alone harr.toServes harr.quiet harr.untracked
  exact ⟨c, o, halone, hserve.trans (congrArg State.settle (State.run_kind hopen (by rw [halone.frame]; exact hkind)))⟩

/-- The checks that come before the kind (R96, R150, R171). -/
theorem Alone.guards {s : State} {f : Frame} {c : Ctl} {o : OpenReq} (h : Alone s f c o) (hserves : Serves s f) :
    (c.bay o.frame.bay.toNat).st = .active ∧ (c.bay o.frame.bay.toNat).halted = false ∧ malformed o.frame = false := by
  rw [h.frame, h.bay]
  exact ⟨hserves.active, hserves.running, hserves.form⟩

/-- A FENCE, CTR or PUBLISH goes on to its own checks. -/
theorem State.runKind_service {s : State} {f : Frame} {c : Ctl} {o : OpenReq} (h : Alone s f c o) (hserves : Serves s f) :
    (f.kind = kFence → ({ s with ctl := c } : State).runKind o = ({ s with ctl := c } : State).runFence o)
    ∧ (f.kind = kCtr → ({ s with ctl := c } : State).runKind o = ({ s with ctl := c } : State).runCtr o)
    ∧ (f.kind = kPublish → ({ s with ctl := c } : State).runKind o = ({ s with ctl := c } : State).runPublish o) := by
  obtain ⟨hactive, hrunning, hform⟩ := h.guards hserves
  unfold State.runKind
  dsimp only
  rw [hactive, hrunning, hform, if_neg (by decide), if_neg (by decide), if_neg (by decide), h.frame]
  refine ⟨fun hkind => if_pos hkind, fun hkind => ?_, fun hkind => ?_⟩
  · rw [hkind, if_neg (by decide), if_pos rfl]
  · rw [hkind, if_neg (by decide), if_neg (by decide), if_pos rfl]

/-- The one open request that is answered OK: nothing is open any more, and the rest is as before the answer. -/
theorem Ends.completes {s : State} {f : Frame} {payload : List Byte} {e d : Ctl} {i : Instr} (h : Ends s f payload e d)
    (hexec : exec i s = done (s.serve f .clean)) (hserve : s.serve f .clean = State.settle { s with ctl := d }) {P : State → Prop}
    (hp : P { s with ctl := d }) : Completes i s P :=
  Completes.of_done (hexec.trans (congrArg done (hserve.trans (h.settled s.mem)))) hp

/-! ### FENCE (R158) -/

/-- What a FENCE that arrives waits for: the entries of its source and bay that are in the tracker now. -/
def Ctl.fenceFor (c : Ctl) (o : OpenReq) : FenceWait := { id := o.id, frame := o.frame, mark := c.nextId, since := c.now }

/-- The control records once a FENCE waits; it is no open request any more. -/
def Ctl.awaitFence (c : Ctl) (o : OpenReq) : Ctl :=
  { c.closeReq o.id with nextId := c.nextId + 1, fences := c.fences ++ [c.fenceFor o] }

theorem State.runFence_member {s : State} {o : OpenReq} {m : CMap × Nat × Bool}
    (hmember : s.ctl.checkMember o.frame.bay.toNat o.frame.gen o.frame.src.toNat = .ok m) :
    s.runFence o = { s with ctl := s.ctl.awaitFence o } := by
  unfold State.runFence
  dsimp only
  rw [hmember]
  rfl

theorem Ctl.rights_awaitFence (c : Ctl) (o : OpenReq) : c.Rights (c.awaitFence o) := ⟨rfl, rfl, rfl, rfl⟩

theorem fence_completes (f : Frame) (m : CMap) (k : Nat) (old : Bool) (s : State) (harr : Arrives s f) (hkind : f.kind = kFence)
    (hmember : s.ctl.checkMember f.bay.toNat f.gen f.src.toNat = .ok (m, k, old)) : Completes (.fence f) s (fun t =>
      (∃ w, t.ctl.fences = s.ctl.fences ++ [w] ∧ w.frame = f ∧ w.since = s.ctl.now) ∧ t.ctl.opens = [] ∧ SameRights s t ∧ Keeps s t) := by
  obtain ⟨c, o, halone, hserve⟩ := State.serve_runKind harr (by rw [hkind]; decide)
  obtain ⟨hgo, -, -⟩ := State.runKind_service halone harr.toServes
  have hrun := (hgo hkind).trans (State.runFence_member (halone.checkMember hmember))
  have hopens : (c.awaitFence o).opens = [] := by
    show c.opens.filter _ = []
    rw [halone.opens]
    simp
  have hfences : c.fences = s.ctl.fences := (congrArg Ctl.fences halone.serving.same :)
  have hnow : c.now = s.ctl.now := (congrArg Ctl.now halone.serving.same :)
  have hexec : exec (.fence f) s = done { s with ctl := c.awaitFence o } := by
    refine congrArg done ((if_pos (by simp [hkind])).trans ?_)
    rw [hserve, hrun, State.settle_quiet hopens]
  exact Completes.of_done hexec ⟨⟨c.fenceFor o, congrArg (· ++ [c.fenceFor o]) hfences, halone.frame, hnow⟩, hopens,
    (halone.serving.rights.trans (c.rights_awaitFence o)).sameRights, rfl, rfl⟩

/-! ### Counters (R160) -/

/-- The counter that a CTR names: its index in the window of its bay. -/
def Ctl.ctrOf (c : Ctl) (f : Frame) : Nat := c.rd (Reg.winFirst f.bay.toNat) + field f.addr.toNat 0 20

/-- What a CTR makes of its counter: ADD adds and saturates, READ leaves it. -/
def ctrValue (f : Frame) (v : Nat) : Nat := if leAt f.payload 0 1 = 1 then min (v + leAt f.payload 8 8) (2 ^ 64 - 1) else v

theorem ctrValue_lt (f : Frame) {v : Nat} (h : v < 2 ^ 64) : ctrValue f v < 2 ^ 64 := by
  unfold ctrValue
  split
  · omega
  · exact h

/-- The control records once a CTR has done its work. -/
def Ctl.counted (c : Ctl) (f : Frame) : Ctl := c.putCounter (c.ctrOf f) (BitVec.ofNat 64 (ctrValue f (c.counter (c.ctrOf f)).toNat))

theorem Ctl.rights_counted (c : Ctl) (f : Frame) : c.Rights (c.counted f) := ⟨rfl, rfl, rfl, rfl⟩

theorem State.runCtr_member {s : State} {o : OpenReq} {m : CMap × Nat × Bool} {v : Nat}
    (hv : v = ctrValue o.frame (s.ctl.counter (s.ctl.ctrOf o.frame)).toNat)
    (hmember : s.ctl.checkMember o.frame.bay.toNat o.frame.gen o.frame.src.toNat = .ok m)
    (hin : field o.frame.addr.toNat 0 20 < s.ctl.rd (Reg.winCount o.frame.bay.toNat)) :
    s.runCtr o = { s with ctl := ((s.ctl.counted o.frame).closeReq o.id).answer o.frame stOK dNONE 0 0 (leBytes 8 v) none none } := by
  subst hv
  unfold State.runCtr
  dsimp only
  rw [hmember]
  dsimp only
  rw [if_neg (Nat.not_le_of_lt hin)]
  exact congrArg (fun c : Ctl => { s with ctl := c }) (Ctl.answerOpen_eq _ _ _)

theorem Ctl.Serving.counter {c d : Ctl} (h : c.Serving d) (i : Nat) : d.counter i = c.counter i := (congrArg (fun x : Ctl => x.counter i) h.same :)

theorem Ctl.counted_counter (c : Ctl) (f : Frame) : ((c.counted f).counter (c.ctrOf f)).toNat = ctrValue f (c.counter (c.ctrOf f)).toNat
    ∧ ∀ j, j ≠ c.ctrOf f → (c.counted f).counter j = c.counter j := by
  refine ⟨?_, fun j hj => Ctl.counter_putCounter_ne c _ _ j hj⟩
  rw [Ctl.counted, Ctl.counter_putCounter, BitVec.toNat_ofNat]
  exact Nat.mod_eq_of_lt (ctrValue_lt f (c.counter (c.ctrOf f)).isLt)

theorem Alone.ctrOf {s : State} {f : Frame} {c : Ctl} {o : OpenReq} (h : Alone s f c o) : c.ctrOf f = s.ctl.ctrOf f := by
  rw [Ctl.ctrOf, h.rd (Reg.winFirst f.bay.toNat) (by simp only [Reg.winFirst]; omega), ← Ctl.ctrOf]

theorem ctr_completes (f : Frame) (m : CMap) (k : Nat) (old : Bool) (s : State) :
    let i := field f.addr.toNat 0 20
    let n := s.ctl.rd (Reg.winFirst f.bay.toNat) + i
    let v := (s.ctl.counter n).toNat
    let v' := if leAt f.payload 0 1 = 1 then min (v + leAt f.payload 8 8) (2 ^ 64 - 1) else v
    Arrives s f → f.kind = kCtr → s.ctl.checkMember f.bay.toNat f.gen f.src.toNat = .ok (m, k, old) → i < s.ctl.rd (Reg.winCount f.bay.toNat) →
    Completes (.ctr f) s (fun t => (t.ctl.counter n).toNat = v' ∧ (∀ j, j ≠ n → t.ctl.counter j = s.ctl.counter j)
      ∧ Replied s t f stOK (leBytes 8 v') ∧ SameRights s t ∧ Keeps s t) := by
  intro i n v v' harr hkind hmember hin
  have hn : s.ctl.ctrOf f = n := rfl
  have hv : ctrValue f v = v' := rfl
  obtain ⟨c, o, halone, hserve⟩ := State.serve_runKind harr (by rw [hkind]; decide)
  have hcount : c.rd (Reg.winCount f.bay.toNat) = s.ctl.rd (Reg.winCount f.bay.toNat) := halone.rd _ (by simp only [Reg.winCount]; omega)
  have hvalue : v' = ctrValue o.frame (c.counter (c.ctrOf o.frame)).toNat := by
    rw [halone.frame, halone.ctrOf, halone.serving.counter, hn, hv]
  obtain ⟨-, hgo, -⟩ := State.runKind_service halone harr.toServes
  have hrun := (hgo hkind).trans
    (State.runCtr_member (s := { s with ctl := c }) hvalue (halone.checkMember hmember) (by rw [halone.frame, hcount]; exact hin))
  have hends := halone.ends (e := c.counted f) (payload := leBytes 8 v') harr.ours harr.live (by rw [hkind]; decide) rfl rfl rfl
    (fun h => absurd (hkind.symm.trans h) (by decide)) 0 0 none
  obtain ⟨hsame, hothers⟩ := c.counted_counter f
  rw [halone.frame] at hrun
  rw [halone.ctrOf, hn, halone.serving.counter] at hsame
  rw [halone.ctrOf, hn] at hothers
  have hexec : exec (.ctr f) s = done (s.serve f .clean) := congrArg done (if_pos (by simp [hkind]))
  refine hends.completes hexec (hserve.trans (congrArg State.settle hrun))
    ⟨?_, fun j hj => ?_, hends.replied s.mem, ?_, rfl, rfl⟩
  · rw [hends.serving.counter]
    exact hsame
  · rw [hends.serving.counter, hothers j hj, halone.serving.counter]
  · exact ((halone.serving.rights.trans (c.rights_counted f)).trans hends.serving.rights).sameRights

/-! ### PUBLISH (R216, R217) -/

theorem Ctl.rangeActive_congr {c d : Ctl} (h : d.exts = c.exts) (bay : Nat) (fuel : Nat) :
    ∀ a n, d.rangeActive bay a n fuel = c.rangeActive bay a n fuel := by
  induction fuel with
  | zero => exact fun _ _ => rfl
  | succ fuel ih =>
    intro a n
    unfold Ctl.rangeActive
    simp only [h, ih]

theorem Ctl.extCover_congr {c d : Ctl} (h : d.exts = c.exts) (bay : Nat) (a : Word) (n : Nat) : d.extCover bay a n = c.extCover bay a n := by
  simp only [Ctl.extCover, h]

theorem Ctl.SamePlaces.regionImg {c d : Ctl} (h : c.SamePlaces d) (r i : Nat) : d.regionImg r i = c.regionImg r i :=
  h.regs _ (by simp only [Reg.regionWord]; omega)

theorem Ctl.SamePlaces.regionField {c d : Ctl} (h : c.SamePlaces d) (r w lo n : Nat) :
    d.rd ⟨Reg.regionWord r w, lo, n⟩ = c.rd ⟨Reg.regionWord r w, lo, n⟩ :=
  h.rd _ (by simp only [Reg.regionWord]; omega)

theorem Ctl.SamePlaces.regionBytes {c d : Ctl} (h : c.SamePlaces d) (r : Nat) : d.regionBytes r = c.regionBytes r :=
  congrArg (· * 65536) (h.regionField r 2 12 20)

theorem Ctl.SamePlaces.regionVersion {c d : Ctl} (h : c.SamePlaces d) (r : Nat) : d.rd (Reg.regionVersion r) = c.rd (Reg.regionVersion r) :=
  h.regionField r 3 0 32

/-- The checks of R216 look at the region's registers and at extents. -/
theorem Ctl.SamePlaces.regionOk {c d : Ctl} (h : c.SamePlaces d) (bay cls r right : Nat) : d.regionOk bay cls r right = c.regionOk bay cls r right := by
  have hvalid : d.rd (Reg.regionValid r) = c.rd (Reg.regionValid r) := h.regionField r 2 63 1
  have hbay : d.rd (Reg.regionBay r) = c.rd (Reg.regionBay r) := h.regionField r 2 0 12
  unfold Ctl.regionOk
  simp only [hvalid, hbay, h.regionImg, h.regionBytes, Ctl.rangeActive_congr h.exts, Ctl.extCover_congr h.exts, h.exts, h.ext]

/-- The control records once a region's next version is published. -/
def Ctl.published (c : Ctl) (ep r w : Nat) : Ctl := (c.wr (Reg.regionVersion r) w).wr (Reg.regionLastEp r) ep

theorem Ctl.writes_published (c : Ctl) (ep r w : Nat) : c.Writes (c.published ep r w) := ((Ctl.Writes.refl c).wr _ _).wr _ _

theorem Ctl.Writes.rights {c d : Ctl} (h : c.Writes d) : c.Rights d :=
  ⟨(congrArg Ctl.bays h.same :), (congrArg Ctl.exts h.same :), (congrArg Ctl.eps h.same :), (congrArg Ctl.kvRegions h.same :)⟩

theorem State.runPublish_next {s : State} {o : OpenReq} {m : CMap} {cls r w : Nat} {old : Bool} (hr : r = leAt o.frame.payload 0 2)
    (hw : w = leAt o.frame.payload 4 4) (hmember : s.ctl.checkMember o.frame.bay.toNat o.frame.gen o.frame.src.toNat = .ok (m, cls, old))
    (hok : s.ctl.regionOk o.frame.bay.toNat cls r rightP = true) (hnext : w = (s.ctl.rd (Reg.regionVersion r) + 1) % 2 ^ 32) :
    ∃ a, s.runPublish o
      = { s with ctl := ((s.ctl.published o.frame.src.toNat r w).closeReq o.id).answer o.frame stOK dNONE a 0 [] none none } := by
  have hpublish : s.ctl.publish o.frame.src.toNat r w = (s.ctl.published o.frame.src.toNat r w, true) := if_pos hnext
  unfold State.runPublish
  dsimp only
  rw [hmember]
  dsimp only
  rw [← hr, ← hw, hok, if_neg (by decide), hpublish, if_pos rfl]
  exact ⟨_, congrArg (fun c : Ctl => { s with ctl := c }) (if_pos rfl)⟩

theorem Ctl.rd_published (c : Ctl) {ep r w : Nat} (hep : ep < 4096) (hw : w < 2 ^ 32) :
    (c.published ep r w).rd (Reg.regionVersion r) = w ∧ (c.published ep r w).rd (Reg.regionLastEp r) = ep := by
  refine ⟨?_, Ctl.rd_wr_fits _ (Reg.regionLastEp r) ep (by show 32 + 12 ≤ 64; decide) hep⟩
  unfold Ctl.published
  rw [Ctl.rd_wr_apart _ (Reg.regionLastEp r) (Reg.regionVersion r) ep (by show 32 + 12 ≤ 64; decide) (.inr (.inl (by show 0 + 32 ≤ 32; decide)))]
  exact Ctl.rd_wr_fits c (Reg.regionVersion r) w (by show 0 + 32 ≤ 64; decide) hw

theorem Ctl.rd_closeReq (c : Ctl) (id : Nat) (g : Fld) : (c.closeReq id).rd g = c.rd g := rfl

/-- Answers leave the registers of published regions alone. -/
theorem Ctl.Answers.regionField {c d : Ctl} (h : c.Answers d) {g : Fld} {r w : Nat} (hg : g.addr = Reg.regionWord r w) : d.rd g = c.rd g := by
  refine Ctl.rd_congr (h.regs _ ?_ ?_ ?_) <;> rw [hg]
  · simp only [Reg.regionWord]; omega
  · simp only [Reg.regionWord, Reg.memPoisonRsp]; omega
  · simp only [Reg.regionWord, Reg.memMalformed]; omega

theorem publish_completes (f : Frame) (m : CMap) (cls r w : Nat) (old : Bool) (s : State) (hr : r = leAt f.payload 0 2) (hw : w = leAt f.payload 4 4)
    (harr : Arrives s f) (hkind : f.kind = kPublish) (hmember : s.ctl.checkMember f.bay.toNat f.gen f.src.toNat = .ok (m, cls, old))
    (hok : s.ctl.regionOk f.bay.toNat cls r rightP = true) (hnext : w = (s.ctl.rd (Reg.regionVersion r) + 1) % 2 ^ 32) :
    Completes (.publish f) s (fun t =>
      t.ctl.rd (Reg.regionVersion r) = w ∧ t.ctl.rd (Reg.regionLastEp r) = f.src.toNat ∧ Replied s t f stOK [] ∧ SameRights s t ∧ Keeps s t) := by
  obtain ⟨c, o, halone, hserve⟩ := State.serve_runKind harr (by rw [hkind]; decide)
  obtain rfl := halone.frame
  obtain ⟨a, hpublish⟩ := State.runPublish_next (s := { s with ctl := c }) hr hw (halone.checkMember hmember)
    ((halone.places.regionOk _ _ _ _).trans hok) (by rw [halone.places.regionVersion]; exact hnext)
  obtain ⟨-, -, hgo⟩ := State.runKind_service halone harr.toServes
  have hrun := (hgo hkind).trans hpublish
  have hwrites := c.writes_published o.frame.src.toNat r w
  have hends := halone.ends (payload := []) harr.ours harr.live (by rw [hkind]; decide) (congrArg Ctl.opens hwrites.same :)
    (congrArg Ctl.pairs hwrites.same :) hwrites.rights.eps (fun h => absurd (hkind.symm.trans h) (by decide)) a 0 none
  have hanswers := Ctl.answers_answer ((c.published o.frame.src.toNat r w).closeReq o.id) o.frame stOK dNONE a 0 [] none none
  have hfit : w < 2 ^ 32 := by
    rw [hnext]
    exact Nat.mod_lt _ (by decide)
  obtain ⟨hversion, hlast⟩ := c.rd_published (r := r) o.frame.src.isLt hfit
  have hexec : exec (.publish o.frame) s = done (s.serve o.frame .clean) := congrArg done (if_pos (by simp [hkind]))
  refine hends.completes hexec (hserve.trans (congrArg State.settle hrun)) ⟨?_, ?_, hends.replied s.mem, ?_, rfl, rfl⟩
  · exact (hanswers.regionField (g := Reg.regionVersion r) rfl).trans ((Ctl.rd_closeReq _ _ _).trans hversion)
  · exact (hanswers.regionField (g := Reg.regionLastEp r) rfl).trans ((Ctl.rd_closeReq _ _ _).trans hlast)
  · exact ((halone.serving.rights.trans hwrites.rights).trans hends.serving.rights).sameRights

/-! ### READ_PUB (R215, R216) -/

/-- The segments of a published image depend on where pages lie. -/
theorem Ctl.SamePlaces.pubSegs {c d : Ctl} (h : c.SamePlaces d) (bay a n : Nat) : d.pubSegs bay a n = c.pubSegs bay a n := by
  have hsegs : ∀ (i : Nat) (w : Word) (k : Nat), d.targetSegs bay (if isNode w then .node (nodeOf w) i else .flat i) w k
      = c.targetSegs bay (if isNode w then .node (nodeOf w) i else .flat i) w k := fun i w k => by
    split
    · rfl
    · exact h.flatSegs bay i w k
  unfold Ctl.pubSegs
  simp only [Ctl.extCover_congr h.exts, hsegs]

theorem State.runKind_readPub {s : State} {f : Frame} {c : Ctl} {o : OpenReq} {m : CMap} {cls : Nat} {old : Bool} (h : Alone s f c o)
    (hserves : Serves s f) (hkind : f.kind = kReadPub) (hmember : s.ctl.checkMember f.bay.toNat f.gen f.src.toNat = .ok (m, cls, old)) :
    ({ s with ctl := c } : State).runKind o = ({ s with ctl := c.putOpen { o with old := old } } : State).runPub { o with old := old } cls := by
  obtain ⟨hactive, hrunning, hform⟩ := h.guards hserves
  have hmember' := h.checkMember hmember
  rw [← h.frame] at hkind
  unfold State.runKind
  dsimp only
  rw [hactive, hrunning, hform, if_neg (by decide), if_neg (by decide), if_neg (by decide), hkind, if_neg (by decide), if_neg (by decide),
    if_neg (by decide), if_pos rfl, hmember']
  rfl

/-- A READ_PUB on its way: the region's version it reads, through the extent of its first image. -/
def OpenReq.reading (o : OpenReq) (c : Ctl) : OpenReq :=
  { o with ext := some (c.imageExt o.frame.bay.toNat (pubRegion o.frame) 0), pos := c.rd (Reg.regionVersion (pubRegion o.frame)) }

/-- The control records while it reads: the image it reads is noted (R218). -/
def Ctl.readsPub (c : Ctl) (o : OpenReq) : Ctl :=
  Ctl.putOpen { c with pubReads := c.pubReads ++
    [{ req := o.id, region := pubRegion o.frame, img := c.rd (Reg.regionVersion (pubRegion o.frame)) % 2 }] } (o.reading c)

/-- Where the bytes lie that a READ_PUB reads: its offset in the readable image. -/
def Ctl.pubAddr (c : Ctl) (f : Frame) : Nat :=
  (c.regionImg (pubRegion f) (c.rd (Reg.regionVersion (pubRegion f)))).toNat + (f.addr.toNat - (c.regionImg (pubRegion f) 0).toNat)

/-- A READ_PUB passes the checks of R216 and reads one plain run of bytes, nothing of which is locked. -/
structure ReadsImage (s : State) (f : Frame) (cls key p : Nat) : Prop where
  ok : s.ctl.regionOk f.bay.toNat cls (pubRegion f) rightR = true
  lower : (s.ctl.regionImg (pubRegion f) 0).toNat ≤ f.addr.toNat
  upper : f.addr.toNat + rlenOf f ≤ (s.ctl.regionImg (pubRegion f) 0).toNat + s.ctl.regionBytes (pubRegion f)
  seg : s.ctl.pubSegs f.bay.toNat (s.ctl.pubAddr f) (rlenOf f) = [plainSeg key (rlenOf f) p]
  near : keyTray key = none
  clean : s.mem.poison = []
  unlocked : s.ctl.locks = []

theorem Ctl.SamePlaces.pubAddr {c d : Ctl} (h : c.SamePlaces d) (f : Frame) : d.pubAddr f = c.pubAddr f := by
  unfold Ctl.pubAddr
  rw [h.regionVersion, h.regionImg, h.regionImg]

theorem ReadsImage.of_places {s : State} {c : Ctl} {f : Frame} {cls key p : Nat} (h : ReadsImage s f cls key p) (hplaces : s.ctl.SamePlaces c)
    (hlocks : c.locks = s.ctl.locks) : ReadsImage { s with ctl := c } f cls key p where
  ok := (hplaces.regionOk _ _ _ _).trans h.ok
  lower := (congrArg BitVec.toNat (hplaces.regionImg _ 0)).trans_le h.lower
  upper := by
    show _ ≤ (c.regionImg (pubRegion f) 0).toNat + c.regionBytes (pubRegion f)
    rw [hplaces.regionImg, hplaces.regionBytes]
    exact h.upper
  seg := by
    show c.pubSegs f.bay.toNat (c.pubAddr f) (rlenOf f) = _
    rw [hplaces.pubAddr, hplaces.pubSegs]
    exact h.seg
  near := h.near
  clean := h.clean
  unlocked := hlocks.trans h.unlocked

theorem State.runPub_plain {s : State} {o : OpenReq} {cls key p : Nat} (h : ReadsImage s o.frame cls key p) :
    ∃ a, s.runPub o cls = { s with ctl := ((s.ctl.readsPub o).closeReq o.id).answer o.frame stOK dNONE a 0 (s.mem.read key (rlenOf o.frame)) none none } := by
  have hlock : ∀ l, s.ctl.lockedLine l = none := fun l => by
    unfold Ctl.lockedLine
    rw [h.unlocked]
    rfl
  have hin : ¬ (o.frame.addr.toNat < (s.ctl.regionImg (pubRegion o.frame) 0).toNat
      ∨ (s.ctl.regionImg (pubRegion o.frame) 0).toNat + s.ctl.regionBytes (pubRegion o.frame) < o.frame.addr.toNat + rlenOf o.frame) :=
    not_or.mpr ⟨Nat.not_lt_of_le h.lower, Nat.not_lt_of_le h.upper⟩
  have hseg := h.seg
  unfold Ctl.pubAddr at hseg
  unfold State.runPub
  dsimp only
  rw [h.ok, if_neg (by decide), if_neg (by simpa using hin), hseg, hlock, segTrays_plain h.near]
  dsimp only
  rw [if_neg (by simp)]
  unfold State.startRead
  dsimp only
  rw [show (s.onCtl _).mem = s.mem from rfl, readSegs_plain h.clean, segTrays_plain h.near]
  dsimp only
  rw [if_pos (by rfl)]
  exact ⟨_, congrArg (fun c : Ctl => { s with ctl := c }) (if_pos rfl)⟩

end Sys2Proof.Machine

namespace Sys2Proof.Machine

/-- A READ_PUB of the form that R150 asks for has a positive length. -/
theorem rlenOf_pos_readPub {f : Frame} (h : f.kind = kReadPub) (hform : malformed f = false) : 1 ≤ rlenOf f := by
  unfold malformed at hform
  dsimp only at hform
  rw [h, if_neg (by decide), if_neg (by decide), if_neg (by decide), if_neg (by decide), if_neg (by decide), if_neg (by decide), if_pos rfl] at hform
  simp only [Bool.not_eq_false', Bool.and_eq_true, decide_eq_true_eq] at hform
  obtain ⟨⟨-, hpos⟩, -⟩ := hform
  exact hpos

theorem Ctl.serving_readsPub (c : Ctl) (o : OpenReq) : c.Serving (c.readsPub o) := ⟨rfl⟩

theorem Ctl.opens_readsPub {c : Ctl} {o : OpenReq} (h : c.opens = [o]) : ((c.readsPub o).closeReq o.id).opens = [] := by
  show (c.opens.map _).filter _ = []
  rw [h]
  simp [OpenReq.reading]

/-- A READ_PUB that has passed the membership check. -/
theorem Alone.checked {s : State} {f : Frame} {c : Ctl} {o : OpenReq} (h : Alone s f c o) (old : Bool) :
    Alone s f (c.putOpen { o with old := old }) { o with old := old } where
  frame := h.frame
  opens := by
    show c.opens.map _ = _
    rw [h.opens]
    simp
  serving := h.serving.trans (c.serving_putOpen _)
  pairs := h.pairs
  locks := h.locks
  pubReads := h.pubReads
  regs := h.regs

theorem State.serve_readPub {s : State} {f : Frame} {m : CMap} {cls key p : Nat} {old : Bool} (harr : Arrives s f) (hkind : f.kind = kReadPub)
    (hmember : s.ctl.checkMember f.bay.toNat f.gen f.src.toNat = .ok (m, cls, old)) (hreads : ReadsImage s f cls key p) (hlen : rlenOf f ≤ 4096) :
    ∃ d, s.serve f .clean = { s with ctl := d } ∧ s.ctl.Responds d f stOK (s.mem.read key (rlenOf f)) ∧ d.opens = [] ∧ s.ctl.Rights d := by
  obtain ⟨c, o, halone, hserve⟩ := State.serve_runKind harr (by rw [hkind]; decide)
  have hchecked := halone.checked old
  have hrun := State.runKind_readPub halone harr.toServes hkind hmember
  obtain rfl := halone.frame
  obtain ⟨a, hplain⟩ := State.runPub_plain (s := { s with ctl := c.putOpen { o with old := old } }) (o := { o with old := old })
    (hreads.of_places hchecked.places hchecked.locks)
  have hclosed := Ctl.opens_readsPub hchecked.opens
  have hserving := (hchecked.serving.trans (Ctl.serving_readsPub _ { o with old := old })).trans (Ctl.serving_closeReq _ o.id)
  have hmoves := (Ctl.answers_answer (((c.putOpen { o with old := old }).readsPub { o with old := old }).closeReq o.id) o.frame stOK dNONE a 0
    (s.mem.read key (rlenOf o.frame)) none none).moves
  have hread := Mem.length_read s.mem key (rlenOf o.frame)
  have hpos : s.mem.read key (rlenOf o.frame) ≠ [] := fun hnil => by
    have hlong := rlenOf_pos_readPub hkind harr.form
    rw [hnil, List.length_nil] at hread
    omega
  have hresponds := Ctl.responds_readPub harr.ours ((Ctl.liveInc_congr hserving.rights.eps _ _).trans harr.live) hkind hpos (hread.trans_le hlen) a 0
  refine ⟨_, ?_, hresponds.of_pairs halone.pairs, hmoves.opens.trans hclosed, (hserving.trans hmoves.serving).rights⟩
  rw [hserve, hrun, hplain]
  exact State.settle_quiet (hmoves.opens.trans hclosed)

theorem readPub_completes (f : Frame) (m : CMap) (cls key : Nat) (old : Bool) (s : State) :
    let r := pubRegion f
    let img0 := (s.ctl.regionImg r 0).toNat
    let a := (s.ctl.regionImg r (s.ctl.rd (Reg.regionVersion r))).toNat + (f.addr.toNat - img0)
    Arrives s f → f.kind = kReadPub → rlenOf f ≤ 4096 → s.ctl.checkMember f.bay.toNat f.gen f.src.toNat = .ok (m, cls, old) →
    s.ctl.regionOk f.bay.toNat cls r rightR = true → img0 ≤ f.addr.toNat → f.addr.toNat + rlenOf f ≤ img0 + s.ctl.regionBytes r →
    (∃ p, s.ctl.pubSegs f.bay.toNat a (rlenOf f) = [{ key := some key, len := rlenOf f, lost := false, copies := [], parity := none, page := p }]) →
    keyTray key = none → s.mem.poison = [] → s.ctl.locks = [] → Completes (.readPub f) s (fun t =>
      Replied s t f stOK (s.mem.read key (rlenOf f)) ∧ t.ctl.opens = [] ∧ SameRights s t ∧ Keeps s t) := by
  intro r img0 a harr hkind hlen hmember hok hlower hupper hseg hnear hclean hunlocked
  obtain ⟨p, hseg⟩ := hseg
  obtain ⟨d, hserve, hresponds, hopens, hrights⟩ :=
    State.serve_readPub (p := p) harr hkind hmember ⟨hok, hlower, hupper, hseg, hnear, hclean, hunlocked⟩ hlen
  have hexec : exec (.readPub f) s = done (s.serve f .clean) := congrArg done (if_pos (by simp [hkind]))
  exact Completes.of_done (hexec.trans (congrArg done hserve)) ⟨hresponds.replied, hopens, hrights.sameRights, rfl, rfl⟩

/-- Settles O18. A request that waited or that arrives alone is answered at once; what follows on an unconfirmed write (R159, R171) ends further
requests and fences, and leaves every response where it stands. It rests on log entry 44, as the statement says. -/
theorem releasesAndFences : Obligations.ReleasesAndFences := by
  unfold Obligations.ReleasesAndFences
  exact ⟨releaseProceed_completes, releaseTimeout_completes, fence_completes, fenceComplete_completes, fenceTimeout_completes, ctr_completes,
    readPub_completes, fun f m cls old s => publish_completes f m cls _ _ old s rfl rfl⟩

end Sys2Proof.Machine

namespace Sys2Proof.Machine

/-! ### Entries of the directory (R182, Table 7.2) -/

theorem Ctl.entOf_some {c : Ctl} {line : Nat} {e : DirEnt} (h : c.entOf line = some e) : e ∈ c.dir ∧ e.line = line :=
  ⟨List.mem_of_find?_eq_some h, by simpa using List.find?_some h⟩

theorem Ctl.entOf_none_iff {c : Ctl} {line : Nat} : c.entOf line = none ↔ line ∉ c.dir.map (·.line) := by
  simp [Ctl.entOf, List.find?_eq_none]

theorem Ctl.line_mem_of_entOf {c : Ctl} {line : Nat} {e : DirEnt} (h : c.entOf line = some e) : line ∈ c.dir.map (·.line) := by
  obtain ⟨hmem, rfl⟩ := Ctl.entOf_some h
  exact List.mem_map_of_mem hmem

/-- Where every entry of a line is one and the same, the directory answers it. -/
theorem Ctl.entOf_of_all {c : Ctl} {line : Nat} (hline : line ∈ c.dir.map (·.line)) :
    ∃ x ∈ c.dir, x.line = line ∧ c.entOf line = some x := by
  obtain ⟨x, hx⟩ := Option.ne_none_iff_exists'.mp (mt Ctl.entOf_none_iff.mp (not_not_intro hline))
  exact ⟨x, (Ctl.entOf_some hx).1, (Ctl.entOf_some hx).2, hx⟩

theorem Ctl.lines_putEnt (c : Ctl) (x : DirEnt) : (c.putEnt x).dir.map (·.line) = c.dir.map (·.line) := by
  show (c.dir.map _).map _ = _
  rw [List.map_map]
  refine List.map_congr_left (fun e _ => ?_)
  dsimp only [Function.comp_apply]
  split
  · next h => exact h.symm
  · rfl

/-- An entry after a replacement is an old one of another line, or the new one. -/
theorem Ctl.mem_putEnt {c : Ctl} {x y : DirEnt} (h : y ∈ (c.putEnt x).dir) : y = x ∨ (y ∈ c.dir ∧ y.line ≠ x.line) := by
  obtain ⟨e, he, rfl⟩ := List.mem_map.mp h
  split
  · exact .inl rfl
  · next hne => exact .inr ⟨he, hne⟩

theorem Ctl.entOf_putEnt {c : Ctl} {x : DirEnt} (h : x.line ∈ c.dir.map (·.line)) : (c.putEnt x).entOf x.line = some x := by
  obtain ⟨y, hy, hline, hent⟩ := Ctl.entOf_of_all (c := c.putEnt x) (line := x.line) (by rwa [Ctl.lines_putEnt])
  rw [hent]
  exact congrArg some ((Ctl.mem_putEnt hy).resolve_right (fun h => h.2 hline))

theorem Ctl.entOf_dropEnt (c : Ctl) (line : Nat) : (c.dropEnt line).entOf line = none := by
  simp [Ctl.entOf, Ctl.dropEnt, List.find?_eq_none]

/-! ### Line keys (R182, Table 7.2) -/

theorem field_lt (x lo w : Nat) : field x lo w < 2 ^ w := Nat.mod_lt _ (by positivity)

theorem lineBay_lineKeyOf (bay : Nat) (a : Word) : lineBay (lineKeyOf bay a) = bay := by
  have hlow := field_lt a.toNat 7 49
  have hnode : b2n (isNode a) ≤ 1 := by unfold b2n; split <;> omega
  unfold lineBay lineKeyOf
  omega

/-- The line of an aligned flat address without reserved bits is that address. -/
theorem lineAddr_lineKeyOf (bay : Nat) {a : Word} (hnode : isNode a = false) (hreserved : reservedBits a = false) (halign : a.toNat % 128 = 0) :
    lineAddr (lineKeyOf bay a) = a := by
  have hbit : a.toNat / 2 ^ 63 % 2 ≠ 1 := by simpa [isNode, bitOf] using hnode
  have hfields : field a.toNat 56 7 = 0 ∧ field a.toNat 52 4 = 0 := by simpa [reservedBits, hnode] using hreserved
  obtain ⟨hhigh, hmid⟩ := hfields
  have hkey : lineKeyOf bay a = bay * 2 * 2 ^ 49 + field a.toNat 7 49 := by simp [lineKeyOf, hnode, b2n]
  have hlt := a.isLt
  unfold lineAddr
  rw [hkey]
  apply BitVec.eq_of_toNat_eq
  rw [BitVec.toNat_ofNat]
  simp only [field] at *
  omega

/-- A flat address that passes Table 5.9 has no reserved bit set, and its extent covers the access. -/
theorem Ctl.checkAddr_covers {c : Ctl} {bay cls n i k : Nat} {old was : Bool} {a : Word} {right : Option Nat}
    (h : c.checkAddr bay cls old a n right = .pass (.flat i) k was) : reservedBits a = false ∧ c.extCover bay a n = some i := by
  have hnode := Ctl.checkAddr_flat h
  unfold Ctl.checkAddr at h
  by_cases hreserved : reservedBits a = true
  · rw [if_pos hreserved] at h
    cases h
  · rw [if_neg hreserved, hnode, if_neg (by simp)] at h
    refine ⟨by simpa using hreserved, ?_⟩
    cases hcover : c.extCover bay a n with
    | none =>
      rw [hcover] at h
      cases h
    | some j =>
      rw [hcover] at h
      dsimp only at h
      split_ifs at h
      · cases h
      · cases h
        rfl

theorem Ctl.check59_covers {c : Ctl} {f : Frame} {n i cls : Nat} {right : Option Nat} {old : Bool} (h : c.check59 f n right = .pass (.flat i) cls old) :
    reservedBits f.addr = false ∧ c.extCover f.bay.toNat f.addr n = some i := by
  unfold Ctl.check59 at h
  split at h
  · cases h
  · extract_lets b lost at h
    by_cases hlost : lost = true
    · rw [if_pos hlost] at h
      cases h
    · rw [if_neg hlost] at h
      exact Ctl.checkAddr_covers h

/-- The line of an aligned request to flat memory lies at its address, in the extent it passed through. -/
theorem Ctl.lineTarget_flat {c : Ctl} {f : Frame} {i cls : Nat} {right : Option Nat} {old : Bool} (h : c.check59 f 128 right = .pass (.flat i) cls old)
    (halign : f.addr.toNat % 128 = 0) :
    lineAddr (lineKeyOf f.bay.toNat f.addr) = f.addr ∧ c.lineTarget (lineKeyOf f.bay.toNat f.addr) = some (.flat i) := by
  obtain ⟨hreserved, hcover⟩ := Ctl.check59_covers h
  have hnode := Ctl.check59_flat h
  have haddr := lineAddr_lineKeyOf f.bay.toNat hnode hreserved halign
  refine ⟨haddr, ?_⟩
  unfold Ctl.lineTarget
  rw [lineBay_lineKeyOf, haddr, hcover, hnode]
  rfl

theorem Ctl.lineTarget_congr {c d : Ctl} (h : d.exts = c.exts) (line : Nat) : d.lineTarget line = c.lineTarget line := by
  simp only [Ctl.lineTarget, Ctl.extCover, h]

/-! ### Data that home takes in (§7.2) -/

/-- Data for a line in one plain run of unpoisoned memory is written there; at most home's list of dirty lines moves besides. -/
theorem State.homeWrite_plain {s : State} {line i k p : Nat} {data : List Byte} (htarget : s.ctl.lineTarget line = some (.flat i))
    (hseg : s.ctl.targetSegs (lineBay line) (.flat i) (lineAddr line) 128 = [plainSeg k 128 p]) (hclean : s.mem.poison = [])
    (hlen : data.length = 128) :
    ∃ l, s.homeWrite line data = { s with mem := s.mem.write k data, ctl := { s.ctl with homeDirty := l } } := by
  have hslice : slice data 0 128 = data := by simp [slice, ← hlen, zeros]
  have hwrite : s.rawWrite (lineBay line) (.flat i) (lineAddr line) data = .done { s with mem := s.mem.write k data } := by
    have halloc := State.allocFlat_plain hseg
    have hstore := writeSegs_plain hclean k p data
    unfold State.rawWrite
    dsimp only
    rw [hlen, halloc]
    dsimp only
    rw [hseg, writeBlocked_plain hclean]
    rw [hlen] at hstore
    rw [hstore]
    rfl
  unfold State.homeWrite
  rw [htarget]
  dsimp only
  rw [hslice, hwrite]
  exact ⟨_, rfl⟩

/-! ### Allocation queues with nothing to start (R193) -/

theorem State.startQueued_empty {s : State} (h : s.ctl.dirQ = []) (set n : Nat) : s.startQueued set n = s := by
  cases n with
  | zero => rfl
  | succ n =>
    unfold State.startQueued
    rw [h]
    rfl

theorem State.startQueued_quiet {s : State} (h : s.ctl.opens = []) (set n : Nat) : s.startQueued set n = s := by
  cases n with
  | zero => rfl
  | succ n =>
    unfold State.startQueued
    dsimp only
    split
    · rfl
    · next id t hnext =>
      obtain ⟨j, -, hj⟩ := List.exists_of_findSome?_eq_some hnext
      rw [h] at hj
      cases hj

theorem State.enterHome_quiet {s : State} (h : s.ctl.opens = []) (id : Nat) : s.enterHome id = s := by
  unfold State.enterHome
  rw [h]
  rfl

end Sys2Proof.Machine

namespace Sys2Proof.Machine

/-! ### Removals and recalls that go on (R181, R193, R198) -/

/-- `c` with the records of `d` that home touches when it starts transactions and clears slots. -/
def Ctl.withHome (c d : Ctl) : Ctl := { c.withMoves d with dir := d.dir, doms := d.doms }

/-- `d` is `c` after home started transactions or cleared slots: each entry is an old one but for its transaction, every line that had an
entry has one, no frame that a pair keeps was dropped, and no command of the directory ended. -/
structure Ctl.HomeWork (c d : Ctl) : Prop where
  same : d = c.withHome d
  lines : d.dir.map (·.line) = c.dir.map (·.line)
  entries : ∀ x ∈ d.dir, ∃ y ∈ c.dir, x = { y with trans := x.trans }
  kept : ∀ e, ∀ x ∈ (c.pair e).kept, x ∈ (d.pair e).kept
  status : d.reg Reg.dirBusy.addr = c.reg Reg.dirBusy.addr

theorem Ctl.HomeWork.refl (c : Ctl) : c.HomeWork c := ⟨rfl, rfl, fun x hx => ⟨x, hx, rfl⟩, fun _ _ h => h, rfl⟩

theorem Ctl.HomeWork.trans {c d e : Ctl} (h : c.HomeWork d) (k : d.HomeWork e) : c.HomeWork e where
  same := k.same.trans (congrArg (fun x : Ctl => x.withHome e) h.same :)
  lines := k.lines.trans h.lines
  entries x hx := by
    obtain ⟨y, hy, hxy⟩ := k.entries x hx
    obtain ⟨z, hz, hyz⟩ := h.entries y hy
    refine ⟨z, hz, ?_⟩
    rw [hxy, hyz]
  kept e x hx := k.kept e x (h.kept e x hx)
  status := k.status.trans h.status

theorem Ctl.HomeWork.rights {c d : Ctl} (h : c.HomeWork d) : c.Rights d :=
  ⟨(congrArg Ctl.bays h.same :), (congrArg Ctl.exts h.same :), (congrArg Ctl.eps h.same :), (congrArg Ctl.kvRegions h.same :)⟩

theorem Ctl.HomeWork.opens {c d : Ctl} (h : c.HomeWork d) : d.opens = c.opens := (congrArg Ctl.opens h.same :)
theorem Ctl.HomeWork.fences {c d : Ctl} (h : c.HomeWork d) : d.fences = c.fences := (congrArg Ctl.fences h.same :)

theorem Ctl.HomeWork.clears {c d : Ctl} (h : c.HomeWork d) : c.Clears d :=
  ⟨fun _ ho => h.opens ▸ ho, fun _ hw => h.fences ▸ hw, h.kept⟩

/-- A line without an entry gets none. -/
theorem Ctl.HomeWork.entOf_none {c d : Ctl} (h : c.HomeWork d) {line : Nat} (hnone : c.entOf line = none) : d.entOf line = none := by
  rw [Ctl.entOf_none_iff] at hnone ⊢
  rwa [h.lines]

/-- An entry that was just written keeps its state and presence vector. -/
theorem Ctl.HomeWork.entOf_putEnt {c d : Ctl} {x : DirEnt} (h : (c.putEnt x).HomeWork d) (hline : x.line ∈ c.dir.map (·.line)) :
    ∃ y, d.entOf x.line = some y ∧ y = { x with trans := y.trans } := by
  obtain ⟨y, hy, hyline, hent⟩ := Ctl.entOf_of_all (c := d) (line := x.line) (by rwa [h.lines, Ctl.lines_putEnt])
  obtain ⟨z, hz, hyz⟩ := h.entries y hy
  have hzline : z.line = x.line := (congrArg DirEnt.line hyz).symm.trans hyline
  obtain rfl := (Ctl.mem_putEnt hz).resolve_right (fun hold => hold.2 hzline)
  exact ⟨y, hent, hyz⟩

/-- Work that touches no entry and no domain: what frames and counters move. -/
theorem Ctl.Moves.homeWork {c d : Ctl} (h : c.Moves d) (kept : ∀ e, ∀ x ∈ (c.pair e).kept, x ∈ (d.pair e).kept)
    (status : d.reg Reg.dirBusy.addr = c.reg Reg.dirBusy.addr) : c.HomeWork d := by
  have hdir : d.dir = c.dir := (congrArg Ctl.dir h.same :)
  have hdoms : d.doms = c.doms := (congrArg Ctl.doms h.same :)
  refine ⟨?_, by rw [hdir], fun x hx => ⟨x, hdir ▸ hx, rfl⟩, kept, status⟩
  rw [Ctl.withHome, hdir, hdoms]
  exact h.same

theorem Ctl.homeWork_putDom (c : Ctl) (d : Nat) (m : Domain) : c.HomeWork (c.putDom d m) :=
  ⟨rfl, rfl, fun x hx => ⟨x, hx, rfl⟩, fun _ _ h => h, rfl⟩

theorem Ctl.homeWork_bump (c : Ctl) {a : Nat} (h : Reg.dirBusy.addr ≠ a) : c.HomeWork (c.bump a) :=
  (c.moves_bump a).homeWork (fun _ _ h => h) (Ctl.reg_bumpBy_ne c a 1 _ h)

theorem Ctl.sends_homeMsg (c : Ctl) (kind : BitVec 8) (bay ep : Nat) (addr : Word) (tag : BitVec 16) (status detail : Byte) (payload : List Byte)
    (grant : Option Nat) : c.Sends (c.homeMsg kind bay ep addr tag status detail payload grant) := by
  unfold Ctl.homeMsg
  exact c.sends_sendSeq _ none grant

theorem Ctl.homeWork_homeMsg (c : Ctl) (kind : BitVec 8) (bay ep : Nat) (addr : Word) (tag : BitVec 16) (status detail : Byte) (payload : List Byte)
    (grant : Option Nat) : c.HomeWork (c.homeMsg kind bay ep addr tag status detail payload grant) := by
  unfold Ctl.homeMsg
  exact (c.moves_sendSeq _ none grant).homeWork (c.clears_sendSeq _ none grant).kept ((c.sends_sendSeq _ none grant).reg (by decide))

theorem Ctl.homeWork_wr (c : Ctl) (f : Fld) (v : Nat) (h : Reg.dirBusy.addr ≠ f.addr) : c.HomeWork (c.wr f v) :=
  (c.moves_putReg _ _).homeWork (fun _ _ h => h) (Ctl.reg_wr_ne c f v _ h)

/-- The peak of OPEN ways is a register. -/
theorem Ctl.notePeak_regs (c : Ctl) (set : Nat) : ∃ r, c.notePeak set = { c with regs := r } := by
  unfold Ctl.notePeak
  dsimp only
  split
  · exact ⟨_, rfl⟩
  · exact ⟨c.regs, rfl⟩

theorem Ctl.homeWork_notePeak (c : Ctl) (set : Nat) : c.HomeWork (c.notePeak set) := by
  unfold Ctl.notePeak
  dsimp only
  split
  · exact c.homeWork_wr _ _ (by decide)
  · exact .refl c

/-- A transaction is noted in an entry. -/
theorem Ctl.HomeWork.putEnt {b c : Ctl} (h : b.HomeWork c) {e : DirEnt} (he : e ∈ b.dir) (t : Option Trans) :
    b.HomeWork (c.putEnt { e with trans := t }) where
  same := by
    have hsame := h.same
    exact (congrArg (fun x : Ctl => x.putEnt { e with trans := t }) hsame :)
  lines := (c.lines_putEnt _).trans h.lines
  entries x hx := by
    rcases Ctl.mem_putEnt hx with rfl | ⟨hold, -⟩
    · exact ⟨e, he, rfl⟩
    · exact h.entries x hold
  kept := h.kept
  status := h.status

/-- Home's messages, each counted. -/
theorem Ctl.homeWork_messages {α : Type} {f : Ctl → α → Ctl} (hf : ∀ (c : Ctl) a, c.HomeWork (f c a)) (l : List α) (c : Ctl) : c.HomeWork (l.foldl f c) :=
  List.foldlRecOn (motive := c.HomeWork) l f (.refl c) (fun _ h a _ => h.trans (hf _ a))

/-- Work on entries of a directory, one after the other. -/
theorem Ctl.homeWork_entries {f : Ctl → DirEnt → Ctl} {b : Ctl} (hf : ∀ (c : Ctl) e, e ∈ b.dir → b.HomeWork c → b.HomeWork (f c e)) (l : List DirEnt)
    (hl : ∀ e ∈ l, e ∈ b.dir) : b.HomeWork (l.foldl f b) :=
  List.foldlRecOn (motive := b.HomeWork) l f (.refl b) (fun c h e he => hf c e (hl e he) h)

theorem Ctl.HomeWork.startTrans {b c : Ctl} (h : b.HomeWork c) {e : DirEnt} (he : e ∈ b.dir) (why : TransFor) (except : Option Nat) (fwd : Bool)
    (tag : BitVec 16) : b.HomeWork (c.startTrans e why except fwd tag) := by
  unfold Ctl.startTrans
  extract_lets d bay a tr
  have howner : ∀ (kind : BitVec 8) (n : Nat), Reg.dirBusy.addr ≠ n →
      b.HomeWork (((c.putEnt { e with trans := some (tr [e.owner]) }).homeMsg kind bay (d.epOf e.owner) a tag 0 0 [] none).bump n) := fun kind n hn =>
    ((h.putEnt he _).trans (Ctl.homeWork_homeMsg _ _ _ _ _ _ _ _ _ _)).trans (Ctl.homeWork_bump _ hn)
  split
  · exact (h.putEnt he _).trans (Ctl.homeWork_messages (fun x k => (x.homeWork_homeMsg _ _ _ _ _ _ _ _ _).trans (Ctl.homeWork_bump _ (by decide))) _ _)
  · split
    · exact howner kFwd _ (by decide)
    · exact howner kRecall _ (by decide)
  · split
    · exact howner kFwd _ (by decide)
    · exact howner kRecall _ (by decide)
  · exact h.putEnt he _

theorem Ctl.HomeWork.removeCopy {b c : Ctl} (h : b.HomeWork c) {e : DirEnt} (he : e ∈ b.dir) (slot : Nat) : b.HomeWork (c.removeCopy slot e) := by
  unfold Ctl.removeCopy
  split
  · exact h
  · split
    · exact (((h.putEnt he _).trans (Ctl.homeWork_homeMsg _ _ _ _ _ _ _ _ _ _)).trans (Ctl.homeWork_bump _ (by decide))).trans
        (Ctl.homeWork_notePeak _ _)
    · exact (h.startTrans he .removal none false 0).trans (Ctl.homeWork_notePeak _ _)

theorem Ctl.homeWork_removeAgent (c : Ctl) (d slot : Nat) : c.HomeWork (c.removeAgent d slot) := by
  unfold Ctl.removeAgent
  dsimp only
  split
  · exact c.homeWork_putDom _ _
  · exact Ctl.homeWork_entries (fun x e he h => h.removeCopy he slot) _ (fun e he => List.mem_of_mem_filter he)

/-- The recall of a DRAINING domain: its lines that are not OPEN, as far as ways are free. -/
def Ctl.recallDom (c : Ctl) (d : Nat) : Ctl :=
  (c.dir.filter (fun (e : DirEnt) => e.dom == d && e.trans.isNone)).foldl (fun (x : Ctl) (e : DirEnt) =>
    if 12 ≤ x.openWays e.dset then x else (x.startTrans e .removal none false 0).notePeak e.dset) c

theorem Ctl.settleDom_draining {c : Ctl} {d : Nat} (h : (c.dom d).st = .draining) : c.settleDom d = c.recallDom d := by
  unfold Ctl.settleDom
  dsimp only
  rw [h]
  rfl

theorem Ctl.homeWork_recallDom (c : Ctl) (d : Nat) : c.HomeWork (c.recallDom d) := by
  refine Ctl.homeWork_entries (fun x e he h => ?_) _ (fun e he => List.mem_of_mem_filter he)
  split
  · exact h
  · exact (h.startTrans he .removal none false 0).trans (Ctl.homeWork_notePeak _ _)

theorem Ctl.homeWork_settleDom (c : Ctl) (d : Nat) : c.HomeWork (c.settleDom d) := by
  cases h : (c.dom d).st with
  | draining =>
    rw [Ctl.settleDom_draining h]
    exact c.homeWork_recallDom d
  | up =>
    unfold Ctl.settleDom
    dsimp only
    rw [h]
    exact Ctl.homeWork_messages (fun x (a : Nat × Nat) => x.homeWork_removeAgent d a.1) _ c
  | free | failed =>
    unfold Ctl.settleDom
    dsimp only
    rw [h]
    exact .refl c

theorem Ctl.homeWork_settleDoms (c : Ctl) : c.HomeWork c.settleDoms := Ctl.homeWork_messages Ctl.homeWork_settleDom _ c

/-! ### Recalls leave the domains -/

theorem Ctl.doms_homeMsg (c : Ctl) (kind : BitVec 8) (bay ep : Nat) (addr : Word) (tag : BitVec 16) (status detail : Byte) (payload : List Byte)
    (grant : Option Nat) : (c.homeMsg kind bay ep addr tag status detail payload grant).doms = c.doms :=
  (congrArg Ctl.doms (c.sends_homeMsg kind bay ep addr tag status detail payload grant).same :)

theorem Ctl.doms_startTrans (c : Ctl) (e : DirEnt) (why : TransFor) (except : Option Nat) (fwd : Bool) (tag : BitVec 16) :
    (c.startTrans e why except fwd tag).doms = c.doms := by
  unfold Ctl.startTrans
  extract_lets d bay a tr
  cases e.st with
  | I => rfl
  | S => exact List.foldlRecOn (motive := fun x : Ctl => x.doms = c.doms) _ _ rfl (fun x h k _ => (x.doms_homeMsg _ _ _ _ _ _ _ _ _).trans h)
  | E | M =>
    dsimp only
    split
    · exact Ctl.doms_homeMsg _ _ _ _ _ _ _ _ _ _
    · exact Ctl.doms_homeMsg _ _ _ _ _ _ _ _ _ _

theorem Ctl.doms_recallDom (c : Ctl) (d : Nat) : (c.recallDom d).doms = c.doms := by
  refine List.foldlRecOn (motive := fun x : Ctl => x.doms = c.doms) _ _ rfl (fun x h e _ => ?_)
  split
  · exact h
  · obtain ⟨r, hr⟩ := (x.startTrans e .removal none false 0).notePeak_regs e.dset
    rw [hr]
    exact (x.doms_startTrans e .removal none false 0).trans h

end Sys2Proof.Machine

namespace Sys2Proof.Machine

/-! ### Coherence requests that arrive (R179, R184) -/

/-- The kinds that an agent sends to home (Table 7.4). -/
def AsksHome (f : Frame) : Prop := f.kind = kRdS ∨ f.kind = kRdX ∨ f.kind = kUpg ∨ f.kind = kWbM ∨ f.kind = kWbE

theorem AsksHome.ne {f : Frame} (h : AsksHome f) {k : BitVec 8} (hk : k.toNat < 0x70) : f.kind ≠ k := by
  rintro rfl
  unfold AsksHome at h
  rcases h with h | h | h | h | h <;> rw [h] at hk <;> exact absurd hk (by decide)

theorem AsksHome.coherence {f : Frame} (h : AsksHome f) : f.isCoherence = true := by
  unfold AsksHome at h
  unfold Frame.isCoherence
  rcases h with h | h | h | h | h <;> rw [h] <;> decide

theorem AsksHome.untracked {f : Frame} (h : AsksHome f) : f.tracked = false := by
  simp [Frame.tracked, h.ne (k := kWrite) (by decide), h.ne (k := kWriteInv) (by decide), h.ne (k := kAtomic) (by decide), h.ne (k := kCtr) (by decide)]

theorem AsksHome.noAtomic {f : Frame} (h : AsksHome f) : f.kind ≠ kAtomic := h.ne (by decide)

theorem AsksHome.spanOf {f : Frame} (h : AsksHome f) : Machine.spanOf f = 128 := by
  unfold Machine.spanOf
  rw [if_neg (h.ne (by decide)), if_neg h.noAtomic, if_pos h.coherence]

/-- The form that R150 and Table 7.4 ask of a coherence request. -/
theorem AsksHome.form {f : Frame} (h : AsksHome f) (hform : malformed f = false) :
    f.addr.toNat % 128 = 0 ∧ f.payload.length = if f.kind = kWbM then 128 else 0 := by
  unfold malformed at hform
  dsimp only at hform
  rw [if_neg (h.ne (by decide)), if_neg (h.ne (by decide)), if_neg (h.ne (by decide)), if_neg h.noAtomic, if_neg (h.ne (by decide)),
    if_neg (h.ne (by decide)), if_neg (h.ne (by decide)), if_neg (h.ne (by decide)), if_pos h.coherence] at hform
  simp only [Bool.not_eq_false', Bool.and_eq_true, beq_iff_eq] at hform
  exact ⟨hform.1.2, hform.2⟩

/-- What an agent's request meets at home: it is the one open request, with the extent it goes through; identities and trackers have moved. -/
structure Asking (s : State) (f : Frame) (i : Nat) (c : Ctl) (o : OpenReq) : Prop extends Alone s f c o where
  ext : o.ext = some i
  phase : o.phase = .directory
  same : c = { s.ctl with nextId := c.nextId, opens := [o], tracker := c.tracker }

section
variable {s : State} {f : Frame} {i : Nat} {c : Ctl} {o : OpenReq}

theorem Asking.dir (h : Asking s f i c o) : c.dir = s.ctl.dir := (congrArg Ctl.dir h.same :)
theorem Asking.doms (h : Asking s f i c o) : c.doms = s.ctl.doms := (congrArg Ctl.doms h.same :)
theorem Asking.dirQ (h : Asking s f i c o) : c.dirQ = s.ctl.dirQ := (congrArg Ctl.dirQ h.same :)
theorem Asking.entOf (h : Asking s f i c o) (line : Nat) : c.entOf line = s.ctl.entOf line := by rw [Ctl.entOf, h.dir, ← Ctl.entOf]
theorem Asking.openWays (h : Asking s f i c o) (set : Nat) : c.openWays set = s.ctl.openWays set := by rw [Ctl.openWays, h.dir, ← Ctl.openWays]
theorem Asking.freeWay (h : Asking s f i c o) (set : Nat) : c.freeWay set = s.ctl.freeWay set := by simp only [Ctl.freeWay, h.dir]
theorem Asking.dom (h : Asking s f i c o) (d : Nat) : c.dom d = s.ctl.dom d := by rw [Ctl.dom, h.doms, ← Ctl.dom]
theorem Asking.lineTarget (h : Asking s f i c o) (line : Nat) : c.lineTarget line = s.ctl.lineTarget line := Ctl.lineTarget_congr h.places.exts line

end

/-- A coherence request that passes Table 5.9 goes on to home's own checks. -/
theorem State.runKind_coherence {s : State} {f : Frame} {c : Ctl} {o : OpenReq} {i cls : Nat} {old : Bool} (h : Alone s f c o) (hserves : Serves s f)
    (hkind : AsksHome f) (hcheck : s.ctl.check59 f 128 (rightFor f) = .pass (.flat i) cls old) :
    ({ s with ctl := c } : State).runKind o
      = ({ s with ctl := (c.putOpen (o.through i old)).trackExt f (some i) } : State).runCoh (o.through i old) (.flat i) := by
  obtain ⟨hactive, hrunning, hform⟩ := h.guards hserves
  obtain rfl := h.frame
  have hcheck' := (Ctl.check59_congr h.serving.rights.bays h.serving.rights.exts h.serving.rights.eps o.frame 128 (rightFor o.frame)).trans hcheck
  have hcoh : (o.through i old).frame.isCoherence = true := hkind.coherence
  have hgo : ∀ t : State, t.runPassed (o.through i old) (.flat i) cls = t.runCoh (o.through i old) (.flat i) := fun t => by
    unfold State.runPassed
    dsimp only
    rw [hcoh, if_pos rfl]
  unfold State.runKind
  dsimp only
  rw [hactive, hrunning, hform, if_neg (by decide), if_neg (by decide), if_neg (by decide), if_neg (hkind.ne (by decide)),
    if_neg (hkind.ne (by decide)), if_neg (hkind.ne (by decide)), if_neg (hkind.ne (by decide)), if_neg (by simp [hkind.noAtomic]),
    if_neg (by simp [hkind.noAtomic]), hkind.spanOf, hcheck', ← hgo]
  rfl

/-- An agent's request that arrives alone and passes Table 5.9 comes before home. -/
theorem State.serve_coherence {s : State} {f : Frame} {i cls : Nat} {old : Bool} (harr : Arrives s f) (hkind : AsksHome f)
    (hcheck : s.ctl.check59 f 128 (rightFor f) = .pass (.flat i) cls old) :
    ∃ c o, Asking s f i c o ∧ s.serve f .clean = (({ s with ctl := c } : State).runCoh o (.flat i)).settle := by
  have hopens : (s.ctl.openReq f .directory).2.opens = [s.ctl.opened f] := congrArg (· ++ [s.ctl.opened f]) harr.quiet
  have halone : Alone s f (s.ctl.openReq f .directory).2 (s.ctl.opened f) :=
    ⟨rfl, hopens, s.ctl.serving_openReq f _, rfl, rfl, rfl, fun _ _ => rfl⟩
  have hopen : (s.ctl.openReq f .directory).2.open? s.ctl.nextId = some (s.ctl.opened f) := by
    rw [Ctl.open?, hopens]
    simp [Ctl.opened]
  have htrack : s.ctl.track f = some s.ctl := by
    unfold Ctl.track
    exact if_pos (by simp [hkind.untracked])
  have hserve : s.serve f .clean = (s.begin f).settle := by
    unfold State.serve
    simp [harr.up, harr.live, harr.ours, htrack, harr.serving, State.siteFinds]
  have hrun := State.run_kind (s := { s with ctl := (s.ctl.openReq f .directory).2 }) hopen hkind.noAtomic
  have hthrough := halone.through i old
  refine ⟨_, _, ⟨hthrough, rfl, rfl, ?_⟩, ?_⟩
  · rw [← hthrough.opens]
    rfl
  · rw [hserve, State.begin_untracked harr.untracked, hrun, State.runKind_coherence halone harr.toServes hkind hcheck]

theorem Ctl.putOpen_self {c : Ctl} {o : OpenReq} (h : c.opens = [o]) : c.putOpen o = c := by
  unfold Ctl.putOpen
  rw [h, List.map_singleton, if_pos rfl, ← h]

/-- A request passes home's checks (Table 7.1): its extent is coherent, in a domain that is UP for its bay and has its source as an agent. -/
structure PassesHome (s : State) (o : OpenReq) (i slot : Nat) : Prop where
  ext : o.ext = some i
  coherent : (s.ctl.ext i).coh = true
  domain : (s.ctl.dom (s.ctl.ext i).cdom.toNat).st = .up ∧ (s.ctl.dom (s.ctl.ext i).cdom.toNat).bay = o.frame.bay.toNat
  agent : (s.ctl.dom (s.ctl.ext i).cdom.toNat).slotOf o.frame.src.toNat = some slot

theorem Asking.passesHome {s : State} {f : Frame} {i slot : Nat} {c : Ctl} {o : OpenReq} (h : Asking s f i c o) (hcoh : (s.ctl.ext i).coh = true)
    (hdom : (s.ctl.dom (s.ctl.ext i).cdom.toNat).st = .up ∧ (s.ctl.dom (s.ctl.ext i).cdom.toNat).bay = f.bay.toNat)
    (hagent : (s.ctl.dom (s.ctl.ext i).cdom.toNat).slotOf f.src.toNat = some slot) : PassesHome { s with ctl := c } o i slot := by
  rw [← h.places.ext i, ← h.frame, ← h.dom] at *
  exact ⟨h.ext, hcoh, hdom, hagent⟩

/-! ### Grants (R186, Table 7.5) -/

/-- An entry whose line is granted: OPEN until the grant is acknowledged. -/
def DirEnt.granted (e : DirEnt) (c : Ctl) (id slot dom : Nat) (st : LineState) (pres : BitVec 64) : DirEnt :=
  { e with st := st, pres := pres, owner := slot, dom := dom, age := c.nextId,
           trans := some { why := .request id, await := [], awaitWb := [], since := c.now, wbp := false, granted := true } }

/-- The Data that grants a line to the agent of a request (Table 7.4). -/
def dataFrame (r : Frame) (line : Nat) (excl : Bool) (b : List Byte) : Frame :=
  withPayload { baseFrame with
    kind := kData, tc := 1, bay := r.bay, dst := r.src, gen := r.gen, tag := r.tag, addr := BitVec.ofNat 64 ((lineAddr line).toNat + b2n excl) } b

/-- The control records of a grant before its Data goes out. -/
def Ctl.granting (c : Ctl) (x : DirEnt) (id : Nat) : Ctl := (c.fresh.2.putEnt x).closeReq id

/-- A line in memory that can be read is granted with its bytes. -/
theorem State.grant_data {s : State} {r : Frame} {line i : Nat} {e : DirEnt} {b : List Byte} (hent : s.ctl.entOf line = some e)
    (htarget : s.ctl.lineTarget line = some (.flat i)) (hread : s.rawRead (lineBay line) (.flat i) (lineAddr line) 128 = some b)
    (hlive : s.ctl.liveInc r.src.toNat r.inc = true) (id slot dom : Nat) (excl : Bool) (st : LineState) (pres : BitVec 64) :
    s.grant id r line slot dom kData excl st pres
      = { s with ctl := (s.ctl.granting (e.granted s.ctl id slot dom st pres) id).sendSeq (dataFrame r line excl b) none (some line) } := by
  have hlive' : (s.ctl.granting (e.granted s.ctl id slot dom st pres) id).liveInc r.src.toNat r.inc = true := hlive
  unfold State.grant
  rw [hent, htarget]
  dsimp only
  rw [if_pos rfl, hread]
  exact congrArg (fun c => ({ s with ctl := c } : State)) (if_pos hlive')

/-- What a grant leaves: the line's entry in its next state, nothing of the request open, its Data in the agent's pair. -/
theorem Ctl.granting_sends (c : Ctl) {r : Frame} {line : Nat} {x : DirEnt} (hx : x.line = line) (hline : line ∈ c.dir.map (·.line))
    (hkind : rspKind r.kind = kData) (id : Nat) (excl : Bool) (b : List Byte) :
    ((c.granting x id).sendSeq (dataFrame r line excl b) none (some line)).entOf line = some x
    ∧ ((c.granting x id).sendSeq (dataFrame r line excl b) none (some line)).opens = c.opens.filter (fun o => o.id != id)
    ∧ c.Rights ((c.granting x id).sendSeq (dataFrame r line excl b) none (some line))
    ∧ c.Responds ((c.granting x id).sendSeq (dataFrame r line excl b) none (some line)) r stOK b := by
  subst hx
  have hsends := (c.granting x id).sends_sendSeq (dataFrame r x.line excl b) none (some x.line)
  have hdir := (congrArg Ctl.dir hsends.same :)
  obtain ⟨y, hy, hseq, hframe⟩ := (c.granting x id).kept_sendSeq (dataFrame r x.line excl b) none (some x.line)
  refine ⟨?_, hsends.opens, ⟨hsends.bays, hsends.exts, hsends.eps, (congrArg Ctl.kvRegions hsends.same :)⟩, y, hy, hseq, ?_⟩
  · rw [Ctl.entOf, hdir]
    exact Ctl.entOf_putEnt (c := c.fresh.2) hline
  · rw [hframe, hkind]
    exact ⟨rfl, rfl, rfl, rfl⟩

/-! ### The first agent to ask for a line (Table 7.5, state I) -/

/-- The state in which the first agent that asks gets a line: E for RdS, M for RdX and Upg. -/
def firstState (k : BitVec 8) : LineState := if k = kRdS then .E else .M

/-- The three kinds that ask for a line. -/
def AsksLine (f : Frame) : Prop := f.kind = kRdS ∨ f.kind = kRdX ∨ f.kind = kUpg

theorem AsksLine.home {f : Frame} (h : AsksLine f) : AsksHome f := by
  rcases h with h | h | h
  · exact .inl h
  · exact .inr (.inl h)
  · exact .inr (.inr (.inl h))

theorem AsksLine.notWriteBack {f : Frame} (h : AsksLine f) : f.kind ≠ kWbM ∧ f.kind ≠ kWbE := by
  rcases h with h | h | h <;> rw [h] <;> decide

theorem AsksLine.rspKind {f : Frame} (h : AsksLine f) : Machine.rspKind f.kind = kData := by
  rcases h with h | h | h <;> rw [h] <;> decide

/-- A request for a line that passes home's checks enters home. -/
theorem State.runCoh_asks {s : State} {o : OpenReq} {i slot : Nat} (h : PassesHome s o i slot) (hopens : s.ctl.opens = [o])
    (hphase : o.phase = .directory) (hkind : AsksLine o.frame) (hlocks : s.ctl.locks = []) : s.runCoh o (.flat i) = s.enterHome o.id := by
  have hlock : ∀ l, s.ctl.lockedLine l = none := fun l => by
    unfold Ctl.lockedLine
    rw [hlocks]
    rfl
  have hsame : ({ o with ext := some i, phase := .directory } : OpenReq) = o := by rw [← hphase, ← h.ext]
  have hput : s.onCtl (·.putOpen { o with ext := some i, phase := .directory }) = s := by
    rw [hsame]
    exact congrArg (fun c => ({ s with ctl := c } : State)) (Ctl.putOpen_self hopens)
  unfold State.runCoh
  dsimp only
  rw [h.ext, Option.getD_some, h.coherent, h.domain.1, h.domain.2, h.agent, if_neg (by decide), if_neg (by decide), if_neg (by simp)]
  dsimp only
  rw [if_neg (by simp [hkind.notWriteBack]), hlock]
  exact congrArg (fun t => State.enterHome t o.id) hput

/-- The one open request enters home and is over at once. -/
theorem State.enterHome_ends {s t : State} {o : OpenReq} (hopens : s.ctl.opens = [o]) (hadv : s.adv o = .ended t) : s.enterHome o.id = t := by
  have hfind : s.ctl.opens.find? (fun x => x.id == o.id) = some o := by simp [hopens]
  unfold State.enterHome
  rw [hfind]
  dsimp only
  rw [hadv]

theorem State.adv_asks {s : State} {o : OpenReq} {i slot : Nat} (h : PassesHome s o i slot) (hkind : AsksLine o.frame) :
    s.adv o = s.advAgent o (s.ctl.ext i).cdom.toNat slot := by
  unfold State.adv
  dsimp only
  rw [h.ext]
  dsimp only
  rw [if_pos (by simpa [AsksLine, or_assoc] using hkind), h.agent]

/-- A line that nobody holds, in a set with a way to spare, is granted at once. -/
theorem State.advAgent_first {s : State} {o : OpenReq} {line set w : Nat} (hline : lineKeyOf o.frame.bay.toNat o.frame.addr = line)
    (hset : dirSet o.frame.bay.toNat o.frame.addr = set) (hunheld : s.ctl.entOf line = none) (hways : s.ctl.openWays set < 12)
    (hfree : s.ctl.freeWay set = some w) (dom slot : Nat) :
    s.advAgent o dom slot = .ended ((({ s with ctl := s.ctl.newEnt line set w dom } : State).grant o.id o.frame line slot dom kData
      (decide (o.frame.kind = kRdS)) (firstState o.frame.kind) (slotBit slot)).onCtl (·.notePeak set)) := by
  subst hline hset
  unfold State.advAgent
  dsimp only
  rw [hunheld]
  dsimp only
  rw [if_neg (by omega), hfree]
  dsimp only
  unfold firstState
  by_cases hkind : o.frame.kind = kRdS
  · simp only [hkind, if_true, decide_true]
  · simp only [hkind, if_false, decide_false]

theorem Ctl.entOf_newEnt (c : Ctl) (line set way dom : Nat) : ∃ e, (c.newEnt line set way dom).entOf line = some e := by
  obtain ⟨e, -, -, he⟩ := Ctl.entOf_of_all (c := c.newEnt line set way dom) (line := line) (by simp [Ctl.newEnt])
  exact ⟨e, he⟩

end Sys2Proof.Machine

namespace Sys2Proof.Machine

/-- The one open request for a line that nobody holds is granted it: E or M, with the line's bytes. -/
theorem State.runCoh_first {s : State} {o : OpenReq} {i slot w line set : Nat} {b : List Byte} (hopens : s.ctl.opens = [o])
    (hline : lineKeyOf o.frame.bay.toNat o.frame.addr = line) (hset : dirSet o.frame.bay.toNat o.frame.addr = set)
    (h : PassesHome s o i slot) (hphase : o.phase = .directory) (hkind : AsksLine o.frame) (hlocks : s.ctl.locks = []) (hunheld : s.ctl.entOf line = none)
    (hways : s.ctl.openWays set < 12) (hfree : s.ctl.freeWay set = some w) (htarget : s.ctl.lineTarget line = some (.flat i))
    (hread : s.rawRead (lineBay line) (.flat i) (lineAddr line) 128 = some b)
    (hlive : s.ctl.liveInc o.frame.src.toNat o.frame.inc = true) :
    ∃ d x, s.runCoh o (.flat i) = { s with ctl := d } ∧ d.entOf line = some x ∧ x.st = firstState o.frame.kind ∧ x.owner = slot ∧ x.pres = slotBit slot
      ∧ d.opens = [] ∧ s.ctl.Rights d ∧ s.ctl.Responds d o.frame stOK b := by
  have hentry := State.runCoh_asks h hopens hphase hkind hlocks
  have hends := State.enterHome_ends hopens ((State.adv_asks h hkind).trans (State.advAgent_first hline hset hunheld hways hfree (s.ctl.ext i).cdom.toNat slot))
  generalize (s.ctl.ext i).cdom.toNat = dom at hends
  obtain ⟨e, hent⟩ := s.ctl.entOf_newEnt line set w dom
  have hgrant := State.grant_data (s := { s with ctl := s.ctl.newEnt line set w dom }) (r := o.frame) hent htarget hread hlive o.id slot dom
    (decide (o.frame.kind = kRdS)) (firstState o.frame.kind) (slotBit slot)
  obtain ⟨hgranted, hclosed, hrights, hresponds⟩ := Ctl.granting_sends (s.ctl.newEnt line set w dom) (r := o.frame) (line := line)
    (x := e.granted (s.ctl.newEnt line set w dom) o.id slot dom (firstState o.frame.kind) (slotBit slot)) (Ctl.entOf_some hent).2
    (Ctl.line_mem_of_entOf hent) hkind.rspKind o.id (decide (o.frame.kind = kRdS)) b
  rw [hgrant] at hends
  generalize Ctl.sendSeq _ _ _ _ = d at hends hgranted hclosed hrights hresponds
  obtain ⟨r, hr⟩ := d.notePeak_regs set
  refine ⟨{ d with regs := r }, _, (hentry.trans hends).trans (congrArg (fun c => ({ s with ctl := c } : State)) hr), hgranted, rfl, rfl, rfl, ?_,
    ⟨hrights.bays, hrights.exts, hrights.eps, hrights.kvRegions⟩, hresponds⟩
  show d.opens = []
  rw [hclosed]
  show s.ctl.opens.filter _ = []
  simp [hopens]

/-- What the first agent to ask for a line gets. -/
theorem State.serve_firstGrant {s : State} {f : Frame} {i slot cls : Nat} {old : Bool} {b : List Byte} (h : FirstGrant s f i slot cls old b)
    (hkind : AsksLine f) : ∃ d x, s.serve f .clean = { s with ctl := d } ∧ d.entOf (lineKeyOf f.bay.toNat f.addr) = some x ∧ x.st = firstState f.kind
      ∧ x.owner = slot ∧ x.pres = slotBit slot ∧ s.ctl.Rights d ∧ s.ctl.Responds d f stOK b := by
  obtain ⟨halign, -⟩ := hkind.home.form h.form
  obtain ⟨haddr, htarget⟩ := Ctl.lineTarget_flat h.passes halign
  obtain ⟨c, o, hasking, hserve⟩ := State.serve_coherence h.toArrives hkind.home h.passes
  obtain ⟨w, hfree⟩ := Option.isSome_iff_exists.mp h.ways.2
  have hread : ({ s with ctl := c } : State).rawRead (lineBay (lineKeyOf f.bay.toNat f.addr)) (.flat i) (lineAddr (lineKeyOf f.bay.toNat f.addr)) 128
      = some b := by
    unfold State.rawRead
    rw [lineBay_lineKeyOf, haddr, hasking.places.flatSegs]
    exact h.bytes
  have hpasses := hasking.passesHome h.coherent h.domain h.agent
  obtain rfl := hasking.frame
  obtain ⟨d, x, hrun, hent, hst, howner, hpres, hopens, hrights, hresponds⟩ := State.runCoh_first (s := { s with ctl := c }) hasking.opens rfl rfl hpasses
    hasking.phase hkind (hasking.locks.trans h.unlocked) ((hasking.entOf _).trans h.unheld) ((hasking.openWays _).trans_lt h.ways.1)
    ((hasking.freeWay _).trans hfree) ((hasking.lineTarget _).trans htarget) hread ((Ctl.liveInc_congr hasking.places.eps _ _).trans h.live)
  refine ⟨d, x, ?_, hent, hst, howner, hpres, hasking.serving.rights.trans hrights, hresponds.of_pairs hasking.pairs⟩
  rw [hserve, hrun]
  exact State.settle_quiet hopens

/-- The three requests of an agent that first asks for a line. -/
theorem firstGrant_completes {f : Frame} {i slot cls : Nat} {old : Bool} {b : List Byte} {s : State} (h : FirstGrant s f i slot cls old b)
    (hkind : AsksLine f) {st : LineState} (hst : firstState f.kind = st) {c : Instr} (hexec : exec c s = done (s.serve f .clean)) :
    Completes c s (fun t => Replied s t f stOK b
      ∧ (∃ e, t.ctl.entOf (lineKeyOf f.bay.toNat f.addr) = some e ∧ e.st = st ∧ e.owner = slot ∧ e.pres = slotBit slot)
      ∧ SameRights s t ∧ Keeps s t) := by
  obtain ⟨d, x, hserve, hent, hstate, howner, hpres, hrights, hresponds⟩ := State.serve_firstGrant h hkind
  exact Completes.of_done (hexec.trans (congrArg done hserve))
    ⟨hresponds.replied, ⟨x, hent, hstate.trans hst, howner, hpres⟩, hrights.sameRights, rfl, rfl⟩

theorem rds_completes (f : Frame) (i slot cls : Nat) (old : Bool) (b : List Byte) (s : State) (h : FirstGrant s f i slot cls old b) (hkind : f.kind = kRdS) :
    Completes (.rds f .clean) s (fun t => Replied s t f stOK b
      ∧ (∃ e, t.ctl.entOf (lineKeyOf f.bay.toNat f.addr) = some e ∧ e.st = .E ∧ e.owner = slot ∧ e.pres = slotBit slot)
      ∧ SameRights s t ∧ Keeps s t) :=
  firstGrant_completes h (.inl hkind) (by rw [hkind]; rfl) (congrArg done (if_pos (by simp [hkind])))

theorem rdx_completes (f : Frame) (i slot cls : Nat) (old : Bool) (b : List Byte) (s : State) (h : FirstGrant s f i slot cls old b) (hkind : f.kind = kRdX) :
    Completes (.rdx f) s (fun t => Replied s t f stOK b
      ∧ (∃ e, t.ctl.entOf (lineKeyOf f.bay.toNat f.addr) = some e ∧ e.st = .M ∧ e.owner = slot ∧ e.pres = slotBit slot)
      ∧ SameRights s t ∧ Keeps s t) :=
  firstGrant_completes h (.inr (.inl hkind)) (by rw [hkind]; rfl) (congrArg done (if_pos (by simp [hkind])))

theorem upg_completes (f : Frame) (i slot cls : Nat) (old : Bool) (b : List Byte) (s : State) (h : FirstGrant s f i slot cls old b) (hkind : f.kind = kUpg) :
    Completes (.upg f) s (fun t => Replied s t f stOK b
      ∧ (∃ e, t.ctl.entOf (lineKeyOf f.bay.toNat f.addr) = some e ∧ e.st = .M ∧ e.owner = slot ∧ e.pres = slotBit slot)
      ∧ SameRights s t ∧ Keeps s t) :=
  firstGrant_completes h (.inr (.inr hkind)) (by rw [hkind]; rfl) (congrArg done (if_pos (by simp [hkind])))

end Sys2Proof.Machine

namespace Sys2Proof.Machine

/-! ### Write-backs (R184, R186, Table 7.5) -/

/-- The control records when home has taken in the last copy of a line: at most its list of dirty lines has moved, the entry is gone. -/
def Ctl.tookLine (c : Ctl) (l : List Nat) (line : Nat) : Ctl := Ctl.dropEnt { c with homeDirty := l } line

/-- A WbM of the owner of a line in M: its data is stored, the entry is freed. -/
theorem State.runCoh_wbm {s : State} {o : OpenReq} {i slot k p line : Nat} {e : DirEnt} (h : PassesHome s o i slot) (hkind : o.frame.kind = kWbM)
    (hline : lineKeyOf o.frame.bay.toNat o.frame.addr = line) (hent : s.ctl.entOf line = some e) (hst : e.st = .M) (howner : e.owner = slot)
    (htrans : e.trans = none) (htarget : s.ctl.lineTarget line = some (.flat i))
    (hseg : s.ctl.targetSegs (lineBay line) (.flat i) (lineAddr line) 128 = [plainSeg k 128 p]) (hclean : s.mem.poison = [])
    (hlen : o.frame.payload.length = 128) (hidle : s.ctl.dirQ = []) :
    ∃ l, s.runCoh o (.flat i)
      = { s with mem := s.mem.write k o.frame.payload, ctl := (s.ctl.tookLine l line).answerOpen o stOK dNONE 0 [] } := by
  obtain ⟨l, hwrite⟩ := State.homeWrite_plain htarget hseg hclean hlen
  refine ⟨l, ?_⟩
  have hqueue := State.startQueued_empty
    (s := { s.homeWrite line o.frame.payload with ctl := (s.homeWrite line o.frame.payload).ctl.dropEnt line }) (by rw [hwrite]; exact hidle) e.dset 9
  subst hline
  unfold State.runCoh
  dsimp only
  rw [h.ext, Option.getD_some, h.coherent, h.domain.1, h.domain.2, h.agent, if_neg (by decide), if_neg (by decide), if_neg (by simp)]
  dsimp only
  rw [if_pos (by simp [hkind]), hent]
  dsimp only
  rw [if_pos hkind, if_neg (by simp [hst, howner]), htrans]
  dsimp only
  rw [hqueue, hwrite]
  rfl

/-- A WbE of the owner of a line in E frees the entry. -/
theorem State.runCoh_wbe {s : State} {o : OpenReq} {i slot line : Nat} {e : DirEnt} (h : PassesHome s o i slot) (hkind : o.frame.kind = kWbE)
    (hline : lineKeyOf o.frame.bay.toNat o.frame.addr = line) (hent : s.ctl.entOf line = some e) (hst : e.st = .E) (howner : e.owner = slot)
    (htrans : e.trans = none) (hidle : s.ctl.dirQ = []) :
    s.runCoh o (.flat i) = { s with ctl := (s.ctl.dropEnt line).answerOpen o stOK dNONE 0 [] } := by
  have hqueue := State.startQueued_empty (s := { s with ctl := s.ctl.dropEnt line }) hidle e.dset 9
  subst hline
  unfold State.runCoh
  dsimp only
  rw [h.ext, Option.getD_some, h.coherent, h.domain.1, h.domain.2, h.agent, if_neg (by decide), if_neg (by decide), if_neg (by simp)]
  dsimp only
  rw [if_pos (by simp [hkind]), hent]
  dsimp only
  rw [if_neg (by rw [hkind]; decide), htrans]
  dsimp only
  rw [if_pos (by simp [hst, howner]), hqueue]
  rfl

theorem AsksHome.of_wbm {f : Frame} (h : f.kind = kWbM) : AsksHome f := .inr (.inr (.inr (.inl h)))
theorem AsksHome.of_wbe {f : Frame} (h : f.kind = kWbE) : AsksHome f := .inr (.inr (.inr (.inr h)))

/-- A write-back that was answered OK and freed its entry: the domains go on, which brings the line no entry and drops no frame. -/
theorem Ends.freed {s : State} {f : Frame} {e d : Ctl} {line : Nat} (h : Ends s f [] e d) (hnone : e.entOf line = none) (m : Mem) :
    Replied s { s with mem := m, ctl := d.settleDoms } f stOK [] ∧ d.settleDoms.entOf line = none := by
  have hdir : d.dir = e.dir := (congrArg Ctl.dir h.serving.same :)
  have hfree : d.entOf line = none := by
    rw [Ctl.entOf, hdir]
    exact hnone
  have hresponds : s.ctl.Responds d f stOK [] := h.kept
  exact ⟨hresponds.clears d.homeWork_settleDoms.clears, d.homeWork_settleDoms.entOf_none hfree⟩

/-- A write-back that frees its entry is answered OK, and the domains go on. -/
theorem Asking.writeBack {s : State} {f : Frame} {i line : Nat} {c e : Ctl} {o : OpenReq} (h : Asking s f i c o) (hkind : AsksHome f)
    (hdst : f.dst = 0xFFF) (hlive : s.ctl.liveInc f.src.toNat f.inc = true) (hopens : e.opens = c.opens) (hpairs : e.pairs = c.pairs)
    (heps : e.eps = c.eps) (hnone : e.entOf line = none) (m : Mem) :
    ∃ d, (State.settle { s with mem := m, ctl := e.answerOpen o stOK dNONE 0 [] }).onCtl (·.settleDoms) = { s with mem := m, ctl := d }
      ∧ Replied s { s with mem := m, ctl := d } f stOK [] ∧ d.entOf line = none := by
  have hends := h.ends (payload := []) hdst hlive (hkind.ne (by decide)) hopens hpairs heps (fun hread => absurd hread (hkind.ne (by decide))) 0 0 none
  obtain ⟨hreplied, hfree⟩ := hends.freed hnone m
  rw [Ctl.answerOpen_eq, h.frame, hends.settled m]
  exact ⟨_, rfl, hreplied, hfree⟩

theorem wbm_completes (f : Frame) (i slot cls k : Nat) (old : Bool) (e : DirEnt) (s : State) (harr : Arrives s f) (hkind : f.kind = kWbM)
    (hcheck : s.ctl.check59 f 128 (some rightW) = .pass (.flat i) cls old) (hcoh : CohLine s f i slot k e) (hst : e.st = .M) (howner : e.owner = slot)
    (htrans : e.trans = none) : Completes (.wbm f) s (fun t =>
      Replied s t f stOK [] ∧ t.mem = s.mem.write k f.payload ∧ t.ctl.entOf (lineKeyOf f.bay.toNat f.addr) = none ∧ t.pending = s.pending) := by
  have hasks := AsksHome.of_wbm hkind
  obtain ⟨halign, hlen⟩ := hasks.form harr.form
  rw [if_pos hkind] at hlen
  obtain ⟨haddr, htarget⟩ := Ctl.lineTarget_flat hcheck halign
  have hright : rightFor f = some rightW := by
    unfold rightFor
    rw [hkind]
    decide
  obtain ⟨c, o, hasking, hserve⟩ := State.serve_coherence harr hasks (by rw [hright]; exact hcheck)
  obtain ⟨p, hplace⟩ := hcoh.place
  have hseg : c.targetSegs (lineBay (lineKeyOf f.bay.toNat f.addr)) (.flat i) (lineAddr (lineKeyOf f.bay.toNat f.addr)) 128 = [plainSeg k 128 p] := by
    rw [lineBay_lineKeyOf, haddr, hasking.places.flatSegs]
    exact hplace
  have hpasses := hasking.passesHome hcoh.coherent hcoh.domain hcoh.agent
  obtain rfl := hasking.frame
  obtain ⟨x, hrun⟩ := State.runCoh_wbm hpasses hkind rfl ((hasking.entOf _).trans hcoh.entry) hst howner htrans ((hasking.lineTarget _).trans htarget) hseg
    hcoh.clean hlen (hasking.dirQ.trans hcoh.idle)
  obtain ⟨d, hdone, hreplied, hfree⟩ := hasking.writeBack (e := c.tookLine x (lineKeyOf o.frame.bay.toNat o.frame.addr)) hasks harr.ours harr.live
    rfl rfl rfl (Ctl.entOf_dropEnt _ _) (s.mem.write k o.frame.payload)
  have hexec : exec (.wbm o.frame) s = done ((s.serve o.frame .clean).onCtl (·.settleDoms)) :=
    congrArg (fun t : State => done (t.onCtl (·.settleDoms))) (if_pos (by simp [hkind]))
  rw [hserve, hrun] at hexec
  exact Completes.of_done (hexec.trans (congrArg done hdone)) ⟨hreplied, rfl, hfree, rfl⟩

theorem wbe_completes (f : Frame) (i slot cls k : Nat) (old : Bool) (e : DirEnt) (s : State) (harr : Arrives s f) (hkind : f.kind = kWbE)
    (hcheck : s.ctl.check59 f 128 none = .pass (.flat i) cls old) (hcoh : CohLine s f i slot k e) (hst : e.st = .E) (howner : e.owner = slot)
    (htrans : e.trans = none) : Completes (.wbe f) s (fun t =>
      Replied s t f stOK [] ∧ t.ctl.entOf (lineKeyOf f.bay.toNat f.addr) = none ∧ Keeps s t) := by
  have hasks := AsksHome.of_wbe hkind
  have hright : rightFor f = none := by
    unfold rightFor
    rw [hkind]
    decide
  obtain ⟨c, o, hasking, hserve⟩ := State.serve_coherence harr hasks (by rw [hright]; exact hcheck)
  have hpasses := hasking.passesHome hcoh.coherent hcoh.domain hcoh.agent
  obtain rfl := hasking.frame
  have hrun := State.runCoh_wbe hpasses hkind rfl ((hasking.entOf _).trans hcoh.entry) hst howner htrans (hasking.dirQ.trans hcoh.idle)
  obtain ⟨d, hdone, hreplied, hfree⟩ := hasking.writeBack (e := c.dropEnt (lineKeyOf o.frame.bay.toNat o.frame.addr)) hasks harr.ours harr.live
    rfl rfl rfl (Ctl.entOf_dropEnt _ _) s.mem
  have hexec : exec (.wbe o.frame) s = done ((s.serve o.frame .clean).onCtl (·.settleDoms)) :=
    congrArg (fun t : State => done (t.onCtl (·.settleDoms))) (if_pos (by simp [hkind]))
  rw [hserve, hrun] at hexec
  exact Completes.of_done (hexec.trans (congrArg done hdone)) ⟨hreplied, hfree, rfl, rfl⟩

/-- Settles O20. The first request for a line that nobody holds makes its entry and is granted at once; a write-back of the owner frees the entry,
and the removals and recalls that go on afterwards bring it no new one. It rests on log entries 21 and 40, as the statement says. -/
theorem grantsAndWriteBacks : Obligations.GrantsAndWriteBacks := by
  unfold Obligations.GrantsAndWriteBacks
  exact ⟨rds_completes, rdx_completes, upg_completes, wbm_completes, wbe_completes⟩

end Sys2Proof.Machine

namespace Sys2Proof.Machine

/-! ### Answers that home awaits (R185-R187) -/

/-- An answer of a sharer takes it off the line, unless the agent keeps its copy. -/
theorem DirEnt.answered_sharer {e : DirEnt} (hst : e.st = .S) (tr : Trans) (slot : Nat) (wbp keeps : Bool) :
    e.answered tr slot wbp keeps = { e with pres := if keeps then e.pres else e.pres &&& ~~~ slotBit slot,
                                            trans := some { tr with await := removeNat tr.await slot } } := by
  unfold DirEnt.answered
  simp [hst]

/-- An answer of the owner with no write-back to follow. -/
theorem DirEnt.answered_owner {e : DirEnt} {slot : Nat} (hst : e.st = .E ∨ e.st = .M) (howner : e.owner = slot) (tr : Trans) (keeps : Bool) :
    e.answered tr slot false keeps
      = { e with trans := some { tr with await := removeNat tr.await slot, wbp := tr.wbp || !bitOf e.pres.toNat slot } } := by
  unfold DirEnt.answered
  rcases hst with hst | hst <;> simp [hst, howner]

theorem DirEnt.line_answered (e : DirEnt) (tr : Trans) (slot : Nat) (wbp keeps : Bool) : (e.answered tr slot wbp keeps).line = e.line := by
  unfold DirEnt.answered
  dsimp only
  split
  · rfl
  · rfl

theorem removeNat_singleton (k : Nat) : removeNat [k] k = [] := by simp [removeNat]

theorem bitOf_slotBit {slot : Nat} (h : slot < 64) : bitOf (slotBit slot).toNat slot = true := by
  have hlt : 2 ^ slot < 2 ^ 64 := Nat.pow_lt_pow_right (by decide) h
  rw [slotBit, BitVec.toNat_ofNat, Nat.mod_eq_of_lt hlt]
  simp [bitOf]

/-- The transaction of an entry has nothing left to wait for (R186). -/
structure DirEnt.Over (x : DirEnt) (tr : Trans) : Prop where
  trans : x.trans = some tr
  await : tr.await = []
  awaitWb : tr.awaitWb = []
  granted : tr.granted = false

/-- The answer of the one agent that home awaits ends the wait, but for a write-back that the owner announces. -/
theorem DirEnt.over_answered {e : DirEnt} {tr : Trans} {slot : Nat} {wbp : Bool} (hwaits : tr.granted = false ∧ tr.await = [slot] ∧ tr.awaitWb = [])
    (hleft : e.st = .S ∨ wbp = false) (keeps : Bool) : ∃ tr', (e.answered tr slot wbp keeps).Over tr' ∧ tr'.why = tr.why := by
  obtain ⟨hgranted, hawait, hwb⟩ := hwaits
  have hlast : removeNat tr.await slot = [] := by rw [hawait]; exact removeNat_singleton slot
  unfold DirEnt.answered
  dsimp only
  split
  · next howner =>
    have hwbp : wbp = false := hleft.resolve_left (fun hst => by simp [hst] at howner)
    exact ⟨_, ⟨rfl, hlast, by simp [hwbp, hwb], hgranted⟩, rfl⟩
  · exact ⟨_, ⟨rfl, hlast, hwb, hgranted⟩, rfl⟩

/-- A removal that is over frees the entry of a line whose last copy is gone. -/
theorem State.endTrans_removal {s : State} {x : DirEnt} {tr : Trans} (hent : s.ctl.entOf x.line = some x) (hover : x.Over tr) (hwhy : tr.why = .removal)
    (hgone : x.st = .S → x.pres = 0) (hidle : s.ctl.dirQ = []) : s.endTrans x.line = { s with ctl := s.ctl.dropEnt x.line } := by
  have hqueue := State.startQueued_empty (s := { s with ctl := s.ctl.dropEnt x.line }) hidle x.dset 9
  unfold State.endTrans
  rw [hent]
  dsimp only
  rw [hover.trans]
  dsimp only
  rw [if_neg (by simp [hover.await, hover.awaitWb, hover.granted]), hwhy]
  dsimp only
  rw [if_neg (by simpa using hgone), hqueue]

/-- The entry of a line that its owner keeps as a sharer. -/
def DirEnt.leftShared (x : DirEnt) : DirEnt := { x with st := .S, pres := slotBit x.owner, trans := none }

/-- A line that home wanted for itself is left to its owner as a sharer. -/
theorem State.endTrans_unitAccess {s : State} {x : DirEnt} {tr : Trans} (hent : s.ctl.entOf x.line = some x) (hover : x.Over tr)
    (hwhy : tr.why = .unitAccess) (hwbp : tr.wbp = false) (hidle : s.ctl.dirQ = []) :
    s.endTrans x.line = { s with ctl := s.ctl.putEnt x.leftShared } := by
  have hqueue := State.startQueued_empty (s := { s with ctl := s.ctl.putEnt x.leftShared }) hidle x.dset 9
  unfold State.endTrans
  rw [hent]
  dsimp only
  rw [hover.trans]
  dsimp only
  rw [if_neg (by simp [hover.await, hover.awaitWb, hover.granted]), hwhy]
  dsimp only
  rw [hwbp, if_neg (by decide)]
  exact hqueue

theorem Awaited.line_mem {s : State} {f : Frame} {slot : Nat} {e : DirEnt} {tr : Trans} (h : Awaited s f slot e tr) :
    e.line ∈ s.ctl.dir.map (·.line) :=
  List.mem_map_of_mem (Ctl.entOf_some h.entry).1

/-- What home holds once it has taken the awaited answer in, before the transaction ends. -/
def State.answeredBy (s : State) (f : Frame) (e : DirEnt) (tr : Trans) (slot : Nat) : State :=
  (if f.payload.isEmpty || bitOf f.addr.toNat 0 then s else s.homeWrite e.line f.payload).onCtl
    (·.putEnt (e.answered tr slot (bitOf f.addr.toNat 0) (f.kind == kFwdAck)))

theorem State.takeAgent_awaited {s : State} {f : Frame} {slot : Nat} {e : DirEnt} {tr : Trans} (h : Awaited s f slot e tr) :
    s.takeAgent f.kind f = (((s.answeredBy f e tr slot).endTrans e.line).onCtl (·.settleDoms)).settle := by
  obtain ⟨hgranted, hawait, -⟩ := h.waits
  have hline := (Ctl.entOf_some h.entry).2
  have hanswer : s.agentAnswer f = ((s.answeredBy f e tr slot).endTrans e.line).onCtl (·.settleDoms) := by
    unfold State.agentAnswer
    dsimp only
    rw [h.entry]
    dsimp only
    rw [h.trans, h.agent]
    dsimp only
    rw [if_neg (by simp [hgranted, hawait]), ← hline]
    rfl
  unfold State.takeAgent
  rw [if_neg (by simp [h.ours, h.up]), if_neg (by simp [h.live]), hanswer]

/-- With nothing open, what the domains do next is the last that happens. -/
theorem State.settle_settleDoms {s : State} (h : s.ctl.opens = []) : (s.onCtl (·.settleDoms)).settle = s.onCtl (·.settleDoms) :=
  State.settle_quiet (s.ctl.homeWork_settleDoms.opens.trans h)

/-- An answer that ends a removal and is the last copy's frees the entry; its data, if any, is in memory. -/
theorem Awaited.freed {s : State} {f : Frame} {slot : Nat} {e x : DirEnt} {tr tr' : Trans} {m : Mem} {c : Ctl} (h : Awaited s f slot e tr)
    (htaken : s.answeredBy f e tr slot = { s with mem := m, ctl := c.putEnt x }) (hline : x.line = e.line) (hover : x.Over tr')
    (hwhy : tr'.why = .removal) (hgone : x.st = .S → x.pres = 0) (hdir : c.dir = s.ctl.dir) (hopens : c.opens = []) (hidle : c.dirQ = [])
    (hrights : s.ctl.Rights c) :
    ∃ d, s.takeAgent f.kind f = { s with mem := m, ctl := d } ∧ d.entOf e.line = none ∧ d.opens = [] ∧ s.ctl.Rights d := by
  have hmem : x.line ∈ c.dir.map (·.line) := by
    rw [hline, hdir]
    exact h.line_mem
  have hend := State.endTrans_removal (s := { s with mem := m, ctl := c.putEnt x }) (Ctl.entOf_putEnt hmem) hover hwhy hgone hidle
  have hwork := Ctl.homeWork_settleDoms ((c.putEnt x).dropEnt x.line)
  have hcleared : s.ctl.Rights ((c.putEnt x).dropEnt x.line) := hrights.trans ⟨rfl, rfl, rfl, rfl⟩
  refine ⟨_, ?_, hwork.entOf_none (by rw [hline]; exact Ctl.entOf_dropEnt _ _), hwork.opens.trans hopens, hcleared.trans hwork.rights⟩
  rw [State.takeAgent_awaited h, htaken, ← hline, hend]
  exact State.settle_settleDoms hopens

/-- An answer that ends an access of home's own units leaves the owner a sharer of the line. -/
theorem Awaited.leftShared {s : State} {f : Frame} {slot : Nat} {e x : DirEnt} {tr tr' : Trans} (h : Awaited s f slot e tr)
    (htaken : s.answeredBy f e tr slot = { s with ctl := s.ctl.putEnt x }) (hline : x.line = e.line) (hover : x.Over tr')
    (hwhy : tr'.why = .unitAccess) (hwbp : tr'.wbp = false) :
    ∃ d, s.takeAgent f.kind f = { s with ctl := d } ∧ (∃ y, d.entOf e.line = some y ∧ y.st = .S ∧ y.pres = slotBit x.owner) ∧ d.opens = []
      ∧ s.ctl.Rights d := by
  obtain ⟨hopens, hidle⟩ := h.quiet
  have hmem : x.line ∈ s.ctl.dir.map (·.line) := by
    rw [hline]
    exact h.line_mem
  have hend := State.endTrans_unitAccess (s := { s with ctl := s.ctl.putEnt x }) (Ctl.entOf_putEnt hmem) hover hwhy hwbp hidle
  have hwork := Ctl.homeWork_settleDoms ((s.ctl.putEnt x).putEnt x.leftShared)
  have hrights : s.ctl.Rights ((s.ctl.putEnt x).putEnt x.leftShared) := ⟨rfl, rfl, rfl, rfl⟩
  obtain ⟨y, hent, hy⟩ := hwork.entOf_putEnt (by rwa [Ctl.lines_putEnt])
  refine ⟨_, ?_, ⟨y, hline ▸ hent, (congrArg DirEnt.st hy :), (congrArg DirEnt.pres hy :)⟩, hwork.opens.trans hopens, hrights.trans hwork.rights⟩
  rw [State.takeAgent_awaited h, htaken, ← hline, hend]
  exact State.settle_settleDoms hopens

/-- Without data in the answer memory stays. -/
theorem State.answeredBy_empty {s : State} {f : Frame} (h : f.payload = []) (e : DirEnt) (tr : Trans) (slot : Nat) :
    s.answeredBy f e tr slot = { s with ctl := s.ctl.putEnt (e.answered tr slot (bitOf f.addr.toNat 0) (f.kind == kFwdAck)) } := by
  unfold State.answeredBy
  rw [h, if_pos (by simp)]
  rfl

theorem invack_completes (f : Frame) (slot : Nat) (e : DirEnt) (tr : Trans) (s : State) (h : Awaited s f slot e tr) (hkind : f.kind = kInvAck)
    (hwhy : tr.why = .removal) (hst : e.st = .S) (hpres : e.pres = slotBit slot) (hempty : f.payload = []) : Completes (.invack f) s (fun t =>
      t.ctl.entOf e.line = none ∧ t.ctl.opens = [] ∧ SameRights s t ∧ Keeps s t) := by
  have hx := e.answered_sharer hst tr slot (bitOf f.addr.toNat 0) (f.kind == kFwdAck)
  obtain ⟨tr', hover, hwhy'⟩ := DirEnt.over_answered (wbp := bitOf f.addr.toNat 0) h.waits (.inl hst) (f.kind == kFwdAck)
  obtain ⟨d, htake, hfree, hopens, hrights⟩ := h.freed (State.answeredBy_empty hempty e tr slot) (e.line_answered _ _ _ _) hover (hwhy'.trans hwhy)
    (fun _ => by rw [hx, hkind, hpres]; exact BitVec.and_not_self _) rfl h.quiet.1 h.quiet.2 ⟨rfl, rfl, rfl, rfl⟩
  have hexec : exec (.invack f) s = done (s.takeAgent kInvAck f) := rfl
  rw [← hkind, htake] at hexec
  exact Completes.of_done hexec ⟨hfree, hopens, hrights.sameRights, rfl, rfl⟩

theorem data_completes (f : Frame) (slot i k p : Nat) (e : DirEnt) (tr : Trans) (s : State) (h : Awaited s f slot e tr) (hkind : f.kind = kData)
    (hwhy : tr.why = .removal) (hst : e.st = .M) (howner : e.owner = slot) (hwbp : bitOf f.addr.toNat 0 = false)
    (hlen : f.payload.length = 128) (htarget : s.ctl.lineTarget e.line = some (.flat i)) (hbay : lineBay e.line = f.bay.toNat)
    (hseg : s.ctl.targetSegs f.bay.toNat (.flat i) (lineAddr e.line) 128 = [plainSeg k 128 p]) (hclean : s.mem.poison = []) :
    Completes (.data f) s (fun t =>
      t.ctl.entOf e.line = none ∧ t.mem = s.mem.write k f.payload ∧ t.ctl.opens = [] ∧ SameRights s t ∧ t.pending = s.pending) := by
  obtain ⟨l, hwrite⟩ := State.homeWrite_plain htarget (by rw [hbay]; exact hseg) hclean hlen
  have hdata : ¬ (f.payload.isEmpty || bitOf f.addr.toNat 0) = true := by
    rw [hwbp, Bool.or_false, List.isEmpty_iff, ← List.length_eq_zero_iff, hlen]
    decide
  have htaken : s.answeredBy f e tr slot = { s with
      mem := s.mem.write k f.payload,
      ctl := ({ s.ctl with homeDirty := l } : Ctl).putEnt (e.answered tr slot (bitOf f.addr.toNat 0) (f.kind == kFwdAck)) } := by
    unfold State.answeredBy
    rw [if_neg hdata, hwrite]
    rfl
  have hx := e.answered_owner (.inr hst) howner tr (f.kind == kFwdAck)
  rw [← hwbp] at hx
  obtain ⟨tr', hover, hwhy'⟩ := DirEnt.over_answered (slot := slot) h.waits (.inr hwbp) (f.kind == kFwdAck)
  obtain ⟨d, htake, hfree, hopens, hrights⟩ := h.freed htaken (e.line_answered _ _ _ _) hover (hwhy'.trans hwhy)
    (fun hshared => by rw [hx, hst] at hshared; cases hshared) rfl h.quiet.1 h.quiet.2 ⟨rfl, rfl, rfl, rfl⟩
  have hexec : exec (.data f) s = done (s.takeAgent kData f) := rfl
  rw [← hkind, htake] at hexec
  exact Completes.of_done hexec ⟨hfree, rfl, hopens, hrights.sameRights, rfl⟩

theorem fwdack_completes (f : Frame) (slot : Nat) (e : DirEnt) (tr : Trans) (s : State) (h : Awaited s f slot e tr) (hkind : f.kind = kFwdAck)
    (hwhy : tr.why = .unitAccess) (hst : e.st = .E) (howner : e.owner = slot) (hslot : slot < 64) (hpres : e.pres = slotBit slot)
    (htrwbp : tr.wbp = false) (hwbp : bitOf f.addr.toNat 0 = false) (hempty : f.payload = []) : Completes (.fwdack f) s (fun t =>
      (∃ x, t.ctl.entOf e.line = some x ∧ x.st = .S ∧ x.pres = slotBit slot) ∧ t.ctl.opens = [] ∧ SameRights s t ∧ Keeps s t) := by
  obtain ⟨hgranted, hawait, hwb⟩ := h.waits
  have hx := e.answered_owner (.inl hst) howner tr (f.kind == kFwdAck)
  rw [← hwbp] at hx
  have hover : (e.answered tr slot (bitOf f.addr.toNat 0) (f.kind == kFwdAck)).Over
      { tr with await := removeNat tr.await slot, wbp := tr.wbp || !bitOf e.pres.toNat slot } := by
    rw [hx]
    exact ⟨rfl, by rw [hawait]; exact removeNat_singleton slot, hwb, hgranted⟩
  have howner' : (e.answered tr slot (bitOf f.addr.toNat 0) (f.kind == kFwdAck)).owner = slot := by rw [hx]; exact howner
  have hkeeps : (tr.wbp || !bitOf e.pres.toNat slot) = false := by rw [htrwbp, hpres, bitOf_slotBit hslot]; rfl
  obtain ⟨d, htake, hshared, hopens, hrights⟩ := h.leftShared (State.answeredBy_empty hempty e tr slot) (e.line_answered _ _ _ _) hover hwhy hkeeps
  have hexec : exec (.fwdack f) s = done (s.takeAgent kFwdAck f) := rfl
  rw [← hkind, htake] at hexec
  rw [howner'] at hshared
  exact Completes.of_done hexec ⟨hshared, hopens, hrights.sameRights, rfl, rfl⟩

end Sys2Proof.Machine

namespace Sys2Proof.Machine

/-! ### Status of the commands of the directory (Tables 7.7, 7.8) -/

theorem Ctl.dirStatus_eq (c : Ctl) (d err busy : Nat) : c.dirStatus d err busy = { c with regs := (c.dirStatus d err busy).regs } := rfl

theorem Ctl.rd_dirStatus (c : Ctl) (d err busy : Nat) {f : Fld} (h : f.addr ≠ 0x07000018) : (c.dirStatus d err busy).rd f = c.rd f := by
  unfold Ctl.dirStatus
  rw [Ctl.rd_wr_ne _ _ _ _ h, Ctl.rd_wr_ne _ _ _ _ h, Ctl.rd_wr_ne _ _ _ _ h]

theorem Ctl.dirErr_dirStatus (c : Ctl) (d busy : Nat) : (c.dirStatus d 0 busy).rd Reg.dirErr = 0 := by
  unfold Ctl.dirStatus
  rw [Ctl.rd_wr_apart _ _ _ _ (by decide) (by decide)]
  exact Ctl.rd_wr_fits _ _ _ (by decide) (by decide)

theorem Ctl.dirBusy_dirStatus (c : Ctl) (d err : Nat) : (c.dirStatus d err 1).rd Reg.dirBusy = 1 :=
  Ctl.rd_wr_fits _ _ _ (by decide) (by decide)

/-! ### Commands to domains (R178, R198, Tables 7.7-7.9) -/

theorem Ctl.rd_agent_dirStatus (c : Ctl) (x err busy d a : Nat) : (c.dirStatus x err busy).rd (Reg.agentEp d a) = c.rd (Reg.agentEp d a)
    ∧ (c.dirStatus x err busy).rd (Reg.agentValid d a) = c.rd (Reg.agentValid d a) :=
  ⟨c.rd_dirStatus _ _ _ (by simp only [Reg.agentEp]; omega), c.rd_dirStatus _ _ _ (by simp only [Reg.agentValid]; omega)⟩

theorem Ctl.validSlots_dirStatus (c : Ctl) (x err busy d : Nat) : (c.dirStatus x err busy).validSlots d = c.validSlots d := by
  simp only [Ctl.validSlots, Ctl.rd_agent_dirStatus]

theorem Ctl.domCreate_ok {c : Ctl} {d : Nat} (hbusy : c.rd Reg.dirBusy = 0) (hok : c.createErr d = 0) :
    c.domCreate d = (c.dirStatus d 0 0).putDom d
      { st := .up, bay := c.rd (Reg.domBay d), cause := 0, causeEp := 0, agents := c.validSlots d } := by
  have hbay : (c.dirStatus d 0 0).rd (Reg.domBay d) = c.rd (Reg.domBay d) := c.rd_dirStatus _ _ _ (by simp only [Reg.domBay]; omega)
  unfold Ctl.domCreate
  dsimp only
  rw [if_neg (by omega), hok, if_neg (by decide), hbay, Ctl.validSlots_dirStatus]

theorem create_completes (d : Fin 64) (s : State) (hup : s.ctl.mainUp = true) (hbusy : s.ctl.rd Reg.dirBusy = 0) (hok : s.ctl.createErr d.val = 0) :
    Completes (.create d) s (fun t =>
      t.ctl.dom d.val = { st := .up, bay := s.ctl.rd (Reg.domBay d.val), cause := 0, causeEp := 0, agents := s.ctl.validSlots d.val }
      ∧ t.ctl.rd Reg.dirErr = 0 ∧ (∀ x, x ≠ d.val → t.ctl.dom x = s.ctl.dom x)
      ∧ Only s t (fun c => { c with regs := t.ctl.regs, doms := t.ctl.doms })) := by
  have hexec : exec (.create d) s = done (s.onCtl (·.domCreate d.val)) := congrArg done (State.whenMain_on s _ hup)
  exact Completes.onCtl hexec (Ctl.domCreate_ok hbusy hok)
    ⟨Ctl.dom_putDom _ _ _, (Ctl.putDom_rd _ _ _ _).trans (Ctl.dirErr_dirStatus _ _ _), fun x hx => Ctl.dom_putDom_ne _ _ _ _ hx, rfl⟩

theorem Ctl.addAgentErr_up {c : Ctl} {d a : Nat} (h : c.addAgentErr d a = 0) : (c.dom d).st = .up := by
  unfold Ctl.addAgentErr at h
  dsimp only at h
  by_contra hst
  rw [if_pos hst] at h
  cases h

/-- The endpoint of a slot is what the table of agents holds under it. -/
theorem Domain.epOf_eq (m : Domain) (a : Nat) : m.epOf a = Tab.get m.agents a 0xFFF := by
  have hfind : ∀ l : List (Nat × Nat), (l.find? (fun x => x.1 == a)).map (·.2) = Tab.find? l a := fun l => by
    induction l with
    | nil => rfl
    | cons x l ih =>
      by_cases hx : x.1 = a
      · simp [Tab.find?, hx]
      · simpa [Tab.find?, hx] using ih
  exact congrArg (·.getD 0xFFF) (hfind m.agents)

theorem Ctl.domAddAgent_ok {c : Ctl} {d a : Nat} (hbusy : c.rd Reg.dirBusy = 0) (hok : c.addAgentErr d a = 0)
    (hnew : ∀ x ∈ (c.dom d).agents, x.1 ≠ a) : c.domAddAgent d a = (c.dirStatus d 0 0).putDom d
      { c.dom d with agents := Tab.put (c.dom d).agents a (c.rd (Reg.agentEp d a)) } := by
  unfold Ctl.domAddAgent
  dsimp only
  rw [if_neg (by omega), hok, if_neg (by simpa using fun b hb => hnew (a, b) hb rfl), (c.rd_agent_dirStatus d 0 0 d a).1]

theorem addAgent_completes (d a : Fin 64) (s : State) (hup : s.ctl.mainUp = true) (hbusy : s.ctl.rd Reg.dirBusy = 0)
    (hok : s.ctl.addAgentErr d.val a.val = 0) (hnew : ∀ x ∈ (s.ctl.dom d.val).agents, x.1 ≠ a.val) : Completes (.addAgent d a) s (fun t =>
      (t.ctl.dom d.val).epOf a.val = s.ctl.rd (Reg.agentEp d.val a.val) ∧ (t.ctl.dom d.val).st = .up ∧ t.ctl.rd Reg.dirErr = 0
      ∧ (∀ x, x ≠ d.val → t.ctl.dom x = s.ctl.dom x) ∧ Only s t (fun c => { c with regs := t.ctl.regs, doms := t.ctl.doms })) := by
  have hexec : exec (.addAgent d a) s = done (s.onCtl (·.domAddAgent d.val a.val)) := congrArg done (State.whenMain_on s _ hup)
  refine Completes.onCtl hexec (Ctl.domAddAgent_ok hbusy hok hnew)
    ⟨?_, ?_, (Ctl.putDom_rd _ _ _ _).trans (Ctl.dirErr_dirStatus _ _ _), fun x hx => Ctl.dom_putDom_ne _ _ _ _ hx, rfl⟩
  · dsimp only
    rw [Ctl.dom_putDom]
    exact (Domain.epOf_eq _ _).trans (Tab.get_put_same _ _ _ _)
  · dsimp only
    rw [Ctl.dom_putDom]
    exact Ctl.addAgentErr_up hok

/-- A domain without agents that may be created again (Table 7.9). -/
def Domain.freed (m : Domain) : Domain := { m with st := .free, agents := [] }

/-- A DRAINING domain without entries is freed, and the command that named it ends. -/
theorem Ctl.domDrained_empty {c : Ctl} {d : Nat} (hst : (c.dom d).st = .draining) (hempty : ∀ x ∈ c.dir, x.dom ≠ d) :
    c.domDrained d = if c.rd Reg.dirDom = d then (c.putDom d (c.dom d).freed).wr Reg.dirBusy 0 else c.putDom d (c.dom d).freed := by
  unfold Ctl.domDrained
  dsimp only
  rw [if_neg (by simpa [hst] using hempty)]
  rfl

theorem domainDrained_completes (d : Fin 64) (s : State) (hup : s.ctl.mainUp = true) (hst : (s.ctl.dom d.val).st = .draining)
    (hempty : ∀ x ∈ s.ctl.dir, x.dom ≠ d.val) : Completes (.domainDrained d) s (fun t =>
      (t.ctl.dom d.val).st = .free ∧ (t.ctl.dom d.val).agents = [] ∧ (s.ctl.rd Reg.dirDom = d.val → t.ctl.rd Reg.dirBusy = 0)
      ∧ (∀ x, x ≠ d.val → t.ctl.dom x = s.ctl.dom x) ∧ Only s t (fun c => { c with regs := t.ctl.regs, doms := t.ctl.doms })) := by
  have hexec : exec (.domainDrained d) s = done (s.onCtl (·.domDrained d.val)) := congrArg done (State.whenMain_on s _ hup)
  have hdrain := Ctl.domDrained_empty hst hempty
  have hfreed : (s.ctl.putDom d.val (s.ctl.dom d.val).freed).dom d.val = (s.ctl.dom d.val).freed := Ctl.dom_putDom _ _ _
  have hothers : ∀ x, x ≠ d.val → (s.ctl.putDom d.val (s.ctl.dom d.val).freed).dom x = s.ctl.dom x := fun x hx => Ctl.dom_putDom_ne _ _ _ _ hx
  by_cases hmine : s.ctl.rd Reg.dirDom = d.val
  · rw [if_pos hmine] at hdrain
    exact Completes.onCtl hexec hdrain ⟨(congrArg Domain.st hfreed :), (congrArg Domain.agents hfreed :),
      fun _ => Ctl.rd_wr_fits _ _ _ (by decide) (by decide), hothers, rfl⟩
  · rw [if_neg hmine] at hdrain
    exact Completes.onCtl hexec hdrain ⟨(congrArg Domain.st hfreed :), (congrArg Domain.agents hfreed :), fun h => absurd h hmine, hothers, rfl⟩

/-! ### A domain that drains (R198) -/

/-- `d` is `c` with its rights, its domains and the status of the directory's command. -/
structure Ctl.SameDomains (c d : Ctl) : Prop where
  rights : c.Rights d
  doms : d.doms = c.doms
  status : d.reg Reg.dirBusy.addr = c.reg Reg.dirBusy.addr

theorem Ctl.SameDomains.refl (c : Ctl) : c.SameDomains c := ⟨⟨rfl, rfl, rfl, rfl⟩, rfl, rfl⟩
theorem Ctl.SameDomains.trans {c d e : Ctl} (h : c.SameDomains d) (k : d.SameDomains e) : c.SameDomains e :=
  ⟨h.rights.trans k.rights, k.doms.trans h.doms, k.status.trans h.status⟩

theorem Ctl.Answers.sameDomains {c d : Ctl} (h : c.Answers d) : c.SameDomains d :=
  have hsame := h.moves.same
  ⟨⟨(congrArg Ctl.bays hsame :), (congrArg Ctl.exts hsame :), (congrArg Ctl.eps hsame :), (congrArg Ctl.kvRegions hsame :)⟩,
    (congrArg Ctl.doms hsame :), h.regs _ (by decide) (by decide) (by decide)⟩

theorem Ctl.sameDomains_pegRecord (c : Ctl) (f : Frame) (status : Byte) (old : BitVec 128) (aflags : Byte) :
    c.SameDomains (c.pegRecord f status old aflags) := by
  unfold Ctl.pegRecord
  split
  · exact ⟨⟨rfl, rfl, rfl, rfl⟩, rfl, rfl⟩
  · exact ⟨⟨rfl, rfl, rfl, rfl⟩, rfl, rfl⟩

theorem Ctl.sameDomains_closeReq (c : Ctl) (id : Nat) : c.SameDomains (c.closeReq id) := ⟨⟨rfl, rfl, rfl, rfl⟩, rfl, rfl⟩

theorem Ctl.sameDomains_failReq (c : Ctl) (id : Nat) (f : Frame) (status detail : Byte) (addr : Word) :
    c.SameDomains (c.failReq id f status detail addr) := by
  unfold Ctl.failReq
  refine .trans ?_ (Ctl.answers_answer _ _ _ _ _ _ _ _ _).sameDomains
  split
  · exact (c.sameDomains_pegRecord _ _ _ _).trans (Ctl.sameDomains_closeReq _ _)
  · exact c.sameDomains_closeReq _

theorem Ctl.sameDomains_recallDom (c : Ctl) (d : Nat) : c.SameDomains (c.recallDom d) :=
  ⟨(c.homeWork_recallDom d).rights, c.doms_recallDom d, (c.homeWork_recallDom d).status⟩

/-- DESTROY makes the domain DRAINING; requests that fail and lines that are recalled leave every domain as it is. -/
theorem Ctl.sameDomains_drainDomain (c : Ctl) (d : Nat) : (c.putDom d { c.dom d with st := .draining }).SameDomains (c.drainDomain d) := by
  unfold Ctl.drainDomain
  extract_lets m waiting c'
  have hfail : c'.SameDomains (waiting.foldl (fun (x : Ctl) (o : OpenReq) => x.failReq o.id o.frame stDOMDOWN dNONE 0) c') :=
    List.foldlRecOn (motive := c'.SameDomains) waiting _ (.refl c') (fun x h o _ => h.trans (x.sameDomains_failReq _ _ _ _ _))
  have hdraining : (c'.dom d).st = .draining := congrArg Domain.st (Ctl.dom_putDom _ _ _)
  rw [Ctl.settleDom_draining (by rw [Ctl.dom, hfail.doms, ← Ctl.dom]; exact hdraining)]
  exact hfail.trans (Ctl.sameDomains_recallDom _ d)

theorem Ctl.domDestroy_up {c : Ctl} {d : Nat} (hbusy : c.rd Reg.dirBusy = 0) (hst : (c.dom d).st = .up) :
    c.domDestroy d = (c.dirStatus d 0 1).drainDomain d := by
  unfold Ctl.domDestroy
  rw [if_neg (by omega), hst]

theorem destroy_completes (d : Fin 64) (s : State) (hup : s.ctl.mainUp = true) (hbusy : s.ctl.rd Reg.dirBusy = 0)
    (hst : (s.ctl.dom d.val).st = .up) : Completes (.destroy d) s (fun t =>
      (t.ctl.dom d.val).st = .draining ∧ t.ctl.rd Reg.dirBusy = 1 ∧ (∀ x, x ≠ d.val → t.ctl.dom x = s.ctl.dom x)
      ∧ SameRights s t ∧ Keeps s t) := by
  have hexec : exec (.destroy d) s = done (s.onCtl (·.domDestroy d.val)) := congrArg done (State.whenMain_on s _ hup)
  have hsame := (s.ctl.dirStatus d.val 0 1).sameDomains_drainDomain d.val
  have hdom : ∀ x, ((s.ctl.dirStatus d.val 0 1).drainDomain d.val).dom x
      = ((s.ctl.dirStatus d.val 0 1).putDom d.val { (s.ctl.dirStatus d.val 0 1).dom d.val with st := .draining }).dom x := fun x => by
    rw [Ctl.dom, hsame.doms, ← Ctl.dom]
  have hrights : s.ctl.Rights ((s.ctl.dirStatus d.val 0 1).putDom d.val { (s.ctl.dirStatus d.val 0 1).dom d.val with st := .draining }) :=
    ⟨rfl, rfl, rfl, rfl⟩
  refine Completes.onCtl hexec (Ctl.domDestroy_up hbusy hst) ⟨?_, ?_, fun x hx => ?_, (hrights.trans hsame.rights).sameRights, rfl, rfl⟩
  · exact congrArg Domain.st ((hdom _).trans (Ctl.dom_putDom _ _ _))
  · exact ((Ctl.rd_congr hsame.status).trans (Ctl.putDom_rd _ _ _ _)).trans (Ctl.dirBusy_dirStatus _ _ _)
  · exact (hdom x).trans (Ctl.dom_putDom_ne _ _ _ _ hx)

end Sys2Proof.Machine

namespace Sys2Proof.Machine

/-! ### Pages found for lines that are lost (R196, R203) -/

theorem Ctl.Allots.found {c d x : Ctl} (h : c.Allots d) {bay : Nat} {t : Tier} {ban : List Nat} {quota : Bool} {l : Loc}
    (hl : d.allocLoc bay t ban quota = some (l, x)) : c.Allots x := h.trans (Ctl.allots_allocLoc hl)

theorem Ctl.Allots.putPage {c d : Ctl} (h : c.Allots d) (b p : Nat) (v : PageEntry) : c.Allots (d.putPage b p v) :=
  h.trans (d.pageWork_putPage b p v).allots

/-- A page, with its second copy or its parity as its extent asks, moves no more than the pages found. -/
theorem Ctl.allots_allocPage {c d : Ctl} {bay ei p : Nat} (h : c.allocPage bay ei p = some d) : c.Allots d := by
  unfold Ctl.allocPage at h
  extract_lets e t pin base at h
  by_cases hmirror : e.redun = 1
  · rw [if_pos hmirror] at h
    split at h
    · cases h
    · next l x hl =>
      split at h
      · cases h
      · next m y hm =>
        cases h
        exact (((Ctl.Allots.refl c).found hl).found hm).putPage _ _ _
  · rw [if_neg hmirror] at h
    by_cases hcoded : e.redun = 2
    · rw [if_pos hcoded] at h
      split at h
      · cases h
      · next l x hl =>
        have hdata := ((Ctl.Allots.refl c).found hl).putPage bay p (base l (x.page bay p))
        dsimp only at h
        split at h
        · cases h
          exact hdata
        · split at h
          · cases h
          · next lp y hp =>
            split at h
            · cases h
            · next lq z hq =>
              cases h
              have hparity := ((hdata.found hp).putPage _ _ _).found hq
              split
              · exact hparity.trans (z.pageWork_coded _).allots
              · exact hparity.putPage _ _ _
    · rw [if_neg hcoded] at h
      split at h
      · cases h
      · next l x hl =>
        cases h
        exact ((Ctl.Allots.refl c).found hl).putPage _ _ _

/-- Pages found for a range move the control records as pages found do; nothing is queued. -/
theorem State.allots_allocFlat {bay ei : Nat} {l : List (Nat × Nat × Nat)} : ∀ {s t : State}, s.allocFlat bay ei l = some t →
    s.ctl.Allots t.ctl ∧ t.pending = s.pending := by
  induction l with
  | nil =>
    intro s t h
    cases h
    exact ⟨.refl _, rfl⟩
  | cons x l ih =>
    intro s t h
    obtain ⟨p, off, n⟩ := x
    unfold State.allocFlat at h
    dsimp only at h
    split at h
    · exact ih h
    · split at h
      · split at h
        · exact ih h
        · next loc d hd =>
          obtain ⟨tier, -, hpick⟩ := List.exists_of_findSome?_eq_some hd
          obtain ⟨hrest, hpending⟩ := ih h
          have htaken := (d.pageWork_take loc).trans (Ctl.pageWork_charge _ bay loc.tier 1)
          exact ⟨(((Ctl.allots_pickIn hpick).trans htaken.allots).putPage _ _ _).trans hrest, hpending⟩
      · split at h
        · cases h
        · next d hd =>
          obtain ⟨hrest, hpending⟩ := ih h
          exact ⟨(Ctl.allots_allocPage hd).trans hrest, hpending⟩

/-! ### A domain that goes down (R195, R196) -/

/-- `t` is `s` as far as the domains, the open requests, EVSEQ and the queue go. -/
structure State.SameDomains (s t : State) : Prop where
  doms : t.ctl.doms = s.ctl.doms
  opens : t.ctl.opens = s.ctl.opens
  evseq : t.ctl.evseq = s.ctl.evseq
  pending : t.pending = s.pending

theorem State.SameDomains.refl (s : State) : s.SameDomains s := ⟨rfl, rfl, rfl, rfl⟩
theorem State.SameDomains.trans {s t u : State} (h : s.SameDomains t) (k : t.SameDomains u) : s.SameDomains u :=
  ⟨k.doms.trans h.doms, k.opens.trans h.opens, k.evseq.trans h.evseq, k.pending.trans h.pending⟩

theorem State.sameDomains_poisonLine (s : State) (line : Nat) : s.SameDomains (s.poisonLine line) := by
  unfold State.poisonLine
  split
  · exact .refl s
  · next target _ =>
    extract_lets bay a t segs
    have halloc : s.SameDomains t := by
      cases target with
      | flat i =>
        show s.SameDomains ((s.allocFlat bay i (flatPieces 2 a.toNat 128)).getD s)
        cases hfound : s.allocFlat bay i (flatPieces 2 a.toNat 128) with
        | none => exact .refl s
        | some u =>
          obtain ⟨hallots, hpending⟩ := State.allots_allocFlat hfound
          exact ⟨(congrArg Ctl.doms hallots.same :), hallots.opens, hallots.evseq, hpending⟩
      | node n i => exact .refl s
      | window n => exact .refl s
      | kv n => exact .refl s
    exact ⟨halloc.doms, halloc.opens, halloc.evseq, halloc.pending⟩

/-- The poison of every line of a domain (R196 step 4). -/
def State.poisonLines (s : State) (d : Nat) : State :=
  ((s.ctl.dir.filter (fun (e : DirEnt) => e.dom == d)).map (fun (e : DirEnt) => e.line)).foldl (fun (x : State) k => x.poisonLine k) s

theorem State.sameDomains_poisonLines (s : State) (d : Nat) : s.SameDomains (s.poisonLines d) :=
  List.foldlRecOn (motive := s.SameDomains) _ _ (.refl s) (fun x h k _ => h.trans (x.sameDomains_poisonLine k))

/-- The directory without the entries of a domain. -/
def Ctl.dropDom (c : Ctl) (d : Nat) : Ctl := { c with dir := c.dir.filter (fun (e : DirEnt) => e.dom != d) }

theorem Ctl.dom_ne_of_dropDom {c : Ctl} {d : Nat} {x : DirEnt} (h : x ∈ (c.dropDom d).dir) : x.dom ≠ d := by
  simpa using (List.mem_filter.mp h).2

/-- With nothing open, the entries of a domain are freed and nothing else happens. -/
theorem State.freeEntries_quiet {s : State} (h : s.ctl.opens = []) (d : Nat) : s.freeEntries d = s.onCtl (·.dropDom d) := by
  have hquiet : (s.onCtl (·.dropDom d)).ctl.opens = [] := h
  have hfold : ∀ {f : State → Nat → State}, (∀ k, f (s.onCtl (·.dropDom d)) k = s.onCtl (·.dropDom d)) → ∀ l : List Nat,
      l.foldl f (s.onCtl (·.dropDom d)) = s.onCtl (·.dropDom d) := fun hf l =>
    List.foldlRecOn (motive := (· = s.onCtl (·.dropDom d))) l _ rfl (fun x hx k _ => by rw [hx, hf])
  unfold State.freeEntries
  exact (congrArg (List.foldl (fun (x : State) q => x.startQueued q 9) · _) (hfold (State.enterHome_quiet hquiet) _)).trans
    (hfold (fun q => State.startQueued_quiet hquiet q 9) _)

/-- A domain that has failed. -/
def Domain.down (m : Domain) (cause ep : Nat) : Domain := { m with st := .failed, cause := cause, causeEp := ep }

/-- The control records when a domain has failed and its agents have been told. -/
def Ctl.failDom (c : Ctl) (d cause ep : Nat) : Ctl :=
  (c.dom d).agents.foldl (fun (x : Ctl) (a : Nat × Nat) =>
    if (x.ep a.2).live then x.homeMsg kCmp (c.dom d).bay a.2 (BitVec.ofNat 64 d) 0xFFFF stDOMDOWN dNONE [] none else x)
    (c.putDom d ((c.dom d).down cause ep))

theorem Ctl.sends_failDom (c : Ctl) (d cause ep : Nat) :
    (c.putDom d ((c.dom d).down cause ep)).Sends (c.failDom d cause ep) :=
  List.foldlRecOn (motive := Ctl.Sends _) _ _ (.refl _) (fun x h a _ => by
    split
    · exact h.trans (x.sends_homeMsg _ _ _ _ _ _ _ _ _)
    · exact h)

/-- An UP domain goes down with nothing open: its lines are poisoned, its entries freed, its event told. -/
theorem State.domainDown_quiet {s : State} {d : Nat} (hopens : s.ctl.opens = []) (hst : (s.ctl.dom d).st = .up) (cause ep : Nat) :
    s.domainDown d cause ep = ((({ s with ctl := s.ctl.failDom d cause ep } : State).poisonLines d).freeEntries d).onCtl
      (fun c => (c.event evDomainDown [d, (s.ctl.dom d).bay, cause, ep]).bump Reg.dirDomDown) := by
  have hnone : ∀ m, (s.ctl.putDom d m).opens = [] := fun _ => hopens
  unfold State.domainDown
  dsimp only
  rw [if_neg (by simp [hst]), if_pos hst, hnone, List.filter_nil, List.foldl_nil]
  rfl

/-- After a domain that was UP went down with nothing open. -/
structure FailedDomain (s t : State) (d cause : Nat) : Prop where
  failed : (t.ctl.dom d).st = .failed
  cause : (t.ctl.dom d).cause = cause
  freed : ∀ x ∈ t.ctl.dir, x.dom ≠ d
  opens : t.ctl.opens = []
  told : s.ctl.evseq < t.ctl.evseq
  pending : t.pending = s.pending

/-- The event that tells of it moves neither the domains nor the directory. -/
theorem FailedDomain.of_event {s : State} {t : State} {d cause : Nat} (hdom : (t.ctl.dom d).st = .failed ∧ (t.ctl.dom d).cause = cause)
    (hfreed : ∀ x ∈ t.ctl.dir, x.dom ≠ d) (hopens : t.ctl.opens = []) (hseq : t.ctl.evseq = s.ctl.evseq) (hpending : t.pending = s.pending)
    (args : List Nat) : FailedDomain s (t.onCtl (fun c => (c.event evDomainDown args).bump Reg.dirDomDown)) d cause := by
  have hsame := (t.ctl.posts_event evDomainDown args).same
  have hdoms : (t.ctl.event evDomainDown args).dom d = t.ctl.dom d := (congrArg (fun x : Ctl => x.dom d) hsame :)
  have hdir : (t.ctl.event evDomainDown args).dir = t.ctl.dir := (congrArg Ctl.dir hsame :)
  have hopens' : (t.ctl.event evDomainDown args).opens = t.ctl.opens := (congrArg Ctl.opens hsame :)
  rw [← hdoms] at hdom
  rw [← hdir] at hfreed
  exact ⟨hdom.1, hdom.2, hfreed, hopens'.trans hopens, hseq ▸ t.ctl.evseq_lt_event _ _, hpending⟩

theorem State.domainDown_failed {s : State} {d : Nat} (hopens : s.ctl.opens = []) (hst : (s.ctl.dom d).st = .up) (cause ep : Nat) :
    FailedDomain s (s.domainDown d cause ep) d cause := by
  have hdown := State.domainDown_quiet hopens hst cause ep
  have hsends := s.ctl.sends_failDom d cause ep
  have hlost := State.sameDomains_poisonLines { s with ctl := s.ctl.failDom d cause ep } d
  generalize ({ s with ctl := s.ctl.failDom d cause ep } : State).poisonLines d = t at hdown hlost
  have hquiet : t.ctl.opens = [] := (hlost.opens.trans hsends.opens).trans hopens
  have hdoms : t.ctl.doms = (s.ctl.putDom d ((s.ctl.dom d).down cause ep)).doms :=
    hlost.doms.trans (congrArg Ctl.doms hsends.same :)
  have hdom : t.ctl.dom d = (s.ctl.dom d).down cause ep := by
    rw [Ctl.dom, hdoms, ← Ctl.dom]
    exact Ctl.dom_putDom _ _ _
  rw [hdown, State.freeEntries_quiet hquiet]
  exact FailedDomain.of_event (t := t.onCtl (·.dropDom d)) ⟨(congrArg Domain.st hdom :), (congrArg Domain.cause hdom :)⟩
    (fun _ hx => Ctl.dom_ne_of_dropDom hx) hquiet (hlost.evseq.trans hsends.evseq) hlost.pending _

theorem dirAckTimeout_completes (bay : Fin 4096) (a : Word) (slot : Fin 64) (e : DirEnt) (tr : Trans) (s : State) (hup : s.ctl.mainUp = true)
    (hopens : s.ctl.opens = []) (hent : s.ctl.entOf (lineKeyOf bay.val (BitVec.ofNat 64 (a.toNat / 128 * 128))) = some e) (htrans : e.trans = some tr)
    (hawait : tr.await.contains slot.val = true) (hlate : tr.since + s.ctl.rd Reg.ackTimeout ≤ s.ctl.now) (hst : (s.ctl.dom e.dom).st = .up) :
    Completes (.dirAckTimeout bay a slot) s (fun t =>
      (t.ctl.dom e.dom).st = .failed ∧ (t.ctl.dom e.dom).cause = 2 ∧ (∀ x ∈ t.ctl.dir, x.dom ≠ e.dom) ∧ s.ctl.evseq < t.ctl.evseq
      ∧ t.pending = s.pending) := by
  have hfailed := State.domainDown_failed hopens hst 2 ((s.ctl.dom e.dom).epOf slot.val)
  have htimeout : s.dirAckTimeout bay.val a slot.val = s.domainDown e.dom 2 ((s.ctl.dom e.dom).epOf slot.val) := by
    unfold State.dirAckTimeout
    rw [hent]
    dsimp only
    rw [htrans]
    dsimp only
    rw [if_pos (by simp [hlate, List.contains_iff_mem.mp hawait]), State.settle_quiet hfailed.opens]
  have hexec : exec (.dirAckTimeout bay a slot) s = done (s.dirAckTimeout bay.val a slot.val) := congrArg done (if_pos hup)
  rw [htimeout] at hexec
  exact Completes.of_done hexec ⟨hfailed.failed, hfailed.cause, hfailed.freed, hfailed.told, hfailed.pending⟩

/-- Settles O21. An awaited answer ends its transaction when it is the last; a domain goes down with its lines poisoned and its entries freed;
the commands to domains touch the domain they name. It rests on log entries 30, 41 and 42, as the statement says. -/
theorem answersAndDomains : Obligations.AnswersAndDomains := by
  unfold Obligations.AnswersAndDomains
  exact ⟨invack_completes, fwdack_completes,
    fun f slot i k p e tr s h hkind hwhy hst howner _ _ hwbp hlen htarget hbay hseg _ hclean =>
      data_completes f slot i k p e tr s h hkind hwhy hst howner hwbp hlen htarget hbay hseg hclean,
    dirAckTimeout_completes, create_completes, addAgent_completes, destroy_completes, domainDrained_completes⟩

end Sys2Proof.Machine
